-- ==== Sys2Proof/Word.lean ====
section
/-! DEFINITION. The word types of the block: 64-bit registers, bytes. -/

namespace Sys2Proof

/-- A control-space register or thread register: 64 bits (chapter 0, "Registers"). -/
abbrev Word := BitVec 64

/-- One byte of memory. -/
abbrev Byte := BitVec 8

/-- A 64-byte line, byte 0 in bits [7:0] (R4). -/
abbrev Line := BitVec 512

end Sys2Proof
end

