-- ==== Sys2Proof/Types.lean ====
section
/-! DEFINITION. The data that commands carry: instruction fields, packets, link control blocks, host answers and
the other inputs that the block takes from outside. -/

namespace Sys2Proof.Machine

open Sys2Proof

/-- A Disil thread number t = 16·s + i (chapter 3). -/
abbrev ThreadNo := Fin 512

/-- A channel: 16·n + i for lightlane i of OEn, 256 + m for Em (chapter 7). -/
abbrev Channel := Fin 262

/-- A host port H0-H3. -/
abbrev PortNo := Fin 4

/-- A partition. -/
abbrev PartNo := Fin 64

/-- A Skidder. -/
abbrev SkidNo := Fin 128

/-- The fields of a Disil instruction word other than OPC (Table 10.2). -/
structure Insn where
  pg : BitVec 3 := 0
  pn : Bool := false
  d : BitVec 5 := 0
  a : BitVec 5 := 0
  b : BitVec 5 := 0
  st : BitVec 5 := 0
  imm : BitVec 32 := 0
deriving DecidableEq, Repr

/-- A fabric packet: the header fields of Table 7.1 that the CRCs do not fill, and the payload, byte 0 lowest. -/
structure Packet where
  dst : BitVec 16 := 0
  src : BitVec 16 := 0
  tag : BitVec 16 := 0
  opcode : BitVec 8 := 0
  vc : BitVec 3 := 0
  ordered : Bool := false
  pz : Bool := false
  mr : Bool := false
  last : Bool := false
  line : BitVec 46 := 0
  sub : BitVec 3 := 0
  dl : BitVec 2 := 0
  status : BitVec 4 := 0
  hops : BitVec 8 := 0
  eng : BitVec 7 := 0
  slot : BitVec 8 := 0
  bmc : BitVec 16 := 0
  lseq : BitVec 16 := 0
  payload : BitVec 640 := 0
  /-- of a load's response: the home answers it as cacheable (R120); the header has no bit for it (log entry 67) -/
  cacheable : Bool := false
deriving DecidableEq, Repr

/-- A TIME block (Table 7.8). -/
structure TimeBlock where
  dir : Bool
  exch : BitVec 8
  phase : BitVec 8
  tick : BitVec 64
  prevExch : BitVec 8
  prevValid : Bool
  prevPhase : BitVec 8
  prevTick : BitVec 64
deriving DecidableEq, Repr

/-- An IDENT block (Table 7.9). -/
structure IdentBlock where
  feid : BitVec 16
  port : BitVec 8
  lane : BitVec 4
  comb : BitVec 5
  plan : BitVec 8
  tstate : BitVec 3
  thops : BitVec 8
  master : BitVec 16
  serial : BitVec 64
deriving DecidableEq, Repr

/-- A link control block (Table 7.5) that the module sends. -/
inductive CtrlBlock
  | credit (ack next : BitVec 12) (freed : BitVec 192)
  | nak (expect : BitVec 12) (reason : BitVec 4)
  | time (b : TimeBlock)
  | ident (b : IdentBlock)
  | leave (feid : BitVec 16) (reason : BitVec 4) (tick : BitVec 64)
  | idle
  | ei
  | replay (seq : BitVec 12)
deriving DecidableEq, Repr

/-- Who makes a control-space access (Table 1.8): the management port, BAR0 of a host port, the JTAG access. -/
inductive Via
  | mgmt
  /-- with the PASID that the request carries, if any (R312) -/
  | bar0 (h : PortNo) (pasid : Option (BitVec 20))
  | jtag
deriving DecidableEq, Repr

/-- A configuration request to a host port (R302): a read of a dword of configuration space, or a write that sets what the
model holds of it. -/
inductive ConfigOp
  | read (off : BitVec 12)
  /-- Memory Space and Bus Master enables of the function, and Mem_Enable of CXL.mem -/
  | enables (io mem : Bool)
  /-- Cache_Enable of CXL.cache -/
  | cache (on : Bool)
  /-- MSI-X Enable and Function Mask -/
  | msix (on mask : Bool)
  /-- Completion Timeout Value of Device Control 2 (R317) -/
  | timeout (code : BitVec 4)
deriving DecidableEq, Repr

/-- What resets a host port (R321). -/
inductive PortResetKind
  | perst
  | hot
  | linkDown
  | flr
deriving DecidableEq, Repr

/-- A place in the module's own storage that an uncorrectable error strikes (Table 15.3), with the key of the entry there. -/
inductive Storage
  | sieveCache (key : Nat)
  | tlb (key : Nat)
  | walk (key : Nat)
  | icache (key : Nat)
  | route (f : BitVec 16)
  | group (g : Fin 4096)
  | plan (p : Fin 16)
  /-- the line at a position of the Remote Line Cache, most recently used first -/
  | rlc (i : Nat)
  /-- line `k` of collective entry `h` in the Reduction Store -/
  | reduction (h k : Nat)
  /-- the operand buffers of position `k` -/
  | operand (k : Fin 16)
  /-- an HBM line that the Home Unit holds on die -/
  | atomicLine (h : Nat)
  | sieveBucket (b : Fin 4194304)
  | ledgerSet (set : Fin 1048576)
  /-- the Switch Core buffer of the `i`-th packet that waits there: its payload, or its header (R139) -/
  | packet (i : Nat) (header : Bool)
deriving DecidableEq, Repr

/-- What an SPDM requester asks (R335). -/
inductive SpdmReq
  | getVersion
  | getCapabilities
  /-- whether ML-DSA-65, ML-KEM-768, SHA3-384 and AES-256-GCM are offered -/
  | negotiateAlgorithms (sign kem hash aead : Bool)
  | getDigests
  /-- certificate slot, offset and length -/
  | getCertificate (slot : Fin 16) (offset length : BitVec 16)
  | challenge (slot : Fin 16)
  /-- 0: the number of blocks; 1-4: a block; 255: all of them; and whether a signature is asked for -/
  | getMeasurements (index : BitVec 8) (sign : Bool)
  /-- whether mutual authentication or a pre-shared key is asked for -/
  | keyExchange (mauth psk : Bool)
  | finish
  | heartbeat
  | endSession
  | chunkGet (seq : BitVec 16)
  | vendorDefined (standard vendor : BitVec 16) (code part : BitVec 8) (nonce : BitVec 256)
deriving DecidableEq, Repr

/-- SPDM error codes (R335); `other` where the spec names none. -/
inductive SpdmError
  | invalidRequest
  | unsupportedRequest
  | other
deriving DecidableEq, Repr

/-- What the SPDM responder answers (R335). -/
inductive SpdmRsp
  | version (v : BitVec 8)
  | capabilities
  | algorithms
  /-- the digest of slot 0 -/
  | digests (d : List (BitVec 8))
  | certificate (data : List (BitVec 8)) (left : Nat)
  | challengeAuth (signature : BitVec 26472)
  | measurements (blocks : List (Nat × List (BitVec 8))) (signature : Option (BitVec 26472))
  | keyExchange (signature : BitVec 26472)
  | finish
  | heartbeat
  | endSession
  /-- a chunk of a large request has been taken -/
  | chunkAck (seq : Nat)
  /-- the response is large: it is fetched in chunks -/
  | large
  | chunk (seq : Nat) (last : Bool) (data : List (BitVec 8))
  | vendor (record : List (BitVec 8))
  | error (e : SpdmError)
deriving DecidableEq, Repr

/-- Where a packet enters the Switch Core: a channel, local port n (Table 15.10 codes it 512 + n), or the array port of
logical position n, which carries reduce traffic only (R12). -/
inductive Point
  | chan (c : Channel)
  | loc (n : Fin 16)
  | arr (n : Fin 16)
deriving DecidableEq, Repr

/-- The point of arrival as TEL_TRACE_CTL.POINT codes it; the array ports have no code there, and the model numbers them from
768. -/
def Point.code : Point → Nat
  | .chan c => c
  | .loc n => 512 + n
  | .arr n => 768 + n

/-- What a host answers to a CXL.io request of the module (R317). -/
inductive HostAnswer
  | success (poisoned : Bool) (data : Line)
  | unsupported
  | abort
deriving DecidableEq, Repr

/-- What the Reed-Solomon check of an HBM line finds on a read (R346). -/
inductive Ecc
  | clean
  | corrected
  | uncorrectable
deriving DecidableEq, Repr

/-- How a repeated run of a work item goes (R194). -/
inductive Rerun
  /-- the item's result, which passes its residue checks -/
  | good
  /-- another result, or one that fails its residue checks -/
  | wrong
  /-- the cell's own first wrong result again -/
  | same
deriving DecidableEq, Repr

/-- How the checks of a work item end (R192 to R194). -/
inductive Checks
  | passed
  /-- a residue failure: how the cell's repeated run goes, and whether the run on the next live cell passes -/
  | residue (again : Rerun) (next : Bool)
  /-- a duplicate mismatch with cell `other`: how the repeated runs on the cell, on the other cell and on a third one go -/
  | mismatch (other : Fin 64) (again otherAgain third : Rerun)
deriving DecidableEq, Repr

/-- The cell that a work item ran on, and its checks. -/
structure ItemRun where
  cell : Fin 64 := 0
  checks : Checks := .passed
deriving DecidableEq, Repr

/-- What expires with a request timeout (R23, R122). -/
inductive Expiry
  /-- the request in slot `key` (256·Skidder + slot) -/
  | slot (key : Fin 32768)
  /-- the INVL at position `i` of the home's tracker -/
  | invl (i : Nat)
  /-- the copy or forwarded record at position `i` of those that no mirror has acknowledged -/
  | mirror (i : Nat)
deriving DecidableEq, Repr

/-- A lane of either kind: lightlane, or 256 + electrical lane. -/
abbrev LaneKey := Fin 304

/-- An electrical port E0-E5. -/
abbrev ElkPortNo := Fin 6

/-- An electrical lane. -/
abbrev ElkLaneNo := Fin 48

/-- A lightlane channel. -/
abbrev LaneNo := Fin 256

/-- The access class that Table 5.5 check 5 and Table 5.3 check 5 judge. -/
inductive Acc
  | load | store | atomic | reduction | invl | own
deriving DecidableEq, Repr

/-- What a lane's decoder or pattern checker has counted since the last boundary (R298): codewords decoded, corrected and
uncorrectable, and symbols corrected; or bits checked, bit errors and symbol errors. -/
structure LaneCount where
  key : LaneKey
  a : BitVec 32 := 0
  b : BitVec 32 := 0
  c : BitVec 32 := 0
  d : BitVec 32 := 0
  /-- an electrical receiver's SNR estimate, 0.25 dB per code (Table 12.11) -/
  snr : BitVec 8 := 0
deriving DecidableEq, Repr

/-- What the boundary's sensors read: input power in W, voltage and current in 0.1 V and 0.1 A over the last tick (Table
16.16), and, every 2^10 ticks, MGT_SENSE's fields (Table 16.28); and what the lanes have counted since the last boundary. -/
structure Measured where
  watts : BitVec 11 := 0
  vin : BitVec 11 := 0
  iin : BitVec 9 := 0
  tdie : BitVec 8 := 0
  thbm : BitVec 8 := 0
  tlaser : BitVec 8 := 0
  rails : BitVec 16 := 0
  lanes : List LaneCount := []
deriving DecidableEq, Repr

/-- A received control block (R145): its channel, its bits, and whether one lies in a codeword that FEC could not correct (R285). -/
structure RxBlock where
  chan : Channel
  bits : BitVec 256
  flagged : Bool := false
deriving DecidableEq, Repr

/-- Symbols that a lane of a channel receives with an IDLE block. -/
structure RxSymbols where
  chan : Channel
  lane : LaneKey
  symbols : List (Fin 4) := []
deriving DecidableEq, Repr

/-- What a step of a collective takes from outside: the answers of host memory, and how its work items go (R193). -/
structure Supply where
  hosts : List HostAnswer := []
  runs : List ItemRun := []
deriving DecidableEq, Repr

/-- The tables whose entries are wider than 8 bytes (R27). -/
inductive Wide
  /-- word 0 of the Route Table entry of an FEID -/
  | route (f : BitVec 16)
  /-- word `w` of a Group Table entry -/
  | group (g : BitVec 12) (w : BitVec 7)
  /-- lane word of a light plan -/
  | plan (p : BitVec 4) (c : BitVec 8)
deriving DecidableEq, Repr

end Sys2Proof.Machine
end

