-- ==== Sys2Proof/Syntax.lean ====
section
/-! DEFINITION. The commands of the block: one constructor per row of the opcode table, in its order. The operands of a
register write are who makes it and the fields written; those of an event are what the outside shows of it. -/

namespace Sys2Proof

open Sys2Proof.Machine

/-- A command (opcode table). -/
inductive Instr
  /-- CONTROL_SPACE_WRITE (R6) -/
  | controlSpaceWrite (via : Via) (off : BitVec 26) (size : Nat) (v : Word)
  /-- CLEARING_READ (R8) -/
  | clearingRead (via : Via) (off : BitVec 26) (size : Nat)
  /-- TABLE_WORD_STAGE (R27) -/
  | tableWordStage (via : Via) (x : Wide) (v : Word)
  /-- ROUTE_ENTRY_COMMIT (R154) -/
  | routeEntryCommit (via : Via) (f : BitVec 16) (v : Word)
  /-- GROUP_ENTRY_COMMIT (R73) -/
  | groupEntryCommit (via : Via) (g : BitVec 12) (v : Word)
  /-- PLAN_COMMIT (R257) -/
  | planCommit (via : Via) (p : BitVec 4) (v : Word)
  /-- TICK_BOUNDARY (R45) -/
  | tickBoundary (m : Measured)
  /-- REF_INPUT_LOSS (R31) -/
  | refInputLoss (inp : Bool) (e1 e2 : Nat)
  /-- REF_INPUT_VALID (R31) -/
  | refInputValid (inp : Bool) (epochs : Nat)
  /-- REF_REVERT (R33) -/
  | refRevert
  /-- TIME_EXCHANGE (R39) -/
  | timeExchange (c : Channel) (phase : BitVec 8)
  /-- TIME_BLOCK (R39) -/
  | timeBlock (c : Channel) (b : TimeBlock) (rx : BitVec 8) (wait : BitVec 16)
  /-- HOLDOVER_EXPIRE (R43) -/
  | holdoverExpire
  /-- EPOCH_IN_PULSE (R41) -/
  | epochInPulse (phase : BitVec 8)
  /-- ELECTION_SETTLE (R388) -/
  | electionSettle
  /-- THREAD_START (R51) -/
  | threadStart (via : Via) (page : Option PartNo) (t : ThreadNo)
  /-- THREAD_HALT (R50) -/
  | threadHalt (via : Via) (page : Option PartNo) (t : ThreadNo)
  /-- THREAD_RESUME (R51) -/
  | threadResume (via : Via) (page : Option PartNo) (t : ThreadNo)
  /-- THREAD_SKIP (R51) -/
  | threadSkip (via : Via) (page : Option PartNo) (t : ThreadNo)
  /-- THREAD_RESET (R50) -/
  | threadReset (via : Via) (page : Option PartNo) (t : ThreadNo)
  /-- ICACHE_INVALIDATE (R63) -/
  | icacheInvalidate (via : Via) (p : PartNo)
  /-- ICACHE_FILL (R62) -/
  | icacheFill (t : ThreadNo)
  /-- WATCH_ENABLE (R57) -/
  | watchEnable (via : Via) (w : Fin 4096) (mode : Bool) (part : PartNo)
  /-- WATCH_DISABLE (R57) -/
  | watchDisable (via : Via) (w : Fin 4096) (mode : Bool) (part : PartNo)
  /-- WATCH_ARMED (R59) -/
  | watchArmed (w : Fin 4096) (host : Option Line)
  /-- WATCH_EVALUATE (R58) -/
  | watchEvaluate (w : Fin 4096)
  /-- WATCH_DEADLINE (R57) -/
  | watchDeadline (w : Fin 4096)
  /-- SNP_INV (R318) -/
  | snpInv (h : PortNo) (line : BitVec 46)
  /-- SNP_DATA (R318) -/
  | snpData (h : PortNo) (line : BitVec 46)
  /-- SNP_CUR (R318) -/
  | snpCur (h : PortNo) (line : BitVec 46)
  /-- WATCH_REREAD_DATA (R55) -/
  | watchRereadData (w : Fin 4096) (host : Option Line)
  /-- NOP (R229) -/
  | nop (t : ThreadNo) (f : Insn)
  /-- BR (R229) -/
  | br (t : ThreadNo) (f : Insn)
  /-- JAL (R229) -/
  | jal (t : ThreadNo) (f : Insn)
  /-- JR (R229) -/
  | jr (t : ThreadNo) (f : Insn)
  /-- HALT (R229) -/
  | halt (t : ThreadNo) (f : Insn)
  /-- TRAP (R253) -/
  | trap (t : ThreadNo) (f : Insn)
  /-- TRET (R253) -/
  | tret (t : ThreadNo) (f : Insn)
  /-- WAIT_T (R251) -/
  | waitT (t : ThreadNo) (f : Insn)
  /-- WAIT_T_WAKE (R251) -/
  | waitTWake (t : ThreadNo)
  /-- WAIT_W (R252) -/
  | waitW (t : ThreadNo) (f : Insn)
  /-- CSRR (R230) -/
  | csrr (t : ThreadNo) (f : Insn)
  /-- CHK (R250) -/
  | chk (t : ThreadNo) (f : Insn)
  /-- ADD (R229) -/
  | add (t : ThreadNo) (f : Insn)
  /-- SUB (R229) -/
  | sub (t : ThreadNo) (f : Insn)
  /-- AND (R229) -/
  | and (t : ThreadNo) (f : Insn)
  /-- OR (R229) -/
  | or (t : ThreadNo) (f : Insn)
  /-- XOR (R229) -/
  | xor (t : ThreadNo) (f : Insn)
  /-- SHL (R229) -/
  | shl (t : ThreadNo) (f : Insn)
  /-- SHR (R229) -/
  | shr (t : ThreadNo) (f : Insn)
  /-- SAR (R229) -/
  | sar (t : ThreadNo) (f : Insn)
  /-- MUL (R229) -/
  | mul (t : ThreadNo) (f : Insn)
  /-- MULHU (R229) -/
  | mulhu (t : ThreadNo) (f : Insn)
  /-- MINS (R229) -/
  | mins (t : ThreadNo) (f : Insn)
  /-- MAXS (R229) -/
  | maxs (t : ThreadNo) (f : Insn)
  /-- MINU (R229) -/
  | minu (t : ThreadNo) (f : Insn)
  /-- MAXU (R229) -/
  | maxu (t : ThreadNo) (f : Insn)
  /-- SEL (R229) -/
  | sel (t : ThreadNo) (f : Insn)
  /-- CMP (R229) -/
  | cmp (t : ThreadNo) (f : Insn)
  /-- ADDI (R229) -/
  | addi (t : ThreadNo) (f : Insn)
  /-- ANDI (R229) -/
  | andi (t : ThreadNo) (f : Insn)
  /-- ORI (R229) -/
  | ori (t : ThreadNo) (f : Insn)
  /-- XORI (R229) -/
  | xori (t : ThreadNo) (f : Insn)
  /-- SHLI (R229) -/
  | shli (t : ThreadNo) (f : Insn)
  /-- SHRI (R229) -/
  | shri (t : ThreadNo) (f : Insn)
  /-- SARI (R229) -/
  | sari (t : ThreadNo) (f : Insn)
  /-- MOVI (R229) -/
  | movi (t : ThreadNo) (f : Insn)
  /-- MOVHI (R229) -/
  | movhi (t : ThreadNo) (f : Insn)
  /-- CMPI (R229) -/
  | cmpi (t : ThreadNo) (f : Insn)
  /-- PLOG (R229) -/
  | plog (t : ThreadNo) (f : Insn)
  /-- CRC32C (R229) -/
  | crc32c (t : ThreadNo) (f : Insn)
  /-- WBUF (R229) -/
  | wbuf (t : ThreadNo) (f : Insn)
  /-- WBUF_L (R229) -/
  | wbufL (t : ThreadNo) (f : Insn)
  /-- LD (R233) -/
  | ld (t : ThreadNo) (f : Insn)
  /-- ST (R233) -/
  | st (t : ThreadNo) (f : Insn)
  /-- LD_L (R233) -/
  | ldL (t : ThreadNo) (f : Insn)
  /-- ST_L (R233) -/
  | stL (t : ThreadNo) (f : Insn)
  /-- ATOM (R235) -/
  | atom (t : ThreadNo) (f : Insn)
  /-- RED (R236) -/
  | red (t : ThreadNo) (f : Insn)
  /-- RESOLVE (R237) -/
  | resolve (t : ThreadNo) (f : Insn)
  /-- FENCE (R238) -/
  | fence (t : ThreadNo) (f : Insn)
  /-- INVL (R239) -/
  | invl (t : ThreadNo) (f : Insn)
  /-- OWN_ACQ (R239) -/
  | ownAcq (t : ThreadNo) (f : Insn)
  /-- OWN_REL (R239) -/
  | ownRel (t : ThreadNo) (f : Insn)
  /-- SKD_Q (R244) -/
  | skdQ (t : ThreadNo) (f : Insn)
  /-- KRN (R248) -/
  | krn (t : ThreadNo) (f : Insn)
  /-- COLL (R248) -/
  | coll (t : ThreadNo) (f : Insn)
  /-- COLL_BATCH (R248) -/
  | collBatch (t : ThreadNo) (f : Insn)
  /-- RSV (R248) -/
  | rsv (t : ThreadNo) (f : Insn)
  /-- HPOLL (R242) -/
  | hpoll (t : ThreadNo) (f : Insn)
  /-- HWAIT (R242) -/
  | hwait (t : ThreadNo) (f : Insn)
  /-- LP_SET (R249) -/
  | lpSet (t : ThreadNo) (f : Insn)
  /-- ENGINE_DESCRIPTOR_READ_DONE (R241) -/
  | engineDescriptorReadDone (op : Nat) (hs : List HostAnswer)
  /-- PAGE_WALK (R85) -/
  | pageWalk (t : ThreadNo) (fva : BitVec 64) (acc : Acc)
  /-- TLB_INVALIDATE (R88) -/
  | tlbInvalidate (via : Via) (p : PartNo) (scope drain : Bool)
  /-- XLT_RETRY (R98) -/
  | xltRetry (via : Via) (k : SkidNo)
  /-- XLT_ABORT (R98) -/
  | xltAbort (via : Via) (k : SkidNo)
  /-- MIG_HOLD_EXPIRE (R99) -/
  | migHoldExpire (key : Fin 32768)
  /-- SIEVE_READ (R92) -/
  | sieveRead (via : Via)
  /-- SIEVE_WRITE (R92) -/
  | sieveWrite (via : Via)
  /-- SIEVE_ACCESS_DONE (R92) -/
  | sieveAccessDone
  /-- SIEVE_PROBE (R91) -/
  | sieveProbe (via : Via) (key : BitVec 47)
  /-- SIEVE_PART_WRITE (R90) -/
  | sievePartWrite (via : Via) (p : PartNo) (v : Word)
  /-- SIEVE_SWEEP_DONE (R96) -/
  | sieveSweepDone (p : PartNo)
  /-- LEDGER_READ (R115) -/
  | ledgerRead (via : Via)
  /-- PACKET_RECEIVE (R147) -/
  | packetReceive (c : Channel) (p : Packet) (hcrc : BitVec 16) (trailer : BitVec 32) (flagged : Bool)
  /-- PACKET_SEND (R161) -/
  | packetSend (c : Channel)
  /-- PACKET_AGE_EXPIRE (R166) -/
  | packetAgeExpire
  /-- PATH_HOLD_EXPIRE (R82) -/
  | pathHoldExpire
  /-- GROUP_HOLD_EXPIRE (R81) -/
  | groupHoldExpire
  /-- CHANNEL_JOIN (R143) -/
  | channelJoin (c : Channel)
  /-- CREDIT_BLOCK (R162) -/
  | creditBlock (c : Channel) (ack next : BitVec 12) (freed : BitVec 192)
  /-- NAK_BLOCK (R148) -/
  | nakBlock (c : Channel) (expect : BitVec 12) (_reason : BitVec 4)
  /-- REPLAY_BLOCK (R147) -/
  | replayBlock (c : Channel) (seq : BitVec 12)
  /-- IDENT_BLOCK (R267) -/
  | identBlock (c : Channel) (b : IdentBlock)
  /-- LEAVE_BLOCK (R151) -/
  | leaveBlock (c : Channel) (feid : BitVec 16) (reason : BitVec 4) (_tick : BitVec 64)
  /-- IDLE_BLOCK (R145) -/
  | idleBlock (x : RxSymbols)
  /-- EI_BLOCK (R292) -/
  | eiBlock (c : Channel)
  /-- NAK_REPEAT (R147) -/
  | nakRepeat (c : Channel)
  /-- SILENT_PEER_TIMEOUT (R150) -/
  | silentPeerTimeout (c : Channel)
  /-- READ_REQUEST (R102) -/
  | readRequest (p : Packet) (e : Ecc)
  /-- WRITE_REQUEST (R102) -/
  | writeRequest (p : Packet)
  /-- ATOM_REQUEST (R116) -/
  | atomRequest (p : Packet) (fail : Bool)
  /-- RED_REQUEST (R116) -/
  | redRequest (p : Packet) (fail : Bool)
  /-- BREAD_REQUEST (R102) -/
  | breadRequest (p : Packet) (e : Ecc)
  /-- BWRITE_REQUEST (R102) -/
  | bwriteRequest (p : Packet)
  /-- INVL_REQUEST (R122) -/
  | invlRequest (p : Packet)
  /-- INV_REQUEST (R122) -/
  | invRequest (p : Packet)
  /-- SHARER_ACK (R122) -/
  | sharerAck (p : Packet)
  /-- OWN_ACQ_REQUEST (R123) -/
  | ownAcqRequest (p : Packet)
  /-- OWN_REL_REQUEST (R123) -/
  | ownRelRequest (p : Packet)
  /-- WB_REQUEST (R124) -/
  | wbRequest (p : Packet)
  /-- MCOPY_REQUEST (R127) -/
  | mcopyRequest (p : Packet)
  /-- MATOM_REQUEST (R129) -/
  | matomRequest (p : Packet)
  /-- MIRROR_ACK (R127) -/
  | mirrorAck (p : Packet)
  /-- RSP (R138) -/
  | rsp (p : Packet)
  /-- RSP_DATA (R138) -/
  | rspData (p : Packet) (cacheable : Bool)
  /-- RSP_ATOM (R138) -/
  | rspAtom (p : Packet)
  /-- REQUEST_TIMEOUT (R23) -/
  | requestTimeout (x : Expiry)
  /-- ATOMIC_RETRANSMIT (R117) -/
  | atomicRetransmit (key : Fin 32768)
  /-- HOST_FLUSH_READ (R102) -/
  | hostFlushRead (h : PortNo)
  /-- HOST_FLUSH_COMPLETION (R317) -/
  | hostFlushCompletion (h : PortNo) (a : HostAnswer)
  /-- HOST_COMPLETION (R317) -/
  | hostCompletion (h : PortNo) (hpa : Nat) (a : HostAnswer)
  /-- HOST_COMPLETION_TIMEOUT (R317) -/
  | hostCompletionTimeout (h : PortNo) (flush : Bool) (hpa : Nat)
  /-- SKIDDER_DESCRIPTOR_START (R244) -/
  | skidderDescriptorStart (k : SkidNo)
  /-- SKIDDER_LINE_ISSUE (R246) -/
  | skidderLineIssue (k : SkidNo)
  /-- BLOCK_TRANSFER_COMPLETE (R247) -/
  | blockTransferComplete (k : SkidNo)
  /-- KERNEL_START (R182) -/
  | kernelStart (k : Fin 16)
  /-- WORK_ITEM_DONE (R194) -/
  | workItemDone (k : Fin 16) (run : ItemRun) (hs : List HostAnswer)
  /-- KERNEL_COMPLETE (R189) -/
  | kernelComplete (pos : Option (Fin 16)) (hs : List HostAnswer)
  /-- CELL_RETIRE_WRITE (R194) -/
  | cellRetireWrite (via : Via) (a : Fin 17) (v : Word)
  /-- SPARE_REPLACE_GO (R195) -/
  | spareReplaceGo (via : Via) (k : Fin 16)
  /-- SPARE_REPLACEMENT_DONE (R195) -/
  | spareReplacementDone
  /-- KERNEL_SLOT_MOVE (R183) -/
  | kernelSlotMove (k : Fin 16)
  /-- LADLE_QUANTUM (R184) -/
  | ladleQuantum (k : Fin 16)
  /-- RESERVATION_GRANT (R205) -/
  | reservationGrant (p : PartNo) (cid : BitVec 32)
  /-- RESERVATION_WITHDRAW (R205) -/
  | reservationWithdraw (p : PartNo) (cid : BitVec 32)
  /-- RSV_EXPIRE (R206) -/
  | rsvExpire (p : PartNo) (cid : BitVec 32)
  /-- JOIN_MESSAGE (R207) -/
  | joinMessage (p : Packet)
  /-- JOIN_TIMEOUT (R207) -/
  | joinTimeout (p : PartNo) (cid : BitVec 32)
  /-- READY_MESSAGE (R208) -/
  | readyMessage (p : Packet)
  /-- AGREED_STEP_START (R208) -/
  | agreedStepStart (p : PartNo) (cid : BitVec 32) (x : Supply)
  /-- PHASE_START (R208) -/
  | phaseStart (p : PartNo) (cid : BitVec 32) (x : Supply)
  /-- COLL_PACKET (R211) -/
  | collPacket (p : Packet) (run : ItemRun) (hs : List HostAnswer)
  /-- XCHG_PACKET (R213) -/
  | xchgPacket (p : Packet) (hs : List HostAnswer)
  /-- XDONE_MESSAGE (R214) -/
  | xdoneMessage (p : Packet)
  /-- ABORT_MESSAGE (R219) -/
  | abortMessage (p : Packet)
  /-- COLLECTIVE_STALL (R219) -/
  | collectiveStall (p : PartNo) (cid : BitVec 32)
  /-- ABORT_COMPLETE (R219) -/
  | abortComplete (p : PartNo) (cid : BitVec 32)
  /-- COLLECTIVE_COMPLETE (R217) -/
  | collectiveComplete (p : PartNo) (cid : BitVec 32) (hs : List HostAnswer)
  /-- ABORT_RECORD_EXPIRE (R221) -/
  | abortRecordExpire (p : PartNo) (cid : BitVec 32)
  /-- XCHG_FAMILY_CHANGE (R215) -/
  | xchgFamilyChange
  /-- PLAN_SWITCH_REQUEST (R260) -/
  | planSwitchRequest (via : Via) (plan : BitVec 4) (tick : BitVec 56)
  /-- PLAN_SWITCH_START (R261) -/
  | planSwitchStart
  /-- SWITCH_RETUNE (R261) -/
  | switchRetune
  /-- SWITCH_FINE_SEARCH (R261) -/
  | switchFineSearch (steps : List (Fin 512 × Fin 9))
  /-- SWITCH_ACQUIRE (R270) -/
  | switchAcquire
  /-- SWITCH_COMPLETE (R261) -/
  | switchComplete
  /-- RING_LOCK_WINDOW (R263) -/
  | ringLockWindow (c : LaneNo) (drop : Bool) (err power : BitVec 16)
  /-- PILOT_CHECK (R266) -/
  | pilotCheck (c : LaneNo) (txBest : BitVec 5) (txLead : BitVec 16) (rxBest : BitVec 5) (rxLead : BitVec 16)
  /-- RING_SWEEP_DONE (R268) -/
  | ringSweepDone (c : LaneNo) (drop : Bool) (codes : BitVec 512) (found : Bool) (fine : Fin 9)
  /-- VERIFY_TIMEOUT (R265) -/
  | verifyTimeout (c : LaneNo)
  /-- OPTICAL_LOS (R269) -/
  | opticalLos (c : LaneNo) (p1 p2 : BitVec 16)
  /-- LIGHT_RETURN (R269) -/
  | lightReturn (c : LaneNo) (low : BitVec 16)
  /-- LASER_POWER_WINDOW (R275) -/
  | laserPowerWindow (b : Fin 4) (k : Fin 5) (power : BitVec 16)
  /-- SPARE_SOURCE_READY (R275) -/
  | spareSourceReady (b : Fin 4)
  /-- SPARE_WARM_TIMEOUT (R275) -/
  | spareWarmTimeout (b : Fin 4)
  /-- DARK_NOTICE (R277) -/
  | darkNotice (p : Packet)
  /-- DARK_ACK (R276) -/
  | darkAck (p : Packet)
  /-- DARK_ACK_DEADLINE (R276) -/
  | darkAckDeadline
  /-- DARK_WINDOW (R276) -/
  | darkWindow
  /-- DARK_WINDOW_END (R152) -/
  | darkWindowEnd
  /-- MARGIN_TEST_GO (R274) -/
  | marginTestGo (via : Via) (engines lanes start : BitVec 16)
  /-- MARGIN_TEST_START (R274) -/
  | marginTestStart
  /-- MARGIN_TEST_DONE (R273) -/
  | marginTestDone (c : LaneNo) (m : Option (BitVec 16 × BitVec 8 × BitVec 16))
  /-- MARGIN_COMMIT (R273) -/
  | marginCommit (via : Via)
  /-- LANE_RELOCK (R265) -/
  | laneRelock (via : Via) (c : LaneNo)
  /-- LANE_FAIL (R265) -/
  | laneFail (via : Via) (c : LaneNo)
  /-- OPT_LANE_TEST_WRITE (R271) -/
  | optLaneTestWrite (via : Via) (c : LaneNo) (v : Word)
  /-- OPT_CNT_SRC_WRITE (R271) -/
  | optCntSrcWrite (via : Via) (k : Fin 4) (v : Word)
  /-- OPT_INJECT_GO (R271) -/
  | optInjectGo (via : Via) (c : LaneNo) (kind : BitVec 2) (len : BitVec 8) (count interval : BitVec 16)
  /-- INJECT_REPEAT (R299) -/
  | injectRepeat (key : Fin 304)
  /-- LANE_LOCK (R290) -/
  | laneLock (key : LaneKey)
  /-- LANE_LOCK_LOSS (R290) -/
  | laneLockLoss (key : LaneKey)
  /-- ELECTRICAL_LOS (R294) -/
  | electricalLos (l : ElkLaneNo)
  /-- TRAINING_FRAME (R291) -/
  | trainingFrame (key : LaneKey) (word : BitVec 32) (inverted ready : Bool)
  /-- TRAINING_STAGE_LIMIT (R291) -/
  | trainingStageLimit (key : LaneKey)
  /-- PORT_TRAINING_DONE (R291) -/
  | portTrainingDone (m : ElkPortNo)
  /-- TRAINING_RETRY (R291) -/
  | trainingRetry (m : ElkPortNo)
  /-- IDLE_ENTER (R292) -/
  | idleEnter (m : ElkPortNo)
  /-- IDLE_EXIT (R293) -/
  | idleExit (m : ElkPortNo)
  /-- SKOIS_SLEEP (R296) -/
  | skoisSleep (m : ElkPortNo)
  /-- PORT_RETRAIN (R294) -/
  | portRetrain (via : Via) (m : ElkPortNo)
  /-- LANE_REJOIN (R294) -/
  | laneRejoin (m : ElkPortNo)
  /-- ELK_LANE_TEST_WRITE (R297) -/
  | elkLaneTestWrite (via : Via) (l : ElkLaneNo) (v : Word)
  /-- ELK_CNT_SRC_WRITE (R298) -/
  | elkCntSrcWrite (via : Via) (v : Word)
  /-- ELK_INJECT_GO (R299) -/
  | elkInjectGo (via : Via) (l : ElkLaneNo) (kind : BitVec 2) (len : BitVec 8) (count interval : BitVec 16)
  /-- MM_WINDOW_READ (R306) -/
  | mmWindowRead (h : PortNo) (hpa : BitVec 64) (e : Ecc)
  /-- MM_WINDOW_WRITE (R306) -/
  | mmWindowWrite (h : PortNo) (hpa : BitVec 64) (first : Fin 64) (count : Fin 65) (data : Line) (pz : Bool)
  /-- FW_WINDOW_READ (R307) -/
  | fwWindowRead (h : PortNo) (hpa : BitVec 64)
  /-- FW_WINDOW_WRITE (R307) -/
  | fwWindowWrite (h : PortNo) (hpa : BitVec 64) (first : Fin 64) (count : Fin 65) (data : Line) (pz : Bool)
  /-- HOST_FENCE (R313) -/
  | hostFence (via : Via) (h : PortNo) (token : BitVec 32) (go : Bool)
  /-- HOST_PORT_RESET (R321) -/
  | hostPortReset (h : PortNo) (k : PortResetKind)
  /-- HOST_LINK_TRAIN (R301) -/
  | hostLinkTrain (h : PortNo) (rate width : Fin 3)
  /-- CONFIG_REQUEST (R302) -/
  | configRequest (h : PortNo) (c : ConfigOp)
  /-- GET_VERSION (R335) -/
  | getVersion (h : PortNo)
  /-- GET_CAPABILITIES (R335) -/
  | getCapabilities (h : PortNo)
  /-- NEGOTIATE_ALGORITHMS (R335) -/
  | negotiateAlgorithms (h : PortNo) (sign kem hash aead : Bool)
  /-- GET_DIGESTS (R335) -/
  | getDigests (h : PortNo)
  /-- GET_CERTIFICATE (R335) -/
  | getCertificate (h : PortNo) (slot : Fin 16) (off len : BitVec 16)
  /-- CHALLENGE (R335) -/
  | challenge (h : PortNo) (slot : Fin 16)
  /-- GET_MEASUREMENTS (R335) -/
  | getMeasurements (h : PortNo) (index : BitVec 8) (sign : Bool)
  /-- KEY_EXCHANGE (R335) -/
  | keyExchange (h : PortNo) (mauth psk : Bool)
  /-- FINISH (R335) -/
  | finish (h : PortNo)
  /-- HEARTBEAT (R335) -/
  | heartbeat (h : PortNo)
  /-- END_SESSION (R335) -/
  | endSession (h : PortNo)
  /-- CHUNK_SEND (R335) -/
  | chunkSend (h : PortNo) (seq : BitVec 16) (whole : Option SpdmReq)
  /-- CHUNK_GET (R335) -/
  | chunkGet (h : PortNo) (seq : BitVec 16)
  /-- VENDOR_DEFINED_REQUEST (R335) -/
  | vendorDefinedRequest (h : PortNo) (standard vendor : BitVec 16) (code part : BitVec 8) (nonce : BitVec 256)
  /-- PART_ENABLE (R324) -/
  | partEnable (via : Via) (p : PartNo)
  /-- PART_SEAL (R324) -/
  | partSeal (via : Via) (p : PartNo)
  /-- SEAL_COMPLETE (R324) -/
  | sealComplete (p : PartNo)
  /-- PART_RESET (R325) -/
  | partReset (via : Via) (p : PartNo) (tick : BitVec 54)
  /-- PART_DISABLE (R325) -/
  | partDisable (via : Via) (p : PartNo) (tick : BitVec 54)
  /-- PARTITION_RESET (R326) -/
  | partitionReset (p : PartNo)
  /-- PARTITION_RESET_DONE (R326) -/
  | partitionResetDone (p : PartNo)
  /-- RANGE_ADD (R327) -/
  | rangeAdd (via : Via) (j : Fin 256) (secret : Bool) (p : PartNo) (base : BitVec 28) (size : BitVec 16)
  /-- RANGE_REMOVE (R327) -/
  | rangeRemove (via : Via) (j : Fin 256)
  /-- SCRUB_DONE (R326) -/
  | scrubDone (j : Fin 256)
  /-- KEY_UNWRAP (R336) -/
  | keyUnwrap (via : Via) (p : PartNo) (slot : Fin 16) (src : BitVec 46)
  /-- UNWRAP_DONE (R336) -/
  | unwrapDone
  /-- KEY_CLEAR (R337) -/
  | keyClear (via : Via) (p : PartNo) (slot : Fin 16)
  /-- QUOTE_GO (R333) -/
  | quoteGo (via : Via) (p : PartNo) (dst : BitVec 46)
  /-- QUOTE_DONE (R334) -/
  | quoteDone
  /-- LOAD_GO (R338) -/
  | loadGo (via : Via) (range : Fin 256) (slot : Fin 16) (first count token : BitVec 16)
  /-- CHUNK_DONE (R338) -/
  | chunkDone (e : Fin 4)
  /-- DEBUG_OPEN (R340) -/
  | debugOpen (via : Via)
  /-- DEBUG_CLOSE (R340) -/
  | debugClose (via : Via)
  /-- DEBUG_EPOCH_WRITE_DONE (R341) -/
  | debugEpochWriteDone (ok : Bool)
  /-- PATROL_SCRUB (R346) -/
  | patrolScrub (e : Ecc)
  /-- SRAM_UNCORRECTABLE (R347) -/
  | sramUncorrectable (x : Storage)
  /-- LEDGER_SET_LOST_EXPIRE (R347) -/
  | ledgerSetLostExpire (n : Fin 1048576)
  /-- IDDAUM_LOCKSTEP_RESTART (R344) -/
  | iddaumLockstepRestart
  /-- TRAY_PRESENT_DEASSERT (R357) -/
  | trayPresentDeassert
  /-- TRAY_DRAIN_END (R357) -/
  | trayDrainEnd
  /-- LOG_READ (R362) -/
  | logRead (via : Via) (poison : Bool) (j : Fin 262144)
  /-- INPUT_UNDERVOLTAGE (R365) -/
  | inputUndervoltage
  /-- INPUT_POWER_LOSS (R365) -/
  | inputPowerLoss
  /-- INPUT_OVERVOLTAGE (R365) -/
  | inputOvervoltage
  /-- EMERGENCY_SHED_START (R369) -/
  | emergencyShedStart
  /-- EMERGENCY_SHED_END (R369) -/
  | emergencyShedEnd
  /-- TEMPERATURE_HOT (R371) -/
  | temperatureHot
  /-- TEMPERATURE_COOL (R371) -/
  | temperatureCool
  /-- THERMAL_SHUTDOWN (R371) -/
  | thermalShutdown
  /-- I3C_ENTDAA (R413) -/
  | i3cEntdaa (a : BitVec 7)
  /-- I3C_POWER_READ (R413) -/
  | i3cPowerRead
  /-- I3C_CAP_WRITE (R413) -/
  | i3cCapWrite (v : BitVec 16)
  /-- MGMT_DATAGRAM_READ (R412) -/
  | mgmtDatagramRead (src seq : BitVec 32) (off : BitVec 64)
  /-- MGMT_DATAGRAM_WRITE (R412) -/
  | mgmtDatagramWrite (src seq : BitVec 32) (off : BitVec 64) (v : Word)
  /-- POWER_GOOD (R386) -/
  | powerGood
  /-- RESET_N_ASSERT (R372) -/
  | resetNAssert (cycles : Nat)
  /-- WARM_RESET (R373) -/
  | warmReset (via : Via) (key : BitVec 16)
  /-- SKIDDER_RESET (R375) -/
  | skidderReset (via : Via) (key : BitVec 16) (k : SkidNo)
  /-- SETTINGS_PROGRAM (R383) -/
  | settingsProgram (via : Via) (src : BitVec 46)
  /-- PROGRAM_DONE (R383) -/
  | programDone
  /-- FW_SWAP (R385) -/
  | fwSwap (via : Via)
  /-- FW_SWAP_DONE (R385) -/
  | fwSwapDone
  /-- CRUISE_C0_REGULATORS (R386) -/
  | cruiseC0Regulators
  /-- CRUISE_C1_SETTINGS_LOAD (R380) -/
  | cruiseC1SettingsLoad
  /-- CRUISE_C2_TRAINING (R291) -/
  | cruiseC2Training
  /-- CRUISE_C3_OPTICS (R272) -/
  | cruiseC3Optics (powers : List (BitVec 16))
  /-- CRUISE_C4_LINKS (R387) -/
  | cruiseC4Links
  /-- CRUISE_C5_ELECTION (R388) -/
  | cruiseC5Election
  /-- CRUISE_C6_MAP_FLOOD (R389) -/
  | cruiseC6MapFlood
  /-- MAP_MESSAGE (R389) -/
  | mapMessage (p : Packet)
  /-- MAP_QUIET (R389) -/
  | mapQuiet
  /-- CRUISE_C7_ROUTES (R390) -/
  | cruiseC7Routes
  /-- CRUISE_C8_READY (R391) -/
  | cruiseC8Ready
  /-- MGMT_READY (R391) -/
  | mgmtReady (p : Packet)
  /-- CRUISE_PHASE_LIMIT (R386) -/
  | cruisePhaseLimit
  /-- AUTOROUTE (R391) -/
  | autoroute
  /-- COUNTER_BLOCK (R393) -/
  | counterBlock
  /-- SNAP_GO (R393) -/
  | snapGo (via : Via)
  /-- TRACE_SPLIT_WRITE (R396) -/
  | traceSplitWrite (via : Via) (units : BitVec 7)
  /-- TRACE_RUN (R398) -/
  | traceRun (via : Via) (v : Word)
  /-- TRACE_ARMED_START (R398) -/
  | traceArmedStart
  /-- DEBUG_LINE_READ (R400) -/
  | debugLineRead (via : Via)
  /-- DEBUG_LINE_WRITE (R400) -/
  | debugLineWrite (via : Via)
  /-- ACCUMULATOR_READ (R399) -/
  | accumulatorRead (via : Via) (k : Fin 16) (c : Fin 64) (a : Fin 8) (j : Fin 6)
  /-- EXTEST (R402) -/
  | extest
  /-- IDCODE (R401) -/
  | idcode
  /-- SAMPLE (R401) -/
  | sample (pins : Nat)
  /-- PRELOAD (R401) -/
  | preload (cells : Nat)
  /-- CLAMP (R402) -/
  | clamp
  /-- HIGHZ (R402) -/
  | highz
  /-- EXTEST_PULSE (R402) -/
  | extestPulse
  /-- EXTEST_TRAIN (R402) -/
  | extestTrain
  /-- CSR_ACCESS (R403) -/
  | csrAccess (off : BitVec 23) (write : Bool) (data : Word)
  /-- SEC_DEBUG (R340) -/
  | secDebug
  /-- BYPASS (R401) -/
  | bypass
  /-- JTAG_TAP_RESET (R401) -/
  | jtagTapReset
  /-- PATTERN_CHECKER_LOCK (R297) -/
  | patternCheckerLock (key : LaneKey)
  /-- PATTERN_CHECKER_RELOCK (R297) -/
  | patternCheckerRelock (key : LaneKey)
  /-- BAD_CONTROL_BLOCK (R145) -/
  | badControlBlock (x : RxBlock)
  /-- HDM_DECODER_COMMIT (R304) -/
  | hdmDecoderCommit (h : PortNo) (d : Fin 2) (base size : BitVec 64) (iw ig : BitVec 4)
  /-- MSIX_VECTOR_UNMASK (R319) -/
  | msixVectorUnmask (h : PortNo) (v : Option (Fin 2048))
  /-- IDDAUM_RESTART_DONE (R344) -/
  | iddaumRestartDone
  /-- UNDERVOLTAGE_END (R365) -/
  | undervoltageEnd
  /-- SCHEDULER_BANK_FAULT (R195) -/
  | schedulerBankFault (k : Fin 16)
deriving DecidableEq, Repr

end Sys2Proof
end

