-- ==== Sys2Proof/Config.lean ====
section
/-! DEFINITION. What the spec leaves open: opaque functions that no proof can see into. -/

namespace Sys2Proof.Config

/-- Free values: the n-th value that the spec leaves open. Nothing is known of it. -/
opaque freeNat : Nat → Nat

/-- VC7 packets that the management mailbox holds (R158; the spec gives no number). -/
opaque mailbox : Nat

/-- Parity of a codeword's message bits under RS(544,514), or RS(272,257) where the flag is set; the generator polynomials are
IEEE 802.3's (R283) and are not in the spec. -/
opaque rsParity : Bool → List Bool → Nat

/-- SHAKE256 (FIPS 202) of a byte string, with the number of output bytes; the standard's function is not in the spec. -/
opaque shake256 : List Byte → Nat → List Byte

/-- Which set of the Sieve cache a key falls in (R94: 8-way set associative; the spec does not say which). -/
opaque sieveCacheSet : Nat → Nat

/-- Which set of an instruction cache a line falls in (R62: 4-way set associative). -/
opaque icacheSet : Nat → Nat

/-- Which set of the Remote Line Cache a line falls in (R121: 16-way set associative). -/
opaque rlcSet : Nat → Nat

/-- SIZE of the Sieve granule at another module that covers a line of a home: home, sub-ID, line, tag. How the owner of a
granule learns it is not in the spec (R123; log entry 67). -/
opaque granuleSize : Nat → Nat → Nat → BitVec 16 → Nat

/-- CRC-32C of a work item's key (R193), for kernel tiles (true: descriptor FVA and tile number) and reduction lines (false:
collective ID and line number); the spec names what the key holds, and not its bytes (log entry 20). -/
opaque itemCrc : Bool → Nat → Nat → Nat

/-- Which set of the Sharer Table a map falls in (R120: 8-way set associative). -/
opaque sharerSet : Nat → Nat

/-- SHA3-384 (FIPS 202) of a byte string. -/
opaque sha384 : List Byte → List Byte

/-- ML-KEM-768 (FIPS 203): the encapsulation key, and the decapsulation key, made from random input. -/
opaque kemPublic : Nat → BitVec 9472
opaque kemSecret : Nat → BitVec 19200

/-- ML-KEM-768 decapsulation of a ciphertext. -/
opaque kemDecaps : BitVec 19200 → List Byte → BitVec 256

/-- AES-256-GCM opening: key, IV, additional data, ciphertext and tag; none where the tag fails. -/
opaque gcmOpen : BitVec 256 → List Byte → List Byte → List Byte → List Byte → Option (List Byte)

/-- ML-DSA-65 (FIPS 204) signature by this module's identity key: random input, message and context. -/
opaque sign : Nat → List Byte → List Byte → BitVec 26472

/-- ML-DSA-65 verification: public key, message, context and signature. -/
opaque verify : List Byte → List Byte → List Byte → List Byte → Bool

/-- Whether a firmware or microcode image carries a header key of Palerami's root and a signature that verifies (R331);
the header's layout is not in the spec. -/
opaque imageSigned : List Byte → Bool

/-- The SVN in an image's signed header (R331). -/
opaque imageSvn : List Byte → Nat

/-- Whether the identity key that the on-die source and this helper data yield is the key in this certificate chain (R330). -/
opaque identityMatches : List Byte → List Byte → Bool

/-- Bytes, less one, of the pieces in which a large SPDM response travels (R322: a mailbox object is at most 4 KiB). -/
opaque spdmChunk : Nat

end Sys2Proof.Config
end

