-- ==== Sys2Proof/Machine/Bits.lean ====
section
/-! DEFINITION. Bit fields (R3), byte order (R4), sign extension, Gray code and small list helpers. -/

namespace Sys2Proof.Machine

open Sys2Proof

/-- The field of `w` bits starting at bit `lo` (R3). -/
def getBits (n lo w : Nat) : Nat := n / 2 ^ lo % 2 ^ w

/-- `n` with its field of `w` bits at bit `lo` set to the low bits of `v`. -/
def putBits (n lo w v : Nat) : Nat :=
  n % 2 ^ lo + v % 2 ^ w * 2 ^ lo + n / 2 ^ (lo + w) * 2 ^ (lo + w)

/-- Bit `i` of a number. -/
def bitOf (n i : Nat) : Bool := n / 2 ^ i % 2 == 1

/-- 1 for true, 0 for false. -/
def b2n (b : Bool) : Nat := if b then 1 else 0

/-- The value of a `w`-bit two's complement field. -/
def signedOf (w n : Nat) : Int :=
  if n % 2 ^ w < 2 ^ (w - 1) then (n % 2 ^ w : Nat) else (n % 2 ^ w : Nat) - (2 ^ w : Nat)

/-- The `w`-bit two's complement field of an integer. -/
def fieldOf (w : Nat) (i : Int) : Nat := (i % (2 ^ w : Nat)).toNat

/-- A `w`-bit field sign-extended to a 64-bit word. -/
def sextTo64 (w n : Nat) : Word := BitVec.ofInt 64 (signedOf w n)

/-- Little-endian bytes of a number, lowest first (R4). -/
def leBytes : Nat → Nat → List Byte
  | 0, _ => []
  | k + 1, n => BitVec.ofNat 8 n :: leBytes k (n / 256)

/-- The number that little-endian bytes spell (R4). -/
def ofLeBytes : List Byte → Nat
  | [] => 0
  | b :: r => b.toNat + 256 * ofLeBytes r

/-- Byte `i` of a line (R4). -/
def lineByte (l : Line) (i : Nat) : Byte := BitVec.ofNat 8 (getBits l.toNat (8 * i) 8)

/-- The 64 bytes of a line, byte 0 first. -/
def lineBytes (l : Line) : List Byte := leBytes 64 l.toNat

/-- The line that 64 bytes spell. -/
def lineOf (bs : List Byte) : Line := BitVec.ofNat 512 (ofLeBytes bs)

/-- The numbers `lo`, ..., `lo + n - 1`. -/
def upFrom : Nat → Nat → List Nat
  | _, 0 => []
  | lo, n + 1 => lo :: upFrom (lo + 1) n

/-- The greatest element of a list, 0 for none. -/
def maxOf (l : List Nat) : Nat := l.foldl max 0

/-- Replace element `i`. -/
def setAt {α : Type} : List α → Nat → α → List α
  | [], _, _ => []
  | _ :: r, 0, x => x :: r
  | a :: r, i + 1, x => a :: setAt r i x

/-- `n` saturated to a `w`-bit counter. -/
def satBits (w n : Nat) : Nat := min n (2 ^ w - 1)

end Sys2Proof.Machine
end

