-- ==== Sys2Proof/Machine/Crc.lean ====
section
/-! DEFINITION. The two cyclic redundancy codes of the spec: CRC-16 of the header (R134) and CRC-32C (Table 3.5). -/

namespace Sys2Proof.Machine

open Sys2Proof

/-- One bit step of CRC-16 with polynomial 0x1021, most significant bit first. -/
def crc16Bit (c : BitVec 16) : BitVec 16 :=
  if c.msb then (c <<< 1) ^^^ 0x1021#16 else c <<< 1

/-- CRC-16 advanced over one byte. -/
def crc16Byte (c : BitVec 16) (b : Byte) : BitVec 16 :=
  let x := c ^^^ ((b.zeroExtend 16) <<< 8)
  crc16Bit (crc16Bit (crc16Bit (crc16Bit (crc16Bit (crc16Bit (crc16Bit (crc16Bit x)))))))

/-- HCRC of header bytes: initial value 0xFFFF, no reflection, no final XOR (R134). -/
def crc16 (bs : List Byte) : BitVec 16 := bs.foldl crc16Byte 0xFFFF#16

/-- One bit step of CRC-32C, reflected polynomial 0x1EDC_6F41. -/
def crc32cBit (c : BitVec 32) : BitVec 32 :=
  if c.getLsbD 0 then (c >>> 1) ^^^ 0x82F63B78#32 else c >>> 1

/-- CRC-32C state advanced over one byte. -/
def crc32cByte (c : BitVec 32) (b : Byte) : BitVec 32 :=
  let x := c ^^^ (b.zeroExtend 32)
  crc32cBit (crc32cBit (crc32cBit (crc32cBit (crc32cBit (crc32cBit (crc32cBit (crc32cBit x)))))))

/-- CRC-32C state advanced over bytes, with no initial value and no final XOR (R229). -/
def crc32cState (c : BitVec 32) (bs : List Byte) : BitVec 32 := bs.foldl crc32cByte c

/-- CRC-32C with initial value and final XOR 0xFFFF_FFFF (Table 3.5). -/
def crc32c (bs : List Byte) : BitVec 32 := crc32cState 0xFFFFFFFF#32 bs ^^^ 0xFFFFFFFF#32

end Sys2Proof.Machine
end

