-- ==== Sys2Proof/Machine/FMap.lean ====
section
/-! DEFINITION. Sparse tables: lists of (key, value) pairs in one canonical form, keys strictly rising and no entry
equal to what an unlisted key reads as. -/

namespace Sys2Proof.Machine

/-- A sparse table: what an unlisted key reads as is given at each use. -/
abbrev FMap (α : Type) := List (Nat × α)

/-- The value at a key, `d k` where the key is not listed. -/
def FMap.get {α : Type} (d : Nat → α) : FMap α → Nat → α
  | [], k => d k
  | (k', v) :: r, k => if k < k' then d k else if k = k' then v else FMap.get d r k

/-- Write a value at a key, keeping the canonical form (what follows a removed entry has only larger keys). -/
def FMap.set {α : Type} [DecidableEq α] (d : Nat → α) : FMap α → Nat → α → FMap α
  | [], k, v => if v = d k then [] else [(k, v)]
  | (k', v') :: r, k, v =>
    if k < k' then (if v = d k then (k', v') :: r else (k, v) :: (k', v') :: r)
    else if k = k' then (if v = d k then r.filter (fun e => decide (k < e.1)) else (k, v) :: r)
    else (k', v') :: FMap.set d r k v

/-- Every listed key is above `lo`, keys rise strictly, no listed value is its key's default. -/
def FMap.wfFrom {α : Type} [DecidableEq α] (d : Nat → α) : Option Nat → FMap α → Bool
  | _, [] => true
  | lo, (k, v) :: r =>
    (match lo with | none => true | some l => decide (l < k)) && decide (v ≠ d k) && FMap.wfFrom d (some k) r

/-- The canonical form of a sparse table. -/
def FMap.wf {α : Type} [DecidableEq α] (d : Nat → α) (m : FMap α) : Bool := FMap.wfFrom d none m

/-- The entry at a key of a table of records, none where the key is not listed. -/
def FMap.find {α : Type} : FMap α → Nat → Option α
  | [], _ => none
  | (k', v) :: r, k => if k < k' then none else if k = k' then some v else FMap.find r k

/-- List a record at a key, replacing the one there. -/
def FMap.put {α : Type} : FMap α → Nat → α → FMap α
  | [], k, v => [(k, v)]
  | (k', v') :: r, k, v =>
    if k < k' then (k, v) :: (k', v') :: r
    else if k = k' then (k, v) :: r
    else (k', v') :: FMap.put r k v

/-- Unlist a key. -/
def FMap.del {α : Type} : FMap α → Nat → FMap α
  | [], _ => []
  | (k', v') :: r, k =>
    if k < k' then (k', v') :: r
    else if k = k' then r.filter (fun e => decide (k < e.1))
    else (k', v') :: FMap.del r k

/-- Keys rise strictly above `lo`: the canonical form of a table of records. -/
def FMap.sortedFrom {α : Type} : Option Nat → FMap α → Bool
  | _, [] => true
  | lo, (k, _) :: r => (match lo with | none => true | some l => decide (l < k)) && FMap.sortedFrom (some k) r

/-- The canonical form of a table of records. -/
def FMap.sorted {α : Type} (m : FMap α) : Bool := FMap.sortedFrom none m

/-- Remove the keys that satisfy a predicate (they read as their default again). -/
def FMap.drop {α : Type} (p : Nat → Bool) (m : FMap α) : FMap α := m.filter fun e => !p e.1

/-- The listed keys. -/
def FMap.keys {α : Type} (m : FMap α) : List Nat := m.map (·.1)

end Sys2Proof.Machine
end

