-- ==== Sys2Proof/Machine/Regs.lean ====
section
/-! DEFINITION. The control-space register map: where each field of each register lies (the register tables of
chapters 2 to 17), with access codes (Table 0.3), numeric resets, load defaults (R381) and allowed values (R9). -/

namespace Sys2Proof.Machine

/-- A register field: the register's control-space offset, the field's lowest bit and its width. -/
structure Field where
  off : Nat
  lo : Nat
  w : Nat
deriving DecidableEq, Repr

/-- Access codes (Table 0.3); RSVD bits belong to no field. -/
inductive Access
  | ro | rw | wo | w1c | w1s | rc | rwl
deriving DecidableEq, Repr

/-- One field of a register: place, access code, numeric reset, whether the settings load it (S), its load default
(R381), and the intervals of values its Meaning allows (none given: all). -/
structure FieldSpec where
  lo : Nat
  w : Nat
  acc : Access
  reset : Nat := 0
  loaded : Bool := false
  dflt : Nat := 0
  ok : List (Nat × Nat) := []
deriving DecidableEq, Repr

/-- A register or register array: its first offset, its indexes as (count, stride), its fields. -/
structure RegSpec where
  base : Nat
  dims : List (Nat × Nat)
  fields : List FieldSpec
deriving DecidableEq, Repr

/-- GLB_TICK (chapter 2): its offset. -/
def R.GLB_TICK.adr : Nat := 0x100
def R.GLB_TICK.TICK : Field := ⟨R.GLB_TICK.adr, 0, 64⟩

/-- GLB_TIME_STATUS (chapter 2): its offset. -/
def R.GLB_TIME_STATUS.adr : Nat := 0x108
def R.GLB_TIME_STATUS.STATE : Field := ⟨R.GLB_TIME_STATUS.adr, 0, 3⟩
def R.GLB_TIME_STATUS.REF_SEL : Field := ⟨R.GLB_TIME_STATUS.adr, 3, 1⟩
def R.GLB_TIME_STATUS.REFA_OK : Field := ⟨R.GLB_TIME_STATUS.adr, 4, 1⟩
def R.GLB_TIME_STATUS.REFB_OK : Field := ⟨R.GLB_TIME_STATUS.adr, 5, 1⟩
def R.GLB_TIME_STATUS.MASTER : Field := ⟨R.GLB_TIME_STATUS.adr, 6, 1⟩
def R.GLB_TIME_STATUS.PARENT_FEID : Field := ⟨R.GLB_TIME_STATUS.adr, 16, 16⟩
def R.GLB_TIME_STATUS.PARENT_LINK : Field := ⟨R.GLB_TIME_STATUS.adr, 32, 8⟩
def R.GLB_TIME_STATUS.HOPS : Field := ⟨R.GLB_TIME_STATUS.adr, 40, 8⟩
def R.GLB_TIME_STATUS.OFFSET : Field := ⟨R.GLB_TIME_STATUS.adr, 48, 16⟩

/-- GLB_REF_CTL (chapter 2): its offset. -/
def R.GLB_REF_CTL.adr : Nat := 0x4000
def R.GLB_REF_CTL.PREFER : Field := ⟨R.GLB_REF_CTL.adr, 0, 1⟩
def R.GLB_REF_CTL.REVERT : Field := ⟨R.GLB_REF_CTL.adr, 1, 1⟩
def R.GLB_REF_CTL.REVERT_HOLD : Field := ⟨R.GLB_REF_CTL.adr, 4, 4⟩

/-- GLB_TIME_CTL (chapter 2): its offset. -/
def R.GLB_TIME_CTL.adr : Nat := 0x4008
def R.GLB_TIME_CTL.EPOCH_SRC : Field := ⟨R.GLB_TIME_CTL.adr, 0, 1⟩
def R.GLB_TIME_CTL.MASTER_EN : Field := ⟨R.GLB_TIME_CTL.adr, 1, 1⟩
def R.GLB_TIME_CTL.HOLDOVER_EPOCHS : Field := ⟨R.GLB_TIME_CTL.adr, 2, 6⟩
def R.GLB_TIME_CTL.TT_DISABLE_E : Field := ⟨R.GLB_TIME_CTL.adr, 8, 6⟩
def R.GLB_TIME_CTL.TT_DISABLE_OE : Field := ⟨R.GLB_TIME_CTL.adr, 14, 16⟩

/-- GLB_EPOCH_IN_DELAY (chapter 2): its offset. -/
def R.GLB_EPOCH_IN_DELAY.adr : Nat := 0x4010
def R.GLB_EPOCH_IN_DELAY.DELAY : Field := ⟨R.GLB_EPOCH_IN_DELAY.adr, 0, 16⟩

/-- GLB_TIME_EVENTS (chapter 2): its offset. -/
def R.GLB_TIME_EVENTS.adr : Nat := 0x4020
def R.GLB_TIME_EVENTS.REFA_LOSS : Field := ⟨R.GLB_TIME_EVENTS.adr, 0, 1⟩
def R.GLB_TIME_EVENTS.REFB_LOSS : Field := ⟨R.GLB_TIME_EVENTS.adr, 1, 1⟩
def R.GLB_TIME_EVENTS.SWITCHOVER : Field := ⟨R.GLB_TIME_EVENTS.adr, 2, 1⟩
def R.GLB_TIME_EVENTS.HOLDOVER_ENTER : Field := ⟨R.GLB_TIME_EVENTS.adr, 3, 1⟩
def R.GLB_TIME_EVENTS.TIME_LOST : Field := ⟨R.GLB_TIME_EVENTS.adr, 4, 1⟩
def R.GLB_TIME_EVENTS.EPOCH_MISMATCH : Field := ⟨R.GLB_TIME_EVENTS.adr, 5, 1⟩
def R.GLB_TIME_EVENTS.STEP : Field := ⟨R.GLB_TIME_EVENTS.adr, 6, 1⟩
def R.GLB_TIME_EVENTS.PARENT_CHANGE : Field := ⟨R.GLB_TIME_EVENTS.adr, 7, 1⟩
def R.GLB_TIME_EVENTS.NO_MASTER : Field := ⟨R.GLB_TIME_EVENTS.adr, 8, 1⟩

/-- GLB_LINK_ASYM[n] (chapter 2): its offset. -/
def R.GLB_LINK_ASYM.adr (n : Nat) : Nat := 0x4100 + 0x8 * n
def R.GLB_LINK_ASYM.ASYM (n : Nat) : Field := ⟨R.GLB_LINK_ASYM.adr n, 0, 16⟩

/-- SEQ_THREAD_CFG[t] (chapter 3): its offset. -/
def R.SEQ_THREAD_CFG.adr (t : Nat) : Nat := 0x300000 + 0x8 * t
def R.SEQ_THREAD_CFG.PART (t : Nat) : Field := ⟨R.SEQ_THREAD_CFG.adr t, 0, 6⟩
def R.SEQ_THREAD_CFG.SKIDDER (t : Nat) : Field := ⟨R.SEQ_THREAD_CFG.adr t, 8, 7⟩
def R.SEQ_THREAD_CFG.ASSIGNED (t : Nat) : Field := ⟨R.SEQ_THREAD_CFG.adr t, 16, 1⟩
def R.SEQ_THREAD_CFG.TRAP_STATUS (t : Nat) : Field := ⟨R.SEQ_THREAD_CFG.adr t, 17, 1⟩

/-- SEQ_THREAD_PC[t] (chapter 3): its offset. -/
def R.SEQ_THREAD_PC.adr (t : Nat) : Nat := 0x301000 + 0x8 * t
def R.SEQ_THREAD_PC.PC (t : Nat) : Field := ⟨R.SEQ_THREAD_PC.adr t, 3, 54⟩

/-- SEQ_THREAD_TRAPVEC[t] (chapter 3): its offset. -/
def R.SEQ_THREAD_TRAPVEC.adr (t : Nat) : Nat := 0x302000 + 0x8 * t
def R.SEQ_THREAD_TRAPVEC.VEC (t : Nat) : Field := ⟨R.SEQ_THREAD_TRAPVEC.adr t, 3, 54⟩

/-- SEQ_THREAD_STATUS[t] (chapter 3): its offset. -/
def R.SEQ_THREAD_STATUS.adr (t : Nat) : Nat := 0x303000 + 0x8 * t
def R.SEQ_THREAD_STATUS.STATE (t : Nat) : Field := ⟨R.SEQ_THREAD_STATUS.adr t, 0, 3⟩
def R.SEQ_THREAD_STATUS.DRAINING (t : Nat) : Field := ⟨R.SEQ_THREAD_STATUS.adr t, 3, 1⟩
def R.SEQ_THREAD_STATUS.HANDLER (t : Nat) : Field := ⟨R.SEQ_THREAD_STATUS.adr t, 4, 1⟩
def R.SEQ_THREAD_STATUS.REASON (t : Nat) : Field := ⟨R.SEQ_THREAD_STATUS.adr t, 8, 4⟩
def R.SEQ_THREAD_STATUS.OUTSTANDING (t : Nat) : Field := ⟨R.SEQ_THREAD_STATUS.adr t, 12, 5⟩
def R.SEQ_THREAD_STATUS.WATCH (t : Nat) : Field := ⟨R.SEQ_THREAD_STATUS.adr t, 20, 12⟩
def R.SEQ_THREAD_STATUS.CAUSE (t : Nat) : Field := ⟨R.SEQ_THREAD_STATUS.adr t, 32, 8⟩

/-- SEQ_THREAD_CMD[t] (chapter 3): its offset. -/
def R.SEQ_THREAD_CMD.adr (t : Nat) : Nat := 0x304000 + 0x8 * t
def R.SEQ_THREAD_CMD.CMD (t : Nat) : Field := ⟨R.SEQ_THREAD_CMD.adr t, 0, 3⟩

/-- SEQ_SKID_CFG[s] (chapter 3): its offset. -/
def R.SEQ_SKID_CFG.adr (s : Nat) : Nat := 0x305000 + 0x8 * s
def R.SEQ_SKID_CFG.PART (s : Nat) : Field := ⟨R.SEQ_SKID_CFG.adr s, 0, 6⟩
def R.SEQ_SKID_CFG.ASSIGNED (s : Nat) : Field := ⟨R.SEQ_SKID_CFG.adr s, 8, 1⟩

/-- SEQ_WATCH_ADDR[w] (chapter 3): its offset. -/
def R.SEQ_WATCH_ADDR.adr (w : Nat) : Nat := 0x308000 + 0x8 * w
def R.SEQ_WATCH_ADDR.TARGET (w : Nat) : Field := ⟨R.SEQ_WATCH_ADDR.adr w, 0, 3⟩
def R.SEQ_WATCH_ADDR.LINE (w : Nat) : Field := ⟨R.SEQ_WATCH_ADDR.adr w, 6, 46⟩

/-- SEQ_WATCH_CFG[w] (chapter 3): its offset. -/
def R.SEQ_WATCH_CFG.adr (w : Nat) : Nat := 0x310000 + 0x8 * w
def R.SEQ_WATCH_CFG.ENABLE (w : Nat) : Field := ⟨R.SEQ_WATCH_CFG.adr w, 0, 1⟩
def R.SEQ_WATCH_CFG.MODE (w : Nat) : Field := ⟨R.SEQ_WATCH_CFG.adr w, 1, 1⟩
def R.SEQ_WATCH_CFG.PART (w : Nat) : Field := ⟨R.SEQ_WATCH_CFG.adr w, 2, 6⟩

/-- SEQ_ICACHE_INV (chapter 3): its offset. -/
def R.SEQ_ICACHE_INV.adr : Nat := 0x318000
def R.SEQ_ICACHE_INV.PART : Field := ⟨R.SEQ_ICACHE_INV.adr, 0, 6⟩
def R.SEQ_ICACHE_INV.GO : Field := ⟨R.SEQ_ICACHE_INV.adr, 8, 1⟩

/-- SEQ_EVENTS (chapter 3): its offset. -/
def R.SEQ_EVENTS.adr : Nat := 0x318008
def R.SEQ_EVENTS.CFG_BUSY : Field := ⟨R.SEQ_EVENTS.adr, 0, 1⟩
def R.SEQ_EVENTS.BIND_DENY : Field := ⟨R.SEQ_EVENTS.adr, 1, 1⟩
def R.SEQ_EVENTS.CMD_DENY : Field := ⟨R.SEQ_EVENTS.adr, 2, 1⟩
def R.SEQ_EVENTS.WATCH_ERROR : Field := ⟨R.SEQ_EVENTS.adr, 3, 1⟩

/-- PRT_STATUS (chapter 3): its offset. -/
def R.PRT_STATUS.adr (p : Nat) : Nat := 0x200000 + 0x4000 * p
def R.PRT_STATUS.GEN (p : Nat) : Field := ⟨R.PRT_STATUS.adr p, 0, 10⟩
def R.PRT_STATUS.SEALED (p : Nat) : Field := ⟨R.PRT_STATUS.adr p, 10, 1⟩
def R.PRT_STATUS.ENABLED (p : Nat) : Field := ⟨R.PRT_STATUS.adr p, 11, 1⟩
def R.PRT_STATUS.THREADS (p : Nat) : Field := ⟨R.PRT_STATUS.adr p, 16, 10⟩
def R.PRT_STATUS.CMD_DENY (p : Nat) : Field := ⟨R.PRT_STATUS.adr p, 32, 1⟩
def R.PRT_STATUS.FAULT_OVERFLOW (p : Nat) : Field := ⟨R.PRT_STATUS.adr p, 33, 1⟩

/-- PRT_THREAD_CMD (chapter 3): its offset. -/
def R.PRT_THREAD_CMD.adr (p : Nat) : Nat := 0x200008 + 0x4000 * p
def R.PRT_THREAD_CMD.THREAD (p : Nat) : Field := ⟨R.PRT_THREAD_CMD.adr p, 0, 9⟩
def R.PRT_THREAD_CMD.CMD (p : Nat) : Field := ⟨R.PRT_THREAD_CMD.adr p, 9, 3⟩

/-- PRT_FAULT_BASE (chapter 3): its offset. -/
def R.PRT_FAULT_BASE.adr (p : Nat) : Nat := 0x200010 + 0x4000 * p
def R.PRT_FAULT_BASE.LOG2N (p : Nat) : Field := ⟨R.PRT_FAULT_BASE.adr p, 0, 4⟩
def R.PRT_FAULT_BASE.BASE (p : Nat) : Field := ⟨R.PRT_FAULT_BASE.adr p, 6, 46⟩

/-- PRT_FAULT_IDX (chapter 3): its offset. -/
def R.PRT_FAULT_IDX.adr (p : Nat) : Nat := 0x200018 + 0x4000 * p
def R.PRT_FAULT_IDX.PROD (p : Nat) : Field := ⟨R.PRT_FAULT_IDX.adr p, 0, 16⟩
def R.PRT_FAULT_IDX.CONS (p : Nat) : Field := ⟨R.PRT_FAULT_IDX.adr p, 16, 16⟩
def R.PRT_FAULT_IDX.ENABLE (p : Nat) : Field := ⟨R.PRT_FAULT_IDX.adr p, 32, 1⟩

/-- PRT_FAULT_VEC (chapter 3): its offset. -/
def R.PRT_FAULT_VEC.adr (p : Nat) : Nat := 0x200020 + 0x4000 * p
def R.PRT_FAULT_VEC.VECTOR (p : Nat) : Field := ⟨R.PRT_FAULT_VEC.adr p, 0, 11⟩
def R.PRT_FAULT_VEC.PORTS (p : Nat) : Field := ⟨R.PRT_FAULT_VEC.adr p, 12, 4⟩

/-- PRT_THREAD_STATE[t] (chapter 3): its offset. -/
def R.PRT_THREAD_STATE.adr (p t : Nat) : Nat := 0x201000 + 0x4000 * p + 0x8 * t
def R.PRT_THREAD_STATE.STATE (p t : Nat) : Field := ⟨R.PRT_THREAD_STATE.adr p t, 0, 64⟩

/-- SEQ_REQ_TIMEOUT[p] (chapter 3): its offset. -/
def R.SEQ_REQ_TIMEOUT.adr (p : Nat) : Nat := 0x319000 + 0x8 * p
def R.SEQ_REQ_TIMEOUT.LOG2 (p : Nat) : Field := ⟨R.SEQ_REQ_TIMEOUT.adr p, 0, 5⟩

/-- SWC_GW_CTL (chapter 4): its offset. -/
def R.SWC_GW_CTL.adr : Nat := 0x680000
def R.SWC_GW_CTL.EN : Field := ⟨R.SWC_GW_CTL.adr, 0, 1⟩
def R.SWC_GW_CTL.FAR_E : Field := ⟨R.SWC_GW_CTL.adr, 1, 6⟩
def R.SWC_GW_CTL.FAR_OE : Field := ⟨R.SWC_GW_CTL.adr, 7, 16⟩
def R.SWC_GW_CTL.FAR_FEID : Field := ⟨R.SWC_GW_CTL.adr, 24, 16⟩

/-- SWC_GW_DMAP[d] (chapter 4): its offset. -/
def R.SWC_GW_DMAP.adr (d : Nat) : Nat := 0x680008 + 0x8 * d
def R.SWC_GW_DMAP.BLOCK (d i : Nat) : Field := ⟨R.SWC_GW_DMAP.adr d, 4 * i + 0, 3⟩
def R.SWC_GW_DMAP.VALID (d i : Nat) : Field := ⟨R.SWC_GW_DMAP.adr d, 4 * i + 3, 1⟩

/-- SWC_GW_SMAP[d] (chapter 4): its offset. -/
def R.SWC_GW_SMAP.adr (d : Nat) : Nat := 0x680018 + 0x8 * d
def R.SWC_GW_SMAP.BLOCK (d i : Nat) : Field := ⟨R.SWC_GW_SMAP.adr d, 4 * i + 0, 3⟩
def R.SWC_GW_SMAP.VALID (d i : Nat) : Field := ⟨R.SWC_GW_SMAP.adr d, 4 * i + 3, 1⟩

/-- SWC_GW_TAG[d][p] (chapter 4): its offset. -/
def R.SWC_GW_TAG.adr (d p : Nat) : Nat := 0x680100 + 0x200 * d + 0x8 * p
def R.SWC_GW_TAG.SRC_GEN (d p : Nat) : Field := ⟨R.SWC_GW_TAG.adr d p, 0, 10⟩
def R.SWC_GW_TAG.FAR_PART (d p : Nat) : Field := ⟨R.SWC_GW_TAG.adr d p, 16, 6⟩
def R.SWC_GW_TAG.FAR_GEN (d p : Nat) : Field := ⟨R.SWC_GW_TAG.adr d p, 22, 10⟩
def R.SWC_GW_TAG.VALID (d p : Nat) : Field := ⟨R.SWC_GW_TAG.adr d p, 32, 1⟩

/-- SWC_WHISK_SEED (chapter 4): its offset. -/
def R.SWC_WHISK_SEED.adr : Nat := 0x681000
def R.SWC_WHISK_SEED.PATH : Field := ⟨R.SWC_WHISK_SEED.adr, 0, 32⟩
def R.SWC_WHISK_SEED.SKID : Field := ⟨R.SWC_WHISK_SEED.adr, 32, 32⟩

/-- SWC_WHISK_PC (chapter 4): its offset. -/
def R.SWC_WHISK_PC.adr : Nat := 0x681008
def R.SWC_WHISK_PC.SEED : Field := ⟨R.SWC_WHISK_PC.adr, 0, 32⟩

/-- SWC_WHISK_HOLD (chapter 4): its offset. -/
def R.SWC_WHISK_HOLD.adr : Nat := 0x681010
def R.SWC_WHISK_HOLD.PATH_TICKS : Field := ⟨R.SWC_WHISK_HOLD.adr, 0, 16⟩

/-- SWC_WHISK_STATUS (chapter 4): its offset. -/
def R.SWC_WHISK_STATUS.adr : Nat := 0x681018
def R.SWC_WHISK_STATUS.HELD : Field := ⟨R.SWC_WHISK_STATUS.adr, 0, 32⟩
def R.SWC_WHISK_STATUS.GROUPS_HELD : Field := ⟨R.SWC_WHISK_STATUS.adr, 32, 13⟩
def R.SWC_WHISK_STATUS.HOLDQ : Field := ⟨R.SWC_WHISK_STATUS.adr, 45, 12⟩

/-- XLT_ROOT[p] (chapter 5): its offset. -/
def R.XLT_ROOT.adr (p : Nat) : Nat := 0x400000 + 0x8 * p
def R.XLT_ROOT.EN (p : Nat) : Field := ⟨R.XLT_ROOT.adr p, 0, 1⟩
def R.XLT_ROOT.TOP (p : Nat) : Field := ⟨R.XLT_ROOT.adr p, 1, 3⟩
def R.XLT_ROOT.BASE (p : Nat) : Field := ⟨R.XLT_ROOT.adr p, 13, 39⟩

/-- XLT_CTL (chapter 5): its offset. -/
def R.XLT_CTL.adr : Nat := 0x400200
def R.XLT_CTL.MIG_HOLD : Field := ⟨R.XLT_CTL.adr, 0, 16⟩

/-- XLT_TLB_INV (chapter 5): its offset. -/
def R.XLT_TLB_INV.adr : Nat := 0x400208
def R.XLT_TLB_INV.PART : Field := ⟨R.XLT_TLB_INV.adr, 0, 6⟩
def R.XLT_TLB_INV.SCOPE : Field := ⟨R.XLT_TLB_INV.adr, 6, 1⟩
def R.XLT_TLB_INV.DRAIN : Field := ⟨R.XLT_TLB_INV.adr, 7, 1⟩
def R.XLT_TLB_INV.GO : Field := ⟨R.XLT_TLB_INV.adr, 8, 1⟩

/-- XLT_TLB_INV_FVA (chapter 5): its offset. -/
def R.XLT_TLB_INV_FVA.adr : Nat := 0x400210
def R.XLT_TLB_INV_FVA.FVA : Field := ⟨R.XLT_TLB_INV_FVA.adr, 0, 57⟩

/-- XLT_TLB_INV_STATUS (chapter 5): its offset. -/
def R.XLT_TLB_INV_STATUS.adr : Nat := 0x400218
def R.XLT_TLB_INV_STATUS.BUSY : Field := ⟨R.XLT_TLB_INV_STATUS.adr, 0, 1⟩
def R.XLT_TLB_INV_STATUS.DONE : Field := ⟨R.XLT_TLB_INV_STATUS.adr, 1, 1⟩
def R.XLT_TLB_INV_STATUS.LATE : Field := ⟨R.XLT_TLB_INV_STATUS.adr, 2, 1⟩
def R.XLT_TLB_INV_STATUS.PENDING : Field := ⟨R.XLT_TLB_INV_STATUS.adr, 16, 16⟩

/-- XLT_FAULT_CMD (chapter 5): its offset. -/
def R.XLT_FAULT_CMD.adr : Nat := 0x400220
def R.XLT_FAULT_CMD.SKIDDER : Field := ⟨R.XLT_FAULT_CMD.adr, 0, 7⟩
def R.XLT_FAULT_CMD.ACTION : Field := ⟨R.XLT_FAULT_CMD.adr, 7, 2⟩

/-- XLT_EVENTS (chapter 5): its offset. -/
def R.XLT_EVENTS.adr : Nat := 0x400228
def R.XLT_EVENTS.INV_BUSY : Field := ⟨R.XLT_EVENTS.adr, 0, 1⟩
def R.XLT_EVENTS.CMD_DENY : Field := ⟨R.XLT_EVENTS.adr, 1, 1⟩

/-- SIV_PART[p] (chapter 5): its offset. -/
def R.SIV_PART.adr (p : Nat) : Nat := 0x500000 + 0x8 * p
def R.SIV_PART.EN (p : Nat) : Field := ⟨R.SIV_PART.adr p, 0, 1⟩
def R.SIV_PART.BASE (p : Nat) : Field := ⟨R.SIV_PART.adr p, 3, 22⟩
def R.SIV_PART.LOG2B (p : Nat) : Field := ⟨R.SIV_PART.adr p, 25, 5⟩
def R.SIV_PART.SIZES (p : Nat) : Field := ⟨R.SIV_PART.adr p, 30, 3⟩
def R.SIV_PART.CACHE_MAX (p : Nat) : Field := ⟨R.SIV_PART.adr p, 33, 9⟩

/-- SIV_PART_STATUS[p] (chapter 5): its offset. -/
def R.SIV_PART_STATUS.adr (p : Nat) : Nat := 0x500200 + 0x8 * p
def R.SIV_PART_STATUS.USED (p : Nat) : Field := ⟨R.SIV_PART_STATUS.adr p, 0, 25⟩
def R.SIV_PART_STATUS.SWEEP (p : Nat) : Field := ⟨R.SIV_PART_STATUS.adr p, 25, 1⟩
def R.SIV_PART_STATUS.CACHED (p : Nat) : Field := ⟨R.SIV_PART_STATUS.adr p, 26, 19⟩

/-- SIV_ACC_IDX (chapter 5): its offset. -/
def R.SIV_ACC_IDX.adr : Nat := 0x500400
def R.SIV_ACC_IDX.INDEX : Field := ⟨R.SIV_ACC_IDX.adr, 0, 24⟩

/-- SIV_ACC_DATA0, SIV_ACC_DATA1 (chapter 5): its offset. -/
def R.SIV_ACC_DATA0.adr : Nat := 0x500408
def R.SIV_ACC_DATA0.DATA : Field := ⟨R.SIV_ACC_DATA0.adr, 0, 64⟩

/-- SIV_ACC_DATA0, SIV_ACC_DATA1 (chapter 5): its offset. -/
def R.SIV_ACC_DATA1.adr : Nat := 0x500410
def R.SIV_ACC_DATA1.DATA : Field := ⟨R.SIV_ACC_DATA1.adr, 0, 64⟩

/-- SIV_ACC_CMD (chapter 5): its offset. -/
def R.SIV_ACC_CMD.adr : Nat := 0x500418
def R.SIV_ACC_CMD.OP : Field := ⟨R.SIV_ACC_CMD.adr, 0, 2⟩
def R.SIV_ACC_CMD.BUSY : Field := ⟨R.SIV_ACC_CMD.adr, 8, 1⟩
def R.SIV_ACC_CMD.RESULT : Field := ⟨R.SIV_ACC_CMD.adr, 9, 3⟩

/-- SIV_PROBE_KEY (chapter 5): its offset. -/
def R.SIV_PROBE_KEY.adr : Nat := 0x500420
def R.SIV_PROBE_KEY.KEY : Field := ⟨R.SIV_PROBE_KEY.adr, 0, 47⟩

/-- SIV_PROBE_RESULT (chapter 5): its offset. -/
def R.SIV_PROBE_RESULT.adr : Nat := 0x500428
def R.SIV_PROBE_RESULT.BUCKET_A : Field := ⟨R.SIV_PROBE_RESULT.adr, 0, 22⟩
def R.SIV_PROBE_RESULT.BUCKET_B : Field := ⟨R.SIV_PROBE_RESULT.adr, 32, 22⟩
def R.SIV_PROBE_RESULT.VALID : Field := ⟨R.SIV_PROBE_RESULT.adr, 63, 1⟩

/-- SIV_EVENTS (chapter 5): its offset. -/
def R.SIV_EVENTS.adr : Nat := 0x500430
def R.SIV_EVENTS.CFG_BUSY : Field := ⟨R.SIV_EVENTS.adr, 0, 1⟩
def R.SIV_EVENTS.OVERLAP : Field := ⟨R.SIV_EVENTS.adr, 1, 1⟩

/-- HOM_ATOM_CTL (chapter 6): its offset. -/
def R.HOM_ATOM_CTL.adr : Nat := 0xb00000
def R.HOM_ATOM_CTL.RETRY_TICKS : Field := ⟨R.HOM_ATOM_CTL.adr, 0, 12⟩
def R.HOM_ATOM_CTL.RETRY_MAX : Field := ⟨R.HOM_ATOM_CTL.adr, 12, 3⟩

/-- HOM_LEDGER_STATUS (chapter 6): its offset. -/
def R.HOM_LEDGER_STATUS.adr : Nat := 0xb00008
def R.HOM_LEDGER_STATUS.REPLACED_TICK : Field := ⟨R.HOM_LEDGER_STATUS.adr, 0, 63⟩

/-- HOM_LEDGER_COUNTS (chapter 6): its offset. -/
def R.HOM_LEDGER_COUNTS.adr : Nat := 0xb00010
def R.HOM_LEDGER_COUNTS.REPLAYS : Field := ⟨R.HOM_LEDGER_COUNTS.adr, 0, 32⟩
def R.HOM_LEDGER_COUNTS.FULL : Field := ⟨R.HOM_LEDGER_COUNTS.adr, 32, 16⟩
def R.HOM_LEDGER_COUNTS.UNKNOWN : Field := ⟨R.HOM_LEDGER_COUNTS.adr, 48, 16⟩

/-- HOM_LEDGER_ACC_IDX (chapter 6): its offset. -/
def R.HOM_LEDGER_ACC_IDX.adr : Nat := 0xb00018
def R.HOM_LEDGER_ACC_IDX.INDEX : Field := ⟨R.HOM_LEDGER_ACC_IDX.adr, 0, 22⟩

/-- HOM_LEDGER_ACC_CMD (chapter 6): its offset. -/
def R.HOM_LEDGER_ACC_CMD.adr : Nat := 0xb00020
def R.HOM_LEDGER_ACC_CMD.READ : Field := ⟨R.HOM_LEDGER_ACC_CMD.adr, 0, 1⟩
def R.HOM_LEDGER_ACC_CMD.BUSY : Field := ⟨R.HOM_LEDGER_ACC_CMD.adr, 8, 1⟩

/-- HOM_LEDGER_ACC_DATA[k] (chapter 6): its offset. -/
def R.HOM_LEDGER_ACC_DATA.adr (k : Nat) : Nat := 0xb00028 + 0x8 * k
def R.HOM_LEDGER_ACC_DATA.DATA (k : Nat) : Field := ⟨R.HOM_LEDGER_ACC_DATA.adr k, 0, 64⟩

/-- HOM_MIRROR_CTL (chapter 6): its offset. -/
def R.HOM_MIRROR_CTL.adr : Nat := 0xb00100
def R.HOM_MIRROR_CTL.ASYNC_MAX : Field := ⟨R.HOM_MIRROR_CTL.adr, 0, 16⟩

/-- HOM_SHARER_STATUS (chapter 6): its offset. -/
def R.HOM_SHARER_STATUS.adr : Nat := 0xb00108
def R.HOM_SHARER_STATUS.MAPS : Field := ⟨R.HOM_SHARER_STATUS.adr, 0, 17⟩
def R.HOM_SHARER_STATUS.UNCACHED : Field := ⟨R.HOM_SHARER_STATUS.adr, 32, 32⟩

/-- HOM_EVENTS (chapter 6): its offset. -/
def R.HOM_EVENTS.adr : Nat := 0xb00110
def R.HOM_EVENTS.LEDGER_FULL : Field := ⟨R.HOM_EVENTS.adr, 0, 1⟩
def R.HOM_EVENTS.LEDGER_MISMATCH : Field := ⟨R.HOM_EVENTS.adr, 1, 1⟩
def R.HOM_EVENTS.MIRROR_DENY : Field := ⟨R.HOM_EVENTS.adr, 2, 1⟩
def R.HOM_EVENTS.INVL_FAIL : Field := ⟨R.HOM_EVENTS.adr, 3, 1⟩

/-- HOM_RS_ROSTER[p][i] (chapter 6): its offset. -/
def R.HOM_RS_ROSTER.adr (p i : Nat) : Nat := 0xb10000 + 0x200 * p + 0x8 * i
def R.HOM_RS_ROSTER.FEID (p i : Nat) : Field := ⟨R.HOM_RS_ROSTER.adr p i, 0, 16⟩
def R.HOM_RS_ROSTER.VALID (p i : Nat) : Field := ⟨R.HOM_RS_ROSTER.adr p i, 16, 1⟩

/-- SWC_FWD_CTL (chapter 7): its offset. -/
def R.SWC_FWD_CTL.adr : Nat := 0x600000
def R.SWC_FWD_CTL.MAX_HOPS : Field := ⟨R.SWC_FWD_CTL.adr, 0, 8⟩
def R.SWC_FWD_CTL.MAX_AGE : Field := ⟨R.SWC_FWD_CTL.adr, 8, 16⟩

/-- SWC_VC7_RATE (chapter 7): its offset. -/
def R.SWC_VC7_RATE.adr : Nat := 0x600008
def R.SWC_VC7_RATE.RATE : Field := ⟨R.SWC_VC7_RATE.adr, 0, 16⟩
def R.SWC_VC7_RATE.BURST : Field := ⟨R.SWC_VC7_RATE.adr, 16, 16⟩

/-- SWC_CREDIT_MIN[k] (chapter 7): its offset. -/
def R.SWC_CREDIT_MIN.adr (k : Nat) : Nat := 0x600010 + 0x8 * k
def R.SWC_CREDIT_MIN.MIN (k i : Nat) : Field := ⟨R.SWC_CREDIT_MIN.adr k, 8 * i + 0, 8⟩

/-- SWC_CREDIT_MAX[k] (chapter 7): its offset. -/
def R.SWC_CREDIT_MAX.adr (k : Nat) : Nat := 0x600020 + 0x8 * k
def R.SWC_CREDIT_MAX.MAX (k i : Nat) : Field := ⟨R.SWC_CREDIT_MAX.adr k, 8 * i + 0, 8⟩

/-- SWC_DISCARDS (chapter 7): its offset. -/
def R.SWC_DISCARDS.adr : Nat := 0x600030
def R.SWC_DISCARDS.HOPS : Field := ⟨R.SWC_DISCARDS.adr, 0, 16⟩
def R.SWC_DISCARDS.AGE : Field := ⟨R.SWC_DISCARDS.adr, 16, 16⟩
def R.SWC_DISCARDS.BAD_ENC : Field := ⟨R.SWC_DISCARDS.adr, 32, 16⟩
def R.SWC_DISCARDS.ROUTE : Field := ⟨R.SWC_DISCARDS.adr, 48, 16⟩

/-- SWC_EVENTS (chapter 7): its offset. -/
def R.SWC_EVENTS.adr : Nat := 0x600038
def R.SWC_EVENTS.SILENT_PEER : Field := ⟨R.SWC_EVENTS.adr, 0, 1⟩
def R.SWC_EVENTS.LEAVE_RX : Field := ⟨R.SWC_EVENTS.adr, 1, 1⟩
def R.SWC_EVENTS.CHANNEL_DOWN : Field := ⟨R.SWC_EVENTS.adr, 2, 1⟩
def R.SWC_EVENTS.OVERRUN : Field := ⟨R.SWC_EVENTS.adr, 3, 1⟩
def R.SWC_EVENTS.REPLAY_FAIL : Field := ⟨R.SWC_EVENTS.adr, 4, 1⟩
def R.SWC_EVENTS.NAK_WINDOW : Field := ⟨R.SWC_EVENTS.adr, 5, 1⟩
def R.SWC_EVENTS.BAD_PACKET : Field := ⟨R.SWC_EVENTS.adr, 6, 1⟩
def R.SWC_EVENTS.HOPS_EXCEEDED : Field := ⟨R.SWC_EVENTS.adr, 7, 1⟩

/-- SWC_LINK_CFG[l] (chapter 7): its offset. -/
def R.SWC_LINK_CFG.adr (l : Nat) : Nat := 0x600100 + 0x8 * l
def R.SWC_LINK_CFG.PEER (l : Nat) : Field := ⟨R.SWC_LINK_CFG.adr l, 0, 16⟩
def R.SWC_LINK_CFG.EN (l : Nat) : Field := ⟨R.SWC_LINK_CFG.adr l, 16, 1⟩

/-- SWC_LINK_ARB[l] (chapter 7): its offset. -/
def R.SWC_LINK_ARB.adr (l : Nat) : Nat := 0x600200 + 0x8 * l
def R.SWC_LINK_ARB.WEIGHT (l i : Nat) : Field := ⟨R.SWC_LINK_ARB.adr l, 6 * i + 0, 6⟩

/-- SWC_LINK_STATUS[l] (chapter 7): its offset. -/
def R.SWC_LINK_STATUS.adr (l : Nat) : Nat := 0x600300 + 0x8 * l
def R.SWC_LINK_STATUS.USABLE (l : Nat) : Field := ⟨R.SWC_LINK_STATUS.adr l, 0, 1⟩
def R.SWC_LINK_STATUS.CHANNELS (l : Nat) : Field := ⟨R.SWC_LINK_STATUS.adr l, 1, 9⟩
def R.SWC_LINK_STATUS.JOINING (l : Nat) : Field := ⟨R.SWC_LINK_STATUS.adr l, 10, 1⟩

/-- SWC_CH_STATUS[c] (chapter 7): its offset. -/
def R.SWC_CH_STATUS.adr (c : Nat) : Nat := 0x601000 + 0x8 * c
def R.SWC_CH_STATUS.STATE (c : Nat) : Field := ⟨R.SWC_CH_STATUS.adr c, 0, 3⟩
def R.SWC_CH_STATUS.LINK (c : Nat) : Field := ⟨R.SWC_CH_STATUS.adr c, 3, 5⟩
def R.SWC_CH_STATUS.MEMBER (c : Nat) : Field := ⟨R.SWC_CH_STATUS.adr c, 8, 1⟩
def R.SWC_CH_STATUS.PEER (c : Nat) : Field := ⟨R.SWC_CH_STATUS.adr c, 9, 16⟩
def R.SWC_CH_STATUS.TX_SEQ (c : Nat) : Field := ⟨R.SWC_CH_STATUS.adr c, 25, 12⟩
def R.SWC_CH_STATUS.RX_SEQ (c : Nat) : Field := ⟨R.SWC_CH_STATUS.adr c, 37, 12⟩
def R.SWC_CH_STATUS.UNACK (c : Nat) : Field := ⟨R.SWC_CH_STATUS.adr c, 49, 12⟩

/-- SWC_CH_CNT[c][k] (chapter 7): its offset. -/
def R.SWC_CH_CNT.adr (c k : Nat) : Nat := 0x610000 + 0x40 * c + 0x8 * k
def R.SWC_CH_CNT.TX_PKTS (c : Nat) : Field := ⟨R.SWC_CH_CNT.adr c 0, 0, 64⟩
def R.SWC_CH_CNT.RX_PKTS (c : Nat) : Field := ⟨R.SWC_CH_CNT.adr c 1, 0, 64⟩
def R.SWC_CH_CNT.TX_BYTES (c : Nat) : Field := ⟨R.SWC_CH_CNT.adr c 2, 0, 64⟩
def R.SWC_CH_CNT.RX_BYTES (c : Nat) : Field := ⟨R.SWC_CH_CNT.adr c 3, 0, 64⟩
def R.SWC_CH_CNT.NAK_TX (c : Nat) : Field := ⟨R.SWC_CH_CNT.adr c 4, 0, 32⟩
def R.SWC_CH_CNT.NAK_RX (c : Nat) : Field := ⟨R.SWC_CH_CNT.adr c 4, 32, 32⟩
def R.SWC_CH_CNT.HCRC_ERR (c : Nat) : Field := ⟨R.SWC_CH_CNT.adr c 5, 0, 16⟩
def R.SWC_CH_CNT.TRAILER_ERR (c : Nat) : Field := ⟨R.SWC_CH_CNT.adr c 5, 16, 16⟩
def R.SWC_CH_CNT.STOMPED (c : Nat) : Field := ⟨R.SWC_CH_CNT.adr c 5, 32, 16⟩
def R.SWC_CH_CNT.CTRL_ERR (c : Nat) : Field := ⟨R.SWC_CH_CNT.adr c 5, 48, 16⟩
def R.SWC_CH_CNT.REPLAYED (c : Nat) : Field := ⟨R.SWC_CH_CNT.adr c 6, 0, 32⟩
def R.SWC_CH_CNT.LOST (c : Nat) : Field := ⟨R.SWC_CH_CNT.adr c 6, 32, 32⟩
def R.SWC_CH_CNT.STALL_CREDIT (c : Nat) : Field := ⟨R.SWC_CH_CNT.adr c 7, 0, 64⟩

/-- SWC_LINK_Q[l][v] (chapter 7): its offset. -/
def R.SWC_LINK_Q.adr (l v : Nat) : Nat := 0x620000 + 0x40 * l + 0x8 * v
def R.SWC_LINK_Q.DEPTH (l v : Nat) : Field := ⟨R.SWC_LINK_Q.adr l v, 0, 20⟩
def R.SWC_LINK_Q.MAX (l v : Nat) : Field := ⟨R.SWC_LINK_Q.adr l v, 20, 20⟩

/-- SWC_LINK_STALL[l][v] (chapter 7): its offset. -/
def R.SWC_LINK_STALL.adr (l v : Nat) : Nat := 0x620800 + 0x40 * l + 0x8 * v
def R.SWC_LINK_STALL.STALL (l v : Nat) : Field := ⟨R.SWC_LINK_STALL.adr l v, 0, 64⟩

/-- LDL_STATUS (chapter 8): its offset. -/
def R.LDL_STATUS.adr : Nat := 0x900000
def R.LDL_STATUS.POS_ACTIVE : Field := ⟨R.LDL_STATUS.adr, 0, 16⟩
def R.LDL_STATUS.SPARE_PHYS : Field := ⟨R.LDL_STATUS.adr, 16, 5⟩

/-- LDL_POS_STATUS[k] (chapter 8): its offset. -/
def R.LDL_POS_STATUS.adr (k : Nat) : Nat := 0x900100 + 0x8 * k
def R.LDL_POS_STATUS.PHYS (k : Nat) : Field := ⟨R.LDL_POS_STATUS.adr k, 0, 5⟩
def R.LDL_POS_STATUS.STATE (k : Nat) : Field := ⟨R.LDL_POS_STATUS.adr k, 5, 3⟩
def R.LDL_POS_STATUS.LIVE (k : Nat) : Field := ⟨R.LDL_POS_STATUS.adr k, 8, 7⟩
def R.LDL_POS_STATUS.QUEUE (k : Nat) : Field := ⟨R.LDL_POS_STATUS.adr k, 15, 7⟩
def R.LDL_POS_STATUS.KSLOTS (k : Nat) : Field := ⟨R.LDL_POS_STATUS.adr k, 22, 7⟩
def R.LDL_POS_STATUS.CRES (k : Nat) : Field := ⟨R.LDL_POS_STATUS.adr k, 29, 7⟩

/-- LDL_CELL_RETIRE[a] (chapter 8): its offset. -/
def R.LDL_CELL_RETIRE.adr (a : Nat) : Nat := 0x900200 + 0x8 * a
def R.LDL_CELL_RETIRE.RETIRED (a : Nat) : Field := ⟨R.LDL_CELL_RETIRE.adr a, 0, 64⟩

/-- LDL_SPARE_CTL (chapter 8): its offset. -/
def R.LDL_SPARE_CTL.adr : Nat := 0x900300
def R.LDL_SPARE_CTL.THRESH : Field := ⟨R.LDL_SPARE_CTL.adr, 0, 7⟩
def R.LDL_SPARE_CTL.AUTO : Field := ⟨R.LDL_SPARE_CTL.adr, 7, 1⟩
def R.LDL_SPARE_CTL.POS : Field := ⟨R.LDL_SPARE_CTL.adr, 8, 4⟩
def R.LDL_SPARE_CTL.GO : Field := ⟨R.LDL_SPARE_CTL.adr, 12, 1⟩

/-- LDL_STORE_SPLIT (chapter 8): its offset. -/
def R.LDL_STORE_SPLIT.adr : Nat := 0x900308
def R.LDL_STORE_SPLIT.KERNEL_SLOTS : Field := ⟨R.LDL_STORE_SPLIT.adr, 0, 7⟩

/-- LDL_ARB (chapter 8): its offset. -/
def R.LDL_ARB.adr : Nat := 0x900310
def R.LDL_ARB.KMIN : Field := ⟨R.LDL_ARB.adr, 0, 5⟩

/-- LDL_EVENTS (chapter 8): its offset. -/
def R.LDL_EVENTS.adr : Nat := 0x900318
def R.LDL_EVENTS.CHECK_FAIL : Field := ⟨R.LDL_EVENTS.adr, 0, 1⟩
def R.LDL_EVENTS.CELL_RETIRED : Field := ⟨R.LDL_EVENTS.adr, 1, 1⟩
def R.LDL_EVENTS.ARRAY_REPLACED : Field := ⟨R.LDL_EVENTS.adr, 2, 1⟩
def R.LDL_EVENTS.POS_DISABLED : Field := ⟨R.LDL_EVENTS.adr, 3, 1⟩
def R.LDL_EVENTS.ALIGN_WRAP : Field := ⟨R.LDL_EVENTS.adr, 4, 1⟩
def R.LDL_EVENTS.NONFINITE : Field := ⟨R.LDL_EVENTS.adr, 5, 1⟩
def R.LDL_EVENTS.SPARE_NONE : Field := ⟨R.LDL_EVENTS.adr, 6, 1⟩
def R.LDL_EVENTS.REJECTED : Field := ⟨R.LDL_EVENTS.adr, 7, 1⟩

/-- LDL_COUNTS (chapter 8): its offset. -/
def R.LDL_COUNTS.adr : Nat := 0x900320
def R.LDL_COUNTS.KERNELS : Field := ⟨R.LDL_COUNTS.adr, 0, 32⟩
def R.LDL_COUNTS.REPEATS : Field := ⟨R.LDL_COUNTS.adr, 32, 16⟩
def R.LDL_COUNTS.FAILED : Field := ⟨R.LDL_COUNTS.adr, 48, 16⟩

/-- LDL_PART_CFG[p] (chapter 8): its offset. -/
def R.LDL_PART_CFG.adr (p : Nat) : Nat := 0x900400 + 0x8 * p
def R.LDL_PART_CFG.ARRAYS (p : Nat) : Field := ⟨R.LDL_PART_CFG.adr p, 0, 16⟩
def R.LDL_PART_CFG.QMAX (p : Nat) : Field := ⟨R.LDL_PART_CFG.adr p, 16, 7⟩

/-- COL_CTL (chapter 9): its offset. -/
def R.COL_CTL.adr : Nat := 0xa00000
def R.COL_CTL.LEAD_PLAN : Field := ⟨R.COL_CTL.adr, 0, 12⟩
def R.COL_CTL.STALL_TICKS : Field := ⟨R.COL_CTL.adr, 12, 16⟩
def R.COL_CTL.JOIN_TICKS : Field := ⟨R.COL_CTL.adr, 28, 16⟩
def R.COL_CTL.QUAR_TICKS : Field := ⟨R.COL_CTL.adr, 44, 16⟩

/-- COL_XCHG_MODE (chapter 9): its offset. -/
def R.COL_XCHG_MODE.adr : Nat := 0xa00008
def R.COL_XCHG_MODE.FAMILY : Field := ⟨R.COL_XCHG_MODE.adr, 0, 2⟩
def R.COL_XCHG_MODE.AUTO : Field := ⟨R.COL_XCHG_MODE.adr, 2, 1⟩
def R.COL_XCHG_MODE.FANOUT : Field := ⟨R.COL_XCHG_MODE.adr, 8, 4⟩

/-- COL_SPILL (chapter 9): its offset. -/
def R.COL_SPILL.adr : Nat := 0xa00010
def R.COL_SPILL.WINDOW_MIB : Field := ⟨R.COL_SPILL.adr, 0, 5⟩
def R.COL_SPILL.BASE_MIB : Field := ⟨R.COL_SPILL.adr, 32, 32⟩

/-- COL_PART_CFG[p] (chapter 9): its offset. -/
def R.COL_PART_CFG.adr (p : Nat) : Nat := 0xa00100 + 0x8 * p
def R.COL_PART_CFG.EN (p : Nat) : Field := ⟨R.COL_PART_CFG.adr p, 0, 1⟩
def R.COL_PART_CFG.LP_EN (p : Nat) : Field := ⟨R.COL_PART_CFG.adr p, 1, 1⟩
def R.COL_PART_CFG.MAXC (p : Nat) : Field := ⟨R.COL_PART_CFG.adr p, 2, 7⟩

/-- COL_STATUS (chapter 9): its offset. -/
def R.COL_STATUS.adr : Nat := 0xa00300
def R.COL_STATUS.ACTIVE : Field := ⟨R.COL_STATUS.adr, 0, 7⟩
def R.COL_STATUS.LP_HELD : Field := ⟨R.COL_STATUS.adr, 7, 1⟩
def R.COL_STATUS.LP_PART : Field := ⟨R.COL_STATUS.adr, 8, 6⟩
def R.COL_STATUS.LP_CID : Field := ⟨R.COL_STATUS.adr, 14, 32⟩
def R.COL_STATUS.SPILLING : Field := ⟨R.COL_STATUS.adr, 46, 7⟩

/-- COL_ENTRY[h] (chapter 9): its offset. -/
def R.COL_ENTRY.adr (h : Nat) : Nat := 0xa00400 + 0x8 * h
def R.COL_ENTRY.STATE (h : Nat) : Field := ⟨R.COL_ENTRY.adr h, 0, 3⟩
def R.COL_ENTRY.SPILL (h : Nat) : Field := ⟨R.COL_ENTRY.adr h, 3, 1⟩
def R.COL_ENTRY.PART (h : Nat) : Field := ⟨R.COL_ENTRY.adr h, 4, 6⟩
def R.COL_ENTRY.PHASE (h : Nat) : Field := ⟨R.COL_ENTRY.adr h, 10, 4⟩
def R.COL_ENTRY.CID (h : Nat) : Field := ⟨R.COL_ENTRY.adr h, 14, 32⟩

/-- COL_EVENTS (chapter 9): its offset. -/
def R.COL_EVENTS.adr : Nat := 0xa00600
def R.COL_EVENTS.SPILL : Field := ⟨R.COL_EVENTS.adr, 0, 1⟩
def R.COL_EVENTS.ABORT_SENT : Field := ⟨R.COL_EVENTS.adr, 1, 1⟩
def R.COL_EVENTS.ABORT_RX : Field := ⟨R.COL_EVENTS.adr, 2, 1⟩
def R.COL_EVENTS.LATE_ABORT : Field := ⟨R.COL_EVENTS.adr, 3, 1⟩
def R.COL_EVENTS.LP_SKIPPED : Field := ⟨R.COL_EVENTS.adr, 4, 1⟩
def R.COL_EVENTS.CFG_BUSY : Field := ⟨R.COL_EVENTS.adr, 5, 1⟩

/-- COL_COUNTS0 (chapter 9): its offset. -/
def R.COL_COUNTS0.adr : Nat := 0xa00608
def R.COL_COUNTS0.COMPLETED : Field := ⟨R.COL_COUNTS0.adr, 0, 32⟩
def R.COL_COUNTS0.ABORTED : Field := ⟨R.COL_COUNTS0.adr, 32, 32⟩

/-- COL_COUNTS1 (chapter 9): its offset. -/
def R.COL_COUNTS1.adr : Nat := 0xa00610
def R.COL_COUNTS1.LATE : Field := ⟨R.COL_COUNTS1.adr, 0, 32⟩
def R.COL_COUNTS1.QUARANTINED : Field := ⟨R.COL_COUNTS1.adr, 32, 16⟩
def R.COL_COUNTS1.RSV_EXPIRED : Field := ⟨R.COL_COUNTS1.adr, 48, 16⟩

/-- OPT_PLAN_CTL (chapter 11): its offset. -/
def R.OPT_PLAN_CTL.adr : Nat := 0x800000
def R.OPT_PLAN_CTL.BOOT : Field := ⟨R.OPT_PLAN_CTL.adr, 0, 4⟩

/-- OPT_PLAN_CMD (chapter 11): its offset. -/
def R.OPT_PLAN_CMD.adr : Nat := 0x800008
def R.OPT_PLAN_CMD.PLAN : Field := ⟨R.OPT_PLAN_CMD.adr, 0, 4⟩
def R.OPT_PLAN_CMD.GO : Field := ⟨R.OPT_PLAN_CMD.adr, 4, 1⟩
def R.OPT_PLAN_CMD.TICK : Field := ⟨R.OPT_PLAN_CMD.adr, 8, 56⟩

/-- OPT_PLAN_STATUS (chapter 11): its offset. -/
def R.OPT_PLAN_STATUS.adr : Nat := 0x800010
def R.OPT_PLAN_STATUS.CUR : Field := ⟨R.OPT_PLAN_STATUS.adr, 0, 4⟩
def R.OPT_PLAN_STATUS.PENDING : Field := ⟨R.OPT_PLAN_STATUS.adr, 4, 1⟩
def R.OPT_PLAN_STATUS.NEXT : Field := ⟨R.OPT_PLAN_STATUS.adr, 5, 4⟩
def R.OPT_PLAN_STATUS.RESULT : Field := ⟨R.OPT_PLAN_STATUS.adr, 9, 4⟩
def R.OPT_PLAN_STATUS.REJECT : Field := ⟨R.OPT_PLAN_STATUS.adr, 13, 3⟩

/-- OPT_RING_CTL (chapter 11): its offset. -/
def R.OPT_RING_CTL.adr : Nat := 0x800018
def R.OPT_RING_CTL.DITHER_AMP : Field := ⟨R.OPT_RING_CTL.adr, 0, 6⟩
def R.OPT_RING_CTL.GAIN : Field := ⟨R.OPT_RING_CTL.adr, 6, 4⟩
def R.OPT_RING_CTL.RELOCK_MAX : Field := ⟨R.OPT_RING_CTL.adr, 10, 3⟩
def R.OPT_RING_CTL.SWEEP_TICKS : Field := ⟨R.OPT_RING_CTL.adr, 16, 16⟩
def R.OPT_RING_CTL.VERIFY_TICKS : Field := ⟨R.OPT_RING_CTL.adr, 32, 16⟩
def R.OPT_RING_CTL.LOS_LEVEL : Field := ⟨R.OPT_RING_CTL.adr, 48, 12⟩

/-- OPT_MARGIN_CTL (chapter 11): its offset. -/
def R.OPT_MARGIN_CTL.adr : Nat := 0x800020
def R.OPT_MARGIN_CTL.WARN_DB : Field := ⟨R.OPT_MARGIN_CTL.adr, 0, 8⟩
def R.OPT_MARGIN_CTL.FAIL_DB : Field := ⟨R.OPT_MARGIN_CTL.adr, 8, 8⟩
def R.OPT_MARGIN_CTL.SER_FAIL : Field := ⟨R.OPT_MARGIN_CTL.adr, 16, 8⟩
def R.OPT_MARGIN_CTL.LOG2_TICKS : Field := ⟨R.OPT_MARGIN_CTL.adr, 24, 5⟩

/-- OPT_MARGIN_CMD (chapter 11): its offset. -/
def R.OPT_MARGIN_CMD.adr : Nat := 0x800028
def R.OPT_MARGIN_CMD.ENGINES : Field := ⟨R.OPT_MARGIN_CMD.adr, 0, 16⟩
def R.OPT_MARGIN_CMD.LANES : Field := ⟨R.OPT_MARGIN_CMD.adr, 16, 16⟩
def R.OPT_MARGIN_CMD.START : Field := ⟨R.OPT_MARGIN_CMD.adr, 32, 16⟩
def R.OPT_MARGIN_CMD.GO : Field := ⟨R.OPT_MARGIN_CMD.adr, 48, 1⟩
def R.OPT_MARGIN_CMD.COMMIT : Field := ⟨R.OPT_MARGIN_CMD.adr, 49, 1⟩

/-- OPT_LASER_CTL (chapter 11): its offset. -/
def R.OPT_LASER_CTL.adr : Nat := 0x800030
def R.OPT_LASER_CTL.NOTICE_TICKS : Field := ⟨R.OPT_LASER_CTL.adr, 0, 12⟩

/-- OPT_EVENTS (chapter 11): its offset. -/
def R.OPT_EVENTS.adr : Nat := 0x800038
def R.OPT_EVENTS.PLAN_REJECT : Field := ⟨R.OPT_EVENTS.adr, 0, 1⟩
def R.OPT_EVENTS.SWITCH_LOST : Field := ⟨R.OPT_EVENTS.adr, 1, 1⟩
def R.OPT_EVENTS.LANE_RELOCK : Field := ⟨R.OPT_EVENTS.adr, 2, 1⟩
def R.OPT_EVENTS.LANE_FAILED : Field := ⟨R.OPT_EVENTS.adr, 3, 1⟩
def R.OPT_EVENTS.LOS : Field := ⟨R.OPT_EVENTS.adr, 4, 1⟩
def R.OPT_EVENTS.LASER_WARN : Field := ⟨R.OPT_EVENTS.adr, 5, 1⟩
def R.OPT_EVENTS.LASER_SWITCH : Field := ⟨R.OPT_EVENTS.adr, 6, 1⟩
def R.OPT_EVENTS.LASER_FAIL : Field := ⟨R.OPT_EVENTS.adr, 7, 1⟩
def R.OPT_EVENTS.SPARE_NONE : Field := ⟨R.OPT_EVENTS.adr, 8, 1⟩
def R.OPT_EVENTS.DARK_POSTPONED : Field := ⟨R.OPT_EVENTS.adr, 9, 1⟩
def R.OPT_EVENTS.MARGIN_WARN : Field := ⟨R.OPT_EVENTS.adr, 10, 1⟩
def R.OPT_EVENTS.MARGIN_FAIL : Field := ⟨R.OPT_EVENTS.adr, 11, 1⟩
def R.OPT_EVENTS.CMD_DENY : Field := ⟨R.OPT_EVENTS.adr, 12, 1⟩

/-- OPT_COUNTS (chapter 11): its offset. -/
def R.OPT_COUNTS.adr : Nat := 0x800040
def R.OPT_COUNTS.SWITCHES : Field := ⟨R.OPT_COUNTS.adr, 0, 16⟩
def R.OPT_COUNTS.RELOCKS : Field := ⟨R.OPT_COUNTS.adr, 16, 16⟩
def R.OPT_COUNTS.SWITCH_LOST : Field := ⟨R.OPT_COUNTS.adr, 32, 16⟩
def R.OPT_COUNTS.DARK_WINDOWS : Field := ⟨R.OPT_COUNTS.adr, 48, 16⟩

/-- OPT_LANE_CMD (chapter 11): its offset. -/
def R.OPT_LANE_CMD.adr : Nat := 0x800048
def R.OPT_LANE_CMD.CHANNEL : Field := ⟨R.OPT_LANE_CMD.adr, 0, 8⟩
def R.OPT_LANE_CMD.ACTION : Field := ⟨R.OPT_LANE_CMD.adr, 8, 2⟩

/-- OPT_LASER_BASE[b][s] (chapter 11): its offset. -/
def R.OPT_LASER_BASE.adr (b s : Nat) : Nat := 0x800100 + 0x40 * b + 0x8 * s
def R.OPT_LASER_BASE.BASE (b s : Nat) : Field := ⟨R.OPT_LASER_BASE.adr b s, 0, 16⟩

/-- OPT_LASER_STATUS[b][s] (chapter 11): its offset. -/
def R.OPT_LASER_STATUS.adr (b s : Nat) : Nat := 0x800200 + 0x40 * b + 0x8 * s
def R.OPT_LASER_STATUS.POWER (b s : Nat) : Field := ⟨R.OPT_LASER_STATUS.adr b s, 0, 16⟩
def R.OPT_LASER_STATUS.DELTA (b s : Nat) : Field := ⟨R.OPT_LASER_STATUS.adr b s, 16, 16⟩
def R.OPT_LASER_STATUS.STATE (b s : Nat) : Field := ⟨R.OPT_LASER_STATUS.adr b s, 32, 3⟩
def R.OPT_LASER_STATUS.FEEDS (b s : Nat) : Field := ⟨R.OPT_LASER_STATUS.adr b s, 35, 5⟩
def R.OPT_LASER_STATUS.WARN (b s : Nat) : Field := ⟨R.OPT_LASER_STATUS.adr b s, 40, 1⟩

/-- OPT_LANE_STATUS[c] (chapter 11): its offset. -/
def R.OPT_LANE_STATUS.adr (c : Nat) : Nat := 0x801000 + 0x8 * c
def R.OPT_LANE_STATUS.STATE (c : Nat) : Field := ⟨R.OPT_LANE_STATUS.adr c, 0, 3⟩
def R.OPT_LANE_STATUS.TXLINE (c : Nat) : Field := ⟨R.OPT_LANE_STATUS.adr c, 3, 5⟩
def R.OPT_LANE_STATUS.RXLINE (c : Nat) : Field := ⟨R.OPT_LANE_STATUS.adr c, 8, 5⟩
def R.OPT_LANE_STATUS.CHK_A (c : Nat) : Field := ⟨R.OPT_LANE_STATUS.adr c, 13, 1⟩
def R.OPT_LANE_STATUS.CHK_B (c : Nat) : Field := ⟨R.OPT_LANE_STATUS.adr c, 14, 1⟩
def R.OPT_LANE_STATUS.RELOCKS (c : Nat) : Field := ⟨R.OPT_LANE_STATUS.adr c, 15, 3⟩
def R.OPT_LANE_STATUS.CAUSE (c : Nat) : Field := ⟨R.OPT_LANE_STATUS.adr c, 18, 4⟩
def R.OPT_LANE_STATUS.TX_CODE (c : Nat) : Field := ⟨R.OPT_LANE_STATUS.adr c, 22, 16⟩
def R.OPT_LANE_STATUS.RX_CODE (c : Nat) : Field := ⟨R.OPT_LANE_STATUS.adr c, 38, 16⟩

/-- OPT_BASE[c] (chapter 11): its offset. -/
def R.OPT_BASE.adr (c : Nat) : Nat := 0x802000 + 0x8 * c
def R.OPT_BASE.RXPWR (c : Nat) : Field := ⟨R.OPT_BASE.adr c, 0, 16⟩
def R.OPT_BASE.SER_E (c : Nat) : Field := ⟨R.OPT_BASE.adr c, 16, 8⟩
def R.OPT_BASE.DETUNE (c : Nat) : Field := ⟨R.OPT_BASE.adr c, 24, 16⟩
def R.OPT_BASE.VALID (c : Nat) : Field := ⟨R.OPT_BASE.adr c, 40, 1⟩

/-- OPT_MARGIN[c] (chapter 11): its offset. -/
def R.OPT_MARGIN.adr (c : Nat) : Nat := 0x803000 + 0x8 * c
def R.OPT_MARGIN.RXPWR (c : Nat) : Field := ⟨R.OPT_MARGIN.adr c, 0, 16⟩
def R.OPT_MARGIN.SER_E (c : Nat) : Field := ⟨R.OPT_MARGIN.adr c, 16, 8⟩
def R.OPT_MARGIN.DETUNE (c : Nat) : Field := ⟨R.OPT_MARGIN.adr c, 24, 16⟩
def R.OPT_MARGIN.VERDICT (c : Nat) : Field := ⟨R.OPT_MARGIN.adr c, 40, 3⟩

/-- OPT_RING_CAL[n][r][q] (chapter 11): its offset. -/
def R.OPT_RING_CAL.adr (n r q : Nat) : Nat := 0x840000 + 0x800 * n + 0x40 * r + 0x8 * q
def R.OPT_RING_CAL.CODE (n r q i : Nat) : Field := ⟨R.OPT_RING_CAL.adr n r q, 16 * i + 0, 16⟩

/-- OPT_LANE_TEST[c] (chapter 11): its offset. -/
def R.OPT_LANE_TEST.adr (c : Nat) : Nat := 0x804000 + 0x8 * c
def R.OPT_LANE_TEST.TEST (c : Nat) : Field := ⟨R.OPT_LANE_TEST.adr c, 0, 1⟩
def R.OPT_LANE_TEST.PATTERN (c : Nat) : Field := ⟨R.OPT_LANE_TEST.adr c, 1, 2⟩
def R.OPT_LANE_TEST.GEN_EN (c : Nat) : Field := ⟨R.OPT_LANE_TEST.adr c, 3, 1⟩
def R.OPT_LANE_TEST.CHK_EN (c : Nat) : Field := ⟨R.OPT_LANE_TEST.adr c, 4, 1⟩
def R.OPT_LANE_TEST.CHK_LOCK (c : Nat) : Field := ⟨R.OPT_LANE_TEST.adr c, 5, 1⟩

/-- OPT_CNT_SRC[k] (chapter 11): its offset. -/
def R.OPT_CNT_SRC.adr (k : Nat) : Nat := 0x804800 + 0x8 * k
def R.OPT_CNT_SRC.SRC (k : Nat) : Field := ⟨R.OPT_CNT_SRC.adr k, 0, 64⟩

/-- OPT_INJECT[c] (chapter 11): its offset. -/
def R.OPT_INJECT.adr (c : Nat) : Nat := 0x805000 + 0x8 * c
def R.OPT_INJECT.GO (c : Nat) : Field := ⟨R.OPT_INJECT.adr c, 0, 1⟩
def R.OPT_INJECT.KIND (c : Nat) : Field := ⟨R.OPT_INJECT.adr c, 1, 2⟩
def R.OPT_INJECT.LENGTH (c : Nat) : Field := ⟨R.OPT_INJECT.adr c, 3, 8⟩
def R.OPT_INJECT.COUNT (c : Nat) : Field := ⟨R.OPT_INJECT.adr c, 11, 16⟩
def R.OPT_INJECT.INTERVAL (c : Nat) : Field := ⟨R.OPT_INJECT.adr c, 27, 16⟩
def R.OPT_INJECT.BUSY (c : Nat) : Field := ⟨R.OPT_INJECT.adr c, 43, 1⟩

/-- OPT_LANE_CNT[c][k] (chapter 11): its offset. -/
def R.OPT_LANE_CNT.adr (c k : Nat) : Nat := 0x810000 + 0x40 * c + 0x8 * k
def R.OPT_LANE_CNT.CNT (c k : Nat) : Field := ⟨R.OPT_LANE_CNT.adr c k, 0, 64⟩
def R.OPT_LANE_CNT.MARKERS (c : Nat) : Field := ⟨R.OPT_LANE_CNT.adr c 4, 0, 32⟩
def R.OPT_LANE_CNT.MARKER_ERR (c : Nat) : Field := ⟨R.OPT_LANE_CNT.adr c 4, 32, 16⟩
def R.OPT_LANE_CNT.LOCK_LOSS (c : Nat) : Field := ⟨R.OPT_LANE_CNT.adr c 4, 48, 16⟩
def R.OPT_LANE_CNT.RESERVE_OVER (c : Nat) : Field := ⟨R.OPT_LANE_CNT.adr c 5, 0, 32⟩
def R.OPT_LANE_CNT.IDLE_INS (c : Nat) : Field := ⟨R.OPT_LANE_CNT.adr c 5, 32, 32⟩

/-- ELK_PORT_CTL[m] (chapter 12): its offset. -/
def R.ELK_PORT_CTL.adr (m : Nat) : Nat := 0x700000 + 0x8 * m
def R.ELK_PORT_CTL.EN (m : Nat) : Field := ⟨R.ELK_PORT_CTL.adr m, 0, 1⟩
def R.ELK_PORT_CTL.FEC (m : Nat) : Field := ⟨R.ELK_PORT_CTL.adr m, 1, 1⟩
def R.ELK_PORT_CTL.SKOIS (m : Nat) : Field := ⟨R.ELK_PORT_CTL.adr m, 2, 1⟩
def R.ELK_PORT_CTL.IDLE_EN (m : Nat) : Field := ⟨R.ELK_PORT_CTL.adr m, 3, 1⟩
def R.ELK_PORT_CTL.MIN_LANES (m : Nat) : Field := ⟨R.ELK_PORT_CTL.adr m, 4, 4⟩
def R.ELK_PORT_CTL.LANE_EN (m : Nat) : Field := ⟨R.ELK_PORT_CTL.adr m, 8, 8⟩
def R.ELK_PORT_CTL.REJOIN (m : Nat) : Field := ⟨R.ELK_PORT_CTL.adr m, 16, 16⟩
def R.ELK_PORT_CTL.RETRAIN (m : Nat) : Field := ⟨R.ELK_PORT_CTL.adr m, 32, 1⟩

/-- ELK_PORT_STATUS[m] (chapter 12): its offset. -/
def R.ELK_PORT_STATUS.adr (m : Nat) : Nat := 0x700040 + 0x8 * m
def R.ELK_PORT_STATUS.STATE (m : Nat) : Field := ⟨R.ELK_PORT_STATUS.adr m, 0, 3⟩
def R.ELK_PORT_STATUS.ACTIVE (m : Nat) : Field := ⟨R.ELK_PORT_STATUS.adr m, 3, 8⟩
def R.ELK_PORT_STATUS.FEC (m : Nat) : Field := ⟨R.ELK_PORT_STATUS.adr m, 11, 1⟩
def R.ELK_PORT_STATUS.SKOIS (m : Nat) : Field := ⟨R.ELK_PORT_STATUS.adr m, 12, 1⟩
def R.ELK_PORT_STATUS.RETRAINS (m : Nat) : Field := ⟨R.ELK_PORT_STATUS.adr m, 13, 16⟩

/-- ELK_SKOIS_CTL[m] (chapter 12): its offset. -/
def R.ELK_SKOIS_CTL.adr (m : Nat) : Nat := 0x700080 + 0x8 * m
def R.ELK_SKOIS_CTL.PEER_POOL (m : Nat) : Field := ⟨R.ELK_SKOIS_CTL.adr m, 0, 16⟩
def R.ELK_SKOIS_CTL.SLEEP_TICKS (m : Nat) : Field := ⟨R.ELK_SKOIS_CTL.adr m, 16, 16⟩

/-- ELK_CNT_SRC (chapter 12): its offset. -/
def R.ELK_CNT_SRC.adr : Nat := 0x7000c0
def R.ELK_CNT_SRC.SRC : Field := ⟨R.ELK_CNT_SRC.adr, 0, 48⟩

/-- ELK_EVENTS (chapter 12): its offset. -/
def R.ELK_EVENTS.adr : Nat := 0x7000c8
def R.ELK_EVENTS.LOS : Field := ⟨R.ELK_EVENTS.adr, 0, 1⟩
def R.ELK_EVENTS.LOCK_LOSS : Field := ⟨R.ELK_EVENTS.adr, 1, 1⟩
def R.ELK_EVENTS.TRAIN_FAIL : Field := ⟨R.ELK_EVENTS.adr, 2, 1⟩
def R.ELK_EVENTS.PORT_DOWN : Field := ⟨R.ELK_EVENTS.adr, 3, 1⟩
def R.ELK_EVENTS.RESERVE_OVER : Field := ⟨R.ELK_EVENTS.adr, 4, 1⟩
def R.ELK_EVENTS.MARKER_ERR : Field := ⟨R.ELK_EVENTS.adr, 5, 1⟩
def R.ELK_EVENTS.CFG_BUSY : Field := ⟨R.ELK_EVENTS.adr, 6, 1⟩

/-- ELK_LANE_CTL[l] (chapter 12): its offset. -/
def R.ELK_LANE_CTL.adr (l : Nat) : Nat := 0x700100 + 0x8 * l
def R.ELK_LANE_CTL.TEST (l : Nat) : Field := ⟨R.ELK_LANE_CTL.adr l, 0, 1⟩
def R.ELK_LANE_CTL.PATTERN (l : Nat) : Field := ⟨R.ELK_LANE_CTL.adr l, 1, 2⟩
def R.ELK_LANE_CTL.GEN_EN (l : Nat) : Field := ⟨R.ELK_LANE_CTL.adr l, 3, 1⟩
def R.ELK_LANE_CTL.CHK_EN (l : Nat) : Field := ⟨R.ELK_LANE_CTL.adr l, 4, 1⟩

/-- ELK_LANE_STATUS[l] (chapter 12): its offset. -/
def R.ELK_LANE_STATUS.adr (l : Nat) : Nat := 0x700300 + 0x8 * l
def R.ELK_LANE_STATUS.STATE (l : Nat) : Field := ⟨R.ELK_LANE_STATUS.adr l, 0, 3⟩
def R.ELK_LANE_STATUS.LOS (l : Nat) : Field := ⟨R.ELK_LANE_STATUS.adr l, 3, 1⟩
def R.ELK_LANE_STATUS.CHK_LOCK (l : Nat) : Field := ⟨R.ELK_LANE_STATUS.adr l, 4, 1⟩
def R.ELK_LANE_STATUS.INVERTED (l : Nat) : Field := ⟨R.ELK_LANE_STATUS.adr l, 5, 1⟩
def R.ELK_LANE_STATUS.PEER_LANE (l : Nat) : Field := ⟨R.ELK_LANE_STATUS.adr l, 6, 3⟩
def R.ELK_LANE_STATUS.SNR (l : Nat) : Field := ⟨R.ELK_LANE_STATUS.adr l, 9, 8⟩

/-- ELK_TXEQ[l] (chapter 12): its offset. -/
def R.ELK_TXEQ.adr (l : Nat) : Nat := 0x700500 + 0x8 * l
def R.ELK_TXEQ.PRE2 (l : Nat) : Field := ⟨R.ELK_TXEQ.adr l, 0, 8⟩
def R.ELK_TXEQ.PRE1 (l : Nat) : Field := ⟨R.ELK_TXEQ.adr l, 8, 8⟩
def R.ELK_TXEQ.MAIN (l : Nat) : Field := ⟨R.ELK_TXEQ.adr l, 16, 8⟩
def R.ELK_TXEQ.POST1 (l : Nat) : Field := ⟨R.ELK_TXEQ.adr l, 24, 8⟩

/-- ELK_INJECT[l] (chapter 12): its offset. -/
def R.ELK_INJECT.adr (l : Nat) : Nat := 0x700700 + 0x8 * l
def R.ELK_INJECT.GO (l : Nat) : Field := ⟨R.ELK_INJECT.adr l, 0, 1⟩
def R.ELK_INJECT.KIND (l : Nat) : Field := ⟨R.ELK_INJECT.adr l, 1, 2⟩
def R.ELK_INJECT.LENGTH (l : Nat) : Field := ⟨R.ELK_INJECT.adr l, 3, 8⟩
def R.ELK_INJECT.COUNT (l : Nat) : Field := ⟨R.ELK_INJECT.adr l, 11, 16⟩
def R.ELK_INJECT.INTERVAL (l : Nat) : Field := ⟨R.ELK_INJECT.adr l, 27, 16⟩
def R.ELK_INJECT.BUSY (l : Nat) : Field := ⟨R.ELK_INJECT.adr l, 43, 1⟩

/-- ELK_LANE_CNT[l][k] (chapter 12): its offset. -/
def R.ELK_LANE_CNT.adr (l k : Nat) : Nat := 0x710000 + 0x40 * l + 0x8 * k
def R.ELK_LANE_CNT.CNT (l k : Nat) : Field := ⟨R.ELK_LANE_CNT.adr l k, 0, 64⟩
def R.ELK_LANE_CNT.MARKERS (l : Nat) : Field := ⟨R.ELK_LANE_CNT.adr l 4, 0, 32⟩
def R.ELK_LANE_CNT.MARKER_ERR (l : Nat) : Field := ⟨R.ELK_LANE_CNT.adr l 4, 32, 16⟩
def R.ELK_LANE_CNT.LOCK_LOSS (l : Nat) : Field := ⟨R.ELK_LANE_CNT.adr l 4, 48, 16⟩
def R.ELK_LANE_CNT.RESERVE_OVER (l : Nat) : Field := ⟨R.ELK_LANE_CNT.adr l 5, 0, 32⟩
def R.ELK_LANE_CNT.IDLE_INS (l : Nat) : Field := ⟨R.ELK_LANE_CNT.adr l 5, 32, 32⟩

/-- HST_PORT_CFG (chapter 13): its offset. -/
def R.HST_PORT_CFG.adr (h : Nat) : Nat := 0xf00000 + 0x4000 * h
def R.HST_PORT_CFG.EN (h : Nat) : Field := ⟨R.HST_PORT_CFG.adr h, 0, 1⟩
def R.HST_PORT_CFG.DEFPART (h : Nat) : Field := ⟨R.HST_PORT_CFG.adr h, 1, 6⟩
def R.HST_PORT_CFG.DEF_EN (h : Nat) : Field := ⟨R.HST_PORT_CFG.adr h, 7, 1⟩
def R.HST_PORT_CFG.MM_EN (h : Nat) : Field := ⟨R.HST_PORT_CFG.adr h, 8, 1⟩
def R.HST_PORT_CFG.FW_EN (h : Nat) : Field := ⟨R.HST_PORT_CFG.adr h, 9, 1⟩
def R.HST_PORT_CFG.PASID_EN (h : Nat) : Field := ⟨R.HST_PORT_CFG.adr h, 10, 1⟩
def R.HST_PORT_CFG.CACHE_EN (h : Nat) : Field := ⟨R.HST_PORT_CFG.adr h, 11, 1⟩
def R.HST_PORT_CFG.SET (h : Nat) : Field := ⟨R.HST_PORT_CFG.adr h, 12, 4⟩
def R.HST_PORT_CFG.TIMEOUT_LOG2 (h : Nat) : Field := ⟨R.HST_PORT_CFG.adr h, 16, 5⟩
def R.HST_PORT_CFG.MAXRATE (h : Nat) : Field := ⟨R.HST_PORT_CFG.adr h, 21, 2⟩
def R.HST_PORT_CFG.MAXWIDTH (h : Nat) : Field := ⟨R.HST_PORT_CFG.adr h, 23, 2⟩
def R.HST_PORT_CFG.AO32 (h : Nat) : Field := ⟨R.HST_PORT_CFG.adr h, 25, 1⟩
def R.HST_PORT_CFG.AO64 (h : Nat) : Field := ⟨R.HST_PORT_CFG.adr h, 26, 1⟩
def R.HST_PORT_CFG.ERRVEC (h : Nat) : Field := ⟨R.HST_PORT_CFG.adr h, 27, 11⟩

/-- HST_PORT_STATUS (chapter 13): its offset. -/
def R.HST_PORT_STATUS.adr (h : Nat) : Nat := 0xf00008 + 0x4000 * h
def R.HST_PORT_STATUS.LINK (h : Nat) : Field := ⟨R.HST_PORT_STATUS.adr h, 0, 2⟩
def R.HST_PORT_STATUS.PERST (h : Nat) : Field := ⟨R.HST_PORT_STATUS.adr h, 2, 1⟩
def R.HST_PORT_STATUS.RATE (h : Nat) : Field := ⟨R.HST_PORT_STATUS.adr h, 3, 2⟩
def R.HST_PORT_STATUS.WIDTH (h : Nat) : Field := ⟨R.HST_PORT_STATUS.adr h, 5, 2⟩
def R.HST_PORT_STATUS.CACHE_ON (h : Nat) : Field := ⟨R.HST_PORT_STATUS.adr h, 7, 1⟩
def R.HST_PORT_STATUS.MEM_ON (h : Nat) : Field := ⟨R.HST_PORT_STATUS.adr h, 8, 1⟩
def R.HST_PORT_STATUS.SET_OK (h : Nat) : Field := ⟨R.HST_PORT_STATUS.adr h, 9, 1⟩
def R.HST_PORT_STATUS.WATCH (h : Nat) : Field := ⟨R.HST_PORT_STATUS.adr h, 16, 11⟩
def R.HST_PORT_STATUS.FW_OUT (h : Nat) : Field := ⟨R.HST_PORT_STATUS.adr h, 27, 14⟩

/-- HST_FW (chapter 13): its offset. -/
def R.HST_FW.adr (h : Nat) : Nat := 0xf00010 + 0x4000 * h
def R.HST_FW.BASE_G (h : Nat) : Field := ⟨R.HST_FW.adr h, 0, 27⟩
def R.HST_FW.SIZE_G (h : Nat) : Field := ⟨R.HST_FW.adr h, 32, 22⟩

/-- HST_SKID_LO, HST_SKID_HI (chapter 13): its offset. -/
def R.HST_SKID_LO.adr (h : Nat) : Nat := 0xf00018 + 0x4000 * h
def R.HST_SKID_LO.SKID (h : Nat) : Field := ⟨R.HST_SKID_LO.adr h, 0, 64⟩

/-- HST_SKID_LO, HST_SKID_HI (chapter 13): its offset. -/
def R.HST_SKID_HI.adr (h : Nat) : Nat := 0xf00020 + 0x4000 * h
def R.HST_SKID_HI.SKID (h : Nat) : Field := ⟨R.HST_SKID_HI.adr h, 0, 64⟩

/-- HST_PART_MAP (chapter 13): its offset. -/
def R.HST_PART_MAP.adr (h : Nat) : Nat := 0xf00028 + 0x4000 * h
def R.HST_PART_MAP.PARTS (h : Nat) : Field := ⟨R.HST_PART_MAP.adr h, 0, 64⟩

/-- HST_FENCE (chapter 13): its offset. -/
def R.HST_FENCE.adr (h : Nat) : Nat := 0xf00038 + 0x4000 * h
def R.HST_FENCE.TOKEN (h : Nat) : Field := ⟨R.HST_FENCE.adr h, 0, 32⟩
def R.HST_FENCE.GO (h : Nat) : Field := ⟨R.HST_FENCE.adr h, 32, 1⟩

/-- HST_FENCE_STATUS (chapter 13): its offset. -/
def R.HST_FENCE_STATUS.adr (h : Nat) : Nat := 0xf00040 + 0x4000 * h
def R.HST_FENCE_STATUS.TOKEN (h : Nat) : Field := ⟨R.HST_FENCE_STATUS.adr h, 0, 32⟩
def R.HST_FENCE_STATUS.BUSY (h : Nat) : Field := ⟨R.HST_FENCE_STATUS.adr h, 32, 1⟩
def R.HST_FENCE_STATUS.DONE (h : Nat) : Field := ⟨R.HST_FENCE_STATUS.adr h, 33, 1⟩
def R.HST_FENCE_STATUS.STATUS (h : Nat) : Field := ⟨R.HST_FENCE_STATUS.adr h, 34, 4⟩
def R.HST_FENCE_STATUS.FAILED (h : Nat) : Field := ⟨R.HST_FENCE_STATUS.adr h, 38, 16⟩

/-- HST_EVENTS (chapter 13): its offset. -/
def R.HST_EVENTS.adr (h : Nat) : Nat := 0xf00048 + 0x4000 * h
def R.HST_EVENTS.LINK_DOWN (h : Nat) : Field := ⟨R.HST_EVENTS.adr h, 0, 1⟩
def R.HST_EVENTS.PERST (h : Nat) : Field := ⟨R.HST_EVENTS.adr h, 1, 1⟩
def R.HST_EVENTS.FW_FAIL (h : Nat) : Field := ⟨R.HST_EVENTS.adr h, 2, 1⟩
def R.HST_EVENTS.POISON_IN (h : Nat) : Field := ⟨R.HST_EVENTS.adr h, 3, 1⟩
def R.HST_EVENTS.FENCE_BUSY (h : Nat) : Field := ⟨R.HST_EVENTS.adr h, 4, 1⟩
def R.HST_EVENTS.SET_MISMATCH (h : Nat) : Field := ⟨R.HST_EVENTS.adr h, 5, 1⟩
def R.HST_EVENTS.CFG_REJECT (h : Nat) : Field := ⟨R.HST_EVENTS.adr h, 6, 1⟩
def R.HST_EVENTS.HOST_CTO (h : Nat) : Field := ⟨R.HST_EVENTS.adr h, 7, 1⟩
def R.HST_EVENTS.OUT_OF_WINDOW (h : Nat) : Field := ⟨R.HST_EVENTS.adr h, 8, 1⟩

/-- HST_COUNTS0 (chapter 13): its offset. -/
def R.HST_COUNTS0.adr (h : Nat) : Nat := 0xf00050 + 0x4000 * h
def R.HST_COUNTS0.DENIED (h : Nat) : Field := ⟨R.HST_COUNTS0.adr h, 0, 32⟩
def R.HST_COUNTS0.OUT_OF_WINDOW (h : Nat) : Field := ⟨R.HST_COUNTS0.adr h, 32, 32⟩

/-- HST_COUNTS1 (chapter 13): its offset. -/
def R.HST_COUNTS1.adr (h : Nat) : Nat := 0xf00058 + 0x4000 * h
def R.HST_COUNTS1.FW_FAIL (h : Nat) : Field := ⟨R.HST_COUNTS1.adr h, 0, 32⟩
def R.HST_COUNTS1.POISON_IN (h : Nat) : Field := ⟨R.HST_COUNTS1.adr h, 32, 16⟩
def R.HST_COUNTS1.HOST_ERR (h : Nat) : Field := ⟨R.HST_COUNTS1.adr h, 48, 16⟩

/-- HST_PASID[i] (chapter 13): its offset. -/
def R.HST_PASID.adr (h i : Nat) : Nat := 0xf00100 + 0x4000 * h + 0x8 * i
def R.HST_PASID.PASID (h i : Nat) : Field := ⟨R.HST_PASID.adr h i, 0, 20⟩
def R.HST_PASID.PART (h i : Nat) : Field := ⟨R.HST_PASID.adr h i, 20, 6⟩
def R.HST_PASID.VALID (h i : Nat) : Field := ⟨R.HST_PASID.adr h i, 26, 1⟩

/-- SEC_STATUS (chapter 14): its offset. -/
def R.SEC_STATUS.adr : Nat := 0xd00000
def R.SEC_STATUS.ID_OK : Field := ⟨R.SEC_STATUS.adr, 0, 1⟩
def R.SEC_STATUS.FW_SLOT : Field := ⟨R.SEC_STATUS.adr, 1, 1⟩
def R.SEC_STATUS.FW_SVN : Field := ⟨R.SEC_STATUS.adr, 16, 16⟩
def R.SEC_STATUS.SET_SEQ : Field := ⟨R.SEC_STATUS.adr, 32, 32⟩

/-- SEC_DEBUG_EPOCH (chapter 14): its offset. -/
def R.SEC_DEBUG_EPOCH.adr : Nat := 0xd00008
def R.SEC_DEBUG_EPOCH.EPOCH : Field := ⟨R.SEC_DEBUG_EPOCH.adr, 0, 64⟩

/-- SEC_DEBUG_CTL (chapter 14): its offset. -/
def R.SEC_DEBUG_CTL.adr : Nat := 0xd00010
def R.SEC_DEBUG_CTL.OPEN : Field := ⟨R.SEC_DEBUG_CTL.adr, 0, 1⟩
def R.SEC_DEBUG_CTL.CLOSE : Field := ⟨R.SEC_DEBUG_CTL.adr, 1, 1⟩
def R.SEC_DEBUG_CTL.SESSION : Field := ⟨R.SEC_DEBUG_CTL.adr, 2, 1⟩
def R.SEC_DEBUG_CTL.JTAG : Field := ⟨R.SEC_DEBUG_CTL.adr, 3, 1⟩
def R.SEC_DEBUG_CTL.COUNTED : Field := ⟨R.SEC_DEBUG_CTL.adr, 4, 1⟩

/-- SEC_EVENTS (chapter 14): its offset. -/
def R.SEC_EVENTS.adr : Nat := 0xd00018
def R.SEC_EVENTS.SEALED_DENY : Field := ⟨R.SEC_EVENTS.adr, 0, 1⟩
def R.SEC_EVENTS.GCM_FAIL : Field := ⟨R.SEC_EVENTS.adr, 1, 1⟩
def R.SEC_EVENTS.UNWRAP_FAIL : Field := ⟨R.SEC_EVENTS.adr, 2, 1⟩
def R.SEC_EVENTS.DEBUG_READ : Field := ⟨R.SEC_EVENTS.adr, 3, 1⟩
def R.SEC_EVENTS.CMD_DENY : Field := ⟨R.SEC_EVENTS.adr, 4, 1⟩
def R.SEC_EVENTS.ID_FAIL : Field := ⟨R.SEC_EVENTS.adr, 5, 1⟩
def R.SEC_EVENTS.LOCKED : Field := ⟨R.SEC_EVENTS.adr, 6, 1⟩

/-- SEC_COUNTS (chapter 14): its offset. -/
def R.SEC_COUNTS.adr : Nat := 0xd00020
def R.SEC_COUNTS.DENIED : Field := ⟨R.SEC_COUNTS.adr, 0, 32⟩
def R.SEC_COUNTS.CHUNKS_FAILED : Field := ⟨R.SEC_COUNTS.adr, 32, 16⟩
def R.SEC_COUNTS.UNWRAPS_FAILED : Field := ⟨R.SEC_COUNTS.adr, 48, 16⟩

/-- SEC_NONCE[k] (chapter 14): its offset. -/
def R.SEC_NONCE.adr (k : Nat) : Nat := 0xd00040 + 0x8 * k
def R.SEC_NONCE.NONCE (k : Nat) : Field := ⟨R.SEC_NONCE.adr k, 0, 64⟩

/-- SEC_QUOTE_CMD (chapter 14): its offset. -/
def R.SEC_QUOTE_CMD.adr : Nat := 0xd00060
def R.SEC_QUOTE_CMD.PART : Field := ⟨R.SEC_QUOTE_CMD.adr, 0, 6⟩
def R.SEC_QUOTE_CMD.GO : Field := ⟨R.SEC_QUOTE_CMD.adr, 6, 1⟩
def R.SEC_QUOTE_CMD.DST : Field := ⟨R.SEC_QUOTE_CMD.adr, 8, 46⟩

/-- SEC_QUOTE_STATUS, SEC_KEY_STATUS, SEC_RANGE_STATUS (chapter 14): its offset. -/
def R.SEC_QUOTE_STATUS.adr : Nat := 0xd00068
def R.SEC_QUOTE_STATUS.BUSY : Field := ⟨R.SEC_QUOTE_STATUS.adr, 0, 1⟩
def R.SEC_QUOTE_STATUS.DONE : Field := ⟨R.SEC_QUOTE_STATUS.adr, 1, 1⟩
def R.SEC_QUOTE_STATUS.RESULT : Field := ⟨R.SEC_QUOTE_STATUS.adr, 2, 4⟩
def R.SEC_QUOTE_STATUS.SCRUBBING : Field := ⟨R.SEC_QUOTE_STATUS.adr, 6, 9⟩

/-- SEC_QUOTE_STATUS, SEC_KEY_STATUS, SEC_RANGE_STATUS (chapter 14): its offset. -/
def R.SEC_KEY_STATUS.adr : Nat := 0xd00078
def R.SEC_KEY_STATUS.BUSY : Field := ⟨R.SEC_KEY_STATUS.adr, 0, 1⟩
def R.SEC_KEY_STATUS.DONE : Field := ⟨R.SEC_KEY_STATUS.adr, 1, 1⟩
def R.SEC_KEY_STATUS.RESULT : Field := ⟨R.SEC_KEY_STATUS.adr, 2, 4⟩
def R.SEC_KEY_STATUS.SCRUBBING : Field := ⟨R.SEC_KEY_STATUS.adr, 6, 9⟩

/-- SEC_QUOTE_STATUS, SEC_KEY_STATUS, SEC_RANGE_STATUS (chapter 14): its offset. -/
def R.SEC_RANGE_STATUS.adr : Nat := 0xd00088
def R.SEC_RANGE_STATUS.BUSY : Field := ⟨R.SEC_RANGE_STATUS.adr, 0, 1⟩
def R.SEC_RANGE_STATUS.DONE : Field := ⟨R.SEC_RANGE_STATUS.adr, 1, 1⟩
def R.SEC_RANGE_STATUS.RESULT : Field := ⟨R.SEC_RANGE_STATUS.adr, 2, 4⟩
def R.SEC_RANGE_STATUS.SCRUBBING : Field := ⟨R.SEC_RANGE_STATUS.adr, 6, 9⟩

/-- SEC_KEY_CMD (chapter 14): its offset. -/
def R.SEC_KEY_CMD.adr : Nat := 0xd00070
def R.SEC_KEY_CMD.OP : Field := ⟨R.SEC_KEY_CMD.adr, 0, 2⟩
def R.SEC_KEY_CMD.PART : Field := ⟨R.SEC_KEY_CMD.adr, 2, 6⟩
def R.SEC_KEY_CMD.SLOT : Field := ⟨R.SEC_KEY_CMD.adr, 8, 4⟩
def R.SEC_KEY_CMD.GO : Field := ⟨R.SEC_KEY_CMD.adr, 12, 1⟩
def R.SEC_KEY_CMD.SRC : Field := ⟨R.SEC_KEY_CMD.adr, 14, 46⟩

/-- SEC_RANGE_CMD (chapter 14): its offset. -/
def R.SEC_RANGE_CMD.adr : Nat := 0xd00080
def R.SEC_RANGE_CMD.INDEX : Field := ⟨R.SEC_RANGE_CMD.adr, 0, 8⟩
def R.SEC_RANGE_CMD.OP : Field := ⟨R.SEC_RANGE_CMD.adr, 8, 2⟩
def R.SEC_RANGE_CMD.KIND : Field := ⟨R.SEC_RANGE_CMD.adr, 10, 1⟩
def R.SEC_RANGE_CMD.PART : Field := ⟨R.SEC_RANGE_CMD.adr, 11, 6⟩
def R.SEC_RANGE_CMD.BASE : Field := ⟨R.SEC_RANGE_CMD.adr, 17, 28⟩
def R.SEC_RANGE_CMD.SIZE : Field := ⟨R.SEC_RANGE_CMD.adr, 45, 16⟩
def R.SEC_RANGE_CMD.GO : Field := ⟨R.SEC_RANGE_CMD.adr, 61, 1⟩

/-- SEC_LOAD_SRC (chapter 14): its offset. -/
def R.SEC_LOAD_SRC.adr : Nat := 0xd00090
def R.SEC_LOAD_SRC.ADDR : Field := ⟨R.SEC_LOAD_SRC.adr, 6, 46⟩

/-- SEC_LOAD_CMD (chapter 14): its offset. -/
def R.SEC_LOAD_CMD.adr : Nat := 0xd00098
def R.SEC_LOAD_CMD.RANGE : Field := ⟨R.SEC_LOAD_CMD.adr, 0, 8⟩
def R.SEC_LOAD_CMD.SLOT : Field := ⟨R.SEC_LOAD_CMD.adr, 8, 4⟩
def R.SEC_LOAD_CMD.FIRST : Field := ⟨R.SEC_LOAD_CMD.adr, 12, 16⟩
def R.SEC_LOAD_CMD.COUNT : Field := ⟨R.SEC_LOAD_CMD.adr, 28, 16⟩
def R.SEC_LOAD_CMD.TOKEN : Field := ⟨R.SEC_LOAD_CMD.adr, 44, 16⟩
def R.SEC_LOAD_CMD.GO : Field := ⟨R.SEC_LOAD_CMD.adr, 60, 1⟩

/-- SEC_LOAD_STATUS (chapter 14): its offset. -/
def R.SEC_LOAD_STATUS.adr : Nat := 0xd000a0
def R.SEC_LOAD_STATUS.QUEUED : Field := ⟨R.SEC_LOAD_STATUS.adr, 0, 5⟩
def R.SEC_LOAD_STATUS.DONE_TOKEN : Field := ⟨R.SEC_LOAD_STATUS.adr, 5, 16⟩
def R.SEC_LOAD_STATUS.RESULT : Field := ⟨R.SEC_LOAD_STATUS.adr, 21, 4⟩
def R.SEC_LOAD_STATUS.FAIL_CHUNK : Field := ⟨R.SEC_LOAD_STATUS.adr, 25, 16⟩
def R.SEC_LOAD_STATUS.LOADED : Field := ⟨R.SEC_LOAD_STATUS.adr, 41, 16⟩
def R.SEC_LOAD_STATUS.DONE : Field := ⟨R.SEC_LOAD_STATUS.adr, 57, 1⟩

/-- SEC_PART_CMD (chapter 14): its offset. -/
def R.SEC_PART_CMD.adr : Nat := 0xd00100
def R.SEC_PART_CMD.PART : Field := ⟨R.SEC_PART_CMD.adr, 0, 6⟩
def R.SEC_PART_CMD.CMD : Field := ⟨R.SEC_PART_CMD.adr, 6, 3⟩
def R.SEC_PART_CMD.GO : Field := ⟨R.SEC_PART_CMD.adr, 9, 1⟩
def R.SEC_PART_CMD.TICK : Field := ⟨R.SEC_PART_CMD.adr, 10, 54⟩

/-- SEC_PART_STATUS[p] (chapter 14): its offset. -/
def R.SEC_PART_STATUS.adr (p : Nat) : Nat := 0xd00200 + 0x8 * p
def R.SEC_PART_STATUS.STATE (p : Nat) : Field := ⟨R.SEC_PART_STATUS.adr p, 0, 2⟩
def R.SEC_PART_STATUS.PENDING (p : Nat) : Field := ⟨R.SEC_PART_STATUS.adr p, 2, 1⟩
def R.SEC_PART_STATUS.RESULT (p : Nat) : Field := ⟨R.SEC_PART_STATUS.adr p, 3, 4⟩
def R.SEC_PART_STATUS.SLOTS (p : Nat) : Field := ⟨R.SEC_PART_STATUS.adr p, 7, 16⟩
def R.SEC_PART_STATUS.EK (p : Nat) : Field := ⟨R.SEC_PART_STATUS.adr p, 23, 1⟩
def R.SEC_PART_STATUS.SEALING (p : Nat) : Field := ⟨R.SEC_PART_STATUS.adr p, 24, 1⟩

/-- SEC_PART_RESET_AT[p] (chapter 14): its offset. -/
def R.SEC_PART_RESET_AT.adr (p : Nat) : Nat := 0xd00400 + 0x8 * p
def R.SEC_PART_RESET_AT.EARLIEST (p : Nat) : Field := ⟨R.SEC_PART_RESET_AT.adr p, 0, 64⟩

/-- SEC_PART_CFG[p] (chapter 14): its offset. -/
def R.SEC_PART_CFG.adr (p : Nat) : Nat := 0xd00600 + 0x8 * p
def R.SEC_PART_CFG.SPDM_PORTS (p : Nat) : Field := ⟨R.SEC_PART_CFG.adr p, 0, 4⟩

/-- SEC_RANGE[i] (chapter 14): its offset. -/
def R.SEC_RANGE.adr (i : Nat) : Nat := 0xd01000 + 0x8 * i
def R.SEC_RANGE.BASE (i : Nat) : Field := ⟨R.SEC_RANGE.adr i, 0, 28⟩
def R.SEC_RANGE.SIZE (i : Nat) : Field := ⟨R.SEC_RANGE.adr i, 28, 16⟩
def R.SEC_RANGE.PART (i : Nat) : Field := ⟨R.SEC_RANGE.adr i, 44, 6⟩
def R.SEC_RANGE.KIND (i : Nat) : Field := ⟨R.SEC_RANGE.adr i, 50, 1⟩
def R.SEC_RANGE.STATE (i : Nat) : Field := ⟨R.SEC_RANGE.adr i, 51, 2⟩

/-- REL_CHECK_LEVEL (chapter 15): its offset. -/
def R.REL_CHECK_LEVEL.adr : Nat := 0xc00000
def R.REL_CHECK_LEVEL.LEVEL : Field := ⟨R.REL_CHECK_LEVEL.adr, 0, 3⟩

/-- REL_ALERT_CAUSE (chapter 15): its offset. -/
def R.REL_ALERT_CAUSE.adr : Nat := 0xc00008
def R.REL_ALERT_CAUSE.POWER : Field := ⟨R.REL_ALERT_CAUSE.adr, 0, 1⟩
def R.REL_ALERT_CAUSE.TIME : Field := ⟨R.REL_ALERT_CAUSE.adr, 1, 1⟩
def R.REL_ALERT_CAUSE.LINK : Field := ⟨R.REL_ALERT_CAUSE.adr, 2, 1⟩
def R.REL_ALERT_CAUSE.OPTICS : Field := ⟨R.REL_ALERT_CAUSE.adr, 3, 1⟩
def R.REL_ALERT_CAUSE.LADLE : Field := ⟨R.REL_ALERT_CAUSE.adr, 4, 1⟩
def R.REL_ALERT_CAUSE.POISON : Field := ⟨R.REL_ALERT_CAUSE.adr, 5, 1⟩
def R.REL_ALERT_CAUSE.FIREBREAK : Field := ⟨R.REL_ALERT_CAUSE.adr, 6, 1⟩
def R.REL_ALERT_CAUSE.PEER : Field := ⟨R.REL_ALERT_CAUSE.adr, 7, 1⟩
def R.REL_ALERT_CAUSE.TRAY : Field := ⟨R.REL_ALERT_CAUSE.adr, 8, 1⟩
def R.REL_ALERT_CAUSE.CONTROL : Field := ⟨R.REL_ALERT_CAUSE.adr, 9, 1⟩
def R.REL_ALERT_CAUSE.LOG : Field := ⟨R.REL_ALERT_CAUSE.adr, 10, 1⟩

/-- REL_ALERT_MASK (chapter 15): its offset. -/
def R.REL_ALERT_MASK.adr : Nat := 0xc00010
def R.REL_ALERT_MASK.MASK : Field := ⟨R.REL_ALERT_MASK.adr, 0, 11⟩

/-- REL_ALERT_VEC[n] (chapter 15): its offset. -/
def R.REL_ALERT_VEC.adr (n : Nat) : Nat := 0xc00018 + 0x8 * n
def R.REL_ALERT_VEC.VECTOR (n : Nat) : Field := ⟨R.REL_ALERT_VEC.adr n, 0, 11⟩
def R.REL_ALERT_VEC.EN (n : Nat) : Field := ⟨R.REL_ALERT_VEC.adr n, 11, 1⟩

/-- REL_EVENTS (chapter 15): its offset. -/
def R.REL_EVENTS.adr : Nat := 0xc00038
def R.REL_EVENTS.CONTROL_CHECK : Field := ⟨R.REL_EVENTS.adr, 0, 1⟩
def R.REL_EVENTS.IDDAUM_RESTART : Field := ⟨R.REL_EVENTS.adr, 1, 1⟩
def R.REL_EVENTS.SRAM_UE : Field := ⟨R.REL_EVENTS.adr, 2, 1⟩
def R.REL_EVENTS.HBM_UE : Field := ⟨R.REL_EVENTS.adr, 3, 1⟩
def R.REL_EVENTS.KILL : Field := ⟨R.REL_EVENTS.adr, 4, 1⟩
def R.REL_EVENTS.PEER_LOST : Field := ⟨R.REL_EVENTS.adr, 5, 1⟩
def R.REL_EVENTS.TRAY_DRAIN : Field := ⟨R.REL_EVENTS.adr, 6, 1⟩

/-- REL_COUNTS (chapter 15): its offset. -/
def R.REL_COUNTS.adr : Nat := 0xc00040
def R.REL_COUNTS.HBM_CE : Field := ⟨R.REL_COUNTS.adr, 0, 32⟩
def R.REL_COUNTS.HBM_UE : Field := ⟨R.REL_COUNTS.adr, 32, 16⟩
def R.REL_COUNTS.SRAM_UE : Field := ⟨R.REL_COUNTS.adr, 48, 16⟩

/-- REL_SCRUB (chapter 15): its offset. -/
def R.REL_SCRUB.adr : Nat := 0xc00048
def R.REL_SCRUB.PERIOD_H : Field := ⟨R.REL_SCRUB.adr, 0, 8⟩

/-- REL_DOMAIN (chapter 15): its offset. -/
def R.REL_DOMAIN.adr : Nat := 0xc00050
def R.REL_DOMAIN.TRAY : Field := ⟨R.REL_DOMAIN.adr, 0, 16⟩
def R.REL_DOMAIN.RPG : Field := ⟨R.REL_DOMAIN.adr, 16, 16⟩

/-- REL_TRAY (chapter 15): its offset. -/
def R.REL_TRAY.adr : Nat := 0xc00058
def R.REL_TRAY.EN : Field := ⟨R.REL_TRAY.adr, 0, 1⟩
def R.REL_TRAY.STATE : Field := ⟨R.REL_TRAY.adr, 1, 2⟩
def R.REL_TRAY.DRAIN_TICKS : Field := ⟨R.REL_TRAY.adr, 3, 19⟩

/-- REL_LOG_IDX[k] (chapter 15): its offset. -/
def R.REL_LOG_IDX.adr (k : Nat) : Nat := 0xc00060 + 0x8 * k
def R.REL_LOG_IDX.PROD (k : Nat) : Field := ⟨R.REL_LOG_IDX.adr k, 0, 19⟩
def R.REL_LOG_IDX.CONS (k : Nat) : Field := ⟨R.REL_LOG_IDX.adr k, 19, 19⟩
def R.REL_LOG_IDX.OVERWRITTEN (k : Nat) : Field := ⟨R.REL_LOG_IDX.adr k, 38, 26⟩

/-- REL_LOG_ACC_CMD (chapter 15): its offset. -/
def R.REL_LOG_ACC_CMD.adr : Nat := 0xc00070
def R.REL_LOG_ACC_CMD.LOG : Field := ⟨R.REL_LOG_ACC_CMD.adr, 0, 1⟩
def R.REL_LOG_ACC_CMD.INDEX : Field := ⟨R.REL_LOG_ACC_CMD.adr, 1, 18⟩
def R.REL_LOG_ACC_CMD.READ : Field := ⟨R.REL_LOG_ACC_CMD.adr, 19, 1⟩
def R.REL_LOG_ACC_CMD.BUSY : Field := ⟨R.REL_LOG_ACC_CMD.adr, 20, 1⟩

/-- REL_LOG_ACC_DATA[k] (chapter 15): its offset. -/
def R.REL_LOG_ACC_DATA.adr (k : Nat) : Nat := 0xc00078 + 0x8 * k
def R.REL_LOG_ACC_DATA.DATA (k : Nat) : Field := ⟨R.REL_LOG_ACC_DATA.adr k, 0, 64⟩

/-- REL_FB_STATUS (chapter 15): its offset. -/
def R.REL_FB_STATUS.adr : Nat := 0xc000a0
def R.REL_FB_STATUS.CONSUMED : Field := ⟨R.REL_FB_STATUS.adr, 0, 32⟩
def R.REL_FB_STATUS.KILLS : Field := ⟨R.REL_FB_STATUS.adr, 32, 16⟩

/-- REL_FB_CFG[p] (chapter 15): its offset. -/
def R.REL_FB_CFG.adr (p : Nat) : Nat := 0xc00100 + 0x8 * p
def R.REL_FB_CFG.KILL (p : Nat) : Field := ⟨R.REL_FB_CFG.adr p, 0, 1⟩
def R.REL_FB_CFG.HOST_KILL (p : Nat) : Field := ⟨R.REL_FB_CFG.adr p, 1, 1⟩

/-- GLB_ALERT_CAUSE (chapter 15): its offset. -/
def R.GLB_ALERT_CAUSE.adr : Nat := 0x200
def R.GLB_ALERT_CAUSE.CAUSE : Field := ⟨R.GLB_ALERT_CAUSE.adr, 0, 64⟩

/-- GLB_ID (chapter 16): its offset. -/
def R.GLB_ID.adr : Nat := 0x0
def R.GLB_ID.SERIAL : Field := ⟨R.GLB_ID.adr, 0, 64⟩

/-- GLB_FEID (chapter 16): its offset. -/
def R.GLB_FEID.adr : Nat := 0x8
def R.GLB_FEID.FEID : Field := ⟨R.GLB_FEID.adr, 0, 16⟩
def R.GLB_FEID.STEPPING : Field := ⟨R.GLB_FEID.adr, 16, 8⟩

/-- GLB_POWER_STATUS (chapter 16): its offset. -/
def R.GLB_POWER_STATUS.adr : Nat := 0x300
def R.GLB_POWER_STATUS.LEVEL : Field := ⟨R.GLB_POWER_STATUS.adr, 0, 3⟩
def R.GLB_POWER_STATUS.TARGET : Field := ⟨R.GLB_POWER_STATUS.adr, 3, 3⟩
def R.GLB_POWER_STATUS.EMERG : Field := ⟨R.GLB_POWER_STATUS.adr, 6, 1⟩
def R.GLB_POWER_STATUS.HOT : Field := ⟨R.GLB_POWER_STATUS.adr, 7, 1⟩
def R.GLB_POWER_STATUS.INPUT_W : Field := ⟨R.GLB_POWER_STATUS.adr, 8, 11⟩
def R.GLB_POWER_STATUS.VIN : Field := ⟨R.GLB_POWER_STATUS.adr, 19, 11⟩
def R.GLB_POWER_STATUS.IIN : Field := ⟨R.GLB_POWER_STATUS.adr, 30, 9⟩

/-- GLB_CRUISE_STATUS (chapter 16): its offset. -/
def R.GLB_CRUISE_STATUS.adr : Nat := 0x308
def R.GLB_CRUISE_STATUS.PHASE : Field := ⟨R.GLB_CRUISE_STATUS.adr, 0, 4⟩
def R.GLB_CRUISE_STATUS.LATE : Field := ⟨R.GLB_CRUISE_STATUS.adr, 4, 9⟩
def R.GLB_CRUISE_STATUS.FABRIC_READY : Field := ⟨R.GLB_CRUISE_STATUS.adr, 13, 1⟩
def R.GLB_CRUISE_STATUS.MAP_CHANGED : Field := ⟨R.GLB_CRUISE_STATUS.adr, 14, 1⟩
def R.GLB_CRUISE_STATUS.LINKS_FULL : Field := ⟨R.GLB_CRUISE_STATUS.adr, 15, 1⟩
def R.GLB_CRUISE_STATUS.MODULES : Field := ⟨R.GLB_CRUISE_STATUS.adr, 16, 13⟩
def R.GLB_CRUISE_STATUS.DIAMETER : Field := ⟨R.GLB_CRUISE_STATUS.adr, 29, 8⟩

/-- GLB_RESET_STATUS (chapter 16): its offset. -/
def R.GLB_RESET_STATUS.adr : Nat := 0x310
def R.GLB_RESET_STATUS.LAST : Field := ⟨R.GLB_RESET_STATUS.adr, 0, 3⟩
def R.GLB_RESET_STATUS.WARMS : Field := ⟨R.GLB_RESET_STATUS.adr, 3, 16⟩

/-- GLB_POWER_CAP (chapter 16): its offset. -/
def R.GLB_POWER_CAP.adr : Nat := 0x5000
def R.GLB_POWER_CAP.CAP : Field := ⟨R.GLB_POWER_CAP.adr, 0, 11⟩

/-- GLB_POWER_CTL (chapter 16): its offset. -/
def R.GLB_POWER_CTL.adr : Nat := 0x5008
def R.GLB_POWER_CTL.MIN_LEVEL : Field := ⟨R.GLB_POWER_CTL.adr, 0, 3⟩
def R.GLB_POWER_CTL.UP_TICKS : Field := ⟨R.GLB_POWER_CTL.adr, 3, 16⟩

/-- GLB_POWER_EVENTS (chapter 16): its offset. -/
def R.GLB_POWER_EVENTS.adr : Nat := 0x5010
def R.GLB_POWER_EVENTS.CAP_FAST : Field := ⟨R.GLB_POWER_EVENTS.adr, 0, 1⟩
def R.GLB_POWER_EVENTS.EMERGENCY : Field := ⟨R.GLB_POWER_EVENTS.adr, 1, 1⟩
def R.GLB_POWER_EVENTS.CAP_UNMET : Field := ⟨R.GLB_POWER_EVENTS.adr, 2, 1⟩
def R.GLB_POWER_EVENTS.UV : Field := ⟨R.GLB_POWER_EVENTS.adr, 3, 1⟩
def R.GLB_POWER_EVENTS.OV : Field := ⟨R.GLB_POWER_EVENTS.adr, 4, 1⟩
def R.GLB_POWER_EVENTS.HOT : Field := ⟨R.GLB_POWER_EVENTS.adr, 5, 1⟩

/-- GLB_RESET_CMD (chapter 16): its offset. -/
def R.GLB_RESET_CMD.adr : Nat := 0x5100
def R.GLB_RESET_CMD.LEVEL : Field := ⟨R.GLB_RESET_CMD.adr, 0, 2⟩
def R.GLB_RESET_CMD.SKIDDER : Field := ⟨R.GLB_RESET_CMD.adr, 2, 7⟩
def R.GLB_RESET_CMD.KEY : Field := ⟨R.GLB_RESET_CMD.adr, 16, 16⟩

/-- GLB_CRUISE_CTL (chapter 16): its offset. -/
def R.GLB_CRUISE_CTL.adr : Nat := 0x5200
def R.GLB_CRUISE_CTL.TOPO : Field := ⟨R.GLB_CRUISE_CTL.adr, 0, 1⟩
def R.GLB_CRUISE_CTL.AUTOROUTE : Field := ⟨R.GLB_CRUISE_CTL.adr, 1, 1⟩
def R.GLB_CRUISE_CTL.DIMX : Field := ⟨R.GLB_CRUISE_CTL.adr, 8, 13⟩
def R.GLB_CRUISE_CTL.DIMY : Field := ⟨R.GLB_CRUISE_CTL.adr, 21, 13⟩
def R.GLB_CRUISE_CTL.DIMZ : Field := ⟨R.GLB_CRUISE_CTL.adr, 34, 13⟩

/-- MGT_SET_STATUS (chapter 16): its offset. -/
def R.MGT_SET_STATUS.adr : Nat := 0x100000
def R.MGT_SET_STATUS.ACTIVE : Field := ⟨R.MGT_SET_STATUS.adr, 0, 1⟩
def R.MGT_SET_STATUS.VALID0 : Field := ⟨R.MGT_SET_STATUS.adr, 1, 1⟩
def R.MGT_SET_STATUS.VALID1 : Field := ⟨R.MGT_SET_STATUS.adr, 2, 1⟩
def R.MGT_SET_STATUS.NONE : Field := ⟨R.MGT_SET_STATUS.adr, 3, 1⟩
def R.MGT_SET_STATUS.BUSY : Field := ⟨R.MGT_SET_STATUS.adr, 4, 1⟩
def R.MGT_SET_STATUS.DONE : Field := ⟨R.MGT_SET_STATUS.adr, 5, 1⟩
def R.MGT_SET_STATUS.RESULT : Field := ⟨R.MGT_SET_STATUS.adr, 6, 4⟩
def R.MGT_SET_STATUS.IGNORED : Field := ⟨R.MGT_SET_STATUS.adr, 16, 16⟩
def R.MGT_SET_STATUS.DEFAULTED : Field := ⟨R.MGT_SET_STATUS.adr, 32, 16⟩

/-- MGT_SET_SEQ (chapter 16): its offset. -/
def R.MGT_SET_SEQ.adr : Nat := 0x100008
def R.MGT_SET_SEQ.SEQ0 : Field := ⟨R.MGT_SET_SEQ.adr, 0, 32⟩
def R.MGT_SET_SEQ.SEQ1 : Field := ⟨R.MGT_SET_SEQ.adr, 32, 32⟩

/-- MGT_SET_CMD (chapter 16): its offset. -/
def R.MGT_SET_CMD.adr : Nat := 0x100010
def R.MGT_SET_CMD.OP : Field := ⟨R.MGT_SET_CMD.adr, 0, 2⟩
def R.MGT_SET_CMD.SRC : Field := ⟨R.MGT_SET_CMD.adr, 8, 46⟩
def R.MGT_SET_CMD.GO : Field := ⟨R.MGT_SET_CMD.adr, 54, 1⟩

/-- MGT_FW_CMD (chapter 16): its offset. -/
def R.MGT_FW_CMD.adr : Nat := 0x100018
def R.MGT_FW_CMD.SWAP : Field := ⟨R.MGT_FW_CMD.adr, 0, 1⟩
def R.MGT_FW_CMD.BUSY : Field := ⟨R.MGT_FW_CMD.adr, 1, 1⟩
def R.MGT_FW_CMD.DONE : Field := ⟨R.MGT_FW_CMD.adr, 2, 1⟩
def R.MGT_FW_CMD.RESULT : Field := ⟨R.MGT_FW_CMD.adr, 3, 4⟩

/-- MGT_SENSE (chapter 16): its offset. -/
def R.MGT_SENSE.adr : Nat := 0x100020
def R.MGT_SENSE.TDIE : Field := ⟨R.MGT_SENSE.adr, 0, 8⟩
def R.MGT_SENSE.THBM : Field := ⟨R.MGT_SENSE.adr, 8, 8⟩
def R.MGT_SENSE.TLASER : Field := ⟨R.MGT_SENSE.adr, 16, 8⟩
def R.MGT_SENSE.RAIL_W : Field := ⟨R.MGT_SENSE.adr, 24, 16⟩

/-- TEL_SNAP_CTL (chapter 17): its offset. -/
def R.TEL_SNAP_CTL.adr : Nat := 0xe00000
def R.TEL_SNAP_CTL.EN : Field := ⟨R.TEL_SNAP_CTL.adr, 0, 1⟩
def R.TEL_SNAP_CTL.LOG2_INT : Field := ⟨R.TEL_SNAP_CTL.adr, 1, 5⟩

/-- TEL_SNAP_CMD (chapter 17): its offset. -/
def R.TEL_SNAP_CMD.adr : Nat := 0xe00008
def R.TEL_SNAP_CMD.GO : Field := ⟨R.TEL_SNAP_CMD.adr, 0, 1⟩

/-- TEL_SNAP_STATUS (chapter 17): its offset. -/
def R.TEL_SNAP_STATUS.adr : Nat := 0xe00010
def R.TEL_SNAP_STATUS.SEQ : Field := ⟨R.TEL_SNAP_STATUS.adr, 0, 32⟩
def R.TEL_SNAP_STATUS.SLOT : Field := ⟨R.TEL_SNAP_STATUS.adr, 32, 12⟩
def R.TEL_SNAP_STATUS.VALID : Field := ⟨R.TEL_SNAP_STATUS.adr, 44, 1⟩

/-- TEL_TRACE_SPLIT (chapter 17): its offset. -/
def R.TEL_TRACE_SPLIT.adr : Nat := 0xe00018
def R.TEL_TRACE_SPLIT.HIST_UNITS : Field := ⟨R.TEL_TRACE_SPLIT.adr, 0, 7⟩

/-- TEL_TRACE_CTL (chapter 17): its offset. -/
def R.TEL_TRACE_CTL.adr : Nat := 0xe00020
def R.TEL_TRACE_CTL.RUN : Field := ⟨R.TEL_TRACE_CTL.adr, 0, 1⟩
def R.TEL_TRACE_CTL.MODE : Field := ⟨R.TEL_TRACE_CTL.adr, 1, 1⟩
def R.TEL_TRACE_CTL.ARM : Field := ⟨R.TEL_TRACE_CTL.adr, 2, 1⟩
def R.TEL_TRACE_CTL.PAYLOAD : Field := ⟨R.TEL_TRACE_CTL.adr, 3, 1⟩
def R.TEL_TRACE_CTL.SEALED_CAP : Field := ⟨R.TEL_TRACE_CTL.adr, 4, 1⟩
def R.TEL_TRACE_CTL.DIR : Field := ⟨R.TEL_TRACE_CTL.adr, 5, 1⟩
def R.TEL_TRACE_CTL.POINT : Field := ⟨R.TEL_TRACE_CTL.adr, 6, 10⟩
def R.TEL_TRACE_CTL.START : Field := ⟨R.TEL_TRACE_CTL.adr, 32, 16⟩

/-- TEL_TRACE_FILT0 (chapter 17): its offset. -/
def R.TEL_TRACE_FILT0.adr : Nat := 0xe00028
def R.TEL_TRACE_FILT0.DST : Field := ⟨R.TEL_TRACE_FILT0.adr, 0, 16⟩
def R.TEL_TRACE_FILT0.DST_MASK : Field := ⟨R.TEL_TRACE_FILT0.adr, 16, 16⟩
def R.TEL_TRACE_FILT0.SRC : Field := ⟨R.TEL_TRACE_FILT0.adr, 32, 16⟩
def R.TEL_TRACE_FILT0.SRC_MASK : Field := ⟨R.TEL_TRACE_FILT0.adr, 48, 16⟩

/-- TEL_TRACE_FILT1 (chapter 17): its offset. -/
def R.TEL_TRACE_FILT1.adr : Nat := 0xe00030
def R.TEL_TRACE_FILT1.OPCODE : Field := ⟨R.TEL_TRACE_FILT1.adr, 0, 8⟩
def R.TEL_TRACE_FILT1.OPC_MASK : Field := ⟨R.TEL_TRACE_FILT1.adr, 8, 8⟩
def R.TEL_TRACE_FILT1.PART : Field := ⟨R.TEL_TRACE_FILT1.adr, 16, 6⟩
def R.TEL_TRACE_FILT1.PART_EN : Field := ⟨R.TEL_TRACE_FILT1.adr, 22, 1⟩
def R.TEL_TRACE_FILT1.VC_MASK : Field := ⟨R.TEL_TRACE_FILT1.adr, 23, 8⟩

/-- TEL_TRACE_STATUS (chapter 17): its offset. -/
def R.TEL_TRACE_STATUS.adr : Nat := 0xe00038
def R.TEL_TRACE_STATUS.WRITTEN : Field := ⟨R.TEL_TRACE_STATUS.adr, 0, 32⟩
def R.TEL_TRACE_STATUS.GAPS : Field := ⟨R.TEL_TRACE_STATUS.adr, 32, 16⟩
def R.TEL_TRACE_STATUS.RUNNING : Field := ⟨R.TEL_TRACE_STATUS.adr, 48, 1⟩

/-- TEL_DBG_ADDR (chapter 17): its offset. -/
def R.TEL_DBG_ADDR.adr : Nat := 0xe00040
def R.TEL_DBG_ADDR.LINE : Field := ⟨R.TEL_DBG_ADDR.adr, 6, 46⟩

/-- TEL_DBG_CMD (chapter 17): its offset. -/
def R.TEL_DBG_CMD.adr : Nat := 0xe00048
def R.TEL_DBG_CMD.OP : Field := ⟨R.TEL_DBG_CMD.adr, 0, 2⟩
def R.TEL_DBG_CMD.BUSY : Field := ⟨R.TEL_DBG_CMD.adr, 2, 1⟩
def R.TEL_DBG_CMD.RESULT : Field := ⟨R.TEL_DBG_CMD.adr, 3, 4⟩

/-- TEL_EVENTS (chapter 17): its offset. -/
def R.TEL_EVENTS.adr : Nat := 0xe00050
def R.TEL_EVENTS.CFG_BUSY : Field := ⟨R.TEL_EVENTS.adr, 0, 1⟩
def R.TEL_EVENTS.TRACE_FULL : Field := ⟨R.TEL_EVENTS.adr, 1, 1⟩
def R.TEL_EVENTS.TRACE_GAP : Field := ⟨R.TEL_EVENTS.adr, 2, 1⟩
def R.TEL_EVENTS.SEALED_ZERO : Field := ⟨R.TEL_EVENTS.adr, 3, 1⟩

/-- Registers of block GLB, part 0. -/
def regsGLB0 : List RegSpec := [
  ⟨0x100, [], [⟨0, 64, .ro, 0, false, 0, []⟩]⟩,
  ⟨0x108, [], [⟨0, 3, .ro, 0, false, 0, []⟩, ⟨3, 1, .ro, 0, false, 0, []⟩, ⟨4, 1, .ro, 0, false, 0, []⟩, ⟨5, 1, .ro, 0, false, 0, []⟩, ⟨6, 1, .ro, 0, false, 0, []⟩, ⟨16, 16, .ro, 65535, false, 0, []⟩, ⟨32, 8, .ro, 255, false, 0, []⟩, ⟨40, 8, .ro, 255, false, 0, []⟩, ⟨48, 16, .ro, 0, false, 0, []⟩]⟩,
  ⟨0x4000, [], [⟨0, 1, .rw, 0, false, 0, []⟩, ⟨1, 1, .rw, 1, false, 0, []⟩, ⟨4, 4, .rw, 4, false, 0, [(1, 15)]⟩]⟩,
  ⟨0x4008, [], [⟨0, 1, .rw, 0, true, 0, []⟩, ⟨1, 1, .rw, 0, true, 0, []⟩, ⟨2, 6, .rw, 0, true, 60, [(1, 60)]⟩, ⟨8, 6, .rw, 0, true, 0, []⟩, ⟨14, 16, .rw, 0, true, 0, []⟩]⟩,
  ⟨0x4010, [], [⟨0, 16, .rw, 0, true, 0, []⟩]⟩,
  ⟨0x4020, [], [⟨0, 1, .w1c, 0, false, 0, []⟩, ⟨1, 1, .w1c, 0, false, 0, []⟩, ⟨2, 1, .w1c, 0, false, 0, []⟩, ⟨3, 1, .w1c, 0, false, 0, []⟩, ⟨4, 1, .w1c, 0, false, 0, []⟩, ⟨5, 1, .w1c, 0, false, 0, []⟩, ⟨6, 1, .w1c, 0, false, 0, []⟩, ⟨7, 1, .w1c, 0, false, 0, []⟩, ⟨8, 1, .w1c, 0, false, 0, []⟩]⟩,
  ⟨0x4100, [(6, 8)], [⟨0, 16, .rw, 0, true, 0, []⟩]⟩,
  ⟨0x4140, [(16, 8)], [⟨0, 16, .rw, 0, true, 0, []⟩]⟩,
  ⟨0x200, [], [⟨0, 64, .ro, 0, false, 0, []⟩]⟩,
  ⟨0x0, [], [⟨0, 64, .ro, 0, false, 0, []⟩]⟩,
  ⟨0x8, [], [⟨0, 16, .ro, 0, true, 0, [(0, 4095)]⟩, ⟨16, 8, .ro, 0, false, 0, []⟩]⟩,
  ⟨0x300, [], [⟨0, 3, .ro, 0, false, 0, []⟩, ⟨3, 3, .ro, 0, false, 0, []⟩, ⟨6, 1, .ro, 0, false, 0, []⟩, ⟨7, 1, .ro, 0, false, 0, []⟩, ⟨8, 11, .ro, 0, false, 0, []⟩, ⟨19, 11, .ro, 0, false, 0, []⟩, ⟨30, 9, .ro, 0, false, 0, []⟩]⟩]

/-- Registers of block GLB, part 1. -/
def regsGLB1 : List RegSpec := [
  ⟨0x308, [], [⟨0, 4, .ro, 0, false, 0, []⟩, ⟨4, 9, .ro, 0, false, 0, []⟩, ⟨13, 1, .ro, 0, false, 0, []⟩, ⟨14, 1, .w1c, 0, false, 0, []⟩, ⟨15, 1, .ro, 0, false, 0, []⟩, ⟨16, 13, .ro, 0, false, 0, []⟩, ⟨29, 8, .ro, 0, false, 0, []⟩]⟩,
  ⟨0x310, [], [⟨0, 3, .ro, 0, false, 0, []⟩, ⟨3, 16, .ro, 0, false, 0, []⟩]⟩,
  ⟨0x5000, [], [⟨0, 11, .rw, 0, true, 300, [(300, 2047)]⟩]⟩,
  ⟨0x5008, [], [⟨0, 3, .rw, 0, true, 0, []⟩, ⟨3, 16, .rw, 0, true, 1, [(1, 65535)]⟩]⟩,
  ⟨0x5010, [], [⟨0, 1, .w1c, 0, false, 0, []⟩, ⟨1, 1, .w1c, 0, false, 0, []⟩, ⟨2, 1, .w1c, 0, false, 0, []⟩, ⟨3, 1, .w1c, 0, false, 0, []⟩, ⟨4, 1, .w1c, 0, false, 0, []⟩, ⟨5, 1, .w1c, 0, false, 0, []⟩]⟩,
  ⟨0x5100, [], [⟨0, 2, .wo, 0, false, 0, []⟩, ⟨2, 7, .wo, 0, false, 0, []⟩, ⟨16, 16, .wo, 0, false, 0, []⟩]⟩,
  ⟨0x5200, [], [⟨0, 1, .rw, 0, true, 0, []⟩, ⟨1, 1, .rw, 0, true, 0, []⟩, ⟨8, 13, .rw, 0, true, 1, [(1, 4096)]⟩, ⟨21, 13, .rw, 0, true, 1, [(1, 4096)]⟩, ⟨34, 13, .rw, 0, true, 1, [(1, 4096)]⟩]⟩]

/-- The registers of block GLB. -/
def regsGLB : List RegSpec := regsGLB0 ++ regsGLB1

/-- Registers of block SEQ, part 0. -/
def regsSEQ0 : List RegSpec := [
  ⟨0x300000, [(512, 8)], [⟨0, 6, .rw, 0, false, 0, []⟩, ⟨8, 7, .rw, 0, false, 0, []⟩, ⟨16, 1, .rw, 0, false, 0, []⟩, ⟨17, 1, .rw, 0, false, 0, []⟩]⟩,
  ⟨0x301000, [(512, 8)], [⟨3, 54, .rw, 0, false, 0, []⟩]⟩,
  ⟨0x302000, [(512, 8)], [⟨3, 54, .rw, 0, false, 0, []⟩]⟩,
  ⟨0x303000, [(512, 8)], [⟨0, 3, .ro, 0, false, 0, []⟩, ⟨3, 1, .ro, 0, false, 0, []⟩, ⟨4, 1, .ro, 0, false, 0, []⟩, ⟨8, 4, .ro, 0, false, 0, []⟩, ⟨12, 5, .ro, 0, false, 0, []⟩, ⟨20, 12, .ro, 0, false, 0, []⟩, ⟨32, 8, .ro, 0, false, 0, []⟩]⟩,
  ⟨0x304000, [(512, 8)], [⟨0, 3, .wo, 0, false, 0, []⟩]⟩,
  ⟨0x305000, [(128, 8)], [⟨0, 6, .rw, 0, false, 0, []⟩, ⟨8, 1, .rw, 0, false, 0, []⟩]⟩,
  ⟨0x308000, [(4096, 8)], [⟨0, 3, .rw, 0, false, 0, [(0, 4)]⟩, ⟨6, 46, .rw, 0, false, 0, []⟩]⟩,
  ⟨0x310000, [(4096, 8)], [⟨0, 1, .rw, 0, false, 0, []⟩, ⟨1, 1, .rw, 0, false, 0, []⟩, ⟨2, 6, .rw, 0, false, 0, []⟩]⟩,
  ⟨0x318000, [], [⟨0, 6, .wo, 0, false, 0, []⟩, ⟨8, 1, .wo, 0, false, 0, []⟩]⟩,
  ⟨0x318008, [], [⟨0, 1, .w1c, 0, false, 0, []⟩, ⟨1, 1, .w1c, 0, false, 0, []⟩, ⟨2, 1, .w1c, 0, false, 0, []⟩, ⟨3, 1, .w1c, 0, false, 0, []⟩]⟩,
  ⟨0x319000, [(64, 8)], [⟨0, 5, .rw, 14, false, 0, [(10, 20)]⟩]⟩]

/-- The registers of block SEQ. -/
def regsSEQ : List RegSpec := regsSEQ0

/-- Registers of block PRT, part 0. -/
def regsPRT0 : List RegSpec := [
  ⟨0x200000, [(64, 16384)], [⟨0, 10, .ro, 0, false, 0, []⟩, ⟨10, 1, .ro, 0, false, 0, []⟩, ⟨11, 1, .ro, 0, false, 0, []⟩, ⟨16, 10, .ro, 0, false, 0, []⟩, ⟨32, 1, .w1c, 0, false, 0, []⟩, ⟨33, 1, .w1c, 0, false, 0, []⟩]⟩,
  ⟨0x200008, [(64, 16384)], [⟨0, 9, .wo, 0, false, 0, []⟩, ⟨9, 3, .wo, 0, false, 0, []⟩]⟩,
  ⟨0x200010, [(64, 16384)], [⟨0, 4, .rw, 0, false, 0, [(4, 15)]⟩, ⟨6, 46, .rw, 0, false, 0, []⟩]⟩,
  ⟨0x200018, [(64, 16384)], [⟨0, 16, .ro, 0, false, 0, []⟩, ⟨16, 16, .rw, 0, false, 0, []⟩, ⟨32, 1, .rw, 0, false, 0, []⟩]⟩,
  ⟨0x200020, [(64, 16384)], [⟨0, 11, .rw, 0, false, 0, []⟩, ⟨12, 4, .rw, 0, false, 0, []⟩]⟩,
  ⟨0x201000, [(64, 16384), (512, 8)], [⟨0, 64, .ro, 0, false, 0, []⟩]⟩]

/-- The registers of block PRT. -/
def regsPRT : List RegSpec := regsPRT0

/-- Registers of block SWC, part 0. -/
def regsSWC0 : List RegSpec := [
  ⟨0x680000, [], [⟨0, 1, .rw, 0, true, 0, []⟩, ⟨1, 6, .rw, 0, true, 0, []⟩, ⟨7, 16, .rw, 0, true, 0, []⟩, ⟨24, 16, .rw, 0, true, 0, []⟩]⟩,
  ⟨0x680008, [(2, 8)], [⟨4, 3, .rw, 0, true, 0, []⟩, ⟨8, 3, .rw, 0, true, 0, []⟩, ⟨12, 3, .rw, 0, true, 0, []⟩, ⟨16, 3, .rw, 0, true, 0, []⟩, ⟨20, 3, .rw, 0, true, 0, []⟩, ⟨24, 3, .rw, 0, true, 0, []⟩, ⟨28, 3, .rw, 0, true, 0, []⟩, ⟨7, 1, .rw, 0, true, 0, []⟩, ⟨11, 1, .rw, 0, true, 0, []⟩, ⟨15, 1, .rw, 0, true, 0, []⟩, ⟨19, 1, .rw, 0, true, 0, []⟩, ⟨23, 1, .rw, 0, true, 0, []⟩, ⟨27, 1, .rw, 0, true, 0, []⟩, ⟨31, 1, .rw, 0, true, 0, []⟩]⟩,
  ⟨0x680018, [(2, 8)], [⟨0, 3, .rw, 0, true, 1, [(1, 7)]⟩, ⟨4, 3, .rw, 0, true, 1, [(1, 7)]⟩, ⟨8, 3, .rw, 0, true, 1, [(1, 7)]⟩, ⟨12, 3, .rw, 0, true, 1, [(1, 7)]⟩, ⟨16, 3, .rw, 0, true, 1, [(1, 7)]⟩, ⟨20, 3, .rw, 0, true, 1, [(1, 7)]⟩, ⟨24, 3, .rw, 0, true, 1, [(1, 7)]⟩, ⟨28, 3, .rw, 0, true, 1, [(1, 7)]⟩, ⟨3, 1, .rw, 0, true, 0, []⟩, ⟨7, 1, .rw, 0, true, 0, []⟩, ⟨11, 1, .rw, 0, true, 0, []⟩, ⟨15, 1, .rw, 0, true, 0, []⟩, ⟨19, 1, .rw, 0, true, 0, []⟩, ⟨23, 1, .rw, 0, true, 0, []⟩, ⟨27, 1, .rw, 0, true, 0, []⟩, ⟨31, 1, .rw, 0, true, 0, []⟩]⟩,
  ⟨0x680100, [(2, 512), (64, 8)], [⟨0, 10, .rw, 0, true, 0, []⟩, ⟨16, 6, .rw, 0, true, 0, []⟩, ⟨22, 10, .rw, 0, true, 0, []⟩, ⟨32, 1, .rw, 0, true, 0, []⟩]⟩,
  ⟨0x681000, [], [⟨0, 32, .ro, 0, true, 0, []⟩, ⟨32, 32, .ro, 0, true, 0, []⟩]⟩,
  ⟨0x681008, [], [⟨0, 32, .ro, 0, true, 0, []⟩]⟩,
  ⟨0x681010, [], [⟨0, 16, .rw, 0, true, 0, []⟩]⟩,
  ⟨0x681018, [], [⟨0, 32, .rc, 0, false, 0, []⟩, ⟨32, 13, .ro, 0, false, 0, []⟩, ⟨45, 12, .ro, 0, false, 0, []⟩]⟩,
  ⟨0x600000, [], [⟨0, 8, .rw, 48, false, 0, [(1, 255)]⟩, ⟨8, 16, .rw, 64, false, 0, [(16, 65535)]⟩]⟩,
  ⟨0x600008, [], [⟨0, 16, .rw, 256, false, 0, []⟩, ⟨16, 16, .rw, 1024, false, 0, [(108, 65535)]⟩]⟩,
  ⟨0x600010, [(2, 8)], [⟨0, 8, .rw, 4, false, 0, [(4, 255)]⟩, ⟨8, 8, .rw, 4, false, 0, [(4, 255)]⟩, ⟨16, 8, .rw, 4, false, 0, [(4, 255)]⟩, ⟨24, 8, .rw, 4, false, 0, [(4, 255)]⟩, ⟨32, 8, .rw, 4, false, 0, [(4, 255)]⟩, ⟨40, 8, .rw, 4, false, 0, [(4, 255)]⟩, ⟨48, 8, .rw, 4, false, 0, [(4, 255)]⟩, ⟨56, 8, .rw, 4, false, 0, [(4, 255)]⟩]⟩,
  ⟨0x600020, [], [⟨0, 8, .rw, 96, false, 0, [(1, 255)]⟩, ⟨8, 8, .rw, 96, false, 0, [(1, 255)]⟩, ⟨16, 8, .rw, 96, false, 0, [(1, 255)]⟩, ⟨24, 8, .rw, 96, false, 0, [(1, 255)]⟩, ⟨32, 8, .rw, 96, false, 0, [(1, 255)]⟩, ⟨40, 8, .rw, 96, false, 0, [(1, 255)]⟩, ⟨48, 8, .rw, 96, false, 0, [(1, 255)]⟩, ⟨56, 8, .rw, 96, false, 0, [(1, 255)]⟩]⟩]

/-- Registers of block SWC, part 1. -/
def regsSWC1 : List RegSpec := [
  ⟨0x600028, [], [⟨0, 8, .rw, 192, false, 0, [(1, 255)]⟩, ⟨8, 8, .rw, 192, false, 0, [(1, 255)]⟩, ⟨16, 8, .rw, 192, false, 0, [(1, 255)]⟩, ⟨24, 8, .rw, 192, false, 0, [(1, 255)]⟩, ⟨32, 8, .rw, 192, false, 0, [(1, 255)]⟩, ⟨40, 8, .rw, 192, false, 0, [(1, 255)]⟩, ⟨48, 8, .rw, 192, false, 0, [(1, 255)]⟩, ⟨56, 8, .rw, 192, false, 0, [(1, 255)]⟩]⟩,
  ⟨0x600030, [], [⟨0, 16, .rc, 0, false, 0, []⟩, ⟨16, 16, .rc, 0, false, 0, []⟩, ⟨32, 16, .rc, 0, false, 0, []⟩, ⟨48, 16, .rc, 0, false, 0, []⟩]⟩,
  ⟨0x600038, [], [⟨0, 1, .w1c, 0, false, 0, []⟩, ⟨1, 1, .w1c, 0, false, 0, []⟩, ⟨2, 1, .w1c, 0, false, 0, []⟩, ⟨3, 1, .w1c, 0, false, 0, []⟩, ⟨4, 1, .w1c, 0, false, 0, []⟩, ⟨5, 1, .w1c, 0, false, 0, []⟩, ⟨6, 1, .w1c, 0, false, 0, []⟩, ⟨7, 1, .w1c, 0, false, 0, []⟩]⟩,
  ⟨0x600100, [(32, 8)], [⟨0, 16, .rw, 0, true, 0, []⟩, ⟨16, 1, .rw, 0, true, 0, []⟩]⟩,
  ⟨0x600200, [(32, 8)], [⟨0, 6, .rw, 0, true, 0, []⟩, ⟨6, 6, .rw, 0, true, 0, []⟩, ⟨12, 6, .rw, 0, true, 0, []⟩, ⟨18, 6, .rw, 0, true, 0, []⟩, ⟨24, 6, .rw, 0, true, 0, []⟩, ⟨30, 6, .rw, 0, true, 0, []⟩, ⟨36, 6, .rw, 0, true, 0, []⟩]⟩,
  ⟨0x600300, [(32, 8)], [⟨0, 1, .ro, 0, false, 0, []⟩, ⟨1, 9, .ro, 0, false, 0, []⟩, ⟨10, 1, .ro, 0, false, 0, []⟩]⟩,
  ⟨0x601000, [(262, 8)], [⟨0, 3, .ro, 0, false, 0, []⟩, ⟨3, 5, .ro, 0, false, 0, []⟩, ⟨8, 1, .ro, 0, false, 0, []⟩, ⟨9, 16, .ro, 65535, false, 0, []⟩, ⟨25, 12, .ro, 0, false, 0, []⟩, ⟨37, 12, .ro, 0, false, 0, []⟩, ⟨49, 12, .ro, 0, false, 0, []⟩]⟩,
  ⟨0x610000, [(262, 64)], [⟨0, 64, .ro, 0, false, 0, []⟩]⟩,
  ⟨0x610008, [(262, 64)], [⟨0, 64, .ro, 0, false, 0, []⟩]⟩,
  ⟨0x610010, [(262, 64)], [⟨0, 64, .ro, 0, false, 0, []⟩]⟩,
  ⟨0x610018, [(262, 64)], [⟨0, 64, .ro, 0, false, 0, []⟩]⟩,
  ⟨0x610020, [(262, 64)], [⟨0, 32, .ro, 0, false, 0, []⟩, ⟨32, 32, .ro, 0, false, 0, []⟩]⟩]

/-- Registers of block SWC, part 2. -/
def regsSWC2 : List RegSpec := [
  ⟨0x610028, [(262, 64)], [⟨0, 16, .ro, 0, false, 0, []⟩, ⟨16, 16, .ro, 0, false, 0, []⟩, ⟨32, 16, .ro, 0, false, 0, []⟩, ⟨48, 16, .ro, 0, false, 0, []⟩]⟩,
  ⟨0x610030, [(262, 64)], [⟨0, 32, .ro, 0, false, 0, []⟩, ⟨32, 32, .ro, 0, false, 0, []⟩]⟩,
  ⟨0x610038, [(262, 64)], [⟨0, 64, .ro, 0, false, 0, []⟩]⟩,
  ⟨0x620000, [(32, 64), (8, 8)], [⟨0, 20, .ro, 0, false, 0, []⟩, ⟨20, 20, .rc, 0, false, 0, []⟩]⟩,
  ⟨0x620800, [(32, 64), (8, 8)], [⟨0, 64, .ro, 0, false, 0, []⟩]⟩]

/-- The registers of block SWC. -/
def regsSWC : List RegSpec := regsSWC0 ++ regsSWC1 ++ regsSWC2

/-- Registers of block XLT, part 0. -/
def regsXLT0 : List RegSpec := [
  ⟨0x400000, [(64, 8)], [⟨0, 1, .rw, 0, false, 0, []⟩, ⟨1, 3, .rw, 0, false, 0, [(2, 4)]⟩, ⟨13, 39, .rw, 0, false, 0, []⟩]⟩,
  ⟨0x400200, [], [⟨0, 16, .rw, 0, true, 16384, [(1, 65535)]⟩]⟩,
  ⟨0x400208, [], [⟨0, 6, .wo, 0, false, 0, []⟩, ⟨6, 1, .wo, 0, false, 0, []⟩, ⟨7, 1, .wo, 0, false, 0, []⟩, ⟨8, 1, .wo, 0, false, 0, []⟩]⟩,
  ⟨0x400210, [], [⟨0, 57, .rw, 0, false, 0, []⟩]⟩,
  ⟨0x400218, [], [⟨0, 1, .ro, 0, false, 0, []⟩, ⟨1, 1, .w1c, 0, false, 0, []⟩, ⟨2, 1, .w1c, 0, false, 0, []⟩, ⟨16, 16, .ro, 0, false, 0, []⟩]⟩,
  ⟨0x400220, [], [⟨0, 7, .wo, 0, false, 0, []⟩, ⟨7, 2, .wo, 0, false, 0, []⟩]⟩,
  ⟨0x400228, [], [⟨0, 1, .w1c, 0, false, 0, []⟩, ⟨1, 1, .w1c, 0, false, 0, []⟩]⟩]

/-- The registers of block XLT. -/
def regsXLT : List RegSpec := regsXLT0

/-- Registers of block SIV, part 0. -/
def regsSIV0 : List RegSpec := [
  ⟨0x500000, [(64, 8)], [⟨0, 1, .rw, 0, false, 0, []⟩, ⟨3, 22, .rw, 0, false, 0, []⟩, ⟨25, 5, .rw, 0, false, 0, [(0, 22)]⟩, ⟨30, 3, .rw, 0, false, 0, []⟩, ⟨33, 9, .rw, 0, false, 0, [(0, 256)]⟩]⟩,
  ⟨0x500200, [(64, 8)], [⟨0, 25, .ro, 0, false, 0, []⟩, ⟨25, 1, .ro, 0, false, 0, []⟩, ⟨26, 19, .ro, 0, false, 0, []⟩]⟩,
  ⟨0x500400, [], [⟨0, 24, .rw, 0, false, 0, []⟩]⟩,
  ⟨0x500408, [], [⟨0, 64, .rw, 0, false, 0, []⟩]⟩,
  ⟨0x500410, [], [⟨0, 64, .rw, 0, false, 0, []⟩]⟩,
  ⟨0x500418, [], [⟨0, 2, .wo, 0, false, 0, []⟩, ⟨8, 1, .ro, 0, false, 0, []⟩, ⟨9, 3, .ro, 0, false, 0, []⟩]⟩,
  ⟨0x500420, [], [⟨0, 47, .rw, 0, false, 0, []⟩]⟩,
  ⟨0x500428, [], [⟨0, 22, .ro, 0, false, 0, []⟩, ⟨32, 22, .ro, 0, false, 0, []⟩, ⟨63, 1, .ro, 0, false, 0, []⟩]⟩,
  ⟨0x500430, [], [⟨0, 1, .w1c, 0, false, 0, []⟩, ⟨1, 1, .w1c, 0, false, 0, []⟩]⟩]

/-- The registers of block SIV. -/
def regsSIV : List RegSpec := regsSIV0

/-- Registers of block HOM, part 0. -/
def regsHOM0 : List RegSpec := [
  ⟨0xb00000, [], [⟨0, 12, .rw, 1024, false, 0, [(64, 4095)]⟩, ⟨12, 3, .rw, 3, false, 0, []⟩]⟩,
  ⟨0xb00008, [], [⟨0, 63, .ro, 0, false, 0, []⟩]⟩,
  ⟨0xb00010, [], [⟨0, 32, .rc, 0, false, 0, []⟩, ⟨32, 16, .rc, 0, false, 0, []⟩, ⟨48, 16, .rc, 0, false, 0, []⟩]⟩,
  ⟨0xb00018, [], [⟨0, 22, .rw, 0, false, 0, []⟩]⟩,
  ⟨0xb00020, [], [⟨0, 1, .wo, 0, false, 0, []⟩, ⟨8, 1, .ro, 0, false, 0, []⟩]⟩,
  ⟨0xb00028, [(4, 8)], [⟨0, 64, .ro, 0, false, 0, []⟩]⟩,
  ⟨0xb00100, [], [⟨0, 16, .rw, 0, true, 1, [(1, 65535)]⟩]⟩,
  ⟨0xb00108, [], [⟨0, 17, .ro, 0, false, 0, []⟩, ⟨32, 32, .rc, 0, false, 0, []⟩]⟩,
  ⟨0xb00110, [], [⟨0, 1, .w1c, 0, false, 0, []⟩, ⟨1, 1, .w1c, 0, false, 0, []⟩, ⟨2, 1, .w1c, 0, false, 0, []⟩, ⟨3, 1, .w1c, 0, false, 0, []⟩]⟩,
  ⟨0xb10000, [(64, 512), (64, 8)], [⟨0, 16, .rw, 0, false, 0, []⟩, ⟨16, 1, .rw, 0, false, 0, []⟩]⟩]

/-- The registers of block HOM. -/
def regsHOM : List RegSpec := regsHOM0

/-- Registers of block LDL, part 0. -/
def regsLDL0 : List RegSpec := [
  ⟨0x900000, [], [⟨0, 16, .ro, 0, false, 0, []⟩, ⟨16, 5, .ro, 0, false, 0, []⟩]⟩,
  ⟨0x900100, [(16, 8)], [⟨0, 5, .ro, 0, false, 0, []⟩, ⟨5, 3, .ro, 0, false, 0, []⟩, ⟨8, 7, .ro, 0, false, 0, []⟩, ⟨15, 7, .ro, 0, false, 0, []⟩, ⟨22, 7, .ro, 0, false, 0, []⟩, ⟨29, 7, .ro, 0, false, 0, []⟩]⟩,
  ⟨0x900200, [(17, 8)], [⟨0, 64, .w1s, 0, true, 0, []⟩]⟩,
  ⟨0x900300, [], [⟨0, 7, .rw, 0, true, 8, [(1, 64)]⟩, ⟨7, 1, .rw, 0, true, 0, []⟩, ⟨8, 4, .wo, 0, false, 0, []⟩, ⟨12, 1, .wo, 0, false, 0, []⟩]⟩,
  ⟨0x900308, [], [⟨0, 7, .rw, 0, true, 0, [(0, 96)]⟩]⟩,
  ⟨0x900310, [], [⟨0, 5, .rw, 4, false, 0, [(0, 16)]⟩]⟩,
  ⟨0x900318, [], [⟨0, 1, .w1c, 0, false, 0, []⟩, ⟨1, 1, .w1c, 0, false, 0, []⟩, ⟨2, 1, .w1c, 0, false, 0, []⟩, ⟨3, 1, .w1c, 0, false, 0, []⟩, ⟨4, 1, .w1c, 0, false, 0, []⟩, ⟨5, 1, .w1c, 0, false, 0, []⟩, ⟨6, 1, .w1c, 0, false, 0, []⟩, ⟨7, 1, .w1c, 0, false, 0, []⟩]⟩,
  ⟨0x900320, [], [⟨0, 32, .rc, 0, false, 0, []⟩, ⟨32, 16, .rc, 0, false, 0, []⟩, ⟨48, 16, .rc, 0, false, 0, []⟩]⟩,
  ⟨0x900400, [(64, 8)], [⟨0, 16, .rw, 0, false, 0, []⟩, ⟨16, 7, .rw, 0, false, 0, [(0, 64)]⟩]⟩]

/-- The registers of block LDL. -/
def regsLDL : List RegSpec := regsLDL0

/-- Registers of block COL, part 0. -/
def regsCOL0 : List RegSpec := [
  ⟨0xa00000, [], [⟨0, 12, .rw, 0, true, 16, [(16, 4095)]⟩, ⟨12, 16, .rw, 0, true, 256, [(256, 65535)]⟩, ⟨28, 16, .rw, 0, true, 256, [(256, 65535)]⟩, ⟨44, 16, .rw, 0, true, 1024, [(1024, 65535)]⟩]⟩,
  ⟨0xa00008, [], [⟨0, 2, .rw, 0, false, 0, []⟩, ⟨2, 1, .rw, 1, false, 0, []⟩, ⟨8, 4, .rw, 8, false, 0, [(1, 15)]⟩]⟩,
  ⟨0xa00010, [], [⟨0, 5, .ro, 0, true, 1, [(1, 16)]⟩, ⟨32, 32, .ro, 0, true, 0, []⟩]⟩,
  ⟨0xa00100, [(64, 8)], [⟨0, 1, .rw, 0, false, 0, []⟩, ⟨1, 1, .rw, 0, false, 0, []⟩, ⟨2, 7, .rw, 0, false, 0, [(0, 64)]⟩]⟩,
  ⟨0xa00300, [], [⟨0, 7, .ro, 0, false, 0, []⟩, ⟨7, 1, .ro, 0, false, 0, []⟩, ⟨8, 6, .ro, 0, false, 0, []⟩, ⟨14, 32, .ro, 0, false, 0, []⟩, ⟨46, 7, .ro, 0, false, 0, []⟩]⟩,
  ⟨0xa00400, [(64, 8)], [⟨0, 3, .ro, 0, false, 0, []⟩, ⟨3, 1, .ro, 0, false, 0, []⟩, ⟨4, 6, .ro, 0, false, 0, []⟩, ⟨10, 4, .ro, 0, false, 0, []⟩, ⟨14, 32, .ro, 0, false, 0, []⟩]⟩,
  ⟨0xa00600, [], [⟨0, 1, .w1c, 0, false, 0, []⟩, ⟨1, 1, .w1c, 0, false, 0, []⟩, ⟨2, 1, .w1c, 0, false, 0, []⟩, ⟨3, 1, .w1c, 0, false, 0, []⟩, ⟨4, 1, .w1c, 0, false, 0, []⟩, ⟨5, 1, .w1c, 0, false, 0, []⟩]⟩,
  ⟨0xa00608, [], [⟨0, 32, .rc, 0, false, 0, []⟩, ⟨32, 32, .rc, 0, false, 0, []⟩]⟩,
  ⟨0xa00610, [], [⟨0, 32, .rc, 0, false, 0, []⟩, ⟨32, 16, .rc, 0, false, 0, []⟩, ⟨48, 16, .rc, 0, false, 0, []⟩]⟩]

/-- The registers of block COL. -/
def regsCOL : List RegSpec := regsCOL0

/-- Registers of block OPT, part 0. -/
def regsOPT0 : List RegSpec := [
  ⟨0x800000, [], [⟨0, 4, .rw, 0, true, 0, []⟩]⟩,
  ⟨0x800008, [], [⟨0, 4, .wo, 0, false, 0, []⟩, ⟨4, 1, .wo, 0, false, 0, []⟩, ⟨8, 56, .wo, 0, false, 0, []⟩]⟩,
  ⟨0x800010, [], [⟨0, 4, .ro, 0, false, 0, []⟩, ⟨4, 1, .ro, 0, false, 0, []⟩, ⟨5, 4, .ro, 0, false, 0, []⟩, ⟨9, 4, .ro, 0, false, 0, []⟩, ⟨13, 3, .ro, 0, false, 0, []⟩]⟩,
  ⟨0x800018, [], [⟨0, 6, .rw, 8, false, 0, [(1, 63)]⟩, ⟨6, 4, .rw, 6, false, 0, []⟩, ⟨10, 3, .rw, 3, false, 0, [(1, 7)]⟩, ⟨16, 16, .rw, 2048, false, 0, [(1024, 65535)]⟩, ⟨32, 16, .rw, 4096, false, 0, [(64, 65535)]⟩, ⟨48, 12, .rw, 150, false, 0, []⟩]⟩,
  ⟨0x800020, [], [⟨0, 8, .rw, 20, false, 0, []⟩, ⟨8, 8, .rw, 40, false, 0, []⟩, ⟨16, 8, .rw, 40, false, 0, []⟩, ⟨24, 5, .rw, 20, false, 0, [(16, 24)]⟩]⟩,
  ⟨0x800028, [], [⟨0, 16, .wo, 0, false, 0, []⟩, ⟨16, 16, .wo, 0, false, 0, []⟩, ⟨32, 16, .wo, 0, false, 0, []⟩, ⟨48, 1, .wo, 0, false, 0, []⟩, ⟨49, 1, .wo, 0, false, 0, []⟩]⟩,
  ⟨0x800030, [], [⟨0, 12, .rw, 256, false, 0, [(64, 4095)]⟩]⟩,
  ⟨0x800038, [], [⟨0, 1, .w1c, 0, false, 0, []⟩, ⟨1, 1, .w1c, 0, false, 0, []⟩, ⟨2, 1, .w1c, 0, false, 0, []⟩, ⟨3, 1, .w1c, 0, false, 0, []⟩, ⟨4, 1, .w1c, 0, false, 0, []⟩, ⟨5, 1, .w1c, 0, false, 0, []⟩, ⟨6, 1, .w1c, 0, false, 0, []⟩, ⟨7, 1, .w1c, 0, false, 0, []⟩, ⟨8, 1, .w1c, 0, false, 0, []⟩, ⟨9, 1, .w1c, 0, false, 0, []⟩, ⟨10, 1, .w1c, 0, false, 0, []⟩, ⟨11, 1, .w1c, 0, false, 0, []⟩, ⟨12, 1, .w1c, 0, false, 0, []⟩]⟩,
  ⟨0x800040, [], [⟨0, 16, .rc, 0, false, 0, []⟩, ⟨16, 16, .rc, 0, false, 0, []⟩, ⟨32, 16, .rc, 0, false, 0, []⟩, ⟨48, 16, .rc, 0, false, 0, []⟩]⟩,
  ⟨0x800048, [], [⟨0, 8, .wo, 0, false, 0, []⟩, ⟨8, 2, .wo, 0, false, 0, []⟩]⟩,
  ⟨0x800100, [(4, 64), (5, 8)], [⟨0, 16, .rw, 0, true, 0, []⟩]⟩,
  ⟨0x800200, [(4, 64), (5, 8)], [⟨0, 16, .ro, 0, false, 0, []⟩, ⟨16, 16, .ro, 0, false, 0, []⟩, ⟨32, 3, .ro, 0, false, 0, []⟩, ⟨35, 5, .ro, 31, false, 0, []⟩, ⟨40, 1, .ro, 0, false, 0, []⟩]⟩]

/-- Registers of block OPT, part 1. -/
def regsOPT1 : List RegSpec := [
  ⟨0x801000, [(256, 8)], [⟨0, 3, .ro, 0, false, 0, []⟩, ⟨3, 5, .ro, 0, false, 0, []⟩, ⟨8, 5, .ro, 0, false, 0, []⟩, ⟨13, 1, .ro, 0, false, 0, []⟩, ⟨14, 1, .ro, 0, false, 0, []⟩, ⟨15, 3, .ro, 0, false, 0, []⟩, ⟨18, 4, .ro, 0, false, 0, []⟩, ⟨22, 16, .ro, 0, false, 0, []⟩, ⟨38, 16, .ro, 0, false, 0, []⟩]⟩,
  ⟨0x802000, [(256, 8)], [⟨0, 16, .rw, 0, true, 0, []⟩, ⟨16, 8, .rw, 0, true, 0, []⟩, ⟨24, 16, .rw, 0, true, 0, []⟩, ⟨40, 1, .rw, 0, true, 0, []⟩]⟩,
  ⟨0x803000, [(256, 8)], [⟨0, 16, .ro, 0, false, 0, []⟩, ⟨16, 8, .ro, 0, false, 0, []⟩, ⟨24, 16, .ro, 0, false, 0, []⟩, ⟨40, 3, .ro, 0, false, 0, []⟩]⟩,
  ⟨0x840000, [(16, 2048), (32, 64), (8, 8)], [⟨0, 16, .ro, 0, false, 0, []⟩, ⟨16, 16, .ro, 0, false, 0, []⟩, ⟨32, 16, .ro, 0, false, 0, []⟩, ⟨48, 16, .ro, 0, false, 0, []⟩]⟩,
  ⟨0x804000, [(256, 8)], [⟨0, 1, .rw, 0, false, 0, []⟩, ⟨1, 2, .rw, 0, false, 0, []⟩, ⟨3, 1, .rw, 0, false, 0, []⟩, ⟨4, 1, .rw, 0, false, 0, []⟩, ⟨5, 1, .ro, 0, false, 0, []⟩]⟩,
  ⟨0x804800, [(4, 8)], [⟨0, 64, .rw, 0, false, 0, []⟩]⟩,
  ⟨0x805000, [(256, 8)], [⟨0, 1, .wo, 0, false, 0, []⟩, ⟨1, 2, .wo, 0, false, 0, []⟩, ⟨3, 8, .wo, 0, false, 0, []⟩, ⟨11, 16, .wo, 0, false, 0, []⟩, ⟨27, 16, .wo, 0, false, 0, []⟩, ⟨43, 1, .ro, 0, false, 0, []⟩]⟩,
  ⟨0x810000, [(256, 64)], [⟨0, 64, .ro, 0, false, 0, []⟩]⟩,
  ⟨0x810008, [(256, 64)], [⟨0, 64, .ro, 0, false, 0, []⟩]⟩,
  ⟨0x810010, [(256, 64)], [⟨0, 64, .ro, 0, false, 0, []⟩]⟩,
  ⟨0x810018, [(256, 64)], [⟨0, 64, .ro, 0, false, 0, []⟩]⟩,
  ⟨0x810020, [(256, 64)], [⟨0, 32, .ro, 0, false, 0, []⟩, ⟨32, 16, .ro, 0, false, 0, []⟩, ⟨48, 16, .ro, 0, false, 0, []⟩]⟩]

/-- Registers of block OPT, part 2. -/
def regsOPT2 : List RegSpec := [
  ⟨0x810028, [(256, 64)], [⟨0, 32, .ro, 0, false, 0, []⟩, ⟨32, 32, .ro, 0, false, 0, []⟩]⟩]

/-- The registers of block OPT. -/
def regsOPT : List RegSpec := regsOPT0 ++ regsOPT1 ++ regsOPT2

/-- Registers of block ELK, part 0. -/
def regsELK0 : List RegSpec := [
  ⟨0x700000, [(6, 8)], [⟨0, 1, .rw, 0, true, 0, []⟩, ⟨1, 1, .rw, 0, true, 0, []⟩, ⟨2, 1, .rw, 0, true, 0, []⟩, ⟨3, 1, .rw, 0, true, 0, []⟩, ⟨4, 4, .rw, 0, true, 1, [(1, 8)]⟩, ⟨8, 8, .rw, 0, true, 0, []⟩, ⟨16, 16, .rw, 0, true, 0, []⟩, ⟨32, 1, .wo, 0, false, 0, []⟩]⟩,
  ⟨0x700040, [(6, 8)], [⟨0, 3, .ro, 0, false, 0, []⟩, ⟨3, 8, .ro, 0, false, 0, []⟩, ⟨11, 1, .ro, 0, false, 0, []⟩, ⟨12, 1, .ro, 0, false, 0, []⟩, ⟨13, 16, .ro, 0, false, 0, []⟩]⟩,
  ⟨0x700080, [(6, 8)], [⟨0, 16, .rw, 0, true, 64, [(64, 65535)]⟩, ⟨16, 16, .rw, 0, true, 1, [(1, 65535)]⟩]⟩,
  ⟨0x7000c0, [], [⟨0, 48, .rw, 0, false, 0, []⟩]⟩,
  ⟨0x7000c8, [], [⟨0, 1, .w1c, 0, false, 0, []⟩, ⟨1, 1, .w1c, 0, false, 0, []⟩, ⟨2, 1, .w1c, 0, false, 0, []⟩, ⟨3, 1, .w1c, 0, false, 0, []⟩, ⟨4, 1, .w1c, 0, false, 0, []⟩, ⟨5, 1, .w1c, 0, false, 0, []⟩, ⟨6, 1, .w1c, 0, false, 0, []⟩]⟩,
  ⟨0x700100, [(48, 8)], [⟨0, 1, .rw, 0, false, 0, []⟩, ⟨1, 2, .rw, 0, false, 0, []⟩, ⟨3, 1, .rw, 0, false, 0, []⟩, ⟨4, 1, .rw, 0, false, 0, []⟩]⟩,
  ⟨0x700300, [(48, 8)], [⟨0, 3, .ro, 0, false, 0, []⟩, ⟨3, 1, .ro, 0, false, 0, []⟩, ⟨4, 1, .ro, 0, false, 0, []⟩, ⟨5, 1, .ro, 0, false, 0, []⟩, ⟨6, 3, .ro, 0, false, 0, []⟩, ⟨9, 8, .ro, 0, false, 0, []⟩]⟩,
  ⟨0x700500, [(48, 8)], [⟨0, 8, .ro, 0, false, 0, []⟩, ⟨8, 8, .ro, 0, false, 0, []⟩, ⟨16, 8, .ro, 0, false, 0, []⟩, ⟨24, 8, .ro, 0, false, 0, []⟩]⟩,
  ⟨0x700700, [(48, 8)], [⟨0, 1, .wo, 0, false, 0, []⟩, ⟨1, 2, .wo, 0, false, 0, []⟩, ⟨3, 8, .wo, 0, false, 0, []⟩, ⟨11, 16, .wo, 0, false, 0, []⟩, ⟨27, 16, .wo, 0, false, 0, []⟩, ⟨43, 1, .ro, 0, false, 0, []⟩]⟩,
  ⟨0x710000, [(48, 64)], [⟨0, 64, .ro, 0, false, 0, []⟩]⟩,
  ⟨0x710008, [(48, 64)], [⟨0, 64, .ro, 0, false, 0, []⟩]⟩,
  ⟨0x710010, [(48, 64)], [⟨0, 64, .ro, 0, false, 0, []⟩]⟩]

/-- Registers of block ELK, part 1. -/
def regsELK1 : List RegSpec := [
  ⟨0x710018, [(48, 64)], [⟨0, 64, .ro, 0, false, 0, []⟩]⟩,
  ⟨0x710020, [(48, 64)], [⟨0, 32, .ro, 0, false, 0, []⟩, ⟨32, 16, .ro, 0, false, 0, []⟩, ⟨48, 16, .ro, 0, false, 0, []⟩]⟩,
  ⟨0x710028, [(48, 64)], [⟨0, 32, .ro, 0, false, 0, []⟩, ⟨32, 32, .ro, 0, false, 0, []⟩]⟩]

/-- The registers of block ELK. -/
def regsELK : List RegSpec := regsELK0 ++ regsELK1

/-- Registers of block HST, part 0. -/
def regsHST0 : List RegSpec := [
  ⟨0xf00000, [(4, 16384)], [⟨0, 1, .rw, 0, true, 0, []⟩, ⟨1, 6, .rw, 0, true, 0, []⟩, ⟨7, 1, .rw, 0, true, 0, []⟩, ⟨8, 1, .rw, 0, true, 0, []⟩, ⟨9, 1, .rw, 0, true, 0, []⟩, ⟨10, 1, .rw, 0, true, 0, []⟩, ⟨11, 1, .rw, 0, true, 0, []⟩, ⟨12, 4, .rw, 0, true, 0, []⟩, ⟨16, 5, .rw, 0, true, 14, [(10, 20)]⟩, ⟨21, 2, .rw, 0, true, 0, [(0, 2)]⟩, ⟨23, 2, .rw, 0, true, 0, [(0, 2)]⟩, ⟨25, 1, .rw, 0, true, 0, []⟩, ⟨26, 1, .rw, 0, true, 0, []⟩, ⟨27, 11, .rw, 0, true, 0, []⟩]⟩,
  ⟨0xf00008, [(4, 16384)], [⟨0, 2, .ro, 0, false, 0, []⟩, ⟨2, 1, .ro, 0, false, 0, []⟩, ⟨3, 2, .ro, 0, false, 0, []⟩, ⟨5, 2, .ro, 0, false, 0, []⟩, ⟨7, 1, .ro, 0, false, 0, []⟩, ⟨8, 1, .ro, 0, false, 0, []⟩, ⟨9, 1, .ro, 0, false, 0, []⟩, ⟨16, 11, .ro, 0, false, 0, []⟩, ⟨27, 14, .ro, 0, false, 0, []⟩]⟩,
  ⟨0xf00010, [(4, 16384)], [⟨0, 27, .rw, 0, true, 0, []⟩, ⟨32, 22, .rw, 0, true, 0, []⟩]⟩,
  ⟨0xf00018, [(4, 16384)], [⟨0, 64, .rw, 0, true, 0, []⟩]⟩,
  ⟨0xf00020, [(4, 16384)], [⟨0, 64, .rw, 0, true, 0, []⟩]⟩,
  ⟨0xf00028, [(4, 16384)], [⟨0, 64, .rw, 0, true, 0, []⟩]⟩,
  ⟨0xf00038, [(4, 16384)], [⟨0, 32, .wo, 0, false, 0, []⟩, ⟨32, 1, .wo, 0, false, 0, []⟩]⟩,
  ⟨0xf00040, [(4, 16384)], [⟨0, 32, .ro, 0, false, 0, []⟩, ⟨32, 1, .ro, 0, false, 0, []⟩, ⟨33, 1, .w1c, 0, false, 0, []⟩, ⟨34, 4, .ro, 0, false, 0, []⟩, ⟨38, 16, .ro, 0, false, 0, []⟩]⟩,
  ⟨0xf00048, [(4, 16384)], [⟨0, 1, .w1c, 0, false, 0, []⟩, ⟨1, 1, .w1c, 0, false, 0, []⟩, ⟨2, 1, .w1c, 0, false, 0, []⟩, ⟨3, 1, .w1c, 0, false, 0, []⟩, ⟨4, 1, .w1c, 0, false, 0, []⟩, ⟨5, 1, .w1c, 0, false, 0, []⟩, ⟨6, 1, .w1c, 0, false, 0, []⟩, ⟨7, 1, .w1c, 0, false, 0, []⟩, ⟨8, 1, .w1c, 0, false, 0, []⟩]⟩,
  ⟨0xf00050, [(4, 16384)], [⟨0, 32, .rc, 0, false, 0, []⟩, ⟨32, 32, .rc, 0, false, 0, []⟩]⟩,
  ⟨0xf00058, [(4, 16384)], [⟨0, 32, .rc, 0, false, 0, []⟩, ⟨32, 16, .rc, 0, false, 0, []⟩, ⟨48, 16, .rc, 0, false, 0, []⟩]⟩,
  ⟨0xf00100, [(4, 16384), (64, 8)], [⟨0, 20, .rw, 0, true, 0, []⟩, ⟨20, 6, .rw, 0, true, 0, []⟩, ⟨26, 1, .rw, 0, true, 0, []⟩]⟩]

/-- The registers of block HST. -/
def regsHST : List RegSpec := regsHST0

/-- Registers of block SEC, part 0. -/
def regsSEC0 : List RegSpec := [
  ⟨0xd00000, [], [⟨0, 1, .ro, 0, false, 0, []⟩, ⟨1, 1, .ro, 0, false, 0, []⟩, ⟨16, 16, .ro, 0, false, 0, []⟩, ⟨32, 32, .ro, 0, true, 0, []⟩]⟩,
  ⟨0xd00008, [], [⟨0, 64, .ro, 0, true, 0, []⟩]⟩,
  ⟨0xd00010, [], [⟨0, 1, .wo, 0, false, 0, []⟩, ⟨1, 1, .wo, 0, false, 0, []⟩, ⟨2, 1, .ro, 0, false, 0, []⟩, ⟨3, 1, .ro, 0, false, 0, []⟩, ⟨4, 1, .ro, 0, false, 0, []⟩]⟩,
  ⟨0xd00018, [], [⟨0, 1, .w1c, 0, false, 0, []⟩, ⟨1, 1, .w1c, 0, false, 0, []⟩, ⟨2, 1, .w1c, 0, false, 0, []⟩, ⟨3, 1, .w1c, 0, false, 0, []⟩, ⟨4, 1, .w1c, 0, false, 0, []⟩, ⟨5, 1, .w1c, 0, false, 0, []⟩, ⟨6, 1, .w1c, 0, false, 0, []⟩]⟩,
  ⟨0xd00020, [], [⟨0, 32, .rc, 0, false, 0, []⟩, ⟨32, 16, .rc, 0, false, 0, []⟩, ⟨48, 16, .rc, 0, false, 0, []⟩]⟩,
  ⟨0xd00040, [(4, 8)], [⟨0, 64, .rw, 0, false, 0, []⟩]⟩,
  ⟨0xd00060, [], [⟨0, 6, .wo, 0, false, 0, []⟩, ⟨6, 1, .wo, 0, false, 0, []⟩, ⟨8, 46, .wo, 0, false, 0, []⟩]⟩,
  ⟨0xd00068, [], [⟨0, 1, .ro, 0, false, 0, []⟩, ⟨1, 1, .w1c, 0, false, 0, []⟩, ⟨2, 4, .ro, 0, false, 0, []⟩, ⟨6, 9, .ro, 0, false, 0, []⟩]⟩,
  ⟨0xd00078, [], [⟨0, 1, .ro, 0, false, 0, []⟩, ⟨1, 1, .w1c, 0, false, 0, []⟩, ⟨2, 4, .ro, 0, false, 0, []⟩, ⟨6, 9, .ro, 0, false, 0, []⟩]⟩,
  ⟨0xd00088, [], [⟨0, 1, .ro, 0, false, 0, []⟩, ⟨1, 1, .w1c, 0, false, 0, []⟩, ⟨2, 4, .ro, 0, false, 0, []⟩, ⟨6, 9, .ro, 0, false, 0, []⟩]⟩,
  ⟨0xd00070, [], [⟨0, 2, .wo, 0, false, 0, []⟩, ⟨2, 6, .wo, 0, false, 0, []⟩, ⟨8, 4, .wo, 0, false, 0, []⟩, ⟨12, 1, .wo, 0, false, 0, []⟩, ⟨14, 46, .wo, 0, false, 0, []⟩]⟩,
  ⟨0xd00080, [], [⟨0, 8, .wo, 0, false, 0, []⟩, ⟨8, 2, .wo, 0, false, 0, []⟩, ⟨10, 1, .wo, 0, false, 0, []⟩, ⟨11, 6, .wo, 0, false, 0, []⟩, ⟨17, 28, .wo, 0, false, 0, []⟩, ⟨45, 16, .wo, 0, false, 0, []⟩, ⟨61, 1, .wo, 0, false, 0, []⟩]⟩]

/-- Registers of block SEC, part 1. -/
def regsSEC1 : List RegSpec := [
  ⟨0xd00090, [], [⟨6, 46, .rw, 0, false, 0, []⟩]⟩,
  ⟨0xd00098, [], [⟨0, 8, .wo, 0, false, 0, []⟩, ⟨8, 4, .wo, 0, false, 0, []⟩, ⟨12, 16, .wo, 0, false, 0, []⟩, ⟨28, 16, .wo, 0, false, 0, []⟩, ⟨44, 16, .wo, 0, false, 0, []⟩, ⟨60, 1, .wo, 0, false, 0, []⟩]⟩,
  ⟨0xd000a0, [], [⟨0, 5, .ro, 0, false, 0, []⟩, ⟨5, 16, .ro, 0, false, 0, []⟩, ⟨21, 4, .ro, 0, false, 0, []⟩, ⟨25, 16, .ro, 0, false, 0, []⟩, ⟨41, 16, .ro, 0, false, 0, []⟩, ⟨57, 1, .w1c, 0, false, 0, []⟩]⟩,
  ⟨0xd00100, [], [⟨0, 6, .wo, 0, false, 0, []⟩, ⟨6, 3, .wo, 0, false, 0, []⟩, ⟨9, 1, .wo, 0, false, 0, []⟩, ⟨10, 54, .wo, 0, false, 0, []⟩]⟩,
  ⟨0xd00200, [(64, 8)], [⟨0, 2, .ro, 0, false, 0, []⟩, ⟨2, 1, .ro, 0, false, 0, []⟩, ⟨3, 4, .ro, 0, false, 0, []⟩, ⟨7, 16, .ro, 0, false, 0, []⟩, ⟨23, 1, .ro, 0, false, 0, []⟩, ⟨24, 1, .ro, 0, false, 0, []⟩]⟩,
  ⟨0xd00400, [(64, 8)], [⟨0, 64, .ro, 0, false, 0, []⟩]⟩,
  ⟨0xd00600, [(64, 8)], [⟨0, 4, .rwl, 0, false, 0, []⟩]⟩,
  ⟨0xd01000, [(256, 8)], [⟨0, 28, .ro, 0, false, 0, []⟩, ⟨28, 16, .ro, 0, false, 0, []⟩, ⟨44, 6, .ro, 0, false, 0, []⟩, ⟨50, 1, .ro, 0, false, 0, []⟩, ⟨51, 2, .ro, 0, false, 0, []⟩]⟩]

/-- The registers of block SEC. -/
def regsSEC : List RegSpec := regsSEC0 ++ regsSEC1

/-- Registers of block REL, part 0. -/
def regsREL0 : List RegSpec := [
  ⟨0xc00000, [], [⟨0, 3, .rw, 0, true, 0, [(0, 4)]⟩]⟩,
  ⟨0xc00008, [], [⟨0, 1, .w1c, 0, false, 0, []⟩, ⟨1, 1, .w1c, 0, false, 0, []⟩, ⟨2, 1, .w1c, 0, false, 0, []⟩, ⟨3, 1, .w1c, 0, false, 0, []⟩, ⟨4, 1, .w1c, 0, false, 0, []⟩, ⟨5, 1, .w1c, 0, false, 0, []⟩, ⟨6, 1, .w1c, 0, false, 0, []⟩, ⟨7, 1, .w1c, 0, false, 0, []⟩, ⟨8, 1, .w1c, 0, false, 0, []⟩, ⟨9, 1, .w1c, 0, false, 0, []⟩, ⟨10, 1, .w1c, 0, false, 0, []⟩]⟩,
  ⟨0xc00010, [], [⟨0, 11, .rw, 0, true, 0, []⟩]⟩,
  ⟨0xc00018, [(4, 8)], [⟨0, 11, .rw, 0, false, 0, []⟩, ⟨11, 1, .rw, 0, false, 0, []⟩]⟩,
  ⟨0xc00038, [], [⟨0, 1, .w1c, 0, false, 0, []⟩, ⟨1, 1, .w1c, 0, false, 0, []⟩, ⟨2, 1, .w1c, 0, false, 0, []⟩, ⟨3, 1, .w1c, 0, false, 0, []⟩, ⟨4, 1, .w1c, 0, false, 0, []⟩, ⟨5, 1, .w1c, 0, false, 0, []⟩, ⟨6, 1, .w1c, 0, false, 0, []⟩]⟩,
  ⟨0xc00040, [], [⟨0, 32, .rc, 0, false, 0, []⟩, ⟨32, 16, .rc, 0, false, 0, []⟩, ⟨48, 16, .rc, 0, false, 0, []⟩]⟩,
  ⟨0xc00048, [], [⟨0, 8, .rw, 0, true, 0, []⟩]⟩,
  ⟨0xc00050, [], [⟨0, 16, .ro, 0, true, 0, []⟩, ⟨16, 16, .ro, 0, true, 0, []⟩]⟩,
  ⟨0xc00058, [], [⟨0, 1, .rw, 0, true, 0, []⟩, ⟨1, 2, .ro, 0, false, 0, []⟩, ⟨3, 19, .rw, 0, true, 262144, [(1024, 262144)]⟩]⟩,
  ⟨0xc00060, [(2, 8)], [⟨0, 19, .ro, 0, false, 0, []⟩, ⟨19, 19, .rw, 0, false, 0, []⟩, ⟨38, 26, .rc, 0, false, 0, []⟩]⟩,
  ⟨0xc00070, [], [⟨0, 1, .wo, 0, false, 0, []⟩, ⟨1, 18, .wo, 0, false, 0, []⟩, ⟨19, 1, .wo, 0, false, 0, []⟩, ⟨20, 1, .ro, 0, false, 0, []⟩]⟩,
  ⟨0xc00078, [(4, 8)], [⟨0, 64, .ro, 0, false, 0, []⟩]⟩]

/-- Registers of block REL, part 1. -/
def regsREL1 : List RegSpec := [
  ⟨0xc000a0, [], [⟨0, 32, .rc, 0, false, 0, []⟩, ⟨32, 16, .rc, 0, false, 0, []⟩]⟩,
  ⟨0xc00100, [(64, 8)], [⟨0, 1, .rw, 0, true, 0, []⟩, ⟨1, 1, .rw, 0, true, 0, []⟩]⟩]

/-- The registers of block REL. -/
def regsREL : List RegSpec := regsREL0 ++ regsREL1

/-- Registers of block MGT, part 0. -/
def regsMGT0 : List RegSpec := [
  ⟨0x100000, [], [⟨0, 1, .ro, 0, false, 0, []⟩, ⟨1, 1, .ro, 0, false, 0, []⟩, ⟨2, 1, .ro, 0, false, 0, []⟩, ⟨3, 1, .ro, 0, false, 0, []⟩, ⟨4, 1, .ro, 0, false, 0, []⟩, ⟨5, 1, .w1c, 0, false, 0, []⟩, ⟨6, 4, .ro, 0, false, 0, []⟩, ⟨16, 16, .ro, 0, false, 0, []⟩, ⟨32, 16, .ro, 0, false, 0, []⟩]⟩,
  ⟨0x100008, [], [⟨0, 32, .ro, 0, false, 0, []⟩, ⟨32, 32, .ro, 0, false, 0, []⟩]⟩,
  ⟨0x100010, [], [⟨0, 2, .wo, 0, false, 0, []⟩, ⟨8, 46, .wo, 0, false, 0, []⟩, ⟨54, 1, .wo, 0, false, 0, []⟩]⟩,
  ⟨0x100018, [], [⟨0, 1, .wo, 0, false, 0, []⟩, ⟨1, 1, .ro, 0, false, 0, []⟩, ⟨2, 1, .w1c, 0, false, 0, []⟩, ⟨3, 4, .ro, 0, false, 0, []⟩]⟩,
  ⟨0x100020, [], [⟨0, 8, .ro, 0, false, 0, []⟩, ⟨8, 8, .ro, 0, false, 0, []⟩, ⟨16, 8, .ro, 0, false, 0, []⟩, ⟨24, 16, .ro, 0, false, 0, []⟩]⟩]

/-- The registers of block MGT. -/
def regsMGT : List RegSpec := regsMGT0

/-- Registers of block TEL, part 0. -/
def regsTEL0 : List RegSpec := [
  ⟨0xe00000, [], [⟨0, 1, .rw, 0, true, 1, []⟩, ⟨1, 5, .rw, 0, true, 13, [(4, 20)]⟩]⟩,
  ⟨0xe00008, [], [⟨0, 1, .wo, 0, false, 0, []⟩]⟩,
  ⟨0xe00010, [], [⟨0, 32, .ro, 0, false, 0, []⟩, ⟨32, 12, .ro, 0, false, 0, []⟩, ⟨44, 1, .ro, 0, false, 0, []⟩]⟩,
  ⟨0xe00018, [], [⟨0, 7, .rw, 32, false, 0, [(0, 64)]⟩]⟩,
  ⟨0xe00020, [], [⟨0, 1, .rw, 0, false, 0, []⟩, ⟨1, 1, .rw, 0, false, 0, []⟩, ⟨2, 1, .rw, 0, false, 0, []⟩, ⟨3, 1, .rw, 0, false, 0, []⟩, ⟨4, 1, .rw, 0, false, 0, []⟩, ⟨5, 1, .rw, 0, false, 0, []⟩, ⟨6, 10, .rw, 0, false, 0, [(0, 261), (512, 527)]⟩, ⟨32, 16, .rw, 0, false, 0, []⟩]⟩,
  ⟨0xe00028, [], [⟨0, 16, .rw, 0, false, 0, []⟩, ⟨16, 16, .rw, 0, false, 0, []⟩, ⟨32, 16, .rw, 0, false, 0, []⟩, ⟨48, 16, .rw, 0, false, 0, []⟩]⟩,
  ⟨0xe00030, [], [⟨0, 8, .rw, 0, false, 0, []⟩, ⟨8, 8, .rw, 0, false, 0, []⟩, ⟨16, 6, .rw, 0, false, 0, []⟩, ⟨22, 1, .rw, 0, false, 0, []⟩, ⟨23, 8, .rw, 0, false, 0, []⟩]⟩,
  ⟨0xe00038, [], [⟨0, 32, .ro, 0, false, 0, []⟩, ⟨32, 16, .ro, 0, false, 0, []⟩, ⟨48, 1, .ro, 0, false, 0, []⟩]⟩,
  ⟨0xe00040, [], [⟨6, 46, .rw, 0, false, 0, []⟩]⟩,
  ⟨0xe00048, [], [⟨0, 2, .wo, 0, false, 0, []⟩, ⟨2, 1, .ro, 0, false, 0, []⟩, ⟨3, 4, .ro, 0, false, 0, []⟩]⟩,
  ⟨0xe00050, [], [⟨0, 1, .w1c, 0, false, 0, []⟩, ⟨1, 1, .w1c, 0, false, 0, []⟩, ⟨2, 1, .w1c, 0, false, 0, []⟩, ⟨3, 1, .w1c, 0, false, 0, []⟩]⟩]

/-- The registers of block TEL. -/
def regsTEL : List RegSpec := regsTEL0

/-- Every register of the control space. -/
def regMap : List RegSpec := regsGLB ++ regsSEQ ++ regsPRT ++ regsSWC ++ regsXLT ++ regsSIV ++ regsHOM ++ regsLDL ++ regsCOL ++ regsOPT ++ regsELK ++ regsHST ++ regsSEC ++ regsREL ++ regsMGT ++ regsTEL

end Sys2Proof.Machine
end

