-- ==== Sys2Proof/Machine/State.lean ====
section
/-! DEFINITION. The state of the block: the register file, every table, queue, buffer and mode the spec gives the
module, the queue of waiting commands, and the two fields of the model's own (what has been sent outside, and the
counter of free values). All of it plain data. -/

namespace Sys2Proof.Machine

open Sys2Proof

/-! ## Disil threads, watch lines and instruction caches (chapters 3 and 10) -/

/-- What a thread in WAITING waits for; SEQ_THREAD_STATUS.REASON shows its kind (Table 3.13). -/
inductive Wait
  /-- not waiting on anything -/
  | idle
  /-- registers still pending (R225): COMPLETION -/
  | regs (mask : BitVec 32)
  /-- sixteen requests outstanding (R48): SLOT -/
  | outstanding
  /-- a tray drain runs (R357): SLOT -/
  | tray
  /-- no free slot in Skidder `sk` (R13, R48): SLOT -/
  | slot (sk : Nat)
  /-- an atomic-class request of the thread to the line is outstanding (R106): SLOT -/
  | lineHold (dst sub line : Nat)
  /-- an OF request behind earlier requests to the endpoint (R107): SLOT -/
  | endpoint (dst sub : Nat)
  /-- write-backs of the thread to lines it owns are outstanding (R124, R125): SLOT -/
  | writeback
  /-- the fill for an earlier partial store to one of `n` lines of an owned granule is outstanding (R104, R124): SLOT -/
  | fill (home sub base n : Nat)
  /-- no ledger sequence value of Skidder `sk` may be handed out yet (R114): SLOT -/
  | ledger (sk : Nat)
  /-- bucket `b` of group index `g` is held (R80): SLOT -/
  | bucket (g b : Nat)
  /-- no free handle slot (R240): SLOT -/
  | handleSlot
  /-- 64 engine operations running (R240): SLOT -/
  | engineOps
  /-- the queue of Skidder `sk` is full (R244): SLOT -/
  | queue (sk : Nat)
  /-- FENCE of scope REQ or ALL (R108): FENCE -/
  | fence (all : Bool)
  /-- WAIT.T (R251): TICK -/
  | tick (target : Nat)
  /-- an instruction-cache miss on the line at `fva` (R62): FETCH -/
  | fetch (fva : Nat)
  /-- HWAIT on handle slot `h` (R242): the reason of the handle's KIND -/
  | handle (h : Nat)
  /-- kernel submission `op` waits (R182): LADLE -/
  | kernel (op : Nat)
  /-- COLL `op` waits (R204): COLLECTIVE -/
  | collective (op : Nat)
deriving DecidableEq, Repr

/-- One of a thread's 16 handle slots (R240 to R243). -/
structure Handle where
  used : Bool := false
  serial : BitVec 8 := 0
  kind : Nat := 0
  busy : Bool := false
  status : Nat := 0
  detail : Nat := 0
  /-- number of the operation that it tracks -/
  op : Nat := 0
deriving DecidableEq, Repr

/-- The state of one thread beside its SEQ registers (Table 10.1). -/
structure Thread where
  g : FMap Word := []
  p : BitVec 8 := 0
  pend : BitVec 32 := 0
  wake : Line := 0
  hands : FMap Handle := []
  chk : BitVec 3 := 0
  trapPc : Word := 0
  trapCause : Word := 0
  trapInfo : Word := 0
  /-- a status trap that has arisen and is not yet taken (R232): the first status -/
  held : Option (BitVec 4) := none
  wait : Wait := .idle
  /-- the register that WAIT.W, HWAIT or LP.SET writes when it ends -/
  waitReg : BitVec 5 := 0
  /-- engine operations running, with or without slots (R240) -/
  ops : Nat := 0
  /-- engine instructions that submit an operation and whose descriptor read has not finished (R241) -/
  reads : Nat := 0
  /-- operations numbered below this one ended for the thread with a partition reset (R243) -/
  opsFrom : Nat := 0
  /-- first status other than OK of the write-backs before an OWN.REL (R125) -/
  wbFail : Nat := 0
deriving DecidableEq, Repr

/-- A watch line beside its SEQ registers (Tables 3.4 and 3.6). -/
structure Watch where
  /-- 0 DISABLED, 1 ARMING, 2 IDLE, 3 PENDING, 4 PARKED, 5 ERROR -/
  state : Nat := 0
  thread : Nat := 0
  deadline : Nat := 0
  snap : Line := 0
  /-- a CXL.cache read for the line is under way (R55) -/
  reading : Bool := false
  lastSeq : BitVec 32 := 0
  wakes : BitVec 32 := 0
  spurious : BitVec 32 := 0
  rejected : BitVec 32 := 0
  skipped : BitVec 32 := 0
  lastWake : Word := 0
deriving DecidableEq, Repr

/-- An engine descriptor that an engine instruction has handed on and that has not been read yet (R241). -/
structure EngineOp where
  thread : Nat
  /-- 1 SKD.Q, 2 KRN, 3 COLL, 4 COLL.BATCH, 5 RSV -/
  kind : Nat
  fva : Nat
  arg : Nat
  d : BitVec 5
  st : BitVec 5
  /-- number of the operation -/
  op : Nat
  /-- the handle returned in gD, 0 with NH (Table 10.8) -/
  handle : Nat
  pc : Nat
  tag : BitVec 16
  /-- the thread was halted or reset meanwhile: its registers are not written (R50) -/
  dead : Bool := false
  /-- the descriptor has been read, and the submission waits (R182, R204, R244) -/
  waits : Option Wait := none
deriving DecidableEq, Repr

/-! ## Translation and the Sieve (chapter 5) -/

/-- Translation caches (R88) and the host writes held under R99. -/
structure XltState where
  /-- leaf translations, keyed by tag, level and page number -/
  tlb : FMap (BitVec 128) := []
  /-- next-table addresses, keyed by tag, level and index path -/
  walk : FMap Nat := []
  /-- slots of held host writes, in arrival order, with the tick of the hold (R99) -/
  held : List (Nat × Nat) := []
  /-- a request recorded by the drain that runs has completed with TIMEOUT (R89) -/
  late : Bool := false
deriving DecidableEq, Repr

/-- An indirect Sieve access in progress (R92). -/
structure SieveAcc where
  write : Bool
  idx : Nat
  data : BitVec 128
  start : Nat
deriving DecidableEq, Repr

/-- The Sieve Table, its cache and its accesses (R90 to R96). -/
structure SieveState where
  table : FMap (BitVec 128) := []
  /-- cached entries, most recently used first: (key, entry index) -/
  cache : List (Nat × Nat) := []
  acc : Option SieveAcc := none
  /-- buckets whose line is uncorrectable (Table 15.3) -/
  lost : FMap Bool := []
  /-- ranges being swept, by partition: first bucket and bucket count (R96) -/
  sweeps : FMap (Nat × Nat) := []
deriving DecidableEq, Repr

/-! ## Skidders (chapters 1, 6, 10) -/

/-- The engine on whose behalf a request was issued. -/
inductive Owner
  /-- a Disil thread -/
  | thread (t : Nat)
  /-- a host port set, by the port that issued the access -/
  | host (h : Nat)
  /-- the Bucker, for operation `op`: line `i` of its destination range; `what` = 0 for the destination write, 1 or 2 for a
  source read, 3 for the completion record -/
  | bucker (op i what : Nat)
  /-- an owner's write-back (R124), on behalf of thread `t`; 512 where no thread waits for it -/
  | writeback (t : Nat)
deriving DecidableEq, Repr

/-- What a completion writes in its thread. -/
inductive Dest
  /-- nothing but the status -/
  | none
  /-- `size` bytes at byte `off`, sign-extended where `sx` (LD) -/
  | reg (d : BitVec 5) (off size : Nat) (sx : Bool)
  /-- the whole line into a group (LD.L) -/
  | group (d : BitVec 5)
  /-- the RESULT of an atomic response; `w4`: a 4-byte old value -/
  | result (d : BitVec 5) (w4 : Bool)
deriving DecidableEq, Repr

/-- A partial store that waits for its line in an owned granule (R124). -/
structure Merge where
  first : Nat
  count : Nat
  data : Line
  pz : Bool := false
deriving DecidableEq, Repr

/-- A slot in use (R13). -/
structure Slot where
  owner : Owner
  pkt : Packet
  fva : Nat
  dest : Dest := .none
  st : BitVec 5 := 0
  first : Nat
  lastSend : Nat
  retries : Nat := 0
  /-- the request timeout with which it was first sent: 2^limit ticks (R23) -/
  limit : Nat
  /-- order of issue among the requests of the module -/
  seq : Nat
  /-- RESOLVE is not retransmitted (R237) -/
  resolve : Bool := false
  /-- T16 of the status word (Table 10.7) -/
  t16 : Nat := 0
  /-- first-level group resolution at this module: (group index, bucket) (R80) -/
  bucket : Option (Nat × Nat) := none
  marked : Bool := false
  /-- recorded by a draining invalidation (R89) -/
  drain : Bool := false
  /-- an invalidation met the fill (R122) -/
  noFill : Bool := false
  /-- a store waiting for its line in an owned granule (R124) -/
  merge : Option Merge := none
  /-- an atomic-class request that waits for the module's own write-backs (R125) -/
  ownSize : Nat := 0
  /-- completion is to be discarded (R50, R243) -/
  dead : Bool := false
  /-- the write is held and has not been sent (R99) -/
  hold : Bool := false
  /-- a held write that has been translated and waits only for its bucket (R80, R99) -/
  ready : Bool := false
  /-- data of a held write -/
  poison : Bool := false
  /-- the host port that issued it has been reset since: read data is discarded, a failed write signals nothing (R321) -/
  muted : Bool := false
  /-- PC of the instruction that issued it; 0 where no thread did -/
  pc : Nat := 0
deriving DecidableEq, Repr

/-- A queued Skidder descriptor (Table 10.9). -/
structure SkdDesc where
  thread : Nat
  /-- number of the operation -/
  op : Nat
  tag : BitVec 16
  bytes : BitVec 512
deriving DecidableEq, Repr

/-- A destination line that the Bucker has begun (R246). -/
structure SkdLine where
  src : Line := 0
  src2 : Line := 0
  /-- source reads still to be issued, and those outstanding -/
  toRead : Nat := 0
  reading : Nat := 0
  poison : Bool := false
  /-- the destination write has been sent -/
  sent : Bool := false
  /-- the line has completed, and whether its write completed OK -/
  done : Bool := false
  ok : Bool := false
deriving DecidableEq, Repr

/-- A descriptor that the Bucker has started (R244 to R247). -/
structure SkdRun where
  desc : SkdDesc
  /-- next destination line to begin -/
  next : Nat := 0
  lines : FMap SkdLine := []
  /-- first status other than OK, with its DETAIL (Table 10.10) -/
  status : Nat := 0
  detail : Nat := 0
  /-- no further line is begun (R247) -/
  stopped : Bool := false
  /-- the line at which translation failed (R98) -/
  suspended : Option Nat := none
  /-- a line has been issued -/
  begun : Bool := false
  startTick : Nat := 0
  endTick : Nat := 0
  /-- the completion record has been sent -/
  recording : Bool := false
deriving DecidableEq, Repr

/-- One Skidder beside its registers. -/
structure Skid where
  /-- next ledger sequence number (R114) -/
  lseq : BitVec 16 := 0
  /-- tick of each value's last send, plus 1 -/
  sent : FMap Nat := []
  queue : List SkdDesc := []
  /-- descriptors started, oldest first; only the first may still issue -/
  run : List SkdRun := []
deriving DecidableEq, Repr

/-! ## Home Unit (chapter 6) -/

/-- A line of the Remote Line Cache (R121). -/
structure RlcLine where
  home : BitVec 16
  sub : BitVec 3
  line : BitVec 46
  tag : BitVec 16
  /-- 1 RS, 2 OW -/
  mode : Nat
  dirty : Bool
  pz : Bool := false
  /-- a write-back of the line is under way -/
  leaving : Bool := false
  data : Line
deriving DecidableEq, Repr

/-- A granule that this module owns (R123): endpoint, first line, line count, tag. -/
structure Owned where
  home : BitVec 16
  sub : BitVec 3
  base : Nat
  lines : Nat
  tag : BitVec 16
deriving DecidableEq, Repr

/-- An INVL in the home's tracker (R122, R158). -/
structure Track where
  req : Packet
  entry : Nat
  /-- sharers that have not acknowledged, with the request tag of the INV sent to each -/
  waiting : List (BitVec 16 × Nat)
  /-- LINE of the INVs -/
  line : BitVec 46
  start : Nat
  /-- the request timeout: 2^limit ticks (R23) -/
  limit : Nat
deriving DecidableEq, Repr

/-- What a mirror's acknowledgement does at the primary. -/
inductive MirrorKind
  /-- performs and completes a synchronously mirrored store (R127) -/
  | store
  /-- nothing more: an asynchronously mirrored store (R128) -/
  | async
  /-- completes an atomic, reduction or ownership request with this status and RESULT (R129) -/
  | atomic (status result : Nat)
  /-- performs a store of one of this module's own engines (R127): `who` is 1 more than the number of its operation -/
  | engine (who : Nat)
  /-- none was sent: a store of an engine waits to be performed until the mirror's copies are below their limit (R128) -/
  | waits (who : Nat)
deriving DecidableEq, Repr

/-- A copy that a mirror has not acknowledged (R127 to R129). -/
structure MirrorOp where
  req : Packet
  mirror : BitVec 16
  /-- HBM line at the primary -/
  hline : Nat
  /-- what the acknowledgement does -/
  kind : MirrorKind
  /-- the host port that waits for CXL.mem Cmp, where the store is a Module Memory window write (R306) -/
  port : Option Nat := none
  /-- request tag of the copy -/
  rtag : Nat := 0
  start : Nat
  /-- the request timeout: 2^limit ticks (R23) -/
  limit : Nat
deriving DecidableEq, Repr

/-- A request under way at a host's bus (R102, R112, R317). -/
structure HostReq where
  port : Nat
  req : Packet
  hpa : Nat
  start : Nat
  /-- the ledger entry kept for an atomic's record (R112) -/
  way : Option Nat := none
  /-- a load that is answered cacheable (R120) -/
  cacheable : Bool := false
deriving DecidableEq, Repr

/-- A write sent to a host and not yet covered by a completed flush read (R102). -/
structure HostWrite where
  port : Nat
  req : Packet
  /-- 0: not yet in a batch; n: in batch n -/
  batch : Nat
deriving DecidableEq, Repr

/-- A flush read under way (R102). -/
structure Flush where
  port : Nat
  batch : Nat
  start : Nat
deriving DecidableEq, Repr

/-- The Home Unit, the Replay Ledger and the Remote Line Cache. -/
structure HomeState where
  ledger : FMap (BitVec 256) := []
  /-- ticks at which ledger sets were found uncorrectable (R347) -/
  lostSets : FMap Nat := []
  /-- lines most recently touched by atomics (R113), newest first -/
  onDie : List Nat := []
  sharers : FMap (BitVec 64) := []
  rlc : List RlcLine := []
  owned : List Owned := []
  tracker : List Track := []
  mirror : List MirrorOp := []
  /-- first status other than OK of the mirrored stores of an engine's operation, keyed as in `MirrorKind.engine` -/
  engFail : FMap Nat := []
  /-- operations that end once their completion record, a mirrored store, has been performed (R127, R189, R217): thread, number,
  status, DETAIL -/
  closing : List (Nat × Nat × Nat × Nat) := []
  hostReqs : List HostReq := []
  hostWrites : List HostWrite := []
  flushes : List Flush := []
  nextBatch : Nat := 1
deriving DecidableEq, Repr

/-! ## Switch Core (chapters 4 and 7) -/

/-- A packet waiting in the Switch Core. -/
structure QPkt where
  pkt : Packet
  point : Point
  /-- output link, or 32 for local delivery -/
  link : Nat
  tick : Nat
  /-- path hash h (Table 4.3) -/
  hash : Nat
  /-- the packet's trailer failed on the way through (R149) -/
  stomp : Bool := false
  /-- DL on arrival -/
  dl0 : BitVec 2 := 0
  /-- the packet still occupies its channel's input pool (R160) -/
  pool : Bool := false
  /-- a response of this module whose data came from a SEALED range (R399) -/
  isSealed : Bool := false
  /-- SRC and TAG with which the packet came, where it has crossed the gateway here (R77, R78) -/
  back : Option (BitVec 16 × BitVec 16) := none
  /-- the trailer with which it came over a channel; none where this module made the packet (R135) -/
  trailer : Option (BitVec 32) := none
deriving DecidableEq, Repr

/-- Packets held in changed buckets of a group at this Switch Core (R81). -/
structure BucketHold where
  group : Nat
  buckets : BitVec 256
  until_ : Nat
deriving DecidableEq, Repr

/-- One channel beside its SWC registers (R143 to R153, R159 to R163). -/
structure Chan where
  /-- unacknowledged packets, oldest first, with their trailer stomped or not (R146) -/
  replay : List QPkt := []
  /-- packets of the replay buffer still to be resent, oldest first (R148) -/
  resend : List QPkt := []
  /-- class -> bytes sent and not known freed (R161) -/
  used : FMap Nat := []
  /-- class -> FREED value last received (R162) -/
  freedSeen : FMap Nat := []
  /-- class -> bytes of this receiver freed so far (R162) -/
  freedRx : FMap Nat := []
  /-- bytes in this receiver's input pool -/
  pool : Nat := 0
  /-- tick of the last valid CREDIT block -/
  lastCredit : Nat := 0
  /-- a NAK has been sent and no suitable REPLAY has come: (tick, reason) -/
  nak : Option (Nat × Nat) := none
  /-- duplicates still to be discarded after a REPLAY (R147) -/
  dups : Nat := 0
  /-- sequence number whose trailer failed once (R149) -/
  failed : Option Nat := none
  /-- deficit counters of VC0-VC6 and the VC whose turn it is (R159) -/
  deficit : FMap Nat := []
  turn : Nat := 0
  /-- VC7 token bucket -/
  tokens : Nat := 0
  /-- bytes of VC0-VC6 that the shed level still lets out in this tick (R366) -/
  egress : Nat := 0
  /-- waiting to join a usable link (R143) -/
  joining : Bool := false
  /-- whether the turn's VC has had its quantum in this visit -/
  visit : Bool := false
  /-- class -> input point served last, plus 1 (R159) -/
  lastIn : FMap Nat := []
  /-- leaving its link (R143): 0 no, 1 for a light-plan switch, 2 out of service by command (R151), 3 for a test, 4 for
  OPT_LANE_CMD FAIL -/
  leaving : Nat := 0
  /-- the peer has announced electrical idle (R292, R296) -/
  ei : Bool := false
  /-- what took the channel DOWN (Table 15.6, fault code 0x0A04): 0 none of these -/
  down : Nat := 0
  /-- ACK_SEQ and FREED of the CREDIT block last sent (R150) -/
  toldAck : BitVec 12 := 0
  toldFreed : BitVec 192 := 0
  /-- the IDENT block last received -/
  ident : Option IdentBlock := none
deriving DecidableEq, Repr

/-- Route Table, Group Table, holds, queues and channels. -/
structure SwcState where
  routes : FMap (BitVec 128) := []
  routeStage : Option (Nat × Word) := none
  /-- route entries made unusable by an uncorrectable error (Table 15.3) -/
  routeBad : FMap Bool := []
  /-- Group Table words in effect, keyed 128·index + word -/
  groups : FMap Word := []
  groupStage : Option (Nat × FMap Word) := none
  groupBad : FMap Bool := []
  /-- held sets of R80, by group index -/
  held : FMap (BitVec 256) := []
  /-- requests of host ports and Buckers that wait for a held bucket: group index, who (port, or 4 + Skidder), line of the FVA -/
  heldReqs : List (Nat × Nat × Nat) := []
  transit : List BucketHold := []
  /-- destinations held under R82, with the tick at which the hold ends -/
  path : FMap Nat := []
  /-- the path hold queue (R82) -/
  holdq : List QPkt := []
  /-- packets that wait in VC inputs, which the full hold queue stalls (R82), oldest first; link 34: not routed yet -/
  stalled : List QPkt := []
  /-- packets held under R81 -/
  transq : List QPkt := []
  linkq : List QPkt := []
  localq : List QPkt := []
  /-- neighbours lost and not yet committed again (R355) -/
  lost : FMap Bool := []
  chans : FMap Chan := []
  /-- links that get no grants because a light-plan switch gives them a channel (R261) -/
  gains : List Nat := []
  /-- VC7 packets discarded at the management mailbox (R158, R389), for whose count the spec names no register -/
  mailDrops : Nat := 0
deriving DecidableEq, Repr

/-! ## Reliability (chapter 15) -/

/-- The logs, the patrol and the repairs under way. -/
structure RelState where
  /-- fault log slots (R362, R363) -/
  faultLog : FMap (BitVec 256) := []
  /-- poison log slots (R364) -/
  poisonLog : FMap (BitVec 256) := []
  /-- HBM line that the patrol reads next (R346), and the tick at which its pass began -/
  patrol : Nat := 0
  patrolAt : Nat := 0
  /-- tick at which the tray drain began (R357) -/
  trayAt : Nat := 0
deriving DecidableEq, Repr

/-! ## Power (chapter 16) -/

/-- Shed control beside its registers (R367 to R371). -/
structure PwrState where
  /-- level that the cap controller demands, and the tick of its last change -/
  demand : Nat := 0
  changedAt : Nat := 0
  /-- the input is below 40 V -/
  uv : Bool := false
  /-- tick at which S7 took effect -/
  s7At : Option Nat := none
deriving DecidableEq, Repr

/-! ## Host ports (chapter 13) -/

/-- MSI-X of one port (R319). A vector's mask bit is 1 until the host clears it, as PCIe has it. -/
structure Msix where
  enabled : Bool := false
  fmask : Bool := false
  vmask : FMap Bool := []
  pending : FMap Bool := []
deriving DecidableEq, Repr

/-- The fence of one port set (R313). -/
structure Fence where
  /-- first non-OK status and count of failed writes completed and not yet covered by a fence -/
  first : Nat := 0
  failed : Nat := 0
  /-- slots of the covered writes still outstanding -/
  covered : List Nat := []
  /-- first non-OK status and count among the covered writes -/
  cFirst : Nat := 0
  cFailed : Nat := 0
  busy : Bool := false
  token : Nat := 0
deriving DecidableEq, Repr

/-- An HDM decoder of a port (R304): base and size in host physical address space, interleave ways and granularity as
CXL encodes them (2^iw ways, 2^(8 + ig) bytes). -/
structure Decoder where
  base : Nat
  size : Nat
  iw : Nat
  ig : Nat
deriving DecidableEq, Repr

/-- What host software sets in a port's configuration space. -/
structure PortConf where
  io : Bool := false
  mem : Bool := false
  /-- code of the Completion Timeout Value (R317) -/
  timeout : Nat := 0
deriving DecidableEq, Repr

/-- The host ports beside their registers. -/
structure HstState where
  msix : FMap Msix := []
  conf : FMap PortConf := []
  /-- committed decoders, keyed 2·port + decoder -/
  decoders : FMap Decoder := []
  /-- the Skidder binding in effect, as a mask (R83) -/
  bound : FMap Nat := []
  /-- fences, by port-set mask -/
  fences : FMap Fence := []
deriving DecidableEq, Repr

/-! ## Security (chapter 14) -/

/-- What a key slot holds (R336). -/
structure KeySlot where
  key : BitVec 256
  id : Word
deriving DecidableEq, Repr

/-- A partition's ephemeral ML-KEM-768 key pair (R324). -/
structure KeyPair where
  /-- encapsulation key, 1,184 bytes -/
  ek : BitVec 9472
  /-- decapsulation key, 2,400 bytes -/
  dk : BitVec 19200
deriving DecidableEq, Repr

/-- A quote in progress (R333): through SEC_QUOTE_CMD to an HBM byte address, or for a requester on a host port (R335). -/
structure Quote where
  part : Nat
  nonce : BitVec 256
  dst : Option Nat
  port : Nat
  start : Nat
deriving DecidableEq, Repr

/-- An unwrap in progress (R336). -/
structure Unwrap where
  part : Nat
  slot : Nat
  /-- HBM byte address of the release record -/
  src : Nat
  /-- the partition's last quote nonce when the unwrap started -/
  nonce : Option (BitVec 256)
  start : Nat
deriving DecidableEq, Repr

/-- A chunk on an AES-GCM engine, with the key under which it started (R338, R339). -/
structure Chunk where
  /-- position within the load -/
  j : Nat
  key : KeySlot
deriving DecidableEq, Repr

/-- A queued or running load (R338). -/
structure Load where
  range : Nat
  slot : Nat
  first : Nat
  count : Nat
  token : Nat
  /-- HBM byte address of the first record -/
  src : Nat
  /-- next position to be started -/
  next : Nat := 0
  /-- lowest failing chunk, and its status -/
  fail : Option (Nat × Nat) := none
  /-- the load's slot has been cleared while chunks ran (R339) -/
  cleared : Bool := false
  loaded : Nat := 0
deriving DecidableEq, Repr

/-- The SPDM responder (R322, R335). -/
structure Spdm where
  /-- algorithms have been negotiated on a port -/
  agreed : FMap Bool := []
  /-- secure session of a port: 1 between KEY_EXCHANGE and FINISH, 2 established -/
  session : FMap Nat := []
  /-- the large response that a port's requester fetches in chunks -/
  large : FMap (List Byte) := []
  /-- chunks of a large request taken from a port -/
  taken : FMap Nat := []
deriving DecidableEq, Repr

/-- The security block beside its registers. -/
structure SecState where
  /-- pending partition resets: the tick T (R325) -/
  resetAt : FMap Nat := []
  /-- pending resets, and resets in progress, that end in DISABLED (R325) -/
  toDisable : FMap Bool := []
  /-- partitions killed by the Firebreak, halted until their reset takes effect (R69, R350) -/
  killed : FMap Bool := []
  /-- a write of the Debug Epoch to the settings store is under way since this tick (R341) -/
  raising : Option Nat := none
  /-- the Debug Epoch has risen since the last cold reset (Table 14.6) -/
  dbgBoot : Bool := false
  /-- the tick at which a partition left a generation, plus 1, keyed 1,024·partition + generation (R69) -/
  left : FMap Nat := []
  /-- SEALs accepted and not completed: the tick of acceptance (R324) -/
  sealing : FMap Nat := []
  /-- protected ranges from before a warm reset whose scrub goes on: partition, base and size in 64 KiB units, by index
  (R373) -/
  oldScrubs : FMap (Nat × Nat × Nat) := []
  /-- key slots in use, keyed 16·partition + slot (R336) -/
  keys : FMap KeySlot := []
  pairs : FMap KeyPair := []
  /-- measurements of Table 14.4; M_CODE and M_EK by partition, 0 while OPEN -/
  mFw : Line := 0
  mMicro : Line := 0
  mSet : Line := 0
  mCode : FMap Line := []
  mEk : FMap Line := []
  /-- last quote nonces (R333) -/
  nonces : FMap (BitVec 256) := []
  quote : Option Quote := none
  unwrap : Option Unwrap := none
  /-- loads, the running one first -/
  loads : List Load := []
  /-- AES-GCM engines 0-3 that run a chunk of the first load -/
  engines : FMap Chunk := []
  spdm : Spdm := {}
deriving DecidableEq, Repr

/-! ## Ladle arrays (chapter 8) -/

/-- A kernel (R182): its own copy of the descriptor, and what its completion record must name. -/
structure Kernel where
  thread : Nat
  /-- number of the operation -/
  op : Nat
  tag : BitVec 16
  fva : Nat
  bytes : BitVec 1024
  chk : BitVec 3
  pc : Nat
  /-- status and DETAIL, 0 while none other than OK has been met (R190) -/
  status : Nat := 0
  detail : Nat := 0
deriving DecidableEq, Repr

/-- A long accumulator: VALUE in units of 2^-149, its flags, and RES (Table 8.3). -/
structure LAcc where
  value : Int := 0
  pinf : Bool := false
  ninf : Bool := false
  nan : Bool := false
  inexact : Bool := false
  nz : Bool := true
  /-- VALUE mod 7, as the residue circuit forms it (R192) -/
  res : Nat := 0
deriving DecidableEq, Repr

/-- Rows of B that an LRA kernel has read for a group (R186): their bytes, check level, and whether they lie in a SEALED
range. -/
structure BRead where
  lines : List (Nat × Nat)
  level : Nat
  isSealed : Bool
deriving DecidableEq, Repr

/-- A kernel that a position runs (R186, R187). -/
structure KernelRun where
  k : Kernel
  /-- LRA: token group and tile within it (0: A·x); EGR: bag and tile within it -/
  group : Nat := 0
  tile : Nat := 0
  /-- work items ended so far -/
  items : Nat := 0
  /-- LRA: the t of the group, token by token -/
  temp : List Nat := []
  /-- LRA: B as read for the group, by the first output of the tile (R186) -/
  b : FMap BRead := []
  /-- flags of the completion record (Table 8.9, byte 11) -/
  flags : BitVec 5 := 0
  startTick : Nat
  /-- tick of the last Y write -/
  lastY : Option Nat := none
  /-- host ports that Y lines were written to -/
  ports : List Nat := []
  /-- the poisoned operand line met: line and sub-ID -/
  poison : Option (Nat × Nat) := none
  finished : Bool := false
  /-- the Y lines not written before it met poison have been written poisoned (R190) -/
  rested : Bool := false
deriving DecidableEq, Repr

/-- One logical position (R182 to R184). -/
structure LdlPos where
  queue : List Kernel := []
  running : Option KernelRun := none
  /-- what the quantum that runs is given to: 0 nothing, 1 reduction, 2 kernel work while both kinds waited, 3 kernel work with
  no reduction work waiting, 4 none, by the duty of the shed level (R366) -/
  quantum : Nat := 0
  /-- quanta of the 16 over which the duty is taken -/
  turn : Nat := 0
  /-- quanta in which both kinds waited, of the 16 under way, and how many of them went to kernel work -/
  both : Nat := 0
  kernelQuanta : Nat := 0
  /-- the last work item read a SEALED range (R399) -/
  isSealed : Bool := false
deriving DecidableEq, Repr

/-- The Ladle beside its registers. -/
structure LdlState where
  pos : FMap LdlPos := []
  /-- the long accumulators (R168), keyed 512·array + 8·cell + accumulator -/
  acc : FMap LAcc := []
  /-- kernels that complete without having run (R182, R188, R196) -/
  ended : List Kernel := []
  /-- the position whose array is being replaced, since this tick (R195) -/
  repl : Option (Nat × Nat) := none
deriving DecidableEq, Repr

/-! ## Collective Engine (chapter 9) -/

/-- A line of a collective held by a member: its data (two wire lines in Aligned mode), its poison, and which halves of it
have come. -/
structure ColLine where
  data : Nat := 0
  pz : Bool := false
  have_ : Nat := 0
deriving DecidableEq, Repr

/-- The SRC lines that a member has read for one line of a contribution (R201): one of each source, whether any is poisoned, and
what a read notes. -/
structure SrcRead where
  lines : List Nat
  pz : Bool
  level : Nat
  isSealed : Bool
deriving DecidableEq, Repr

/-- A collective entry (R204). -/
structure ColEntry where
  part : Nat
  cid : Nat
  thread : Nat := 0
  op : Nat := 0
  pc : Nat := 0
  tag : BitVec 16 := 0
  chk : BitVec 3 := 0
  /-- the descriptors of the batch, one for COLL -/
  descs : List (BitVec 1024) := []
  batch : Bool := false
  /-- FEID of each rank (R197), and this member's rank -/
  members : List Nat := []
  rank : Nat := 0
  /-- 0 requesting, 1 granted, 2 spill mode, 3 none needed (R205, R213) -/
  res : Nat := 0
  /-- positions at which SLOTS slots are reserved -/
  held : List Nat := []
  slots : Nat := 0
  /-- the positions active when the reservation was decided (R199) -/
  positions : List Nat := []
  /-- segments of the running phase that have started here: position, and lines still to be taken (R199, R207) -/
  started : FMap (Nat × Nat) := []
  reqAt : Nat := 0
  issuedAt : Nat := 0
  /-- members whose JOIN is held (R207) -/
  joined : List Nat := []
  /-- index of the phase that runs or comes next, and whether it runs -/
  phase : Nat := 0
  running : Bool := false
  /-- wire lines received in the phase, and those from each FEID -/
  got : Nat := 0
  gotFrom : FMap Nat := []
  /-- READY values held, keyed (4·step + round)·65,536 + FEID (R208) -/
  ready : FMap (Nat × Bool) := []
  /-- rounds of READY sent for the coming step -/
  rounds : Nat := 0
  /-- the agreed tick T and flag F of the coming step -/
  agreed : Option (Nat × Bool) := none
  /-- the step's switch has been asked for, and has completed -/
  asked : Bool := false
  switched : Bool := false
  /-- an earlier step has switched; the plan in force before the first switch (R210, R220) -/
  moved : Bool := false
  before : Nat := 0
  /-- plan named for the previous phase (R208) -/
  lastPlan : Nat := 0xFF
  /-- partials kept between phases, results, and reduced exponent bytes, keyed 2^40·descriptor + line (R201, R202) -/
  kept : FMap ColLine := []
  results : FMap ColLine := []
  exps : FMap Nat := []
  /-- SRC lines read in the pre-pass, which the reduce-scatter phase on A0 takes (R201), keyed as above -/
  src : FMap SrcRead := []
  /-- partials beyond the R201 size of the staging area, keyed by descriptor and line of the area -/
  excess : FMap ColLine := []
  /-- bits of byte 10 of the completion payload (Table 9.6) -/
  flags : BitVec 7 := 0
  startTick : Option Nat := none
  /-- tick at which the present wait for other members began, and that of the last collective packet from each FEID (R219) -/
  waitAt : Nat := 0
  rx : FMap Nat := []
  /-- the smallest abort epoch known, and DETAIL; the smallest one received (R219) -/
  abort : Option (Nat × Nat) := none
  heard : Option Nat := none
  status : Nat := 0
  detail : Nat := 0
  batchIdx : Nat := 0
  /-- host ports written to -/
  ports : List Nat := []
  poison : Option (Nat × Nat) := none
  /-- every phase and the closing step have ended -/
  done : Bool := false
  /-- an exchange that waits for its family (R215) -/
  waits : Bool := false
  /-- the exchange's table: ALLTOALLV records, or PERMUTE ranks (R213) -/
  table : List Nat := []
  /-- by rank: lines received, and lines announced by XDONE -/
  lines : FMap Nat := []
  announced : FMap Nat := []
  /-- blocks of the exchange not yet begun: receiver and packets; and the receivers of those in progress (R213) -/
  blocks : List (Nat × List Packet) := []
  sending : List Nat := []
deriving DecidableEq, Repr

/-- A reservation that RSV made ahead of COLL (R206). -/
structure ColRsv where
  part : Nat
  cid : Nat
  slots : Nat
  /-- as for an entry: 0 requesting, 1 granted, 2 spill mode -/
  res : Nat := 0
  held : List Nat := []
  reqAt : Nat
deriving DecidableEq, Repr

/-- An abort record (R221). -/
structure ColAbort where
  part : Nat
  cid : Nat
  epoch : Nat
  at_ : Nat
deriving DecidableEq, Repr

/-- The Collective Engine beside its registers. -/
structure ColState where
  entries : FMap ColEntry := []
  /-- collectives that complete without having taken an entry (R200, R204, R221) -/
  ended : List ColEntry := []
  rsvs : List ColRsv := []
  /-- abort records, newest first -/
  aborts : List ColAbort := []
  /-- control messages of collectives not yet issued here -/
  early : List Packet := []
deriving DecidableEq, Repr

/-! ## Telemetry and debug (chapter 17) -/

/-- The counter blocks, the trace buffer and the debug line buffer. -/
structure TelState where
  /-- the 8 MiB trace buffer, in 64-byte pieces -/
  buf : FMap Line := []
  /-- the latest block, in 64-byte pieces -/
  latest : FMap Line := []
  /-- counts with no register of their own that the blocks hold (R394), by byte offset in the block -/
  tally : FMap Nat := []
  /-- largest queue depths since the last block, keyed 8·link + VC -/
  depthMax : FMap Nat := []
  /-- blocks taken since the cold reset -/
  blocks : Nat := 0
  /-- an extra block has been asked for, at this tick -/
  extra : Option Nat := none
  /-- tick of the last block -/
  last : Option Nat := none
  /-- GLB_POWER_STATUS and REL_ALERT_CAUSE as the last boundary found them (step 1 of Table 2.4) -/
  atPower : Word := 0
  atAlert : Word := 0
  /-- the HIST_UNITS that is in effect up to the next boundary, where the register has been written since the last (R396) -/
  split : Option Nat := none
  /-- the debug line buffer -/
  line : Line := 0
  /-- a debug READ of a SEALED line waits for the Debug Epoch: line, tick (R341, R400) -/
  dbg : Option Nat := none
deriving DecidableEq, Repr

/-! ## Time (chapter 2) -/

/-- A timestamp: tick and phase units of 1/256 tick, as one count of phase units. -/
abbrev Stamp := Nat

/-- Time transfer over one link (R39), kept by port code. -/
structure Exch where
  /-- as parent: number of the next exchange, and the exchange whose T4 is to be returned -/
  num : Nat := 0
  t4 : Option (Nat × Stamp) := none
  /-- as child: exchange -> T1, T2, T3 -/
  open_ : FMap (Stamp × Stamp × Stamp) := []
  /-- as child: the last 16 offsets times 1,250, newest first -/
  offs : List Int := []
  /-- as child: twice the one-way delay of the last exchange, phase units (R39) -/
  delay2 : Int := 0
deriving DecidableEq, Repr

/-- Time transfer, time states and the election beside their registers. -/
structure TimeState where
  exch : FMap Exch := []
  /-- consecutive exchanges within 16 phase units with a LOCKED parent (Table 2.3) -/
  good : Nat := 0
  /-- the state to enter at the next boundary, and the GLB_TIME_EVENTS bits that this sets (R42) -/
  next : Option (Nat × Nat) := none
  /-- a switch of the selected reference at the next boundary (R32) -/
  sel : Option Bool := none
  /-- a step due at the next boundary, in whole ticks to be taken off (R388) -/
  step : Option Int := none
  /-- the single step of ACQUIRING has not been made -/
  mayStep : Bool := false
  /-- core cycles still to be removed, one per tick: positive where the module is ahead (R40) -/
  slew : Int := 0
  /-- the advertised master and the tick since which it has not changed (R388) -/
  adv : Nat := 0xFFFF
  advSince : Nat := 0
  /-- an election is running (Cruise C5, or later) -/
  electing : Bool := false
  /-- tick since which HOLDOVER has had no LOCKED parent (R43) -/
  alone : Option Nat := none
  /-- consecutive mismatched epochs, and EPOCH_IN ignored (R41) -/
  mismatch : Nat := 0
  ignoreEpoch : Bool := false
  /-- pulses of EPOCH_IN since the middle of the epoch before, one of them out of place, and whether EPOCH_SRC has been 1
  since then (R41) -/
  pulses : Nat := 0
  badPulse : Bool := false
  watching : Bool := false
  /-- steps 5 and 6 of this boundary wait for a plan switch or a phase start that is due at it (R45) -/
  credits : Bool := false
deriving DecidableEq, Repr

/-! ## Start-up (chapter 16) -/

/-- A fragment of a module's map message (Table 16.13). -/
structure MapFrag where
  mseq : Nat
  nfrag : Nat
  master : Nat
  /-- peer FEID and UP channels of each link -/
  links : List (Nat × Nat)
deriving DecidableEq, Repr

/-- Cruise beside its registers. -/
structure CruState where
  /-- this module's map sequence number -/
  mseq : Nat := 0
  /-- fragments held, keyed 4·FEID + fragment -/
  frags : FMap MapFrag := []
  /-- MSEQ of the newest READY of each module, plus 1 -/
  ready : FMap Nat := []
  /-- this module's map sequence number when it computed its routes -/
  routeSeq : Nat := 0
  /-- the map has changed since C8, or since routes were last computed -/
  stale : Bool := false
  /-- tick of the last change of the map (R389, R391) -/
  changedAt : Nat := 0
  /-- tick at which the phase began -/
  phaseAt : Nat := 0
  /-- tick at which C4 last began (R265) -/
  c4At : Nat := 0
  /-- the work of the phase in progress has begun -/
  begun : Bool := false
  /-- power good has come: regulators on and Cruise running -/
  on : Bool := false
  /-- RESET_N is asserted -/
  resetN : Bool := false
  /-- modules whose Route Table entry a ROUTES record has set (R381) -/
  fixed : FMap Bool := []
deriving DecidableEq, Repr

/-! ## Optics (chapter 11) -/

/-- Who asked for a light-plan switch (R260). -/
inductive SwitchBy
  | cmd
  /-- LP.SET of a thread, with its status register -/
  | lp (t : Nat) (st : BitVec 5)
  /-- the agreement of a collective -/
  | agreed (part cid : Nat)
  /-- the restoring switch of an aborted collective (R220) -/
  | restore
deriving DecidableEq, Repr

/-- A switch requested or running (R261). -/
structure PlanSwitch where
  plan : Nat
  /-- T -/
  tick : Nat
  by_ : SwitchBy
  /-- 0 requested, 1 started, 2 retuned, 3 fine search done, 4 acquiring -/
  stage : Nat := 0
  changed : List Nat := []
deriving DecidableEq, Repr

/-- Who holds the plan lock (R210, R249, R260). -/
inductive LockBy
  | cmd
  | lp (t : Nat)
  | coll (part cid : Nat)
deriving DecidableEq, Repr

/-- One ring's lock-in (R263), keyed 32·engine + ring. -/
structure Ring where
  /-- consecutive windows with an error below 2 codes -/
  good : Nat := 0
  locked : Bool := false
  /-- monitor power at lock, 0.01 dB -/
  power : Int := 0
  /-- consecutive windows with the power 6 dB below that -/
  low : Nat := 0
  /-- windows of acquire mode left -/
  acq : Nat := 0
  /-- tick at which the window that runs began -/
  winAt : Nat := 0
deriving DecidableEq, Repr

/-- A lightlane beside its registers. -/
structure OptLane where
  /-- tick at which the state was entered -/
  at_ : Nat := 0
  /-- consecutive windows in which check A failed on the modulator ring and on the drop ring -/
  failM : Nat := 0
  failD : Nat := 0
  /-- in VERIFY: check A has passed for both rings in one window; check B has passed -/
  okA : Bool := false
  okB : Bool := false
  /-- check B must pass on an IDENT received after check A (R268) -/
  strict : Bool := false
  /-- rings being swept, and since when -/
  sweepM : Bool := false
  sweepD : Bool := false
  sweepAt : Nat := 0
  /-- the drop ring's light is below the LOS level -/
  los : Bool := false
  /-- margin test: 0 none, 1 measuring, 2 measured and still transmitting, in C3 (R271, R272); since when, and ticks of that for
  which the engine's conversions went to lock-in (R264) -/
  test : Nat := 0
  testAt : Nat := 0
  paused : Nat := 0
  /-- tick at which the pilot window that runs began (R266) -/
  pilotAt : Nat := 0
  /-- training (R270): 0 done, 1 to 4 a stage of Table 12.2, 5 header lock after END, 6 fast training; and since when -/
  train : Nat := 0
  trainAt : Nat := 0
  /-- RX_READY received from the peer, and this receiver adapted -/
  peerReady : Bool := false
  ready : Bool := false
  /-- equaliser settings in use: those held for a line, or none, the commissioned defaults (R270) -/
  eq : Option Nat := none
  locked : Bool := false
deriving DecidableEq, Repr

/-- A dark window of this module (R276). -/
structure DarkWin where
  bank : Nat
  engine : Nat
  /-- W -/
  tick : Nat
  /-- peers with the notice number, and whether they have acknowledged -/
  notices : List (Nat × Nat × Bool)
  confirmed : Bool := false
  begun : Bool := false
deriving DecidableEq, Repr

/-- A margin test asked for or running (R274). -/
structure Margin where
  lanes : List Nat
  start : Nat
  /-- the tick of the GO -/
  asked : Nat := 0
  begun : Option Nat := none
deriving DecidableEq, Repr

/-- The light-plan store and the optics beside their registers. -/
structure OptState where
  /-- words of the plans in effect, keyed 257·plan + word -/
  plans : FMap Word := []
  stage : Option (Nat × FMap Word) := none
  /-- a plan is in force (R259) -/
  force : Bool := false
  lock : Option LockBy := none
  sw : Option PlanSwitch := none
  /-- plan and tick of a restoring switch (R220) that waits for the switch under way -/
  restore : Option (Nat × Nat) := none
  lanes : FMap OptLane := []
  rings : FMap Ring := []
  /-- windows beyond 1.5, 2.5 and 4.0 dB in a row, keyed 8·bank + source (R275) -/
  fade : FMap (Nat × Nat × Nat) := []
  /-- banks whose spare is warming or ready: the engine it is for, the tick at which warming began, inserted at once when ready -/
  spare : FMap (Nat × Nat × Bool) := []
  wins : List DarkWin := []
  /-- channels dark for a peer's window: channel, W (R277) -/
  peerDark : List (Nat × Nat) := []
  margin : Option Margin := none
  /-- engines with a ring in acquire mode, since when one has been (R264) -/
  acqAt : FMap Nat := []
  /-- equaliser settings held for a lightlane's lines, keyed 32·channel + line (R270) -/
  eqs : FMap Nat := []
deriving DecidableEq, Repr

/-! ## Electrical ports (chapter 12) and test injections -/

/-- A lane in training (Table 12.2). -/
structure ElkLane where
  /-- stage 1-5, 0 outside training, 6 stage 2 completed and waiting for the port's next retraining (R294) -/
  stage : Nat := 0
  /-- tick at which the stage began -/
  since : Nat := 0
  /-- the peer's RX_READY and this lane's own -/
  peerReady : Bool := false
  ready : Bool := false
  /-- left out of the training that runs (R291, R294) -/
  out : Bool := false
  /-- ACK for the peer's last request (Table 12.3) -/
  ack : Nat := 0
deriving DecidableEq, Repr

/-- An electrical port beside its registers. -/
structure ElkPort where
  /-- FEC272 and SKOIS of the peer's frames -/
  fec272 : Bool := false
  skois : Bool := false
  /-- tick of the last training attempt from stage 1 -/
  tryAt : Nat := 0
  /-- this end has sent EI and has not left idle since -/
  sentEi : Bool := false
  /-- tick at which something was last sent -/
  busyAt : Nat := 0
deriving DecidableEq, Repr

/-- A sequence of error injections on a lane (R299). -/
structure Inject where
  kind : Nat
  len : Nat
  left : Nat
  interval : Nat
  next : Nat
deriving DecidableEq, Repr

/-- What stands in a channel's stream on its way to the lanes, in order (R144). -/
inductive LineItem
  | word (w : BitVec 32)
  | ctrl (b : CtrlBlock)
deriving DecidableEq, Repr

/-- A block (R281): control or data, and its 256 payload bits, byte 0 lowest. -/
structure LineBlock where
  control : Bool
  bits : BitVec 256
deriving DecidableEq, Repr

/-- A run of identical symbols that a lane counts (R287). -/
structure Run where
  level : Fin 4 := 0
  count : Nat := 0
deriving DecidableEq, Repr

/-- The line code of one lane. -/
structure LaneCode where
  /-- scrambler and descrambler, bit 0 the most recent (R282) -/
  scr : BitVec 58 := 0
  descr : BitVec 58 := 0
  /-- message bits of the codeword under way (R284) -/
  msg : List Bool := []
  /-- transmit FIFO, oldest symbol first (R288), and a marker under way (R287) -/
  fifo : List (Fin 4) := []
  mark : List (Fin 4) := []
  txRun : Run := {}
  /-- symbols sent in the last block slot, and the 2,570ths of a symbol still due -/
  line : List (Fin 4) := []
  due : Nat := 0
  /-- blocks taken from the Switch Core in the period of R288 that runs -/
  taken : Nat := 0
  period : Nat := 0
  /-- the reserve is exhausted -/
  spent : Bool := false
  /-- receiver: run, symbols of a marker to come, bit of the codeword and of the block -/
  rxRun : Run := {}
  skip : Nat := 0
  rxPos : Nat := 0
  rxBlock : Nat := 0
  /-- markers sent and wrong markers met that the lane's counters do not hold yet -/
  markers : Nat := 0
  wrong : Nat := 0
  /-- injected errors to come (R299): symbols to flip, symbols of a burst, block headers to invert -/
  flip : Nat := 0
  burst : Nat := 0
  invert : Nat := 0
deriving DecidableEq, Repr

/-- A channel's blocks on their way to its lanes, and the lane whose turn it is in the deal (R144, R289). -/
structure LineStream where
  items : List LineItem := []
  turn : Nat := 0
deriving DecidableEq, Repr

/-- The electrical ports, and the injections of electrical lanes (key 256 + lane) and lightlanes (key channel). -/
structure ElkState where
  lanes : FMap ElkLane := []
  ports : FMap ElkPort := []
  inject : FMap Inject := []
  /-- line codes, by lane as the injections are keyed, and streams by channel -/
  codes : FMap LaneCode := []
  streams : FMap LineStream := []
deriving DecidableEq, Repr

/-! ## The settings store and the management controller (chapter 16) -/

/-- A PROGRAM under way (R383). -/
structure Prog where
  src : Nat
  bank : Nat
  start : Nat
deriving DecidableEq, Repr

/-- A response kept for a management source address (R412). -/
structure Kept where
  src : BitVec 32
  seq : BitVec 32
  tick : Nat
  op : Nat
  status : Nat
  off : BitVec 64
  value : Word
deriving DecidableEq, Repr

/-- The flash and the controller beside their registers. -/
structure MgtState where
  /-- flash content (R377, R378); erased flash reads 0xFF -/
  flash : FMap Byte := []
  /-- offset in the active bank's journal of the next record, and its JSEQ (R382) -/
  jptr : Nat := 0
  jseq : Nat := 0
  /-- current value of each journal item, keyed 65,536·item + index -/
  items : FMap Nat := []
  prog : Option Prog := none
  /-- tick at which a firmware swap began (R385) -/
  swap : Option Nat := none
  /-- tick at which a lockstep restart of the controller began (R344) -/
  restart : Option Nat := none
  /-- the I3C dynamic address (R413) -/
  i3c : Option (BitVec 7) := none
  /-- responses of management datagrams, newest first (R412) -/
  kept : List Kept := []
deriving DecidableEq, Repr

/-! ## JTAG (chapter 17) -/

/-- What the boundary scan does to the contacts (R402). -/
inductive Drive
  /-- functional use -/
  | none
  /-- EXTEST: driven from the boundary scan -/
  | scan
  /-- CLAMP: held at the boundary scan's values -/
  | clamp
  /-- HIGHZ: floating -/
  | float
  /-- EXTEST_PULSE, EXTEST_TRAIN: the 1149.6 tests on AC-coupled lanes -/
  | pulse
  | train
deriving DecidableEq, Repr

/-- The test access port (R401 to R403). In Test-Logic-Reset IDCODE is the instruction, as IEEE 1149.1 has it. -/
structure Jtag where
  /-- instruction in effect (Table 17.6) -/
  ir : BitVec 8 := 0x01
  drive : Drive := .none
  /-- contacts as last captured, and the cells as last updated -/
  captured : Nat := 0
  cells : Nat := 0
  /-- what the selected data register captures -/
  dr : Nat := 0
  /-- DATA of the last CSR_ACCESS, none where no access has completed -/
  csr : Option Word := none
deriving DecidableEq, Repr

/-! ## What the module sends outside, and the whole state -/

/-- Something the module sends outside; the model's own record of it (log entry 4). -/
inductive Output
  /-- an MSI-X message -/
  | msix (port vec : Nat)
  /-- a packet sent on a channel, with its trailer stomped or not -/
  | packet (c : Nat) (p : Packet) (stomp : Bool)
  /-- a link control block sent on a channel -/
  | control (c : Nat) (b : CtrlBlock)
  /-- the control word of the training frames that a lane sends from now on (Table 12.3) -/
  | frame (lane : Nat) (word : BitVec 32)
  /-- an error injected into the symbol stream of a lane (R299): lightlane, or 256 + electrical lane -/
  | inject (lane kind len : Nat)
  /-- the data that a CXL.mem read returns to the host -/
  | cxlData (port : Nat) (data : Line) (poison : Bool)
  /-- the CXL.mem completion of a write -/
  | cxlCmp (port : Nat)
  /-- a CXL.cache RdShared of a line of host memory (R318) -/
  | rdShared (port line : Nat)
  /-- the answer to a snoop: hit in Shared or miss (R318) -/
  | snoopRsp (port line : Nat) (hit : Bool)
  /-- a CXL.io Memory Read, with the PASID it carries (R315, R312) -/
  | hostRead (port hpa : Nat) (pasid : Option Nat)
  /-- a CXL.io Memory Write of `count` bytes from byte `first` of a line -/
  | hostWrite (port hpa first count : Nat) (data : Line) (poison : Bool) (pasid : Option Nat)
  /-- a PCIe AtomicOp: 0 FetchAdd, 1 Swap, 2 CAS (R316) -/
  | hostAtomic (port hpa op width a b : Nat) (pasid : Option Nat)
  /-- a flush read (R102) -/
  | hostFlush (port : Nat) (pasid : Option Nat)
  /-- the answer to a configuration request: Configuration Request Retry Status, or a value (R302) -/
  | config (port : Nat) (retry : Bool) (value : BitVec 32)
  /-- the answer of the SPDM responder on a host port (R335) -/
  | spdm (port : Nat) (r : SpdmRsp)
  /-- an I3C transfer: the 16 bytes of a private read, or NACK (R413) -/
  | i3cId (pid : BitVec 48)
  | i3cRead (data : BitVec 128)
  | i3cNack
  /-- a management datagram's response (R412) -/
  | datagram (src seq : BitVec 32) (op status : Nat) (off : BitVec 64) (value : Word)
  /-- what a control-space read answers (R6) -/
  | readData (via : Via) (off : Nat) (value : Word)
deriving DecidableEq, Repr

/-- The whole state of the block. -/
structure State where
  /-- control-space registers, by offset -/
  regs : FMap Word
  /-- HBM content, byte by byte (R374: what nothing has written reads 0) -/
  hbm : FMap Byte
  /-- 64 KiB units of HBM that have been written (R374) -/
  units : FMap Bool
  /-- HBM lines marked poisoned (R348) -/
  poison : FMap Bool
  /-- shadow counts of counter fields, keyed 64·offset + lowest bit (R394) -/
  shadow : FMap Nat
  threads : FMap Thread
  watch : FMap Watch
  /-- watch lines with a reported write not yet evaluated, oldest first (R55) -/
  reports : List Nat
  /-- instruction-cache lines, keyed by sequencer, FVA line and tag (R62) -/
  icache : FMap Line
  /-- engine instructions whose descriptor read is under way (R241) -/
  descs : List EngineOp
  xlt : XltState
  siv : SieveState
  skids : FMap Skid
  /-- slots in use, keyed 256·Skidder + slot -/
  slots : FMap Slot
  home : HomeState
  swc : SwcState
  rel : RelState
  pwr : PwrState
  hst : HstState
  sec : SecState
  ldl : LdlState
  col : ColState
  tel : TelState
  tim : TimeState
  cru : CruState
  opt : OptState
  elk : ElkState
  mgt : MgtState
  jtag : Jtag
  /-- order numbers handed out to requests -/
  issued : Nat
  /-- counter of free values used (the model's own field, log entry 4) -/
  free : Nat
  /-- what has been sent outside, newest first (the model's own field, log entry 4) -/
  out : List Output
  /-- the commands that are waiting, first in first out -/
  pending : List Instr
deriving DecidableEq, Repr

/-- The machine right after a cold reset at power-up, before Cruise C1 (log entry 1). -/
def State.reset : State where
  regs := []
  hbm := []
  units := []
  shadow := []
  poison := []
  threads := []
  watch := []
  reports := []
  icache := []
  descs := []
  xlt := {}
  siv := {}
  skids := []
  slots := []
  home := {}
  swc := {}
  rel := {}
  pwr := {}
  hst := {}
  sec := {}
  ldl := {}
  col := {}
  tel := {}
  tim := {}
  cru := {}
  opt := {}
  elk := {}
  mgt := {}
  jtag := {}
  issued := 0
  free := 0
  out := []
  pending := []

/-- The reasons for which a command stops the block: none. The spec gives every command of the table an effect, and this
model carries it out in every state, so no command faults and nothing raises one. -/
inductive Fault
deriving DecidableEq, Repr

/-- The reasons for which a command has no meaning here. -/
inductive Refusal
  /-- The command has no meaning in this model yet; raised by exec's refused arms only; safe. -/
  | notModelled (mnemonic : String)
deriving DecidableEq, Repr

end Sys2Proof.Machine
end

