-- ==== Sys2Proof/Machine/Ops.lean ====
section
/-! DEFINITION. The named operations that every meaning is written in: registers and their fields, HBM, free values,
MSI-X, alerts, the logs and the fault rings. -/

namespace Sys2Proof.Machine

open Sys2Proof

/-- What every meaning answers. -/
abbrev Result := Host.Outcome State Fault Refusal

/-! ## Registers -/

/-- What an unlisted register reads as: the numeric reset values of the register headings, and the values the model
names for hardware-determined fields (log entry 2); 0 for all others. -/
def regDefault (o : Nat) : Word :=
  if o = 0x108 then 0x0000FFFFFFFF0000#64
  else if o = 0x4000 then 0x42#64
  else if 0x319000 ≤ o ∧ o < 0x319200 then 14#64
  else if o = 0xB00000 then 0x3400#64
  else if o = 0x600000 then 0x4030#64
  else if o = 0x600008 then 0x4000100#64
  else if o = 0x600010 ∨ o = 0x600018 then 0x0404040404040404#64
  else if o = 0x600020 then 0x6060606060606060#64
  else if o = 0x600028 then 0xC0C0C0C0C0C0C0C0#64
  else if 0x601000 ≤ o ∧ o < 0x601000 + 8 * 262 then 0x1FFFE00#64
  else if o = 0x900310 then 4#64
  else if o = 0xA00008 then 0x804#64
  else if o = 0x800018 then 0x0096100008000D88#64
  else if o = 0x800020 then 0x14282814#64
  else if o = 0x800030 then 0x100#64
  else if 0x800200 ≤ o ∧ o < 0x800300 ∧ o % 0x40 < 0x28 then 0xF800000000#64
  else if o = 0xE00018 then 0x20#64
  else if o = 0x900000 then 0x10FFFF#64
  else if 0x900100 ≤ o ∧ o < 0x900180 then BitVec.ofNat 64 ((o - 0x900100) / 8 + 64 * 256)
  else 0#64

/-- The whole register at an offset. -/
def State.reg (s : State) (o : Nat) : Word := FMap.get regDefault s.regs o

/-- Set a whole register. -/
def State.setReg (s : State) (o : Nat) (v : Word) : State := { s with regs := FMap.set regDefault s.regs o v }

/-- A register field's value. -/
def State.fld (s : State) (f : Field) : Nat := getBits (s.reg f.off).toNat f.lo f.w

/-- Whether a one-bit field (or any field) is not 0. -/
def State.flag (s : State) (f : Field) : Bool := s.fld f != 0

/-- Set a register field to the low bits of a value. -/
def State.setFld (s : State) (f : Field) (v : Nat) : State :=
  s.setReg f.off (BitVec.ofNat 64 (putBits (s.reg f.off).toNat f.lo f.w v))

/-- Set a bit of a W1C or status register. -/
def State.raise (s : State) (f : Field) : State := s.setFld f 1

/-- Add to a field, wrapping at its width. -/
def State.addFld (s : State) (f : Field) (n : Nat) : State := s.setFld f (s.fld f + n)

/-- Add to a field, saturating at its width. -/
def State.satFld (s : State) (f : Field) (n : Nat) : State := s.setFld f (satBits f.w (s.fld f + n))

/-- Count an event in a counter field and in its shadow, which reads never clear (R394). -/
def State.count (s : State) (f : Field) (n : Nat := 1) : State :=
  let k := 64 * f.off + f.lo
  let s := s.addFld f n
  { s with shadow := FMap.set (fun _ => 0) s.shadow k ((FMap.get (fun _ => 0) s.shadow k + n) % 2 ^ 64) }

/-- The shadow count of a counter field (R394). -/
def State.shadowOf (s : State) (f : Field) : Nat := FMap.get (fun _ => 0) s.shadow (64 * f.off + f.lo)

/-- The hall tick count. -/
def State.tick (s : State) : Nat := s.fld R.GLB_TICK.TICK

/-- This module's FEID. -/
def State.feid (s : State) : Nat := s.fld R.GLB_FEID.FEID

/-- A partition's current tenancy tag (R68). -/
def State.tagOf (s : State) (p : Nat) : BitVec 16 := BitVec.ofNat 16 (p * 1024 + s.fld (R.PRT_STATUS.GEN p))

/-- The partition of a tenancy tag. -/
def partOf (tag : BitVec 16) : Nat := tag.toNat / 1024

/-- The generation of a tenancy tag. -/
def genOf (tag : BitVec 16) : Nat := tag.toNat % 1024

/-! ## Free values -/

/-- A value that the spec leaves open, and the state with the counter advanced. -/
def State.fresh (s : State) : Nat × State := (Config.freeNat s.free, { s with free := s.free + 1 })

/-- Count in a count that only the counter blocks show, by its byte offset in the block (Table 17.1). -/
def State.tally (s : State) (k : Nat) (n : Nat := 1) : State :=
  let m := FMap.set (fun _ => 0) s.tel.tally k ((FMap.get (fun _ => 0) s.tel.tally k + n) % 2 ^ 64)
  { s with tel := { s.tel with tally := m } }

/-! ## Sending outside -/

/-- Send something outside. -/
def State.send (s : State) (o : Output) : State := { s with out := o :: s.out }

/-! ## HBM -/

/-- Bytes of HBM: 288 GB. -/
def hbmBytes : Nat := 288000000000

/-- The last byte of software-visible memory plus 1: below the fixed 400 MiB and the spill area (Table 1.9, R202). -/
def State.visibleEnd (s : State) : Nat := hbmBytes - 400 * 2 ^ 20 - 64 * s.fld R.COL_SPILL.WINDOW_MIB * 2 ^ 20

/-- Whether an HBM byte address range is software-visible. -/
def State.visible (s : State) (addr len : Nat) : Bool := decide (addr + len ≤ s.visibleEnd)

/-- What a byte that nothing has written reads as (R374). -/
def byteDefault (_ : Nat) : Byte := 0#8

/-- One byte of HBM. -/
def State.byte (s : State) (a : Nat) : Byte := FMap.get byteDefault s.hbm a

/-- Bytes `a`, ..., `a + n - 1` of HBM. -/
def State.bytes (s : State) (a n : Nat) : List Byte := (upFrom a n).map s.byte

/-- Little-endian number at an HBM address (R4). -/
def State.readNat (s : State) (a n : Nat) : Nat := ofLeBytes (s.bytes a n)

/-- The 64 bytes of HBM line `h`. -/
def State.readLine (s : State) (h : Nat) : Line := lineOf (s.bytes (64 * h) 64)

/-- A line with `count` bytes from `first` taken from `data`. -/
def mergeLine (old data : Line) (first count : Nat) : Line :=
  BitVec.ofNat 512 (putBits old.toNat (8 * first) (8 * count) (getBits data.toNat (8 * first) (8 * count)))

/-- Write a list of bytes from an address. -/
def writeCells (m : FMap Byte) (a : Nat) : List Byte → FMap Byte
  | [] => m
  | b :: r => writeCells (FMap.set byteDefault m a b) (a + 1) r

/-- Write bytes to HBM; the unit written counts as written (R374). Addresses beyond the device hold nothing. -/
def State.putBytes (s : State) (a : Nat) (bs : List Byte) : State :=
  if a + bs.length > hbmBytes then s else
  { s with hbm := writeCells s.hbm a bs, units := FMap.set (fun _ => false) s.units (a / 65536) true }

/-- Whether an HBM line is marked poisoned. -/
def State.isPoison (s : State) (h : Nat) : Bool := FMap.get (fun _ => false) s.poison h

/-- Mark or clear an HBM line's poison. -/
def State.setPoison (s : State) (h : Nat) (v : Bool) : State :=
  { s with poison := FMap.set (fun _ => false) s.poison h v }

/-- Watch lines of module memory that observe HBM line `h` in a state that evaluates reports (R55, R57). -/
def State.watchers (s : State) (h : Nat) : List Nat :=
  s.watch.foldr (fun e r =>
    if (e.2.state = 2 ∨ e.2.state = 3 ∨ e.2.state = 4)
        ∧ s.fld (R.SEQ_WATCH_ADDR.TARGET e.1) = 0 ∧ s.fld (R.SEQ_WATCH_ADDR.LINE e.1) = h
    then e.1 :: r else r) []

/-- The Home Unit's report of a write it has performed on HBM line `h` (R55). -/
def State.report (s : State) (h : Nat) : State := { s with reports := s.reports ++ s.watchers h }

/-- A write performed by the Home Unit: `count` bytes of `data` from byte `first` of HBM line `h`, and the line's
poison afterwards; the watch lines are told (R55). -/
def State.homeWrite (s : State) (h first count : Nat) (data : Line) (poison : Bool) : State :=
  ((s.putBytes (64 * h + first) (((lineBytes data).drop first).take count)).setPoison h poison).report h

/-! ## MSI-X (R319) -/

/-- The MSI-X state of a port. -/
def State.msixOf (s : State) (n : Nat) : Msix := FMap.get (fun _ => {}) s.hst.msix n

/-- Set the MSI-X state of a port. -/
def State.setMsix (s : State) (n : Nat) (m : Msix) : State :=
  { s with hst := { s.hst with msix := FMap.set (fun _ => {}) s.hst.msix n m } }

/-- A source fires on vector `v` of port `n`: nothing while MSI-X is disabled, a pending bit while masked, else a
message (R319). -/
def State.msix (s : State) (n v : Nat) : State :=
  let m := s.msixOf n
  if !m.enabled then s
  else if m.fmask || FMap.get (fun _ => true) m.vmask v then
    s.setMsix n { m with pending := FMap.set (fun _ => false) m.pending v true }
  else s.send (.msix n v)

/-! ## Alerts (R360, R361) -/

/-- Whether ALERT_N is asserted (R360). -/
def State.alert (s : State) : Bool :=
  (s.reg R.REL_ALERT_CAUSE.adr &&& ~~~ s.reg R.REL_ALERT_MASK.adr) % 2048 != 0

/-- Signal the alert vector on every port that has it enabled (R361). -/
def State.alertVectors (s : State) : State :=
  (upFrom 0 4).foldl (fun s n =>
    if s.flag (R.REL_ALERT_VEC.EN n) then s.msix n (s.fld (R.REL_ALERT_VEC.VECTOR n)) else s) s

/-- Set cause bit `i`; an unmasked bit that goes from 0 to 1 signals the ports (R360, R361). -/
def State.alarm (s : State) (i : Nat) : State :=
  let new := !bitOf (s.reg R.REL_ALERT_CAUSE.adr).toNat i
  let s := s.setFld ⟨R.REL_ALERT_CAUSE.adr, i, 1⟩ 1
  if new && !bitOf (s.reg R.REL_ALERT_MASK.adr).toNat i then s.alertVectors else s

/-- Set an event bit that also sets a cause bit (Table 15.13). -/
def State.event (s : State) (f : Field) (cause : Nat) : State := (s.raise f).alarm cause

/-- An SWC_EVENTS or ELK_EVENTS bit (cause LINK). -/
def State.linkEvent (s : State) (f : Field) : State := s.event f 2

/-- An OPT_EVENTS bit (cause OPTICS). -/
def State.optEvent (s : State) (f : Field) : State := s.event f 3

/-- A lightlane's record. -/
def State.lane (s : State) (c : Nat) : OptLane := FMap.get (fun _ => {}) s.opt.lanes c

/-- What the pattern generator of a lane sends (R271, R272, R297): PRBS31Q in a margin test, else PATTERN with TEST and GEN_EN; none
where it is off. The key is a lightlane, or 256 + electrical lane. -/
def State.generator (s : State) (c : Nat) : Option Nat :=
  if 256 ≤ c then
    if s.flag (R.ELK_LANE_CTL.TEST (c - 256)) ∧ s.flag (R.ELK_LANE_CTL.GEN_EN (c - 256)) then
      some (s.fld (R.ELK_LANE_CTL.PATTERN (c - 256)))
    else none
  else if (s.lane c).test ≠ 0 then some 1
  else if s.flag (R.OPT_LANE_TEST.TEST c) ∧ s.flag (R.OPT_LANE_TEST.GEN_EN c) then some (s.fld (R.OPT_LANE_TEST.PATTERN c))
  else none

/-- Whether a lightlane is in test (R271). -/
def State.inTest (s : State) (c : Nat) : Bool := s.flag (R.OPT_LANE_TEST.TEST c) || (s.lane c).test != 0

/-! ## Logs (R362 to R364) -/

/-- Advance log `k` past the record just written; a full ring loses its oldest record (R362). -/
def State.logAdvance (s : State) (k : Nat) : State :=
  let prod := (s.fld (R.REL_LOG_IDX.PROD k) + 1) % 2 ^ 19
  let s := s.setFld (R.REL_LOG_IDX.PROD k) prod
  let cons := s.fld (R.REL_LOG_IDX.CONS k)
  if (prod + 2 ^ 19 - cons) % 2 ^ 19 > 2 ^ 18 then
    (((s.setFld (R.REL_LOG_IDX.CONS k) ((cons + 1) % 2 ^ 19)).count (R.REL_LOG_IDX.OVERWRITTEN k)).alarm 10)
  else s

/-- Pack byte-wide fields: (lowest bit, value) pairs. -/
def packBits (l : List (Nat × Nat)) : Nat := l.foldl (fun n e => n + e.2 * 2 ^ e.1) 0

/-- Write a fault record (Tables 15.9 and 15.10). -/
def State.faultLog (s : State) (code tag kind number info0 info1 : Nat) : State :=
  let r := packBits [(0, 0x10), (16, code), (32, tag), (48, number % 512), (57, kind), (64, s.tick % 2 ^ 64),
    (128, info0 % 2 ^ 64), (192, info1 % 2 ^ 64)]
  let slot := s.fld (R.REL_LOG_IDX.PROD 0) % 2 ^ 18
  let s := { s with rel := { s.rel with faultLog := FMap.set (fun _ => 0) s.rel.faultLog slot (BitVec.ofNat 256 r) } }
  s.logAdvance 0

/-- What a poison record says beside the time (Table 15.11). -/
structure PoisonRec where
  consumed : Bool
  wher : Nat
  kill : Bool := false
  lineNo : Option (Nat × Nat) := none
  tag : Nat := 0
  feid : Nat
  info : Nat := 0
deriving DecidableEq, Repr

/-- Write a poison record, and set cause POISON (R364). -/
def State.poisonLog (s : State) (r : PoisonRec) : State :=
  let (line, sub, lv) := match r.lineNo with
    | none => (0, 0, 0)
    | some (l, b) => (l, b, 1)
  let n := packBits [(0, 0x11), (8, if r.consumed then 2 else 1), (16, r.wher), (20, b2n r.kill), (24, sub), (27, lv),
    (32, r.tag), (48, r.feid), (64, s.tick % 2 ^ 64), (128, line), (192, r.info % 2 ^ 64)]
  let slot := s.fld (R.REL_LOG_IDX.PROD 1) % 2 ^ 18
  let s := { s with rel := { s.rel with poisonLog := FMap.set (fun _ => 0) s.rel.poisonLog slot (BitVec.ofNat 256 n) } }
  ((s.logAdvance 1).tally 1896).alarm 5

/-- A host's poisoned write to a fabric line is sent with PZ: the CREATED record of poison from a host (R348, R364, Table
13.4), since the home that the packet poisons writes none. -/
def State.poisonSent (s : State) (line sub tag : Nat) (pz : Bool) : State :=
  if pz then s.poisonLog { consumed := false, wher := 4, lineNo := some (line, sub), tag := tag, feid := s.feid, info := 0 }
  else s

/-- Set GLB_TIME_EVENTS bits; the bits newly set write one fault record, and each set bit raises the TIME alert
(Table 2.10, Table 15.10). -/
def State.timeEvents (s : State) (mask : Nat) : State :=
  let old := (s.reg R.GLB_TIME_EVENTS.adr).toNat
  let new := mask &&& (511 - old % 512)
  let s := s.setReg R.GLB_TIME_EVENTS.adr (BitVec.ofNat 64 (old ||| mask))
  let s := s.alarm 1
  if new = 0 then s else s.faultLog 0x0101 0 0 0 new (s.reg R.GLB_TIME_STATUS.adr).toNat

/-! ## Fault rings (R65) -/

/-- Write one 32-byte record to a partition's fault ring, advance PROD, and signal; no record and FAULT_OVERFLOW where
the ring is disabled or full (R65). A vector goes only to ports to which the partition is mapped (R311). -/
def State.ringRecord (s : State) (p : Nat) (rec : Nat) : State :=
  let prod := s.fld (R.PRT_FAULT_IDX.PROD p)
  let cons := s.fld (R.PRT_FAULT_IDX.CONS p)
  let log2n := s.fld (R.PRT_FAULT_BASE.LOG2N p)
  if !s.flag (R.PRT_FAULT_IDX.ENABLE p) || log2n < 4 || (prod + 2 ^ 16 - cons) % 2 ^ 16 == 2 ^ log2n then
    s.raise (R.PRT_STATUS.FAULT_OVERFLOW p)
  else
    let a := 64 * s.fld (R.PRT_FAULT_BASE.BASE p) + 32 * (prod % 2 ^ log2n)
    let s := (s.putBytes a (leBytes 32 rec)).report (a / 64)
    let s := s.setFld (R.PRT_FAULT_IDX.PROD p) ((prod + 1) % 2 ^ 16)
    (upFrom 0 4).foldl (fun s n =>
      if bitOf (s.fld (R.PRT_FAULT_VEC.PORTS p)) n && bitOf (s.reg (R.HST_PART_MAP.adr n)).toNat p then s.msix n (s.fld (R.PRT_FAULT_VEC.VECTOR p)) else s) s

end Sys2Proof.Machine
end

