-- ==== Sys2Proof/Machine/Packet.lean ====
section
/-! DEFINITION. Packets: operations and their fields (R133 to R138), header and trailer codes (R134, R135), byte masks
and counts (R137). -/

namespace Sys2Proof.Machine

open Sys2Proof

/-- Operations (Table 7.2). -/
def opREAD : Nat := 1
def opWRITE : Nat := 2
def opATOM : Nat := 3
def opREDADD : Nat := 4
def opREDMIN : Nat := 5
def opREDMAX : Nat := 6
def opBREAD : Nat := 7
def opBWRITE : Nat := 8
def opINVL : Nat := 9
def opINV : Nat := 10
def opOWNACQ : Nat := 11
def opOWNREL : Nat := 12
def opWB : Nat := 13
def opMCOPY : Nat := 14
def opMATOM : Nat := 15
def opCOLL : Nat := 16
def opXCHG : Nat := 17
def opCOLLCTL : Nat := 18
def opMGMT : Nat := 19
def opRSP : Nat := 20
def opRSPDATA : Nat := 21
def opRSPATOM : Nat := 22

/-- OP of a packet: OPCODE[6:2]. -/
def Packet.op (p : Packet) : Nat := getBits p.opcode.toNat 2 5

/-- HC of a packet: OPCODE[7]. -/
def Packet.hc (p : Packet) : Bool := bitOf p.opcode.toNat 7

/-- FORM of a packet: OPCODE[1:0]. -/
def Packet.form (p : Packet) : Nat := p.opcode.toNat % 4

/-- OPCODE from HC, OP and FORM. -/
def opcodeOf (hc : Bool) (op form : Nat) : BitVec 8 := BitVec.ofNat 8 (b2n hc * 128 + op * 4 + form)

/-- The VC of an operation, none where OP is reserved (Table 7.2). -/
def vcOf (op : Nat) : Option Nat :=
  if op = 0 then none
  else if op ≤ 6 then some 0
  else if op ≤ 8 then some 5
  else if op ≤ 13 then some 6
  else if op ≤ 15 then some 4
  else if op = 16 then some 2
  else if op = 17 then some 3
  else if op ≤ 19 then some 7
  else if op ≤ 22 then some 1
  else none

/-- Payload bytes of an operation (Table 7.2). -/
def payloadBytes (op : Nat) : Nat :=
  if op = opATOM ∨ op = opCOLLCTL then 16
  else if op = opMATOM then 80
  else if op = opRSPATOM then 8
  else if op = opWRITE ∨ op = opREDADD ∨ op = opREDMIN ∨ op = opREDMAX ∨ op = opBWRITE ∨ op = opWB
      ∨ op = opMCOPY ∨ op = opCOLL ∨ op = opXCHG ∨ op = opMGMT ∨ op = opRSPDATA then 64
  else 0

/-- Length of a packet on a link: header, payload, trailer (R133). -/
def Packet.len (p : Packet) : Nat := 28 + payloadBytes p.op

/-- Whether an operation is a response. -/
def isResponse (op : Nat) : Bool := op == opRSP || op == opRSPDATA || op == opRSPATOM

/-- Whether an operation is atomic-class (R22). -/
def isAtomicClass (op : Nat) : Bool :=
  op == opATOM || op == opREDADD || op == opREDMIN || op == opREDMAX || op == opOWNACQ || op == opOWNREL

/-- Whether an operation is a request that a response answers. -/
def isRequest (op : Nat) : Bool := decide (1 ≤ op ∧ op ≤ 15)

/-- The operation of the response to a request (Table 7.2). -/
def responseOp (op : Nat) : Nat :=
  if op = opREAD ∨ op = opBREAD then opRSPDATA
  else if op = opATOM ∨ op = opOWNACQ ∨ op = opOWNREL then opRSPATOM
  else opRSP

/-- The low line of a payload. -/
def Packet.data (p : Packet) : Line := BitVec.ofNat 512 p.payload.toNat

/-- Header bytes 0 to 21 as a number (Table 7.1). -/
def Packet.header (p : Packet) : Nat :=
  packBits [(0, p.dst.toNat), (16, p.src.toNat), (32, p.tag.toNat), (48, p.opcode.toNat), (56, p.vc.toNat),
    (59, b2n p.ordered), (60, b2n p.pz), (61, b2n p.mr), (62, b2n p.last), (64, p.line.toNat), (110, p.sub.toNat),
    (113, p.dl.toNat), (115, p.status.toNat), (119, p.hops.toNat), (128, p.eng.toNat), (135, p.slot.toNat),
    (144, p.bmc.toNat), (160, p.lseq.toNat)]

/-- HCRC: over header bytes 0 to 21 (R134). -/
def Packet.hcrc (p : Packet) : BitVec 16 := crc16 (leBytes 22 p.header)

/-- The trailer: CRC-32C over the header with the fields that may change set to 0, then the payload (R135). -/
def Packet.trailer (p : Packet) : BitVec 32 :=
  let q := { p with dst := 0, src := 0, tag := 0, pz := false, dl := 0, hops := 0 }
  crc32c (leBytes 22 q.header ++ leBytes (payloadBytes p.op) p.payload.toNat)

/-- Whether R136 makes the packet a bad encoding. -/
def Packet.badEncoding (p : Packet) : Bool :=
  let resp := isResponse p.op
  match vcOf p.op with
  | none => true
  | some v =>
    p.vc.toNat != v || decide (p.dl.toNat ≥ 2)
      || (p.form != 0 && !(isAtomicClass p.op || resp))
      || p.form == 3
      || (p.hc && !(p.op == opREAD || p.op == opWRITE || resp))

/-- The response to a request, with STATUS and payload (R138). -/
def Packet.reply (p : Packet) (me : Nat) (status : Nat) (payload : Nat) (pz : Bool := false) : Packet :=
  { dst := p.src, src := BitVec.ofNat 16 me, tag := p.tag, opcode := opcodeOf p.hc (responseOp p.op) p.form, vc := 1,
    pz := pz, line := p.line, sub := p.sub, status := BitVec.ofNat 4 status, eng := p.eng, slot := p.slot,
    bmc := p.bmc, lseq := p.lseq, payload := BitVec.ofNat 640 payload }

/-- A status-only RSP for a discarded request (R141). -/
def Packet.refusal (p : Packet) (me status : Nat) : Packet :=
  { p.reply me status 0 with opcode := opcodeOf p.hc opRSP p.form }

/-! ## Statuses (Table 1.10) -/

def sOK : Nat := 0
def sPOISON : Nat := 1
def sXLATE : Nat := 2
def sDENY : Nat := 3
def sSTALE : Nat := 4
def sTIMEOUT : Nat := 5
def sUNREACH : Nat := 6
def sABORTED : Nat := 7
def sUNKNOWN : Nat := 8
def sNORES : Nat := 9
def sSEALED : Nat := 10
def sHOST : Nat := 11
def sCHECK : Nat := 12

/-! ## Atomic operations and types (Tables 6.2 and 7.4) -/

/-- Width in bytes of a type code, 0 where the code has none. -/
def typeWidth (ty : Nat) : Nat :=
  if ty = 0 ∨ ty = 2 ∨ ty = 4 then 4 else if ty = 1 ∨ ty = 3 ∨ ty = 5 then 8 else if ty = 6 ∨ ty = 7 then 2 else 0

/-- Whether Table 6.2 lists an atomic operation with a type. -/
def atomListed (op ty : Nat) : Bool :=
  if op = 0 ∨ (1 ≤ op ∧ op ≤ 5) then decide (ty ≤ 1)
  else if op = 6 ∨ op = 7 then decide (ty ≤ 3)
  else if 8 ≤ op ∧ op ≤ 10 then decide (ty = 4 ∨ ty = 5)
  else false

/-- Whether a RED lane type is listed: INT32, INT64, FP32, BF16, FP16. -/
def redListed (ty : Nat) : Bool := decide (ty = 0 ∨ ty = 1 ∨ ty = 4 ∨ ty = 6 ∨ ty = 7)

/-- Whether a request's BMC is valid for its operation (R137, Table 7.3). MATOM names the original operation with HC and FORM 0
and its operand byte, whose alignment is judged by the narrowest type that the operation takes, since MATOM carries no type; an
ownership request has none (log entry 65). -/
def Packet.bmcValid (p : Packet) : Bool :=
  let b := p.bmc.toNat
  if p.op = opREAD ∨ p.op = opBREAD ∨ p.op = opOWNACQ ∨ p.op = opOWNREL then b == 0
  else if p.op = opWRITE ∨ p.op = opBWRITE ∨ p.op = opWB ∨ p.op = opMCOPY then
    let first := b % 64; let n := getBits b 6 7
    decide (1 ≤ n ∧ n ≤ 64 ∧ first + n ≤ 64 ∧ b / 2 ^ 13 = 0)
  else if p.op = opATOM then
    let byte := b % 64; let ty := getBits b 6 3; let op := getBits b 9 4
    atomListed op ty && decide (byte % typeWidth ty = 0 ∧ byte + typeWidth ty ≤ 64 ∧ b / 2 ^ 13 = 0)
  else if p.op = opREDADD ∨ p.op = opREDMIN ∨ p.op = opREDMAX then
    let first := b % 64; let n := getBits b 6 7; let ty := b / 2 ^ 13
    redListed ty && decide (2 ≤ n ∧ n ≤ 64 ∧ first + n ≤ 64 ∧ first % typeWidth ty = 0 ∧ n % typeWidth ty = 0)
  else if p.op = opINVL then decide (b ≤ 1)
  else if p.op = opINV then decide (b / 8 = 0 ∧ getBits b 1 2 ≤ 2)
  else if p.op = opMATOM then
    let op := getBits b 2 6
    decide (b / 2 ^ 14 = 0 ∧ b % 4 = 0) && isAtomicClass op && decide (op < opOWNACQ → getBits b 8 6 % 2 = 0)
      && decide (op = opATOM → getBits b 8 6 % 4 = 0) && decide (opOWNACQ ≤ op → getBits b 8 6 = 0)
  else true

/-- The operand byte that a ledger record holds (Table 6.3). -/
def Packet.operandByte (p : Packet) : Nat := if p.op = opMATOM then getBits p.bmc.toNat 8 6 else p.bmc.toNat % 64

end Sys2Proof.Machine
end

