-- ==== Sys2Proof/Machine/Trace.lean ====
section
/-! DEFINITION. The debug trace (R396 to R399) and the raise of the Debug Epoch (R341). -/

namespace Sys2Proof.Machine

open Sys2Proof

/-- Whether a debug session is open (R340). -/
def State.session (s : State) : Bool := s.flag R.SEC_DEBUG_CTL.SESSION || s.flag R.SEC_DEBUG_CTL.JTAG

/-- Start the raise of the Debug Epoch, where it has not been counted in this session and none is under way (R341). -/
def State.raiseEpoch (s : State) : State :=
  if s.flag R.SEC_DEBUG_CTL.COUNTED || s.sec.raising.isSome then s
  else { s with sec := { s.sec with raising := some s.tick } }

/-- Replace the telemetry record. -/
def State.setTel (s : State) (x : TelState) : State := { s with tel := x }

/-- A TEL_DBG_CMD completes. -/
def State.dbgResult (s : State) (status : Nat) : State :=
  (s.setFld R.TEL_DBG_CMD.BUSY 0).setFld R.TEL_DBG_CMD.RESULT status

/-- Load the line as stored. -/
def State.dbgLoad (s : State) (h : Nat) : State :=
  (s.setTel { s.tel with line := s.readLine h }).dbgResult (if s.isPoison h then sPOISON else sOK)

/-- The buffer reads 0. -/
def State.dbgZero (s : State) : State := s.setTel { s.tel with line := 0 }

/-- The debug read that waited for the Debug Epoch ends: with the line, or with 0 where the write failed or the session has
ended (R340, R341). -/
def State.endSealedRead (s : State) (ok : Bool) : State :=
  match s.tel.dbg with
  | none => s
  | some h =>
    let s := s.setTel { s.tel with dbg := none }
    if ¬ s.session then s.dbgZero.dbgResult sSEALED
    else if ok then s.dbgLoad h
    else (s.dbgLoad h).dbgZero

/-- The write of the Debug Epoch fails: the read that waited for it gives 0 and the epoch stays (R341). -/
def State.failEpoch (s : State) : State :=
  if s.sec.raising.isNone then s
  else
    let s := { s with sec := { s.sec with raising := none } }
    s.endSealedRead false

/-- HIST_UNITS in effect: a write takes effect at the next boundary (R396). -/
def State.histUnits (s : State) : Nat := s.tel.split.getD (s.fld R.TEL_TRACE_SPLIT.HIST_UNITS)

/-- Records that the trace units hold (R396). -/
def State.traceCap (s : State) : Nat := 2048 * (64 - s.histUnits)

/-- Write one record to the next trace slot; with MODE = 0 a full trace stops (R398). -/
def State.traceRecord (s : State) (r : Line) : State :=
  let cap := s.traceCap
  if ¬ s.flag R.TEL_TRACE_STATUS.RUNNING ∨ cap = 0 then s
  else
    let k := s.fld R.TEL_TRACE_STATUS.WRITTEN
    let slot := 2048 * s.histUnits + k % cap
    let s := { s with tel := { s.tel with buf := FMap.set (fun _ => 0) s.tel.buf slot r } }
    let s := s.addFld R.TEL_TRACE_STATUS.WRITTEN 1
    if ¬ s.flag R.TEL_TRACE_CTL.MODE ∧ k + 1 = cap then
      ((s.setFld R.TEL_TRACE_CTL.RUN 0).setFld R.TEL_TRACE_STATUS.RUNNING 0).raise R.TEL_EVENTS.TRACE_FULL
    else s

/-- Whether the filters match a packet (R397). -/
def State.traceMatch (s : State) (p : Packet) : Bool :=
  (p.dst.toNat ^^^ s.fld R.TEL_TRACE_FILT0.DST) &&& s.fld R.TEL_TRACE_FILT0.DST_MASK == 0
    && (p.src.toNat ^^^ s.fld R.TEL_TRACE_FILT0.SRC) &&& s.fld R.TEL_TRACE_FILT0.SRC_MASK == 0
    && (p.opcode.toNat ^^^ s.fld R.TEL_TRACE_FILT1.OPCODE) &&& s.fld R.TEL_TRACE_FILT1.OPC_MASK == 0
    && bitOf (s.fld R.TEL_TRACE_FILT1.VC_MASK) p.vc.toNat
    && (!s.flag R.TEL_TRACE_FILT1.PART_EN || partOf p.tag == s.fld R.TEL_TRACE_FILT1.PART)

/-- The packet that passes a point in a direction (0 arriving, 1 leaving) is captured where the trace runs there and the
filters match (R397); a marked packet's payload is zeroed, or starts the raise of the Debug Epoch (R399). The core cycle
within the tick is free. -/
def State.capture (s : State) (point dir : Nat) (p : Packet) (marked : Bool) : State :=
  if ¬ s.flag R.TEL_TRACE_STATUS.RUNNING ∨ s.fld R.TEL_TRACE_CTL.POINT ≠ point ∨ s.fld R.TEL_TRACE_CTL.DIR ≠ dir
      ∨ ¬ s.traceMatch p then s
  else
    let (c, s) := s.fresh
    let s := if marked ∧ s.flag R.TEL_TRACE_CTL.SEALED_CAP ∧ s.session then s.raiseEpoch else s
    let full := s.flag R.TEL_TRACE_CTL.PAYLOAD
    let hide := marked && !(s.session && s.flag R.SEC_DEBUG_CTL.COUNTED)
    let pay := if hide then 0 else p.payload.toNat % 2 ^ (8 * payloadBytes p.op)
    let head (t : Nat) := [(0, t), (8, b2n marked), (9, b2n p.pz), (16, point % 1024), (26, dir), (32, c % 305),
      (64, s.tick % 2 ^ 64)]
    let s := s.traceRecord (BitVec.ofNat 512 (packBits (head 1 ++
      [(128, p.header + p.hcrc.toNat * 2 ^ 176), (320, if full then pay % 2 ^ 192 else 0)])))
    if full ∧ 24 < payloadBytes p.op then
      s.traceRecord (BitVec.ofNat 512 (packBits (head 2 ++ [(128, getBits pay 192 192), (320, getBits pay 384 128)])))
    else s

end Sys2Proof.Machine
end

