-- ==== Sys2Proof/Machine/Switch.lean ====
section
/-! DEFINITION. The Switch Core: the Whisk (R71), Group Table and Route Table (R72 to R78, R154 to R156), group
resolution (R20, R21), the holds of R80 to R82, and the routing of one packet (R66, R67, R136, R140, R141). -/

namespace Sys2Proof.Machine

open Sys2Proof

/-! ## The Whisk -/

/-- Rotate a 16-bit value left. -/
def rotl16 (x n : Nat) : Nat := (x * 2 ^ n % 2 ^ 16) + (x % 2 ^ 16) / 2 ^ (16 - n)

/-- The function W of a 64-bit key and a 32-bit seed (R71). -/
def whisk (key seed : Nat) : Nat :=
  let k := (key % 2 ^ 64) ^^^ (seed % 2 ^ 32 * (2 ^ 32 + 1))
  (upFrom 0 4).foldl (fun h i => h ^^^ rotl16 (getBits k (16 * i) 16) (5 * i)) 0

/-- fold8(h): h[7:0] xor h[15:8]. -/
def fold8 (h : Nat) : Nat := (h % 256) ^^^ (h / 256 % 256)

/-- The bucket of a line in a group (Table 4.3). -/
def groupBucket (gid line seed : Nat) : Nat :=
  (line % 256) ^^^ fold8 (whisk (gid * 2 ^ 48 + line / 256 % 2 ^ 38) seed)

/-- The path hash h (Table 4.3). -/
def State.pathHash (s : State) (dst line : Nat) : Nat :=
  whisk (dst * 2 ^ 48 + line % 2 ^ 46) (s.fld R.SWC_WHISK_SEED.PATH)

/-- The pseudo-channel of an HBM line and the position within it (Table 4.3). -/
def State.pseudoChannel (s : State) (h : Nat) : Nat × Nat :=
  ((h % 384 + whisk (h / 384 % 2 ^ 32) (s.fld R.SWC_WHISK_PC.SEED)) % 384, h / 384)

/-! ## Group Table -/

/-- A 64-bit word of the Group Table entry with index `g`. -/
def State.groupWord (s : State) (g w : Nat) : Nat := (FMap.get (fun _ => 0) s.swc.groups (128 * g + w)).toNat

/-- VALID, KIND, GID, LEVEL, NMEM, SLOTS of a group entry (Table 4.4). -/
def State.gValid (s : State) (g : Nat) : Bool := bitOf (s.groupWord g 0) 0
def State.gKind (s : State) (g : Nat) : Nat := getBits (s.groupWord g 0) 1 2
def State.gGid (s : State) (g : Nat) : Nat := getBits (s.groupWord g 0) 8 16
def State.gLevel (s : State) (g : Nat) : Nat := getBits (s.groupWord g 0) 24 12
def State.gNmem (s : State) (g : Nat) : Nat := getBits (s.groupWord g 0) 36 7
def State.gSlots (s : State) (g : Nat) : Nat := getBits (s.groupWord g 0) 43 9
def State.gFarGid (s : State) (g : Nat) : Nat := getBits (s.groupWord g 1) 0 16
def State.gHold (s : State) (g : Nat) : Nat := getBits (s.groupWord g 1) 16 16
def State.gSeed (s : State) (g : Nat) : Nat := getBits (s.groupWord g 127) 0 32
/-- MEMBER[i]. -/
def State.gMember (s : State) (g i : Nat) : Nat := getBits (s.groupWord g (2 + i / 4)) (16 * (i % 4)) 16
/-- BUCKET[b]. -/
def State.gBucket (s : State) (g b : Nat) : Nat := getBits (s.groupWord g (18 + b / 4)) (16 * (b % 4)) 16

/-- Whether an FEID is a group ID. -/
def isGroupId (f : Nat) : Bool := decide (0x8000 ≤ f ∧ f ≤ 0xFFFE)

/-- Whether the entry is valid for group ID `f` (R72); an entry found uncorrectable is invalid (Table 15.3). -/
def State.groupValidFor (s : State) (f : Nat) : Bool :=
  let g := f % 4096
  s.gValid g && s.gGid g == f && f != 0xFFFF && s.gKind g != 3 && decide (1 ≤ s.gNmem g ∧ s.gNmem g ≤ 64)
    && decide (1 ≤ s.gSlots g ∧ s.gSlots g ≤ 256) && !FMap.get (fun _ => false) s.swc.groupBad g

/-- Whether `f` is a valid spread group here. -/
def State.isSpread (s : State) (f : Nat) : Bool := isGroupId f && s.groupValidFor f && s.gKind (f % 4096) == 0

/-- Whether this module is among the members of group `f`. -/
def State.isMember (s : State) (f : Nat) : Bool :=
  (upFrom 0 (s.gNmem (f % 4096))).any fun i => s.gMember (f % 4096) i == s.feid

/-! ## Route Table -/

/-- The Route Table entry in effect for an FEID. -/
def State.route (s : State) (f : Nat) : Nat := (FMap.get (fun _ => 0) s.swc.routes f).toNat

/-- Fields of slot k of a route entry (Table 7.12). -/
def slotLink (e k : Nat) : Nat := getBits e (10 * k + 8) 5
def slotEn (e k : Nat) : Bool := bitOf e (10 * k + 13)
def slotEcmp (e k : Nat) : Bool := bitOf e (10 * k + 14)
def slotDla (e k : Nat) : Nat := getBits e (10 * k + 15) 2
/-- The configured round trip of a route entry. -/
def routeRtt (e : Nat) : Nat := getBits e 48 16

/-- Whether FEID `f` has a valid Route Table entry (R154, R156). -/
def State.routeValid (s : State) (f : Nat) : Bool :=
  let e := s.route f
  bitOf e 0 && !(upFrom 0 3).any (fun k => slotEn e k && slotDla e k == 3)
    && !FMap.get (fun _ => false) s.swc.routeBad f
    && (!bitOf e 1 || f == s.feid ||
        (isGroupId f && s.groupValidFor f && s.gKind (f % 4096) != 0 && s.isMember f))

/-- Whether link `l` is usable (R142). -/
def State.linkUsable (s : State) (l : Nat) : Bool := s.flag (R.SWC_LINK_STATUS.USABLE l)

/-- Insert a (link, slot) pair in ascending link order. -/
def insertLink (x : Nat × Nat) : List (Nat × Nat) → List (Nat × Nat)
  | [] => [x]
  | y :: r => if x.1 < y.1 then x :: y :: r else y :: insertLink x r

/-- The equal-cost set of a route entry: usable slots with ECMP, in ascending link number (R155). -/
def State.ecmpSet (s : State) (e : Nat) : List (Nat × Nat) :=
  (upFrom 0 3).foldr (fun k r =>
    if slotEn e k && slotEcmp e k && s.linkUsable (slotLink e k) then insertLink (slotLink e k, k) r else r) []

/-- The link and slot that R155 chooses for FEID `f`, none where no link is usable; a lost neighbour's entry has none until it
is next committed (R355). -/
def State.chooseLink (s : State) (f e : Nat) (p : Nat) : Option (Nat × Nat) :=
  if FMap.get (fun _ => false) s.swc.lost f then none else
  match s.ecmpSet e with
  | [] => ((upFrom 0 3).find? fun k => slotEn e k && s.linkUsable (slotLink e k)).map fun k => (slotLink e k, k)
  | set => set[p % set.length]?

/-! ## Group resolution -/

/-- One level of resolution of spread group `f` for a line: the member, or none where R74 or R21 fails. -/
def State.resolveOne (s : State) (f line : Nat) : Option Nat :=
  let g := f % 4096
  let e := s.gBucket g (groupBucket f line (s.gSeed g))
  if !bitOf e 7 || decide (s.gNmem g ≤ e % 64) then none
  else
    let m := s.gMember g (e % 64)
    if isGroupId m && !(s.groupValidFor m && decide (s.gLevel (m % 4096) < s.gLevel g)) then none
    else some m

/-- Resolution at this Switch Core (R20): one level, and further levels while the member is a spread group with no valid
route here. Levels fall at each one, so 4,096 levels are enough. -/
def State.resolve (s : State) : Nat → Nat → Nat → Option Nat
  | 0, _, _ => none
  | fuel + 1, f, line =>
    match s.resolveOne f line with
    | none => none
    | some m => if s.isSpread m && !s.routeValid m then s.resolve fuel m line else some m

/-- The configured round trip that R22 judges for a destination, none where the resolution fails. A destination with no
valid entry on its chain has none to judge: 0. -/
def State.judgedRtt (s : State) : Nat → Nat → Nat → Option Nat
  | 0, _, _ => none
  | fuel + 1, f, line =>
    if s.routeValid f then some (routeRtt (s.route f))
    else if s.isSpread f then
      match s.resolveOne f line with
      | none => none
      | some m => s.judgedRtt fuel m line
    else some 0

/-! ## Routing one packet -/

/-- What becomes of a packet at the Switch Core. -/
inductive Fate
  /-- queued for a link -/
  | link (p : Packet) (l : Nat) (dl0 : BitVec 2)
  /-- delivered at this module -/
  | deliver (p : Packet)
  /-- flooded management broadcast (R66) -/
  | flood (p : Packet)
  /-- discarded; `status` is answered to a request; `code` is the fault-log code -/
  | drop (p : Packet) (status : Option Nat) (code : Nat) (ctr : Nat)
deriving DecidableEq, Repr

/-- A discard for want of a route or link (counted in ROUTE). -/
def unrouted (p : Packet) : Fate := .drop p (some sUNREACH) 0 4

/-- A discard under R21, R74 or R77, which no counter of Table 7.20 takes: it wants neither a route nor a link
(log entry 63). -/
def unresolved (p : Packet) : Fate := .drop p (some sUNREACH) 0 0

/-- Whether a point of arrival lies on the far fabric's side (R77). -/
def State.onFar (s : State) (pt : Point) : Bool :=
  match pt with
  | .loc _ | .arr _ => false
  | .chan c =>
    if c.val ≥ 256 then bitOf (s.fld R.SWC_GW_CTL.FAR_E) (c.val - 256) else bitOf (s.fld R.SWC_GW_CTL.FAR_OE) (c.val / 16)

/-- The tenancy-tag map of a crossing packet (R78): the new tag, or the refusal's status. -/
def State.mapTag (s : State) (d : Nat) (tag : BitVec 16) : Nat ⊕ BitVec 16 :=
  let p := partOf tag
  if !s.flag (R.SWC_GW_TAG.VALID d p) then .inl sDENY
  else if s.fld (R.SWC_GW_TAG.SRC_GEN d p) != genOf tag then .inl sSTALE
  else .inr (BitVec.ofNat 16 (s.fld (R.SWC_GW_TAG.FAR_PART d p) * 1024 + s.fld (R.SWC_GW_TAG.FAR_GEN d p)))

/-- The source map of a crossing packet (R77), none where the map field is not valid. -/
def State.mapSrc (s : State) (d : Nat) (src : Nat) : Option Nat :=
  let j := getBits src 12 3
  if s.flag (R.SWC_GW_SMAP.VALID d j) then some (0x1000 * s.fld (R.SWC_GW_SMAP.BLOCK d j) + src % 4096) else none

/-- A packet crosses the gateway to destination `dst` in the other fabric: source and tag mapped, HOPS and DL set to 0
(R77, R78, R140). Where both maps refuse it, the source map is judged first (DESIGN CHOICE, log entry 71). -/
def State.cross (s : State) (d : Nat) (p : Packet) (dst : Nat) : Packet ⊕ Fate :=
  match s.mapSrc d p.src.toNat with
  | none => .inr (unresolved p)
  | some src =>
    match s.mapTag d p.tag with
    | .inl st => .inr (.drop p (some st) 0 0)
    | .inr tag => .inl { p with dst := BitVec.ofNat 16 dst, src := BitVec.ofNat 16 src, tag := tag, hops := 0, dl := 0 }

/-- Whether a link leads to the far fabric: a channel in it does. -/
def State.linkFar (s : State) (l : Nat) : Bool :=
  (upFrom 0 262).any fun c =>
    s.flag (R.SWC_CH_STATUS.MEMBER c) && s.fld (R.SWC_CH_STATUS.LINK c) == l && s.onFar (.chan (Fin.ofNat 262 c))

/-- Route a packet by the entry of its destination (R155, R156); HOPS is incremented on departure (R140). `near`: it came over a
link of the near side and has not crossed, so that a native destination may not take it onto a far link (R77). A packet to an
export group with a LOCAL entry that R76 does not have this module act on is delivered with DST still the group (DESIGN CHOICE,
log entry 71). -/
def State.byRoute (s : State) (p : Packet) (near : Bool) : Fate :=
  let f := p.dst.toNat
  if !s.routeValid f then unrouted p
  else
    let e := s.route f
    if bitOf e 1 then
      if f == s.feid then .deliver p
      else if s.gKind (f % 4096) = 1 then .deliver { p with dst := BitVec.ofNat 16 s.feid }
      else .deliver p
    else
      match s.chooseLink f e (fold8 (s.pathHash f p.line.toNat)) with
      | none => unrouted p
      | some (l, k) =>
        if near && s.flag R.SWC_GW_CTL.EN && decide (f < 0x1000) && s.linkFar l then unresolved p
        else
          let dl : BitVec 2 := if slotDla e k = 1 then 1 else if slotDla e k = 2 then 0 else p.dl
          .link { p with dl := dl, hops := p.hops + 1 } l p.dl

/-- A packet after the resolutions of its destination that this Switch Core makes (R20), none where they fail. -/
def State.settle (s : State) (p : Packet) : Option Packet :=
  if s.isSpread p.dst.toNat then
    (s.resolve 4097 p.dst.toNat p.line.toNat).map fun m => { p with dst := BitVec.ofNat 16 m }
  else some p

/-- Route a packet whose destination may be a spread group resolved here (R20). -/
def State.byGroup (s : State) (p : Packet) (near : Bool) : Fate :=
  match s.settle p with
  | none => unresolved p
  | some q => s.byRoute q near

/-- Whether a packet came over a link. -/
def Point.arrived : Point → Bool
  | .chan _ => true
  | .loc _ | .arr _ => false

/-- Whether a packet to `f` crosses the gateway, and the destination that it then has in the other fabric, none where the map
field is not valid: an imported FEID (R77), the module's own packets crossing in direction 0, or an export group of which this
module is a member, where the packet came over a link of the near side (R76). -/
def State.crossing (s : State) (f : Nat) (pt : Point) : Option (Option Nat) :=
  let d := b2n (s.onFar pt)
  if ¬ s.flag R.SWC_GW_CTL.EN then none
  else if 0x1000 ≤ f ∧ f < 0x8000 then
    some (if s.flag (R.SWC_GW_DMAP.VALID d (f / 4096)) then some (0x1000 * s.fld (R.SWC_GW_DMAP.BLOCK d (f / 4096)) + f % 4096)
      else none)
  else if pt.arrived && !s.onFar pt && isGroupId f && s.groupValidFor f && s.gKind (f % 4096) == 2 && s.isMember f then
    some (some (s.gFarGid (f % 4096)))
  else none

/-- Route a packet, by way of the gateway where its destination, after the resolutions made here, crosses (R20, R76, R77). A
native destination that arrives on the far side is discarded (R77). -/
def State.atGateway (s : State) (p : Packet) (pt : Point) : Fate :=
  let far := s.onFar pt
  match s.settle p with
  | none => unresolved p
  | some q =>
    match s.crossing q.dst.toNat pt with
    | some none => unresolved p
    | some (some f) =>
      match s.cross (b2n far) q f with
      | .inl r => s.byGroup r false
      | .inr x => x
    | none =>
      if s.flag R.SWC_GW_CTL.EN && far && decide (p.dst.toNat < 0x1000) then unresolved p
      else s.byRoute q (pt.arrived && !far)

/-- What becomes of a packet that enters the Switch Core at a point (R66, R67, R76, R136, R140, R155). -/
def State.fate (s : State) (p : Packet) (pt : Point) : Fate :=
  let f := p.dst.toNat
  let src := p.src.toNat
  let arrived := pt.arrived
  if p.badEncoding then .drop p none 0x0203 3
  else if 0x8000 ≤ src then .drop p none 0 3
  else if arrived && p.hops.toNat == s.fld R.SWC_FWD_CTL.MAX_HOPS then .drop p (some sUNREACH) 0x0205 1
  else if f = 0xFFFF then
    if p.vc = 7 ∧ p.sub = 5 then .flood p else .drop p (some sUNREACH) 0x0202 0
  else if arrived && s.flag R.SWC_GW_CTL.EN && s.onFar pt && f == s.fld R.SWC_GW_CTL.FAR_FEID then
    .deliver { p with dst := BitVec.ofNat 16 s.feid }
  else if isGroupId f && s.groupValidFor f && s.gKind (f % 4096) == 1 && s.isMember f && arrived && s.routeValid f then
    .deliver { p with dst := BitVec.ofNat 16 s.feid }
  else s.atGateway p pt

/-! ## Queueing -/

/-- The bucket of a line's first-level resolution at this Switch Core, where the destination is a spread group. -/
def State.bucketOf (s : State) (dst line : Nat) : Option (Nat × Nat) :=
  if s.isSpread dst then some (dst % 4096, groupBucket dst line (s.gSeed (dst % 4096))) else none

/-- Whether an arriving packet to a bucket is held under R81. -/
def State.transitHeld (s : State) (g b : Nat) : Bool :=
  s.swc.transit.any fun h => h.group == g && h.buckets.getLsbD b && decide (s.tick < h.until_)

/-- The buckets through which this Switch Core resolves a destination, level by level (R20). -/
def State.resolveBuckets (s : State) : Nat → Nat → Nat → List (Nat × Nat)
  | 0, _, _ => []
  | fuel + 1, f, line =>
    if s.isSpread f then
      (f % 4096, groupBucket f line (s.gSeed (f % 4096))) ::
        (match s.resolveOne f line with
        | none => []
        | some m => if s.isSpread m && !s.routeValid m then s.resolveBuckets fuel m line else [])
    else []

/-- The buckets through which a packet is resolved here, before and after it crosses the gateway (R20, R77). -/
def State.bucketsMet (s : State) (p : Packet) (pt : Point) : List (Nat × Nat) :=
  s.resolveBuckets 4097 p.dst.toNat p.line.toNat ++
    match (s.settle p).bind fun q => s.crossing q.dst.toNat pt with
    | some (some f) => s.resolveBuckets 4097 f p.line.toNat
    | _ => []

/-- Bytes queued for link `l` on VC `v`, in 32-byte units, and the high-water marks (Table 7.27, R394). -/
def State.noteDepth (s : State) (l v : Nat) : State :=
  let bytes := (s.swc.linkq.filter fun q => q.link == l && q.pkt.vc.toNat == v).foldl (fun n q => n + q.pkt.len) 0
  let d := (bytes + 31) / 32
  let s := s.setFld (R.SWC_LINK_Q.DEPTH l v) d
  let s := s.setFld (R.SWC_LINK_Q.MAX l v) (max d (s.fld (R.SWC_LINK_Q.MAX l v)))
  let m := FMap.get (fun _ => 0) s.tel.depthMax (8 * l + v)
  { s with tel := { s.tel with depthMax := FMap.set (fun _ => 0) s.tel.depthMax (8 * l + v) (max m d) } }

/-- The channel record. -/
def State.chan (s : State) (c : Nat) : Chan := FMap.get (fun _ => {}) s.swc.chans c

/-- Replace a channel record. -/
def State.setChan (s : State) (c : Nat) (x : Chan) : State :=
  { s with swc := { s.swc with chans := FMap.set (fun _ => {}) s.swc.chans c x } }

/-- A packet's bytes leave the input pool of the channel on which it came, in the class with which it came (R162). -/
def State.freePool (s : State) (q : QPkt) : State :=
  match q.point with
  | .loc _ | .arr _ => s
  | .chan c =>
    if ¬ q.pool then s
    else
      let x := s.chan c
      let k := 2 * q.pkt.vc.toNat + q.dl0.toNat % 2
      s.setChan c { x with pool := x.pool - q.pkt.len,
                           freedRx := FMap.set (fun _ => 0) x.freedRx k (FMap.get (fun _ => 0) x.freedRx k + q.pkt.len) }

/-- The length of the hold queue shows in HOLDQ (R82). -/
def State.noteHold (s : State) : State := s.setFld R.SWC_WHISK_STATUS.HOLDQ s.swc.holdq.length

/-- A packet stays in its VC input, which is stalled (R82). -/
def State.stallPkt (s : State) (q : QPkt) : State := { s with swc := { s.swc with stalled := s.swc.stalled ++ [q] } }

/-- Whether the VC input of a packet is stalled: an earlier packet of it waits for room in the hold queue (R82). -/
def State.inputStalled (s : State) (q : QPkt) : Bool :=
  s.swc.stalled.any fun x => x.point == q.point && x.pkt.vc == q.pkt.vc

/-- Put a packet in the hold queue of 2,048 packets, out of its input pool; while that is full, its input stalls (R82). -/
def State.holdPkt (s : State) (q : QPkt) : State :=
  if 2048 ≤ s.swc.holdq.length then s.stallPkt q
  else
    let s := s.freePool q
    let s := { s with swc := { s.swc with holdq := s.swc.holdq ++ [{ q with pool := false }] } }
    s.noteHold.count R.SWC_WHISK_STATUS.HELD

/-- Put a packet in a link's queue; packets of VC0-VC6 to a destination held under R82 wait in the hold queue. -/
def State.enqueue (s : State) (q : QPkt) : State :=
  let until_ := FMap.get (fun _ => 0) s.swc.path q.pkt.dst.toNat
  if q.pkt.vc ≠ 7 ∧ s.tick < until_ then s.holdPkt q
  else
    let s := { s with swc := { s.swc with linkq := s.swc.linkq ++ [q] } }
    s.noteDepth q.link q.pkt.vc.toNat

/-- The Switch Core's local port of a packet is not in the spec: a free one of the 16. -/
def State.localPort (s : State) : Nat × State :=
  let (n, s) := s.fresh
  (512 + n % 16, s)

/-- MGMT message types in use (R389). -/
def mgmtType (n : Nat) : Bool := n == 1 || n == 2 || n == 0x21 || n == 0x22

/-- Packets in the management mailbox. -/
def State.mailed (s : State) : Nat := (s.swc.localq.filter fun q => q.pkt.vc == 7).length

/-- Queue a packet for local delivery: it leaves the Switch Core at a local port, or, as reduce traffic, at an array port, at
which no trace stands (R12, R397). A VC7 packet that finds the mailbox full, or a MGMT packet of a reserved type, is discarded
and counted (R158, R389). -/
def State.toLocal (s : State) (q : QPkt) : State :=
  if q.pkt.vc = 7 ∧ (Config.mailbox ≤ s.mailed ∨ (q.pkt.op = opMGMT ∧ ¬ mgmtType (q.pkt.payload.toNat % 256))) then
    { s with swc := { s.swc with mailDrops := s.swc.mailDrops + 1 } }.freePool q
  else
    let s := if q.pkt.op = opCOLL then s else let (n, s) := s.localPort; s.capture n 1 q.pkt q.isSealed
    { s with swc := { s.swc with localq := s.swc.localq ++ [{ q with link := 32, hash := 0 }] } }

/-- Whether R67 discards a packet at its destination for its sub-ID. A response carries its request's sub-ID (R138), the refusal
of a discarded request included, so R67's discard is of requests and messages only (DEDUCED, log entry 65). -/
def Packet.noEndpoint (p : Packet) : Bool :=
  !isResponse p.op && (decide (p.sub.toNat ≥ 6) || (p.sub == 5 && p.vc != 7))

/-- SRC and TAG with which a packet that is now `p` came, where they have changed. -/
def QPkt.cameAs (q : QPkt) (p : Packet) : Option (BitVec 16 × BitVec 16) :=
  if p.src = q.pkt.src ∧ p.tag = q.pkt.tag then q.back else some (q.pkt.src, q.pkt.tag)

/-- Carry out a packet's fate: queues, counters, events, log records. The status with which a discarded request is answered is
returned (R141). -/
def State.carry (s : State) (q : QPkt) : Fate → State × Option Nat
  | .link p l dl0 =>
    (s.enqueue { q with pkt := p, link := l, hash := s.pathHash p.dst.toNat p.line.toNat, dl0 := dl0, back := q.cameAs p }, none)
  | .deliver p =>
    if p.noEndpoint then (s.freePool q, some sUNREACH)
    else if q.stomp then (s.freePool q, none)
    else (s.toLocal { q with pkt := p }, none)
  | .flood p => if q.stomp then (s.freePool q, none) else (s.toLocal { q with pkt := p }, none)
  | .drop p st code ctr =>
    let s := s.freePool q
    let s := if ctr = 1 then s.count R.SWC_DISCARDS.HOPS else if ctr = 3 then s.count R.SWC_DISCARDS.BAD_ENC
      else if ctr = 4 then s.count R.SWC_DISCARDS.ROUTE else s
    let hdr := p.header % 2 ^ 64
    let s := if code = 0x0203 then (s.linkEvent R.SWC_EVENTS.BAD_PACKET).faultLog 0x0203 p.tag.toNat 0 0 hdr q.point.code
      else if code = 0x0205 then (s.linkEvent R.SWC_EVENTS.HOPS_EXCEEDED).faultLog 0x0205 p.tag.toNat 0 0 hdr p.line.toNat
      else if code = 0x0202 then s.faultLog 0x0202 p.tag.toNat 0 0 hdr 0
      else s
    (s, st)

/-- A packet that enters at a local port is seen by the trace there; reduce traffic enters at the array port of a position,
where no trace stands (R12, R397). -/
def State.enterLocal (s : State) (p : Packet) (marked : Bool) (arr : Option Nat := none) : Point × State :=
  match arr with
  | some n => (.arr (Fin.ofNat 16 n), s)
  | none =>
    let (n, s) := s.localPort
    (.loc (Fin.ofNat 16 (n % 16)), s.capture n 0 p marked)

/-- Whether the tray drain has ended: nothing is sent or forwarded any more (R357). -/
def State.left (s : State) : Bool := s.fld R.REL_TRAY.STATE == 2

/-- Answer a request that is discarded here (R141). The response goes to the requester as the request named it when it came,
before any crossing, and a request that came on the far side is answered there, from this module's FEID in that fabric. -/
def State.refuse (s : State) (q : QPkt) (status : Nat) : State :=
  if ¬ isRequest q.pkt.op ∨ q.stomp then s
  else
    let p := match q.back with
      | some b => { q.pkt with src := b.1, tag := b.2 }
      | none => q.pkt
    let far := s.flag R.SWC_GW_CTL.EN && s.onFar q.point
    let r := p.refusal (if far then s.fld R.SWC_GW_CTL.FAR_FEID else s.feid) status
    let (pt, s) := s.enterLocal r false
    (s.carry { pkt := r, point := pt, link := 0, tick := s.tick, hash := 0 } (if far then s.byGroup r false else s.fate r pt)).1

/-- Whether R81 holds a packet where it stands. -/
def State.heldHere (s : State) (q : QPkt) : Bool :=
  q.point.arrived && (s.bucketsMet q.pkt q.point).any fun b => s.transitHeld b.1 b.2

/-- A packet enters the Switch Core. It waits behind the packets of its input where that is stalled (R82), and arriving packets
in held buckets wait (R81). A discarded request is answered; a discarded response is only counted (R141). -/
def State.inject (s : State) (q : QPkt) : State :=
  if s.left then s.freePool q
  else if s.inputStalled q then s.stallPkt { q with link := 34 }
  else if s.heldHere q then
    (({ s with swc := { s.swc with transq := s.swc.transq ++ [{ q with link := 33, pool := false }] } }).freePool q).count
      R.SWC_WHISK_STATUS.HELD
  else match s.carry q (s.fate q.pkt q.point) with
  | (s, none) => s
  | (s, some st) => s.refuse q st

/-- A packet that this module sends enters the Switch Core at a local port, or at the array port `arr`; `marked`: its data came
from a SEALED range (R399). -/
def State.sendPacket (s : State) (p : Packet) (marked : Bool := false) (arr : Option Nat := none) : State :=
  let (pt, s) := s.enterLocal p marked arr
  s.inject { pkt := p, point := pt, link := 0, tick := s.tick, hash := 0, isSealed := marked }

/-- Whether a packet passes the trailer check of the end-point (R135); one that came over no channel has its source's trailer. -/
def State.intact (s : State) (p : Packet) : Bool :=
  match s.swc.localq.find? fun q => q.pkt == p with
  | some q => q.trailer.all (· == p.trailer)
  | none => true

/-- Take a packet that waits for local delivery; it leaves its input pool. -/
def State.takeLocal (s : State) (p : Packet) : State :=
  match s.swc.localq.find? fun q => q.pkt == p with
  | none => s
  | some q => ({ s with swc := { s.swc with localq := s.swc.localq.eraseP fun q => q.pkt == p } }).freePool q

end Sys2Proof.Machine
end

