-- ==== Sys2Proof/Machine/Threads.lean ====
section
/-! DEFINITION. Shared operations on Disil threads: registers and predicates, states (Table 3.2), traps and faults
(R64, R65), halting (R50), status words and status traps (R231, R232), and what a waiting thread waits for. -/

namespace Sys2Proof.Machine

open Sys2Proof

/-- Thread states (Table 3.13). -/
def stHalted : Nat := 0
def stRunnable : Nat := 1
def stWaiting : Nat := 2
def stParked : Nat := 3
def stFaulted : Nat := 4

/-- The thread record. -/
def State.thr (s : State) (t : Nat) : Thread := FMap.get (fun _ => {}) s.threads t

/-- Replace the thread record. -/
def State.setThr (s : State) (t : Nat) (x : Thread) : State :=
  { s with threads := FMap.set (fun _ => {}) s.threads t x }

/-- Read a general register: g0 reads 0 (Table 10.1). -/
def Thread.reg (x : Thread) (r : BitVec 5) : Word := if r = 0 then 0 else FMap.get (fun _ => 0) x.g r.toNat

/-- Write a general register: writes to g0 are discarded. -/
def Thread.setReg (x : Thread) (r : BitVec 5) (v : Word) : Thread :=
  if r = 0 then x else { x with g := FMap.set (fun _ => 0) x.g r.toNat v }

/-- Read a predicate: p0 reads 1. -/
def Thread.pred (x : Thread) (i : Nat) : Bool := if i = 0 then true else x.p.getLsbD i

/-- Write a predicate: writes to p0 are discarded. -/
def Thread.setPred (x : Thread) (i : Nat) (v : Bool) : Thread :=
  if i = 0 then x else { x with p := BitVec.ofNat 8 (putBits x.p.toNat i 1 (b2n v)) }

/-- The eight registers of a line group, as a line (R226). -/
def Thread.group (x : Thread) (r : BitVec 5) : Line :=
  BitVec.ofNat 512 (packBits ((upFrom 0 8).map fun i => (64 * i, (x.reg (r + BitVec.ofNat 5 i)).toNat)))

/-- Write a line into a line group. -/
def Thread.setGroup (x : Thread) (r : BitVec 5) (l : Line) : Thread :=
  (upFrom 0 8).foldl (fun x i => x.setReg (r + BitVec.ofNat 5 i) (BitVec.ofNat 64 (getBits l.toNat (64 * i) 64))) x

/-- The mask of one register; g0 is never pending. -/
def regMask (r : BitVec 5) : BitVec 32 := if r = 0 then 0 else BitVec.ofNat 32 (2 ^ r.toNat)

/-- The mask of a line group. -/
def groupMask (r : BitVec 5) : BitVec 32 :=
  BitVec.ofNat 32 ((255 * 2 ^ r.toNat) % 2 ^ 32) &&& 0xFFFFFFFE#32

/-- Make registers pending (R225). -/
def Thread.addPend (x : Thread) (m : BitVec 32) : Thread := { x with pend := x.pend ||| m }

/-- Registers whose value has arrived. -/
def Thread.subPend (x : Thread) (m : BitVec 32) : Thread := { x with pend := x.pend &&& ~~~m }

/-- The state of a thread. -/
def State.tstate (s : State) (t : Nat) : Nat := s.fld (R.SEQ_THREAD_STATUS.STATE t)

/-- The PC of a thread. -/
def State.pc (s : State) (t : Nat) : Nat := 8 * s.fld (R.SEQ_THREAD_PC.PC t)

/-- Set the PC: bits [2:0] are 0, 57 bits (Table 3.11). -/
def State.setPc (s : State) (t : Nat) (pc : Nat) : State := s.setFld (R.SEQ_THREAD_PC.PC t) (pc / 8)

/-- Set a thread's STATE and REASON. -/
def State.setTState (s : State) (t st reason : Nat) : State :=
  (s.setFld (R.SEQ_THREAD_STATUS.STATE t) st).setFld (R.SEQ_THREAD_STATUS.REASON t) reason

/-- A thread's partition. -/
def State.tpart (s : State) (t : Nat) : Nat := s.fld (R.SEQ_THREAD_CFG.PART t)

/-- The tenancy tag of a thread (R52). -/
def State.ttag (s : State) (t : Nat) : BitVec 16 := s.tagOf (s.tpart t)

/-- The Skidder bound to a thread. -/
def State.tskid (s : State) (t : Nat) : Nat := s.fld (R.SEQ_THREAD_CFG.SKIDDER t)

/-- The threads assigned to a partition. -/
def State.threadsOf (s : State) (p : Nat) : List Nat :=
  (upFrom 0 512).filter fun t => s.flag (R.SEQ_THREAD_CFG.ASSIGNED t) && s.tpart t == p

/-- SEQ_THREAD_STATUS.REASON of a wait (Table 3.13); `k` is the KIND of the handle waited for. -/
def Wait.reason (k : Nat) : Wait → Nat
  | .idle => 0
  | .regs _ => 1
  | .outstanding | .tray | .slot _ | .writeback | .fill .. | .lineHold .. | .endpoint .. | .ledger _ | .bucket .. | .handleSlot | .engineOps
  | .queue _ => 2
  | .fence _ => 3
  | .tick _ => 5
  | .fetch _ => 6
  | .handle _ => if k = 2 then 4 else if k = 3 then 7 else 1
  | .kernel _ => 4
  | .collective _ => 7

/-- Make a thread WAITING (Table 3.2). -/
def State.waitOn (s : State) (t : Nat) (w : Wait) (k : Nat := 0) : State :=
  let s := if w matches .bucket .. then s.count R.SWC_WHISK_STATUS.HELD else s
  (s.setThr t { s.thr t with wait := w }).setTState t stWaiting (w.reason k)

/-- A submission of the thread that waits (R182, R204, R244). -/
def State.stuck (s : State) (t : Nat) : Option Wait :=
  (s.descs.find? fun o => o.thread == t && !o.dead && o.waits.isSome).bind (·.waits)

/-- Make a thread RUNNABLE; one with a submission that waits goes on waiting for that (R248). -/
def State.runnable (s : State) (t : Nat) : State :=
  match s.stuck t with
  | some w => s.waitOn t w
  | none => (s.setThr t { s.thr t with wait := .idle }).setTState t stRunnable 0

/-- A thread enters FAULTED with a cause; PC stays at the faulting instruction (R64). -/
def State.enterFaulted (s : State) (t cause : Nat) : State :=
  ((s.setThr t { s.thr t with wait := .idle }).setTState t stFaulted 0).setFld (R.SEQ_THREAD_STATUS.CAUSE t) cause

/-- The thread fault record (Table 3.8). -/
def State.threadRecord (s : State) (t cause info : Nat) : Nat :=
  packBits [(0, 1), (8, cause), (16, t), (32, (s.ttag t).toNat), (64, s.pc t), (128, s.tick), (192, info % 2 ^ 64)]

/-- A fault-class event: FAULTED, and one TYPE 0x01 record in the partition's ring (R64, R65). -/
def State.threadFault (s : State) (t cause info : Nat) : State :=
  (s.enterFaulted t cause).ringRecord (s.tpart t) (s.threadRecord t cause info)

/-- A trap-class event (R64): the handler where there is one and HANDLER is 0; otherwise FAULTED, with TRAP_IN_HANDLER
where HANDLER is 1. Where HANDLER is 1 and TRAPVEC is 0 both of R64's cases apply: TRAP_IN_HANDLER, with the event's own cause
as its information, is the model's choice (DESIGN CHOICE, log entry 70). -/
def State.trap (s : State) (t cause info : Nat) : State :=
  if s.flag (R.SEQ_THREAD_STATUS.HANDLER t) then s.threadFault t 0x05 cause
  else if s.fld (R.SEQ_THREAD_TRAPVEC.VEC t) = 0 then s.threadFault t cause info
  else
    let x := s.thr t
    let s := s.setThr t { x with trapPc := BitVec.ofNat 64 (s.pc t), trapCause := BitVec.ofNat 64 cause,
                                 trapInfo := BitVec.ofNat 64 info, wait := .idle }
    let s := (s.raise (R.SEQ_THREAD_STATUS.HANDLER t)).setFld (R.SEQ_THREAD_STATUS.CAUSE t) cause
    (s.setTState t stRunnable 0).setPc t (8 * s.fld (R.SEQ_THREAD_TRAPVEC.VEC t))

/-- Take a held status trap before the thread next issues (R232). -/
def State.takeHeld (s : State) (t : Nat) : State :=
  let x := s.thr t
  match x.held with
  | none => s
  | some st =>
    if s.tstate t = stRunnable ∧ ¬ s.flag (R.SEQ_THREAD_STATUS.HANDLER t) then
      (s.setThr t { x with held := none }).trap t 0x07 st.toNat
    else s

/-- A status word without a key (Table 10.7). -/
def statusWord (status : Nat) : Word := BitVec.ofNat 64 (status % 16)

/-- A status word with a ledger key (Table 10.7). -/
def keyWord (status lseq skid t16 : Nat) : Word :=
  BitVec.ofNat 64 (packBits [(0, status % 16), (23, 1), (24, lseq % 2 ^ 16), (40, skid % 128), (48, t16 % 2 ^ 16)])

/-- The status word of a handle (Table 10.7). -/
def handleWord (h : Handle) : Word :=
  BitVec.ofNat 64 (packBits [(0, h.status % 16), (7, b2n h.busy), (8, h.detail % 256), (16, h.kind % 4)])

/-- Write a status word to a status register; a non-OK status other than XLATE_FAULT arms a status trap where
TRAP_STATUS = 1 (R232). -/
def State.writeStatus (s : State) (t : Nat) (r : BitVec 5) (w : Word) : State :=
  let x := (s.thr t).setReg r w
  let st : BitVec 4 := BitVec.ofNat 4 w.toNat
  let arms := s.flag (R.SEQ_THREAD_CFG.TRAP_STATUS t) && st != 0 && st != 2 && r != 0
  s.setThr t { x with held := if arms && x.held.isNone then some st else x.held }

/-- A watch line. -/
def State.wl (s : State) (w : Nat) : Watch := FMap.get (fun _ => {}) s.watch w

/-- Replace a watch line. -/
def State.setWl (s : State) (w : Nat) (x : Watch) : State := { s with watch := FMap.set (fun _ => {}) s.watch w x }

/-- A parked thread leaves its watch line, which goes from PARKED to IDLE with no delivery (R50). -/
def State.unpark (s : State) (t : Nat) : State :=
  let w := s.fld (R.SEQ_THREAD_STATUS.WATCH t)
  if s.tstate t = stParked ∧ (s.wl w).state = 4 ∧ (s.wl w).thread = t then
    s.setWl w { s.wl w with state := 2, thread := 0, deadline := 0 }
  else s

/-- Mark the completions of a thread's outstanding requests and descriptor reads for discarding (R50); write-backs for its
OWN.REL go on, and no instruction waits for them any more. -/
def State.killRequests (s : State) (t : Nat) : State :=
  { s with slots := s.slots.map fun e =>
             if e.2.owner = .thread t then (e.1, { e.2 with dead := true })
             else if e.2.owner = .writeback t then (e.1, { e.2 with owner := .writeback 512 }) else e,
           descs := s.descs.map fun e => if e.thread = t then { e with dead := true } else e }

/-- The register that an LP.SET of the thread still has to write (R249): no request, so that HALT does not discard it. -/
def State.lpReg (s : State) (t : Nat) : BitVec 32 :=
  match s.opt.sw with
  | some x => (match x.by_ with | .lp u st => if u = t then regMask st else 0 | _ => 0)
  | none => 0

/-- Stop a thread from issuing: HALTED, off its watch line, DRAINING while requests are outstanding (R50). Its registers, the
pending one of an LP.SET and a held status trap stay (R224, R225, R232; that the held trap is part of what HALT leaves in
place is DEDUCED, log entry 64). -/
def State.haltThread (s : State) (t : Nat) : State :=
  let s := (s.unpark t).killRequests t
  let s := s.setThr t { s.thr t with wait := .idle, pend := s.lpReg t, wbFail := 0 }
  let s := s.setTState t stHalted 0
  s.setFld (R.SEQ_THREAD_STATUS.DRAINING t) (b2n (s.flag (R.SEQ_THREAD_STATUS.OUTSTANDING t)))

/-- An LP.SET of a thread that has been reset writes no register any more (R224, R225). -/
def State.dropLp (s : State) (t : Nat) : State :=
  match s.opt.sw with
  | some x => (match x.by_ with
    | .lp u _ => if u = t then { s with opt := { s.opt with sw := some { x with by_ := .lp u 0 } } } else s
    | _ => s)
  | none => s

/-- Clear what RESET clears (R224): registers, predicates, wake buffer, handle slots, check floor, trap registers and
HANDLER; engine operations go on without their slots (R243). -/
def State.clearThread (s : State) (t : Nat) : State :=
  let x := s.thr t
  ((s.dropLp t).setThr t { ops := x.ops, reads := x.reads, opsFrom := x.opsFrom }).setFld (R.SEQ_THREAD_STATUS.HANDLER t) 0

/-- A handle slot of a thread. -/
def Thread.hand (x : Thread) (i : Nat) : Handle := FMap.get (fun _ => {}) x.hands i

/-- Replace a handle slot. -/
def Thread.setHand (x : Thread) (i : Nat) (h : Handle) : Thread :=
  { x with hands := FMap.set (fun _ => {}) x.hands i h }

/-- The lowest free handle slot. -/
def Thread.freeHand (x : Thread) : Option Nat := (upFrom 0 16).find? fun i => !(x.hand i).used

/-- The handle slot that tracks operation `op`. -/
def Thread.handOf (x : Thread) (op : Nat) : Option Nat :=
  (upFrom 0 16).find? fun i => (x.hand i).used && (x.hand i).op == op

/-- Operation `op` of a thread ends: its handle, where one still tracks it, is no longer BUSY (R242). One from before a
partition reset counts no more (R243). -/
def State.endOp (s : State) (t op status detail : Nat) : State :=
  let x := s.thr t
  let x := if op < x.opsFrom then x else { x with ops := x.ops - 1 }
  match x.handOf op with
  | none => s.setThr t x
  | some i => s.setThr t (x.setHand i { x.hand i with busy := false, status := status, detail := detail })

end Sys2Proof.Machine
end

