-- ==== Sys2Proof/Machine/ColBase.lean ====
section
/-! DEFINITION. Collective entries: the descriptor (R200), ranks and rings (R197), phases (R198), control messages (R212)
and aborts (R219, R221). -/

namespace Sys2Proof.Machine

open Sys2Proof

/-! ## The descriptor (Table 9.2) -/

def cdOp (d : Nat) : Nat := getBits d 0 8
def cdAligned (d : Nat) : Bool := bitOf d 8
def cdRnd (d : Nat) : Bool := bitOf d 9
def cdSat (d : Nat) : Bool := bitOf d 10
def cdFmt (d : Nat) : Nat := getBits d 16 4
def cdRop (d : Nat) : Nat := getBits d 20 2
def cdH (d : Nat) : Nat := getBits d 24 5
def cdCid (d : Nat) : Nat := getBits d 32 32
def cdSeed (d : Nat) : Nat := getBits d 64 64
def cdCompl (d : Nat) : Nat := getBits d 128 64
def cdUser (d : Nat) : Nat := getBits d 192 64
def cdCkind (d : Nat) : Nat := getBits d 256 16
def cdNsrc (d : Nat) : Nat := getBits d 272 3
def cdOrder (d : Nat) : Nat := getBits d 280 6
def cdCseq (d : Nat) : Nat := getBits d 288 32
def cdMemb (d : Nat) : Nat := getBits d 320 64
def cdDim (d a : Nat) : Nat := getBits d (384 + 16 * a) 13
def cdRoot (d : Nat) : Nat := getBits d 432 16
def cdSrc (d n : Nat) : Nat := getBits d (448 + 64 * n) 64
def cdDst (d : Nat) : Nat := getBits d 704 64
def cdCount (d : Nat) : Nat := getBits d 768 64
def cdSlots (d : Nat) : Nat := getBits d 832 8
def cdPlan (d a : Nat) : Nat := getBits d (840 + 8 * a) 8
def cdPlanEnd (d : Nat) : Nat := getBits d 864 8
def cdShift (d : Nat) : Int := signedOf 16 (getBits d 880 16)
def cdVec (d : Nat) : Nat := getBits d 896 64
def cdStage (d : Nat) : Nat := getBits d 960 64

/-- Whether a descriptor is an exchange (R213). -/
def cdExchange (d : Nat) : Bool := decide (8 ≤ cdOp d)

/-- NMEM. -/
def cdN (d : Nat) : Nat := cdDim d 0 * cdDim d 1 * cdDim d 2

/-- The axes of ORDER with DIM greater than 1: A0, A1, A2 (Table 9.1). -/
def cdAxes (d : Nat) : List Nat :=
  [getBits (cdOrder d) 0 2, getBits (cdOrder d) 2 2, getBits (cdOrder d) 4 2].filter fun a => decide (1 < cdDim d a)

/-- DIM(A0): the size of the first axis of ORDER that is greater than 1 (Table 9.1). -/
def cdDimA0 (d : Nat) : Nat := match cdAxes d with | a :: _ => cdDim d a | [] => 1

/-- Whether partials travel as integers: Aligned mode with ADD on a float format (R178, R203). -/
def cdWide (d : Nat) : Bool := cdAligned d && cdRop d == 0 && decide (cdFmt d < 3) && decide (cdOp d ≤ 3)

/-! ## Ranks and rings (R197) -/

/-- Coordinate of a rank on an axis. -/
def coord (d r a : Nat) : Nat :=
  if a = 0 then r % cdDim d 0 else if a = 1 then r / cdDim d 0 % cdDim d 1 else r / (cdDim d 0 * cdDim d 1)

/-- The rank with a rank's coordinates but for coordinate `c` on axis `a`. -/
def onAxis (d r a c : Nat) : Nat :=
  let x := fun b => if b = a then c else coord d r b
  x 0 + cdDim d 0 * (x 1 + cdDim d 1 * x 2)

/-- The members of the ring on axis `a`, by ascending coordinate. -/
def ring (d r a : Nat) : List Nat := (upFrom 0 (cdDim d a)).map fun c => onAxis d r a c

/-- The first descriptor of an entry. -/
def ColEntry.desc (e : ColEntry) : Nat := match e.descs with | d :: _ => d.toNat | [] => 0

/-- FEID of a rank. -/
def ColEntry.feid (e : ColEntry) (r : Nat) : Nat := e.members.getD r 0xFFFF

/-- The ring neighbours of a member on every axis, at most 6 (R207). -/
def ColEntry.neighbours (e : ColEntry) : List Nat :=
  let d := e.desc
  let axes := (upFrom 0 3).filter fun a => decide (1 < cdDim d a)
  let l := axes.map fun a =>
    let n := cdDim d a
    let c := coord d e.rank a
    [onAxis d e.rank a ((c + 1) % n), onAxis d e.rank a ((c + n - 1) % n)]
  (l.flatten.map e.feid).eraseDups

/-! ## Phases (Table 9.1, R202) -/

/-- A phase: kind (0 reduce-scatter, 1 all-gather, 2 broadcast, 3 exchange), index of its axis among A0, A1, A2, pre-pass or
not, and number (Table 9.3). -/
structure Phase where
  kind : Nat
  ax : Nat
  pre : Bool := false
  num : Nat
deriving DecidableEq, Repr

/-- The phases of a descriptor, in order, with the exponent pre-pass or without. -/
def cdPhases (d : Nat) (pre : Bool) : List Phase :=
  let n := (cdAxes d).length
  let rs := (upFrom 0 n).map fun i => (0, i)
  let ag := ((upFrom 0 n).map fun i => (1, i)).reverse
  let main := if cdOp d = 1 ∨ cdOp d = 3 then rs ++ ag else if cdOp d = 2 then rs else if cdOp d = 4 then ag
    else if cdOp d = 5 then (upFrom 0 n).map fun i => (2, i) else [(3, 0)]
  let number := fun (l : List (Nat × Nat)) (pre : Bool) (base : Nat) =>
    (upFrom 0 l.length).map fun i =>
      let x := l.getD i (0, 0)
      ({ kind := x.1, ax := x.2, pre := pre, num := base + i } : Phase)
  (if pre then number (rs ++ ag) true 8 else []) ++ number main false 0

/-- The phases of a collective: those of its first descriptor, with a pre-pass where any descriptor of the batch takes one (R202,
R216). -/
def ColEntry.phases (e : ColEntry) : List Phase := cdPhases e.desc (e.descs.any fun b => cdWide b.toNat)

/-- The phase that runs or comes next; none once the last one has ended. -/
def ColEntry.phaseNow (e : ColEntry) : Option Phase := e.phases[e.phase]?

/-- The plan named for a phase (R202, R208); 0xFF none. -/
def Phase.plan (p : Phase) (d : Nat) : Nat :=
  if p.pre ∨ p.kind = 3 then 0xFF else cdPlan d ((cdAxes d).getD p.ax 0)

/-- The plan that the coming step switches to: a switching phase, or the closing step (R208). -/
def ColEntry.stepPlan (e : ColEntry) : Option Nat :=
  let p := match e.phaseNow with
    | some p => p.plan e.desc
    | none => cdPlanEnd e.desc
  if p = 0xFF ∨ p = e.lastPlan then none else some p

/-- The STEP number of the coming step in READY: the phase number, 15 for the closing step. -/
def ColEntry.step (e : ColEntry) : Nat := match e.phaseNow with | some p => p.num | none => 15

/-- Whether the coming step starts by agreement (R208, R213). -/
def ColEntry.byAgreement (e : ColEntry) : Bool :=
  e.stepPlan.isSome || (match e.phaseNow with | some p => p.kind == 3 | none => false)

/-! ## Entries -/

/-- Whether a member still lacks a neighbour's JOIN (R207). -/
def ColEntry.missing (e : ColEntry) : Bool := !cdExchange e.desc && e.neighbours.any fun f => !e.joined.contains f

/-- COL_ENTRY.STATE (Table 9.16). -/
def ColEntry.state (e : ColEntry) : Nat :=
  if e.abort.isSome then 5
  else if e.res = 0 then 1
  else if e.missing then 2
  else if e.phaseNow.isNone then 4
  else 3

/-- The phase in progress: its number; 15 for the closing step; the last phase's where there is no closing step. -/
def ColEntry.phaseShown (e : ColEntry) : Nat :=
  match e.phaseNow with
  | some p => p.num
  | none =>
    if e.asked ∨ e.stepPlan.isSome then 15
    else match e.phases.getLast? with
      | some p => p.num
      | none => 0

/-- COL_ENTRY of an entry (Table 9.16). -/
def ColEntry.view (e : ColEntry) : Nat :=
  packBits [(0, e.state), (3, b2n (e.res == 2)), (4, e.part), (10, e.phaseShown), (14, e.cid)]

/-- COL_STATUS counts (Table 9.15). -/
def State.colNote (s : State) : State :=
  (s.setFld R.COL_STATUS.ACTIVE s.col.entries.length).setFld R.COL_STATUS.SPILLING
    (s.col.entries.filter fun e => e.2.res == 2).length

/-- Write an entry. -/
def State.setCol (s : State) (h : Nat) (e : ColEntry) : State :=
  (({ s with col := { s.col with entries := s.col.entries.put h e } }).setReg (R.COL_ENTRY.adr h)
    (BitVec.ofNat 64 e.view)).colNote

/-- The entry at an index. -/
def State.colAt (s : State) (h : Nat) : Option ColEntry := FMap.find s.col.entries h

/-- The active collective of a partition with these CID bits (R204, R211). -/
def State.colFind (s : State) (p cid : Nat) : Option (Nat × ColEntry) :=
  s.col.entries.find? fun e => e.2.part == p && e.2.cid % 2 ^ 14 == cid % 2 ^ 14

/-- The active collective of a partition with this CID. -/
def State.colOf (s : State) (p : Nat) (cid : BitVec 32) : Option (Nat × ColEntry) :=
  s.col.entries.find? fun e => e.2.part == p && e.2.cid == cid.toNat

/-- CID bits of a COLL or XCHG packet (Table 9.3). -/
def lineCid (p : Packet) : Nat := getBits p.line.toNat 40 6 + 64 * getBits p.line.toNat 32 8

/-- The CID of a COLL_CTL packet (Table 9.4). -/
def ccCid (p : Packet) : Nat := getBits p.payload.toNat 32 32

/-- The active collective here that a packet belongs to: a COLL or XCHG packet by the TAG partition and CID[13:0], a COLL_CTL
packet by its CID (R211, R212). -/
def State.colOfPacket (s : State) (p : Packet) : Option (Nat × ColEntry) :=
  if p.op = opCOLL ∨ p.op = opXCHG then s.colFind (partOf p.tag) (lineCid p)
  else if p.op = opCOLLCTL then s.colOf (partOf p.tag) (BitVec.ofNat 32 (ccCid p))
  else none

/-- The abort record of a partition and CID, within its life (R221). -/
def State.abortRecord (s : State) (p cid : Nat) : Option ColAbort :=
  s.col.aborts.find? fun a => a.part == p && a.cid == cid

/-- The plan lock shown in COL_STATUS (R210): none, or its holder. -/
def State.noteLock (s : State) : State :=
  match s.opt.lock with
  | none => ((s.setFld R.COL_STATUS.LP_HELD 0).setFld R.COL_STATUS.LP_PART 0).setFld R.COL_STATUS.LP_CID 0
  | some .cmd => s.setFld R.COL_STATUS.LP_HELD 1
  | some (.lp t) => (s.setFld R.COL_STATUS.LP_HELD 1).setFld R.COL_STATUS.LP_PART (s.tpart t)
  | some (.coll p cid) =>
    ((s.setFld R.COL_STATUS.LP_HELD 1).setFld R.COL_STATUS.LP_PART p).setFld R.COL_STATUS.LP_CID cid

/-- Take or give up the plan lock. -/
def State.setLock (s : State) (l : Option LockBy) : State := ({ s with opt := { s.opt with lock := l } }).noteLock

/-! ## Switches of light plans (R220, R260) -/

/-- Replace the optics record. -/
def State.setOpt (s : State) (x : OptState) : State := { s with opt := x }

/-- Request a switch that is known to be allowed: PENDING and NEXT show it (R260). -/
def State.askSwitch (s : State) (q t : Nat) (by_ : SwitchBy) : State :=
  let s := s.setOpt { s.opt with sw := some { plan := q, tick := t, by_ := by_ } }
  (s.setFld R.OPT_PLAN_STATUS.PENDING 1).setFld R.OPT_PLAN_STATUS.NEXT q

/-- The plan of an aborted collective's restoring switch (R220): PLAN_END, or the plan in force before its first switch; none
where it names no closing plan and has switched nothing. -/
def ColEntry.restorePlan (e : ColEntry) : Option Nat :=
  if cdPlanEnd e.desc ≠ 0xFF then some (cdPlanEnd e.desc) else if e.moved then some e.before else none

/-- This member learns of an abort with epoch `epoch` while it holds the plan lock for the collective: the restoring switch is
requested, for e + 192, or for the next tick boundary where that has passed or the time state is LOST (R220). It waits for a switch
under way, and replaces one that has not started by its tick. -/
def State.askRestore (s : State) (e : ColEntry) (epoch : Nat) : State :=
  if s.opt.lock ≠ some (.coll e.part e.cid) then s
  else match e.restorePlan with
  | none => s
  | some q =>
    let t := if s.fld R.GLB_TIME_STATUS.STATE = 4 ∨ epoch + 192 < s.tick then s.tick + 1 else epoch + 192
    match s.opt.sw with
    | none => s.askSwitch q t .restore
    | some x =>
      if x.stage = 0 ∧ (x.by_ = .restore ∨ t ≤ x.tick) then s.askSwitch q t .restore
      else s.setOpt { s.opt with restore := some (q, t) }

/-! ## Control messages and aborts -/

/-- A COLL_CTL packet to a member (R212, Table 9.4). -/
def State.colCtl (s : State) (e : ColEntry) (dest type step round : Nat) (ok spill : Bool) (value : Nat) : State :=
  let pay := packBits [(0, type), (8, step), (12, round), (16, b2n ok), (17, b2n spill), (32, e.cid % 2 ^ 32), (64, value % 2 ^ 64)]
  s.sendPacket { dst := BitVec.ofNat 16 dest, src := BitVec.ofNat 16 s.feid, tag := e.tag,
                 opcode := opcodeOf false opCOLLCTL 0, vc := 7, payload := BitVec.ofNat 640 pay }

/-- Send ABORT to every ring neighbour (R219). -/
def State.sendAborts (s : State) (e : ColEntry) (epoch : Nat) : State :=
  e.neighbours.foldl (fun s f => s.colCtl e f 3 0 0 false false epoch) s

/-- Keep an abort record: the 256 most recent (R221). -/
def State.keepAbort (s : State) (p cid epoch : Nat) : State :=
  let rest := s.col.aborts.filter fun a => !(a.part == p && a.cid == cid)
  { s with col := { s.col with aborts := ({ part := p, cid := cid, epoch := epoch, at_ := s.tick } :: rest).take 256 } }

/-- This member detects a trigger of Table 9.8: the epoch is this tick; ABORT goes to every neighbour (R219). Only the first
trigger counts. -/
def State.colAbort (s : State) (h detail : Nat) : State :=
  match s.colAt h with
  | none => s
  | some e =>
    if e.abort.isSome then s
    else
      let s := (s.setCol h { e with abort := some (s.tick, detail), running := false, blocks := [] }).askRestore e s.tick
      ((s.keepAbort e.part e.cid s.tick).sendAborts e s.tick).raise R.COL_EVENTS.ABORT_SENT

/-- Whether a member's Route Table entry is not valid or has no usable link (Table 9.8). -/
def State.memberLost (s : State) (f : Nat) : Bool :=
  f != s.feid && (!s.routeValid f || (s.chooseLink f (s.route f) 0).isNone)

/-- Abort every collective that has a member for which a test holds, with DETAIL 0x10 (R219). -/
def State.colLost (s : State) (lost : Nat → Bool) : State :=
  s.col.entries.foldl (fun s e => if e.2.members.any lost then s.colAbort e.1 0x10 else s) s

/-- Abort the collectives whose packets a channel lost with its replay buffer, with DETAIL 0x14 (R153, R219). -/
def State.colReplayLost (s : State) (ps : List Packet) : State :=
  ps.foldl (fun s p =>
    match s.colOfPacket p with
    | some (h, _) => s.colAbort h 0x14
    | none => s) s

/-- A packet of a collective is discarded as UNREACHABLE here: the collective aborts where this module is a member of it, with
DETAIL 0x10 (R219). -/
def State.colDropped (s : State) (p : Packet) : State :=
  match s.colOfPacket p with
  | some (h, e) => if e.members.contains p.dst.toNat then s.colAbort h 0x10 else s
  | none => s

/-- Whether a packet's fate is a discard as UNREACHABLE. -/
def Fate.lost : Fate → Bool
  | .drop _ (some st) _ _ => st == sUNREACH
  | _ => false

/-- Abort every collective (R219: time state LOST). -/
def State.colAbortAll (s : State) (detail : Nat) : State := (FMap.keys s.col.entries).foldl (fun s h => s.colAbort h detail) s

end Sys2Proof.Machine
end

