-- ==== Sys2Proof/Machine/Formats.lean ====
section
/-! DEFINITION. Binary floating-point formats: exact dyadic values, rounding to nearest even, addition, minimumNumber and
maximumNumber (R111), for the atomics and for the Ladle arrays. -/

namespace Sys2Proof.Machine

/-- A binary interchange format: exponent and mantissa widths. -/
structure Fmt where
  ew : Nat
  mw : Nat
deriving DecidableEq, Repr

def fp16 : Fmt := ⟨5, 10⟩
def bf16 : Fmt := ⟨8, 7⟩
def fp32 : Fmt := ⟨8, 23⟩
def fp64 : Fmt := ⟨11, 52⟩

def Fmt.bias (f : Fmt) : Nat := 2 ^ (f.ew - 1) - 1
def Fmt.width (f : Fmt) : Nat := 1 + f.ew + f.mw

/-- An exact value m·2^e. -/
structure Dy where
  m : Int
  e : Int
deriving DecidableEq, Repr

/-- A decoded number. -/
inductive Num
  | nan
  | inf (neg : Bool)
  /-- finite, with the sign of a zero kept -/
  | fin (neg : Bool) (v : Dy)
deriving DecidableEq, Repr

/-- Decode a bit pattern. -/
def Fmt.decode (f : Fmt) (n : Nat) : Num :=
  let man := n % 2 ^ f.mw
  let ex := getBits n f.mw f.ew
  let neg := bitOf n (f.ew + f.mw)
  if ex = 2 ^ f.ew - 1 then (if man = 0 then .inf neg else .nan)
  else
    let mag : Int := if ex = 0 then man else (2 ^ f.mw + man : Nat)
    let e : Int := (if ex = 0 then 1 else ex : Nat) - (f.bias + f.mw : Nat)
    .fin neg ⟨if neg then -mag else mag, e⟩

/-- The canonical quiet NaN: sign 0, exponent all ones, top mantissa bit (R111). -/
def Fmt.qnan (f : Fmt) : Nat := (2 ^ f.ew - 1) * 2 ^ f.mw + 2 ^ (f.mw - 1)

/-- An infinity's pattern. -/
def Fmt.infBits (f : Fmt) (neg : Bool) : Nat := b2n neg * 2 ^ (f.ew + f.mw) + (2 ^ f.ew - 1) * 2 ^ f.mw

/-- n / 2^k rounded to nearest, ties to even. -/
def rneShift (n k : Nat) : Nat :=
  let q := n / 2 ^ k
  let r := n % 2 ^ k
  if 2 * r < 2 ^ k then q else if 2 * r > 2 ^ k then q + 1 else q + q % 2

/-- Bits in the binary representation. -/
def bitLen (n : Nat) : Nat := if n = 0 then 0 else Nat.log2 n + 1

/-- Round the magnitude n·2^e to nearest even: a pattern without sign. Beyond the greatest finite value it is infinity. -/
def Fmt.roundMag (f : Fmt) (n : Nat) (e : Int) : Nat :=
  if n = 0 then 0
  else
    let emin : Int := 1 - (f.bias + f.mw : Nat)
    let q : Int := max (e + bitLen n - (f.mw + 1 : Nat)) emin
    let man := if q ≤ e then n * 2 ^ (e - q).toNat else rneShift n (q - e).toNat
    let bits := (q - emin).toNat * 2 ^ f.mw + man
    if bits ≥ (2 ^ f.ew - 1) * 2 ^ f.mw then (2 ^ f.ew - 1) * 2 ^ f.mw else bits

/-- Round an exact value; `negZero` is the sign of an exact zero. -/
def Fmt.round (f : Fmt) (v : Dy) (negZero : Bool := false) : Nat :=
  let neg := if v.m = 0 then negZero else decide (v.m < 0)
  b2n neg * 2 ^ (f.ew + f.mw) + f.roundMag v.m.natAbs v.e

/-- Exact sum. -/
def Dy.add (a b : Dy) : Dy :=
  let e := min a.e b.e
  ⟨a.m * 2 ^ (a.e - e).toNat + b.m * 2 ^ (b.e - e).toNat, e⟩

/-- Exact product. -/
def Dy.mul (a b : Dy) : Dy := ⟨a.m * b.m, a.e + b.e⟩

/-- Exact comparison a < b. -/
def Dy.lt (a b : Dy) : Bool :=
  let e := min a.e b.e
  decide (a.m * 2 ^ (a.e - e).toNat < b.m * 2 ^ (b.e - e).toNat)

/-- Floating-point addition, rounded once to nearest even (R111). -/
def Fmt.add (f : Fmt) (a b : Nat) : Nat :=
  match f.decode a, f.decode b with
  | .nan, _ => f.qnan
  | _, .nan => f.qnan
  | .inf s, .inf t => if s = t then f.infBits s else f.qnan
  | .inf s, _ => f.infBits s
  | _, .inf t => f.infBits t
  | .fin s x, .fin t y => f.round (x.add y) (s && t)

/-- Order key of a non-NaN pattern: −0 below +0. -/
def Fmt.ordKey (f : Fmt) (n : Nat) : Int :=
  let mag : Int := (n % 2 ^ (f.ew + f.mw) : Nat)
  if bitOf n (f.ew + f.mw) then -mag - 1 else mag

/-- minimumNumber, or maximumNumber where `up` (R111). -/
def Fmt.minMax (f : Fmt) (up : Bool) (a b : Nat) : Nat :=
  match f.decode a, f.decode b with
  | .nan, .nan => f.qnan
  | .nan, _ => b
  | _, .nan => a
  | _, _ => if (decide (f.ordKey a < f.ordKey b)) != up then a else b

/-- The format of a type code of Table 7.4, none for an integer type. -/
def typeFmt (ty : Nat) : Option Fmt :=
  if ty = 4 then some fp32 else if ty = 5 then some fp64 else if ty = 6 then some bf16
  else if ty = 7 then some fp16 else none

/-- The new value of an atomic operand of `w` bytes (Table 6.2): operation and type codes as Table 7.4, operand A and, for
CAS, the swap value B. -/
def atomNew (op ty w old a b : Nat) : Nat :=
  let m := 2 ^ (8 * w)
  let a := a % m
  let b := b % m
  let signed := decide (ty ≤ 1)
  let less := if signed then decide (signedOf (8 * w) a < signedOf (8 * w) old) else decide (a < old)
  if op = 0 then (old + a) % m
  else if op = 1 then a
  else if op = 2 then (if old = a then b else old)
  else if op = 3 then old &&& a
  else if op = 4 then old ||| a
  else if op = 5 then old ^^^ a
  else if op = 6 then (if less then a else old)
  else if op = 7 then (if less ∨ a = old then old else a)
  else match typeFmt ty with
    | some f => if op = 8 then f.add old a else f.minMax (op == 10) old a
    | none => old

/-- One lane of a reduction: 0 ADD, 1 MIN, 2 MAX; integers wrap (Table 6.2). -/
def redLane (rop ty w old x : Nat) : Nat :=
  match typeFmt ty with
  | some f => if rop = 0 then f.add old x else f.minMax (rop == 2) old x
  | none => atomNew (if rop = 0 then 0 else if rop = 1 then 6 else 7) ty w old x 0

/-- All lanes of `w` bytes in `n` bytes of a line from byte `first`. -/
def redLine (rop ty w first n old data : Nat) : Nat :=
  (upFrom 0 (n / w)).foldl (fun l i =>
    let p := 8 * (first + w * i)
    putBits l p (8 * w) (redLane rop ty w (getBits old p (8 * w)) (getBits data p (8 * w)))) old

end Sys2Proof.Machine
end

