-- ==== Sys2Proof/Machine/Sieve.lean ====
section
/-! DEFINITION. The Sieve: its table, keys, buckets and cache (R90 to R94), the checks of Table 5.5 (R95), placement
(R93, R75), and the protected ranges behind it (R327, R328). -/

namespace Sys2Proof.Machine

open Sys2Proof

/-- A Sieve Table entry by index; a bucket found uncorrectable holds none that a lookup may use (Table 15.3). -/
def State.sieveEntry (s : State) (i : Nat) : Nat := (FMap.get (fun _ => 0) s.siv.table i).toNat

/-- Fields of a Sieve entry (Table 5.4). -/
def seV (e : Nat) : Bool := bitOf e 0
def seSize (e : Nat) : Nat := getBits e 1 2
def seSub (e : Nat) : Nat := getBits e 3 3
def seR (e : Nat) : Bool := bitOf e 6
def seW (e : Nat) : Bool := bitOf e 7
def seAt (e : Nat) : Bool := bitOf e 8
def seMode (e : Nat) : Nat := getBits e 9 2
def seSealed (e : Nat) : Bool := bitOf e 11
def seMir (e : Nat) : Nat := getBits e 12 2
def seGv (e : Nat) : Bool := bitOf e 14
def seGroup (e : Nat) : Nat := getBits e 15 12
def seGran (e : Nat) : Nat := getBits e 27 36
def seTarget (e : Nat) : Nat := getBits e 64 28
def seOwner (e : Nat) : Nat := getBits e (64 + 28) 16
def seMirror (e : Nat) : Nat := getBits e (64 + 44) 16
def seChk (e : Nat) : Nat := getBits e (64 + 60) 3

/-- Lines of a granule: N for SIZE 0, 1, 2. -/
def granLines (size : Nat) : Nat := if size = 0 then 1024 else if size = 1 then 32768 else 16777216

/-- log2 of the lines of a granule. -/
def granShift (size : Nat) : Nat := if size = 0 then 10 else if size = 1 then 15 else 24

/-- The key of a lookup (R91). -/
def sieveKey (gran size sub part : Nat) : Nat := packBits [(0, gran % 2 ^ 36), (36, size % 4), (38, sub % 8), (41, part % 64)]

/-- The two buckets of a key in a partition's range (R91). -/
def sieveBuckets (key base log2b : Nat) : Nat × Nat :=
  let kb := leBytes 8 key
  let ha := (crc32c kb).toNat
  let hb := (crc32c (kb ++ [0xA5#8])).toNat
  let a := base + ha % 2 ^ log2b
  let b := base + hb % 2 ^ log2b
  (a, if b = a ∧ log2b > 0 then a ^^^ 1 else b)

/-- The buckets of a key in the range of its partition (R90). -/
def State.bucketsOf (s : State) (key : Nat) : Nat × Nat :=
  let p := getBits key 41 6
  sieveBuckets key (s.fld (R.SIV_PART.BASE p)) (s.fld (R.SIV_PART.LOG2B p))

/-- Whether an entry has a key. -/
def entryHasKey (e key : Nat) : Bool :=
  seV e && seGran e == key % 2 ^ 36 && seSize e == getBits key 36 2 && seSub e == getBits key 38 3

/-- The index of the valid entry of a key, looked up in its two buckets. -/
def State.sieveFind (s : State) (key : Nat) : Option Nat :=
  let (a, b) := s.bucketsOf key
  ((upFrom (4 * a) 4) ++ (upFrom (4 * b) 4)).find? fun i =>
    entryHasKey (s.sieveEntry i) key && !FMap.get (fun _ => false) s.siv.lost (i / 4)

/-- The granule sizes probed, smallest first (R93). -/
def State.probed (s : State) (p : Nat) : List Nat :=
  (upFrom 0 3).filter fun z => bitOf (s.fld (R.SIV_PART.SIZES p)) z

/-- The entry that a lookup finds: (key, index), the smallest size first (R93). -/
def State.sieveLookup (s : State) (p sub line : Nat) : Option (Nat × Nat) :=
  (s.probed p).findSome? fun z =>
    let key := sieveKey (line / 2 ^ granShift z) z sub p
    (s.sieveFind key).map fun i => (key, i)

/-- The cached entries of a partition. -/
def State.cachedOf (s : State) (p : Nat) : Nat := (s.siv.cache.filter fun e => getBits e.1 41 6 == p).length

/-- Set the CACHED counts of the partitions from the cache. -/
def State.noteCached (s : State) (p : Nat) : State := s.setFld (R.SIV_PART_STATUS.CACHED p) (s.cachedOf p)

/-- The cache set of a key: 32,768 sets of 8 ways; which bits choose the set is not in the spec (log entry 13). -/
def sieveSet (key : Nat) : Nat := Config.sieveCacheSet key % 32768

/-- Remove the last entry that satisfies a predicate: the least recently used one. -/
def dropLast {α : Type} (p : α → Bool) (l : List α) : List α := (l.reverse.eraseP p).reverse

/-- A lookup uses a key: a hit becomes most recently used, a miss fills the cache under R94. -/
def State.cacheTouch (s : State) (key idx : Nat) : State :=
  let c := s.siv.cache
  let p := getBits key 41 6
  if c.any (fun e => e.1 == key) then
    { s with siv := { s.siv with cache := (key, idx) :: c.eraseP fun e => e.1 == key } }
  else
    let limit := 1024 * s.fld (R.SIV_PART.CACHE_MAX p)
    let inSet := c.filter fun e => sieveSet e.1 == sieveSet key
    let full := decide (8 ≤ inSet.length)
    if limit ≠ 0 ∧ limit ≤ s.cachedOf p then
      if inSet.any fun e => getBits e.1 41 6 == p then
        { s with siv := { s.siv with cache := (key, idx) :: dropLast (fun e => sieveSet e.1 == sieveSet key && getBits e.1 41 6 == p) c } }
      else s
    else if full then
      let victim := (inSet.getLast?).map fun e => getBits e.1 41 6
      let s := { s with siv := { s.siv with cache := (key, idx) :: dropLast (fun e => sieveSet e.1 == sieveSet key) c } }
      (match victim with | some q => s.noteCached q | none => s).noteCached p
    else { s with siv := { s.siv with cache := (key, idx) :: c } }.noteCached p

/-- Where a resolved request goes. -/
inductive Place
  /-- HBM line `h` by entry index `i` -/
  | hbm (h i : Nat)
  /-- the memory of the host on H`port`, at host physical address `hpa`, by entry index `i` -/
  | host (port hpa i : Nat)
deriving DecidableEq, Repr

/-- The access class of an operation. -/
def accOf (op : Nat) : Acc :=
  if op = opREAD ∨ op = opBREAD then .load
  else if op = opATOM then .atomic
  else if op = opREDADD ∨ op = opREDMIN ∨ op = opREDMAX then .reduction
  else if op = opINVL then .invl
  else if op = opOWNACQ ∨ op = opOWNREL then .own
  else .store

/-- The placement of a line by an entry, as a byte address in the entry's target space (R93); none where R93 fails. -/
def State.placeLine (s : State) (e line : Nat) : Option Nat :=
  let n := granLines (seSize e)
  if !seGv e then some (seTarget e * 65536 + 64 * (line % n))
  else
    let g := seGroup e
    let gid := s.gGid g
    if !(s.groupValidFor gid && s.gKind g == 0 && gid % 4096 == g) then none
    else
      let b := s.gBucket g (groupBucket gid line (s.gSeed g))
      if !bitOf b 7 || decide (s.gNmem g ≤ b % 64) then none
      else if s.gMember g (b % 64) != s.feid then none
      else
        let m := line / 256 * s.gSlots g + b / 256
        let base := (line / n * n / 256) * s.gSlots g
        some (seTarget e * 65536 + 64 * (m - base))

/-- The checks of Table 5.5, in order: the refusal's status, or where the line lies. -/
def State.sieveCheck (s : State) (tag : BitVec 16) (sub line : Nat) (acc : Acc) (floatAtomic hostRead : Bool) :
    Nat ⊕ Place :=
  let p := partOf tag
  if !(s.flag (R.PRT_STATUS.ENABLED p) && s.flag (R.SIV_PART.EN p)) then .inl sDENY
  else if genOf tag != s.fld (R.PRT_STATUS.GEN p) then .inl sSTALE
  else if s.flag (R.SIV_PART_STATUS.SWEEP p) then .inl sDENY
  else match s.sieveLookup p sub line with
  | none => .inl sDENY
  | some (_, i) =>
    let e := s.sieveEntry i
    match s.placeLine e line with
    | none => .inl sDENY
    | some a =>
      if sub = 0 ∧ seGv e ∧ ¬ s.visible a 64 then .inl sDENY
      else
        let perm := match acc with
          | .load | .invl => seR e
          | .store | .own => seW e
          | .atomic | .reduction => seAt e
        if !perm then .inl sDENY
        else if sub ≠ 0 ∧ (acc = .reduction ∨ floatAtomic) then .inl sDENY
        else if hostRead && seSealed e then .inl sSEALED
        else if sub = 0 then .inr (.hbm (a / 64) i) else .inr (.host (sub - 1) a i)

/-- The cache effect of a request's lookup (R94), where one was made. -/
def State.sieveUse (s : State) (tag : BitVec 16) (sub line : Nat) : State :=
  let p := partOf tag
  if s.flag (R.PRT_STATUS.ENABLED p) && s.flag (R.SIV_PART.EN p) && genOf tag == s.fld (R.PRT_STATUS.GEN p)
      && !s.flag (R.SIV_PART_STATUS.SWEEP p) then
    match s.sieveLookup p sub line with
    | some (k, i) => s.cacheTouch k i
    | none => s
  else s

/-! ## Protected ranges (R327, R328) -/

/-- The protected range in use that holds an HBM byte address: its index (Table 14: SEC_RANGE BASE and SIZE in 64 KiB
units). STATE 0 is free. -/
def State.rangeAt (s : State) (a : Nat) : Option Nat :=
  (upFrom 0 256).find? fun i =>
    s.fld (R.SEC_RANGE.STATE i) != 0
      && decide (65536 * s.fld (R.SEC_RANGE.BASE i) ≤ a
        ∧ a < 65536 * (s.fld (R.SEC_RANGE.BASE i) + s.fld (R.SEC_RANGE.SIZE i)))

/-- Whether a byte address lies in a range that a warm reset left to be scrubbed (R373). -/
def State.oldRange (s : State) (a : Nat) : Bool :=
  s.sec.oldScrubs.any fun e => decide (65536 * e.2.2.1 ≤ a ∧ a < 65536 * (e.2.2.1 + e.2.2.2))

/-- Who reads a line, for Table 14.3. -/
inductive Reader
  /-- a READ without HC of a thread of this module, whose tag names the partition -/
  | thread (p : Nat)
  | fetch (p : Nat)
  | engine (p : Nat)
  | other
deriving DecidableEq, Repr

/-- Whether a read of a byte address is performed (Table 14.3). -/
def State.rangeRead (s : State) (a : Nat) (r : Reader) : Bool :=
  !s.oldRange a && match s.rangeAt a with
  | none => true
  | some i =>
    let q := s.fld (R.SEC_RANGE.PART i)
    if s.fld (R.SEC_RANGE.KIND i) = 0 then true
    else match r with
      | .thread p => p == q
      | .engine p => p == q
      | .fetch _ => false
      | .other => false

/-- Whether a write of a byte address is performed (Table 14.3). -/
def State.rangeWrite (s : State) (a : Nat) : Bool :=
  !s.oldRange a && match s.rangeAt a with
  | none => true
  | some i => s.fld (R.SEC_RANGE.KIND i) == 0 && !s.flag (R.PRT_STATUS.SEALED (s.fld (R.SEC_RANGE.PART i)))

/-- Whether an HBM line lies in an active SEALED range. -/
def State.isSealedLine (s : State) (h : Nat) : Bool :=
  s.oldRange (64 * h) || match s.rangeAt (64 * h) with
  | some i => s.flag (R.SEC_RANGE.KIND i)
  | none => false

/-- Count a SEALED_DENY refusal (R328). -/
def State.sealedDeny (s : State) : State := (s.count R.SEC_COUNTS.DENIED).raise R.SEC_EVENTS.SEALED_DENY

end Sys2Proof.Machine
end

