-- ==== Sys2Proof/Machine/Ledger.lean ====
section
/-! DEFINITION. The Replay Ledger: entries, keys, sets, lookup and recording (R114 to R116, R347). -/

namespace Sys2Proof.Machine

open Sys2Proof

/-- DETAIL for a status met by an engine's access (Tables 8.10, 9.7). -/
def engDetail (status : Nat) : Nat :=
  if status = sUNREACH then 0x10
  else if status = sPOISON then 6
  else if status = sHOST ∨ status = sTIMEOUT then 7
  else if status = sXLATE then 4
  else 5

/-- A ledger entry by index. -/
def State.ledgerEntry (s : State) (i : Nat) : Nat := (FMap.get (fun _ => 0) s.home.ledger i).toNat

/-- Fields of a ledger entry (Table 6.3). -/
def leV (e : Nat) : Bool := bitOf e 0
def leVoid (e : Nat) : Bool := bitOf e 1
def leStatus (e : Nat) : Nat := getBits e 2 4
def leSrc (e : Nat) : Nat := getBits e 8 16
def leEngine (e : Nat) : Nat := getBits e 24 7
def leSeq (e : Nat) : Nat := getBits e 32 16
def leTag (e : Nat) : Nat := getBits e 48 16
def leLine (e : Nat) : Nat := getBits e 64 46
def leSub (e : Nat) : Nat := getBits e 110 3
def leByte (e : Nat) : Nat := getBits e 113 6
def leTick (e : Nat) : Nat := getBits e 128 64
def leResult (e : Nat) : Nat := getBits e 192 64

/-- A ledger key (R114). -/
structure LKey where
  src : Nat
  engine : Nat
  seq : Nat
  tag : Nat
deriving DecidableEq, Repr

/-- The key word (R115). -/
def LKey.word (k : LKey) : Nat :=
  packBits [(0, k.src % 2 ^ 16), (16, k.engine % 128), (24, k.seq % 2 ^ 16), (40, k.tag % 2 ^ 16)]

/-- The set of a key (R115). -/
def LKey.set (k : LKey) : Nat := (crc32c (leBytes 8 k.word)).toNat % 2 ^ 20

/-- The key of an atomic-class request; of the original request for a forwarded one (R114, R129). -/
def Packet.ledgerKey (p : Packet) : LKey :=
  if p.op = opMATOM then
    { src := getBits p.payload.toNat 512 16, engine := getBits p.payload.toNat 528 7, seq := p.lseq.toNat, tag := p.tag.toNat }
  else { src := p.src.toNat, engine := p.eng.toNat, seq := p.lseq.toNat, tag := p.tag.toNat }

/-- Whether an entry records a key. -/
def leIs (e : Nat) (k : LKey) : Bool :=
  leV e && leSrc e == k.src % 2 ^ 16 && leEngine e == k.engine % 128 && leSeq e == k.seq % 2 ^ 16
    && leTag e == k.tag % 2 ^ 16

/-- Whether a record is young: its age is below 8,192 ticks (R115). -/
def State.young (s : State) (e : Nat) : Bool := decide (s.tick - leTick e < 8192)

/-- The four entries of a set. -/
def setEntries (set : Nat) : List Nat := upFrom (4 * set) 4

/-- The entry that records a key: a young one first. -/
def State.ledgerFind (s : State) (k : LKey) : Option Nat :=
  match (setEntries k.set).find? fun i => leIs (s.ledgerEntry i) k && s.young (s.ledgerEntry i) with
  | some i => some i
  | none => (setEntries k.set).find? fun i => leIs (s.ledgerEntry i) k

/-- The entries of a set that are not kept for the record of a host atomic under way (R112). -/
def State.openEntries (s : State) (set : Nat) : List Nat :=
  (setEntries set).filter fun i => !s.home.hostReqs.any fun r => r.way == some i

/-- Where a new record goes: an unused way, else the expired way with the oldest TICK; none where all four are young
(R116) or kept for a host atomic's record (R112). -/
def State.ledgerWay (s : State) (set : Nat) : Option Nat :=
  match (s.openEntries set).find? fun i => !leV (s.ledgerEntry i) with
  | some i => some i
  | none =>
    (s.openEntries set).foldl (fun b i =>
      if s.young (s.ledgerEntry i) then b
      else match b with
        | none => some i
        | some j => if leTick (s.ledgerEntry i) < leTick (s.ledgerEntry j) then some i else b) none

/-- What the ledger says of a request (Table 6.4). -/
inductive LOut
  /-- perform, and record at the entry -/
  | perform (way : Nat)
  /-- replay the recorded STATUS and RESULT -/
  | replay (status result : Nat)
  /-- LEDGER_UNKNOWN with RESULT -/
  | unknown (result : Nat)
  /-- a young key that names another operand -/
  | mismatch
  /-- all four ways are young -/
  | full
  /-- record the key as VOID at the entry -/
  | void (way : Nat)
deriving DecidableEq, Repr

/-- REPLACED_TICK as an answer's RESULT. -/
def State.watermark (s : State) : Nat := s.fld R.HOM_LEDGER_STATUS.REPLACED_TICK

/-- Whether a set was found uncorrectable within the last 8,192 ticks (R347). -/
def State.setLost (s : State) (set : Nat) : Bool :=
  match FMap.find s.home.lostSets set with
  | some t => decide (s.tick - t < 8192)
  | none => false

/-- Look up a key for a request of a form, whose operand is at (line, sub, byte) (R116, R347). -/
def State.ledgerLook (s : State) (k : LKey) (form line sub byte : Nat) : LOut :=
  let fresh := match s.ledgerWay k.set with
    | some w => LOut.perform w
    | none => .full
  if form ≠ 0 ∧ s.setLost k.set then .unknown s.watermark
  else match s.ledgerFind k with
    | some i =>
      let e := s.ledgerEntry i
      if s.young e then
        if leLine e ≠ line ∨ leSub e ≠ sub ∨ leByte e ≠ byte then .mismatch
        else if leVoid e then .unknown s.watermark
        else .replay (leStatus e) (leResult e)
      else if !leVoid e then (if form = 0 then .perform i else .unknown (2 ^ 63))
      else if form = 2 then (match s.ledgerWay k.set with | some w => .void w | none => .full)
      else fresh
    | none =>
      if form = 2 then (match s.ledgerWay k.set with | some w => .void w | none => .full) else fresh

/-- Write a record; a replaced performed record raises REPLACED_TICK (R116). -/
def State.ledgerWrite (s : State) (way : Nat) (k : LKey) (line sub byte : Nat) (void : Bool) (status result : Nat) : State :=
  let old := s.ledgerEntry way
  let s := if leV old ∧ ¬ leVoid old ∧ s.watermark < leTick old then
      s.setFld R.HOM_LEDGER_STATUS.REPLACED_TICK (leTick old) else s
  let e := packBits [(0, 1), (1, b2n void), (2, status % 16), (8, k.src % 2 ^ 16), (24, k.engine % 128),
    (32, k.seq % 2 ^ 16), (48, k.tag % 2 ^ 16), (64, line % 2 ^ 46), (110, sub % 8), (113, byte % 64),
    (128, s.tick % 2 ^ 64), (192, result % 2 ^ 64)]
  { s with home := { s.home with ledger := FMap.set (fun _ => 0) s.home.ledger way (BitVec.ofNat 256 e) } }

end Sys2Proof.Machine
end

