-- ==== Sys2Proof/Machine/Home.lean ====
section
/-! DEFINITION. Shared operations of the Home Unit: admission (R95, R137, R328), reads, stores and atomics on module memory
(R102, R111, R131, R346), mirrors (R127 to R129), host memory (R112, R312, R315, R316). -/

namespace Sys2Proof.Machine

open Sys2Proof

/-! ## Admission -/

/-- The access class of a packet: that of the original request for a forwarded atomic. -/
def Packet.acc (p : Packet) : Acc := if p.op = opMATOM then accOf (getBits p.bmc.toNat 2 5) else accOf p.op

/-- Whether an ATOM is a float atomic (check 6 of Table 5.5). -/
def Packet.floatAtomic (p : Packet) : Bool := p.op == opATOM && decide (8 ≤ getBits p.bmc.toNat 9 4)

/-- Who reads, for Table 14.3: a READ without HC of this module is a thread's. -/
def State.readerOf (s : State) (p : Packet) : Reader :=
  if p.op = opREAD ∧ ¬ p.hc ∧ p.src.toNat = s.feid then .thread (partOf p.tag) else .other

/-- Whether a protected range refuses a packet at an HBM line (R328). -/
def State.rangeRefuses (s : State) (p : Packet) (h : Nat) : Bool :=
  if p.op = opREAD ∨ p.op = opBREAD then !s.rangeRead (64 * h) (s.readerOf p)
  else if p.op = opINVL ∨ p.op = opOWNACQ ∨ p.op = opOWNREL then false
  else !s.rangeWrite (64 * h)

/-- The checks of a request at its destination, in order: the trailer (R135, R149), Sieve, BMC, protected ranges (R95, R137,
R328). -/
def State.judgeAt (s : State) (p : Packet) : State × (Nat ⊕ Place) :=
  let r := s.sieveCheck p.tag p.sub.toNat p.line.toNat p.acc p.floatAtomic (p.hc && p.op == opREAD)
  if !s.intact p then (s, .inl sCHECK) else
  let s := s.sieveUse p.tag p.sub.toNat p.line.toNat
  match r with
  | .inl st => (s, .inl st)
  | .inr pl =>
    if !p.bmcValid then (s, .inl sCHECK)
    else match pl with
      | .hbm h _ => if s.rangeRefuses p h then (s.sealedDeny, .inl sSEALED) else (s, .inr pl)
      | .host .. => (s, .inr pl)

/-- Answer a request with a response packet; `marked`: its data came from a SEALED range (R399). -/
def State.respond (s : State) (p : Packet) (status payload : Nat) (pz : Bool := false) (marked : Bool := false) :
    State :=
  s.sendPacket (p.reply s.feid status payload pz) marked

/-- Complete a store: CXL.mem Cmp to a host port for a Module Memory window write, else a response (R306, R103). -/
def State.finish (s : State) (port : Option Nat) (p : Packet) (status : Nat) : State :=
  match port with
  | some h => s.send (.cxlCmp h)
  | none => s.respond p status 0

/-! ## Reading a line of HBM -/

/-- A CREATED poison record for an HBM line (R348, R364). -/
def State.created (s : State) (h wher : Nat) (lineNo : Option (Nat × Nat)) (tag : Nat) : State :=
  s.poisonLog { consumed := false, wher := wher, lineNo := lineNo, tag := tag, feid := s.feid,
                info := if wher = 1 then 64 * h else 0 }

/-- What the check of a line read from HBM finds (R346); a unit that nothing has written is not read (R374). -/
def State.hbmRead (s : State) (h : Nat) (e : Ecc) (lineNo : Option (Nat × Nat)) : State :=
  if ¬ FMap.get (fun _ => false) s.units (h / 1024) then s
  else match e with
  | .clean => s
  | .corrected => s.count R.REL_COUNTS.HBM_CE
  | .uncorrectable =>
    if s.isPoison h then s
    else (((s.setPoison h true).count R.REL_COUNTS.HBM_UE).raise R.REL_EVENTS.HBM_UE).created h 1 lineNo 0

/-! ## Mirrors -/

/-- A request tag of the home's own: which one is not in the spec. -/
def State.ownTag (s : State) : Nat × State :=
  let (r, s) := s.fresh
  (r % 32768, s)

/-- The request tag of a packet as one number. -/
def Packet.rtag (p : Packet) : Nat := p.eng.toNat + 128 * p.slot.toNat

/-- The copy of a store for the mirror (R127); `pz`: the line is poisoned after the store at the primary (Table 6.8). -/
def Packet.mcopy (p : Packet) (me mirror : Nat) (pz : Bool) (rtag : Nat) : Packet :=
  { dst := BitVec.ofNat 16 mirror, src := BitVec.ofNat 16 me, tag := p.tag, opcode := opcodeOf false opMCOPY 0, vc := 4,
    pz := pz, mr := true, line := p.line, sub := p.sub, eng := BitVec.ofNat 7 rtag, slot := BitVec.ofNat 8 (rtag / 128),
    bmc := p.bmc, payload := p.payload }

/-- The forwarded record of an atomic for the mirror (R129, Table 7.3, Table 7.4); PZ where the line is poisoned (R139). -/
def Packet.matom (p : Packet) (me mirror rtag : Nat) (line : Line) (pz : Bool) (status result : Nat) : Packet :=
  { dst := BitVec.ofNat 16 mirror, src := BitVec.ofNat 16 me, tag := p.tag, opcode := opcodeOf false opMATOM 0, vc := 4,
    pz := pz, mr := true, line := p.line, sub := p.sub, eng := BitVec.ofNat 7 rtag, slot := BitVec.ofNat 8 (rtag / 128),
    bmc := BitVec.ofNat 16 (p.opcode.toNat / 4 * 4 + 256 * p.operandByte), lseq := p.lseq,
    payload := BitVec.ofNat 640 (packBits [(0, line.toNat), (512, p.src.toNat), (528, p.eng.toNat), (536, status % 16),
      (576, result % 2 ^ 64)]) }

/-- Send a packet to a mirror and wait for its acknowledgement. -/
def State.toMirror (s : State) (p : Packet) (mirror h : Nat) (kind : MirrorKind) (port : Option Nat)
    (copy : Nat → Packet) : State :=
  let (rtag, s) := s.ownTag
  let m : MirrorOp := { req := p, mirror := BitVec.ofNat 16 mirror, hline := h, kind := kind, port := port, rtag := rtag,
                        start := s.tick, limit := s.fld (R.SEQ_REQ_TIMEOUT.LOG2 (partOf p.tag)) }
  ({ s with home := { s.home with mirror := s.home.mirror ++ [m] } }).sendPacket (copy rtag)

/-- Whether an HBM line has a copy at its mirror that holds later operations on it (R127, R129). -/
def State.mirrorBusy (s : State) (h : Nat) : Bool := s.home.mirror.any fun m => m.hline == h && m.kind != .async

/-- Whether a store is accepted and not yet performed (R127, R128). -/
def MirrorOp.unperformed (m : MirrorOp) : Bool :=
  match m.kind with
  | .store | .engine _ | .waits _ => true
  | _ => false

/-- Whether a load must wait for a store of the same engine to the line that is not yet performed (guarantee 1 of R104): of the
same Skidder, or of the same host port where it comes through the Module Memory window. -/
def State.behindStore (s : State) (h : Nat) (port : Option Nat) (p : Packet) : Bool :=
  s.home.mirror.any fun m => m.hline == h && m.unperformed && m.port == port
    && (port.isSome || (m.req.src == p.src && m.req.eng == p.eng))

/-- Unacknowledged asynchronous copies of a mirror (R128). -/
def State.asyncOut (s : State) (mirror : Nat) : Nat :=
  (s.home.mirror.filter fun m => m.kind == .async && m.mirror.toNat == mirror).length

/-! ## Stores -/

/-- First byte and count of a store (Table 7.3). -/
def Packet.first (p : Packet) : Nat := p.bmc.toNat % 64
def Packet.bytes (p : Packet) : Nat := getBits p.bmc.toNat 6 7

/-- Perform a store on an HBM line: a whole line stored clean clears poison, a partial store of a poisoned line is merged
and answers POISON, PZ poisons the line (R131, R348). The answer is the completion status. -/
def State.performStore (s : State) (p : Packet) (h : Nat) : State × Nat :=
  let bad := s.isPoison h && decide (p.bytes ≠ 64)
  (s.homeWrite h p.first p.bytes p.data (p.pz || bad), if bad then sPOISON else sOK)

/-- Whether a line will be poisoned once the stores accepted for it, and then a store, have been performed (R131). -/
def State.poisonAfter (s : State) (h : Nat) (p : Packet) : Bool :=
  let after (bad : Bool) (q : Packet) : Bool := q.pz || (bad && decide (q.bytes ≠ 64))
  after ((s.home.mirror.filter fun m => m.hline == h && m.unperformed).foldl (fun b m => after b m.req) (s.isPoison h)) p

/-- Send a store's copy to its mirror (R127, R128). -/
def State.copyStore (s : State) (p : Packet) (mirror h : Nat) (kind : MirrorKind) (port : Option Nat) : State :=
  s.toMirror p mirror h kind port (p.mcopy s.feid mirror (s.poisonAfter h p))

/-- Perform a store of an asynchronously mirrored granule and send its copy (R128): the state and the completion status. -/
def State.storeAsync (s : State) (p : Packet) (mirror h : Nat) : State × Nat :=
  let (t, st) := s.performStore p h
  (t.toMirror p mirror h .async none (p.mcopy s.feid mirror (t.isPoison h)), st)

/-- A store to module memory: performed and completed, or sent to its mirror first (R127, R128). -/
def State.storeHbm (s : State) (port : Option Nat) (p : Packet) (h i : Nat) : State :=
  let e := s.sieveEntry i
  if seMir e = 1 then s.copyStore p (seMirror e) h .store port
  else
    let (s, st) := if seMir e = 2 then s.storeAsync p (seMirror e) h else s.performStore p h
    s.finish port p st

/-- Whether a mirror's asynchronous copies are at their limit (R128). -/
def State.asyncFull (s : State) (mirror : Nat) : Bool := decide (s.fld R.HOM_MIRROR_CTL.ASYNC_MAX ≤ s.asyncOut mirror)

/-- Whether a store must wait at the primary (R128): the mirror's asynchronous copies are at their limit. -/
def State.storeWaits (s : State) (i : Nat) : Bool :=
  let e := s.sieveEntry i
  seMir e == 2 && s.asyncFull (seMirror e)

/-! ## Stores of the module's own engines to mirrored granules (R127, R128) -/

/-- A store of an engine of this module: performed, or held until its mirror acknowledges the copy, or until the mirror's copies
are below their limit. -/
def State.storeEngine (s : State) (p : Packet) (h i who : Nat) : State :=
  let e := s.sieveEntry i
  if seMir e = 1 then s.copyStore p (seMirror e) h (.engine who) none
  else if seMir e = 2 then
    if s.asyncFull (seMirror e) ∨ s.home.mirror.any (fun m => m.hline == h && m.unperformed) then
      let m : MirrorOp := { req := p, mirror := BitVec.ofNat 16 (seMirror e), hline := h, kind := .waits who, start := s.tick,
                            limit := s.fld (R.SEQ_REQ_TIMEOUT.LOG2 (partOf p.tag)) }
      { s with home := { s.home with mirror := s.home.mirror ++ [m] } }
    else (s.storeAsync p (seMirror e) h).1
  else (s.performStore p h).1

/-- Engine stores that waited for room at their mirror are performed, in order, as far as there is room (R128). -/
def State.settleWaits (s : State) : State :=
  (s.home.mirror.filter fun m => m.kind matches .waits _).foldl (fun (s : State) m =>
    if s.asyncFull m.mirror.toNat then s
    else ({ s with home := { s.home with mirror := s.home.mirror.erase m } }.storeAsync m.req m.mirror.toNat m.hline).1) s

/-- Whether stores of an engine are accepted and not yet performed. -/
def State.engineWaits (s : State) (who : Nat) : Bool :=
  s.home.mirror.any fun m => m.kind == .engine who || m.kind == .waits who

/-- A line as an engine sees it: with its own stores that are not yet performed (guarantee 1 of R104). -/
def State.lineFor (s : State) (who h : Nat) : Line × Bool :=
  (s.home.mirror.filter fun m => m.hline == h && (m.kind == .engine who || m.kind == .waits who)).foldl
    (fun l m => (mergeLine l.1 m.req.data m.req.first m.req.bytes, m.req.pz || (l.2 && decide (m.req.bytes ≠ 64))))
    (s.readLine h, s.isPoison h)

/-! ## Host memory -/

/-- What host software has set in a port's configuration space. -/
def State.conf (s : State) (h : Nat) : PortConf := FMap.get (fun _ => {}) s.hst.conf h

/-- Whether requests can be sent to the host on port `h` (R321): the link up, CXL.io and CXL.mem enabled. -/
def State.hostUp (s : State) (h : Nat) : Bool :=
  let c := s.conf h
  s.flag (R.HST_PORT_CFG.EN h) && s.fld (R.HST_PORT_STATUS.LINK h) == 2 && !s.flag (R.HST_PORT_STATUS.PERST h) && c.io && c.mem

/-- The PASID of a partition's requests at a port: refused where PASID_EN = 1 and no entry names it (R312). -/
def State.pasid (s : State) (h p : Nat) : Unit ⊕ Option Nat :=
  match (upFrom 0 64).find? fun i => s.flag (R.HST_PASID.VALID h i) && s.fld (R.HST_PASID.PART h i) == p with
  | some i => .inr (some (s.fld (R.HST_PASID.PASID h i)))
  | none => if s.flag (R.HST_PORT_CFG.PASID_EN h) then .inl () else .inr none

/-- Non-posted requests outstanding at a port: at most 1,024 (R315). -/
def State.nonPosted (s : State) (h : Nat) : Nat :=
  (s.home.hostReqs.filter fun r => r.port == h).length + (s.home.flushes.filter fun r => r.port == h).length

/-- Count a module request that ends with HOST_ERROR (Table 13.16). -/
def State.hostError (s : State) (h : Nat) : State := s.count (R.HST_COUNTS1.HOST_ERR h)

/-- Poisoned data or a completion with EP has come from the host (R317, Tables 13.14 and 13.16). -/
def State.poisonCame (s : State) (h : Nat) (bad : Bool) : State :=
  if bad then (s.count (R.HST_COUNTS1.POISON_IN h)).raise (R.HST_EVENTS.POISON_IN h) else s

/-- The least completion timeout, in ticks, of a Completion Timeout Value: 50 µs, 1 ms, 16 ms, 65 ms, 260 ms, 1 s, 4 s or 17 s, as
the PCIe base specification codes its ranges (R317, PRESUMED, log entry 34). -/
def ctoLeast (code : Nat) : Nat :=
  if code = 2 then 6250 else if code = 5 then 100000 else if code = 6 then 406250 else if code = 9 then 1625000
  else if code = 10 then 6250000 else if code = 13 then 25000000 else if code = 14 then 106250000 else 313

/-- Whether a request sent at tick `t` may have met the completion timeout of its port (R317). -/
def State.ctoPast (s : State) (h t : Nat) : Bool := decide (t + ctoLeast (s.conf h).timeout ≤ s.tick)

/-- A request to the host under way. -/
def State.awaitHost (s : State) (r : HostReq) : State :=
  { s with home := { s.home with hostReqs := s.home.hostReqs ++ [r] } }

/-- Send a load of a line to a host; with no way to send it, it ends with HOST_ERROR (R312, R315, R321). -/
def State.loadHost (s : State) (p : Packet) (h hpa : Nat) (cacheable : Bool) : State :=
  match s.pasid h (partOf p.tag) with
  | .inl _ => (s.hostError h).respond p sHOST 0
  | .inr id =>
    if !s.hostUp h then (s.hostError h).respond p sHOST 0
    else if 1024 ≤ s.nonPosted h then s
    else (s.send (.hostRead h hpa id)).awaitHost { port := h, req := p, hpa := hpa, start := s.tick, cacheable := cacheable }

/-- Send a store to a host: posted, and completed by the flush read of its batch (R102). -/
def State.storeHost (s : State) (p : Packet) (h hpa : Nat) : State :=
  match s.pasid h (partOf p.tag) with
  | .inl _ => (s.hostError h).respond p sHOST 0
  | .inr id =>
    if !s.hostUp h then (s.hostError h).respond p sHOST 0
    else
      let s := s.send (.hostWrite h hpa p.first p.bytes p.data p.pz id)
      { s with home := { s.home with hostWrites := s.home.hostWrites ++ [{ port := h, req := p, batch := 0 }] } }

/-! ## Atomic-class requests -/

/-- Look up the ledger for an atomic-class request, and end it there where the ledger decides; `perform way` otherwise
(R116). -/
def State.ledgered (s : State) (p : Packet) (perform : State → Nat → State) : State :=
  match s.ledgerLook p.ledgerKey p.form p.line.toNat p.sub.toNat p.operandByte with
  | .perform w => perform s w
  | .replay st res => (s.count R.HOM_LEDGER_COUNTS.REPLAYS).respond p st res
  | .unknown res => (s.count R.HOM_LEDGER_COUNTS.UNKNOWN).respond p sUNKNOWN res
  | .mismatch =>
    ((s.raise R.HOM_EVENTS.LEDGER_MISMATCH).count R.HOM_LEDGER_COUNTS.UNKNOWN).respond p sUNKNOWN (2 ^ 64 - 1)
  | .full => ((s.raise R.HOM_EVENTS.LEDGER_FULL).count R.HOM_LEDGER_COUNTS.FULL).respond p sNORES 0
  | .void w =>
    let s := s.ledgerWrite w p.ledgerKey p.line.toNat p.sub.toNat p.operandByte true sUNKNOWN 0
    (s.count R.HOM_LEDGER_COUNTS.UNKNOWN).respond p sUNKNOWN s.watermark

/-- Record an outcome under the request's key, and count the request (Table 17.1). -/
def State.record (s : State) (p : Packet) (way status result : Nat) : State :=
  (s.tally 1832).ledgerWrite way p.ledgerKey p.line.toNat p.sub.toNat p.operandByte false status result

/-- Keep a line among the 8,192 most recently touched by atomics (R113). -/
def State.touchAtomic (s : State) (h : Nat) : State :=
  { s with home := { s.home with onDie := (h :: s.home.onDie.filter (· != h)).take 8192 } }

/-- Record an outcome, whatever its status, and complete it: at once, or once the mirror has acknowledged the forwarded record
(R129). -/
def State.atomDone (s : State) (p : Packet) (way h i : Nat) (status result : Nat) : State :=
  let s := s.record p way status result
  let e := s.sieveEntry i
  if seMir e = 0 then s.respond p status result
  else
    s.toMirror p (seMirror e) h (.atomic status result) none fun r =>
      p.matom s.feid (seMirror e) r (s.readLine h) (s.isPoison h) status result

/-- Perform an ATOM on module memory: the old value is the RESULT (R111, Table 6.2). `fail`: the lockstep units differ
twice (R343). An operand with PZ poisons the line (R348). -/
def State.atomHbm (s : State) (p : Packet) (way h i : Nat) (fail : Bool) : State :=
  let b := p.bmc.toNat
  let ty := getBits b 6 3
  let w := typeWidth ty
  let s := s.touchAtomic h
  if s.isPoison h then s.atomDone p way h i sPOISON 0
  else if fail then
    let s := (s.faultLog 0x0701 p.tag.toNat 0 0 p.line.toNat p.ledgerKey.word).event R.REL_EVENTS.CONTROL_CHECK 9
    s.atomDone p way h i sCHECK 0
  else
    let old := getBits (s.readLine h).toNat (8 * (b % 64)) (8 * w)
    let new := atomNew (getBits b 9 4) ty w old (p.payload.toNat % 2 ^ 64) (getBits p.payload.toNat 64 64)
    let s := s.homeWrite h (b % 64) w (BitVec.ofNat 512 (new * 2 ^ (8 * (b % 64)))) p.pz
    s.atomDone p way h i sOK old

/-- Perform a reduction on module memory, lane by lane (R111); lanes that carry poison (PZ) poison the line (R348). -/
def State.redHbm (s : State) (p : Packet) (way h i : Nat) (fail : Bool) : State :=
  let b := p.bmc.toNat
  let ty := b / 2 ^ 13
  let s := s.touchAtomic h
  if s.isPoison h then s.atomDone p way h i sPOISON 0
  else if fail then
    let s := (s.faultLog 0x0701 p.tag.toNat 0 0 p.line.toNat p.ledgerKey.word).event R.REL_EVENTS.CONTROL_CHECK 9
    s.atomDone p way h i sCHECK 0
  else
    let new := redLine (p.op - opREDADD) ty (typeWidth ty) (b % 64) (getBits b 6 7) (s.readLine h).toNat p.data.toNat
    let s := s.homeWrite h (b % 64) (getBits b 6 7) (BitVec.ofNat 512 new) p.pz
    s.atomDone p way h i sOK 0

/-- An integer atomic to host memory (R112, R316): sent as a PCIe AtomicOp where the host takes it, with the ledger
entry kept for its record; else HOST_ERROR, recorded. -/
def State.atomHost (s : State) (p : Packet) (way h hpa : Nat) : State :=
  let b := p.bmc.toNat
  let op := getBits b 9 4
  let w := typeWidth (getBits b 6 3)
  let enabled := if w = 4 then s.flag (R.HST_PORT_CFG.AO32 h) else s.flag (R.HST_PORT_CFG.AO64 h)
  if 3 ≤ op ∨ ¬ enabled then ((s.hostError h).record p way sHOST 0).respond p sHOST 0
  else match s.pasid h (partOf p.tag) with
    | .inl _ => ((s.hostError h).record p way sHOST 0).respond p sHOST 0
    | .inr id =>
      if !s.hostUp h then ((s.hostError h).record p way sHOST 0).respond p sHOST 0
      else if 1024 ≤ s.nonPosted h then s
      else
        (s.send (.hostAtomic h (hpa + b % 64) op w (p.payload.toNat % 2 ^ (8 * w))
          (getBits p.payload.toNat 64 (8 * w)) id)).awaitHost
            { port := h, req := p, hpa := hpa, start := s.tick, way := some way }

/-- Whether an atomic at the host's line is under way, which later ones to the line wait for (guarantee 3, R104). -/
def State.hostLineBusy (s : State) (h hpa : Nat) : Bool :=
  s.home.hostReqs.any fun r => r.port == h && r.hpa / 64 == hpa / 64 && isAtomicClass r.req.op

end Sys2Proof.Machine
end

