-- ==== Sys2Proof/Machine/Firebreak.lean ====
section
/-! DEFINITION. The Firebreak: consumption of poison and the kill of one job (R348 to R351). -/

namespace Sys2Proof.Machine

open Sys2Proof

/-- Partition states (Table 14: SEC_PART_STATUS.STATE). -/
def psDisabled : Nat := 0
def psOpen : Nat := 1
def psSealed : Nat := 2
def psResetting : Nat := 3

/-- A partition's state. -/
def State.pstate (s : State) (p : Nat) : Nat := s.fld (R.SEC_PART_STATUS.STATE p)

/-- The earliest tick at which a reset of the partition may take effect (R69). -/
def State.earliest (s : State) (p : Nat) : Nat := (s.reg (R.SEC_PART_RESET_AT.adr p)).toNat

/-- Schedule a partition reset at tick `T` (R325). -/
def State.scheduleReset (s : State) (p T : Nat) (disable : Bool) : State :=
  let s := { s with sec := { s.sec with resetAt := s.sec.resetAt.put p T,
                                        toDisable := FMap.set (fun _ => false) s.sec.toDisable p disable } }
  s.raise (R.SEC_PART_STATUS.PENDING p)

/-- A consumption of poison by an engine of a partition (R349 to R351): a CONSUMED record, and the kill where
REL_FB_CFG asks for it. -/
def State.consume (s : State) (p wher : Nat) (tag : Nat) (line sub home : Nat) (info : Nat) : State :=
  let st := s.pstate p
  let kill := (s.flag (R.REL_FB_CFG.KILL p) || (wher == 5 && s.flag (R.REL_FB_CFG.HOST_KILL p)))
    && st != psResetting && st != psDisabled
  let s := s.poisonLog { consumed := true, wher := wher, kill := kill, lineNo := some (line, sub), tag := tag,
                         feid := home, info := info }
  let s := s.count R.REL_FB_STATUS.CONSUMED
  if !kill then s
  else
    let s := (s.threadsOf p).foldl (fun s t => s.haltThread t) s
    let s := { s with sec := { s.sec with killed := FMap.set (fun _ => false) s.sec.killed p true } }
    let s := if s.flag (R.SEC_PART_STATUS.PENDING p) then s
      else s.scheduleReset p (max (s.tick + 2) (s.earliest p)) false
    ((s.raise R.REL_EVENTS.KILL).alarm 6).count R.REL_FB_STATUS.KILLS

end Sys2Proof.Machine
end

