-- ==== Sys2Proof/Machine/Xlate.lean ====
section
/-! DEFINITION. The sender's translation: page-table walks (R84 to R87), the TLB and walk cache (R88), translation fault
records (R97), and accesses of the module's own engines to its own memory through its Sieve (R61, R185, R241). -/

namespace Sys2Proof.Machine

open Sys2Proof

/-- Lowest FVA bit of a level's index, and the index width (Table 5.1). -/
def lvlShift (l : Nat) : Nat := if l = 0 then 16 else 21 + 9 * (l - 1)
def lvlBits (l : Nat) : Nat := if l = 0 then 5 else 9

/-- Fields of a page-table entry (Table 5.2). -/
def pteV (e : Nat) : Bool := bitOf e 0
def pteLeaf (e : Nat) : Bool := bitOf e 1
def pteR (e : Nat) : Bool := bitOf e 2
def pteW (e : Nat) : Bool := bitOf e 3
def pteX (e : Nat) : Bool := bitOf e 4
def pteAt (e : Nat) : Bool := bitOf e 5
def pteOrd (e : Nat) : Bool := bitOf e 6
def pteMig (e : Nat) : Bool := bitOf e 7
def pteSub (e : Nat) : Nat := getBits e 8 3
def pteDest (e : Nat) : Nat := getBits e 16 16
def pteLine (e : Nat) : Nat := getBits e 64 46

/-- A leaf translation and its level. -/
structure Leaf where
  pte : Nat
  level : Nat
deriving DecidableEq, Repr

/-- Why a translation fails (Table 5.3): reason and level. -/
structure XFault where
  reason : Nat
  level : Nat
deriving DecidableEq, Repr

/-- A completed translation (R87). -/
structure Xlat where
  dest : Nat
  sub : Nat
  line : Nat
  ord : Bool
  /-- page size as log2 bytes -/
  shift : Nat
deriving DecidableEq, Repr

/-- Whether a valid entry at a level is bad (R86). -/
def pteBad (e level : Nat) : Bool :=
  if level = 0 ∨ pteLeaf e then
    decide (3 ≤ level) || decide (pteLine e % 2 ^ (lvlShift level - 6) ≠ 0) || decide (5 ≤ pteSub e)
      || pteDest e == 0xFFFF || decide (getBits e 11 5 ≠ 0) || decide (getBits e 48 16 ≠ 0)
      || decide (getBits e (64 + 46) 18 ≠ 0)
  else
    decide (pteLine e % (if level = 1 then 8 else 128) ≠ 0) || decide (getBits e (64 + 46) 18 ≠ 0)

/-- The index path of an FVA down to a level: its page number at that level. -/
def pathOf (fva level : Nat) : Nat := fva % 2 ^ 57 / 2 ^ lvlShift level

/-- Key of a TLB or walk-cache entry: tag, level and page number. -/
def xltKey (tag : BitVec 16) (level path : Nat) : Nat := (tag.toNat * 8 + level) * 2 ^ 41 + path

/-- Fill a translation cache of `cap` entries. Where it is full a free choice is dropped: the spec gives no replacement
policy (log entry 13). -/
def fillCache {α : Type} (m : FMap α) (cap key : Nat) (v : α) (s : State) : FMap α × State :=
  if m.length < cap ∨ (m.find key).isSome then (m.put key v, s)
  else
    let (r, s) := s.fresh
    match m[r % m.length]? with
    | some e => ((m.del e.1).put key v, s)
    | none => (m.put key v, s)

/-- The walk from a table at a level (R85 to R87, checks 2 to 4): levels are read one after another. -/
def State.walkFrom (s : State) (tag : BitVec 16) (fva : Nat) : Nat → Nat → State × (XFault ⊕ Leaf)
  | level, base =>
    let idx := getBits fva (lvlShift level) (lvlBits level)
    let a := base + 16 * idx
    if s.isPoison (a / 64) then (s, .inl ⟨4, level⟩)
    else
      let e := s.readNat a 16
      if !pteV e then (s, .inl ⟨2, level⟩)
      else if pteBad e level then (s, .inl ⟨3, level⟩)
      else
        match level with
        | 0 => (s, .inr ⟨e, 0⟩)
        | l + 1 =>
          if pteLeaf e then (s, .inr ⟨e, l + 1⟩)
          else
            let next := 64 * pteLine e
            let (w, s) := fillCache s.xlt.walk 2048 (xltKey tag (l + 1) (pathOf fva (l + 1))) next s
            State.walkFrom { s with xlt := { s.xlt with walk := w } } tag fva l next

/-- Where a walk starts: below the lowest level whose entry the walk cache holds, else at the root (R85). -/
def State.walkStart (s : State) (tag : BitVec 16) (fva top base : Nat) : Nat × Nat :=
  match (upFrom 1 top).find? fun l => (FMap.find s.xlt.walk (xltKey tag l (pathOf fva l))).isSome with
  | some l => (l - 1, (FMap.find s.xlt.walk (xltKey tag l (pathOf fva l))).getD 0)
  | none => (top, base)

/-- A walk under a tag: a fault, or a leaf that fills the TLB. -/
def State.walk (s : State) (tag : BitVec 16) (fva : Nat) : State × (XFault ⊕ Leaf) :=
  let p := partOf tag
  let top := s.fld (R.XLT_ROOT.TOP p)
  if !s.flag (R.XLT_ROOT.EN p) || !decide (2 ≤ top ∧ top ≤ 4) then (s, .inl ⟨2, 7⟩)
  else if fva % 2 ^ 57 / 2 ^ (lvlShift top + 9) ≠ 0 then (s, .inl ⟨2, top⟩)
  else
    let (l, b) := s.walkStart tag fva top (8192 * s.fld (R.XLT_ROOT.BASE p))
    match s.walkFrom tag fva l b with
    | (s, .inl f) => (s, .inl f)
    | (s, .inr leaf) =>
      let (t, s) := fillCache s.xlt.tlb 16384 (xltKey tag leaf.level (pathOf fva leaf.level)) (BitVec.ofNat 128 leaf.pte) s
      ({ s with xlt := { s.xlt with tlb := t } }, .inr leaf)

/-- A TLB hit of any page size under the full tag (R88). -/
def State.tlbHit (s : State) (tag : BitVec 16) (fva : Nat) : Option Leaf :=
  (upFrom 0 3).findSome? fun l =>
    (FMap.find s.xlt.tlb (xltKey tag l (pathOf fva l))).map fun e => ⟨e.toNat, l⟩

/-- The leaf of an FVA: canonical form (check 1), TLB, then walk. -/
def State.leafOf (s : State) (tag : BitVec 16) (fva : Nat) : State × (XFault ⊕ Leaf) :=
  if fva / 2 ^ 57 ≠ 0 then (s, .inl ⟨1, 7⟩)
  else match s.tlbHit tag fva with
  | some l => (s, .inr l)
  | none => s.walk tag fva

/-- The translation that a leaf gives an FVA (R87). -/
def Leaf.xlat (l : Leaf) (fva : Nat) : Xlat :=
  { dest := pteDest l.pte, sub := pteSub l.pte, line := (pteLine l.pte + fva % 2 ^ lvlShift l.level / 64) % 2 ^ 46,
    ord := pteOrd l.pte, shift := lvlShift l.level }

/-- How an access ends at the XLT. -/
inductive XOut
  | fault (f : XFault)
  /-- UNREACHABLE: check 7 of Table 5.3 -/
  | unreachable
  | ok (x : Xlat)
deriving DecidableEq, Repr

/-- Checks 5 to 7 of Table 5.3 on a leaf. -/
def State.leafCheck (s : State) (l : Leaf) (fva : Nat) (acc : Acc) : XOut :=
  let e := l.pte
  let perm := match acc with
    | .load | .invl => pteR e
    | .store | .own => pteW e
    | .atomic | .reduction => pteAt e
  let x := l.xlat fva
  let atomicClass := acc == .atomic || acc == .reduction || acc == .own
  if !perm then .fault ⟨5, 7⟩
  else if pteMig e && acc != .load then .fault ⟨6, 7⟩
  else if atomicClass then
    match s.judgedRtt 4097 x.dest x.line with
    | none => .unreachable
    | some r => if 4096 ≤ r then .unreachable else .ok x
  else .ok x

/-- Translate an access (Table 5.3). -/
def State.translate (s : State) (tag : BitVec 16) (fva : Nat) (acc : Acc) : State × XOut :=
  match s.leafOf tag fva with
  | (s, .inl f) => (s, .fault f)
  | (s, .inr l) => (s, s.leafCheck l fva acc)

/-- ACCESS of a translation fault record (Table 5.6). -/
def Acc.code : Acc → Nat
  | .load => 0 | .store => 1 | .atomic => 2 | .reduction => 3 | .invl => 4 | .own => 5

/-- Write a TYPE 0x02 record to the ring of the access's partition (R97). -/
def State.xlateRecord (s : State) (f : XFault) (acc : Acc) (engine number : Nat) (tag : BitVec 16) (fva info : Nat) :
    State :=
  s.ringRecord (partOf tag) (packBits [(0, 2), (8, f.reason), (16, acc.code), (19, f.level), (24, engine), (32, number),
    (48, tag.toNat), (64, fva % 2 ^ 57), (128, s.tick), (192, info)])

/-- A thread's access fails translation: FAULTED with cause XLATE_FAULT, and one TYPE 0x02 record (R97, R98). -/
def State.threadXlateFault (s : State) (t : Nat) (f : XFault) (acc : Acc) (fva : Nat) : State :=
  (s.enterFaulted t 0x08).xlateRecord f acc 0 t (s.ttag t) fva (s.pc t)

/-- How an access of an own engine to this module's memory ends. -/
inductive LocalOut
  | fault (f : XFault)
  | refused (status : Nat)
  | ok (p : Place) (x : Xlat)
deriving DecidableEq, Repr

/-- An own engine's access to this module: translation, then resolution at this FEID, then the module's own Sieve
(R185, R241). -/
def State.localAccess (s : State) (tag : BitVec 16) (fva : Nat) (acc : Acc) : State × LocalOut :=
  match s.translate tag fva acc with
  | (s, .fault f) => (s, .fault f)
  | (s, .unreachable) => (s, .refused sUNREACH)
  | (s, .ok x) =>
    if x.dest ≠ s.feid then (s, .refused sUNREACH)
    else match s.sieveCheck tag x.sub x.line acc false false with
      | .inl st => (s.sieveUse tag x.sub x.line, .refused st)
      | .inr pl => (s.sieveUse tag x.sub x.line, .ok pl x)

/-- An instruction fetch of a thread (R61, R329): the HBM line, or none where any condition fails (FETCH_FAULT). -/
def State.fetchLine (s : State) (t fva : Nat) : State × Option Nat :=
  let tag := s.ttag t
  let p := partOf tag
  match s.leafOf tag fva with
  | (s, .inl _) => (s, none)
  | (s, .inr l) =>
    let x := l.xlat fva
    if !pteX l.pte || x.dest != s.feid || x.sub != 0 then (s, none)
    else match s.sieveCheck tag 0 x.line .load false false with
      | .inr (.hbm h _) =>
        let s := s.sieveUse tag 0 x.line
        let inCode := match s.rangeAt (64 * h) with
          | some i => s.fld (R.SEC_RANGE.KIND i) == 0 && s.fld (R.SEC_RANGE.PART i) == p
          | none => false
        if !s.rangeRead (64 * h) (.fetch p) then (s, none)
        else if s.flag (R.PRT_STATUS.SEALED p) && !inCode then (s, none)
        else if s.isPoison h then (s, none)
        else (s, some h)
      | _ => (s.sieveUse tag 0 x.line, none)

end Sys2Proof.Machine
end

