-- ==== Sys2Proof/Machine/Rlc.lean ====
section
/-! DEFINITION. The Remote Line Cache and the granules this module owns (R121 to R125). -/

namespace Sys2Proof.Machine

open Sys2Proof

/-- The home that a destination resolves to at this module: itself, or the member of a spread group (R20). -/
def State.homeOf (s : State) (dest line : Nat) : Nat :=
  if s.isSpread dest then (s.resolve 4097 dest line).getD dest else dest

/-- Whether a cached line is the line `line` of endpoint (home, sub) under a tag. -/
def RlcLine.is (l : RlcLine) (home sub line : Nat) (tag : BitVec 16) : Bool :=
  l.home.toNat == home && l.sub.toNat == sub && l.line.toNat == line && l.tag == tag

/-- The cached line, where there is one (R121). -/
def State.rlcFind (s : State) (home sub line : Nat) (tag : BitVec 16) : Option RlcLine :=
  s.home.rlc.find? fun l => l.is home sub line tag

/-- Replace the list of cached lines. -/
def State.setRlc (s : State) (l : List RlcLine) : State := { s with home := { s.home with rlc := l } }

/-- A hit makes the line most recently used. -/
def State.rlcTouch (s : State) (x : RlcLine) : State := s.setRlc (x :: s.home.rlc.erase x)

/-- Drop cached lines that satisfy a predicate. -/
def State.rlcDrop (s : State) (p : RlcLine → Bool) : State := s.setRlc (s.home.rlc.filter fun l => !p l)

/-- Key of a cached line, from which its set follows: 32,768 sets of 16 ways (R121). -/
def rlcKey (home sub line : Nat) : Nat := (home * 8 + sub) * 2 ^ 46 + line

/-- The set of a cached line. -/
def RlcLine.set (l : RlcLine) : Nat := Config.rlcSet (rlcKey l.home.toNat l.sub.toNat l.line.toNat) % 32768

/-- The line that a fill of `x` evicts: the least recently used of a full set. -/
def State.rlcVictim (s : State) (x : RlcLine) : Option RlcLine :=
  let inSet := s.home.rlc.filter fun l => !l.leaving && l.set == x.set && !l.is x.home.toNat x.sub.toNat x.line.toNat x.tag
  if inSet.length < 16 then none else inSet.getLast?

/-- Put a line in the cache: most recently used, replacing an older copy. A clean victim is dropped silently; a dirty one
stays, marked as leaving, until its write-back completes. -/
def State.rlcPut (s : State) (x : RlcLine) : State :=
  let l := match s.rlcVictim x with
    | some v => if v.dirty then s.home.rlc.map fun y => if y = v then { y with leaving := true } else y
                else s.home.rlc.erase v
    | none => s.home.rlc
  s.setRlc (x :: l.filter fun y => !y.is x.home.toNat x.sub.toNat x.line.toNat x.tag)

/-- The granule of ownership that covers a line, where this module owns one (R123, R124). -/
def State.ownedAt (s : State) (home sub line : Nat) (tag : BitVec 16) : Option Owned :=
  s.home.owned.find? fun o => o.home.toNat == home && o.sub.toNat == sub && o.tag == tag
    && decide (o.base ≤ line ∧ line < o.base + o.lines)

/-- Lines of the Sieve granule that covers a line of a home (R123): by the entry where this module is the home, as recorded
where this module owns it. -/
def State.granule (s : State) (home sub line : Nat) (tag : BitVec 16) : Nat :=
  match s.ownedAt home sub line tag with
  | some o => o.lines
  | none =>
    if home = s.feid then
      match s.sieveLookup (partOf tag) sub line with
      | some (_, i) => granLines (seSize (s.sieveEntry i))
      | none => granLines 0
    else granLines (Config.granuleSize home sub line tag % 3)

/-- Whether a cached line lies in lines `base` to `base + n - 1` of an endpoint. -/
def RlcLine.within (l : RlcLine) (home sub base n : Nat) (tag : BitVec 16) : Bool :=
  l.home.toNat == home && l.sub.toNat == sub && l.tag == tag && decide (base ≤ l.line.toNat ∧ l.line.toNat < base + n)

/-- A cached line after a store of `n` bytes from byte `first`: poisoned where the store carries poison, clean where the whole
line is stored (R131). -/
def RlcLine.store (l : RlcLine) (data : Line) (first n : Nat) (pz : Bool) : RlcLine :=
  { l with dirty := true, pz := pz || (l.pz && decide (n ≠ 64)), data := mergeLine l.data data first n }

/-- The status with which a store into a cached line, or a load from it, completes (Table 6.8). -/
def RlcLine.status (l : RlcLine) (whole : Bool) : Nat := if l.pz ∧ ¬ whole then sPOISON else sOK

end Sys2Proof.Machine
end

