-- ==== Sys2Proof/Machine/Skid.lean ====
section
/-! DEFINITION. Issuing requests through Skidder slots (R13, R48, R80, R106, R107, R114) and completing them (R14 to
R16, R50, R89, R138, R225, R231, R234), and what wakes a waiting thread. -/

namespace Sys2Proof.Machine

open Sys2Proof

/-- A request that an engine wants to issue. -/
structure Req where
  owner : Owner
  sk : Nat
  tag : BitVec 16
  fva : Nat
  op : Nat
  form : Nat := 0
  hc : Bool := false
  of_ : Bool := false
  bmc : Nat := 0
  payload : Nat := 0
  last : Bool := false
  pz : Bool := false
  dest : Dest := .none
  st : BitVec 5 := 0
  /-- the ledger sequence number of a resolve (R237) -/
  lseq : Option Nat := none
  /-- T16 of a resolve's status word: that of the request it resolves -/
  t16 : Nat := 0
  merge : Option Merge := none
  ownSize : Nat := 0
  /-- the request timeout, log2 ticks (R23) -/
  limit : Nat
  /-- PC of the instruction that issues it -/
  pc : Nat := 0
deriving DecidableEq, Repr

/-- A Skidder's record. -/
def State.skid (s : State) (k : Nat) : Skid := FMap.get (fun _ => {}) s.skids k

/-- Replace a Skidder's record. -/
def State.setSkid (s : State) (k : Nat) (x : Skid) : State := { s with skids := FMap.set (fun _ => {}) s.skids k x }

/-- A slot in use. -/
def State.slot (s : State) (key : Nat) : Option Slot := FMap.find s.slots key

/-- Free slots of a Skidder. -/
def State.freeSlots (s : State) (k : Nat) : List Nat :=
  (upFrom (256 * k) 256).filter fun i => (s.slot i).isNone

/-- Whether two requests are of one engine (chapter 6, "Observers and events"); a port set acts as one engine (R310):
`same` says which ports are of one set. -/
def Owner.sameEngine (a b : Owner) (ka kb : Nat) (same : Nat → Nat → Bool) : Bool :=
  match a, b with
  | .thread t, .thread u => t == u
  | .host h, .host i => same h i
  | .bucker .., .bucker .. => ka == kb
  | _, _ => false

/-- The mask of a port's set, which always includes the port itself (R310). -/
def State.setMask (s : State) (h : Nat) : Nat := s.fld (R.HST_PORT_CFG.SET h) ||| 2 ^ h

/-- Whether a port's set agrees with that of every port it names (R310). -/
def State.setOk (s : State) (h : Nat) : Bool :=
  (upFrom 0 4).all fun i => !bitOf (s.setMask h) i || s.setMask i == s.setMask h

/-- SET_OK of every port; a port whose set no longer agrees sets SET_MISMATCH (R310). -/
def State.refreshSets (s : State) : State :=
  (upFrom 0 4).foldl (fun (s : State) h =>
    if s.setOk h then s.setFld (R.HST_PORT_STATUS.SET_OK h) 1
    else (s.setFld (R.HST_PORT_STATUS.SET_OK h) 0).raise (R.HST_EVENTS.SET_MISMATCH h)) s

/-- The ports of a port's set, as a mask: the port alone where its set disagrees (R310). -/
def State.portSet (s : State) (h : Nat) : Nat := if s.setOk h then s.setMask h else 2 ^ h

/-- Whether two ports are of one set. -/
def State.sameSet (s : State) (h i : Nat) : Bool := bitOf (s.portSet h) i && bitOf (s.portSet i) h

/-- The slots of one engine, by owner and Skidder. -/
def State.engineSlots (s : State) (o : Owner) (k : Nat) : List (Nat × Slot) :=
  s.slots.filter fun e => e.2.owner.sameEngine o (e.1 / 256) k s.sameSet

/-- Whether the next ledger sequence value of a Skidder may be handed out: not within 16,384 ticks of its last send
(R114). -/
def State.lseqReady (s : State) (k : Nat) : Bool :=
  let x := s.skid k
  let t := FMap.get (fun _ => 0) x.sent x.lseq.toNat
  t == 0 || decide (t - 1 + 16384 ≤ s.tick)

/-- Whether bucket `b` of group index `g` is in the held set (R80). -/
def State.bucketHeld (s : State) (g b : Nat) : Bool := (FMap.get (fun _ => 0) s.swc.held g).getLsbD b

/-- The order rules that hold a translated request of an engine at issue (R106, R107). -/
def State.held (s : State) (r : Req) (x : Xlat) : Option Wait :=
  let mine := s.engineSlots r.owner r.sk
  if mine.any fun e => isAtomicClass e.2.pkt.op && !e.2.resolve && e.2.pkt.dst.toNat == x.dest
      && e.2.pkt.sub.toNat == x.sub && e.2.pkt.line.toNat == x.line then some (.lineHold x.dest x.sub x.line)
  else if (r.of_ || x.ord) && mine.any fun e => e.2.pkt.dst.toNat == x.dest && e.2.pkt.sub.toNat == x.sub then
    some (.endpoint x.dest x.sub)
  else none

/-- The resources that a request must find: the thread's sixteen, a slot, a ledger sequence value, a bucket that is not
held (R13, R48, R80, R114); during a tray drain the new requests of threads and host
ports wait (R357). -/
def State.lacks (s : State) (r : Req) (x : Xlat) : Option Wait :=
  let fullThread := match r.owner with
    | .thread t => decide (16 ≤ s.fld (R.SEQ_THREAD_STATUS.OUTSTANDING t))
    | _ => false
  let waits := match r.owner with
    | .thread _ | .host _ => s.fld R.REL_TRAY.STATE != 0
    | _ => s.fld R.REL_TRAY.STATE == 2
  if waits then some .tray
  else if fullThread then some .outstanding
  else if (s.freeSlots r.sk).isEmpty then some (.slot r.sk)
  else if isAtomicClass r.op && r.lseq.isNone && !s.lseqReady r.sk then some (.ledger r.sk)
  else match s.bucketOf x.dest x.line with
    | some (g, b) => if s.bucketHeld g b then some (.bucket g b) else none
    | none => none

/-- What keeps a translated request from being sent, none where it may be sent now. -/
def State.blocked (s : State) (r : Req) (x : Xlat) : Option Wait :=
  match s.held r x with
  | some w => some w
  | none => s.lacks r x

/-- Send a request: it takes a free slot (which one is open: a free choice), a ledger sequence number where it is
atomic-class (R114), and enters the Switch Core. Every send of a value renews the time for which it is not handed out. -/
def State.issue (s : State) (r : Req) (x : Xlat) : State :=
  let free := s.freeSlots r.sk
  let (c, s) := s.fresh
  match free[c % free.length]? with
  | none => s
  | some key =>
    let sk := s.skid r.sk
    let takes := isAtomicClass r.op && r.lseq.isNone
    let lseq : BitVec 16 := match r.lseq with
      | some n => BitVec.ofNat 16 n
      | none => if takes then sk.lseq else 0
    let s := if takes then
        s.setSkid r.sk { sk with lseq := sk.lseq + 1, sent := FMap.set (fun _ => 0) sk.sent sk.lseq.toNat (s.tick + 1) }
      else s
    let p : Packet :=
      { dst := BitVec.ofNat 16 x.dest, src := BitVec.ofNat 16 s.feid, tag := r.tag, opcode := opcodeOf r.hc r.op r.form,
        vc := BitVec.ofNat 3 ((vcOf r.op).getD 0), ordered := r.of_ || x.ord, pz := r.pz, last := r.last,
        line := BitVec.ofNat 46 x.line, sub := BitVec.ofNat 3 x.sub, eng := BitVec.ofNat 7 r.sk,
        slot := BitVec.ofNat 8 (key % 256), bmc := BitVec.ofNat 16 r.bmc, lseq := lseq,
        payload := BitVec.ofNat 640 r.payload }
    let s := match r.lseq with
      | some n =>
        let sk := s.skid r.sk
        s.setSkid r.sk { sk with sent := FMap.set (fun _ => 0) sk.sent (n % 2 ^ 16) (s.tick + 1) }
      | none => s
    let sl : Slot :=
      { owner := r.owner, pkt := p, fva := r.fva, dest := r.dest, st := r.st, first := s.tick, lastSend := s.tick,
        limit := r.limit, seq := s.issued, resolve := r.lseq.isSome, t16 := if r.lseq.isSome then r.t16 else s.tick % 2 ^ 16, bucket := s.bucketOf x.dest x.line,
        merge := r.merge, ownSize := r.ownSize, poison := r.pz, pc := r.pc }
    let s := { s with slots := s.slots.put key sl, issued := s.issued + 1 }
    let s := match r.owner with
      | .thread t => s.addFld (R.SEQ_THREAD_STATUS.OUTSTANDING t) 1
      | .host h => s.addFld (R.HST_PORT_STATUS.FW_OUT h) 1
      | _ => s
    s.sendPacket p

/-- Send a write-back of a cached line through Skidder `k`, on behalf of thread `t` (512: of none), under the line's partition
(R23, R124). -/
def State.writeBack (s : State) (k t : Nat) (l : RlcLine) : State :=
  s.issue { owner := .writeback t, sk := k, tag := l.tag, fva := 0, op := opWB, bmc := 64 * 64, payload := l.data.toNat,
            pz := l.pz, limit := s.fld (R.SEQ_REQ_TIMEOUT.LOG2 (partOf l.tag)) }
    { dest := l.home.toNat, sub := l.sub.toNat, line := l.line.toNat, ord := false, shift := 0 }

/-- Put a line in the cache and write back a dirty victim (R121, R124). -/
def State.rlcFill (s : State) (k : Nat) (x : RlcLine) : State :=
  match s.rlcVictim x with
  | some v => if v.dirty then (s.rlcPut x).writeBack k 512 v else s.rlcPut x
  | none => s.rlcPut x

/-- How a request fares at issue. -/
inductive Issue
  /-- it waits -/
  | wait (w : Wait)
  /-- it ends at once in the Remote Line Cache: its status (Table 6.8) and the line -/
  | hit (status : Nat) (data : Line)
  /-- it ends at once with a status (R125) -/
  | ends (status : Nat)
  | sent
deriving DecidableEq, Repr

/-- Start the write-backs of dirty cached lines in a range, as many as the Skidder has free slots (R125). -/
def State.flushRange (s : State) (k t home sub base n : Nat) (tag : BitVec 16) : State :=
  let dirty := s.home.rlc.filter fun l => l.within home sub base n tag && l.dirty && !l.leaving
  (dirty.take (s.freeSlots k).length).foldl (fun s l =>
    (s.setRlc (s.home.rlc.map fun y => if y = l then { y with leaving := true } else y)).writeBack k t l) s

/-- Loads under way to lines of a range fill no cache: what they bring is older than what follows them (R104). -/
def State.noFills (s : State) (home sub base n : Nat) (tag : BitVec 16) : State :=
  let hit := fun (x : Slot) => x.merge.isNone && x.pkt.tag == tag && x.pkt.sub.toNat == sub
    && decide (base ≤ x.pkt.line.toNat ∧ x.pkt.line.toNat < base + n)
    && s.homeOf x.pkt.dst.toNat x.pkt.line.toNat == home
  { s with slots := s.slots.map fun (e : Nat × Slot) => if hit e.2 then (e.1, { e.2 with noFill := true }) else e }

/-- Whether the fill for an earlier partial store to a line of a range is outstanding (R124). -/
def State.filling (s : State) (home sub base n : Nat) : Bool :=
  s.slots.any fun e => e.2.merge.isSome && e.2.pkt.sub.toNat == sub
    && decide (base ≤ e.2.pkt.line.toNat ∧ e.2.pkt.line.toNat < base + n)
    && s.homeOf e.2.pkt.dst.toNat e.2.pkt.line.toNat == home

/-- A store into an owned line that the cache holds (R124). -/
def State.storeCached (s : State) (l : RlcLine) (r : Req) (first n : Nat) : State × Issue :=
  let l' := l.store (BitVec.ofNat 512 r.payload) first n r.pz
  (s.setRlc (l' :: s.home.rlc.erase l), .hit (l.status (n == 64)) l'.data)

/-- Issue a request through the Remote Line Cache: loads that hit end there; stores to an owned line are written there,
filling first where partial; other writes drop the module's copy; atomics and OWN.REL first write back (R121 to R125). A
request to a line for which such a fill is outstanding waits for it (R104). -/
def State.request (s : State) (r : Req) (x : Xlat) : State × Issue :=
  let home := s.homeOf x.dest x.line
  let t := match r.owner with | .thread t => t | _ => 512
  let send := fun (s : State) (r : Req) => match s.lacks r x with
    | some w => (s, Issue.wait w)
    | none => (s.issue r x, .sent)
  match s.held r x with
  | some w => (s, .wait w)
  | none =>
    let line := s.rlcFind home x.sub x.line r.tag
    let leaving : Bool := match line with | some l => l.leaving | none => false
    if r.lseq.isSome then send s r
    else if s.filling home x.sub x.line 1 then (s, .wait (.fill home x.sub x.line 1))
    else if r.op = opREAD ∨ r.op = opBREAD then
      match line with
      | some l => (s.rlcTouch l, .hit (l.status false) l.data)
      | none => send s r
    else if r.op = opWRITE ∨ r.op = opBWRITE then
      let first := r.bmc % 64
      let n := getBits r.bmc 6 7
      if (s.ownedAt home x.sub x.line r.tag).isSome then
        if leaving then (s, .wait .writeback)
        else match line with
        | some l => (s.noFills home x.sub x.line 1 r.tag).storeCached l r first n
        | none =>
          if n = 64 then
            let l : RlcLine := { home := BitVec.ofNat 16 home, sub := BitVec.ofNat 3 x.sub, line := BitVec.ofNat 46 x.line,
                                 tag := r.tag, mode := 2, dirty := true, pz := r.pz, data := BitVec.ofNat 512 r.payload }
            let dirtyVictim : Bool := match s.rlcVictim l with | some v => v.dirty | none => false
            if dirtyVictim ∧ (s.freeSlots r.sk).isEmpty then (s, .wait (.slot r.sk))
            else ((s.noFills home x.sub x.line 1 r.tag).rlcFill r.sk l, .hit sOK l.data)
          else
            let m : Merge := { first := first, count := n, data := BitVec.ofNat 512 r.payload, pz := r.pz }
            send (s.noFills home x.sub x.line 1 r.tag) { r with op := opREAD, bmc := 0, payload := 0, pz := false, merge := some m }
      else
        match s.lacks r x with
        | some w => (s, .wait w)
        | none => ((s.rlcDrop fun l => l.is home x.sub x.line r.tag).issue r x, .sent)
    else if r.op = opATOM ∨ r.op = opREDADD ∨ r.op = opREDMIN ∨ r.op = opREDMAX then
      let dirty : Bool := match line with | some l => l.dirty | none => false
      let fail := if t < 512 then (s.thr t).wbFail else 0
      if fail ≠ 0 ∧ ¬ leaving then (s.setThr t { s.thr t with wbFail := 0 }, .ends fail)
      else if dirty then
        if leaving then (s, .wait .writeback)
        else if (s.freeSlots r.sk).isEmpty then (s, .wait (.slot r.sk))
        else (s.flushRange r.sk t home x.sub x.line 1 r.tag, .wait .writeback)
      else
        match s.lacks r x with
        | some w => (s, .wait w)
        | none => ((s.rlcDrop fun l => l.is home x.sub x.line r.tag).issue r x, .sent)
    else if r.op = opOWNACQ then
      let n := s.granule home x.sub x.line r.tag
      let base := x.line / n * n
      if s.filling home x.sub base n then (s, .wait (.fill home x.sub base n))
      else match s.lacks r x with
      | some w => (s, .wait w)
      | none =>
        (((s.noFills home x.sub base n r.tag).rlcDrop fun l => l.within home x.sub base n r.tag).issue
          { r with ownSize := n } x, .sent)
    else if r.op = opOWNREL then
      let n := s.granule home x.sub x.line r.tag
      let base := x.line / n * n
      let inRange := s.home.rlc.filter fun l => l.within home x.sub base n r.tag
      let fail := if t < 512 then (s.thr t).wbFail else 0
      let running := s.slots.any fun e => e.2.owner == .writeback t
      if s.filling home x.sub base n then (s, .wait (.fill home x.sub base n))
      else if running then (s, .wait .writeback)
      else if fail ≠ 0 then (s.setThr t { s.thr t with wbFail := 0 }, .ends fail)
      else if inRange.any fun l => l.dirty then
        if (s.freeSlots r.sk).isEmpty then (s, .wait (.slot r.sk))
        else (s.flushRange r.sk t home x.sub base n r.tag, .wait .writeback)
      else
        match s.lacks r x with
        | some w => (s, .wait w)
        | none => ((s.rlcDrop fun l => l.within home x.sub base n r.tag).issue { r with ownSize := n } x, .sent)
    else send s r

/-! ## Waking threads -/

/-- The positions at which a partition may queue kernels: allowed by ARRAYS, active, with 6 kernel-side slots (R182). -/
def State.eligible (s : State) (p : Nat) : List Nat :=
  (upFrom 0 16).filter fun k => bitOf (s.fld (R.LDL_PART_CFG.ARRAYS p)) k && bitOf (s.fld R.LDL_STATUS.POS_ACTIVE) k
    && decide (6 ≤ s.fld (R.LDL_POS_STATUS.KSLOTS k))

/-- A position's record. -/
def State.lpos (s : State) (k : Nat) : LdlPos := FMap.get (fun _ => {}) s.ldl.pos k

/-- Kernels queued or running at a position: at most 64 (R182). -/
def LdlPos.load (x : LdlPos) : Nat := x.queue.length + b2n x.running.isSome

/-- Kernels of a partition queued or running. -/
def State.kernelsOf (s : State) (p : Nat) : Nat :=
  (upFrom 0 16).foldl (fun n k =>
    let x := s.lpos k
    n + (x.queue.filter fun q => partOf q.tag == p).length
      + (match x.running with | some q => b2n (partOf q.k.tag == p) | none => 0)) 0

/-- Whether a partition may submit a kernel now (R182): below QMAX, and some eligible queue has room; with no eligible
position the submission does not wait. -/
def State.kernelRoom (s : State) (p : Nat) : Bool :=
  let e := s.eligible p
  e.isEmpty || (decide (s.kernelsOf p < s.fld (R.LDL_PART_CFG.QMAX p))
    && e.any fun k => decide ((s.lpos k).load < 64))

/-- Whether a COLL of a partition with a CID may take an entry now (R204). -/
def State.collRoom (s : State) (p cid : Nat) : Bool :=
  decide (s.col.entries.length < 64)
    && decide ((s.col.entries.filter fun e => e.2.part == p).length < s.fld (R.COL_PART_CFG.MAXC p))
    && !s.col.entries.any fun e => e.2.part == p && e.2.cid % 2 ^ 14 == cid % 2 ^ 14

/-- Whether the condition a thread waits for has come about (Table 3.2). WAIT.T is woken at tick boundaries only. -/
def State.waitMet (s : State) (t : Nat) : Wait → Bool
  | .idle => false
  | .regs m => ((s.thr t).pend &&& m) == 0
  | .outstanding => decide (s.fld (R.SEQ_THREAD_STATUS.OUTSTANDING t) < 16)
  | .tray => s.fld R.REL_TRAY.STATE == 0
  | .slot k => !(s.freeSlots k).isEmpty
  | .lineHold d b l => !(s.engineSlots (.thread t) 0).any fun e => isAtomicClass e.2.pkt.op && !e.2.resolve
      && e.2.pkt.dst.toNat == d && e.2.pkt.sub.toNat == b && e.2.pkt.line.toNat == l
  | .writeback => !s.slots.any fun e => e.2.owner == .writeback t
  | .fill home sub base n => !s.filling home sub base n
  | .endpoint d b => !(s.engineSlots (.thread t) 0).any fun e => e.2.pkt.dst.toNat == d && e.2.pkt.sub.toNat == b
  | .ledger k => s.lseqReady k
  | .bucket g b => !s.bucketHeld g b
  | .handleSlot => (s.thr t).freeHand.isSome
  | .engineOps => decide ((s.thr t).ops + (s.thr t).reads < 64)
  | .queue k => decide ((s.skid k).queue.length < 32)
  | .fence all => s.fld (R.SEQ_THREAD_STATUS.OUTSTANDING t) == 0
      && (!all || decide ((s.thr t).ops + (s.thr t).reads = 0))
  | .tick _ => false
  | .fetch _ => false
  | .handle h => !((s.thr t).hand h).busy
  | .kernel op => !s.descs.any fun d => d.op == op
  | .collective op => !s.descs.any fun d => d.op == op

/-- Wake every thread whose condition has come about, and take the status traps of threads that can issue again
(Table 3.2, R232). -/
def State.recheck (s : State) : State :=
  (FMap.keys s.threads).foldl (fun s t =>
    let s := if s.tstate t = stWaiting ∧ s.waitMet t (s.thr t).wait then s.runnable t else s
    s.takeHeld t) s

/-! ## Completion -/

/-- A host port's or a Bucker's request waits at issue: for a held bucket it counts in HELD, once (R80, Table 4.14). `who`: the
port, or 4 + the Skidder. -/
def State.countHeld (s : State) (who fva : Nat) : Wait → State
  | .bucket g _ =>
    if s.swc.heldReqs.contains (g, who, fva / 64) then s
    else ({ s with swc := { s.swc with heldReqs := (g, who, fva / 64) :: s.swc.heldReqs } }).count R.SWC_WHISK_STATUS.HELD
  | _ => s

/-- A held host write that has been translated is sent (R99), unless its bucket is held: then it waits for that (R80). -/
def State.sendHeld (s : State) (key : Nat) : State :=
  match s.slot key with
  | none => s
  | some sl =>
    let who := match sl.owner with | .host h => h | _ => 0
    let p := sl.pkt
    let wait := match s.bucketOf p.dst.toNat p.line.toNat with
      | some (g, b) => if s.bucketHeld g b then some (Wait.bucket g b) else none
      | none => none
    match wait with
    | some w => ({ s with slots := s.slots.put key { sl with ready := true } }).countHeld who sl.fva w
    | none =>
      let y := { sl with hold := false, ready := false, first := s.tick, lastSend := s.tick,
                         bucket := s.bucketOf p.dst.toNat p.line.toNat }
      let s := { s with xlt := { s.xlt with held := s.xlt.held.filter fun e => e.1 != key }, slots := s.slots.put key y }
      let home := s.homeOf p.dst.toNat p.line.toNat
      let s := s.poisonSent p.line.toNat p.sub.toNat p.tag.toNat sl.poison
      (s.rlcDrop fun l => l.is home p.sub.toNat p.line.toNat p.tag).sendPacket p

/-- The held set of a group is cleared once no marked slot of it is left; held host writes that waited for one of its buckets
are sent, in arrival order (R80, R99). -/
def State.releaseHeld (s : State) (g : Nat) : State :=
  if s.slots.any fun e => e.2.marked && (match e.2.bucket with | some (h, _) => h == g | none => false) then s
  else
    let h := FMap.set (fun _ => 0) s.swc.held g 0
    let s := ({ s with swc := { s.swc with held := h, heldReqs := s.swc.heldReqs.filter fun e => e.1 != g } }).setFld
      R.SWC_WHISK_STATUS.GROUPS_HELD h.length
    s.xlt.held.foldl (fun (s : State) e => match s.slot e.1 with
      | some sl => if sl.ready then s.sendHeld e.1 else s
      | none => s) s

/-- A drained request has completed; LATE is set together with DONE (R89). -/
def State.drainDone (s : State) (late : Bool) : State :=
  let s := { s with xlt := { s.xlt with late := s.xlt.late || late } }
  let n := s.fld R.XLT_TLB_INV_STATUS.PENDING - 1
  let s := s.setFld R.XLT_TLB_INV_STATUS.PENDING n
  if n = 0 then
    let s := (s.setFld R.XLT_TLB_INV_STATUS.BUSY 0).raise R.XLT_TLB_INV_STATUS.DONE
    if s.xlt.late then s.raise R.XLT_TLB_INV_STATUS.LATE else s
  else s

/-- The answer that ends a request. -/
structure Answer where
  status : Nat
  /-- RESULT, where the response carries one (R234) -/
  result : Option Nat := none
  data : Line := 0
  pz : Bool := false
deriving DecidableEq, Repr

/-- The registers that a destination names. -/
def Dest.mask : Dest → BitVec 32
  | .none => 0
  | .reg d .. => regMask d
  | .group d => groupMask d
  | .result d _ => regMask d

/-- The value of `size` bytes at byte `off` of a line, sign-extended where `sx` (R233). -/
def loadValue (l : Line) (off size : Nat) (sx : Bool) : Word :=
  let n := getBits l.toNat (8 * off) (8 * size)
  if sx then sextTo64 (8 * size) n else BitVec.ofNat 64 n

/-- Write an answer's data to a thread's registers: loads only with status OK; a RESULT whenever there is one (R234). -/
def Thread.deliver (x : Thread) (d : Dest) (a : Answer) : Thread :=
  let x := x.subPend d.mask
  match d with
  | .none => x
  | .reg r off size sx => if a.status = sOK then x.setReg r (loadValue a.data off size sx) else x
  | .group r => if a.status = sOK then x.setGroup r a.data else x
  | .result r w4 =>
    match a.result with
    | some v => x.setReg r (BitVec.ofNat 64 (if w4 ∧ a.status = sOK then v % 2 ^ 32 else v))
    | none => x

/-- A thread's request completes (R50, R231 to R234, R349). -/
def State.threadDone (s : State) (t key : Nat) (sl : Slot) (a : Answer) : State :=
  let s := s.setFld (R.SEQ_THREAD_STATUS.OUTSTANDING t) (s.fld (R.SEQ_THREAD_STATUS.OUTSTANDING t) - 1)
  if sl.dead then
    if s.flag (R.SEQ_THREAD_STATUS.OUTSTANDING t) then s else s.setFld (R.SEQ_THREAD_STATUS.DRAINING t) 0
  else
    let atomicClass := isAtomicClass sl.pkt.op
    let s := s.setThr t (((s.thr t).deliver sl.dest a).subPend (regMask sl.st))
    let w := if atomicClass then keyWord a.status sl.pkt.lseq.toNat (key / 256) sl.t16
      else statusWord a.status
    let s := s.writeStatus t sl.st w
    if a.status = sPOISON then
      s.consume (partOf sl.pkt.tag) (if atomicClass then 4 else 1) sl.pkt.tag.toNat sl.pkt.line.toNat sl.pkt.sub.toNat
        sl.pkt.dst.toNat (if atomicClass then 0 else sl.pc)
    else s

/-- The fence of a port set. -/
def State.fence (s : State) (m : Nat) : Fence := FMap.get (fun _ => {}) s.hst.fences m

/-- Replace the fence of a port set. -/
def State.setFence (s : State) (m : Nat) (f : Fence) : State :=
  { s with hst := { s.hst with fences := FMap.set (fun _ => {}) s.hst.fences m f } }

/-- Every covered write of the set's fence has completed: the set's status registers report it (R313). -/
def State.fenceReport (s : State) (m : Nat) : State :=
  let f := s.fence m
  if f.busy ∧ f.covered = [] then
    let s := s.setFence m { f with busy := false, cFirst := 0, cFailed := 0 }
    (upFrom 0 4).foldl (fun s n =>
      if bitOf m n then
        ((((s.setFld (R.HST_FENCE_STATUS.TOKEN n) f.token).setFld (R.HST_FENCE_STATUS.BUSY n) 0).raise
          (R.HST_FENCE_STATUS.DONE n)).setFld (R.HST_FENCE_STATUS.STATUS n) f.cFirst).setFld
          (R.HST_FENCE_STATUS.FAILED n) (satBits 16 f.cFailed)
      else s) s
  else s

/-- A Fabric Window write ends (R15, R313): failures are logged, counted and signalled, and the fence learns of it. -/
def State.fwWriteDone (s : State) (h : Nat) (key : Option Nat) (tag fva status : Nat) (muted : Bool := false) : State :=
  let s := if status = sOK then s else
    let s := s.faultLog 0x0801 tag 3 h fva (status % 16)
    let s := (s.raise (R.HST_EVENTS.FW_FAIL h)).count (R.HST_COUNTS1.FW_FAIL h)
    if muted then s else s.msix h (s.fld (R.HST_PORT_CFG.ERRVEC h))
  let m := s.portSet h
  let f := s.fence m
  let isCov := match key with | some k => f.covered.contains k | none => false
  if isCov then
    let f := { f with covered := f.covered.filter fun k => some k != key,
                      cFirst := if f.cFirst = 0 then status else f.cFirst,
                      cFailed := f.cFailed + (if status = sOK then 0 else 1) }
    (s.setFence m f).fenceReport m
  else
    s.setFence m { f with first := if f.first = 0 then status else f.first,
                          failed := f.failed + (if status = sOK then 0 else 1) }

/-- The log record of a Fabric Window read that fails, and the consumption of poison by a host port (R16, R349). -/
def State.fwReadFails (s : State) (h : Nat) (tag fva : Nat) (line sub home : Nat) (status : Nat) : State :=
  if status = sOK then s
  else
    let s := s.faultLog 0x0802 tag 3 h fva (status % 16)
    if status = sPOISON then s.consume (s.fld (R.HST_PORT_CFG.DEFPART h)) 5 tag line sub home 0 else s

/-- A Fabric Window read ends (R16, R349): its data, or poison and a log record. -/
def State.fwReadDone (s : State) (h : Nat) (tag fva : Nat) (line sub home : Nat) (a : Answer) : State :=
  (s.send (.cxlData h a.data (a.status != sOK))).fwReadFails h tag fva line sub home a.status

/-- A host port's request ends. Of a read of a port that has been reset since, only the data is discarded (R16, Table 13.5). -/
def State.hostDone (s : State) (h key : Nat) (sl : Slot) (a : Answer) : State :=
  let s := s.setFld (R.HST_PORT_STATUS.FW_OUT h) (s.fld (R.HST_PORT_STATUS.FW_OUT h) - 1)
  if sl.merge.isSome then s.fwWriteDone h (some key) sl.pkt.tag.toNat sl.fva a.status sl.muted
  else if sl.pkt.op = opREAD then
    let a := if sl.dead then { a with status := if a.status = sPOISON then sABORTED else a.status } else a
    if sl.muted then s.fwReadFails h sl.pkt.tag.toNat sl.fva sl.pkt.line.toNat sl.pkt.sub.toNat sl.pkt.dst.toNat a.status
    else s.fwReadDone h sl.pkt.tag.toNat sl.fva sl.pkt.line.toNat sl.pkt.sub.toNat sl.pkt.dst.toNat a
  else s.fwWriteDone h (some key) sl.pkt.tag.toNat sl.fva a.status sl.muted

/-- DETAIL of a block transfer for a status met at a line (Table 10.10). -/
def skdDetail (status : Nat) : Nat :=
  if status = sOK then 0
  else if status = sPOISON then 6
  else if status = sHOST ∨ status = sTIMEOUT ∨ status = sUNKNOWN then 7
  else if status = sNORES then 8
  else if status = sUNREACH then 0x10
  else if status = sXLATE then 4
  else 5

/-- A descriptor meets a status; the first one other than OK stays (R247). -/
def SkdRun.meet (r : SkdRun) (status : Nat) : SkdRun :=
  { r with status := if r.status = 0 then status else r.status,
           detail := if r.status = 0 then skdDetail status else r.detail,
           stopped := r.stopped || (status != sOK && status != sPOISON) }

/-- A line of a descriptor after a request of it has ended: source reads bring its data, the destination write ends it; a
read that fails ends it too. -/
def SkdLine.after (ln : SkdLine) (what : Nat) (a : Answer) : SkdLine :=
  let bad := a.status != sOK && a.status != sPOISON
  if what = 0 then { ln with done := true, ok := a.status == sOK }
  else
    let ln := { ln with reading := ln.reading - 1, poison := ln.poison || a.status == sPOISON, done := ln.done || bad }
    if what = 1 then { ln with src := a.data } else { ln with src2 := a.data }

/-- The descriptor's operation ends: its handle is told, and it leaves the Skidder. -/
def State.skdEnd (s : State) (k : Nat) (r : SkdRun) (status detail : Nat) : State :=
  let x := s.skid k
  let s := s.setSkid k { x with run := x.run.filter fun y => y.desc.op != r.desc.op }
  s.endOp r.desc.thread r.desc.op status detail

/-- A poisoned source line has been read for accumulation: the Skidder consumes it (R349, consumer 6); a COPY only moves it. -/
def State.accumReads (s : State) (r : SkdRun) (what line sub home : Nat) : State :=
  if what ≠ 0 ∧ getBits r.desc.bytes.toNat 0 8 = 3 then s.consume (partOf r.desc.tag) 6 r.desc.tag.toNat line sub home 0 else s

/-- A request of the Bucker ends (R246, R247, R349). -/
def State.buckerDone (s : State) (k : Nat) (sl : Slot) (op i what : Nat) (a : Answer) : State :=
  let x := s.skid k
  match x.run.find? fun r => r.desc.op == op with
  | none => s
  | some r =>
    if sl.dead then s
    else if what = 3 then
      if a.status = sOK then s.skdEnd k r r.status r.detail else s.skdEnd k r a.status (skdDetail a.status)
    else
      let ln := ((FMap.find r.lines i).getD {}).after what a
      let r' := { r.meet a.status with lines := r.lines.put i ln, endTick := s.tick }
      let s := s.setSkid k { x with run := x.run.map fun y => if y.desc.op = op then r' else y }
      let s := if a.status = sPOISON then s.accumReads r what sl.pkt.line.toNat sl.pkt.sub.toNat sl.pkt.dst.toNat else s
      if a.status = sPOISON ∧ isAtomicClass sl.pkt.op then
        s.consume (partOf sl.pkt.tag) 4 sl.pkt.tag.toNat sl.pkt.line.toNat sl.pkt.sub.toNat sl.pkt.dst.toNat 0
      else s

/-- A write-back ends (R125): the line leaves the cache with OK; with any other status it stays dirty. -/
def State.wbDone (s : State) (t : Nat) (sl : Slot) (a : Answer) : State :=
  let same := fun (l : RlcLine) => l.leaving && l.is sl.pkt.dst.toNat sl.pkt.sub.toNat sl.pkt.line.toNat sl.pkt.tag
  if a.status = sOK then s.rlcDrop same
  else
    let s := s.setRlc (s.home.rlc.map fun l => if same l then { l with leaving := false } else l)
    if t < 512 ∧ (s.thr t).wbFail = 0 then s.setThr t { s.thr t with wbFail := a.status } else s

/-- A completed ownership request changes what the module owns (R123). -/
def State.ownDone (s : State) (sl : Slot) (a : Answer) : State :=
  let p := sl.pkt
  let home := s.homeOf p.dst.toNat p.line.toNat
  let base := p.line.toNat / sl.ownSize * sl.ownSize
  let o : Owned := { home := BitVec.ofNat 16 home, sub := p.sub, base := base, lines := sl.ownSize, tag := p.tag }
  if a.status ≠ sOK ∨ sl.ownSize = 0 then s
  else if p.op = opOWNACQ then { s with home := { s.home with owned := o :: s.home.owned.filter (· != o) } }
  else if p.op = opOWNREL then { s with home := { s.home with owned := s.home.owned.filter (· != o) } }
  else s

/-- A cacheable answer fills the Remote Line Cache, unless an invalidation or a later write met the fill, or the cache holds the
line already; a partial store that waited for the line is merged, into a poisoned line too (R121, R122, R124, R131). -/
def State.fillDone (s : State) (key : Nat) (sl : Slot) (a : Answer) (cacheable : Bool) : State :=
  let p := sl.pkt
  let home := s.homeOf p.dst.toNat p.line.toNat
  let own := (s.ownedAt home p.sub.toNat p.line.toNat p.tag).isSome
  let held := s.rlcFind home p.sub.toNat p.line.toNat p.tag
  let l : RlcLine := { home := BitVec.ofNat 16 home, sub := p.sub, line := p.line, tag := p.tag, mode := if own then 2 else 1,
                       dirty := false, pz := a.status == sPOISON, data := a.data }
  if ¬ (p.op = opREAD ∨ p.op = opBREAD) then s
  else match sl.merge with
  | some m =>
    if (a.status ≠ sOK ∧ a.status ≠ sPOISON) ∨ ¬ own then s
    else s.rlcFill (key / 256) ((held.getD l).store m.data m.first m.count m.pz)
  | none =>
    if a.status ≠ sOK ∨ sl.noFill ∨ sl.dead ∨ ¬ (cacheable ∨ own) ∨ held.isSome then s
    else s.rlcFill (key / 256) l

/-- A request ends with an answer: its slot and its Firebreak record are released, the holds and drains that counted
it learn of it, its engine gets the completion (R14), and waiting threads are looked at again. -/
def State.complete (s : State) (key : Nat) (a : Answer) (cacheable : Bool := false) : State :=
  match s.slot key with
  | none => s
  | some sl =>
    let s := { s with slots := s.slots.del key }
    let s := if sl.marked then match sl.bucket with | some (g, _) => s.releaseHeld g | none => s else s
    let s := if sl.drain then s.drainDone (a.status == sTIMEOUT) else s
    let s := match sl.owner with
      | .thread t => s.threadDone t key sl a
      | .host h => s.hostDone h key sl a
      | .bucker op i w => s.buckerDone (key / 256) sl op i w a
      | .writeback t => s.wbDone t sl a
    ((s.ownDone sl a).fillDone key sl a cacheable).recheck

/-- An engine's operation ends (R242): once its completion record has been performed, where that is a mirrored store (R127). -/
def State.closeOp (s : State) (t op status detail : Nat) : State :=
  if s.home.mirror.any fun m => m.kind == .engine (op + 1) || m.kind == .waits (op + 1) then
    { s with home := { s.home with closing := s.home.closing ++ [(t, op, status, detail)] } }
  else
    let s := { s with home := { s.home with engFail := s.home.engFail.del (op + 1) } }
    (s.endOp t op status detail).recheck

end Sys2Proof.Machine
end

