-- ==== Sys2Proof/Machine/Engine.lean ====
section
/-! DEFINITION. Accesses of the module's own engines (kernel scheduler, Ladle, Collective Engine, Bucker) to this module's
memory and its hosts' under a tenancy tag (R185, R200, R241), and completion records (R189, R217, R247). -/

namespace Sys2Proof.Machine

open Sys2Proof

/-- Why an engine's access failed. -/
inductive EngFail
  | fault (f : XFault) (acc : Acc) (fva : Nat)
  /-- the status met -/
  | status (n : Nat)
  /-- CHECK_FAIL with a DETAIL of the engine's own -/
  | check (detail : Nat)
deriving DecidableEq, Repr

/-- An engine at work under a tag: the state, what the hosts will answer, and what its accesses have met so far. -/
structure Eng where
  s : State
  tag : BitVec 16
  /-- answers of the hosts to its reads, in order; with none left a read goes unanswered -/
  hs : List HostAnswer := []
  /-- the first poisoned line read: line and sub-ID -/
  poison : Option (Nat × Nat) := none
  /-- highest check level of the regions read (R185) -/
  level : Nat := 0
  /-- a SEALED range has been read -/
  isSealed : Bool := false
  /-- host ports written to -/
  ports : List Nat := []
  fail : Option EngFail := none
  /-- 1 more than the number of the operation (R127) -/
  who : Nat := 0
deriving DecidableEq, Repr

/-- An engine goes to work for operation `op`: stores that waited for room at a mirror are performed as far as there is room
(R128), and a mirrored store of the operation that has failed meanwhile fails it. -/
def State.eng (s : State) (tag : BitVec 16) (hs : List HostAnswer) (op : Nat) (ports : List Nat := []) : Eng :=
  let s := s.settleWaits
  let f := FMap.find s.home.engFail (op + 1)
  { s := { s with home := { s.home with engFail := s.home.engFail.del (op + 1) } }, tag := tag, hs := hs, ports := ports,
    fail := f.map .status, who := op + 1 }

/-- An access fails; the first failure stays. -/
def Eng.stop (e : Eng) (s : State) (f : EngFail) : Eng := { e with s := s, fail := some f }

/-- A host leaves an engine's read unanswered: the completion timeout of the port ends it, or the request timeout (R23) where that is
the shorter; which is so is free (R317, log entry 34). -/
def Eng.unanswered (e : Eng) (s : State) (n : Nat) : Eng :=
  let (f, s) := s.fresh
  if f % 2 = 0 then e.stop s (.status sTIMEOUT)
  else e.stop ((s.raise (R.HST_EVENTS.HOST_CTO n)).hostError n) (.status sHOST)

/-- The check level of the region of Sieve entry `i` (Table 5.4, R185). -/
def State.regionLevel (s : State) (i : Nat) : Nat :=
  let c := seChk (s.sieveEntry i)
  if c = 0 then s.fld R.REL_CHECK_LEVEL.LEVEL else c - 1

/-- An engine reads the line at an FVA (R185): HBM of this module, or memory of a host on H0 to H3. -/
def Eng.line (e : Eng) (fva : Nat) : Eng × Nat :=
  if e.fail.isSome then (e, 0)
  else match e.s.localAccess e.tag fva .load with
  | (s, .fault f) => (e.stop s (.fault f .load fva), 0)
  | (s, .refused st) => (e.stop s (.status st), 0)
  | (s, .ok (.hbm h i) x) =>
    if s.rangeRead (64 * h) (.engine (partOf e.tag)) then
      let (data, bad) := s.lineFor e.who h
      let p := if e.poison.isNone ∧ bad then some (x.line, x.sub) else e.poison
      ({ e with s := s, poison := p, level := max e.level (s.regionLevel i), isSealed := e.isSealed || s.isSealedLine h },
        data.toNat)
    else (e.stop s.sealedDeny (.status sSEALED), 0)
  | (s, .ok (.host n hpa i) x) =>
    match s.pasid n (partOf e.tag) with
    | .inl _ => (e.stop (s.hostError n) (.status sHOST), 0)
    | .inr id =>
      if !s.hostUp n then (e.stop (s.hostError n) (.status sHOST), 0)
      else
        let s := s.send (.hostRead n hpa id)
        match e.hs with
        | [] => (e.unanswered s n, 0)
        | .success bad data :: r =>
          let p := if e.poison.isNone ∧ bad then some (x.line, x.sub) else e.poison
          ({ e with s := s.poisonCame n bad, hs := r, poison := p, level := max e.level (s.regionLevel i) }, data.toNat)
        | _ :: r => ({ e with hs := r }.stop (s.hostError n) (.status sHOST), 0)

/-- Read lines one after another from a line-aligned FVA, as one number. -/
def Eng.lines (e : Eng) (fva : Nat) : Nat → Eng × Nat
  | 0 => (e, 0)
  | n + 1 =>
    let (e, l) := e.line fva
    let (e, r) := Eng.lines e (fva + 64) n
    (e, l + 2 ^ 512 * r)

/-- Read `n` bytes at an FVA, whole lines at a time, as one little-endian number. -/
def Eng.read (e : Eng) (fva n : Nat) : Eng × Nat :=
  let count := if n = 0 then 0 else (fva + n - 1) / 64 + 1 - fva / 64
  let (e, v) := e.lines (fva / 64 * 64) count
  (e, getBits v (8 * (fva % 64)) (8 * n))

/-- The packet form of an engine's store, as a mirror's copy carries it (R127). -/
def State.storePacket (s : State) (tag : BitVec 16) (x : Xlat) (first count : Nat) (data : Line) (pz : Bool) : Packet :=
  { dst := BitVec.ofNat 16 s.feid, src := BitVec.ofNat 16 s.feid, tag := tag, opcode := opcodeOf false opBWRITE 0, vc := 3,
    pz := pz, line := BitVec.ofNat 46 x.line, sub := BitVec.ofNat 3 x.sub, bmc := BitVec.ofNat 16 (first + 64 * count),
    payload := data.setWidth 640 }

/-- An engine writes `count` bytes from byte `first` of the line at an FVA (R185); a store to a mirrored granule is performed as
R127 and R128 give. -/
def Eng.write (e : Eng) (fva first count data : Nat) (pz : Bool) : Eng :=
  if e.fail.isSome then e
  else match e.s.localAccess e.tag fva .store with
  | (s, .fault f) => e.stop s (.fault f .store fva)
  | (s, .refused st) => e.stop s (.status st)
  | (s, .ok (.hbm h i) x) =>
    if s.rangeWrite (64 * h) then
      let p := s.storePacket e.tag x first count (BitVec.ofNat 512 data) pz
      { e with s := s.storeEngine p h i e.who }
    else e.stop s.sealedDeny (.status sSEALED)
  | (s, .ok (.host n hpa _) _) =>
    match s.pasid n (partOf e.tag) with
    | .inl _ => e.stop (s.hostError n) (.status sHOST)
    | .inr id =>
      if s.hostUp n then
        { e with s := s.send (.hostWrite n hpa first count (BitVec.ofNat 512 data) pz id),
                 ports := if e.ports.contains n then e.ports else e.ports ++ [n] }
      else e.stop (s.hostError n) (.status sHOST)

/-- An engine writes `n` bytes, at most 64, from any FVA on: in one line or in two. -/
def Eng.span (e : Eng) (fva n data : Nat) : Eng :=
  let o := fva % 64
  let a := min n (64 - o)
  let e := e.write (fva / 64 * 64) o a (data % 2 ^ (8 * a) * 2 ^ (8 * o)) false
  if a < n then e.write (fva / 64 * 64 + 64) 0 (n - a) (data / 2 ^ (8 * a)) false else e

/-- Wait until every write to host memory has been performed: a flush read to each port written to (R102). -/
def Eng.flush (e : Eng) : Eng :=
  { e.ports.foldl (fun (e : Eng) n =>
      if e.fail.isSome then e
      else match e.s.pasid n (partOf e.tag) with
      | .inl _ => e.stop (e.s.hostError n) (.status sHOST)
      | .inr id =>
        let s := e.s.send (.hostFlush n id)
        match e.hs with
        | [] => e.unanswered s n
        | .success bad _ :: r => { e with s := s.poisonCame n bad, hs := r }
        | _ :: r => { e with hs := r }.stop (s.hostError n) (.status sHOST)) e with ports := [] }

/-- How reading a descriptor ends. -/
inductive EngBytes
  /-- the bytes, and whether a line of them is poisoned -/
  | ok (bs : List Byte) (poison : Bool)
  | fault (f : XFault) (fva : Nat)
  | refused (status : Nat)
deriving DecidableEq, Repr

/-- The bytes of a descriptor: module memory of this module with sub-ID 0 only (R241). -/
def State.descriptorBytes (s : State) (tag : BitVec 16) : Nat → Nat → State × EngBytes
  | _, 0 => (s, .ok [] false)
  | fva, n + 1 =>
    match s.localAccess tag fva .load with
    | (s, .fault f) => (s, .fault f fva)
    | (s, .refused st) => (s, .refused st)
    | (s, .ok (.host ..) _) => (s, .refused sUNREACH)
    | (s, .ok (.hbm h _) _) =>
      if s.rangeRead (64 * h) (.engine (partOf tag)) then
        match State.descriptorBytes s tag (fva + 64) n with
        | (s, .ok bs p) => (s, .ok (lineBytes (s.readLine h) ++ bs) (p || s.isPoison h))
        | r => r
      else (s.sealedDeny, .refused sSEALED)

/-- Read `n` bytes of a descriptor at an FVA. -/
def State.readDescriptor (s : State) (tag : BitVec 16) (fva n : Nat) : State × EngBytes :=
  let a := fva / 64 * 64
  match s.descriptorBytes tag a ((fva + n - 1) / 64 + 1 - fva / 64) with
  | (s, .ok bs p) => (s, .ok ((bs.drop (fva - a)).take n) p)
  | r => r

/-- A completion record (Table 3.5, R189): bytes 8 to 59 from the payload, and the CRC. -/
def recordLine (seq kind len : Nat) (payload : List Byte) : Line :=
  let body := leBytes 4 seq ++ leBytes 2 kind ++ leBytes 1 len ++ leBytes 1 1 ++ (payload ++ List.replicate 52 0#8).take 52
  lineOf (body ++ leBytes 4 (crc32c body).toNat)

/-- A field of a descriptor: `n` bytes from byte `i`. -/
def fieldAt (d : Nat) (i n : Nat) : Nat := getBits d (8 * i) (8 * n)

/-- Whether two byte ranges overlap. -/
def rangesMeet (a n b m : Nat) : Bool := decide (a < b + m ∧ b < a + n)

end Sys2Proof.Machine
end

