-- ==== Sys2Proof/Machine/Journal.lean ====
section
/-! DEFINITION. The settings store's flash and the journal (R377, R378, R382). -/

namespace Sys2Proof.Machine

open Sys2Proof

/-- What erased flash reads as. -/
def flashErased (_ : Nat) : Byte := 0xFF#8

/-- Byte `a` of the flash. -/
def State.flashByte (s : State) (a : Nat) : Byte := FMap.get flashErased s.mgt.flash a

/-- Bytes `a`, ..., `a + n - 1` of the flash. -/
def State.flashBytes (s : State) (a n : Nat) : List Byte := (upFrom a n).map s.flashByte

/-- Program bytes from a flash address. -/
def flashCells (m : FMap Byte) (a : Nat) : List Byte → FMap Byte
  | [] => m
  | b :: r => flashCells (FMap.set flashErased m a b) (a + 1) r

/-- Program bytes. -/
def State.flashWrite (s : State) (a : Nat) (bs : List Byte) : State :=
  { s with mgt := { s.mgt with flash := flashCells s.mgt.flash a bs } }

/-- Erase the flash from `a`, `n` bytes. -/
def State.flashErase (s : State) (a n : Nat) : State :=
  { s with mgt := { s.mgt with flash := FMap.drop (fun k => decide (a ≤ k ∧ k < a + n)) s.mgt.flash } }

/-- First flash address of a bank (R378). -/
def bankBase (b : Nat) : Nat := 0x2000000 * b

/-- The journal's size and place within a bank (Table 16.7). -/
def journalBytes : Nat := 0x100000
def journalAt : Nat := 0x1F00000

/-- Journal items (Table 16.10). -/
def itDEBUG : Nat := 1
def itRETIRE : Nat := 2
def itBASE : Nat := 3
def itLASER : Nat := 4

/-- The 32 bytes of a journal record (Table 16.10). -/
def journalRecord (item index jseq value : Nat) : List Byte :=
  let body := leBytes 28 (packBits [(0, item), (16, index), (32, jseq % 2 ^ 32), (64, value % 2 ^ 128)])
  body ++ leBytes 4 (crc32c body).toNat

/-- Write one record at the journal's next place; the sector after the one begun is erased (R382). -/
def State.journalPut (s : State) (bank item index value : Nat) : State :=
  let at_ := bankBase bank + journalAt + s.mgt.jptr
  let s := s.flashWrite at_ (journalRecord item index s.mgt.jseq value)
  let ptr := (s.mgt.jptr + 32) % journalBytes
  let s := { s with mgt := { s.mgt with jptr := ptr, jseq := (s.mgt.jseq + 1) % 2 ^ 32 } }
  if ptr % 65536 = 32 then
    s.flashErase (bankBase bank + journalAt + (ptr / 65536 * 65536 + 65536) % journalBytes) 65536
  else s

/-- Write the current value of every item at the start of a sector. -/
def State.journalAll (s : State) (bank : Nat) : State :=
  s.mgt.items.foldl (fun s e => s.journalPut bank (e.1 / 65536) (e.1 % 65536) e.2) s

/-- The controller is restarting or being swapped: its commands complete with NO_RESOURCE and the control loops hold
(R344, R385). -/
def State.mgtAway (s : State) : Bool := s.mgt.swap.isSome || s.mgt.restart.isSome

/-- The restart of the controller ends: the 0x0B01 record gives its time (R344). -/
def State.restartDone (s : State) : State :=
  match s.mgt.restart with
  | none => s
  | some t =>
    ({ s with mgt := { s.mgt with restart := none } }).faultLog 0x0B01 0 0 0 (s.tick - t) (s.fld R.SEC_STATUS.FW_SLOT)

/-- A restart ends within 500 ms, 3,125,000 ticks (R34, R344). -/
def State.restartLimit (s : State) : State :=
  match s.mgt.restart with
  | some t => if t + 3125000 ≤ s.tick then s.restartDone else s
  | none => s

/-- Append a record to the active bank's journal: a new sector begins with every item's current value. With no active bank,
or while the controller is being swapped or restarted, there is no append (R344, R382, R383, R385). -/
def State.journal (s : State) (item index value : Nat) : State :=
  if s.flag R.MGT_SET_STATUS.NONE ∨ s.mgtAway then s
  else
    let bank := s.fld R.MGT_SET_STATUS.ACTIVE
    let s := if s.mgt.jptr % 65536 = 0 then s.journalAll bank else s
    let s := { s with mgt := { s.mgt with items := s.mgt.items.put (65536 * item + index) value } }
    s.journalPut bank item index value

end Sys2Proof.Machine
end

