-- ==== Sys2Proof/Machine/LadleArith.lean ====
section
/-! DEFINITION. Ladle arithmetic: number formats (R170, R171), the long accumulator (R172, R173), read-out (R174), rounding
(R175), exact comparison (R176), the Aligned wire mode (R178 to R180). -/

namespace Sys2Proof.Machine

/-! ## Elements -/

/-- Bits of an element by format code (Table 8.2). -/
def elemBits (code : Nat) : Nat :=
  if code = 0 ∨ code = 12 then 32
  else if code = 1 ∨ code = 2 then 16
  else if code = 7 ∨ code = 8 then 6
  else if code = 9 then 4
  else if code = 13 then 64
  else 8

/-- Exponent width, fraction width and bias of a float format by code (Table 8.2). -/
def floatShape (code : Nat) : Nat × Nat × Nat :=
  if code = 0 then (8, 23, 127)
  else if code = 1 then (8, 7, 127)
  else if code = 2 then (5, 10, 15)
  else if code = 3 ∨ code = 5 then (4, 3, 7)
  else if code = 4 ∨ code = 6 then (5, 2, 15)
  else if code = 7 then (3, 2, 3)
  else if code = 8 then (2, 3, 1)
  else (2, 1, 1)

/-- A finite number of a float format: sign, exponent field and fraction. -/
def finiteOf (ew mw bias n : Nat) : Num :=
  let man := n % 2 ^ mw
  let ex := getBits n mw ew
  let neg := bitOf n (ew + mw)
  let mag : Int := if ex = 0 then man else (2 ^ mw + man : Nat)
  .fin neg ⟨if neg then -mag else mag, ((if ex = 0 then 1 else ex : Nat) : Int) - (bias + mw : Nat)⟩

/-- Decode an element (Table 8.2); integers are exact values. -/
def elemNum (code n : Nat) : Num :=
  let (ew, mw, bias) := floatShape code
  let top := 2 ^ ew - 1
  let ex := getBits n mw ew
  let man := n % 2 ^ mw
  let neg := bitOf n (ew + mw)
  if 10 ≤ code then
    let v := signedOf (elemBits code) n
    .fin (decide (v < 0)) ⟨v, if code = 10 then -6 else 0⟩
  else if code = 3 ∨ code = 5 then (if ex = top ∧ man = 7 then .nan else finiteOf ew mw bias n)
  else if 7 ≤ code then finiteOf ew mw bias n
  else if ex = top then (if man = 0 then .inf neg else .nan)
  else finiteOf ew mw bias n

/-- An MX element with its E8M0 scale byte (R171). -/
def Num.scaled (x : Num) (scale : Nat) : Num :=
  if scale = 255 then .nan
  else match x with
  | .fin neg v => .fin neg ⟨v.m, v.e + (scale : Int) - 127⟩
  | y => y

/-- Whether a format code is an MX format, with a scale (Table 8.2). -/
def isMx (code : Nat) : Bool := decide (5 ≤ code ∧ code ≤ 10)

/-- The exact product; infinity times zero is NaN (Table 8.3). -/
def Num.mul (a b : Num) : Num :=
  match a, b with
  | .nan, _ => .nan
  | _, .nan => .nan
  | .inf s, .inf t => .inf (s != t)
  | .inf s, .fin t v => if v.m = 0 then .nan else .inf (s != t)
  | .fin t v, .inf s => if v.m = 0 then .nan else .inf (s != t)
  | .fin s v, .fin t w => .fin (s != t) (v.mul w)

/-- The exact sum of two values; opposite infinities give NaN, and −0 only where both are −0. -/
def Num.add (a b : Num) : Num :=
  match a, b with
  | .nan, _ => .nan
  | _, .nan => .nan
  | .inf s, .inf t => if s = t then .inf s else .nan
  | .inf s, _ => .inf s
  | _, .inf t => .inf t
  | .fin s v, .fin t w =>
    let r := v.add w
    .fin (if r.m = 0 then s && t else decide (r.m < 0)) r

/-! ## The long accumulator (R172, R173) -/

/-- Residue mod 7 of an integer shifted left by `k` places, as the residue circuit forms it: a shift multiplies by 2^(k mod 3)
(R192). -/
def res7 (m : Int) (k : Nat) : Nat := ((m % 7).toNat * 2 ^ (k % 3)) % 7

/-- Whether RES agrees with VALUE: the comparison after every add (R192). -/
def LAcc.resOk (a : LAcc) : Bool := a.res == (a.value % 7).toNat

/-- The 48 bytes of an accumulator in the diagnostic windows (Table 8.3). -/
def LAcc.word (a : LAcc) : Nat :=
  packBits [(0, fieldOf 320 a.value), (320, b2n a.pinf), (321, b2n a.ninf), (322, b2n a.nan), (323, b2n a.inexact),
    (324, b2n a.nz), (325, a.res % 8)]

/-- Set PINF or NINF. -/
def LAcc.toInf (a : LAcc) (neg : Bool) : LAcc :=
  { a with pinf := a.pinf || !neg, ninf := a.ninf || neg, nz := false }

/-- A value in units of 2^-149, rounded to nearest even, and whether it was rounded (R173). -/
def unitsOf (v : Dy) : Int × Bool :=
  if -149 ≤ v.e then (v.m * 2 ^ (v.e + 149).toNat, false)
  else
    let k := (-149 - v.e).toNat
    let q := rneShift v.m.natAbs k
    (if v.m < 0 then -(q : Int) else q, decide (v.m.natAbs % 2 ^ k ≠ 0))

/-- Whether a magnitude is 2^170 or more. -/
def beyond170 (v : Dy) : Bool :=
  if 170 ≤ v.e then decide (v.m ≠ 0) else decide (2 ^ (170 - v.e).toNat ≤ v.m.natAbs)

/-- Add one addend (R173); RES follows by the residue of the addend (R192). -/
def LAcc.add (a : LAcc) (x : Num) : LAcc :=
  match x with
  | .nan => { a with nan := true, nz := false }
  | .inf neg => a.toInf neg
  | .fin neg v =>
    let a := { a with nz := a.nz && neg && v.m == 0 }
    if beyond170 v then a.toInf neg
    else
      let (u, rounded) := unitsOf v
      let a := { a with inexact := a.inexact || rounded }
      let sum := a.value + u
      let r := if rounded then (u % 7).toNat else if -149 ≤ v.e then res7 v.m (v.e + 149).toNat else (u % 7).toNat
      if sum < -2 ^ 319 ∨ 2 ^ 319 ≤ sum then a.toInf (decide (sum < 0))
      else { a with value := sum, res := (a.res + r) % 7 }

/-- Add a list of addends. -/
def LAcc.sum (xs : List Num) : LAcc := xs.foldl LAcc.add {}

/-- What an accumulator holds, as a number: −0 where every addend has been −0 (R174). -/
def LAcc.num (a : LAcc) : Num :=
  if a.nan || (a.pinf && a.ninf) then .nan
  else if a.pinf then .inf false
  else if a.ninf then .inf true
  else .fin (if a.value = 0 then a.nz else decide (a.value < 0)) ⟨a.value, -149⟩

/-- The accumulator's value times a factor, for a read-out that applies one (R174): a VALUE of 0 keeps the sign that NZ gives
it. -/
def LAcc.timesNum (a : LAcc) (f : Num) : Num :=
  match a.num, f with
  | .fin neg v, .fin fneg w => if v.m = 0 then .fin a.nz v else if w.m = 0 then .fin false ⟨0, 0⟩ else Num.mul (.fin fneg w) (.fin neg v)
  | x, f => Num.mul f x

/-! ## Read-out (R174, R175) -/

/-- The stochastic draw for element `i` (R175). -/
def draw (seed i : Nat) : Nat :=
  let m := 2 ^ 64
  let k := (seed + i * 0x9E3779B97F4A7C15) % m
  let k := k ^^^ (k / 2 ^ 30)
  let k := k * 0xBF58476D1CE4E5B9 % m
  let k := k ^^^ (k / 2 ^ 27)
  let k := k * 0x94D049BB133111EB % m
  let k := k ^^^ (k / 2 ^ 31)
  k % 2 ^ 32

/-- How a read-out rounds: to nearest even, or stochastically with a draw; and whether it saturates. -/
structure RndMode where
  draw : Option Nat := none
  sat : Bool := false
deriving DecidableEq, Repr

/-- Round a magnitude num/den·2^e (num not 0) of a value of the given sign to a float format: a pattern without sign, which
may lie beyond the largest finite one, and whether it was rounded. A stochastic draw rounds the value up, so that of a
negative one the magnitude falls (R175). -/
def roundMagnitude (code num den : Nat) (e : Int) (neg : Bool) (r : Option Nat) : Nat × Bool :=
  let (_, mw, bias) := floatShape code
  let emin : Int := 1 - (bias + mw : Nat)
  let q0 : Int := max (e + bitLen num - bitLen den - 1 - (mw : Nat)) emin
  let scaledBy := fun (q : Int) => if q ≤ e then (num * 2 ^ (e - q).toNat, den) else (num, den * 2 ^ (q - e).toNat)
  let (n0, d0) := scaledBy q0
  let q := if 2 ^ (mw + 1) ≤ n0 / d0 then q0 + 1 else q0
  let (n, d) := scaledBy q
  let lo := n / d
  let rem := n % d
  let up := match r with
    | none => decide (d < 2 * rem) || (2 * rem == d && lo % 2 == 1)
    | some k => if neg then decide (rem ≠ 0 ∧ 2 ^ 32 * (d - rem) / d ≤ k) else decide (k < 2 ^ 32 * rem / d)
  ((q - emin).toNat * 2 ^ mw + (if up then lo + 1 else lo), decide (rem ≠ 0))

/-- The pattern of the largest finite value of a format that results are written in (Table 8.2). -/
def maxFinite (code : Nat) : Nat :=
  if code = 0 then 0x7F7FFFFF else if code = 1 then 0x7F7F else if code = 2 then 0x7BFF else if code = 3 then 0x7E else 0x7B

/-- The canonical NaN of a format (Table 8.2). -/
def canonNan (code : Nat) : Nat :=
  if code = 0 then 0x7FC00000 else if code = 1 then 0x7FC0 else if code = 2 then 0x7E00 else if code = 3 then 0x7F else 0x7E

/-- Flags of a read-out: bit 0 INEXACT, bit 1 INF, bit 2 NAN (Table 8.9, byte 11). -/
abbrev RFlags := BitVec 5

/-- An infinity read out: the largest finite value with SAT, NaN in E4M3 (R174). -/
def readInf (code : Nat) (neg sat : Bool) : Nat × RFlags :=
  let s := b2n neg * 2 ^ (elemBits code - 1)
  if sat then (s + maxFinite code, 2)
  else if code = 3 then (canonNan 3, 4)
  else (s + maxFinite code + 1, 2)

/-- Read out x/den in a float format (R174). -/
def readOut (code : Nat) (m : RndMode) (x : Num) (den : Nat := 1) : Nat × RFlags :=
  match x with
  | .nan => (canonNan code, 4)
  | .inf neg => readInf code neg m.sat
  | .fin neg v =>
    let s := b2n neg * 2 ^ (elemBits code - 1)
    if v.m = 0 then (s, 0)
    else
      let (mag, rounded) := roundMagnitude code v.m.natAbs den v.e neg m.draw
      if maxFinite code < mag then
        let (r, f) := readInf code neg m.sat
        (r, f ||| (if rounded then 1 else 0))
      else (s + mag, if rounded then 1 else 0)

/-! ## MAX and MIN (R176) -/

/-- Order key of a float pattern that is not NaN: −0 below +0. -/
def floatKey (code n : Nat) : Int :=
  let w := elemBits code - 1
  let mag : Int := (n % 2 ^ w : Nat)
  if bitOf n w then -mag - 1 else mag

/-- maximumNumber where `up`, else minimumNumber, of two patterns of a float format. -/
def floatPick (code : Nat) (up : Bool) (a b : Nat) : Nat :=
  match elemNum code a, elemNum code b with
  | .nan, .nan => canonNan code
  | .nan, _ => b
  | _, .nan => a
  | _, _ => if (decide (floatKey code a < floatKey code b)) != up then a else b

/-- maximumNumber of two exact values. -/
def Num.max (a b : Num) : Num :=
  match a, b with
  | .nan, y => y
  | x, .nan => x
  | .inf true, y => y
  | x, .inf true => x
  | .inf false, _ => .inf false
  | _, .inf false => .inf false
  | .fin s v, .fin t w => if v.lt w then .fin t w else if w.lt v then .fin s v else if s && !t then .fin t w else .fin s v

/-- One element of an Ordered step: 0 ADD, 1 MAX, 2 MIN (R176, R177). -/
def orderedElem (code rop : Nat) (sat : Bool) (xs : List Nat) : Nat × RFlags :=
  let w := elemBits code
  match xs with
  | [] => (0, 0)
  | [x] => (x, 0)
  | x :: rest =>
    if 12 ≤ code then
      (rest.foldl (fun a b =>
        if rop = 0 then (a + b) % 2 ^ w
        else if (decide (signedOf w a < signedOf w b)) == (rop == 1) then b else a) x, 0)
    else if rop = 0 then readOut code { sat := sat } (LAcc.sum (xs.map (elemNum code))).num
    else (rest.foldl (fun a b => floatPick code (rop == 1) a b) x, 0)

/-- Elements of a 64-byte line. -/
def lineElems (code : Nat) : Nat := 512 / elemBits code

/-- One line of an Ordered step, element by element. -/
def orderedLine (code rop : Nat) (sat : Bool) (ls : List Nat) : Nat × RFlags :=
  let w := elemBits code
  (upFrom 0 (lineElems code)).foldl (fun (r : Nat × RFlags) i =>
    let (v, f) := orderedElem code rop sat (ls.map fun l => getBits l (w * i) w)
    (r.1 + v * 2 ^ (w * i), r.2 ||| f)) (0, 0)

/-- The long accumulators of an Ordered step that adds floats, element by element (R172, R177). -/
def orderedAccs (code rop : Nat) (ls : List Nat) : List LAcc :=
  let w := elemBits code
  if rop ≠ 0 ∨ 12 ≤ code then []
  else (upFrom 0 (lineElems code)).map fun i => LAcc.sum (ls.map fun l => elemNum code (getBits l (w * i) w))

/-! ## Aligned mode (R178 to R180) -/

/-- The exponent byte of a contribution's block: the largest biased exponent field, 0xFF for any infinity or NaN (R178). -/
def blockByte (code line : Nat) : Nat :=
  let (ew, mw, _) := floatShape code
  let w := elemBits code
  maxOf ((upFrom 0 (lineElems code)).map fun i =>
    let x := getBits (getBits line (w * i) w) mw ew
    if x = 2 ^ ew - 1 then 0xFF else x)

/-- Integer width of the wire elements (R179). -/
def alignedWidth (code : Nat) : Nat := if code = 0 then 64 else 32

/-- The exponent that an element is divided by: x·2^(F−e−1) (R179). -/
def alignedShift (code h e : Nat) : Int :=
  let (_, _, bias) := floatShape code
  ((alignedWidth code - 2 - h : Nat) : Int) - ((max e 1 : Nat) - (bias : Int)) - 1

/-- An element as an integer of the wire width, rounded to nearest even (R179). -/
def alignedElem (code h e n : Nat) : Nat :=
  match elemNum code n with
  | .fin _ v =>
    let k := v.e + alignedShift code h e
    let q : Int := if 0 ≤ k then v.m * 2 ^ k.toNat
      else (if v.m < 0 then -(rneShift v.m.natAbs (-k).toNat : Int) else rneShift v.m.natAbs (-k).toNat)
    fieldOf (alignedWidth code) q
  | _ => 0

/-- One half of a block's wire data (64 of its 128 bytes) from a contribution's line (R179). -/
def alignedHalf (code h e line half : Nat) : Nat :=
  let w := elemBits code
  let a := alignedWidth code
  let n := 512 / a
  (upFrom 0 n).foldl (fun r i => r + alignedElem code h e (getBits line (w * (half * n + i)) w) * 2 ^ (a * i)) 0

/-- Add wire data, integer by integer, with wrap; and whether an add overflowed (R180). -/
def alignedAdd (code a b : Nat) : Nat × Bool :=
  let w := alignedWidth code
  (upFrom 0 (512 / w)).foldl (fun (r : Nat × Bool) i =>
    let x := signedOf w (getBits a (w * i) w)
    let y := signedOf w (getBits b (w * i) w)
    let v := fieldOf w (x + y)
    (r.1 + v * 2 ^ (w * i), r.2 || decide (signedOf w v ≠ x + y))) (0, false)

/-- Convert one half of a block's sum back (R180); `mode i` is the read-out mode of the half's element `i`. -/
def alignedBack (code h e sum : Nat) (mode : Nat → RndMode) : Nat × RFlags :=
  let w := elemBits code
  let a := alignedWidth code
  (upFrom 0 (512 / a)).foldl (fun (r : Nat × RFlags) i =>
    let (v, f) :=
      if e = 0xFF then (canonNan code, (4 : RFlags))
      else
        let s := signedOf a (getBits sum (a * i) a)
        readOut code (mode i) (.fin (decide (s < 0)) ⟨s, -alignedShift code h e⟩)
    (r.1 + v * 2 ^ (w * i), r.2 ||| f)) (0, 0)

end Sys2Proof.Machine
end

