-- ==== Sys2Proof/Machine/Ladle.lean ====
section
/-! DEFINITION. The Ladle's positions and cells: kernel submission (R182, R188), checks and retirement (R192 to R194),
replacement (R195), disabling (R196), and the end of a kernel (R189, R190). -/

namespace Sys2Proof.Machine

open Sys2Proof

/-- Replace a position's record, and its QUEUE count. -/
def State.setLpos (s : State) (k : Nat) (x : LdlPos) : State :=
  ({ s with ldl := { s.ldl with pos := FMap.set (fun _ => {}) s.ldl.pos k x } }).setFld (R.LDL_POS_STATUS.QUEUE k)
    x.load

/-- An LDL_EVENTS bit that raises the LADLE alert (Table 15.13). -/
def State.ldlEvent (s : State) (f : Field) : State := s.event f 4

/-- The state of a position: 0 active, 1 replacing, 2 disabled. -/
def State.posState (s : State) (k : Nat) : Nat := s.fld (R.LDL_POS_STATUS.STATE k)

/-- Set a position's state and its POS_ACTIVE bit. -/
def State.setPosState (s : State) (k st : Nat) : State :=
  let a := s.fld R.LDL_STATUS.POS_ACTIVE
  (s.setFld (R.LDL_POS_STATUS.STATE k) st).setFld R.LDL_STATUS.POS_ACTIVE (putBits a k 1 (b2n (st == 0)))

/-- The positions that are active, ascending. -/
def State.active (s : State) : List Nat := (upFrom 0 16).filter fun k => bitOf (s.fld R.LDL_STATUS.POS_ACTIVE) k

/-- Whether a position runs a kernel that has work items left. -/
def State.kernelRuns (s : State) (k : Nat) : Bool :=
  match (s.lpos k).running with
  | some r => !r.finished
  | none => false

/-- Whether a cell of a physical array is retired. -/
def State.isRetired (s : State) (a c : Nat) : Bool := bitOf (s.fld (R.LDL_CELL_RETIRE.RETIRED a)) c

/-- Live cells of a physical array. -/
def State.liveCells (s : State) (a : Nat) : Nat := ((upFrom 0 64).filter fun c => !s.isRetired a c).length

/-! ## Replacement and disabling -/

/-- Kernels that end with NO_RESOURCE because their position is disabled (R196). -/
def State.noPosition (s : State) (l : List Kernel) : State :=
  { s with ldl := { s.ldl with ended := s.ldl.ended ++ l.map fun k => { k with status := sNORES, detail := 8 } } }

/-- The kernel stops with a status (R190). -/
def KernelRun.halt (r : KernelRun) (status detail : Nat) : KernelRun :=
  { r with k := { r.k with status := status, detail := detail }, finished := true }

/-- Disable a position (R196): its kernels end with NO_RESOURCE, its collective slots leave the pool. A kernel that runs there
ends so too, with the record of one that has run. -/
def State.disablePos (s : State) (k : Nat) : State :=
  if s.posState k = 2 then s
  else
    let x := s.lpos k
    let run := x.running.map fun r => if r.finished then r else r.halt sNORES 8
    let s := (s.setLpos k { x with queue := [], running := run }).noPosition x.queue
    let s := (s.setPosState k 2).setFld (R.LDL_POS_STATUS.CRES k) 0
    let s := { s with col := { s.col with
      entries := s.col.entries.map fun (e : Nat × ColEntry) => (e.1, { e.2 with held := e.2.held.filter (· != k) }) } }
    (s.ldlEvent R.LDL_EVENTS.POS_DISABLED).faultLog 0x0504 0 5 k k (s.fld (R.LDL_POS_STATUS.LIVE k))

/-- Start replacing a position's array by the spare (R195); with none left, or a replacement running, SPARE_NONE. -/
def State.startReplace (s : State) (k : Nat) : State :=
  if s.fld R.LDL_STATUS.SPARE_PHYS = 0x1F ∨ s.ldl.repl.isSome then s.ldlEvent R.LDL_EVENTS.SPARE_NONE
  else ({ s with ldl := { s.ldl with repl := some (k, s.tick) } }).setPosState k 1

/-- What follows from the number of live cells of the array at a position: replacement at THRESH (R195), SPARE_NONE once the
spare is in use, disabling below 32 live cells (R196). -/
def State.judgeCells (s : State) (k : Nat) : State :=
  let live := s.fld (R.LDL_POS_STATUS.LIVE k)
  let s := if 64 - live < s.fld R.LDL_SPARE_CTL.THRESH then s
    else if s.fld R.LDL_STATUS.SPARE_PHYS = 0x1F then s.ldlEvent R.LDL_EVENTS.SPARE_NONE
    else if s.flag R.LDL_SPARE_CTL.AUTO ∧ s.ldl.repl.isNone ∧ s.posState k = 0 then s.startReplace k
    else s
  if s.posState k = 0 ∧ live < 32 then s.disablePos k else s

/-- A write of THRESH or AUTO: an array that has reached THRESH while AUTO = 1 is replaced (R195), the lowest position first. -/
def State.judgeThresh (s : State) : State :=
  let due := (upFrom 0 16).find? fun k => s.posState k == 0
    && decide (s.fld R.LDL_SPARE_CTL.THRESH ≤ 64 - s.fld (R.LDL_POS_STATUS.LIVE k))
  match due with
  | some k =>
    if s.flag R.LDL_SPARE_CTL.AUTO ∧ s.fld R.LDL_STATUS.SPARE_PHYS ≠ 0x1F ∧ s.ldl.repl.isNone then s.startReplace k else s
  | none => s

/-- Retire a cell of a physical array (R194): its bit, the event, the record, the journal, and what follows. -/
def State.retireCell (s : State) (a c : Nat) : State :=
  if s.isRetired a c then s
  else
    let s := s.setFld ⟨R.LDL_CELL_RETIRE.adr a, c, 1⟩ 1
    let s := (s.ldlEvent R.LDL_EVENTS.CELL_RETIRED).faultLog 0x0502 0 5 a (64 * a + c) (s.liveCells a)
    let s := s.journal itRETIRE a (s.reg (R.LDL_CELL_RETIRE.adr a)).toNat
    match (upFrom 0 16).find? fun k => s.fld (R.LDL_POS_STATUS.PHYS k) == a && s.posState k != 2 with
    | some k => (s.setFld (R.LDL_POS_STATUS.LIVE k) (s.liveCells a)).judgeCells k
    | none => s

/-! ## Checks of a work item (R192 to R194) -/

/-- D of a check level: one item in D runs duplicated (R193); 0 at level 0. -/
def dupShare (level : Nat) : Nat :=
  if level = 0 then 0 else if level = 1 then 64 else if level = 2 then 16 else if level = 3 then 4 else 1

/-- How a work item ends: whether its result can be used, and the flags REPEATED (bit 3) and DUP (bit 4) of Table 8.9. -/
structure ItemEnd where
  usable : Bool
  flags : RFlags
  /-- cells to be retired before the array's next work item -/
  retire : List Nat := []
deriving DecidableEq, Repr

/-- The next live cell of an array after a cell, in ascending order and wrapping (R194). -/
def State.nextLive (s : State) (a c : Nat) : Option Nat :=
  ((upFrom 1 63).map fun i => (c + i) % 64).find? fun d => !s.isRetired a d

/-- Whether an array has a live cell other than two (R194). -/
def State.thirdLive (s : State) (a c d : Nat) : Bool := (upFrom 0 64).any fun x => x != c && x != d && !s.isRetired a x

/-- Retire the cells that a work item's checks have found bad, once the item has ended (R194, R196). -/
def State.retireCells (s : State) (a : Nat) (l : List Nat) : State := l.foldl (fun (s : State) c => s.retireCell a c) s

/-- A check failure of a work item (R192): event, record, count of the repetition. -/
def State.checkFailed (s : State) (k c key : Nat) : State :=
  ((s.ldlEvent R.LDL_EVENTS.CHECK_FAIL).faultLog 0x0501 0 5 (s.fld (R.LDL_POS_STATUS.PHYS k)) (64 * k + c) key).count
    R.LDL_COUNTS.REPEATS

/-- The checks of a work item on a live cell at position `k` at a check level (R192 to R194); `key` is the CRC of its key. The
runs of R194 are on the cell and the next live one, or on the two cells and a third live one; two good runs of three agree. -/
def State.checkItem (s : State) (k level : Nat) (run : ItemRun) (key : Nat) : State × ItemEnd :=
  let a := s.fld (R.LDL_POS_STATUS.PHYS k)
  let key := key % 2 ^ 32
  let dup := dupShare level != 0 && key % dupShare level == 0
  let dupFlag : RFlags := if dup then 16 else 0
  let failed := fun (s : State) (usable : Bool) => if usable then s else s.count R.LDL_COUNTS.FAILED
  match run.checks with
  | .passed => (s.tally 1808, { usable := true, flags := dupFlag })
  | .residue again next =>
    let usable := next && (s.nextLive a run.cell).isSome
    let s := (s.checkFailed k run.cell key).tally 1808 2
    (failed s usable, { usable := usable, flags := dupFlag ||| 8, retire := if again = .same then [run.cell.val] else [] })
  | .mismatch other again otherAgain third =>
    if !dup || other == run.cell || s.isRetired a other then (s.tally 1808, { usable := true, flags := dupFlag })
    else
      let agree := (([again, otherAgain] ++ (if s.thirdLive a run.cell other then [third] else [])).filter (· == .good)).length
      let usable := decide (2 ≤ agree)
      let s := (s.checkFailed k run.cell key).tally 1808 2
      (failed s usable, { usable := usable, flags := dupFlag ||| 8,
                          retire := (if again = .same then [run.cell.val] else []) ++ (if otherAgain = .same then [other.val] else []) })

/-- The outcome of an item's checks where the residues that it forms do not agree (R192). -/
def ItemRun.judged (run : ItemRun) (ok : Bool) : ItemRun :=
  if ok then run else match run.checks with
    | .passed => { run with checks := .residue .same false }
    | _ => run

/-- A cell's accumulators after a work item: the sums of its outputs, dealt to the eight in turn (DESIGN CHOICE, log entry 68). -/
def State.keepAccs (s : State) (a c : Nat) (l : List LAcc) : State :=
  let m := l.foldl (fun (r : FMap LAcc × Nat) x => (FMap.set (fun _ => {}) r.1 (512 * a + 8 * c + r.2 % 8) x, r.2 + 1)) (s.ldl.acc, 0)
  { s with ldl := { s.ldl with acc := m.1 } }

/-! ## Kernel descriptors (R188) -/

/-- Fields of a kernel descriptor (Tables 8.6 and 8.7). -/
def kdKind (d : Nat) : Nat := fieldAt d 0 1
def kdCompl (d : Nat) : Nat := fieldAt d 16 8
def kdA (d : Nat) : Nat := fieldAt d 32 8
def kdB (d : Nat) : Nat := fieldAt d 40 8
def kdX (d : Nat) : Nat := fieldAt d 48 8
def kdY (d : Nat) : Nat := fieldAt d 56 8
def kdAsc (d : Nat) : Nat := fieldAt d 64 8
def kdBsc (d : Nat) : Nat := fieldAt d 72 8
def kdDin (d : Nat) : Nat := 32 * getBits d 640 12
def kdDout (d : Nat) : Nat := 32 * getBits d 656 12
def kdRank (d : Nat) : Nat := 8 * fieldAt d 84 1
def kdNtok (d : Nat) : Nat := fieldAt d 85 1
def kdAfmt (d : Nat) : Nat := getBits d 688 4
def kdBfmt (d : Nat) : Nat := getBits d 692 4
def kdXfmt (d : Nat) : Nat := getBits d 696 4
def kdYfmt (d : Nat) : Nat := getBits d 700 4
def kdScale (d : Nat) : Nat := fieldAt d 88 4
def egT (d : Nat) : Nat := fieldAt d 32 8
def egIdx (d : Nat) : Nat := fieldAt d 40 8
def egOffs (d : Nat) : Nat := fieldAt d 48 8
def egWgt (d : Nat) : Nat := fieldAt d 56 8
def egY (d : Nat) : Nat := fieldAt d 64 8
def egTsc (d : Nat) : Nat := fieldAt d 72 8
def egNrows (d : Nat) : Nat := fieldAt d 80 4
def egRow (d : Nat) : Nat := 32 * getBits d 672 12
def egNbag (d : Nat) : Nat := fieldAt d 86 2
def egTfmt (d : Nat) : Nat := getBits d 704 4
def egYfmt (d : Nat) : Nat := getBits d 708 4
def egOp (d : Nat) : Nat := getBits d 712 2

/-- An operand's FVA is misaligned, or a scale FVA is 0 where the format is MX or not 0 where it is not. -/
def badScale (fmt sc : Nat) : Bool := if isMx fmt then sc == 0 || sc % 64 != 0 else sc != 0

/-- Whether a kernel descriptor fails R188. -/
def kernelBad (d : Nat) : Bool :=
  let head := decide (getBits d 11 5 ≠ 0) || decide (kdCompl d / 2 ^ 57 ≠ 0) || kdCompl d % 64 != 0
  if kdKind d = 1 then
    head || decide (getBits d 736 288 ≠ 0) || decide (getBits d 652 4 ≠ 0) || decide (getBits d 668 4 ≠ 0)
      || [kdA d, kdB d, kdX d, kdY d].any (fun a => a % 64 != 0)
      || decide (11 < kdAfmt d) || decide (11 < kdBfmt d) || decide (4 < kdXfmt d) || decide (4 < kdYfmt d)
      || badScale (kdAfmt d) (kdAsc d) || badScale (kdBfmt d) (kdBsc d)
      || kdDin d == 0 || decide (65536 < kdDin d) || kdDout d == 0 || decide (65536 < kdDout d)
      || kdRank d == 0 || decide (256 < kdRank d) || kdNtok d == 0 || decide (64 < kdNtok d)
  else if kdKind d = 2 then
    head || bitOf d 10 || decide (getBits d 720 304 ≠ 0) || decide (getBits d 684 4 ≠ 0) || decide (getBits d 714 6 ≠ 0)
      || [egT d, egIdx d, egOffs d, egWgt d, egY d].any (fun a => a % 64 != 0)
      || decide (11 < egTfmt d) || decide (4 < egYfmt d) || badScale (egTfmt d) (egTsc d)
      || egNrows d == 0 || decide (2 ^ 31 ≤ egNrows d) || egRow d == 0 || decide (65536 < egRow d)
      || egNbag d == 0 || egOp d == 3
  else true

/-- Queue a kernel (R182, R188): invalid, or with no eligible position, it ends at once; else it joins the shortest queue of
an eligible position with room, the lowest position on a tie. -/
def State.submitKernel (s : State) (k : Kernel) : State :=
  let ended := fun (s : State) (status detail : Nat) =>
    { s with ldl := { s.ldl with ended := s.ldl.ended ++ [{ k with status := status, detail := detail }] } }
  if kernelBad k.bytes.toNat then ended (s.raise R.LDL_EVENTS.REJECTED) sCHECK 1
  else
    let e := (s.eligible (partOf k.tag)).filter fun p => decide ((s.lpos p).load < 64)
    let best := e.foldl (fun (b : Option Nat) p => match b with
      | none => some p
      | some q => if (s.lpos p).load < (s.lpos q).load then some p else some q) none
    match best with
    | none => ended s sNORES 8
    | some p => s.setLpos p { s.lpos p with queue := (s.lpos p).queue ++ [k] }

/-! ## The end of a kernel (R189, R190) -/

/-- The completion record of a kernel (Table 8.9). `pos`, `start` and `last` are free values where the kernel has not run. -/
def Kernel.record (k : Kernel) (pos start last : Nat) (flags : RFlags) : Line :=
  let d := k.bytes.toNat
  recordLine (fieldAt d 4 4) (fieldAt d 2 2) 32
    (leBytes 1 k.status ++ leBytes 1 k.detail ++ leBytes 1 (pos % 16) ++ leBytes 1 flags.toNat ++ leBytes 4 0
      ++ leBytes 8 (fieldAt d 24 8) ++ leBytes 8 start ++ leBytes 8 last)

/-- The TYPE 0x02 record of an engine operation of a thread (Table 8.10, R218, R241). -/
def State.opXlateRecord (s : State) (f : EngFail) (t : Nat) (tag : BitVec 16) (pc : Nat) : State :=
  match f with
  | .fault f acc fva => s.xlateRecord f acc 0 t tag fva pc
  | _ => s

/-- Status and DETAIL of a failed access. -/
def EngFail.code : EngFail → Nat × Nat
  | .fault .. => (sXLATE, 4)
  | .status n => (n, engDetail n)
  | .check d => (sCHECK, d)

/-- Write a completion line of an engine operation, and wait for it; the status of the write where it fails (R189). -/
def Eng.complete (e : Eng) (fva : Nat) (l : Line) (t pc : Nat) : State × Option (Nat × Nat) :=
  if fva = 0 then (e.s, none)
  else
    let e := (e.write fva 0 64 l.toNat false).flush
    match e.fail with
    | none => (e.s, none)
    | some f => (e.s.opXlateRecord f t e.tag pc, some f.code)

/-- A kernel ends: its record, the consumption of poison (R349), the count, and the thread's operation (R242). -/
def State.endKernel (s : State) (k : Kernel) (hs : List HostAnswer) (pos start last : Nat) (flags : RFlags)
    (poison : Option (Nat × Nat)) : State :=
  let (s, w) := (s.eng k.tag hs k.op).complete (kdCompl k.bytes.toNat)
    (k.record pos start last flags) k.thread k.pc
  let s := s.count R.LDL_COUNTS.KERNELS
  let s := if k.status = sPOISON then
      s.consume (partOf k.tag) 2 k.tag.toNat (poison.getD (0, 0)).1 (poison.getD (0, 0)).2 s.feid 0
    else s
  match w with
  | none => s.closeOp k.thread k.op k.status k.detail
  | some (st, d) => s.closeOp k.thread k.op st d

end Sys2Proof.Machine
end

