-- ==== Sys2Proof/Machine/LineCode.lean ====
section
/-! DEFINITION. The line code of electrical lanes and lightlanes: control block layouts (R145), the packing of packets into data
blocks (R144), block format (R281), scrambler (R282), codewords (R283, R284), Gray coding (R286), transition markers (R287), and
the transmit FIFO with its reserve (R288, R289). A lane's transmitter works in block slots, one of which passes in each step on
an empty queue (log entry 66). -/

namespace Sys2Proof.Machine

open Sys2Proof

/-! ## Control blocks (R145, Tables 7.5 to 7.10) -/

/-- TYPE of a control block (Table 7.5). -/
def CtrlBlock.type : CtrlBlock → Nat
  | .credit .. => 1
  | .nak .. => 2
  | .time _ => 3
  | .ident _ => 4
  | .leave .. => 5
  | .idle => 6
  | .ei => 7
  | .replay _ => 8

/-- The fields of a control block beyond TYPE and CRC, with their lowest bits (Tables 7.6 to 7.10). -/
def CtrlBlock.fields : CtrlBlock → List (Nat × Nat)
  | .credit ack next freed => [(8, ack.toNat), (20, next.toNat), (32, freed.toNat)]
  | .nak expect reason => [(8, expect.toNat), (20, reason.toNat)]
  | .time b => [(8, b2n b.dir), (16, b.exch.toNat), (24, b.phase.toNat), (32, b.tick.toNat), (96, b.prevExch.toNat),
      (104, b2n b.prevValid), (112, b.prevPhase.toNat), (120, b.prevTick.toNat)]
  | .ident b => [(8, b.feid.toNat), (24, b.port.toNat), (32, b.lane.toNat), (36, b.comb.toNat), (48, b.plan.toNat),
      (56, b.tstate.toNat), (64, b.thops.toNat), (72, b.master.toNat), (88, b.serial.toNat)]
  | .leave feid reason tick => [(8, feid.toNat), (24, reason.toNat), (28, tick.toNat)]
  | .idle | .ei => []
  | .replay seq => [(8, seq.toNat)]

/-- The CRC-32C of bytes 0 to 27 of a block (R145). -/
def blockCrc (n : Nat) : Nat := (crc32c (leBytes 28 n)).toNat

/-- The 32 bytes of a control block: TYPE, fields, bits not named 0, and the CRC in bytes 28 to 31. -/
def CtrlBlock.bytes (b : CtrlBlock) : Nat :=
  let n := packBits ((0, b.type) :: b.fields)
  n + 2 ^ 224 * blockCrc n

/-- The block that a type and its bits spell, none where TYPE is reserved. -/
def ctrlOf (n : Nat) : Option CtrlBlock :=
  match n % 256 with
  | 1 => some (.credit (BitVec.ofNat 12 (getBits n 8 12)) (BitVec.ofNat 12 (getBits n 20 12)) (BitVec.ofNat 192 (getBits n 32 192)))
  | 2 => some (.nak (BitVec.ofNat 12 (getBits n 8 12)) (BitVec.ofNat 4 (getBits n 20 4)))
  | 3 =>
    let b : TimeBlock :=
      { dir := bitOf n 8, exch := BitVec.ofNat 8 (getBits n 16 8), phase := BitVec.ofNat 8 (getBits n 24 8),
        tick := BitVec.ofNat 64 (getBits n 32 64), prevExch := BitVec.ofNat 8 (getBits n 96 8), prevValid := bitOf n 104,
        prevPhase := BitVec.ofNat 8 (getBits n 112 8), prevTick := BitVec.ofNat 64 (getBits n 120 64) }
    some (.time b)
  | 4 =>
    let b : IdentBlock :=
      { feid := BitVec.ofNat 16 (getBits n 8 16), port := BitVec.ofNat 8 (getBits n 24 8),
        lane := BitVec.ofNat 4 (getBits n 32 4), comb := BitVec.ofNat 5 (getBits n 36 5), plan := BitVec.ofNat 8 (getBits n 48 8),
        tstate := BitVec.ofNat 3 (getBits n 56 3), thops := BitVec.ofNat 8 (getBits n 64 8),
        master := BitVec.ofNat 16 (getBits n 72 16), serial := BitVec.ofNat 64 (getBits n 88 64) }
    some (.ident b)
  | 5 => some (.leave (BitVec.ofNat 16 (getBits n 8 16)) (BitVec.ofNat 4 (getBits n 24 4)) (BitVec.ofNat 64 (getBits n 28 64)))
  | 6 => some .idle
  | 7 => some .ei
  | 8 => some (.replay (BitVec.ofNat 12 (getBits n 8 12)))
  | _ => none

/-- What a receiver reads from 32 received bytes: none where the CRC fails or TYPE is reserved (R145). -/
def ctrlDecode (b : BitVec 256) : Option CtrlBlock :=
  if b.toNat / 2 ^ 224 = blockCrc b.toNat then ctrlOf b.toNat else none

/-! ## Packets in data blocks (R144) -/

/-- The 4-byte words of a packet on a channel: header with HCRC, payload, trailer, the last inverted where it is stomped (R133 to
R135, R149). -/
def Packet.words (p : Packet) (stomp : Bool) : List (BitVec 32) :=
  let t := p.trailer
  let n := p.header + 2 ^ 176 * p.hcrc.toNat + 2 ^ 192 * (p.payload.toNat % 2 ^ (8 * payloadBytes p.op))
  (upFrom 0 (p.len / 4 - 1)).map (fun i => BitVec.ofNat 32 (getBits n (32 * i) 32)) ++ [if stomp then ~~~t else t]

/-- The pad word that fills a data block where no packet is ready. -/
def padWord : BitVec 32 := 0xFFFFFFFF

/-- Take the words at the head of a channel's stream, at most `n`, up to the next control block. -/
def takeWords : Nat → List LineItem → List (BitVec 32) × List LineItem
  | n + 1, .word w :: r => let x := takeWords n r; (w :: x.1, x.2)
  | _, r => ([], r)

/-- The next block of a channel's stream, and what remains of the stream: a control block, or a data block of the next 8 words,
padded where there are fewer; none where nothing is ready. -/
def nextBlock : List LineItem → Option (LineBlock × List LineItem)
  | [] => none
  | .ctrl b :: r => some (⟨true, BitVec.ofNat 256 b.bytes⟩, r)
  | items =>
    let x := takeWords 8 items
    let ws := x.1 ++ List.replicate (8 - x.1.length) padWord
    some (⟨false, BitVec.ofNat 256 (ws.foldr (fun w n => w.toNat + 2 ^ 32 * n) 0)⟩, x.2)

/-! ## Blocks and scrambler (R281, R282) -/

/-- The header of a block, first bit sent first: 01 data, 10 control. -/
def LineBlock.header (b : LineBlock) : List Bool := [b.control, !b.control]

/-- Whether a received header is valid: 00 and 11 are not. -/
def headerValid (a b : Bool) : Bool := a != b

/-- The payload bits in transmission order: ascending bytes, each least significant bit first. -/
def LineBlock.payload (b : LineBlock) : List Bool := (upFrom 0 256).map fun i => b.bits.getLsbD i

/-- The scrambler's next state: bit 0 is s[0], the most recent scrambled bit. -/
def scrNext (s : BitVec 58) (o : Bool) : BitVec 58 := (s <<< 1) ||| (BitVec.ofBool o).setWidth 58

/-- What the state adds to a payload bit: s[38] xor s[57]. -/
def scrTap (s : BitVec 58) : Bool := xor (s.getLsbD 38) (s.getLsbD 57)

/-- Scramble payload bits. -/
def scramble : BitVec 58 → List Bool → List Bool × BitVec 58
  | s, [] => ([], s)
  | s, d :: r =>
    let o := xor d (scrTap s)
    let x := scramble (scrNext s o) r
    (o :: x.1, x.2)

/-- Descramble received bits. -/
def descramble : BitVec 58 → List Bool → List Bool × BitVec 58
  | s, [] => ([], s)
  | s, o :: r =>
    let x := descramble (scrNext s o) r
    (xor o (scrTap s) :: x.1, x.2)

/-! ## Codewords and symbols (R283, R284, R286) -/

/-- Message bits of a codeword: 514 or 257 symbols of 10 bits. -/
def fecMessage (fec272 : Bool) : Nat := if fec272 then 2570 else 5140

/-- Bits of a codeword. -/
def fecCodeword (fec272 : Bool) : Nat := if fec272 then 2720 else 5440

/-- The parity bits of a message; the generator polynomials are IEEE 802.3's and are not in the spec. -/
def fecParity (fec272 : Bool) (msg : List Bool) : List Bool :=
  (upFrom 0 (fecCodeword fec272 - fecMessage fec272)).map fun i => bitOf (Config.rsParity fec272 msg) i

/-- Message bits enter the systematic encoder: the message `msg` so far, and the coded bits that leave it. -/
def fecEncode (fec272 : Bool) (msg bits : List Bool) : List Bool × List Bool :=
  let room := fecMessage fec272 - msg.length
  if bits.length < room then (msg ++ bits, bits)
  else (bits.drop room, bits.take room ++ fecParity fec272 (msg ++ bits.take room) ++ bits.drop room)

/-- The PAM4 level of two coded bits, the first the more significant: Gray coding. -/
def pam4 (a b : Bool) : Fin 4 := if a then (if b then 2 else 3) else (if b then 1 else 0)

/-- The two coded bits of a level. -/
def pam4Bits (v : Fin 4) : List Bool := [decide (2 ≤ v.val), decide (v.val = 1 ∨ v.val = 2)]

/-- Coded bits as symbols. -/
def pam4s : List Bool → List (Fin 4)
  | a :: b :: r => pam4 a b :: pam4s r
  | _ => []

/-! ## Transition markers (R287) -/

/-- The marker after a run of level `v`. -/
def marker (v : Fin 4) : List (Fin 4) := [3 - v, v]

/-- A symbol joins the run that a lane counts: whether 46 identical ones have passed, and the run afterwards. -/
def Run.add (x : Run) (v : Fin 4) : Bool × Run :=
  let n := if v = x.level then x.count + 1 else 1
  if n = 46 then (true, { level := v, count := 0 }) else (false, { level := v, count := n })

/-- Put at most `n` symbols of the FIFO on the line, with the markers that fall due. -/
def LaneCode.drain : Nat → LaneCode → LaneCode
  | 0, x => x
  | n + 1, x =>
    match x.mark with
    | m :: r => LaneCode.drain n { x with mark := r, line := x.line ++ [m] }
    | [] =>
      match x.fifo with
      | [] => x
      | v :: r =>
        let (due, run) := x.txRun.add v
        let x := { x with fifo := r, line := x.line ++ [v], txRun := run }
        LaneCode.drain n (if due then { x with mark := marker v, markers := x.markers + 1 } else x)

/-- A received symbol: a marker's two symbols are removed, the first one checked; any other gives its two coded bits. -/
def LaneCode.rxSymbol (x : LaneCode) (v : Fin 4) : LaneCode × List Bool :=
  if x.skip = 2 then ({ x with skip := 1, wrong := if v = 3 - x.rxRun.level then x.wrong else x.wrong + 1 }, [])
  else if x.skip = 1 then ({ x with skip := 0 }, [])
  else
    let (due, run) := x.rxRun.add v
    ({ x with rxRun := run, skip := if due then 2 else 0 }, pam4Bits v)

/-- A received coded bit: parity bits are left to the decoder, block headers do not enter the descrambler. -/
def LaneCode.rxBit (fec272 : Bool) (x : LaneCode) (b : Bool) : LaneCode :=
  let pos := (x.rxPos + 1) % fecCodeword fec272
  if fecMessage fec272 ≤ x.rxPos then { x with rxPos := pos }
  else
    let x := { x with rxPos := pos, rxBlock := (x.rxBlock + 1) % 258,
                      descr := if x.rxBlock < 2 then x.descr else scrNext x.descr b }
    x

/-- Symbols received on a lane go through its line code. -/
def LaneCode.receive (fec272 : Bool) (x : LaneCode) (vs : List (Fin 4)) : LaneCode :=
  vs.foldl (fun (x : LaneCode) v => let (x, bits) := x.rxSymbol v; bits.foldl (LaneCode.rxBit fec272) x) x

/-! ## The transmitter of a lane (R284, R288) -/

/-- Replace the first `n` symbols. -/
def replaceFirst (f : Fin 4 → Fin 4) (n : Nat) (vs : List (Fin 4)) : List (Fin 4) := (vs.take n).map f ++ vs.drop n

/-- The Gray neighbour of a level that flips its less significant bit. -/
def flipLow (v : Fin 4) : Fin 4 := if v.val % 2 = 0 then v + 1 else v - 1

/-- Injected errors meet the symbols that leave the encoder, the first of which is a block's header (R299). -/
def LaneCode.hurt (x : LaneCode) (vs : List (Fin 4)) : LaneCode × List (Fin 4) :=
  let vs := replaceFirst (fun v => v + 2) (min x.invert 1) vs
  let vs := replaceFirst (fun v => 3 - v) x.burst vs
  ({ x with invert := x.invert - 1, burst := x.burst - vs.length, flip := x.flip - vs.length }, replaceFirst flipLow x.flip vs)

/-- An injected error of a kind joins those to come (R299). -/
def LaneCode.corrupt (x : LaneCode) (kind len : Nat) : LaneCode :=
  if kind = 0 then { x with flip := x.flip + 1 }
  else if kind = 1 then { x with burst := x.burst + len }
  else { x with invert := x.invert + 1 }

/-- A block enters the encoder. -/
def LaneCode.put (fec272 : Bool) (x : LaneCode) (b : LineBlock) : LaneCode :=
  let (bits, scr) := scramble x.scr b.payload
  let (msg, coded) := fecEncode fec272 x.msg (b.header ++ bits)
  let (x, vs) := x.hurt (pam4s coded)
  { x with scr := scr, msg := msg, fifo := x.fifo ++ vs }

/-- An IDLE block. -/
def idleBlock : LineBlock := ⟨true, BitVec.ofNat 256 CtrlBlock.idle.bytes⟩

/-- The line of a block slot: 350,880 symbols to each 2,570 slots, the superframe of 129 codewords. -/
def LaneCode.slotLine (x : LaneCode) : LaneCode :=
  let due := x.due + 350880
  let x := LaneCode.drain (due / 2570) { x with line := [] }
  { x with due := due % 2570 }

/-- Whether the reserve of a lane is exhausted: from above 1,536 symbols until the FIFO falls below that. -/
def LaneCode.full (x : LaneCode) : Bool := decide (1536 < x.fifo.length) || (x.spent && decide (x.fifo.length = 1536))

/-- The end of training, or an exit from electrical idle: runs are counted anew (R287). -/
def LaneCode.resume (x : LaneCode) : LaneCode := { x with txRun := {}, rxRun := {}, mark := [], skip := 0 }

/-- The end of training: the first block starts at bit 0 of a codeword; the scramblers run on (R282, R284). -/
def LaneCode.start (x : LaneCode) : LaneCode := { scr := x.scr, descr := x.descr }

/-- The line code of a lane: a lightlane, or 256 + electrical lane. -/
def State.code (s : State) (k : Nat) : LaneCode := FMap.get (fun _ => {}) s.elk.codes k

/-- Replace a lane's line code. -/
def State.setCode (s : State) (k : Nat) (x : LaneCode) : State :=
  { s with elk := { s.elk with codes := FMap.set (fun _ => {}) s.elk.codes k x } }

/-- The stream of a channel. -/
def State.stream (s : State) (c : Nat) : LineStream := FMap.get (fun _ => {}) s.elk.streams c

/-- Replace a channel's stream. -/
def State.setStream (s : State) (c : Nat) (x : LineStream) : State :=
  { s with elk := { s.elk with streams := FMap.set (fun _ => {}) s.elk.streams c x } }

/-- The lanes of a channel, ascending: a lightlane is its own, a port has its active lanes (R270, R289). -/
def State.lanesOf (s : State) (c : Nat) : List Nat :=
  if c < 256 then [c]
  else ((upFrom 0 8).filter fun i => bitOf (s.fld (R.ELK_PORT_STATUS.ACTIVE (c - 256))) i).map fun i => 256 + 8 * (c - 256) + i

/-- Whether a lane runs RS(272,257): both ends of its port have FEC = 1 (R283); a lightlane never does (R270). -/
def State.fec272 (s : State) (k : Nat) : Bool := decide (256 ≤ k) && s.flag (R.ELK_PORT_STATUS.FEC ((k - 256) / 8))

/-- The period, in ticks, in which a lane takes at most 1,049 blocks (R288, R295). -/
def State.slotTicks (s : State) (k : Nat) : Nat :=
  if 256 ≤ k ∧ s.flag (R.ELK_PORT_STATUS.SKOIS ((k - 256) / 8)) then 16 else 8

/-- The lane counters follow what the line code has counted; a wrong marker and an exhausted reserve set events of the port's
lanes (R287, R288, R298). -/
def State.noteCode (s : State) (k : Nat) (x : LaneCode) (spent idle : Nat) : State :=
  let s := s.setCode k { x with markers := 0, wrong := 0 }
  if k < 256 then
    (((s.addFld (R.OPT_LANE_CNT.MARKERS k) x.markers).addFld (R.OPT_LANE_CNT.MARKER_ERR k) x.wrong).addFld
      (R.OPT_LANE_CNT.RESERVE_OVER k) spent).addFld (R.OPT_LANE_CNT.IDLE_INS k) idle
  else
    let l := k - 256
    let s := (((s.addFld (R.ELK_LANE_CNT.MARKERS l) x.markers).addFld (R.ELK_LANE_CNT.MARKER_ERR l) x.wrong).addFld
      (R.ELK_LANE_CNT.RESERVE_OVER l) spent).addFld (R.ELK_LANE_CNT.IDLE_INS l) idle
    let s := if x.wrong = 0 then s else s.linkEvent R.ELK_EVENTS.MARKER_ERR
    if spent = 0 then s else s.linkEvent R.ELK_EVENTS.RESERVE_OVER

/-- One block slot of lane `k` of channel `c`, whose turn in the deal is `mine` (R288, R289): the lane takes the next block of the
stream; with its reserve exhausted an IDLE block takes its place, and the slot is lost; with nothing to take and less than 512
symbols in its FIFO it adds an IDLE block. A lane that goes quiet completes its codeword with IDLE blocks and sends no more (R292).
Core cycles of a lost slot are free. -/
def State.laneSlot (s : State) (c k turn : Nat) : State :=
  let x := s.code k
  let fec := s.fec272 k
  let n := s.slotTicks k
  let x := if x.period = s.tick / n then x else { x with period := s.tick / n, taken := 0 }
  let st := s.stream c
  let lanes := (s.lanesOf c).length
  let spent := x.full
  let x := { x with spent := spent }
  if s.fld (R.SWC_CH_STATUS.STATE c) = 4 ∧ st.items = [] ∧ x.msg.length < 258 then s.noteCode k x.slotLine 0 0 else
  match nextBlock st.items with
  | some (b, rest) =>
    if st.turn % lanes = turn ∧ x.taken < 1049 then
      if spent then
        let (cycles, s) := s.fresh
        (s.count (R.SWC_CH_CNT.STALL_CREDIT c) cycles).noteCode k (({ x with taken := x.taken + 1 }.put fec idleBlock).slotLine) 1 0
      else
        (s.setStream c { items := rest, turn := (st.turn + 1) % lanes }).noteCode k
          (({ x with taken := x.taken + 1 }.put fec b).slotLine) 0 0
    else if x.fifo.length < 512 then s.noteCode k ((x.put fec idleBlock).slotLine) 0 1
    else s.noteCode k x.slotLine 0 0
  | none =>
    if x.fifo.length < 512 then s.noteCode k ((x.put fec idleBlock).slotLine) 0 1
    else s.noteCode k x.slotLine 0 0

/-- Whether a lightlane sends training frames or a test pattern, and no codewords (R270, R297). -/
def State.lineBusy (s : State) (c : Nat) : Bool :=
  decide (c < 256) && (decide (1 ≤ (s.lane c).train ∧ (s.lane c).train ≤ 4) || (s.generator c).isSome)

/-- Whether a channel's lanes run the codeword stream: it is TRAINING, with its lanes trained, UP, or going quiet (R270, R291,
R292). -/
def State.lineOn (s : State) (c : Nat) : Bool :=
  let st := s.fld (R.SWC_CH_STATUS.STATE c)
  (st == 1 || st == 2 || st == 4) && !s.lineBusy c

/-- One block slot on every lane of every channel that is on. -/
def State.lineSlot (s : State) : State :=
  (upFrom 0 262).foldl (fun s c =>
    if s.lineOn c then (s.lanesOf c).zipIdx.foldl (fun s e => s.laneSlot c e.1 e.2) s else s) s

/-- Inject an error into the symbol stream of a lane (R299). -/
def State.corrupt (s : State) (key kind len : Nat) : State :=
  (s.setCode key ((s.code key).corrupt kind len)).send (.inject key kind len)

/-- Something joins the stream of a channel. -/
def State.stack (s : State) (c : Nat) (l : List LineItem) : State :=
  s.setStream c { s.stream c with items := (s.stream c).items ++ l }

/-- Send a packet on a channel (R133, R144, R149). -/
def State.sendWords (s : State) (c : Nat) (p : Packet) (stomp : Bool) : State :=
  (s.stack c ((p.words stomp).map .word)).send (.packet c p stomp)

/-- The lanes of a channel start on codewords after training, with nothing in its stream. -/
def State.lineStart (s : State) (c : Nat) : State :=
  (s.lanesOf c).foldl (fun s k => s.setCode k (s.code k).start) (s.setStream c {})

/-- The lanes of a channel leave electrical idle. -/
def State.lineResume (s : State) (c : Nat) : State :=
  (s.lanesOf c).foldl (fun s k => s.setCode k (s.code k).resume) s

end Sys2Proof.Machine
end

