-- ==== Sys2Proof/Machine/Ident.lean ====
section
/-! DEFINITION. Port codes, light plans as stored, IDENT blocks (Table 7.9) and the map messages of Cruise C6 (R389, Table
16.13). -/

namespace Sys2Proof.Machine

open Sys2Proof

/-- The port code of a channel: 0-5 for E0-E5, 8-23 for OE0-OE15 (Table 2.6). -/
def portCode (c : Nat) : Nat := if c < 256 then 8 + c / 16 else c - 256

/-- Whether a port code has its TT_DISABLE bit set here (R38). -/
def State.ttOff (s : State) (port : Nat) : Bool :=
  if port < 8 then bitOf (s.fld R.GLB_TIME_CTL.TT_DISABLE_E) port else bitOf (s.fld R.GLB_TIME_CTL.TT_DISABLE_OE) (port - 8)

/-! ## Light plans (Tables 11.2 and 11.3) -/

/-- Word `i` of plan `p`: lane words 0-255, then the header. -/
def State.planWord (s : State) (p i : Nat) : Nat := (FMap.get (fun _ => 0) s.opt.plans (257 * p + i)).toNat

/-- Fields of a lane word (Table 11.2). -/
def lwTx (w : Nat) : Nat := getBits w 0 5
def lwEn (w : Nat) : Bool := bitOf w 5
def lwRx (w : Nat) : Nat := getBits w 6 5
def lwPeer (w : Nat) : Nat := getBits w 16 16
def lwPort (w : Nat) : Nat := getBits w 32 8
def lwLane (w : Nat) : Nat := getBits w 40 4

/-- The lane word of a channel in the plan in force, 0 while none is (R258). -/
def State.laneWord (s : State) (c : Nat) : Nat := if s.opt.force then s.planWord (s.fld R.OPT_PLAN_STATUS.CUR) c else 0

/-! ## IDENT -/

/-- The IDENT block that this module sends on a channel (Table 7.9, R38). -/
def State.identOf (s : State) (c : Nat) : IdentBlock :=
  let off := s.ttOff (portCode c)
  { feid := BitVec.ofNat 16 s.feid, port := BitVec.ofNat 8 (portCode c),
    lane := if c < 256 then BitVec.ofNat 4 (c % 16) else 0,
    comb := if c < 256 then BitVec.ofNat 5 (lwTx (s.laneWord c)) else 0,
    plan := if s.opt.force then BitVec.ofNat 8 (s.fld R.OPT_PLAN_STATUS.CUR) else 0xFF,
    tstate := BitVec.ofNat 3 (s.fld R.GLB_TIME_STATUS.STATE),
    thops := if off then 0xFF else BitVec.ofNat 8 (s.fld R.GLB_TIME_STATUS.HOPS),
    master := if off then 0xFFFF else BitVec.ofNat 16 s.tim.adv,
    serial := s.reg R.GLB_ID.adr }

/-- State of a channel (Table 7.25). -/
def State.chState (s : State) (c : Nat) : Nat := s.fld (R.SWC_CH_STATUS.STATE c)

def chDOWN : Nat := 0
def chTRAINING : Nat := 1
def chUP : Nat := 2
def chDARK : Nat := 3
def chIDLE : Nat := 4

/-- Whether a channel's line works: UP, or UP and quiet. -/
def State.chUp (s : State) (c : Nat) : Bool := s.chState c == chUP || s.chState c == chIDLE

/-- Send a control block on a channel. -/
def State.sendCtrl (s : State) (c : Nat) (b : CtrlBlock) : State := (s.stack c [.ctrl b]).send (.control c b)

/-- Send EI: the block goes on every active lane (R292). -/
def State.sendEi (s : State) (c : Nat) : State :=
  (s.stack c ((s.lanesOf c).map fun _ => .ctrl .ei)).send (.control c .ei)

/-- Send IDENT on a channel. -/
def State.sendIdent (s : State) (c : Nat) : State := s.sendCtrl c (.ident (s.identOf c))

/-- Send IDENT on every channel that is TRAINING, UP or IDLE (R388). -/
def State.sendIdents (s : State) : State :=
  (upFrom 0 262).foldl (fun s c => if s.chUp c || s.chState c == chTRAINING then s.sendIdent c else s) s

/-! ## The map (R389, R391) -/

/-- Serial comparison (R379): whether `a` is newer than `b`. -/
def newer (a b : Nat) : Bool := decide (1 ≤ (a + 2 ^ 32 - b) % 2 ^ 32 ∧ (a + 2 ^ 32 - b) % 2 ^ 32 < 2 ^ 31)

/-- The link list of a module in the map: peers and UP channels, over its fragments. -/
def State.mapLinks (s : State) (f : Nat) : List (Nat × Nat) :=
  match FMap.find s.cru.frags (4 * f) with
  | none => []
  | some a => (upFrom 0 a.nfrag).foldr (fun k r =>
      match FMap.find s.cru.frags (4 * f + k) with
      | some b => b.links ++ r
      | none => r) []

/-- Peers of a module over links with UP channels whose own messages are held. -/
def State.mapPeers (s : State) (f : Nat) : List Nat :=
  ((s.mapLinks f).filter fun e => decide (0 < e.2) && (FMap.find s.cru.frags (4 * e.1)).isSome).map (·.1)

/-- Breadth-first search of the map: the modules reached, with their distances. -/
def State.mapBfs (s : State) : Nat → Nat → List Nat → List (Nat × Nat) → List (Nat × Nat)
  | 0, _, _, seen => seen
  | fuel + 1, d, front, seen =>
    if front.isEmpty then seen
    else
      let (next, seen) := front.foldl (fun acc f =>
        (s.mapPeers f).foldl (fun acc g =>
          if acc.2.any (·.1 == g) then acc else (g :: acc.1, (g, d + 1) :: acc.2)) acc) (([] : List Nat), seen)
      s.mapBfs fuel (d + 1) next seen

/-- Distances from a module over the map. -/
def State.mapDist (s : State) (f : Nat) : List (Nat × Nat) := s.mapBfs 4097 0 [f] [(f, 0)]

/-- The modules of the map: those that this module reaches. -/
def State.mapModules (s : State) : List Nat := (s.mapDist s.feid).map (·.1)

/-- The map's diameter in hops. -/
def State.mapDiameter (s : State) : Nat := maxOf (s.mapModules.map fun f => maxOf ((s.mapDist f).map (·.2)))

/-- FABRIC_READY once READY has come from every module of the map (R391). -/
def State.judgeReady (s : State) : State :=
  if s.fld R.GLB_CRUISE_STATUS.PHASE = 8 ∧ s.mapModules.all fun f => (FMap.find s.cru.ready f).isSome then
    s.raise R.GLB_CRUISE_STATUS.FABRIC_READY
  else s

/-- The map has changed: the quiet period starts again, MODULES and DIAMETER follow, and after C8 MAP_CHANGED is set
(R389, R391). -/
def State.mapTouched (s : State) : State :=
  let s := { s with cru := { s.cru with changedAt := s.tick } }
  let s := s.setFld R.GLB_CRUISE_STATUS.MODULES (min 4096 s.mapModules.length)
  let s := s.setFld R.GLB_CRUISE_STATUS.DIAMETER (min 255 s.mapDiameter)
  if s.fld R.GLB_CRUISE_STATUS.PHASE = 8 then
    (({ s with cru := { s.cru with stale := true } }).raise R.GLB_CRUISE_STATUS.MAP_CHANGED).judgeReady
  else s

/-- Hold a fragment of a map message; a changed one changes the map. -/
def State.holdFrag (s : State) (f k : Nat) (m : MapFrag) : State :=
  let old := FMap.find s.cru.frags (4 * f + k)
  let s := { s with cru := { s.cru with frags := s.cru.frags.put (4 * f + k) m } }
  if old.map (fun o => (o.links, o.nfrag)) = some (m.links, m.nfrag) then s else s.mapTouched

/-- Send a broadcast on every UP channel of a link but `skip`, and never onto a far link (R389); HOPS is incremented on
departure. -/
def State.flood (s : State) (p : Packet) (point : Point) (skip : Option Nat) : State :=
  let p := { p with hops := p.hops + 1 }
  if s.left then s
  else (upFrom 0 262).foldl (fun s c =>
    if s.chUp c && s.flag (R.SWC_CH_STATUS.MEMBER c) && skip != some c && !s.onFar (.chan (Fin.ofNat 262 c)) then
      s.enqueue { pkt := p, point := point, link := 64 + c, tick := s.tick, hash := 0, dl0 := p.dl }
    else s) s

/-- A MGMT packet of this module (R277, R389). -/
def State.mgmtPacket (s : State) (dst payload : Nat) : Packet :=
  { dst := BitVec.ofNat 16 dst, src := BitVec.ofNat 16 s.feid, opcode := opcodeOf false opMGMT 0, vc := 7, sub := 5,
    payload := BitVec.ofNat 640 payload }

/-- The module's own links as its map message lists them. -/
def State.ownLinks (s : State) : List (Nat × Nat) :=
  (upFrom 0 32).foldr (fun l r =>
    if s.linkUsable l then (s.fld (R.SWC_LINK_CFG.PEER l), min 255 (s.fld (R.SWC_LINK_STATUS.CHANNELS l))) :: r else r) []

/-- Payload of fragment `k` of a map message (Table 16.13). -/
def mapPayload (k : Nat) (m : MapFrag) : Nat :=
  packBits ([(0, 1), (8, k), (16, m.nfrag), (24, m.links.length), (32, m.mseq), (64, m.master)]
    ++ (m.links.zip (upFrom 0 12)).map fun e => (128 + 32 * e.2, e.1.1 + e.1.2 * 2 ^ 16))

/-- Flood this module's map message, with MSEQ incremented; nothing before Cruise C6 (R389). -/
def State.floodMap (s : State) : State :=
  if s.fld R.GLB_CRUISE_STATUS.PHASE < 6 then s
  else
    let links := s.ownLinks
    let n := max 1 ((links.length + 11) / 12)
    let mseq := (s.cru.mseq + 1) % 2 ^ 32
    let s := { s with cru := { s.cru with mseq := mseq } }
    (upFrom 0 n).foldl (fun s k =>
      let m : MapFrag := { mseq := mseq, nfrag := n, master := s.tim.adv, links := (links.drop (12 * k)).take 12 }
      (s.holdFrag s.feid k m).flood (s.mgmtPacket 0xFFFF (mapPayload k m)) (.loc 0) none) s

end Sys2Proof.Machine
end

