-- ==== Sys2Proof/Machine/Links.lean ====
section
/-! DEFINITION. Shared operations on links and channels: link membership and usability (R142, R143, R153), holds (R82),
link-level retry (R146 to R149), credits (R160 to R163), arbitration (R159), and lost neighbours (R354, R355). -/

namespace Sys2Proof.Machine

open Sys2Proof

/-- Keep the part of a channel's state that a new start of the channel does not clear. -/
def Chan.restart (x : Chan) : Chan := { ident := x.ident, down := x.down }

/-- The link of a peer (R142). -/
def State.linkOf (s : State) (peer : Nat) : Option Nat :=
  (upFrom 0 32).find? fun l => s.flag (R.SWC_LINK_CFG.EN l) && s.fld (R.SWC_LINK_CFG.PEER l) == peer

/-- The UP channels of a link, ascending. -/
def State.linkChannels (s : State) (l : Nat) : List Nat :=
  (upFrom 0 262).filter fun c => s.chUp c && s.flag (R.SWC_CH_STATUS.MEMBER c) && s.fld (R.SWC_CH_STATUS.LINK c) == l

/-! ## Holds -/

/-- Hold the packets of VC0-VC6 to an FEID for PATH_TICKS ticks (R82). -/
def State.holdPath (s : State) (f : Nat) : State :=
  { s with swc := { s.swc with path := FMap.set (fun _ => 0) s.swc.path f (s.tick + s.fld R.SWC_WHISK_HOLD.PATH_TICKS) } }

/-- A link becomes usable: the destinations whose equal-cost set it joins are held (R82). -/
def State.holdForLink (s : State) (l : Nat) : State :=
  s.swc.routes.foldl (fun s e =>
    if (upFrom 0 3).any (fun k => slotEn e.2.toNat k && slotEcmp e.2.toNat k && slotLink e.2.toNat k == l) then s.holdPath e.1
    else s) s

/-- Choose a link again for a packet that already has one: its destination is resolved and its hop counted (R82, R155). -/
def State.rechoose (s : State) (q : QPkt) : State :=
  let f := q.pkt.dst.toNat
  match s.chooseLink f (s.route f) (fold8 (s.pathHash f q.pkt.line.toNat)) with
  | none => (((s.freePool q).count R.SWC_DISCARDS.ROUTE).colDropped q.pkt).refuse q sUNREACH
  | some (l, k) =>
    let d := slotDla (s.route f) k
    let dl : BitVec 2 := if d = 1 then 1 else if d = 2 then 0 else q.dl0
    s.enqueue { q with pkt := { q.pkt with dl := dl }, link := l }

/-- Take the packets that satisfy a predicate out of the link queues. -/
def State.unqueue (s : State) (p : QPkt → Bool) : List QPkt × State :=
  (s.swc.linkq.filter p, { s with swc := { s.swc with linkq := s.swc.linkq.filter fun q => !p q } })

/-- A link has lost its last channel: its packets take their new choice at once, with no hold (R82, R153). -/
def State.linkGone (s : State) (l : Nat) : State :=
  let (qs, s) := s.unqueue fun q => q.link == l
  let s := (upFrom 0 8).foldl (fun s v => s.noteDepth l v) s
  qs.foldl (fun s q => s.rechoose q) s

/-- Whether a light-plan switch gives a link a channel that has not joined it yet (R262). -/
def State.gaining (s : State) (l : Nat) : Bool :=
  match s.opt.sw with
  | none => false
  | some x => x.changed.any fun c =>
      let w := s.planWord x.plan c
      lwEn w && s.linkOf (lwPeer w) == some l
        && !(decide (2 ≤ x.stage) && s.flag (R.SWC_CH_STATUS.MEMBER c) && s.fld (R.OPT_LANE_STATUS.STATE c) == 4)

/-- Links that have all the channels that a switch gives them are granted packets again, and every link is 24 ticks after the switch
began (R262). -/
def State.settleGains (s : State) : State :=
  let late := match s.opt.sw with
    | some x => decide (x.tick + 24 ≤ s.tick)
    | none => true
  { s with swc := { s.swc with gains := s.swc.gains.filter fun l => !late && s.gaining l } }

/-- Bring SWC_LINK_STATUS up to date. A link that becomes usable holds the paths that change, a link that is lost moves
its packets; a change of the set of usable links floods the map (R82, R153, R389). -/
def State.refreshLinks (s : State) : State :=
  let s' := (upFrom 0 32).foldl (fun s l =>
    let cs := s.linkChannels l
    let was := s.linkUsable l
    let s := s.setFld (R.SWC_LINK_STATUS.CHANNELS l) cs.length
    let s := s.setFld (R.SWC_LINK_STATUS.USABLE l) (b2n (!cs.isEmpty))
    let drain := s.swc.gains.contains l || s.swc.chans.any fun e =>
      (e.2.leaving != 0 && s.flag (R.SWC_CH_STATUS.MEMBER e.1) && s.fld (R.SWC_CH_STATUS.LINK e.1) == l)
        || (e.2.joining && s.linkOf (s.fld (R.SWC_CH_STATUS.PEER e.1)) == some l)
    let s := s.setFld (R.SWC_LINK_STATUS.JOINING l) (b2n drain)
    if !was && !cs.isEmpty then s.holdForLink l
    else if was && cs.isEmpty then s.linkGone l else s) s
  let usable (x : State) := (upFrom 0 32).map x.linkUsable
  if usable s' = usable s then s' else s'.floodMap

/-! ## Channels going down and coming up -/

/-- Whether every channel to an FEID is down through an event of Table 15.6 or a LEAVE with REASON 1 to 3 (R354). -/
def State.allDown (s : State) (f : Nat) : Bool :=
  (upFrom 0 262).all fun c =>
    s.fld (R.SWC_CH_STATUS.PEER c) != f
      || (!s.chUp c && s.chState c != chDARK && (s.chan c).down != 0)

/-- A neighbour is lost (R354, R355); `cause` as fault code 0x0A04 has it. -/
def State.neighbourLost (s : State) (f cause : Nat) : State :=
  if f = 0xFFFF ∨ FMap.get (fun _ => false) s.swc.lost f ∨ ¬ s.allDown f then s
  else
    let s := { s with swc := { s.swc with lost := FMap.set (fun _ => false) s.swc.lost f true } }
    (s.event R.REL_EVENTS.PEER_LOST 7).faultLog 0x0A04 0 0 0 f cause

/-- The bytes of a channel's input pool stay with the packets that came on it; only the sender's account starts anew. -/
def State.dropPool (s : State) (c : Nat) : State :=
  let strip (q : QPkt) : QPkt := if q.point.code = c then { q with pool := false } else q
  { s with swc := { s.swc with linkq := s.swc.linkq.map strip, localq := s.swc.localq.map strip,
                               stalled := s.swc.stalled.map strip } }

/-- A channel goes DOWN: its replay buffer is discarded and counted in LOST, the packets queued for the link take its other
channels, and a fault record is written (R153); `cause` 1 to 5 may make the neighbour lost (R354). -/
def State.channelDown (s : State) (c cause : Nat) : State :=
  if s.chState c = chDOWN then s
  else
    let was := (s.reg (R.SWC_CH_STATUS.adr c)).toNat
    let x := s.chan c
    let n := x.replay.length
    let peer := s.fld (R.SWC_CH_STATUS.PEER c)
    let s := s.addFld (R.SWC_CH_CNT.LOST c) n
    let s := ((s.setChan c { x.restart with down := cause }).dropPool c).setStream c {}
    let s := (s.setFld (R.SWC_CH_STATUS.STATE c) chDOWN).setFld (R.SWC_CH_STATUS.MEMBER c) 0
    let s := s.setFld (R.SWC_CH_STATUS.UNACK c) 0
    let s := (s.linkEvent R.SWC_EVENTS.CHANNEL_DOWN).faultLog 0x0206 0 4 c was n
    let s := s.colReplayLost (x.replay.map (·.pkt))
    let s := s.refreshLinks
    (s.colLost s.memberLost).neighbourLost peer cause

/-! ## Lightlane states (Table 11.6) -/

/-- Lightlane states (Table 11.6). -/
def lsOFF : Nat := 0
def lsRETUNE : Nat := 1
def lsSWEEP : Nat := 2
def lsVERIFY : Nat := 3
def lsUP : Nat := 4
def lsFAILED : Nat := 5

/-- The state of a lightlane. -/
def State.laneState (s : State) (c : Nat) : Nat := s.fld (R.OPT_LANE_STATUS.STATE c)

/-- Replace a lightlane's record. -/
def State.setLane (s : State) (c : Nat) (x : OptLane) : State :=
  s.setOpt { s.opt with lanes := FMap.set (fun _ => {}) s.opt.lanes c x }

/-- Enter a lightlane state. -/
def State.enterLane (s : State) (c st : Nat) : State :=
  (s.setFld (R.OPT_LANE_STATUS.STATE c) st).setLane c { s.lane c with at_ := s.tick }

/-- Take a lightlane to FAILED (Table 11.6): its channel goes DOWN, and a fault record is written. -/
def State.laneFailed (s : State) (c cause : Nat) : State :=
  let s := if s.chState c = chDOWN then s else s.channelDown c 0
  let s := s.setLane c { s.lane c with sweepM := false, sweepD := false, train := 0 }
  let s := ((s.enterLane c lsFAILED).setFld (R.OPT_LANE_STATUS.CAUSE c) cause).optEvent R.OPT_EVENTS.LANE_FAILED
  s.faultLog 0x0402 0 4 c (s.reg (R.OPT_LANE_STATUS.adr c)).toNat 0

/-- Whether OPT_LANE_CMD FAIL waits for a lightlane's channel to leave its link. -/
def State.failing (s : State) (c : Nat) : Bool := decide (c < 256) && (s.chan c).leaving == 4

/-- A channel is DOWN for a reason that ends in training: DOWN, then TRAINING (R148, R151). A lightlane that was to fail on command
fails. -/
def State.channelTrain (s : State) (c cause : Nat) : State :=
  if s.failing c then s.laneFailed c 9 else (s.channelDown c cause).setFld (R.SWC_CH_STATUS.STATE c) chTRAINING

/-- A channel joins its link (R143). -/
def State.joinLink (s : State) (c : Nat) : State :=
  match s.linkOf (s.fld (R.SWC_CH_STATUS.PEER c)) with
  | none =>
    ((s.setChan c { s.chan c with joining := false }).setFld (R.SWC_CH_STATUS.MEMBER c) 0).refreshLinks
  | some l =>
    let s := s.setChan c { s.chan c with joining := false }
    ((s.setFld (R.SWC_CH_STATUS.MEMBER c) 1).setFld (R.SWC_CH_STATUS.LINK c) l).settleGains.refreshLinks

/-- Whether every channel of a link, a DARK one included, has UNACK = 0. -/
def State.drained (s : State) (l : Nat) : Bool :=
  (upFrom 0 262).all fun c =>
    !(s.flag (R.SWC_CH_STATUS.MEMBER c) && s.fld (R.SWC_CH_STATUS.LINK c) == l) || s.fld (R.SWC_CH_STATUS.UNACK c) == 0

/-- A channel comes UP: sequence numbers and credit counters at 0; it joins a link that is not usable at once, and drains a
usable one first (R143). -/
def State.channelUp (s : State) (c : Nat) : State :=
  let s := (s.setChan c { ident := (s.chan c).ident, lastCredit := s.tick, joining := true }).dropPool c
  let s := (s.setFld (R.SWC_CH_STATUS.TX_SEQ c) 0).setFld (R.SWC_CH_STATUS.RX_SEQ c) 0
  let s := (s.setFld (R.SWC_CH_STATUS.UNACK c) 0).setFld (R.SWC_CH_STATUS.STATE c) chUP
  match s.linkOf (s.fld (R.SWC_CH_STATUS.PEER c)) with
  | some l => if s.linkUsable l then s.refreshLinks else s.joinLink c
  | none => s.joinLink c

/-- An electrical port that is not in use: DOWN with no lane active. -/
def State.portOff (s : State) (m : Nat) : State :=
  (s.setFld (R.ELK_PORT_STATUS.STATE m) 0).setFld (R.ELK_PORT_STATUS.ACTIVE m) 0

/-- A channel that drains to leave its link leaves it (R143); by command alone, LEAVE with REASON 4 follows (R151). -/
def State.leaveLink (s : State) (c : Nat) : State :=
  let why := (s.chan c).leaving
  let s := (s.setChan c { s.chan c with leaving := 0 }).setFld (R.SWC_CH_STATUS.MEMBER c) 0
  let s := if why = 2 ∨ why = 4 then s.sendCtrl c (.leave (BitVec.ofNat 16 s.feid) 4 (BitVec.ofNat 64 s.tick)) else s
  let s := if why = 2 then s.channelDown c 0 else if why = 4 then s.laneFailed c 9 else s
  let s := if why = 2 ∧ 256 ≤ c ∧ ¬ s.flag (R.ELK_PORT_CTL.EN (c - 256)) then s.portOff (c - 256)
    else if why = 3 then s.setFld (R.SWC_CH_STATUS.STATE c) chTRAINING else s
  s.refreshLinks

/-- A channel begins to leave its link: the link gets no grants until it has drained (R143). -/
def State.beginLeave (s : State) (c why : Nat) : State :=
  if ¬ s.chUp c then s
  else
    let s := s.setChan c { s.chan c with leaving := why }
    if ¬ s.flag (R.SWC_CH_STATUS.MEMBER c) ∨ s.drained (s.fld (R.SWC_CH_STATUS.LINK c)) then s.leaveLink c
    else s.refreshLinks

/-- The channels of a drained link that wait to leave it do so. -/
def State.settleLeaves (s : State) (l : Nat) : State :=
  if ¬ s.drained l then s
  else (s.linkChannels l).foldl (fun s c => if (s.chan c).leaving = 0 then s else s.leaveLink c) s

/-! ## Retraining -/

/-- The training record of an electrical lane. -/
def State.elkLane (s : State) (l : Nat) : ElkLane := FMap.get (fun _ => {}) s.elk.lanes l

/-- Replace a training record. -/
def State.setElkLane (s : State) (l : Nat) (x : ElkLane) : State :=
  { s with elk := { s.elk with lanes := FMap.set (fun _ => {}) s.elk.lanes l x } }

/-- The record of an electrical port. -/
def State.elkPort (s : State) (m : Nat) : ElkPort := FMap.get (fun _ => {}) s.elk.ports m

/-- Replace a port's record. -/
def State.setElkPort (s : State) (m : Nat) (x : ElkPort) : State :=
  { s with elk := { s.elk with ports := FMap.set (fun _ => {}) s.elk.ports m x } }

/-- Whether a lane may take part in its port's training: enabled, and not in test (R291, R297). -/
def State.mayTrain (s : State) (l : Nat) : Bool :=
  bitOf (s.fld (R.ELK_PORT_CTL.LANE_EN (l / 8))) (l % 8) && !s.flag (R.ELK_LANE_CTL.TEST l)

/-- A lane begins a training stage (Table 12.2); `out`: its port trains without it. -/
def State.trainLane (s : State) (l stage : Nat) (out : Bool) : State :=
  (s.setElkLane l { stage := stage, since := s.tick, out := out }).setFld (R.ELK_LANE_STATUS.STATE l) 1

/-- A lane whose settings still hold: it is part of its port, or has completed stage 2 since (R294). -/
def State.holdsSettings (s : State) (l : Nat) : Bool :=
  bitOf (s.fld (R.ELK_PORT_STATUS.ACTIVE (l / 8))) (l % 8) || decide (3 ≤ (s.elkLane l).stage)

/-- Whether a lane keeps signal and lock (R294). -/
def State.keepsLock (s : State) (l : Nat) : Bool :=
  s.holdsSettings l && !s.flag (R.ELK_LANE_STATUS.LOS l)
    && !(bitOf (s.fld (R.ELK_PORT_STATUS.ACTIVE (l / 8))) (l % 8) && s.fld (R.ELK_LANE_STATUS.STATE l) == 2)

/-- A port retrains: its channel goes DOWN and is then TRAINING (R151); lanes that hold their settings start at stage 3, the
others at stage 1; with fewer than MIN_LANES that keep signal and lock, all start at stage 1 (R291, R294). -/
def State.portTrain (s : State) (m cause : Nat) (fromOne : Bool) : State :=
  let s := s.channelTrain (256 + m) cause
  let s := (s.setFld (R.ELK_PORT_STATUS.STATE m) 1).addFld (R.ELK_PORT_STATUS.RETRAINS m) 1
  let ls := (upFrom (8 * m) 8).filter s.mayTrain
  let held := (ls.filter s.keepsLock).length
  let one := fromOne || decide (held < s.fld (R.ELK_PORT_CTL.MIN_LANES m))
  let s := if one then s.setElkPort m { s.elkPort m with tryAt := s.tick, sentEi := false }
    else s.setElkPort m { s.elkPort m with sentEi := false }
  let s := if one && !fromOne then s.linkEvent R.ELK_EVENTS.PORT_DOWN else s
  let s := ls.foldl (fun s l =>
    if one then s.trainLane l 1 false
    else if s.holdsSettings l && !s.flag (R.ELK_LANE_STATUS.LOS l) then s.trainLane l 3 false
    else s.trainLane l 1 true) s
  s.setFld (R.ELK_PORT_STATUS.ACTIVE m) 0

/-- A channel retrains: an electrical port from stage 3, a lightlane in its place (R148, R163). -/
def State.retrain (s : State) (c cause : Nat) : State :=
  if c < 256 then (s.channelTrain c cause).sendIdent c else s.portTrain (c - 256) cause false

/-! ## Link-level retry -/

/-- Send a NAK: all data is discarded until a suitable REPLAY (R147). -/
def State.sendNak (s : State) (c reason : Nat) : State :=
  let s := s.setChan c { s.chan c with nak := some (s.tick, reason), dups := 0 }
  let s := s.addFld (R.SWC_CH_CNT.NAK_TX c) 1
  s.sendCtrl c (.nak (BitVec.ofNat 12 (s.fld (R.SWC_CH_STATUS.RX_SEQ c))) (BitVec.ofNat 4 reason))

/-- The sequence number of the oldest unacknowledged packet. -/
def State.oldest (s : State) (c : Nat) : Nat :=
  (s.fld (R.SWC_CH_STATUS.TX_SEQ c) + 4096 - (s.chan c).replay.length % 4096) % 4096

/-- Start a replay with the packet `i` places after the oldest unacknowledged one (R148). -/
def State.startReplay (s : State) (c i : Nat) : State :=
  let seq := (s.oldest c + i) % 4096
  let x := s.chan c
  (s.setChan c { x with resend := x.replay.drop i }).sendCtrl c (.replay (BitVec.ofNat 12 seq))

/-- Accept the acknowledgement of every packet before `ack` (R146); one outside the window acknowledges nothing. A replay in
progress goes on from the SEQ that it announced, since the receiver counts the packets after that (R147, R148). -/
def State.acknowledge (s : State) (c ack : Nat) : State :=
  let x := s.chan c
  let n := (ack + 4096 - s.oldest c) % 4096
  if x.replay.length < n then s
  else
    let r := x.replay.drop n
    (s.setChan c { x with replay := r }).setFld (R.SWC_CH_STATUS.UNACK c) r.length

/-! ## Credits -/

/-- 0 for a lightlane, 1 for an electrical port. -/
def chKind (c : Nat) : Nat := if c < 256 then 0 else 1

/-- Bytes of an input pool, and of a replay buffer, by the channel's kind (R146, R160). -/
def poolBytes (c : Nat) : Nat := if c < 256 then 49152 else 98304

/-- Whether an electrical port runs in Skois mode. -/
def State.skois (s : State) (c : Nat) : Bool := decide (256 ≤ c) && s.flag (R.ELK_PORT_STATUS.SKOIS (c - 256))

/-- The peer's pool, in bytes (R160, R296). -/
def State.peerPool (s : State) (c : Nat) : Nat :=
  if s.skois c then 32 * s.fld (R.ELK_SKOIS_CTL.PEER_POOL (c - 256)) else poolBytes c

/-- Minimum of a class, in bytes (R161, R296). -/
def State.classMin (s : State) (c k : Nat) : Nat :=
  if s.skois c then 128 else 32 * s.fld (R.SWC_CREDIT_MIN.MIN (chKind c) (k / 2))

/-- Maximum of a class, in bytes (R161, R296, Table 7.19). -/
def State.classMax (s : State) (c k : Nat) : Nat :=
  if s.skois c then s.peerPool c else min (s.peerPool c) (512 * s.fld (R.SWC_CREDIT_MAX.MAX (chKind c) (k / 2)))

/-- Bytes sent in a class and not known freed. -/
def Chan.usedOf (x : Chan) (k : Nat) : Nat := FMap.get (fun _ => 0) x.used k

/-- The credit class of a packet (R160). -/
def Packet.cls (p : Packet) : Nat := 2 * p.vc.toNat + p.dl.toNat % 2

/-- Whether the credit rule of R161 lets the channel send a packet. -/
def State.hasCredit (s : State) (c : Nat) (p : Packet) : Bool :=
  let x := s.chan c
  let k := p.cls
  let now := x.usedOf k + p.len
  let others := ((upFrom 0 16).filter (· != k)).foldl (fun n d => n + max (s.classMin c d) (x.usedOf d)) 0
  decide (now ≤ s.classMax c k) && decide (others + max (s.classMin c k) now ≤ s.peerPool c)

/-- Take the FREED counts of a CREDIT block: class k in bits [12k+11:12k] (R162). -/
def State.takeFreed (s : State) (c : Nat) (freed : BitVec 192) : State :=
  (upFrom 0 16).foldl (fun s k =>
    let x := s.chan c
    let v := getBits freed.toNat (12 * k) 12
    let d := (v + 4096 - FMap.get (fun _ => 0) x.freedSeen k) % 4096
    s.setChan c { x with used := FMap.set (fun _ => 0) x.used k (x.usedOf k - 32 * d),
                         freedSeen := FMap.set (fun _ => 0) x.freedSeen k v }) s

/-- The CREDIT block that a channel sends (R150, R162). -/
def State.creditBlock (s : State) (c : Nat) : CtrlBlock :=
  let x := s.chan c
  .credit (BitVec.ofNat 12 (s.fld (R.SWC_CH_STATUS.RX_SEQ c))) (BitVec.ofNat 12 (s.fld (R.SWC_CH_STATUS.TX_SEQ c)))
    (BitVec.ofNat 192 (packBits ((upFrom 0 16).map fun k => (12 * k, FMap.get (fun _ => 0) x.freedRx k / 32 % 4096))))

/-! ## The boundary's credit batch and heartbeat (R45, R150) -/

/-- Whether a channel sends its CREDIT block at a boundary: UP, and not on its way into electrical idle (R150, R292). -/
def State.beats (s : State) (c : Nat) : Bool :=
  s.chState c == chUP && !(decide (256 ≤ c) && !s.skois c && (s.elkPort (c - 256)).sentEi)

/-- Steps 5 and 6: the contents of a channel's CREDIT block are fixed, and it is sent (R150). -/
def State.heartbeat (s : State) (c : Nat) : State :=
  match s.creditBlock c with
  | .credit ack next freed =>
    let s := s.setChan c { s.chan c with toldAck := ack, toldFreed := freed }
    s.sendCtrl c (.credit ack next freed)
  | _ => s

/-- A channel's VC7 bucket gains RATE bytes, up to BURST (R159). -/
def State.refill (s : State) (c : Nat) : State :=
  let x := s.chan c
  s.setChan c { x with tokens := min (s.fld R.SWC_VC7_RATE.BURST) (x.tokens + s.fld R.SWC_VC7_RATE.RATE) }

/-- Thousandths of a channel's rate that a shed level leaves to VC0-VC6; none where it sets no limit (Table 16.3). -/
def egressShare : Nat → Option Nat
  | 4 => some 750
  | 5 => some 500
  | 6 => some 250
  | 7 => some 125
  | _ => none

/-- The egress limit in effect. -/
def State.egressLimit (s : State) : Option Nat := egressShare (s.fld R.GLB_POWER_STATUS.LEVEL)

/-- A channel's bucket for VC0-VC6 is filled with the share of the bytes that its lanes carry in one tick, 4,196 each (R366, Table
12.1); it holds no more (DESIGN CHOICE, log entry 60). -/
def State.fillEgress (s : State) (c : Nat) : State :=
  match s.egressLimit with
  | none => s
  | some n => s.setChan c { s.chan c with egress := 4196 * (s.lanesOf c).length * n / 1000 }

/-- Whether the shed level lets a packet of VC0-VC6 out on a channel. -/
def State.egressOk (s : State) (c : Nat) (q : QPkt) : Bool :=
  s.egressLimit.isNone || decide (q.pkt.len ≤ (s.chan c).egress)

/-- The channels' part of a boundary. -/
def State.linkTick (s : State) : State :=
  (upFrom 0 262).foldl (fun (s : State) c =>
    let s := if s.beats c then s.heartbeat c else s
    if s.chUp c then (s.refill c).fillEgress c else s) s

/-- Whether a light-plan switch or an agreed step of a collective, steps 3 and 4 of Table 2.4, is due and has not started. -/
def State.stepsDue (s : State) : Bool :=
  (match s.opt.sw with
    | some x => x.stage == 0 && decide (x.tick ≤ s.tick) && !(s.opt.force && s.fld R.OPT_PLAN_STATUS.CUR == x.plan)
    | none => false)
  || s.col.entries.any fun e => e.2.abort.isNone && !e.2.asked && (match e.2.agreed with
    | some (m, _) => decide (m + s.fld R.COL_CTL.LEAD_PLAN ≤ s.tick)
    | none => false)

/-- The end of a step that the credit batch of this boundary waits for: once none is left, the batch and the heartbeat follow
(R45). -/
def State.settleCredits (s : State) : State :=
  if s.tim.credits ∧ ¬ s.stepsDue then ({ s with tim := { s.tim with credits := false } }).linkTick else s

/-! ## Arbitration (R159) -/

/-- Whether a queued packet is for a channel, which is in a link: flooded to it, or for its link with the channel that R142
chooses. -/
def State.isFor (s : State) (c : Nat) (q : QPkt) : Bool :=
  s.flag (R.SWC_CH_STATUS.MEMBER c)
    && (q.link == 64 + c
        || (q.link == s.fld (R.SWC_CH_STATUS.LINK c)
            && (let cs := s.linkChannels q.link
                cs[(q.hash / 256) % cs.length]? == some c)))

/-- The oldest packet of each input. -/
def inputHeads (qs : List QPkt) : List QPkt :=
  qs.foldl (fun (hs : List QPkt) q => if hs.any (fun h => h.point == q.point) then hs else hs ++ [q]) []

/-- The head of one VC and subclass: of the oldest packets of its inputs, those that may go take part, in round robin after the
input served last. -/
def headOf (x : Chan) (ok : QPkt → Bool) (qs : List QPkt) (k : Nat) : Option QPkt :=
  let heads := (inputHeads (qs.filter fun q => q.pkt.cls == k)).filter ok
  let last := FMap.get (fun _ => 0) x.lastIn k
  let turn (q : QPkt) := (q.point.code + 1024 - last) % 1024
  heads.foldl (fun best q => match best with
    | none => some q
    | some b => if turn q < turn b then some q else some b) none

/-- Whether a channel may send a packet: its class has credit (R161), and the replay buffer has room (R146). -/
def State.maySend (s : State) (c : Nat) (q : QPkt) : Bool :=
  s.hasCredit c q.pkt && decide ((s.chan c).replay.foldl (fun n q => n + q.pkt.len) 0 + q.pkt.len ≤ poolBytes c)

/-- The head of a VC: the older head of its two subclasses. -/
def State.vcHead (s : State) (c : Nat) (qs : List QPkt) (v : Nat) : Option QPkt :=
  match headOf (s.chan c) (s.maySend c) qs (2 * v), headOf (s.chan c) (s.maySend c) qs (2 * v + 1) with
  | none, h => h
  | h, none => h
  | some a, some b =>
    if qs.findIdx (· == b) < qs.findIdx (· == a) then some b else some a

/-- Deficit round robin over VC0-VC6: the packet to send, and the channel's state afterwards. A VC with nothing to send
loses its deficit. -/
def drr (weight : Nat → Nat) (heads : Nat → Option QPkt) : Nat → Chan → Option (QPkt × Chan)
  | 0, _ => none
  | fuel + 1, x =>
    let v := x.turn % 7
    let step (x : Chan) := { x with turn := (v + 1) % 7, visit := false }
    match heads v with
    | none => drr weight heads fuel (step { x with deficit := FMap.set (fun _ => 0) x.deficit v 0 })
    | some q =>
      if weight v = 0 then drr weight heads fuel (step x)
      else
        let d := FMap.get (fun _ => 0) x.deficit v + (if x.visit then 0 else 64 * weight v)
        let x := { x with deficit := FMap.set (fun _ => 0) x.deficit v d, visit := true }
        if q.pkt.len ≤ d then
          some (q, { x with deficit := FMap.set (fun _ => 0) x.deficit v (d - q.pkt.len) })
        else drr weight heads fuel (step x)

/-- The packet that a channel sends next, with the channel's arbitration state (R159), where the shed level lets it out (R366).
Which VC of weight 0 goes first is free. -/
def State.arbitrate (s : State) (c : Nat) (qs : List QPkt) : Option (QPkt × Chan) × State :=
  let x := s.chan c
  let v7 := (s.vcHead c qs 7).filter fun q => decide (q.pkt.len ≤ x.tokens)
  match v7 with
  | some q => (some (q, { x with tokens := x.tokens - q.pkt.len }), s)
  | none =>
    let l := s.fld (R.SWC_CH_STATUS.LINK c)
    let heads := fun v => (s.vcHead c qs v).filter fun q => s.egressOk c q
    match drr (fun v => s.fld (R.SWC_LINK_ARB.WEIGHT l v)) heads 32 x with
    | some r => (some r, s)
    | none =>
      let (n, s) := s.fresh
      let vs := (upFrom 0 7).filter fun v => (heads v).isSome
      (((vs[n % (max 1 vs.length)]?).bind heads).map fun q => (q, x), s)

/-! ## Sending -/

/-- A core-cycle count that a wait for credit adds: how long the wait lasted is not for the model to say, so it is free. -/
def State.stall (s : State) (c : Nat) (qs : List QPkt) : State :=
  if qs.isEmpty then s
  else
    let (n, s) := s.fresh
    let s := s.count (R.SWC_CH_CNT.STALL_CREDIT c) n
    if ¬ s.flag (R.SWC_CH_STATUS.MEMBER c) then s
    else
      let l := s.fld (R.SWC_CH_STATUS.LINK c)
      (upFrom 0 8).foldl (fun s v =>
        if qs.any (fun q => q.pkt.vc.toNat == v) && (s.linkChannels l).all (fun d => (s.vcHead d qs v).isNone) then
          s.count (R.SWC_LINK_STALL.STALL l v) n
        else s) s

/-- Put a packet on a channel for the first time: the next sequence number, the replay buffer, the credit account, the
counters, the trace (R146, R161, R397). -/
def State.transmit (s : State) (c : Nat) (q : QPkt) (x : Chan) : State :=
  let k := q.pkt.cls
  let x := { x with replay := x.replay ++ [q], used := FMap.set (fun _ => 0) x.used k (x.usedOf k + q.pkt.len),
                    lastIn := FMap.set (fun _ => 0) x.lastIn k (q.point.code + 1),
                    egress := if q.pkt.vc = 7 then x.egress else x.egress - q.pkt.len }
  let s := (s.setChan c x).setFld (R.SWC_CH_STATUS.UNACK c) x.replay.length
  let s := (s.addFld (R.SWC_CH_STATUS.TX_SEQ c) 1).addFld (R.SWC_CH_CNT.TX_PKTS c) 1
  let s := s.count (R.SWC_CH_CNT.TX_BYTES c) q.pkt.len
  let s := { s with swc := { s.swc with linkq := s.swc.linkq.erase q } }
  let s := if q.link < 32 then s.noteDepth q.link q.pkt.vc.toNat else s
  let s := if c < 256 then s else s.setElkPort (c - 256) { s.elkPort (c - 256) with busyAt := s.tick }
  ((s.freePool q).capture c 1 q.pkt q.isSealed).sendWords c q.pkt q.stomp

end Sys2Proof.Machine
end

