-- ==== Sys2Proof/Machine/Time.lean ====
section
/-! DEFINITION. References, time transfer, time states and the election (chapter 2, R388). -/

namespace Sys2Proof.Machine

open Sys2Proof

/-- Time states (Table 2.3). -/
def tsUNALIGNED : Nat := 0
def tsACQUIRING : Nat := 1
def tsLOCKED : Nat := 2
def tsHOLDOVER : Nat := 3
def tsLOST : Nat := 4

/-- The time state. -/
def State.timeState (s : State) : Nat := s.fld R.GLB_TIME_STATUS.STATE

/-- Replace the time record. -/
def State.setTim (s : State) (x : TimeState) : State := { s with tim := x }

/-- Whether a reference is valid. -/
def State.refValid (s : State) : Bool := s.flag R.GLB_TIME_STATUS.REFA_OK || s.flag R.GLB_TIME_STATUS.REFB_OK

/-- Whether this module is a candidate of the election (R388, step 1). -/
def State.candidate (s : State) : Bool := s.refValid && s.flag R.GLB_TIME_CTL.MASTER_EN

/-- A transition to take effect at the next boundary, with the GLB_TIME_EVENTS bits that it sets (R42). -/
def State.timeNext (s : State) (st events : Nat) : State := s.setTim { s.tim with next := some (st, events) }

/-- Whether an IDENT says that its sender excludes the link from the time tree (R38): a LOCKED module always knows its hops
and its master. -/
def excludes (b : IdentBlock) : Bool := b.thops == 0xFF && b.master == 0xFFFF && b.tstate.toNat == tsLOCKED

/-- The neighbours in the time tree: channels UP with an IDENT, over links that neither end excludes (R38). -/
def State.neighbours (s : State) : List (Nat × IdentBlock) :=
  s.swc.chans.foldr (fun e r => match e.2.ident with
    | some b => if s.chUp e.1 && !s.ttOff (portCode e.1) && !excludes b then (e.1, b) :: r else r
    | none => r) []

/-- The time parent's IDENT. -/
def State.parentIdent (s : State) : Option IdentBlock :=
  (s.neighbours.find? fun e => portCode e.1 == s.fld R.GLB_TIME_STATUS.PARENT_LINK
      && e.2.feid.toNat == s.fld R.GLB_TIME_STATUS.PARENT_FEID).map (·.2)

/-- Whether the time parent is LOCKED. -/
def State.parentLocked (s : State) : Bool :=
  match s.parentIdent with
  | some b => b.tstate.toNat == tsLOCKED
  | none => false

/-- HOLDOVER with no LOCKED parent runs from this tick on; a LOCKED parent ends that (R43). -/
def State.noteAlone (s : State) : State :=
  if s.timeState ≠ tsHOLDOVER ∨ s.parentLocked then s.setTim { s.tim with alone := none }
  else s.setTim { s.tim with alone := some (s.tim.alone.getD s.tick) }

/-! ## Election (R388) -/

/-- Whether a master that a neighbour advertises may be taken: not this module's own FEID come back to it, where it is no
candidate, and not a neighbour that itself names another (R43: a master that has given up mastership; log entry 15). -/
def State.credible (s : State) (m : BitVec 16) : Bool :=
  m != 0xFFFF && (m.toNat != s.feid || s.candidate) && !(s.neighbours.any fun e => e.2.feid == m && e.2.master != m)

/-- The value to advertise: an established master, else the lowest candidate known (R388, steps 2 and 3); where a module that
was LOCKED has lost its master, steps 1 and 2 alone. -/
def State.advNow (s : State) : Nat :=
  let known := s.neighbours.filter fun e => s.credible e.2.master
  let locked := (known.filter fun e => e.2.tstate.toNat == tsLOCKED).map (·.2.master.toNat)
  let heard := known.map (·.2.master.toNat)
  let own := if s.candidate then [s.feid] else []
  let lost := s.timeState == tsLOCKED || s.timeState == tsHOLDOVER
  let parent := (s.parentIdent.filter fun b => b.tstate.toNat == tsLOCKED && s.credible b.master).map (·.master.toNat)
  if s.flag R.GLB_TIME_STATUS.MASTER then s.feid
  else match parent with
    | some m => m
    | none =>
      match (if lost then [] else locked) with
      | a :: r => r.foldl min a
      | [] => (own ++ heard).foldl min 0xFFFF

/-- Bring the advertised value up to date: a change restarts the wait of step 4, after which a new master has been found or
the time parent is chosen again, and resends IDENT (R43, R388). -/
def State.refreshAdv (s : State) : State :=
  let a := s.advNow
  if a = s.tim.adv then s
  else (s.setTim { s.tim with adv := a, advSince := s.tick, electing := true }).sendIdents

/-- The neighbour to choose as time parent: fewest hops, then lowest FEID (R37). -/
def State.bestParent (s : State) : Option (Nat × IdentBlock) :=
  (s.neighbours.filter fun e => e.2.thops != 0xFF).foldl (fun best e => match best with
    | none => some e
    | some b =>
      if e.2.thops.toNat < b.2.thops.toNat ∨ (e.2.thops = b.2.thops ∧ e.2.feid.toNat < b.2.feid.toNat) then some e
      else some b) none

/-- Choose the time parent (R37). A new parent sets PARENT_CHANGE; its offsets start anew. -/
def State.chooseParent (s : State) : State :=
  match s.bestParent with
  | none => s
  | some (c, b) =>
    let new := s.fld R.GLB_TIME_STATUS.PARENT_FEID != b.feid.toNat
    let s := (s.setFld R.GLB_TIME_STATUS.PARENT_FEID b.feid.toNat).setFld R.GLB_TIME_STATUS.PARENT_LINK (portCode c)
    let s := (s.setFld R.GLB_TIME_STATUS.HOPS (min 0xFF (b.thops.toNat + 1))).setFld R.GLB_TIME_STATUS.MASTER 0
    if new then (s.setTim { s.tim with good := 0 }).timeEvents 128 else s

/-- Enter ACQUIRING at the next boundary, with its single step (R42, R388). -/
def State.acquire (s : State) : State := (s.setTim { s.tim with mayStep := true, good := 0 }).timeNext tsACQUIRING 0

/-- What LOST leads to where a reference is valid and a LOCKED parent available, or this module is a candidate (Table 2.3). -/
def State.leaveLost (s : State) : State :=
  if s.timeState ≠ tsLOST then s
  else if s.refValid && s.neighbours.any (fun e => e.2.tstate.toNat == tsLOCKED && e.2.thops != 0xFF) then s.chooseParent.acquire
  else if s.candidate then (s.setTim { s.tim with electing := true }).acquire
  else s

/-- Become tick master: LOCKED, no parent, no hops (R388). -/
def State.becomeMaster (s : State) : State :=
  let s := (s.setFld R.GLB_TIME_STATUS.MASTER 1).setFld R.GLB_TIME_STATUS.PARENT_FEID 0xFFFF
  let s := (s.setFld R.GLB_TIME_STATUS.PARENT_LINK 0xFF).setFld R.GLB_TIME_STATUS.HOPS 0
  (s.setFld R.GLB_TIME_STATUS.OFFSET 0).timeNext tsLOCKED 0

/-- An election that finds no candidate: LOST, with NO_MASTER. HOLDOVER lasts as long as R43 gives it (log entry 15). -/
def State.noMaster (s : State) : State :=
  if s.timeState = tsHOLDOVER ∨ s.timeState = tsLOST then s.timeEvents 256 else s.timeNext tsLOST (2 ^ 4 + 2 ^ 8)

/-- ELECTION_SETTLE (R43, R388 step 4): the advertised value has been unchanged for 2^16 ticks. LOCKED and HOLDOVER stay as
they are while the time parent is chosen again (Table 2.3). -/
def execElectionSettle (s : State) : Result :=
  .next (
    if ¬ s.tim.electing ∨ s.tick < s.tim.advSince + 2 ^ 16 then s
    else
      let s := s.setTim { s.tim with electing := false }
      if s.tim.adv = 0xFFFF then s.noMaster
      else if s.tim.adv = s.feid then (if s.candidate ∧ ¬ s.flag R.GLB_TIME_STATUS.MASTER then s.becomeMaster else s)
      else if s.timeState = tsLOCKED ∨ s.timeState = tsHOLDOVER then s.chooseParent.noteAlone
      else s.chooseParent.acquire)

/-! ## References -/

/-- The valid bit of a reference input: false for REFCLK_A. -/
def refOk (inp : Bool) : Field := if inp then R.GLB_TIME_STATUS.REFB_OK else R.GLB_TIME_STATUS.REFA_OK

/-- Whether input `inp` is the selected one. -/
def State.selected (s : State) (inp : Bool) : Bool := s.flag R.GLB_TIME_STATUS.REF_SEL == inp

/-- A count of rising edges in a tick that is good (R31). -/
def goodTick (edges : Nat) : Bool := decide (15 ≤ edges ∧ edges ≤ 17)

/-- REF_INPUT_LOSS (R31, R32, R42): `e1`, `e2` are the edges counted in the last two ticks. -/
def execRefInputLoss (inp : Bool) (e1 e2 : Nat) (s : State) : Result :=
  .next (
    if goodTick e1 ∨ goodTick e2 ∨ ¬ s.flag (refOk inp) then s
    else
      let s := (s.setFld (refOk inp) 0).timeEvents (if inp then 2 else 1)
      let s := if s.selected inp ∧ s.flag (refOk (!inp)) then s.setTim { s.tim with sel := some (!inp) } else s
      if ¬ s.refValid ∧ s.timeState = tsLOCKED then s.timeNext tsHOLDOVER 8 else s.refreshAdv)

/-- The mean of the offsets over a link, as (sum times 1,250, count); none known: (0, 1). -/
def State.meanOffset (s : State) (port : Nat) : Int × Nat :=
  let l := (FMap.get (fun _ => {}) s.tim.exch port).offs
  if l.isEmpty then (0, 1) else (l.foldl (· + ·) 0, l.length)

/-- Whether an offset, times 1,250 and summed over `n`, lies within ±`u` phase units. -/
def within1250 (sum : Int) (n u : Nat) : Bool := decide (sum.natAbs ≤ 1250 * n * u)

/-- Whether the offset to the parent is within ±16 phase units; a module with no parent has none to correct. -/
def State.offsetSmall (s : State) : Bool :=
  let (m, n) := s.meanOffset (s.fld R.GLB_TIME_STATUS.PARENT_LINK)
  within1250 m n 16

/-- REF_INPUT_VALID (R31, R32, R42, R388): `epochs` consecutive epochs of good ticks have been counted. -/
def execRefInputValid (inp : Bool) (epochs : Nat) (s : State) : Result :=
  .next (
    if epochs < s.fld R.GLB_REF_CTL.REVERT_HOLD ∨ s.flag (refOk inp) then s
    else
      let s := s.setFld (refOk inp) 1
      let s := if ¬ s.selected inp ∧ ¬ s.flag (refOk (!inp)) then s.setTim { s.tim with sel := some inp } else s
      let s := if s.timeState = tsHOLDOVER ∧ s.offsetSmall then s.timeNext tsLOCKED 0 else s
      s.refreshAdv.leaveLost)

/-- REF_REVERT (R33): at an epoch boundary, with REVERT = 1 and the preferred input valid but not selected. -/
def execRefRevert (s : State) : Result :=
  let p := s.flag R.GLB_REF_CTL.PREFER
  .next (
    if s.tick % 2 ^ 20 = 0 ∧ s.flag R.GLB_REF_CTL.REVERT ∧ s.flag (refOk p) ∧ ¬ s.selected p then
      (s.setFld R.GLB_TIME_STATUS.REF_SEL (b2n p)).timeEvents 4
    else s)

/-! ## Time transfer (R39) -/

/-- The exchange record of a port. -/
def State.exch (s : State) (port : Nat) : Exch := FMap.get (fun _ => {}) s.tim.exch port

/-- Replace an exchange record. -/
def State.setExch (s : State) (port : Nat) (x : Exch) : State :=
  s.setTim { s.tim with exch := FMap.set (fun _ => {}) s.tim.exch port x }

/-- Whether time is transferred on a channel (R38, R295). -/
def State.timeOn (s : State) (c : Nat) : Bool := s.chUp c && !s.ttOff (portCode c) && !s.skois c

/-- TIME_EXCHANGE (R38, R39): every 2^12 ticks, and on demand in Cruise C5, a block stamped T1 goes out; it returns T4 of the
exchange before. `phase` is T1's. -/
def execTimeExchange (c : Channel) (phase : BitVec 8) (s : State) : Result :=
  .next (
    if ¬ s.timeOn c ∨ ¬ (s.tick % 2 ^ 12 = 0 ∨ s.fld R.GLB_CRUISE_STATUS.PHASE = 5) then s
    else
      let x := s.exch (portCode c)
      let prev := x.t4.getD (0, 0)
      let b : TimeBlock := { dir := false, exch := BitVec.ofNat 8 x.num, phase := phase, tick := BitVec.ofNat 64 s.tick,
                             prevExch := BitVec.ofNat 8 prev.1, prevValid := x.t4.isSome,
                             prevPhase := BitVec.ofNat 8 prev.2, prevTick := BitVec.ofNat 64 (prev.2 / 256) }
      (s.setExch (portCode c) { x with num := (x.num + 1) % 256 }).sendCtrl c (.time b))

/-- Slew an offset of `sum` / (1,250 · `n`) phase units away, one core cycle a tick (R40): 19/16 core cycles to a unit. -/
def slewFor (sum : Int) (n : Nat) : Int :=
  let m : Int := ((sum.natAbs * 19 + 20000 * n - 1) / (20000 * n) : Nat)
  if sum < 0 then -m else m

/-- Act on the mean offset to the time parent (R39, R40, R42, R388). -/
def State.useOffset (s : State) (port : Nat) : State :=
  let (sum, n) := s.meanOffset port
  let q := sum / (1250 * n : Nat)
  let exact := decide (q * (1250 * n : Nat) = sum)
  -- the mean as shown: rounding is not in the spec
  let (r, s) := s.fresh
  let s := s.setFld R.GLB_TIME_STATUS.OFFSET (fieldOf 16 (if exact || r % 2 == 0 then q else q + 1))
  let st := s.timeState
  if st = tsACQUIRING then
    if s.tim.mayStep ∧ ¬ within1250 sum n 16 then
      -- whole ticks of the step: the boundary takes the rest, one way or the other (log entry 15)
      let w := 256 * 1250 * n
      let (r, s) := s.fresh
      let k := sum / (w : Nat) + (if sum % (w : Nat) ≠ 0 ∧ r % 2 = 1 then 1 else 0)
      let s := s.setTim { s.tim with step := some k, mayStep := false, good := 0 }
      s.setExch port { s.exch port with offs := [] }
    else
      let good := if within1250 sum n 16 ∧ s.parentLocked then s.tim.good + 1 else 0
      let s := s.setTim { s.tim with good := good, slew := slewFor sum n }
      if 4 ≤ good then s.timeNext tsLOCKED 0 else s
  else if st = tsLOCKED then
    if ¬ within1250 sum n 256 then s.acquire else s.setTim { s.tim with slew := slewFor sum n }
  else if st = tsHOLDOVER then
    let s := s.setTim { s.tim with slew := slewFor sum n }
    if s.refValid ∧ within1250 sum n 16 then s.timeNext tsLOCKED 0 else s
  else s

/-- A T4 returned by the parent ends exchange `e`: its delay, and its offset, which corrected by half the link's asymmetry
joins the last 16 (R39). -/
def State.endExchange (s : State) (port e : Nat) (t4 : Stamp) : State :=
  let x := s.exch port
  match FMap.find x.open_ e with
  | none => s
  | some (t1, t2, t3) =>
    let d : Int := ((t2 : Int) - t1) - ((t4 : Int) - t3)
    let o : Int := 625 * d - signedOf 16 (s.fld (R.GLB_LINK_ASYM.ASYM port))
    let delay2 : Int := ((t4 : Int) - t1) - ((t3 : Int) - t2)
    let s := s.setExch port { x with open_ := FMap.del x.open_ e, offs := (o :: x.offs).take 16, delay2 := delay2 }
    if port = s.fld R.GLB_TIME_STATUS.PARENT_LINK ∧ ¬ s.flag R.GLB_TIME_STATUS.MASTER then s.useOffset port else s

/-- TIME_BLOCK (R38, R39): `rx` is the phase of arrival, `wait` the phase units from arrival to the reply. -/
def execTimeBlock (c : Channel) (b : TimeBlock) (rx : BitVec 8) (wait : BitVec 16) (s : State) : Result :=
  .next (
    let port := portCode c
    let here := 256 * s.tick + rx.toNat
    if ¬ s.timeOn c then s
    else if b.dir then s.setExch port { s.exch port with t4 := some (b.exch.toNat, here) }
    else
      let t3 := here + wait.toNat
      let x := s.exch port
      let t1 := 256 * b.tick.toNat + b.phase.toNat
      let s := s.setExch port { x with open_ := x.open_.put b.exch.toNat (t1, here, t3) }
      let r : TimeBlock := { dir := true, exch := b.exch, phase := BitVec.ofNat 8 t3, tick := BitVec.ofNat 64 (t3 / 256),
                             prevExch := 0, prevValid := false, prevPhase := 0, prevTick := 0 }
      let s := s.sendCtrl c (.time r)
      if b.prevValid then s.endExchange port b.prevExch.toNat (256 * b.prevTick.toNat + b.prevPhase.toNat) else s)

/-- HOLDOVER_EXPIRE (R43): HOLDOVER_EPOCHS epochs with no LOCKED parent. -/
def execHoldoverExpire (s : State) : Result :=
  .next (
    match s.tim.alone with
    | some t =>
      if s.timeState = tsHOLDOVER ∧ t + s.fld R.GLB_TIME_CTL.HOLDOVER_EPOCHS * 2 ^ 20 ≤ s.tick then s.timeNext tsLOST 16 else s
    | none => s)

/-- EPOCH_IN_PULSE (R41): `phase` is the edge's phase within the tick. A pulse off its place by more than 16 phase units, or a
second one for the same epoch boundary, makes that epoch mismatched. -/
def execEpochInPulse (phase : BitVec 8) (s : State) : Result :=
  .next (
    if ¬ s.flag R.GLB_TIME_CTL.EPOCH_SRC ∨ s.tim.ignoreEpoch then s
    else
      let edge : Int := 256 * s.tick + phase.toNat
      let d := (edge - s.fld R.GLB_EPOCH_IN_DELAY.DELAY) % (2 ^ 28 : Nat)
      let off := min d ((2 ^ 28 : Nat) - d)
      let bad : Bool := decide (16 < off) || decide (0 < s.tim.pulses)
      let s := s.setTim { s.tim with pulses := s.tim.pulses + 1, badPulse := s.tim.badPulse || bad }
      if bad then s.timeEvents 32 else s)

/-- The pulses that belong to an epoch boundary are judged in the middle of the epoch that it begins (R41; log entry 15): one
pulse in its place, or a mismatched epoch; after four of these in a row EPOCH_IN is ignored. -/
def State.judgeEpoch (s : State) : State :=
  let on := s.flag R.GLB_TIME_CTL.EPOCH_SRC
  if s.tick % 2 ^ 20 ≠ 2 ^ 19 ∨ s.tim.ignoreEpoch then s
  else if ¬ on ∨ ¬ s.tim.watching then s.setTim { s.tim with pulses := 0, badPulse := false, mismatch := 0, watching := on }
  else
    let bad := s.tim.badPulse || s.tim.pulses == 0
    let n := if bad then s.tim.mismatch + 1 else 0
    let absent := s.tim.pulses == 0
    let s := s.setTim { s.tim with pulses := 0, badPulse := false, mismatch := n, ignoreEpoch := decide (4 ≤ n) }
    if absent then s.timeEvents 32 else s

/-! ## The tick boundary's part -/

/-- A transition takes effect (R42). A master that enters HOLDOVER gives up mastership (R43). -/
def State.enterTime (s : State) (st events : Nat) : State :=
  let s := (s.setFld R.GLB_TIME_STATUS.STATE st).setTim { s.tim with next := none }
  let s := if events = 0 then s else s.timeEvents events
  let s := if st = tsHOLDOVER ∧ s.flag R.GLB_TIME_STATUS.MASTER then
      let s := (s.setFld R.GLB_TIME_STATUS.MASTER 0).setFld R.GLB_TIME_STATUS.HOPS 0xFF
      s.setTim { s.tim with electing := true, advSince := s.tick }
    else s
  s.noteAlone.refreshAdv.sendIdents

/-- Count one tick, or make the step that is due (R35, R388). -/
def State.countTick (s : State) : State :=
  match s.tim.step with
  | none => s.setFld R.GLB_TICK.TICK (s.tick + 1)
  | some k =>
    let s := s.setFld R.GLB_TICK.TICK (fieldOf 64 ((s.tick : Int) + 1 - k))
    (s.setTim { s.tim with step := none }).timeEvents 64

/-- Time's part of a tick boundary: the count, one slewed core cycle, the reference switch, the transition (R32, R35, R40,
R42); a time parent whose link is gone is chosen anew (R37). -/
def State.timeTick (s : State) : State :=
  let s := s.countTick
  let s := s.setTim { s.tim with slew := if 0 < s.tim.slew then s.tim.slew - 1 else if s.tim.slew < 0 then s.tim.slew + 1 else 0 }
  let s := match s.tim.sel with
    | some b => ((s.setFld R.GLB_TIME_STATUS.REF_SEL (b2n b)).setTim { s.tim with sel := none }).timeEvents 4
    | none => s
  let s := match s.tim.next with
    | some (st, ev) => s.enterTime st ev
    | none => s
  let s := s.judgeEpoch
  if s.fld R.GLB_TIME_STATUS.PARENT_FEID ≠ 0xFFFF ∧ s.parentIdent.isNone then s.chooseParent.noteAlone.refreshAdv else s

end Sys2Proof.Machine
end

