-- ==== Sys2Proof/Machine/Optics.lean ====
section
/-! DEFINITION. Shared operations on the optics (chapter 11): rings and their calibration, lightlane states (Table 11.6),
sweeps and relocks (R268), light-plan switches (R260, R261), laser sources and dark windows (R275 to R279). -/

namespace Sys2Proof.Machine

open Sys2Proof

/-- A ring's record: ring `r` of engine `n`. -/
def State.ring (s : State) (n r : Nat) : Ring := FMap.get (fun _ => {}) s.opt.rings (32 * n + r)

/-- Whether any ring of an engine is in acquire mode. -/
def State.acquiring (s : State) (n : Nat) : Bool := (upFrom 0 32).any fun r => (s.ring n r).acq != 0

/-- How an engine's monitor ADC divides the 256 conversions of a frame (R264): lock-in, laser monitoring, margin test. -/
def adcShares (acquiring : Bool) : Nat × Nat × Nat := if acquiring then (256, 0, 0) else (192, 16, 48)

/-- Replace a ring's record. While a ring of the engine acquires, margin tests there are paused (R264). -/
def State.setRing (s : State) (n r : Nat) (x : Ring) : State :=
  let was := s.acquiring n
  let s := s.setOpt { s.opt with rings := FMap.set (fun _ => {}) s.opt.rings (32 * n + r) x }
  let now := s.acquiring n
  if was = now then s
  else if now then s.setOpt { s.opt with acqAt := s.opt.acqAt.put n s.tick }
  else
    let t := (FMap.find s.opt.acqAt n).getD s.tick
    let s := s.setOpt { s.opt with acqAt := s.opt.acqAt.del n }
    (upFrom (16 * n) 16).foldl (fun (s : State) c =>
      let y := s.lane c
      if y.test = 1 then s.setLane c { y with paused := y.paused + (s.tick - max t y.testAt) } else s) s

/-! ## Rings -/

/-- A ring's calibration code for a line (R263). -/
def State.calCode (s : State) (n r line : Nat) : Nat := s.fld (R.OPT_RING_CAL.CODE n r (line / 4) (line % 4))

/-- Set a calibration code. -/
def State.setCal (s : State) (n r line v : Nat) : State := s.setFld (R.OPT_RING_CAL.CODE n r (line / 4) (line % 4)) v

/-- The heater code field of a lightlane's modulator ring or drop ring. -/
def codeField (c : Nat) (drop : Bool) : Field := if drop then R.OPT_LANE_STATUS.RX_CODE c else R.OPT_LANE_STATUS.TX_CODE c

/-- The line field of a lightlane's modulator ring or drop ring. -/
def lineField (c : Nat) (drop : Bool) : Field := if drop then R.OPT_LANE_STATUS.RXLINE c else R.OPT_LANE_STATUS.TXLINE c

/-- Ring number within the engine (R254). -/
def ringNo (c : Nat) (drop : Bool) : Nat := if drop then 16 + c % 16 else c % 16

/-- A heater code moved by a signed number of codes, within the DAC's range. -/
def moveCode (v : Nat) (d : Int) : Nat := min 65535 ((v : Int) + d).toNat

/-- Tune a ring to a line by its calibration code. -/
def State.tune (s : State) (c : Nat) (drop : Bool) (line : Nat) : State :=
  (s.setFld (lineField c drop) line).setFld (codeField c drop) (s.calCode (c / 16) (ringNo c drop) line)

/-- Park a ring halfway between two lines (R259): the code lies halfway between their calibration codes. Which two neighbouring
lines, and how half a code is rounded, is not in the spec (log entry 72). -/
def State.parkRing (s : State) (c : Nat) (drop : Bool) : State :=
  let (a, s) := s.fresh
  let (b, s) := s.fresh
  let k := a % 31
  let cal := s.calCode (c / 16) (ringNo c drop)
  s.setFld (codeField c drop) ((cal k + cal (k + 1) + b % 2) / 2)

/-- Park a lightlane's rings (R259). -/
def State.park2 (s : State) (c : Nat) : State := (s.parkRing c false).parkRing c true

/-- A fine search settles on one of its steps of 16 codes around the calibration code (R261): step `k` is 16·k − 64 codes from it. -/
def State.fine (s : State) (c : Nat) (drop : Bool) (k : Fin 9) : State :=
  s.setFld (codeField c drop) (moveCode (s.fld (codeField c drop)) (16 * (k.val : Int) - 64))

/-- The codes between which a ring's dither swings its heater (Table 11.5): the heater's drive is no output of the model. -/
def State.dither (s : State) (c : Nat) (drop : Bool) : Nat × Nat :=
  let a := s.fld R.OPT_RING_CTL.DITHER_AMP
  (moveCode (s.fld (codeField c drop)) (-(a : Int)), moveCode (s.fld (codeField c drop)) a)

/-- The lock-in takes a ring over in acquire mode, for 4 windows from now (Tables 11.5 and 11.11). -/
def State.acquireRing (s : State) (c : Nat) (drop : Bool) : State :=
  s.setRing (c / 16) (ringNo c drop) { acq := 4, winAt := s.tick }

/-! ## Training (R270, R291) -/

/-- The control word of a lane's training frames (Table 12.3): a lightlane's has only RX_READY and END. -/
def frameWord (lane port tap req ack : Nat) (ready fec272 last : Bool) : BitVec 32 :=
  let n := packBits [(0, lane), (3, port), (6, tap), (8, req), (10, ack), (12, b2n ready), (13, b2n fec272), (15, b2n last)]
  BitVec.ofNat 32 (n + 2 ^ 16 * (crc16 (leBytes 2 n)).toNat)

/-- A lightlane sends training frames: END once its receiver is adapted and the peer's RX_READY has come (R291). -/
def State.laneFrame (s : State) (c : Nat) : State :=
  let x := s.lane c
  s.send (.frame c (frameWord 0 0 0 0 0 x.ready false (x.ready && x.peerReady && x.train == 4)))

/-- Full training begins (R270). -/
def State.fullTrain (s : State) (c : Nat) : State :=
  (s.setLane c { s.lane c with train := 1, trainAt := s.tick, peerReady := false, ready := false }).laneFrame c

/-- Fast training (R270): the settings held for the drop ring's line, the burst, one frame with END = 1, then data and IDENT. -/
def State.fastTrain (s : State) (c : Nat) : State :=
  let line := s.fld (R.OPT_LANE_STATUS.RXLINE c)
  let s := s.setLane c { s.lane c with train := 6, trainAt := s.tick, peerReady := true, ready := true,
                                       eq := FMap.find s.opt.eqs (32 * c + line) }
  ((s.send (.frame c (frameWord 0 0 0 0 0 true false true))).lineStart c).sendIdent c

/-- A lightlane's equaliser is adapted for the line that its drop ring is on; the settings are held for it (R270). What they are is
free. -/
def State.adapted (s : State) (c : Nat) : State :=
  let (v, s) := s.fresh
  let s := s.setOpt { s.opt with eqs := s.opt.eqs.put (32 * c + s.fld (R.OPT_LANE_STATUS.RXLINE c)) v }
  s.setLane c { s.lane c with eq := some v }

/-! ## Lightlane states -/

/-- Begin the sweep of a lightlane's rings (R268, steps 1 and 2). -/
def State.beginSweep (s : State) (c cause : Nat) (m d : Bool) : State :=
  if s.failing c then s.laneFailed c 9 else
  let s := if s.chState c = chDOWN then s else s.channelDown c 0
  let s := (s.enterLane c lsSWEEP).setFld (R.OPT_LANE_STATUS.CAUSE c) cause
  let x := s.lane c
  let s := s.setLane c { x with sweepM := m, sweepD := d, sweepAt := s.tick, okA := false, okB := false, locked := false, train := 0 }
  let s := if m then s.setRing (c / 16) (ringNo c false) {} else s
  let s := if d then s.setRing (c / 16) (ringNo c true) {} else s
  (s.count R.OPT_COUNTS.RELOCKS).optEvent R.OPT_EVENTS.LANE_RELOCK

/-- A check of a lightlane failed, or IDENT is missing, or a ring was lost: the lightlane is relocked, or fails where
RELOCKS would exceed RELOCK_MAX (Table 11.6, R268). While its light is absent the cause stays 5. -/
def State.relock (s : State) (c cause : Nat) (m d : Bool) : State :=
  let x := s.lane c
  let cause := if x.los then 5 else cause
  let n := s.fld (R.OPT_LANE_STATUS.RELOCKS c)
  if s.laneState c = lsUP then
    if s.failing c then s.laneFailed c 9 else (s.beginSweep c cause m d).setFld (R.OPT_LANE_STATUS.RELOCKS c) 1
  else if s.laneState c = lsVERIFY then
    if s.fld R.OPT_RING_CTL.RELOCK_MAX ≤ n then s.laneFailed c cause
    else (s.beginSweep c cause m d).setFld (R.OPT_LANE_STATUS.RELOCKS c) (n + 1)
  else s

/-- The rings to sweep where check B or IDENT is at fault: the drop ring, and the modulator ring if its own check A is
failing (R268). -/
def State.relockB (s : State) (c cause : Nat) : State := s.relock c cause (decide (0 < (s.lane c).failM)) true

/-- Enter VERIFY (Table 11.6): the channel trains, fully or fast (R270), and the first pilot window begins (R266). -/
def State.verify (s : State) (c : Nat) (strict fast : Bool) : State :=
  let s := s.enterLane c lsVERIFY
  let s := s.setLane c { s.lane c with okA := false, okB := false, strict := strict, failM := 0, failD := 0,
                                       sweepM := false, sweepD := false, pilotAt := s.tick, locked := false }
  let s := s.setFld (R.SWC_CH_STATUS.STATE c) chTRAINING
  if fast then s.fastTrain c else s.fullTrain c

/-- A lightlane in VERIFY that has passed both checks, and is not in test, is UP (Table 11.6). -/
def State.maybeUp (s : State) (c : Nat) : State :=
  let x := s.lane c
  if s.laneState c = lsVERIFY ∧ x.okA ∧ x.okB ∧ ¬ s.inTest c then
    let s := (s.enterLane c lsUP).setFld (R.OPT_LANE_STATUS.RELOCKS c) 0
    s.channelUp c
  else s

/-- A lightlane is turned off: its rings are parked and its channel is DOWN (R259). -/
def State.laneOff (s : State) (c : Nat) : State :=
  let s := (s.park2 c).enterLane c lsOFF
  let s := (s.setRing (c / 16) (ringNo c false) {}).setRing (c / 16) (ringNo c true) {}
  let s := s.setLane c {}
  let s := (s.setFld (R.SWC_CH_STATUS.STATE c) chDOWN).setFld (R.SWC_CH_STATUS.MEMBER c) 0
  s.refreshLinks

/-- Clear a lightlane's four counters and set its source (R298). -/
def State.setSource (s : State) (c : Nat) (src : Bool) : State :=
  let f : Field := ⟨R.OPT_CNT_SRC.adr (c / 64), c % 64, 1⟩
  if s.flag f == src then s
  else
    let s := (upFrom 0 4).foldl (fun s k => s.setFld (R.OPT_LANE_CNT.CNT c k) 0) s
    s.setFld f (b2n src)

/-! ## Light-plan switches -/

/-- Whether a plan may be switched to: VALID in its header (Table 11.3). -/
def State.planValid (s : State) (p : Nat) : Bool := decide (p < 16) && bitOf (s.planWord p 256) 0

/-- Lightlanes whose lane words differ between a plan and the plan in force. -/
def State.changedLanes (s : State) (q : Nat) : List Nat :=
  (upFrom 0 256).filter fun c => s.planWord q c != s.laneWord c

/-- Whether a switch meets a dark window: T ≤ W + 1 and T + 25 > W (R276, R278). -/
def meets (t w : Nat) : Bool := decide (t ≤ w + 1 ∧ w < t + 25)

/-! ## Laser sources and dark windows -/

/-- The source of a bank that feeds an engine. -/
def State.feeding (s : State) (b n : Nat) : Option Nat := (upFrom 0 5).find? fun k => s.fld (R.OPT_LASER_STATUS.FEEDS b k) == n

/-- The journal value of a bank's source map (Table 16.10). -/
def State.laserMap (s : State) (b : Nat) : Nat :=
  packBits (((upFrom 0 5).map fun k => (8 * k, s.fld (R.OPT_LASER_STATUS.FEEDS b k)))
    ++ (upFrom 0 5).map fun k => (40 + k, b2n (s.fld (R.OPT_LASER_STATUS.STATE b k) == 4)))

/-- The spare takes an engine over: the old source is off and retired, and the rings go on in acquire mode (R254, R276). -/
def State.insertSpare (s : State) (b n : Nat) : State :=
  let s := match s.feeding b n with
    | some k =>
      ((s.setFld (R.OPT_LASER_STATUS.STATE b k) 4).setFld (R.OPT_LASER_STATUS.FEEDS b k) 0x1F).setFld
        (R.OPT_LASER_STATUS.WARN b k) 0
    | none => s
  let s := (s.setFld (R.OPT_LASER_STATUS.STATE b 4) 1).setFld (R.OPT_LASER_STATUS.FEEDS b 4) n
  let s := s.setOpt { s.opt with spare := FMap.del s.opt.spare b }
  let s := (s.optEvent R.OPT_EVENTS.LASER_SWITCH).journal itLASER b (s.laserMap b)
  (upFrom (16 * n) 16).foldl (fun s c => (s.acquireRing c false).acquireRing c true) s

/-- The payload of a dark notice or its acknowledgement (Table 11.9). -/
def darkPayload (type port lanes id tick : Nat) : Nat := packBits [(0, type), (8, port), (16, lanes), (32, id), (64, tick)]

/-- The distinct peers of an engine's enabled lightlanes, with the lightlanes of each (R276, R277). -/
def State.enginePeers (s : State) (n : Nat) : List (Nat × Nat) :=
  (upFrom (16 * n) 16).foldl (fun (l : List (Nat × Nat)) c =>
    let w := s.laneWord c
    if ¬ lwEn w then l
    else if l.any (·.1 == lwPeer w) then l.map fun e => if e.1 == lwPeer w then (e.1, e.2 + 2 ^ (c % 16)) else e
    else l ++ [(lwPeer w, 2 ^ (c % 16))]) []

/-- The first dark window at or after a tick: a multiple of 4,096 that meets no switch requested (R276). -/
def State.darkTick (s : State) (from_ : Nat) : Nat :=
  let w := (from_ + 4095) / 4096 * 4096
  match s.opt.sw with
  | some x => if meets x.tick w then w + 4096 else w
  | none => w

/-- Open a dark window at W: notices go to every peer, with numbers of the sender's own (R276, R277). -/
def State.openDark (s : State) (b n w : Nat) : State :=
  let (notes, s) := (s.enginePeers n).foldl (fun (acc : List (Nat × Nat × Bool) × State) e =>
    let (r, s) := acc.2.fresh
    let id := r % 2 ^ 32
    (acc.1 ++ [(e.1, id, false)], s.sendPacket (s.mgmtPacket e.1 (darkPayload 0x21 (8 + n) e.2 id w)))) ([], s)
  s.setOpt { s.opt with wins := s.opt.wins ++ [{ bank := b, engine := n, tick := w, notices := notes }] }

/-- Move a dark window to a later multiple of 4,096, with new notices (R276, R278, Table 11.19). -/
def State.moveDark (s : State) (x : DarkWin) : State :=
  let s := s.setOpt { s.opt with wins := s.opt.wins.filter (· != x) }
  (s.openDark x.bank x.engine (s.darkTick (max (x.tick + 1) (s.tick + 1)))).optEvent R.OPT_EVENTS.DARK_POSTPONED

/-- A switch has been requested: the dark windows that it meets are moved (R278). -/
def State.moveMet (s : State) (t : Nat) : State :=
  (s.opt.wins.filter fun x => !x.begun && meets t x.tick).foldl (fun s x => s.moveDark x) s

/-- A channel goes DARK for a window (R152). -/
def State.goDark (s : State) (c : Nat) : State :=
  if s.chUp c then (s.setFld (R.SWC_CH_STATUS.STATE c) chDARK).refreshLinks else s

/-- A dark window ends for a channel: it is UP again and replays from its oldest unacknowledged packet (R152). One that a switch has
made DARK since goes by the switch's schedule (Table 11.4). -/
def State.endDark (s : State) (c : Nat) : State :=
  if s.chState c ≠ chDARK ∨ s.laneState c ≠ lsUP then s
  else
    let s := s.setFld (R.SWC_CH_STATUS.STATE c) chUP
    let s := s.setChan c { s.chan c with lastCredit := s.tick }
    (s.startReplay c 0).refreshLinks

/-- A hard laser failure with no usable spare (R279): the rings are parked and the 16 lightlanes fail. -/
def State.laserDead (s : State) (n : Nat) : State :=
  let s := (upFrom (16 * n) 16).foldl (fun s c => (s.park2 c).laneFailed c 8) s
  s.optEvent R.OPT_EVENTS.LASER_FAIL

end Sys2Proof.Machine
end

