-- ==== Sys2Proof/Machine/Collect.lean ====
section
/-! DEFINITION. The work of a collective: how data divides into parts and segments (R198), local contributions (R201), hops
and results (R177 to R180, R202), agreements (R208 to R210), exchanges (R213, R214). -/

namespace Sys2Proof.Machine

open Sys2Proof

/-! ## Parts and segments (R198) -/

/-- D in bytes, and in lines. -/
def cdBytes (d : Nat) : Nat := cdCount d * elemBits (cdFmt d) / 8
def cdLines (d : Nat) : Nat := cdBytes d / 64

/-- Lines of the data set that a phase moves: exponent bytes in the pre-pass, every member's block in ALLGATHER. -/
def setLines (d : Nat) (pre : Bool) : Nat :=
  if pre then (cdLines d + 63) / 64 else if cdOp d = 4 then cdN d * cdLines d else cdLines d

/-- The rank that a line of the data set belongs to: equal runs of lines in rank order, the last ones shorter where the
lines do not divide (DEDUCED; log entry 30). -/
def ownerOf (d : Nat) (pre : Bool) (l : Nat) : Nat :=
  let n := (setLines d pre + cdN d - 1) / cdN d
  if n = 0 then 0 else l / n

/-- Whether two ranks have the same coordinates on the first `i` of A0, A1, A2. -/
def agreeOn (d a b i : Nat) : Bool := ((cdAxes d).take i).all fun x => coord d a x == coord d b x

/-- The lines that a member works on before the phase on the `i`-th of A0, A1, A2 in a reduce-scatter, ascending. -/
def heldLines (d : Nat) (pre : Bool) (rank i : Nat) : List Nat :=
  (upFrom 0 (setLines d pre)).filter fun l => agreeOn d (ownerOf d pre l) rank i

/-- The axis of a phase. -/
def Phase.axis (ph : Phase) (d : Nat) : Nat := (cdAxes d).getD ph.ax 0

/-- Part `j` of a phase's ring: the lines that end at, or come from, its member with coordinate `j`. -/
def partLines (d : Nat) (ph : Phase) (rank j : Nat) : List Nat :=
  if ph.kind = 2 then upFrom 0 (cdLines d)
  else (heldLines d ph.pre rank ph.ax).filter fun l => coord d (ownerOf d ph.pre l) (ph.axis d) == j

/-- The coordinates whose parts a phase has: ROOT's in a broadcast, and none outside the rings that it has reached. -/
def phaseParts (d : Nat) (ph : Phase) (rank : Nat) : List Nat :=
  if ph.kind = 3 then []
  else if ph.kind = 2 then
    if ((cdAxes d).drop (ph.ax + 1)).all fun x => coord d rank x == coord d (cdRoot d) x then [coord d (cdRoot d) (ph.axis d)]
    else []
  else upFrom 0 (cdDim d (ph.axis d))

/-- Wire lines per line: two where partials travel as integers (R179, R202). -/
def wireFactor (d : Nat) (ph : Phase) : Nat := if ph.kind = 0 ∧ cdWide d ∧ ¬ ph.pre then 2 else 1

/-- A segment (R198): its number in the phase, its number among those of its own descriptor, its descriptor and part, its first
wire line within the part, and its number of wire lines. -/
structure Seg where
  num : Nat
  own : Nat
  desc : Nat
  part : Nat
  first : Nat
  count : Nat
deriving DecidableEq, Repr

/-- Number segments of a phase one after another: each as its number in its descriptor, its descriptor, part, first wire line and
count. -/
def numberSegs : Nat → List (Nat × Nat × Nat × Nat × Nat) → List Seg
  | _, [] => []
  | n, (o, d, j, f, c) :: r => ⟨n, o, d, j, f, c⟩ :: numberSegs (n + 1) r

/-- The segments of descriptor `i` in a phase at a member: parts in order of coordinate, 1,024 wire lines each but for the last of
a part. A descriptor that is not wide has none in the pre-pass. -/
def ColEntry.descSegs (e : ColEntry) (ph : Phase) (i : Nat) : List (Nat × Nat × Nat × Nat × Nat) :=
  let d := (e.descs.getD i 0).toNat
  let l := if ph.pre ∧ ¬ cdWide d then [] else
    ((phaseParts d ph e.rank).map fun j =>
      let n := wireFactor d ph * (partLines d ph e.rank j).length
      (upFrom 0 ((n + 1023) / 1024)).map fun k => (i, j, 1024 * k, min 1024 (n - 1024 * k))).flatten
  (upFrom 0 l.length).zip l

/-- The segments of a phase at a member: descriptors in array order, each with its own segments (R216); the numbers that packets
carry run on from one descriptor to the next (log entry 30). -/
def ColEntry.segs (e : ColEntry) (ph : Phase) : List Seg :=
  numberSegs 0 ((upFrom 0 e.descs.length).map (e.descSegs ph)).flatten

/-- One step along the ring in a segment's direction: even segments of a descriptor travel to c + 1, odd ones to c − 1. -/
def Seg.next (x : Seg) (n c : Nat) : Nat := if x.own % 2 = 0 then (c + 1) % n else (c + n - 1) % n

/-- The ring position from which a segment comes to one. -/
def Seg.prev (x : Seg) (n c : Nat) : Nat := if x.own % 2 = 0 then (c + n - 1) % n else (c + 1) % n

/-- The coordinate at which a segment starts: in a reduce-scatter phase the one after the member that keeps it. -/
def Seg.start (x : Seg) (n kind : Nat) : Nat := if kind = 0 then x.next n x.part else x.part

/-- The coordinate at which a segment ends. -/
def Seg.stop (x : Seg) (n kind : Nat) : Nat :=
  if kind = 0 then x.part else x.prev n x.part

/-- Wire lines that a member receives in a phase. -/
def ColEntry.expected (e : ColEntry) (ph : Phase) : Nat :=
  let d := e.desc
  let n := cdDim d (ph.axis d)
  let c := coord d e.rank (ph.axis d)
  (e.segs ph).foldl (fun k x => if x.start n ph.kind = c then k else k + x.count) 0

/-- Wire lines that a member receives from a FEID in a phase. -/
def ColEntry.expectedFrom (e : ColEntry) (ph : Phase) (f : Nat) : Nat :=
  let d := e.desc
  let a := ph.axis d
  let n := cdDim d a
  let c := coord d e.rank a
  (e.segs ph).foldl (fun k x =>
    if x.start n ph.kind ≠ c ∧ e.feid (onAxis d e.rank a (x.prev n c)) = f then k + x.count else k) 0

/-- The line and the half that a wire line of a segment carries. -/
def ColEntry.wireLine (e : ColEntry) (ph : Phase) (x : Seg) (k : Nat) : Nat × Nat :=
  let d := (e.descs.getD x.desc 0).toNat
  let f := wireFactor d ph
  ((partLines d ph e.rank x.part).getD ((x.first + k) / f) 0, (x.first + k) % f)

/-- Key of a line of a descriptor. -/
def lineKey (i l : Nat) : Nat := 2 ^ 40 * i + l

/-! ## Local contributions (R201) -/

/-- Read a line and whether it is poisoned. -/
def Eng.lineP (g : Eng) (fva : Nat) : Eng × Nat × Bool :=
  let (g, v) := { g with poison := none }.line fva
  ({ g with poison := none }, v, g.poison.isSome)

/-- Read lines, and whether any is poisoned. -/
def Eng.linesP (g : Eng) (fvas : List Nat) : Eng × List Nat × Bool :=
  fvas.foldl (fun (r : Eng × List Nat × Bool) a =>
    let (g, v, p) := r.1.lineP a
    (g, r.2.1 ++ [v], r.2.2 || p)) (g, [], false)

/-- Byte-wise maximum of two lines of exponent bytes (R202). -/
def maxBytes (a b : Nat) : Nat :=
  (upFrom 0 64).foldl (fun r i => r + max (getBits a (8 * i) 8) (getBits b (8 * i) 8) * 2 ^ (8 * i)) 0

/-- A reduction of wire lines, and what it sets. -/
structure Hop where
  data : Nat
  flags : RFlags := 0
  wrap : Bool := false
deriving DecidableEq, Repr

/-- The residues of the integers of a wire line (R192). -/
def alignedRes (code a : Nat) : List Nat :=
  let w := alignedWidth code
  (upFrom 0 (512 / w)).map fun i => (signedOf w (getBits a (w * i) w) % 7).toNat

/-- The comparison at a cell on every add of integer partials: (RES + addend residue) mod 7 with the sum mod 7, before the sum is
wrapped (R180, R192). -/
def alignedResOk (code a b : Nat) : Bool :=
  let w := alignedWidth code
  (upFrom 0 (512 / w)).all fun i =>
    let x := signedOf w (getBits a (w * i) w)
    let y := signedOf w (getBits b (w * i) w)
    ((alignedRes code a).getD i 0 + (alignedRes code b).getD i 0) % 7 == ((x + y) % 7).toNat

/-- Reduce the wire data of two partials (R177, R178, R180). -/
def reduceHop (d : Nat) (pre : Bool) (a b : Nat) : Hop :=
  if pre then { data := maxBytes a b }
  else if cdWide d then
    let (v, w) := alignedAdd (cdFmt d) a b
    { data := v, wrap := w }
  else
    let (v, f) := orderedLine (cdFmt d) (cdRop d) (cdSat d) [a, b]
    { data := v, flags := f }

/-- The reduced exponent byte of a line. -/
def ColEntry.exp (e : ColEntry) (i l : Nat) : Nat := FMap.get (fun _ => 0) e.exps (lineKey i l)

/-- A line of exponent bytes: byte `q` belongs to line 64·l + q. -/
def ColEntry.expLine (e : ColEntry) (i l : Nat) : Nat :=
  (upFrom 0 64).foldl (fun r q => r + e.exp i (64 * l + q) * 2 ^ (8 * q)) 0

/-- A collective at work: its entry, the engine's accesses, and the events of R180. -/
structure ColRun where
  g : Eng
  e : ColEntry
deriving DecidableEq, Repr

/-- The SRC lines of line `l` of a contribution. They are read once, when they are first needed: where a pre-pass has read them
they are taken as read (R201). -/
def ColRun.sources (r : ColRun) (i l : Nat) : ColRun × SrcRead :=
  let seen := fun (g : Eng) (x : SrcRead) => { g with level := max g.level x.level, isSealed := g.isSealed || x.isSealed }
  match FMap.find r.e.src (lineKey i l) with
  | some x => ({ r with g := seen r.g x }, x)
  | none =>
    let d := (r.e.descs.getD i 0).toNat
    let (g, vs, p) := ({ r.g with level := 0, isSealed := false } : Eng).linesP
      ((upFrom 0 (cdNsrc d)).map fun n => cdSrc d n + 64 * l)
    let x : SrcRead := { lines := vs, pz := p, level := g.level, isSealed := g.isSealed }
    let g := seen { g with level := r.g.level, isSealed := r.g.isSealed } x
    ({ g := g, e := if cdWide d then { r.e with src := r.e.src.put (lineKey i l) x } else r.e }, x)

/-- The local contribution from the sources: their exponent bytes in the pre-pass, their integers in Aligned mode, their
exact sum rounded once, or their maximum or minimum, in Ordered mode. -/
def ColRun.fromSources (r : ColRun) (pre : Bool) (i l half : Nat) : ColRun × Hop × Bool :=
  let d := (r.e.descs.getD i 0).toNat
  if pre then
    (upFrom 0 64).foldl (fun (a : ColRun × Hop × Bool) q =>
      if cdLines d ≤ 64 * l + q then a
      else
        let (r, x) := a.1.sources i (64 * l + q)
        let b := maxOf (x.lines.map (blockByte (cdFmt d)))
        (r, { a.2.1 with data := a.2.1.data + b * 2 ^ (8 * q) }, a.2.2 || x.pz)) (r, { data := 0 }, false)
  else
    let (r, x) := r.sources i l
    if cdWide d then
      let h := x.lines.foldl (fun (h : Hop) v =>
        let (y, w) := alignedAdd (cdFmt d) h.data (alignedHalf (cdFmt d) (cdH d) (r.e.exp i l) v half)
        { h with data := y, wrap := h.wrap || w }) { data := 0 }
      (r, h, x.pz)
    else
      let (v, f) := orderedLine (cdFmt d) (cdRop d) (cdSat d) x.lines
      (r, { data := v, flags := f }, x.pz)

/-- A member's local contribution to a wire line: from the sources in the first reduce-scatter phase, from the staging area
in later ones. -/
def ColRun.localPart (r : ColRun) (ph : Phase) (i l half : Nat) : ColRun × Hop × Bool :=
  let d := (r.e.descs.getD i 0).toNat
  if ph.ax = 0 then r.fromSources ph.pre i l half
  else
    let k := wireFactor d ph * ((heldLines d ph.pre r.e.rank ph.ax).takeWhile (· != l)).length + half
    match FMap.find r.e.excess (lineKey i k) with
    | some x => (r, { data := x.data }, x.pz)
    | none =>
      let (g, v, p) := r.g.lineP (cdStage d + 64 * k)
      ({ r with g := g }, { data := v }, p)

/-- The bytes at the start of the staging area that partials may take (R201). -/
def cdPartialBytes (d : Nat) : Nat := (if cdWide d then 2 else 1) * cdBytes d / cdDimA0 d

/-! ## Results -/

/-- Where a result line goes in DST at this member, if anywhere (Table 9.1). -/
def dstLine (d rank l : Nat) : Option Nat :=
  let own := rank * (cdLines d / cdN d)
  if cdOp d = 3 then (if rank = cdRoot d then some l else none)
  else if cdOp d = 2 then some (l - own)
  else some l

/-- Flags NAN (bit 3) and INF (bit 4) of a line written (Table 9.6). -/
def writtenFlags (code v : Nat) : BitVec 7 :=
  if 12 ≤ code then 0
  else (upFrom 0 (lineElems code)).foldl (fun (f : BitVec 7) i =>
    match elemNum code (getBits v (elemBits code * i) (elemBits code)) with
    | .nan => f ||| 8
    | .inf _ => f ||| 16
    | .fin .. => f) 0

/-- Flags that a reduction at this member gives the completion record: INEXACT, a saturation, REPEATED, DUP (Table 9.6). -/
def hopFlags (sat : Bool) (f : RFlags) : BitVec 7 :=
  BitVec.ofNat 7 (packBits [(2, b2n (f.getLsbD 0)), (4, b2n (f.getLsbD 1 && sat)), (5, b2n (f.getLsbD 3)), (6, b2n (f.getLsbD 4))])

/-- Note what a reduction sets (R180, Table 9.6). -/
def ColRun.note (r : ColRun) (d : Nat) (h : Hop) : ColRun :=
  let s := if h.wrap then r.g.s.raise R.LDL_EVENTS.ALIGN_WRAP else r.g.s
  { g := { r.g with s := s }, e := { r.e with flags := r.e.flags ||| hopFlags (cdSat d) h.flags } }

/-- A collective's write of a whole line. A line written poisoned makes the member complete with POISON (R218). -/
def ColRun.put (r : ColRun) (fva v : Nat) (pz : Bool) : ColRun :=
  let g := r.g.write fva 0 64 v pz
  let bad := if pz ∧ r.e.poison.isNone ∧ g.fail.isNone then
      match (g.s.translate g.tag fva .store).2 with
      | .ok x => some (x.line, x.sub)
      | _ => none
    else r.e.poison
  { g := g, e := { r.e with poison := bad } }

/-- A result line reaches this member: kept for the phases that follow, and written to DST where it belongs there. -/
def ColRun.result (r : ColRun) (i l v : Nat) (pz : Bool) : ColRun :=
  let d := (r.e.descs.getD i 0).toNat
  let r := { r with e := { r.e with results := r.e.results.put (lineKey i l) { data := v, pz := pz } } }
  match dstLine d r.e.rank l with
  | none => r
  | some k =>
    let r := { r with e := { r.e with flags := r.e.flags ||| writtenFlags (cdFmt d) v } }
    r.put (cdDst d + 64 * k) v pz

/-- Reduced exponent bytes reach this member: kept, and stored behind the partials in the staging area (R201). A byte 0xFF
sets NONFINITE at every member (R180; log entry 39). -/
def ColRun.exponents (r : ColRun) (i l v : Nat) : ColRun :=
  let d := (r.e.descs.getD i 0).toNat
  let n := min 64 (cdLines d - 64 * l)
  let m := (upFrom 0 n).foldl (fun (m : FMap Nat) q => FMap.set (fun _ => 0) m (lineKey i (64 * l + q)) (getBits v (8 * q) 8)) r.e.exps
  let bad := (upFrom 0 n).any fun q => getBits v (8 * q) 8 == 0xFF
  let s := if bad then r.g.s.raise R.LDL_EVENTS.NONFINITE else r.g.s
  let r := { r with e := { r.e with exps := m }, g := { r.g with s := s } }
  if cdStage d = 0 then r
  else { r with g := r.g.span (cdStage d + 2 * cdBytes d / cdDimA0 d + 64 * l) n v }

/-- The read-out mode of an element of a result (R175, R222): its index in DST. -/
def cdMode (d rank l half i : Nat) : RndMode :=
  let k := (if cdOp d = 2 then l - rank * (cdLines d / cdN d) else l) * lineElems (cdFmt d)
    + half * (512 / alignedWidth (cdFmt d)) + i
  { draw := if cdRnd d then some (draw (cdSeed d) k) else none, sat := cdSat d }

/-- Convert a completed block back (R180): both halves of its sum. -/
def ColRun.convert (r : ColRun) (i l lo hi : Nat) (pz : Bool) : ColRun :=
  let d := (r.e.descs.getD i 0).toNat
  let e := r.e.exp i l
  let (a, f) := alignedBack (cdFmt d) (cdH d) e lo (cdMode d r.e.rank l 0)
  let (b, f') := alignedBack (cdFmt d) (cdH d) e hi (cdMode d r.e.rank l 1)
  let r := r.note d { data := 0, flags := f ||| f' }
  r.result i l (a + 2 ^ 256 * b) pz

/-- A wire line of a reduce-scatter phase has reached the member that keeps it: a partial for the next phase, or, in the
last one, a finished line. -/
def ColRun.keep (r : ColRun) (ph : Phase) (i l half v : Nat) (pz : Bool) : ColRun :=
  let d := (r.e.descs.getD i 0).toNat
  let k := lineKey i l
  let old := (FMap.find r.e.kept k).getD {}
  let new : ColLine := { data := old.data + v * 2 ^ (512 * half), pz := old.pz || pz, have_ := old.have_ + 2 ^ half }
  if ph.ax + 1 < (cdAxes d).length ∨ (wireFactor d ph = 2 ∧ new.have_ ≠ 3) then
    { r with e := { r.e with kept := r.e.kept.put k new } }
  else
    let r := { r with e := { r.e with kept := r.e.kept.del k } }
    if ph.pre then r.exponents i l v
    else if wireFactor d ph = 2 then r.convert i l (new.data % 2 ^ 512) (new.data / 2 ^ 512) new.pz
    else r.result i l v pz

/-- Write the partials kept for the next reduce-scatter phase to the staging area (R201). Lines that do not lie within the bytes
that R201 gives them, where parts differ in size, stay in the Collective Engine (DESIGN CHOICE, log entry 73). -/
def ColRun.stage (r : ColRun) (ph : Phase) : ColRun :=
  let w := (upFrom 0 r.e.descs.length).foldl (fun (r : ColRun) i =>
    let d := (r.e.descs.getD i 0).toNat
    let f := wireFactor d ph
    if ph.pre ∧ ¬ cdWide d then r
    else
      (heldLines d ph.pre r.e.rank (ph.ax + 1)).foldl (fun (a : ColRun × Nat) l =>
        let x := (FMap.find a.1.e.kept (lineKey i l)).getD {}
        ((upFrom 0 f).foldl (fun (r : ColRun) h =>
          let k := f * a.2 + h
          let v := getBits x.data (512 * h) 512
          if 64 * k + 64 ≤ cdPartialBytes d then { r with g := r.g.write (cdStage d + 64 * k) 0 64 v x.pz }
          else { r with e := { r.e with excess := r.e.excess.put (lineKey i k) { data := v, pz := x.pz } } }) a.1, a.2 + 1))
        (r, 0) |>.1) { r with e := { r.e with excess := [] } }
  { w with e := { w.e with kept := [] } }

/-! ## Sending -/

/-- A COLL packet (R211, Table 9.3). -/
def State.collPacket (s : State) (e : ColEntry) (dest : Nat) (ph : Phase) (x : Seg) (k v : Nat) (pz : Bool) : Packet :=
  { dst := BitVec.ofNat 16 dest, src := BitVec.ofNat 16 s.feid, tag := e.tag, opcode := opcodeOf false opCOLL 0, vc := 2,
    pz := pz, last := k + 1 == x.count,
    line := BitVec.ofNat 46 (packBits [(0, k), (10, x.num), (28, ph.num), (32, e.cid / 2 ^ 6 % 2 ^ 8), (40, e.cid % 2 ^ 6)]),
    payload := BitVec.ofNat 640 v }

/-- The Ladle position that reduces a segment (R199): where it has started; else by its number among the positions that were
active when the collective began, and among those left where that one has been disabled since. -/
def State.segPosition (s : State) (e : ColEntry) (num : Nat) : Option Nat :=
  match FMap.find e.started num with
  | some (p, _) => some p
  | none =>
    match e.positions[num % e.positions.length]? with
    | none => none
    | some p =>
      let left := e.positions.filter fun q => s.posState q != 2
      if s.posState p ≠ 2 then some p else left[num % left.length]?

/-- Whether a segment has a slot of the collective at its position, or finds a free one there (R199, R207). -/
def ColEntry.slotFor (e : ColEntry) (pos num : Nat) : Bool :=
  (FMap.find e.started num).isSome || e.res == 2
    || decide ((e.started.filter fun x => x.2.1 == pos && x.2.2 != 0).length < e.slots)

/-- A line of a segment has been taken: the segment's slot is free once the last one has. -/
def ColEntry.took (e : ColEntry) (x : Seg) (pos : Nat) : ColEntry :=
  let left := match FMap.find e.started x.num with
    | some (_, n) => n
    | none => x.count
  { e with started := e.started.put x.num (pos, left - 1) }

/-- Whether reduction work waits at a position (R184): a packet of a running reduce-scatter phase that it can take. -/
def State.reductionWaits (s : State) (k : Nat) : Bool :=
  s.swc.localq.any fun q =>
    let num := getBits q.pkt.line.toNat 10 18
    q.pkt.op == opCOLL && (match s.colFind (partOf q.pkt.tag) (lineCid q.pkt) with
      | some (_, e) => q.pkt.tag == s.tagOf e.part && e.abort.isNone && e.running && (match e.phaseNow with
          | some ph => ph.kind == 0 && ph.num == getBits q.pkt.line.toNat 28 4 && s.segPosition e num == some k
              && e.slotFor k num
          | none => false)
      | none => false)

/-- Whether a position's cells take no reduction work in this quantum: kernel work has it (R184), or the shed level withholds it
(R366). -/
def State.cellsBusy (s : State) (k : Nat) : Bool :=
  (s.lpos k).quantum == 4 || ((s.lpos k).quantum == 2 && s.kernelRuns k)

/-- In spill mode an arriving partial and the local operand pass through the entry's window in HBM (R205): two lines for each wire
line of a phase, around the window (DESIGN CHOICE, log entry 73). -/
def State.spill (s : State) (h n a : Nat) (pa : Bool) (b : Nat) (pb : Bool) : State :=
  let w := s.fld R.COL_SPILL.WINDOW_MIB * 2 ^ 14
  if w = 0 then s
  else
    let at_ := s.fld R.COL_SPILL.BASE_MIB * 2 ^ 14 + h * w + 2 * n % w
    ((((s.putBytes (64 * at_) (lineBytes (BitVec.ofNat 512 a))).setPoison at_ pa).putBytes (64 * at_ + 64)
      (lineBytes (BitVec.ofNat 512 b)))).setPoison (at_ + 1) pb

/-- Send a collective packet, reduce traffic through the array port of its segment's position (R12, R18); a member that cannot
be reached aborts the collective (R219). -/
def State.colSend (s : State) (h : Nat) (p : Packet) : State :=
  if s.memberLost p.dst.toNat then s.colAbort h 0x10
  else s.sendPacket p false (if p.op = opCOLL then
    (s.colAt h).bind fun e => s.segPosition e (getBits p.line.toNat 10 18) else none)

/-- What a failed access does (Table 9.8, R218): the record of a translation fault, and the abort. A refusal by the Sieve is
taken as an operand that cannot be translated (log entry 31). -/
def State.colFailed (s : State) (h : Nat) (e : ColEntry) (f : EngFail) : State :=
  let s := s.opXlateRecord f e.thread e.tag e.pc
  match f with
  | .status n => s.colAbort h (if n = sHOST ∨ n = sTIMEOUT then 0x1A else 0x16)
  | .check d => s.colAbort h d
  | .fault .. => s.colAbort h 0x16

/-- Write back what a collective at work has become: its entry, and its abort where an access failed. -/
def ColRun.done (r : ColRun) (h : Nat) : State :=
  let e := { r.e with ports := r.e.ports ++ r.g.ports.filter (fun n => !r.e.ports.contains n) }
  let s := r.g.s.setCol h e
  match r.g.fail with
  | some f => s.colFailed h e f
  | none => s

/-! ## Agreements (R208 to R210) -/

/-- Key of a READY value: step, round, sender. -/
def readyKey (step round feid : Nat) : Nat := (4 * step + round) * 65536 + feid

/-- The members of this member's ring on the `i`-th of A0, A1, A2. -/
def ColEntry.ringFeids (e : ColEntry) (i : Nat) : List Nat :=
  (ring e.desc e.rank ((cdAxes e.desc).getD i 0)).map e.feid

/-- Whether a member is ready for a coming step by agreement. -/
def ColEntry.isReady (e : ColEntry) : Bool :=
  e.abort.isNone && !e.running && !e.done && !e.waits && e.res != 0 && !e.missing && e.byAgreement && e.agreed.isNone

/-- Send READY of a round to the other members of its ring. -/
def State.sendReady (s : State) (h : Nat) (e : ColEntry) (round t : Nat) (ok : Bool) : State :=
  let me := e.feid e.rank
  let e := { e with rounds := round, waitAt := s.tick, ready := e.ready.put (readyKey e.step round me) (t, ok) }
  let s := s.setCol h e
  ((e.ringFeids (round - 1)).filter (· != me)).foldl (fun s f =>
    if s.memberLost f then s.colAbort h 0x10 else s.colCtl e f 2 e.step round ok false t) s

/-- Give up the plan lock where this collective holds it. -/
def State.unlockCol (s : State) (e : ColEntry) : State :=
  if s.opt.lock = some (.coll e.part e.cid) then s.setLock none else s

/-- Carry an agreement on as far as the READY values held allow: `fuel` rounds. With F = 1 it requests the switch at T (R208,
R260). -/
def State.agree (h : Nat) : Nat → State → State
  | 0, s => s
  | fuel + 1, s =>
    match s.colAt h with
    | none => s
    | some e =>
      if !e.isReady then s
      else
        let xchg := match e.phaseNow with | some p => p.kind == 3 | none => false
        if e.rounds = 0 then
          let mine : LockBy := .coll e.part e.cid
          let plan := e.stepPlan.getD 0xFF
          let can := s.flag (R.COL_PART_CFG.LP_EN e.part) && (s.opt.lock == none || s.opt.lock == some mine)
            && s.planValid plan && s.timeState != tsLOST
          let (any, s) := if xchg then s.fresh else (b2n can, s)
          let s := if can ∧ ¬ xchg then s.setLock (some mine) else s
          State.agree h fuel (s.sendReady h e 1 s.tick (any % 2 == 1))
        else
          let vals := (e.ringFeids (e.rounds - 1)).map fun f => FMap.find e.ready (readyKey e.step e.rounds f)
          if vals.any Option.isNone then s
          else
            let l := vals.filterMap id
            let m := maxOf (l.map (·.1))
            let f := l.all (·.2)
            if e.rounds < (cdAxes e.desc).length then State.agree h fuel (s.sendReady h e (e.rounds + 1) m f)
            else
              let skipped := !f && !xchg
              let e := { e with agreed := some (m, f), flags := if skipped then e.flags ||| 2 else e.flags }
              let t := m + s.fld R.COL_CTL.LEAD_PLAN
              let switches := f && !xchg && decide (s.tick ≤ t)
              let e := if switches then { e with before := if e.moved then e.before else s.fld R.OPT_PLAN_STATUS.CUR, moved := true }
                else e
              let s := s.setCol h e
              let s := if skipped then s.raise R.COL_EVENTS.LP_SKIPPED else s
              let s := if skipped ∧ ¬ e.moved then s.unlockCol e else s
              if t < s.tick then s.colAbort h 0x1B
              else if switches then (s.askSwitch (e.stepPlan.getD 0) t (.agreed e.part e.cid)).moveMet t
              else s

/-- Carry an agreement on. -/
def State.colAdvance (s : State) (h : Nat) : State := State.agree h 5 s

/-- The last phase has ended with no closing step to come: the collective is done. -/
def ColEntry.closed (e : ColEntry) : ColEntry := if e.phaseNow.isNone ∧ e.stepPlan.isNone then { e with done := true } else e

/-- The entry after a phase. -/
def ColEntry.nextPhase (e : ColEntry) (ph : Phase) : ColEntry :=
  ({ e with phase := e.phase + 1, running := false, got := 0, gotFrom := [], started := [], rounds := 0, agreed := none,
            asked := false, switched := false, lastPlan := ph.plan e.desc,
            src := if ph.kind = 0 ∧ ¬ ph.pre then [] else e.src } : ColEntry).closed

/-- End the running phase where every expected line has come (R208): partials go to the staging area. -/
def ColRun.phaseEnd (r : ColRun) (ph : Phase) : ColRun :=
  if r.g.fail.isSome ∨ r.e.abort.isSome ∨ ¬ r.e.running ∨ r.e.got ≠ r.e.expected ph then r
  else
    let r := if ph.kind = 0 ∧ ph.ax + 1 < (cdAxes r.e.desc).length then r.stage ph
      else { r with e := { r.e with excess := [] } }
    if r.g.fail.isSome then r else { r with e := r.e.nextPhase ph }

/-- The wire data of a result that a later phase carries (R202). -/
def ColEntry.carried (e : ColEntry) (pre : Bool) (i l : Nat) : Nat × Bool :=
  if pre then (e.expLine i l, false)
  else
    let x := (FMap.find e.results (lineKey i l)).getD {}
    (x.data, x.pz)

/-- Bring this member's own block of ALLGATHER, or ROOT's data of BROADCAST, in before its first phase. -/
def ColRun.ownData (r : ColRun) (ph : Phase) : ColRun :=
  let first := r.e.phase == 0
  (upFrom 0 r.e.descs.length).foldl (fun (r : ColRun) i =>
    let d := (r.e.descs.getD i 0).toNat
    let lines := if ¬ first then [] else if cdOp d = 4 ∧ ph.kind = 1 then upFrom (r.e.rank * cdLines d) (cdLines d)
      else if cdOp d = 5 ∧ r.e.rank = cdRoot d then upFrom 0 (cdLines d) else []
    let base := if cdOp d = 4 then r.e.rank * cdLines d else 0
    lines.foldl (fun (r : ColRun) l =>
      let (g, v, p) := r.g.lineP (cdSrc d 0 + 64 * (l - base))
      { r with g := g }.result i l v p) r) r

/-- A line that several sources make is a work item of the position of its segment (R192 to R194): `run` is how it goes. -/
def ColRun.combine (r : ColRun) (x : Seg) (l : Nat) (h : Hop) (run : ItemRun) : ColRun × Hop :=
  match r.g.s.segPosition r.e x.num with
  | none => (r, h)
  | some pos =>
    let (s, c) := r.g.s.checkItem pos (max r.g.level r.e.chk.toNat) run (Config.itemCrc false r.e.cid l)
    let s := s.retireCells (s.fld (R.LDL_POS_STATUS.PHYS pos)) c.retire
    if c.usable then ({ r with g := { r.g with s := s } }, { h with flags := h.flags ||| c.flags })
    else ({ r with g := r.g.stop s (.check 0x15) }, h)

/-- What a member sends at a phase's start: the segments that start with it. `runs`: how the work items that sum its sources go,
line by line; one that is not given passes its checks. -/
def ColRun.initial (r : ColRun) (ph : Phase) (runs : List ItemRun) : ColRun × List (Seg × Nat × Nat × Bool) :=
  let d := r.e.desc
  let n := cdDim d (ph.axis d)
  let c := coord d r.e.rank (ph.axis d)
  let a := ((r.e.segs ph).filter fun x => x.start n ph.kind == c).foldl
    (fun (a : ColRun × List (Seg × Nat × Nat × Bool) × List ItemRun) x =>
      (upFrom 0 x.count).foldl (fun (a : ColRun × List (Seg × Nat × Nat × Bool) × List ItemRun) k =>
        let (r, out, runs) := a
        let (l, half) := r.e.wireLine ph x k
        let d := (r.e.descs.getD x.desc 0).toNat
        if ph.kind = 0 then
          let (r, h, p) := ({ r with g := { r.g with level := 0 } } : ColRun).localPart ph x.desc l half
          let item := decide (ph.ax = 0 ∧ 1 < cdNsrc d)
          let (r, h) := if item ∧ r.g.fail.isNone then r.combine x l h (runs.headD {}) else (r, h)
          (r.note d h, out ++ [(x, k, h.data, p)], if item then runs.tail else runs)
        else
          let (v, p) := r.e.carried ph.pre x.desc l
          (r, out ++ [(x, k, v, p)], runs)) a) (r, [], runs)
  (a.1, a.2.1)

/-- The peer that a segment goes to next. -/
def ColEntry.nextPeer (e : ColEntry) (ph : Phase) (x : Seg) : Nat :=
  let d := e.desc
  let a := ph.axis d
  e.feid (onAxis d e.rank a (x.next (cdDim d a) (coord d e.rank a)))

/-- A phase of a reduce-class collective starts (R208): its first segments are sent. -/
def State.startPhase (s : State) (h : Nat) (e : ColEntry) (ph : Phase) (hs : List HostAnswer) (runs : List ItemRun) : State :=
  let e := { e with running := true, got := 0, gotFrom := [], started := [], waitAt := s.tick,
                    startTick := some (e.startTick.getD s.tick) }
  let r : ColRun := { g := s.eng e.tag hs e.op, e := e }
  let (r, out) := (r.ownData ph).initial ph runs
  let r := r.phaseEnd ph
  let s := r.done h
  if r.g.fail.isSome then s
  else (out.foldl (fun s o => s.colSend h (s.collPacket e (e.nextPeer ph o.1) ph o.1 o.2.1 o.2.2.1 o.2.2.2)) s).colAdvance h

/-! ## Exchanges (R213, R214) -/

/-- The rank at a ring distance on the first axis of ORDER. -/
def atDistance (d rank : Nat) (k : Int) : Nat :=
  let a := getBits (cdOrder d) 0 2
  onAxis d rank a (((coord d rank a : Int) + k) % (cdDim d a : Int)).toNat

/-- A word of an ALLTOALLV record: 0 SCOUNT, 1 SDISPL, 2 RCOUNT, 3 RDISPL. -/
def ColEntry.vec (e : ColEntry) (r w : Nat) : Nat := getBits (e.table.getD r 0) (32 * w) 32

/-- Table 9.5: receivers of this member's blocks in the order r + 1, r + 2, … (mod N), with the line count and first source
line of each. -/
def ColEntry.xSends (e : ColEntry) : List (Nat × Nat × Nat) :=
  let d := e.desc
  let n := cdN d
  let all := (upFrom 1 n).map fun k => (e.rank + k) % n
  if cdOp d = 8 then all.map fun r => (r, cdCount d, cdCount d * r)
  else if cdOp d = 9 then all.map fun r => (r, e.vec r 0, e.vec r 1)
  else if cdOp d = 10 then [(atDistance d e.rank (cdShift d), cdCount d, 0)]
  else [(e.table.getD e.rank 0, cdCount d, 0)].filter fun x => decide (x.1 < n)

/-- Table 9.5: the lines expected from a rank, none where nothing is expected from it. -/
def ColEntry.xExpect (e : ColEntry) (r : Nat) : Option Nat :=
  let d := e.desc
  if cdOp d = 8 then some (cdCount d)
  else if cdOp d = 9 then some (e.vec r 2)
  else if cdOp d = 10 then (if atDistance d e.rank (-(cdShift d)) = r then some (cdCount d) else none)
  else if e.table.getD r e.members.length = e.rank then some (cdCount d) else none

/-- Table 9.5: the first line of a rank's area in DST. -/
def ColEntry.xBase (e : ColEntry) (r : Nat) : Nat :=
  if cdOp e.desc = 8 then cdCount e.desc * r else if cdOp e.desc = 9 then e.vec r 3 else 0

/-- Lines received from a rank. -/
def ColEntry.xGot (e : ColEntry) (r : Nat) : Nat := FMap.get (fun _ => 0) e.lines r

/-- A line of an exchange arrives from a rank (R214). -/
def ColRun.xLine (r : ColRun) (from_ off v : Nat) (pz : Bool) : ColRun :=
  let n := (r.e.xExpect from_).getD 0
  let k := r.e.xGot from_
  let r := { r with e := { r.e with lines := FMap.set (fun _ => 0) r.e.lines from_ (k + 1) } }
  if off < n ∧ k < n then r.put (cdDst r.e.desc + 64 * (r.e.xBase from_ + off)) v pz else r

/-- The exchange ends once XDONE has come from every sender and every announced line has been performed (R214). -/
def ColEntry.xEnd (e : ColEntry) : ColEntry :=
  let rs := upFrom 0 e.members.length
  let senders := rs.filter fun r => (e.xExpect r).isSome
  if ¬ e.running ∨ e.blocks ≠ [] ∨ !senders.all fun r => (match FMap.find e.announced r with
      | some n => decide (n ≤ e.xGot r)
      | none => false) then e
  else
    let wrong := rs.any fun r => (match FMap.find e.announced r with
      | some n => n != (e.xExpect r).getD 0
      | none => false)
    let bad := wrong || (cdOp e.desc == 11 && decide (1 < senders.length))
    let e := if bad then { e with status := sCHECK, detail := 4 } else e
    match e.phaseNow with
    | some ph => e.nextPhase ph
    | none => e

/-- An XCHG packet (R211, Table 9.3). -/
def State.xchgPacket (s : State) (e : ColEntry) (dest k v : Nat) (last pz : Bool) : Packet :=
  { dst := BitVec.ofNat 16 dest, src := BitVec.ofNat 16 s.feid, tag := e.tag, opcode := opcodeOf false opXCHG 0, vc := 3,
    pz := pz, last := last,
    line := BitVec.ofNat 46 (packBits [(0, k % 2 ^ 32), (32, e.cid / 2 ^ 6 % 2 ^ 8), (40, e.cid % 2 ^ 6)]),
    payload := BitVec.ofNat 640 v }

/-- Whether a packet of an exchange's block to a member still waits in this module's Switch Core. -/
def State.blockOut (s : State) (e : ColEntry) (dest : Nat) : Bool :=
  (s.swc.linkq ++ s.swc.holdq ++ s.swc.stalled ++ s.swc.transq).any fun q =>
    q.pkt.op == opXCHG && q.pkt.tag == e.tag && lineCid q.pkt == e.cid % 2 ^ 14 && q.pkt.src.toNat == s.feid
      && q.pkt.dst.toNat == e.feid dest

/-- The packets of blocks are sent, each block's followed by XDONE (R213). -/
def State.sendBlocks (s : State) (h : Nat) (e : ColEntry) (bs : List (Nat × List Packet)) : State :=
  bs.foldl (fun (s : State) b =>
    let s := b.2.foldl (fun (s : State) p => if ((s.colAt h).bind (·.abort)).isSome then s else s.colSend h p) s
    if ((s.colAt h).bind (·.abort)).isSome then s else s.colCtl e (e.feid b.1) 4 0 0 false false b.2.length) s

/-- An exchange goes on (R213): of its blocks at most FANOUT are in progress; one is until the last of its packets has left. -/
def State.exchangeGo (s : State) (h : Nat) : State :=
  match s.colAt h with
  | none => s
  | some e =>
    if !e.running || e.blocks == [] then s
    else
      let out := e.sending.filter (s.blockOut e)
      let go := e.blocks.take (s.fld R.COL_XCHG_MODE.FANOUT - out.length)
      let s := s.setCol h { e with blocks := e.blocks.drop go.length, sending := out ++ go.map (·.1) }
      let s := s.sendBlocks h e go
      match s.colAt h with
      | some e => (s.setCol h e.xEnd).colAdvance h
      | none => s

/-- An exchange starts (R213): its blocks are read and made ready, this member's own block is copied, and the first blocks go out. -/
def State.startExchange (s : State) (h : Nat) (e : ColEntry) (hs : List HostAnswer) : State :=
  let e := { e with running := true, waitAt := s.tick, startTick := some (e.startTick.getD s.tick), blocks := [], sending := [] }
  let r : ColRun := { g := s.eng e.tag hs e.op, e := e }
  let r := e.xSends.foldl (fun (r : ColRun) x =>
    let (dest, n, first) := x
    let (r, ps) := (upFrom 0 n).foldl (fun (a : ColRun × List Packet) k =>
      let (r, ps) := a
      let (g, v, p) := r.g.lineP (cdSrc e.desc 0 + 64 * (first + k))
      let r := { r with g := g }
      if g.fail.isSome then (r, ps)
      else if dest = e.rank then (r.xLine dest k v p, ps)
      else (r, ps ++ [g.s.xchgPacket e (e.feid dest) k v (k + 1 == n) p])) (r, [])
    if r.g.fail.isSome then r
    else if dest = e.rank then { r with e := { r.e with announced := r.e.announced.put dest n } }
    else { r with e := { r.e with blocks := r.e.blocks ++ [(dest, ps)] } }) r
  if r.g.fail.isSome then r.done h
  else ((({ r with e := r.e.xEnd } : ColRun).done h).colAdvance h).exchangeGo h

/-! ## Missing inputs (R219) -/

/-- The members that this one waits for: ring neighbours that still owe lines of the running phase, members that owe lines or XDONE
of the running exchange, or members of the ring whose READY of the round is missing. -/
def ColEntry.owed (e : ColEntry) : List Nat :=
  if e.abort.isSome then []
  else match e.running, e.phaseNow with
  | true, some ph =>
    if ph.kind = 3 then
      ((upFrom 0 e.members.length).filter fun r => r != e.rank && (e.xExpect r).isSome && (match FMap.find e.announced r with
        | some n => decide (e.xGot r < n)
        | none => true)).map e.feid
    else
      let d := e.desc
      let a := ph.axis d
      let c := coord d e.rank a
      let n := cdDim d a
      ([e.feid (onAxis d e.rank a ((c + n - 1) % n)), e.feid (onAxis d e.rank a ((c + 1) % n))].eraseDups).filter fun f =>
        decide (FMap.get (fun _ => 0) e.gotFrom f < e.expectedFrom ph f)
  | _, _ =>
    if e.isReady && e.rounds != 0 then
      (e.ringFeids (e.rounds - 1)).filter fun f => (FMap.find e.ready (readyKey e.step e.rounds f)).isNone
    else []

/-- Whether no collective packet has come for STALL_TICKS from a member that one is expected from (R219). -/
def State.colStalled (s : State) (e : ColEntry) : Bool :=
  e.owed.any fun f => decide (max e.waitAt ((FMap.find e.rx f).getD 0) + s.fld R.COL_CTL.STALL_TICKS ≤ s.tick)

/-- A collective packet has come from a member. -/
def ColEntry.heardFrom (e : ColEntry) (f now : Nat) : ColEntry := { e with rx := e.rx.put f now }

/-! ## Reservations (R205, R206) -/

/-- Whether a request for slots can be granted: enough free collective-side slots at every active position, and no request
with a lower grant key waits. -/
def State.grantable (s : State) (part cid slots : Nat) : Bool :=
  let key := cid * 64 + part
  (s.active.all fun k =>
    decide (s.fld (R.LDL_POS_STATUS.CRES k) + max (s.fld (R.LDL_POS_STATUS.KSLOTS k)) (s.fld R.LDL_STORE_SPLIT.KERNEL_SLOTS)
      + slots ≤ 96))
    && !(s.col.entries.any fun x => x.2.res == 0 && decide (x.2.cid * 64 + x.2.part < key))
    && !(s.col.rsvs.any fun x => x.res == 0 && decide (x.cid * 64 + x.part < key))

/-- Reserve slots at every active position. -/
def State.reserve (s : State) (slots : Nat) : State :=
  s.active.foldl (fun s k => s.addFld (R.LDL_POS_STATUS.CRES k) slots) s

/-- Release slots at positions. -/
def State.unreserve (s : State) (held : List Nat) (slots : Nat) : State :=
  held.foldl (fun s k => s.setFld (R.LDL_POS_STATUS.CRES k) (s.fld (R.LDL_POS_STATUS.CRES k) - slots)) s

/-- Send JOIN to every ring neighbour (R207). -/
def State.sendJoins (s : State) (e : ColEntry) : State :=
  e.neighbours.foldl (fun s f => s.colCtl e f 1 0 0 false (e.res == 2) 0) s

/-- The reservation is decided: JOINs go out, and the first step may be agreed. -/
def State.decided (s : State) (h : Nat) (e : ColEntry) : State := ((s.setCol h e).sendJoins e).colAdvance h

/-- An entry becomes free: its slots and the plan lock are given up, and family changes become possible. -/
def State.freeCol (s : State) (h : Nat) (e : ColEntry) : State :=
  let s := s.unreserve e.held e.slots
  let s := { s with col := { s.col with entries := s.col.entries.del h } }
  (s.setReg (R.COL_ENTRY.adr h) 0).colNote

end Sys2Proof.Machine
end

