-- ==== Sys2Proof/Machine/Access.lean ====
section
/-! DEFINITION. Who may reach which control-space offset (Table 1.8, R25, R311). -/

namespace Sys2Proof.Machine

open Sys2Proof

/-- Whether partition `p` is mapped to port `h` (R311). -/
def State.mapped (s : State) (h p : Nat) : Bool := bitOf (s.reg (R.HST_PART_MAP.adr h)).toNat p

/-- Whether a BAR0 request reaches the page and the status lines of a partition: mapped to the port and, where the request
carries a PASID, the partition that the PASID maps to (R311, R312). -/
def State.reaches (s : State) (h : Nat) (pasid : Option (BitVec 20)) (p : Nat) : Bool :=
  s.mapped h p && (match pasid with
    | none => true
    | some x => (upFrom 0 64).any fun i => s.flag (R.HST_PASID.VALID h i) && s.fld (R.HST_PASID.PASID h i) == x.toNat
        && s.fld (R.HST_PASID.PART h i) == p)

/-- The registers of a port page that a BAR0 write may reach (R311). -/
def barWritable (off h : Nat) : Bool :=
  off == R.HST_FENCE.adr h || off == R.HST_FENCE_STATUS.adr h || off == R.HST_EVENTS.adr h

/-- While no settings bank is valid, only PROGRAM proceeds from the management port (R379): beside it, the model lets the debug line
commands act, with which the image reaches HBM (DEDUCED, log entry 69). -/
def unsetWritable (off : Nat) : Bool :=
  off == R.MGT_SET_CMD.adr || off == R.MGT_SET_STATUS.adr || off == R.TEL_DBG_ADDR.adr || off == R.TEL_DBG_CMD.adr
    || decide (0x3A10000 ≤ off ∧ off < 0x3A10040)

/-- Whether an access of a requester to an offset is visible and allowed (Table 1.8); BAR0 is served from the end of Cruise C1
(R302). -/
def State.sees (s : State) (via : Via) (off : Nat) (write : Bool) : Bool :=
  match via with
  | .mgmt => !(write && s.flag R.MGT_SET_STATUS.NONE) || unsetWritable off
  | .jtag => true
  | .bar0 h id =>
    if s.fld R.GLB_CRUISE_STATUS.PHASE < 2 then false
    else if off < 0x4000 then !write
    else if 0x200000 ≤ off ∧ off < 0x300000 then s.reaches h id ((off - 0x200000) / 0x4000)
    else if 0xF00000 + 0x4000 * h ≤ off ∧ off < 0xF04000 + 0x4000 * h then !write || barWritable off h
    else if 0x3100000 ≤ off ∧ off < 0x3140000 then
      !write && s.reaches h id (s.fld (R.SEQ_WATCH_CFG.PART ((off - 0x3100000) / 64)))
    else false

/-- Count a denied BAR0 access (R25). -/
def State.denied (s : State) (via : Via) : State :=
  match via with
  | .bar0 h _ => s.count (R.HST_COUNTS0.DENIED h)
  | _ => s

/-- Perform a write to an offset where the requester may, else count the denial (R25). -/
def State.gate (s : State) (via : Via) (off : Nat) (f : State → State) : State :=
  if s.sees via off true then f s else s.denied via

end Sys2Proof.Machine
end

