-- ==== Sys2Proof/Machine/HomeCmds.lean ====
section
/-! DEFINITION. Requests at their home (R102, R116, R120 to R129), and the host's answers (R317). -/

namespace Sys2Proof.Machine

open Sys2Proof

/-! ## Loads -/

/-- The roster position of a reader in a partition's roster (R120). -/
def State.rosterAt (s : State) (p feid : Nat) : Option Nat :=
  (upFrom 0 64).find? fun i => s.flag (R.HOM_RS_ROSTER.VALID p i) && s.fld (R.HOM_RS_ROSTER.FEID p i) == feid

/-- Key of a sharer map: Sieve entry index and partition (R120). -/
def mapKey (i p : Nat) : Nat := 64 * i + p

/-- Replace the Sharer Table, and its count of maps. -/
def State.setSharers (s : State) (m : FMap (BitVec 64)) : State :=
  ({ s with home := { s.home with sharers := m } }).setFld R.HOM_SHARER_STATUS.MAPS m.length

/-- A load in an RS region by a module of the roster sets its bit in the entry's sharer map, where the map exists or its
set has a free way; else the load is uncacheable (R120). The answer is the new state, and whether the load is cacheable. -/
def State.share (s : State) (i p feid : Nat) : State × Bool :=
  match s.rosterAt p feid with
  | none => (s, false)
  | some j =>
    let k := mapKey i p
    match FMap.find s.home.sharers k with
    | some m => (s.setSharers (s.home.sharers.put k (m ||| BitVec.ofNat 64 (2 ^ j))), true)
    | none =>
      let used := (s.home.sharers.filter fun e => Config.sharerSet e.1 % 8192 == Config.sharerSet k % 8192).length
      if 8 ≤ used then (s.count R.HOM_SHARER_STATUS.UNCACHED, false)
      else (s.setSharers (s.home.sharers.put k (BitVec.ofNat 64 (2 ^ j))), true)

/-- How a load from entry `i` is answered: the state, and whether it is cacheable (R120). -/
def State.shareAt (s : State) (i : Nat) (p : Packet) : State × Bool :=
  if seMode (s.sieveEntry i) = 1 then s.share i (partOf p.tag) p.src.toNat else (s, false)

/-- Perform a load: the line from HBM, POISON with PZ where it is poisoned, or a request to the host (R102, R131). -/
def State.loadAt (s : State) (p : Packet) (pl : Place) (e : Ecc) : State :=
  match pl with
  | .hbm h i =>
    let s := s.hbmRead h e (some (p.line.toNat, p.sub.toNat))
    if s.isPoison h then s.respond p sPOISON (s.readLine h).toNat true (s.isSealedLine h)
    else
      let (s, c) := s.shareAt i p
      s.sendPacket { p.reply s.feid sOK (s.readLine h).toNat with cacheable := c } (s.isSealedLine h)
  | .host n hpa i =>
    let (s, c) := s.shareAt i p
    s.loadHost p n hpa c

/-- Whether a request to a place must wait for a host port with 1,024 non-posted requests outstanding (R315). -/
def State.hostFull (s : State) : Place → Bool
  | .hbm .. => false
  | .host n _ _ => decide (1024 ≤ s.nonPosted n)

/-- Whether a load must wait for an earlier store to its line (R104). -/
def State.loadBehind (s : State) (p : Packet) : Place → Bool
  | .hbm h _ => s.behindStore h none p
  | .host .. => false

/-- A load at its home. -/
def State.load (s : State) (p : Packet) (e : Ecc) : State :=
  match s.judgeAt p with
  | (s1, .inl st) => (s1.takeLocal p).respond p st 0
  | (s1, .inr pl) => if s.hostFull pl || s.loadBehind p pl then s else (s1.takeLocal p).loadAt p pl e

/-- READ_REQUEST (R102). `e`: what the line's check finds (R346). -/
def execReadRequest (p : Packet) (e : Ecc) (s : State) : Result :=
  .next (if p.op = opREAD then s.load p e else s)

/-- BREAD_REQUEST (R102): a Skidder line read is a load. -/
def execBreadRequest (p : Packet) (e : Ecc) (s : State) : Result :=
  .next (if p.op = opBREAD then s.load p e else s)

/-! ## Stores -/

/-- A store at its home. Where the mirror's asynchronous copies are at their limit, or an earlier synchronously mirrored
operation on the line makes an order necessary that only the mirror can confirm, the packet stays where it is. -/
def State.store (s : State) (p : Packet) : State :=
  match s.judgeAt p with
  | (s1, .inl st) => (s1.takeLocal p).respond p st 0
  | (s1, .inr (.hbm h i)) => if s.storeWaits i then s else (s1.takeLocal p).storeHbm none p h i
  | (s1, .inr (.host n hpa _)) => (s1.takeLocal p).storeHost p n hpa

/-- WRITE_REQUEST (R102, R127, R128). -/
def execWriteRequest (p : Packet) (s : State) : Result := .next (if p.op = opWRITE then s.store p else s)

/-- BWRITE_REQUEST (R102): a Skidder line write is a store. -/
def execBwriteRequest (p : Packet) (s : State) : Result := .next (if p.op = opBWRITE then s.store p else s)

/-- WB_REQUEST (R124): an owner's write-back is a store. -/
def execWbRequest (p : Packet) (s : State) : Result := .next (if p.op = opWB then s.store p else s)

/-! ## Atomic-class requests -/

/-- An atomic or reduction at its home (R116); it waits behind a mirrored operation on the line, and behind a host atomic
on it. -/
def State.atomic (s : State) (p : Packet) (fail : Bool) : State :=
  match s.judgeAt p with
  | (s1, .inl st) => (s1.takeLocal p).respond p st 0
  | (s1, .inr (.hbm h i)) =>
    if s.mirrorBusy h then s
    else (s1.takeLocal p).ledgered p fun s w =>
      if p.op = opATOM then s.atomHbm p w h i fail else s.redHbm p w h i fail
  | (s1, .inr (.host n hpa _)) =>
    if s.hostLineBusy n hpa || decide (1024 ≤ s.nonPosted n) then s
    else (s1.takeLocal p).ledgered p fun s w => s.atomHost p w n hpa

/-- ATOM_REQUEST (R116, R111, R112). `fail`: the lockstep units differ on both runs (R343). -/
def execAtomRequest (p : Packet) (fail : Bool) (s : State) : Result :=
  .next (if p.op = opATOM then s.atomic p fail else s)

/-- RED_REQUEST (R116, R111). -/
def execRedRequest (p : Packet) (fail : Bool) (s : State) : Result :=
  .next (if p.op = opREDADD ∨ p.op = opREDMIN ∨ p.op = opREDMAX then s.atomic p fail else s)

/-- Set the OWNER of a Sieve entry (R123). -/
def State.setOwner (s : State) (i owner : Nat) : State :=
  let e := putBits (s.sieveEntry i) 92 16 owner
  { s with siv := { s.siv with table := FMap.set (fun _ => 0) s.siv.table i (BitVec.ofNat 128 e) } }

/-- Judge an ownership request (Table 6.7): status, RESULT and the new OWNER. -/
def ownJudge (acq : Bool) (owner feid : Nat) : Nat × Nat × Nat :=
  if acq then
    if owner = 0xFFFF ∨ owner = feid then (sOK, 0, feid) else (sNORES, owner, owner)
  else if owner = feid then (sOK, 0, 0xFFFF) else (sNORES, owner, owner)

/-- Judge and record an ownership request on entry `i`; `done` completes it (R123, R129, Table 6.7). -/
def State.ownAt (s : State) (p : Packet) (i : Nat) (done : State → Nat → Nat → Nat → State) : State :=
  s.ledgered p fun s w =>
    let e := s.sieveEntry i
    if seMode e ≠ 2 then done s w sDENY 0
    else
      let (st, res, owner) := ownJudge (p.op == opOWNACQ) (seOwner e) p.src.toNat
      let s := if owner = seOwner e then s else s.setOwner i owner
      done s w st res

/-- An ownership request at its home (R123, R129). -/
def State.ownership (s : State) (p : Packet) : State :=
  match s.judgeAt p with
  | (s1, .inl st) => (s1.takeLocal p).respond p st 0
  | (s1, .inr (.hbm h i)) =>
    if s.mirrorBusy h then s
    else (s1.takeLocal p).ownAt p i fun s w st res => s.atomDone p w h i st res
  | (s1, .inr (.host _ _ i)) => (s1.takeLocal p).ownAt p i fun s w st res => (s.record p w st res).respond p st res

/-- OWN_ACQ_REQUEST (R123). -/
def execOwnAcqRequest (p : Packet) (s : State) : Result := .next (if p.op = opOWNACQ then s.ownership p else s)

/-- OWN_REL_REQUEST (R123). -/
def execOwnRelRequest (p : Packet) (s : State) : Result := .next (if p.op = opOWNREL then s.ownership p else s)

/-! ## Invalidation -/

/-- The sharers of a map, as FEIDs of the partition's roster. -/
def State.sharersOf (s : State) (m : BitVec 64) (p : Nat) : List (BitVec 16) :=
  ((upFrom 0 64).filter fun i => m.getLsbD i).map fun i => BitVec.ofNat 16 (s.fld (R.HOM_RS_ROSTER.FEID p i))

/-- The invalidation that a home sends to a sharer (R122, Table 7.3). -/
def Packet.inv (p : Packet) (me size rtag : Nat) (dest : BitVec 16) : Packet :=
  let gran := p.bmc.toNat % 2
  let n := granLines size
  { dst := dest, src := BitVec.ofNat 16 me, tag := p.tag, opcode := opcodeOf false opINV 0, vc := 6,
    line := if gran = 1 then BitVec.ofNat 46 (p.line.toNat / n * n) else p.line, sub := p.sub,
    eng := BitVec.ofNat 7 rtag, slot := BitVec.ofNat 8 (rtag / 128), bmc := BitVec.ofNat 16 (gran + 2 * size) }

/-- An INVL has every acknowledgement: it completes OK, and a GRANULE one frees the map (R122, R120). -/
def State.invlDone (s : State) (k : Track) : State :=
  let s := if k.req.bmc.toNat % 2 = 1 then
      s.setSharers (s.home.sharers.del (mapKey k.entry (partOf k.req.tag))) else s
  s.respond k.req sOK 0

/-- An INVL at its home (R122, R158). -/
def State.invl (s : State) (p : Packet) : State :=
  match s.judgeAt p with
  | (s, .inl st) => (s.takeLocal p).respond p st 0
  | (s, .inr pl) =>
    let s := s.takeLocal p
    let i := match pl with | .hbm _ i => i | .host _ _ i => i
    let e := s.sieveEntry i
    if seMode e = 0 then s.respond p sOK 0
    else if seMode e ≠ 1 then s.respond p sDENY 0
    else if 1024 ≤ s.home.tracker.length then s.respond p sNORES 0
    else
      let m := (FMap.find s.home.sharers (mapKey i (partOf p.tag))).getD 0
      let (s, dest) := (s.sharersOf m (partOf p.tag)).foldl (fun (a : State × List (BitVec 16 × Nat)) f =>
        let (r, t) := a.1.ownTag
        (t, a.2 ++ [(f, r)])) (s, [])
      let k : Track := { req := p, entry := i, waiting := dest, line := (p.inv s.feid (seSize e) 0 0).line, start := s.tick,
                         limit := s.fld (R.SEQ_REQ_TIMEOUT.LOG2 (partOf p.tag)) }
      if dest = [] then s.invlDone k
      else
        let s := { s with home := { s.home with tracker := s.home.tracker ++ [k] } }
        dest.foldl (fun (s : State) x => s.sendPacket (p.inv s.feid (seSize e) x.2 x.1)) s

/-- INVL_REQUEST (R122). -/
def execInvlRequest (p : Packet) (s : State) : Result := .next (if p.op = opINVL then s.invl p else s)

/-- Whether a line of an endpoint lies in the range that an INV names (Table 7.3). -/
def Packet.covers (p : Packet) (home sub line : Nat) (tag : BitVec 16) : Bool :=
  let n := if p.bmc.toNat % 2 = 1 then granLines (getBits p.bmc.toNat 1 2) else 1
  p.src.toNat == home && p.sub.toNat == sub && p.tag == tag && decide (p.line.toNat ≤ line ∧ line < p.line.toNat + n)

/-- INV_REQUEST (R122): the sharer drops its copies, lets no fill under way be cached, and acknowledges. -/
def execInvRequest (p : Packet) (s : State) : Result :=
  .next <|
    if p.op ≠ opINV then s
    else if !s.intact p then (s.takeLocal p).respond p sCHECK 0
    else
      let s := s.takeLocal p
      if !p.bmcValid then s.respond p sCHECK 0
      else
        let s := s.rlcDrop fun l => !l.dirty && p.covers l.home.toNat l.sub.toNat l.line.toNat l.tag
        let meets := fun (q : Packet) => p.covers (s.homeOf q.dst.toNat q.line.toNat) q.sub.toNat q.line.toNat q.tag
        let mark := fun (e : Nat × Slot) => if meets e.2.pkt then (e.1, { e.2 with noFill := true }) else e
        let s := { s with slots := s.slots.map mark }
        s.respond p sOK 0

/-- Whether a response is to a request that went to module `dest` with request tag `r`: it comes from there, or from the module
that discarded the request as UNREACHABLE (R141). -/
def Packet.answers (p : Packet) (dest : BitVec 16) (r : Nat) : Bool :=
  p.rtag == r && (p.src == dest || p.status.toNat == sUNREACH)

/-- The tracked INVL that an acknowledgement belongs to. -/
def State.trackFor (s : State) (p : Packet) : Option Track :=
  s.home.tracker.find? fun k => k.req.tag == p.tag && k.req.sub == p.sub && k.line == p.line
    && k.waiting.any fun x => p.answers x.1 x.2

/-- Remove a tracked INVL. -/
def State.untrack (s : State) (k : Track) : State :=
  { s with home := { s.home with tracker := s.home.tracker.erase k } }

/-- SHARER_ACK (R122): the last acknowledgement completes the INVL; an unreachable sharer fails it. -/
def execSharerAck (p : Packet) (s : State) : Result :=
  .next <|
    match s.trackFor p with
    | none => s
    | some k =>
      if !s.intact p then s.takeLocal p else
      let s := s.takeLocal p
      if p.status ≠ 0 then ((s.untrack k).raise R.HOM_EVENTS.INVL_FAIL).respond k.req p.status.toNat 0
      else
        let k' := { k with waiting := k.waiting.filter fun x => !p.answers x.1 x.2 }
        if k'.waiting = [] then (s.untrack k).invlDone k'
        else { s with home := { s.home with tracker := s.home.tracker.map fun x => if x = k then k' else x } }

/-! ## Mirrors -/

/-- Whether this module's own entry accepts copies from a primary (R127). -/
def State.acceptsFrom (s : State) (i : Nat) (src : BitVec 16) : Bool :=
  seMir (s.sieveEntry i) != 0 && seMirror (s.sieveEntry i) == src.toNat

/-- MCOPY_REQUEST (R127): the mirror performs the copy on arrival and acknowledges it, or refuses it. -/
def execMcopyRequest (p : Packet) (s : State) : Result :=
  .next <|
    if p.op ≠ opMCOPY then s
    else match s.judgeAt p with
    | (s, .inl st) => (s.takeLocal p).respond p st 0
    | (s, .inr (.hbm h i)) =>
      let s := s.takeLocal p
      if s.acceptsFrom i p.src then
        let (s, st) := s.performStore p h
        s.respond p st 0
      else s.respond p sDENY 0
    | (s, .inr (.host ..)) => (s.takeLocal p).respond p sDENY 0

/-- MATOM_REQUEST (R129): the mirror writes the forwarded value without recomputing it and records the key, STATUS and
RESULT under its own tick. -/
def execMatomRequest (p : Packet) (s : State) : Result :=
  .next <|
    if p.op ≠ opMATOM then s
    else match s.judgeAt p with
    | (s, .inl st) => (s.takeLocal p).respond p st 0
    | (s, .inr (.hbm h i)) =>
      let s := s.takeLocal p
      if !s.acceptsFrom i p.src then s.respond p sDENY 0
      else match s.ledgerWay p.ledgerKey.set with
        | none => ((s.raise R.HOM_EVENTS.LEDGER_FULL).count R.HOM_LEDGER_COUNTS.FULL).respond p sNORES 0
        | some w =>
          let s := s.homeWrite h 0 64 p.data p.pz
          let s := s.record p w (getBits p.payload.toNat 536 4) (getBits p.payload.toNat 576 64)
          s.respond p sOK 0
    | (s, .inr (.host ..)) => (s.takeLocal p).respond p sDENY 0

/-- The oldest mirror operation that an acknowledgement belongs to. -/
def State.mirrorFor (s : State) (p : Packet) : Option MirrorOp :=
  s.home.mirror.find? fun m => p.answers m.mirror m.rtag && m.req.tag == p.tag && m.req.line == p.line && m.req.sub == p.sub
    && !(m.kind matches .waits _)

/-- A mirror operation leaves the list. -/
def State.mirrorGone (s : State) (m : MirrorOp) : State :=
  { s with home := { s.home with mirror := s.home.mirror.erase m } }

/-- A mirrored store of an engine ends with a status other than OK: the engine learns of the first one. -/
def State.engineFails (s : State) (who st : Nat) : State :=
  if (FMap.find s.home.engFail who).isSome then s
  else { s with home := { s.home with engFail := s.home.engFail.put who st } }

/-- Operations whose last mirrored store has ended are ended (R127): with OK status only where it was performed. -/
def State.settleClosing (s : State) : State :=
  (s.home.closing.filter fun c => !s.engineWaits (c.2.1 + 1)).foldl (fun (s : State) c =>
    let (t, op, st, d) := c
    let f := FMap.find s.home.engFail (op + 1)
    let s := { s with home := { s.home with closing := s.home.closing.erase c } }
    match f with
    | some x => s.closeOp t op x (engDetail x)
    | none => s.closeOp t op st d) s

/-- MIRROR_ACK (R127 to R129): the primary performs and completes the store, or completes the atomic; a refused store is
not performed. -/
def execMirrorAck (p : Packet) (s : State) : Result :=
  .next <|
    match s.mirrorFor p with
    | none => s
    | some m =>
      if !s.intact p then s.takeLocal p else
      let s := s.takeLocal p
      let s := s.mirrorGone m
      let st := p.status.toNat
      let s := if st = sDENY then s.raise R.HOM_EVENTS.MIRROR_DENY else s
      match m.kind with
      | .async | .waits _ => s.settleWaits.settleClosing
      | .atomic status result => s.respond m.req status result
      | .engine who =>
        (if st = sOK ∨ st = sPOISON then (s.performStore m.req m.hline).1 else s.engineFails who st).settleClosing
      | .store =>
        if st = sOK ∨ st = sPOISON then
          let (s, st) := s.performStore m.req m.hline
          s.finish m.port m.req st
        else s.finish m.port m.req st

/-! ## Host memory -/

/-- HOST_FLUSH_READ (R102): a flush read for a batch of up to 16 writes to one port. -/
def execHostFlushRead (h : PortNo) (s : State) : Result :=
  .next <|
    let due := (s.home.hostWrites.filter fun w => w.port == h.val && w.batch == 0).take 16
    match due with
    | [] => s
    | w :: _ =>
      if 1024 ≤ s.nonPosted h then s
      else
        let n := s.home.nextBatch
        let id := match s.pasid h (partOf w.req.tag) with | .inr id => id | .inl _ => none
        let mark := fun (acc : List HostWrite × Nat) (x : HostWrite) =>
          if x.port == h.val && x.batch == 0 && decide (0 < acc.2) then (acc.1 ++ [{ x with batch := n }], acc.2 - 1)
          else (acc.1 ++ [x], acc.2)
        let ws := (s.home.hostWrites.foldl mark ([], 16)).1
        let s := s.send (.hostFlush h id)
        { s with home := { s.home with hostWrites := ws, nextBatch := n + 1,
                                       flushes := s.home.flushes ++ [{ port := h, batch := n, start := s.tick }] } }

/-- The writes of a batch complete with a status (R317). -/
def State.batchDone (s : State) (f : Flush) (status : Nat) : State :=
  let ws := s.home.hostWrites.filter fun w => w.port == f.port && w.batch == f.batch
  let s := { s with home := { s.home with
    flushes := s.home.flushes.erase f,
    hostWrites := s.home.hostWrites.filter fun w => !(w.port == f.port && w.batch == f.batch) } }
  ws.foldl (fun s w =>
    (if status = sOK then s else s.hostError f.port).respond w.req status 0) s

/-- HOST_FLUSH_COMPLETION (R317): the oldest flush read of a port is answered. -/
def execHostFlushCompletion (h : PortNo) (a : HostAnswer) (s : State) : Result :=
  .next <|
    match s.home.flushes.find? fun f => f.port == h.val with
    | none => s
    | some f =>
      match a with
      | .success bad _ =>
        (s.poisonCame h bad).batchDone f sOK
      | .unsupported => s.batchDone f sHOST
      | .abort => s.batchDone f sHOST

/-- A host request ends: the status, the data or old value, and poison (R317). -/
def State.hostAnswer (s : State) (r : HostReq) (status : Nat) (data : Line) : State :=
  let s := { s with home := { s.home with hostReqs := s.home.hostReqs.erase r } }
  let s := if status = sOK ∨ status = sPOISON then s.poisonCame r.port (status == sPOISON) else s.hostError r.port
  let p := r.req
  if p.op = opATOM then
    let w := typeWidth (getBits p.bmc.toNat 6 3)
    let res := if status = sOK then data.toNat % 2 ^ (8 * w) else 0
    let s := match r.way with
      | some way => s.record p way status res
      | none => s
    s.respond p status res
  else if status = sPOISON then
    s.respond p sPOISON data.toNat true
  else
    s.sendPacket { p.reply s.feid status (if status = sOK then data.toNat else 0) with cacheable := r.cacheable && status == sOK }

/-- The oldest request of a port at a host address. -/
def State.hostReqAt (s : State) (h hpa : Nat) : Option HostReq :=
  s.home.hostReqs.find? fun r => r.port == h && r.hpa == hpa

/-- HOST_COMPLETION (R317): the host answers a read or an AtomicOp. -/
def execHostCompletion (h : PortNo) (hpa : Nat) (a : HostAnswer) (s : State) : Result :=
  .next <|
    match s.hostReqAt h hpa with
    | none => s
    | some r =>
      match a with
      | .success bad d => s.hostAnswer r (if bad then sPOISON else sOK) d
      | .unsupported => s.hostAnswer r sHOST 0
      | .abort => s.hostAnswer r sHOST 0

/-- HOST_COMPLETION_TIMEOUT (R317): no completion within the port's completion timeout, of a flush read or of the request at
an address; where in its range the timeout lies is not in the spec. -/
def execHostCompletionTimeout (h : PortNo) (flush : Bool) (hpa : Nat) (s : State) : Result :=
  .next <|
    if flush then
      match s.home.flushes.find? fun f => f.port == h.val with
      | none => s
      | some f => if s.ctoPast h f.start then (s.raise (R.HST_EVENTS.HOST_CTO h)).batchDone f sHOST else s
    else
      match s.hostReqAt h hpa with
      | none => s
      | some r => if s.ctoPast h r.start then (s.raise (R.HST_EVENTS.HOST_CTO h)).hostAnswer r sHOST 0 else s

/-- LEDGER_READ (R115, Table 6.13): entry INDEX is loaded into the data registers. -/
def execLedgerRead (via : Via) (s : State) : Result :=
  .next <| s.gate via R.HOM_LEDGER_ACC_CMD.adr fun s =>
    if s.flag R.HOM_LEDGER_ACC_CMD.BUSY then s
    else
      let e := s.ledgerEntry (s.fld R.HOM_LEDGER_ACC_IDX.INDEX)
      (upFrom 0 4).foldl (fun s k => s.setFld (R.HOM_LEDGER_ACC_DATA.DATA k) (getBits e (64 * k) 64)) s

end Sys2Proof.Machine
end

