-- ==== Sys2Proof/Machine/Watch.lean ====
section
/-! DEFINITION. Watch lines: arming, evaluation, delivery, errors (R55 to R60), and their commands. -/

namespace Sys2Proof.Machine

open Sys2Proof

/-- Watch lines enabled on host port `h` (R56). One that stands in ERROR does not count: HST_PORT_STATUS.WATCH, which shows
the number, reaches no more than 1,024 (Table 13.8; DEDUCED, log entry 64). -/
def State.watchCount (s : State) (h : Nat) : Nat :=
  (s.watch.filter fun e => decide (1 ≤ e.2.state ∧ e.2.state ≤ 4) && s.fld (R.SEQ_WATCH_ADDR.TARGET e.1) == h + 1).length

/-- Keep HST_PORT_STATUS.WATCH of the watch line's port. -/
def State.noteWatch (s : State) (w : Nat) : State :=
  let tgt := s.fld (R.SEQ_WATCH_ADDR.TARGET w)
  if tgt = 0 then s else s.setFld (R.HST_PORT_STATUS.WATCH (tgt - 1)) (s.watchCount (tgt - 1))

/-- A parked thread wakes with a status: WAIT.W ends and its status word is written (R252). -/
def State.wakeParked (s : State) (t status : Nat) : State :=
  let s := (s.runnable t).setPc t (s.pc t + 8)
  (s.writeStatus t (s.thr t).waitReg (statusWord status)).takeHeld t

/-- SEQ of a work record (Table 3.5). -/
def recSeq (l : Line) : BitVec 32 := BitVec.ofNat 32 l.toNat

/-- Whether a line holds a valid work record (R58). -/
def recValid (l : Line) : Bool :=
  let n := l.toNat
  getBits n 56 8 == 1 && decide (getBits n 48 8 ≤ 52)
    && getBits n 480 32 == (crc32c ((lineBytes l).take 60)).toNat

/-- The statistics of a delivery (R59). -/
def State.delivered (s : State) (w : Nat) (snap : Line) : State :=
  let x := s.wl w
  let seq := if s.flag (R.SEQ_WATCH_CFG.MODE w) then recSeq snap else x.lastSeq
  s.setWl w { x with lastSeq := seq, wakes := x.wakes + 1, lastWake := BitVec.ofNat 64 s.tick }

/-- Deliver a snapshot to a thread: wake buffer, LAST_SEQ, WAKES, LAST_WAKE_TICK (R59). -/
def State.deliverSnap (s : State) (w t : Nat) (snap : Line) : State :=
  (s.setThr t { s.thr t with wake := snap }).delivered w snap

/-- An evaluation has found work with content `snap` (Table 3.4). -/
def State.watchWork (s : State) (w : Nat) (snap : Line) : State :=
  let x := s.wl w
  if x.state = 4 then
    let s := s.deliverSnap w x.thread snap
    let s := s.setWl w { s.wl w with state := 2, thread := 0, deadline := 0 }
    s.wakeParked x.thread 0
  else s.setWl w { x with state := 3, snap := snap }

/-- Evaluate a line's content under the watch line's MODE (R58). -/
def State.evaluate (s : State) (w : Nat) (l : Line) : State :=
  let x := s.wl w
  if !(x.state == 2 || x.state == 3 || x.state == 4) then s
  else if !s.flag (R.SEQ_WATCH_CFG.MODE w) then s.watchWork w l
  else
    let ref := if x.state = 3 then recSeq x.snap else x.lastSeq
    if !recValid l then s.setWl w { x with rejected := x.rejected + 1 }
    else if recSeq l = ref then s.setWl w { x with spurious := x.spurious + 1 }
    else
      let s := if recSeq l = ref + 1 then s else s.setWl w { x with skipped := x.skipped + 1 }
      s.watchWork w l

/-- A watch line enters ERROR; a parked thread wakes with HOST_ERROR (R56, R57). -/
def State.watchError (s : State) (w : Nat) : State :=
  let x := s.wl w
  let s := s.setWl w { x with state := 5, thread := 0, deadline := 0, reading := false }
  let s := (s.raise R.SEQ_EVENTS.WATCH_ERROR).noteWatch w
  if x.state = 4 then s.wakeParked x.thread 0xB else s

/-- A watch line is disabled; a parked thread wakes with ABORTED (R57). -/
def State.watchDisable (s : State) (w : Nat) : State :=
  let x := s.wl w
  let s := s.setFld (R.SEQ_WATCH_CFG.ENABLE w) 0
  let s := s.setWl w { x with state := 0, thread := 0, deadline := 0, snap := 0, reading := false }
  let s := { s with reports := s.reports.filter (· != w) }
  let s := s.noteWatch w
  if x.state = 4 then s.wakeParked x.thread 7 else s

/-- Whether host port `h` can hold watch lines: enabled, its link up, CXL.cache enabled on both sides (R56, R318). -/
def State.cacheUp (s : State) (h : Nat) : Bool :=
  s.flag (R.HST_PORT_CFG.CACHE_EN h) && s.flag (R.HST_PORT_STATUS.CACHE_ON h) && s.fld (R.HST_PORT_STATUS.LINK h) == 2

/-- The first value is taken without a wake; in RECORD mode LAST_SEQ follows it (R59). -/
def State.watchFirst (s : State) (w : Nat) (l : Line) : State :=
  let x := s.wl w
  let seq := if s.flag (R.SEQ_WATCH_CFG.MODE w) then (if recValid l then recSeq l else 0) else x.lastSeq
  s.setWl w { x with state := 2, lastSeq := seq, reading := false }

/-- Every watch line that targets port `h` in ARMING to PARKED enters ERROR (R57). -/
def State.watchPortDown (s : State) (h : Nat) : State :=
  (FMap.keys s.watch).foldl (fun s w =>
    if s.fld (R.SEQ_WATCH_ADDR.TARGET w) = h + 1 ∧ 1 ≤ (s.wl w).state ∧ (s.wl w).state ≤ 4 then s.watchError w else s) s

/-! ## Commands -/

/-- WATCH_ENABLE (R57, R56, R60): a write to SEQ_WATCH_CFG with ENABLE = 1. -/
def execWatchEnable (via : Via) (w : Fin 4096) (mode : Bool) (part : PartNo) (s : State) : Result :=
  .next <| s.gate via (R.SEQ_WATCH_CFG.adr w) fun s =>
    if s.flag (R.SEQ_WATCH_CFG.ENABLE w) then
      if s.fld (R.SEQ_WATCH_CFG.MODE w) = b2n mode ∧ s.fld (R.SEQ_WATCH_CFG.PART w) = part.val then s
      else s.raise R.SEQ_EVENTS.CFG_BUSY
    else
      let tgt := s.fld (R.SEQ_WATCH_ADDR.TARGET w)
      let line := s.fld (R.SEQ_WATCH_ADDR.LINE w)
      let s := ((s.setFld (R.SEQ_WATCH_CFG.MODE w) (b2n mode)).setFld (R.SEQ_WATCH_CFG.PART w) part).setFld
        (R.SEQ_WATCH_CFG.ENABLE w) 1
      let bad := if tgt = 0 then !s.visible (64 * line) 64
        else decide (1024 ≤ s.watchCount (tgt - 1)) || !s.cacheUp (tgt - 1)
      let s := s.setWl w { state := if bad then 5 else 1, lastSeq := (s.wl w).lastSeq, reading := decide (tgt ≠ 0) && !bad }
      if bad then s.raise R.SEQ_EVENTS.WATCH_ERROR
      else if tgt = 0 then s
      else (s.noteWatch w).send (.rdShared (tgt - 1) line)

/-- WATCH_DISABLE (R57): a write to SEQ_WATCH_CFG with ENABLE = 0, whose MODE and PART take effect. -/
def execWatchDisable (via : Via) (w : Fin 4096) (mode : Bool) (part : PartNo) (s : State) : Result :=
  .next <| s.gate via (R.SEQ_WATCH_CFG.adr w) fun s =>
    let s := if s.flag (R.SEQ_WATCH_CFG.ENABLE w) then s.watchDisable w else s
    (s.setFld (R.SEQ_WATCH_CFG.MODE w) (b2n mode)).setFld (R.SEQ_WATCH_CFG.PART w) part

/-- WATCH_ARMED (R59): the first value of an arming line; for a host line `host` is the data of the RdShared, none
where the host refuses it (R56). -/
def execWatchArmed (w : Fin 4096) (host : Option Line) (s : State) : Result :=
  .next <|
    if (s.wl w).state ≠ 1 then s
    else if s.fld (R.SEQ_WATCH_ADDR.TARGET w) = 0 then s.watchFirst w (s.readLine (s.fld (R.SEQ_WATCH_ADDR.LINE w)))
    else match host with
      | some l => s.watchFirst w l
      | none => s.watchError w

/-- WATCH_EVALUATE (R55, R58): the oldest report of a performed write on the line is evaluated. -/
def execWatchEvaluate (w : Fin 4096) (s : State) : Result :=
  .next <|
    if s.reports.contains w.val then
      ({ s with reports := s.reports.erase w.val }).evaluate w (s.readLine (s.fld (R.SEQ_WATCH_ADDR.LINE w)))
    else s

/-- WATCH_DEADLINE (R57): the deadline tick of a parked thread has passed; the thread wakes with TIMEOUT. -/
def execWatchDeadline (w : Fin 4096) (s : State) : Result :=
  .next <|
    let x := s.wl w
    if x.state = 4 ∧ x.deadline ≠ 0 ∧ x.deadline ≤ s.tick then
      (s.setWl w { x with state := 2, thread := 0, deadline := 0 }).wakeParked x.thread 5
    else s

/-- Watch lines that hold a line of host memory in Shared state (R318). -/
def State.sharedBy (s : State) (h : Nat) (line : Nat) : List Nat :=
  (s.watch.filter fun e => decide (2 ≤ e.2.state ∧ e.2.state ≤ 4) && !e.2.reading
    && s.fld (R.SEQ_WATCH_ADDR.TARGET e.1) == h + 1 && s.fld (R.SEQ_WATCH_ADDR.LINE e.1) == line).map (·.1)

/-- SNP_INV (R318): a held line is answered as a hit, invalidated and read again; any other is a miss. -/
def execSnpInv (h : PortNo) (line : BitVec 46) (s : State) : Result :=
  .next <|
    let ws := s.sharedBy h line.toNat
    let s := s.send (.snoopRsp h line.toNat !ws.isEmpty)
    ws.foldl (fun s w => (s.setWl w { s.wl w with reading := true }).send (.rdShared h line.toNat)) s

/-- SNP_DATA (R318): hit in Shared, the line stays Shared, no evaluation. -/
def execSnpData (h : PortNo) (line : BitVec 46) (s : State) : Result :=
  .next (s.send (.snoopRsp h line.toNat !(s.sharedBy h line.toNat).isEmpty))

/-- SNP_CUR (R318): hit in Shared, the line stays Shared, no evaluation. -/
def execSnpCur (h : PortNo) (line : BitVec 46) (s : State) : Result :=
  .next (s.send (.snoopRsp h line.toNat !(s.sharedBy h line.toNat).isEmpty))

/-- WATCH_REREAD_DATA (R55): the data of a re-read returns and is evaluated; a host error puts the line in ERROR. -/
def execWatchRereadData (w : Fin 4096) (host : Option Line) (s : State) : Result :=
  .next <|
    let x := s.wl w
    if x.reading ∧ 2 ≤ x.state ∧ x.state ≤ 4 then
      match host with
      | some l => (s.setWl w { x with reading := false }).evaluate w l
      | none => s.watchError w
    else s

end Sys2Proof.Machine
end

