-- ==== Sys2Proof/Machine/ThreadCmds.lean ====
section
/-! DEFINITION. Thread commands (R50, R51, Table 3.3) and the instruction caches (R61 to R63). -/

namespace Sys2Proof.Machine

open Sys2Proof

/-- The register through which a thread command arrives: SEQ_THREAD_CMD, or PRT_THREAD_CMD of a partition's page. -/
def cmdOffset (page : Option PartNo) (t : ThreadNo) : Nat :=
  match page with
  | none => R.SEQ_THREAD_CMD.adr t
  | some p => R.PRT_THREAD_CMD.adr p

/-- A thread command is refused (R51, R9). -/
def State.cmdDeny (s : State) (page : Option PartNo) : State :=
  let s := s.raise R.SEQ_EVENTS.CMD_DENY
  match page with
  | none => s
  | some p => s.raise (R.PRT_STATUS.CMD_DENY p)

/-- Whether a thread may be commanded through a PRT page: it is assigned to the page's partition (R51). -/
def State.ownPage (s : State) (page : Option PartNo) (t : ThreadNo) : Bool :=
  match page with
  | none => true
  | some p => s.flag (R.SEQ_THREAD_CFG.ASSIGNED t) && s.tpart t == p.val

/-- Judge a thread command and perform it where it is accepted (R51). -/
def State.threadCmd (s : State) (via : Via) (page : Option PartNo) (t : ThreadNo) (ok : State → Bool)
    (f : State → State) : State :=
  s.gate via (cmdOffset page t) fun s => if s.ownPage page t && ok s then f s else s.cmdDeny page

/-- Whether START is accepted (Table 3.3). A partition that the Firebreak has killed stays halted while its reset waits (R69). -/
def State.canStart (s : State) (t : ThreadNo) : Bool :=
  s.tstate t == stHalted && !s.flag (R.SEQ_THREAD_STATUS.DRAINING t) && s.flag (R.SEQ_THREAD_CFG.ASSIGNED t)
    && s.flag (R.PRT_STATUS.ENABLED (s.tpart t)) && !s.flag (R.SEC_PART_STATUS.SEALING (s.tpart t))
    && !FMap.get (fun _ => false) s.sec.killed (s.tpart t)

/-- THREAD_START (R51). -/
def execThreadStart (via : Via) (page : Option PartNo) (t : ThreadNo) (s : State) : Result :=
  .next (s.threadCmd via page t (fun s => s.canStart t) fun s => (s.runnable t).takeHeld t)

/-- THREAD_HALT (R50, R51): accepted in every state. -/
def execThreadHalt (via : Via) (page : Option PartNo) (t : ThreadNo) (s : State) : Result :=
  .next (s.threadCmd via page t (fun _ => true) fun s => s.haltThread t)

/-- THREAD_RESUME (R51): the faulting instruction is issued again. -/
def execThreadResume (via : Via) (page : Option PartNo) (t : ThreadNo) (s : State) : Result :=
  .next (s.threadCmd via page t (fun s => s.tstate t == stFaulted) fun s => (s.runnable t).takeHeld t)

/-- THREAD_SKIP (R51): the instruction after the faulting one. -/
def execThreadSkip (via : Via) (page : Option PartNo) (t : ThreadNo) (s : State) : Result :=
  .next (s.threadCmd via page t (fun s => s.tstate t == stFaulted) fun s =>
    ((s.runnable t).setPc t (s.pc t + 8)).takeHeld t)

/-- THREAD_RESET (R50): halts, then clears what Table 10.1 clears. -/
def execThreadReset (via : Via) (page : Option PartNo) (t : ThreadNo) (s : State) : Result :=
  .next (s.threadCmd via page t (fun _ => true) fun s => (s.haltThread t).clearThread t)

/-! ## Instruction caches -/

/-- Key of an instruction-cache line: sequencer, FVA line, full tenancy tag (R62). -/
def icKey (sq line : Nat) (tag : BitVec 16) : Nat := (sq * 2 ^ 51 + line % 2 ^ 51) * 2 ^ 16 + tag.toNat

/-- The cached line that holds a thread's next instruction. -/
def State.icLine (s : State) (t : Nat) : Option Line := FMap.find s.icache (icKey (t / 16) (s.pc t / 64) (s.ttag t))

/-- The cached lines of one set of one sequencer's cache: 256 sets of 4 ways (R62; what chooses the set is log
entry 13). -/
def State.icSet (s : State) (sq line : Nat) : List Nat :=
  (FMap.keys s.icache).filter fun k => k / 2 ^ 67 == sq && Config.icacheSet (k / 2 ^ 16 % 2 ^ 51) % 256 == Config.icacheSet line % 256

/-- Fill an instruction-cache line; a full set gives up a way that the spec does not name (log entry 13). -/
def State.icFill (s : State) (sq line : Nat) (tag : BitVec 16) (data : Line) : State :=
  let key := icKey sq line tag
  let ways := (s.icSet sq line).filter (· != key)
  if ways.length < 4 then { s with icache := s.icache.put key data }
  else
    let (r, s) := s.fresh
    let out := ways[r % ways.length]?.getD 0
    { s with icache := (s.icache.del out).put key data }

/-- Remove a partition's lines from all 32 caches (R63). -/
def State.icDrop (s : State) (p : Nat) : State :=
  { s with icache := FMap.drop (fun k => k % 2 ^ 16 / 1024 == p) s.icache }

/-- ICACHE_INVALIDATE (R63). -/
def execIcacheInvalidate (via : Via) (p : PartNo) (s : State) : Result :=
  .next (s.gate via R.SEQ_ICACHE_INV.adr fun s => s.icDrop p)

/-- ICACHE_FILL (R61, R62): the miss of a thread WAITING with reason FETCH completes, or faults with FETCH_FAULT. -/
def execIcacheFill (t : ThreadNo) (s : State) : Result :=
  .next <|
    match (s.thr t).wait with
    | .fetch fva =>
      if s.tstate t ≠ stWaiting then s
      else match s.fetchLine t fva with
      | (s, some h) => ((s.icFill (t / 16) (fva / 64) (s.ttag t) (s.readLine h)).runnable t).takeHeld t
      | (s, none) => s.threadFault t 0x02 fva
    | _ => s

end Sys2Proof.Machine
end

