-- ==== Sys2Proof/Machine/Security.lean ====
section
/-! DEFINITION. Partitions, protected ranges, measurements, quotes, keys and sealed loads: the operations that the
commands of chapter 14 share (R323 to R341). -/

namespace Sys2Proof.Machine

open Sys2Proof

/-! ## Partitions (R324 to R326) -/

/-- A SEC command is refused or discarded (Table 14.13). -/
def State.secDeny (s : State) : State := s.raise R.SEC_EVENTS.CMD_DENY

/-- A SEC_PART_CMD ends with a status; any but OK is a refusal (R324). -/
def State.partResult (s : State) (p status : Nat) : State :=
  let s := s.setFld (R.SEC_PART_STATUS.RESULT p) status
  if status = sOK then s else s.secDeny

/-- A partition's generation. -/
def State.gen (s : State) (p : Nat) : Nat := s.fld (R.PRT_STATUS.GEN p)

/-- SEC_PART_RESET_AT: the tick at which R69 lets the next generation value come into use again, and not within a SEAL in
progress (R69, R324, R325). -/
def State.noteEarliest (s : State) (p : Nat) : State :=
  let next := (s.gen p + 1) % 1024
  let byGen := match FMap.get (fun _ => 0) s.sec.left (1024 * p + next) with
    | 0 => 0
    | t + 1 => t + 2 ^ 21
  let bySeal := match FMap.find s.sec.sealing p with
    | some t => t + 2 ^ 14 + 1
    | none => 0
  s.setReg (R.SEC_PART_RESET_AT.adr p) (BitVec.ofNat 64 (max byGen bySeal))

/-- Indices of a partition's ranges of a kind that are in use, ascending. -/
def State.rangesOf (s : State) (p kind : Nat) : List Nat :=
  (upFrom 0 256).filter fun i =>
    s.fld (R.SEC_RANGE.STATE i) != 0 && s.fld (R.SEC_RANGE.PART i) == p && s.fld (R.SEC_RANGE.KIND i) == kind

/-- The condition of step 3 of R324's order. -/
def State.mayMeasure (s : State) (p : Nat) : Bool :=
  (s.threadsOf p).all (fun t => s.tstate t == stHalted && !s.flag (R.SEQ_THREAD_STATUS.DRAINING t))
    && !(s.rangesOf p 0).isEmpty

/-- The status with which a SEAL is answered (R324). -/
def State.sealStatus (s : State) (p : Nat) : Nat :=
  if s.pstate p ≠ psOpen ∨ s.flag (R.SEC_PART_STATUS.SEALING p) then sCHECK
  else if ¬ s.flag R.SEC_STATUS.ID_OK then sNORES
  else if ¬ s.mayMeasure p then sCHECK
  else sOK

/-- The tick that a SEC_PART_CMD names: [53:0] from the command, [63:54] from GLB_TICK (Table 14.23). -/
def State.fullTick (s : State) (low : BitVec 54) : Nat := s.tick / 2 ^ 54 * 2 ^ 54 + low.toNat

/-- Whether RESET or DISABLE is accepted (Table 14.2). -/
def State.mayReset (s : State) (p T : Nat) : Bool :=
  (s.pstate p == psOpen || s.pstate p == psSealed) && !s.flag (R.SEC_PART_STATUS.PENDING p)
    && decide (s.tick + 2 ≤ T ∧ T ≤ s.tick + 2 ^ 20) && decide (s.earliest p ≤ T)

/-- Set SEC_RANGE_STATUS.SCRUBBING, and BUSY while scrubs run (Table 14.17). -/
def State.noteScrubs (s : State) : State :=
  let n := ((upFrom 0 256).filter fun i => s.fld (R.SEC_RANGE.STATE i) == 2).length
  (s.setFld R.SEC_RANGE_STATUS.SCRUBBING n).setFld R.SEC_RANGE_STATUS.BUSY (b2n (n != 0))

/-- Free a range index. -/
def State.freeRange (s : State) (i : Nat) : State := s.setReg (R.SEC_RANGE.adr i) 0

/-- Start the scrub of a SEALED range (R326). -/
def State.scrubRange (s : State) (i : Nat) : State := (s.setFld (R.SEC_RANGE.STATE i) 2).noteScrubs

/-- The content of an extent of HBM becomes 0, without poison. -/
def State.zeroBytes (s : State) (a n : Nat) : State :=
  { s with hbm := FMap.drop (fun k => decide (a ≤ k ∧ k < a + n)) s.hbm,
           poison := FMap.drop (fun k => decide (a / 64 ≤ k ∧ k < (a + n) / 64)) s.poison }

/-- SLOTS of a partition's status: the key slots in use (Table 14.24). -/
def State.noteSlots (s : State) (p : Nat) : State :=
  s.setFld (R.SEC_PART_STATUS.SLOTS p)
    (packBits ((upFrom 0 16).map fun n => (n, b2n (FMap.find s.sec.keys (16 * p + n)).isSome)))

/-- Clear a key slot (R337). -/
def State.clearSlot (s : State) (p n : Nat) : State :=
  ({ s with sec := { s.sec with keys := FMap.del s.sec.keys (16 * p + n) } }).noteSlots p

/-- Clear every key slot of a partition and destroy its ephemeral key pair (R326). -/
def State.clearKeys (s : State) (p : Nat) : State :=
  let s := { s with sec := { s.sec with keys := FMap.drop (fun k => k / 16 == p) s.sec.keys,
                                        pairs := FMap.del s.sec.pairs p } }
  (s.noteSlots p).setFld (R.SEC_PART_STATUS.EK p) 0

/-! ## Loads (R338, R339) -/

/-- The number of queued or running loads, as SEC_LOAD_STATUS shows it. -/
def State.noteLoads (s : State) : State := s.setFld R.SEC_LOAD_STATUS.QUEUED s.sec.loads.length

/-- A load completes: SEC_LOAD_STATUS (Table 14.22). -/
def State.loadStatus (s : State) (token status fail loaded : Nat) : State :=
  ((((s.setFld R.SEC_LOAD_STATUS.DONE_TOKEN token).setFld R.SEC_LOAD_STATUS.RESULT status).setFld
    R.SEC_LOAD_STATUS.FAIL_CHUNK fail).setFld R.SEC_LOAD_STATUS.LOADED loaded).raise R.SEC_LOAD_STATUS.DONE

/-- A load completes without having written the chunk that would fail; FAIL_CHUNK names none, so it is free. -/
def State.loadEnds (s : State) (token status loaded : Nat) : State :=
  let (f, s) := s.fresh
  s.loadStatus token status f loaded

/-- The key slot that a load names. -/
def State.loadKey (s : State) (l : Load) : Option KeySlot :=
  FMap.find s.sec.keys (16 * s.fld (R.SEC_RANGE.PART l.range) + l.slot)

/-- Free engines take the next chunks of the first load, until one of its chunks has failed (R338). -/
def State.startChunks (s : State) : State :=
  match s.sec.loads with
  | [] => s
  | l :: rest =>
    match s.loadKey l with
    | none => s
    | some key =>
      let idle := (upFrom 0 4).filter fun e => (FMap.find s.sec.engines e).isNone
      let n := if l.fail.isSome ∨ l.cleared then 0 else min idle.length (l.count - l.next)
      let started := (idle.take n).zip (upFrom l.next n)
      let eng := started.foldl (fun (m : FMap Chunk) (x : Nat × Nat) => FMap.put m x.1 { j := x.2, key := key }) s.sec.engines
      { s with sec := { s.sec with engines := eng, loads := { l with next := l.next + n } :: rest } }

/-- Whether the first load has come to its end: no chunk of it runs and none is to be started. -/
def State.loadOver (s : State) (l : Load) : Bool :=
  s.sec.engines.isEmpty && (decide (l.count ≤ l.next) || l.fail.isSome || l.cleared)

/-- End the first load where it has come to its end, and begin the next one (R338, R339). -/
def State.finishLoad (s : State) : State :=
  match s.sec.loads with
  | [] => s
  | l :: rest =>
    if ¬ s.loadOver l then s.startChunks
    else
      let s := { s with sec := { s.sec with loads := rest } }
      let s := match l.fail with
        | some (c, st) => s.loadStatus l.token st c l.loaded
        | none => if l.cleared ∧ l.next < l.count then s.loadStatus l.token sNORES (l.first + l.next) l.loaded
            else s.loadEnds l.token sOK l.loaded
      s.noteLoads.startChunks

/-- A load completes at once with ABORTED: its partition is reset (R326). -/
def State.abortLoads (s : State) (p : Nat) : State :=
  let mine := fun (l : Load) => s.fld (R.SEC_RANGE.PART l.range) == p
  let running := match s.sec.loads with | l :: _ => mine l | [] => false
  let gone := s.sec.loads.filter mine
  let s := { s with sec := { s.sec with loads := s.sec.loads.filter (fun l => !mine l),
                                        engines := if running then [] else s.sec.engines } }
  (gone.foldl (fun s l => s.loadEnds l.token sABORTED l.loaded) s).noteLoads.finishLoad

/-- Queued loads that name a cleared slot complete with NO_RESOURCE; the running one ends when its running chunks have
finished (R339). -/
def State.dropLoads (s : State) (p n : Nat) : State :=
  let named := fun (l : Load) => s.fld (R.SEC_RANGE.PART l.range) == p && l.slot == n
  match s.sec.loads with
  | [] => s
  | l :: rest =>
    let gone := rest.filter named
    let s := { s with sec := { s.sec with loads := { l with cleared := l.cleared || named l } :: rest.filter fun l => !named l } }
    (gone.foldl (fun s l => s.loadEnds l.token sNORES 0) s).noteLoads.finishLoad

/-- Whether an extent meets a range that a warm reset left to be scrubbed (R373). -/
def State.meetsOld (s : State) (a n : Nat) : Bool :=
  s.sec.oldScrubs.any fun e => decide (a < 65536 * (e.2.2.1 + e.2.2.2) ∧ 65536 * e.2.2.1 < a + n)

/-- Whether an extent lies in software-visible HBM outside every protected range. -/
def State.plainExtent (s : State) (a n : Nat) : Bool :=
  s.visible a n && !s.meetsOld a n && (upFrom 0 256).all fun i =>
    s.fld (R.SEC_RANGE.STATE i) == 0
      || decide (a + n ≤ 65536 * s.fld (R.SEC_RANGE.BASE i)
        ∨ 65536 * (s.fld (R.SEC_RANGE.BASE i) + s.fld (R.SEC_RANGE.SIZE i)) ≤ a)

/-- Why a load completes at once, writing nothing (R338); OK where it is queued. COUNT = 0 is a reserved encoding, refused
with CHECK_FAIL. -/
def State.loadRefusal (s : State) (range slot first count src : Nat) : Nat :=
  let p := s.fld (R.SEC_RANGE.PART range)
  if s.fld (R.SEC_RANGE.STATE range) ≠ 1 ∨ ¬ s.flag (R.SEC_RANGE.KIND range) ∨ s.pstate p ≠ psSealed ∨ count = 0
      ∨ s.fld (R.SEC_RANGE.SIZE range) < first + count ∨ ¬ s.plainExtent src (65600 * count) then sCHECK
  else if (FMap.find s.sec.keys (16 * p + slot)).isNone then sNORES
  else sOK

/-- How one chunk of a load fares (R338). -/
inductive ChunkEnd
  | good (plain : List Byte)
  /-- status, and whether it is the tag that fails -/
  | bad (status : Nat) (tag : Bool)
deriving DecidableEq, Repr

/-- Check and open the record of a chunk of a load (Table 14.8, R338). -/
def State.openChunk (s : State) (l : Load) (c : Chunk) : ChunkEnd :=
  let a := l.src + 65600 * c.j
  let h := s.bytes a 64
  let len := ofLeBytes ((h.drop 20).take 4)
  let zero (o n : Nat) : Bool := ((h.drop o).take n).all (· == 0)
  let ok := ofLeBytes (h.take 4) == 0x31435647 && zero 4 4 && zero 36 4 && zero 56 8
    && ofLeBytes ((h.drop 8).take 8) == c.key.id.toNat && ofLeBytes ((h.drop 16).take 4) == l.first + c.j
    && decide (64 ≤ len ∧ len ≤ 65536) && len % 64 == 0 && decide (l.first + c.j < s.fld (R.SEC_RANGE.SIZE l.range))
  if s.isPoison (a / 64) then .bad sPOISON false
  else if ¬ ok then .bad sCHECK false
  else if (upFrom (a / 64 + 1) (len / 64)).any s.isPoison then .bad sPOISON false
  else match Config.gcmOpen c.key.key ((h.drop 24).take 12) (h.take 24) (s.bytes (a + 64) len) ((h.drop 40).take 16) with
    | some plain => .good plain
    | none => .bad sCHECK true

/-- Write 64-byte lines from an HBM byte address, none of them poisoned afterwards. -/
def State.putLines (s : State) (a : Nat) (bs : List Byte) : State :=
  let s := s.putBytes a bs
  { s with poison := FMap.drop (fun k => decide (a / 64 ≤ k ∧ k < (a + bs.length) / 64)) s.poison }

/-! ## Measurements and quotes (R332 to R334) -/

/-- A measurement: 64 bytes of SHAKE256 (R332). -/
def measure (bs : List Byte) : Line := lineOf (Config.shake256 bs 64)

/-- The content of a partition's CODE ranges, in ascending range index (Table 14.4). -/
def State.codeBytes (s : State) (p : Nat) : List Byte :=
  (s.rangesOf p 0).flatMap fun i => s.bytes (65536 * s.fld (R.SEC_RANGE.BASE i)) (65536 * s.fld (R.SEC_RANGE.SIZE i))

/-- A bit per number for which a test holds. -/
def bitsOf (n : Nat) (f : Nat → Bool) : Nat := packBits ((upFrom 0 n).map fun i => (i, b2n (f i)))

/-- The partition configuration record (Table 14.5). -/
def State.partRecord (s : State) (p : Nat) : List Byte :=
  let ranges := (upFrom 0 256).filter fun i => s.fld (R.SEC_RANGE.STATE i) != 0 && s.fld (R.SEC_RANGE.PART i) == p
  let w (a : Nat) : List Byte := leBytes 8 (s.reg a).toNat
  leBytes 8 (packBits [(0, p), (16, s.gen p)])
    ++ w (R.SIV_PART.adr p) ++ w (R.LDL_PART_CFG.adr p) ++ w (R.COL_PART_CFG.adr p) ++ w (R.SEC_PART_CFG.adr p)
    ++ leBytes 64 (bitsOf 512 fun t => s.flag (R.SEQ_THREAD_CFG.ASSIGNED t) && s.tpart t == p)
    ++ leBytes 16 (bitsOf 128 fun k => s.flag (R.SEQ_SKID_CFG.ASSIGNED k) && s.fld (R.SEQ_SKID_CFG.PART k) == p)
    ++ leBytes 8 (bitsOf 4 (fun n => s.mapped n p)
        + 16 * bitsOf 4 fun n => s.fld (R.HST_PORT_CFG.DEFPART n) == p && s.flag (R.HST_PORT_CFG.DEF_EN n))
    ++ ranges.flatMap fun i => w (R.SEC_RANGE.adr i)

/-- A partition's encapsulation key, 1,184 bytes; 0 while it has none. -/
def State.ekBytes (s : State) (p : Nat) : List Byte :=
  match FMap.find s.sec.pairs p with
  | some k => leBytes 1184 k.ek.toNat
  | none => leBytes 1184 0

/-- The quote body (Table 14.6). -/
def State.quoteBody (s : State) (p : Nat) (nonce : BitVec 256) : List Byte :=
  let m (x : Line) : List Byte := leBytes 64 x.toNat
  let flags := packBits [(0, b2n (s.flag (R.PRT_STATUS.SEALED p))),
    (1, b2n (s.flag R.SEC_DEBUG_CTL.SESSION || s.flag R.SEC_DEBUG_CTL.JTAG)), (2, b2n s.sec.dbgBoot)]
  leBytes 4 0x31515647 ++ leBytes 2 1 ++ leBytes 1 p ++ leBytes 1 flags
    ++ leBytes 2 (s.gen p) ++ leBytes 2 s.feid
    ++ leBytes 4 (packBits [(0, s.fld R.SEC_STATUS.FW_SVN), (16, s.fld R.SEC_STATUS.FW_SLOT)])
    ++ leBytes 8 (s.fld R.GLB_ID.SERIAL) ++ leBytes 8 s.tick ++ leBytes 8 (s.fld R.SEC_DEBUG_EPOCH.EPOCH)
    ++ leBytes 4 (s.fld R.SEC_STATUS.SET_SEQ) ++ leBytes 4 0 ++ leBytes 32 nonce.toNat
    ++ m s.sec.mFw ++ m s.sec.mMicro ++ m s.sec.mSet ++ m (measure (s.partRecord p))
    ++ m (FMap.get (fun _ => 0) s.sec.mCode p) ++ m (FMap.get (fun _ => 0) s.sec.mEk p) ++ leBytes 48 0

/-- The context of a quote's signature (R333): "GVR-QUOTE-1". -/
def ctxQuote : List Byte := [0x47, 0x56, 0x52, 0x2D, 0x51, 0x55, 0x4F, 0x54, 0x45, 0x2D, 0x31]

/-- The 5,024 bytes of the output record (R334). The signature's random input is free. -/
def State.quoteRecord (s : State) (p : Nat) (nonce : BitVec 256) : List Byte × State :=
  let body := s.quoteBody p nonce
  let ek := s.ekBytes p
  let (r, s) := s.fresh
  (body ++ leBytes 3309 (Config.sign r body ctxQuote).toNat ++ leBytes 19 0 ++ ek, s)

/-- A module write to HBM, line by line (R102): a line written whole is poisoned no more. -/
def State.storeBytes (s : State) (a : Nat) : Nat → List Byte → State
  | 0, _ => s
  | n + 1, bs =>
    let h := a / 64
    let part := bs.take 64
    let keep := s.isPoison h && decide (part.length < 64)
    (s.homeWrite h 0 part.length (lineOf part) keep).storeBytes (a + 64) n (bs.drop 64)

/-- Whether DST may take a quote's output record (R334). -/
def State.quoteDst (s : State) (dst : Nat) : Bool := s.plainExtent dst 5024

/-- A SEC_QUOTE_CMD completes with a status. -/
def State.quoteResult (s : State) (status : Nat) : State :=
  ((s.setFld R.SEC_QUOTE_STATUS.BUSY 0).setFld R.SEC_QUOTE_STATUS.RESULT status).raise R.SEC_QUOTE_STATUS.DONE

/-- The last quote nonce of a partition is recorded (R333). -/
def State.keepNonce (s : State) (p : Nat) (nonce : BitVec 256) : State :=
  { s with sec := { s.sec with nonces := FMap.put s.sec.nonces p nonce } }

/-- The nonce that SEC_NONCE holds: bytes 0-31 in order (Table 14.15). -/
def State.nonceNow (s : State) : BitVec 256 :=
  BitVec.ofNat 256 (packBits ((upFrom 0 4).map fun k => (64 * k, s.fld (R.SEC_NONCE.NONCE k))))

/-! ## Key release (R336) -/

/-- The derivation label of R336: "GVR-KEK-1". -/
def labelKek : List Byte := [0x47, 0x56, 0x52, 0x2D, 0x4B, 0x45, 0x4B, 0x2D, 0x31]

/-- Whether a release record's fixed fields are right for a partition (Table 14.7). -/
def releaseOk (rr : List Byte) (p : Nat) : Bool :=
  let num (o n : Nat) : Nat := ofLeBytes ((rr.drop o).take n)
  num 0 4 == 0x31525647 && num 4 2 == 1 && num 6 1 == p && num 7 1 == 0 && num 1196 20 == 0

/-- The key that a release record carries, none where the GCM tag fails (R336). -/
def releaseKey (dk : BitVec 19200) (rr : List Byte) : Option (BitVec 256) :=
  let part (o n : Nat) : List Byte := (rr.drop o).take n
  let k := leBytes 32 (Config.kemDecaps dk (part 48 1088)).toNat
  let kek := BitVec.ofNat 256 (ofLeBytes (Config.shake256 (labelKek ++ k ++ part 0 48) 32))
  (Config.gcmOpen kek (part 1136 12) (part 0 48) (part 1164 32) (part 1148 16)).map fun key => BitVec.ofNat 256 (ofLeBytes key)

/-- How an unwrap ends: status, whether the tag failed, and the key (R336). -/
def State.unwrapEnd (s : State) (u : Unwrap) : Nat × Bool × Option KeySlot :=
  let rr := s.bytes u.src 1216
  if s.pstate u.part ≠ psSealed then (sNORES, false, none)
  else if (FMap.find s.sec.keys (16 * u.part + u.slot)).isSome then (sNORES, false, none)
  else if ¬ s.visible u.src 1216 ∨ ¬ releaseOk rr u.part then (sCHECK, false, none)
  else if u.nonce ≠ some (BitVec.ofNat 256 (ofLeBytes ((rr.drop 16).take 32))) then (sCHECK, false, none)
  else
    let dk := match FMap.find s.sec.pairs u.part with | some k => k.dk | none => 0
    match releaseKey dk rr with
    | none => (sCHECK, true, none)
    | some key => (sOK, false, some { key := key, id := BitVec.ofNat 64 (ofLeBytes ((rr.drop 8).take 8)) })

/-- A SEC_KEY_CMD completes with a status. -/
def State.keyResult (s : State) (status : Nat) : State :=
  ((s.setFld R.SEC_KEY_STATUS.BUSY 0).setFld R.SEC_KEY_STATUS.RESULT status).raise R.SEC_KEY_STATUS.DONE

/-! ## Ranges (R327) -/

/-- A SEC_RANGE_CMD completes; a refusal sets CMD_DENY. -/
def State.rangeResult (s : State) (status : Nat) : State :=
  let s := (s.setFld R.SEC_RANGE_STATUS.RESULT status).raise R.SEC_RANGE_STATUS.DONE
  if status = sOK then s else s.secDeny

/-- Whether ADD is accepted (R327). -/
def State.mayAdd (s : State) (i kind p base size : Nat) : Bool :=
  let clash := (upFrom 0 256).any fun k => s.fld (R.SEC_RANGE.STATE k) != 0
    && decide (base < s.fld (R.SEC_RANGE.BASE k) + s.fld (R.SEC_RANGE.SIZE k) ∧ s.fld (R.SEC_RANGE.BASE k) < base + size)
  let code := (s.rangesOf p 0).foldl (fun n k => n + s.fld (R.SEC_RANGE.SIZE k)) 0
  s.fld (R.SEC_RANGE.STATE i) == 0 && size != 0 && s.visible (65536 * base) (65536 * size) && !clash
    && !s.meetsOld (65536 * base) (65536 * size)
    && (if kind = 0 then s.pstate p == psOpen && !s.flag (R.SEC_PART_STATUS.SEALING p) && decide (code + size ≤ 1024)
        else s.pstate p == psOpen || s.pstate p == psSealed)

/-- The status with which REMOVE is answered (R327). -/
def State.removeStatus (s : State) (i : Nat) : Nat :=
  let p := s.fld (R.SEC_RANGE.PART i)
  let st := s.fld (R.SEC_RANGE.STATE i)
  if st = 0 then sCHECK
  else if st = 2 then sNORES
  else if ¬ s.flag (R.SEC_RANGE.KIND i) then
    if s.pstate p = psSealed ∨ s.flag (R.SEC_PART_STATUS.SEALING p) then sCHECK else sOK
  else if s.sec.loads.any fun l => l.range == i then sNORES
  else sOK

/-! ## A partition reset takes effect (R326) -/

/-- The Sequencer Complex (R54): threads, watch lines, instruction caches. -/
def State.resetThreads (s : State) (p : Nat) : State :=
  let s := (s.threadsOf p).foldl (fun (s : State) t =>
    let s := (s.haltThread t).clearThread t
    s.setThr t { s.thr t with ops := 0, reads := 0, opsFrom := s.issued }) s
  let s := (FMap.keys s.watch).foldl (fun (s : State) w =>
    if s.fld (R.SEQ_WATCH_CFG.PART w) = p ∧ (s.wl w).state ≠ 0 then s.watchDisable w else s) s
  s.icDrop p

/-- The Sieve (R96) and the Sharer Table (R120). -/
def State.resetSieve (s : State) (p : Nat) : State :=
  let s := ({ s with siv := { s.siv with cache := s.siv.cache.filter fun e => getBits e.1 41 6 != p } }).noteCached p
  let s := if s.flag (R.SIV_PART.EN p) then
      let r := (s.fld (R.SIV_PART.BASE p), 2 ^ s.fld (R.SIV_PART.LOG2B p))
      ({ s with siv := { s.siv with sweeps := s.siv.sweeps.put p r } }).setFld (R.SIV_PART_STATUS.SWEEP p) 1
    else s
  s.setSharers (FMap.drop (fun k => k % 64 == p) s.home.sharers)

/-- Kernels queued, running and ended of the partition go, without a record (R191). -/
def State.resetKernels (s : State) (p : Nat) : State :=
  let old := fun (k : Kernel) => partOf k.tag == p
  let s := (upFrom 0 16).foldl (fun (s : State) k =>
    let x := s.lpos k
    let run := match x.running with
      | some r => if old r.k then none else some r
      | none => none
    s.setLpos k { x with queue := x.queue.filter (fun q => !old q), running := run }) s
  { s with ldl := { s.ldl with ended := s.ldl.ended.filter fun k => !old k } }

/-- Block transfers of the partition go; their lines in flight are discarded, and so are the requests of its host ports
(R243, R351). -/
def State.resetTransfers (s : State) (p : Nat) : State :=
  let old := fun (d : SkdDesc) => partOf d.tag == p
  let skids := s.skids.map fun (e : Nat × Skid) =>
    (e.1, { e.2 with queue := e.2.queue.filter (fun d => !old d), run := e.2.run.filter fun r => !old r.desc })
  let kill := fun (x : Slot) => match x.owner with
    | .bucker .. => partOf x.pkt.tag == p
    | .host _ => partOf x.pkt.tag == p
    | _ => false
  { s with skids := skids, descs := s.descs.filter (fun d => partOf d.tag != p),
           slots := s.slots.map fun (e : Nat × Slot) => if kill e.2 then (e.1, { e.2 with dead := true }) else e }

/-- Collectives of the partition abort with DETAIL 0x17 (R219). -/
def State.resetCollectives (s : State) (p : Nat) : State :=
  s.col.entries.foldl (fun (s : State) e => if e.2.part = p then s.colAbort e.1 0x17 else s) s

/-- The security block (R326). -/
def State.resetSecurity (s : State) (p : Nat) : State :=
  let s := (s.abortLoads p).clearKeys p
  let s := { s with sec := { s.sec with nonces := FMap.del s.sec.nonces p, mCode := FMap.set (fun _ => 0) s.sec.mCode p 0,
                                        mEk := FMap.set (fun _ => 0) s.sec.mEk p 0, sealing := FMap.del s.sec.sealing p } }
  let s := (s.setFld (R.PRT_STATUS.SEALED p) 0).setFld (R.SEC_PART_STATUS.SEALING p) 0
  let s := (s.rangesOf p 0).foldl (fun (s : State) i => s.freeRange i) s
  (s.rangesOf p 1).foldl (fun (s : State) i => s.scrubRange i) s

/-- A partition reset takes effect: the generation increments and every block acts (R326). -/
def State.resetPartition (s : State) (p : Nat) : State :=
  let left := FMap.set (fun _ => 0) s.sec.left (1024 * p + s.gen p) (s.tick + 1)
  let old := s.tagOf p
  let s := { s with sec := { s.sec with left := left, resetAt := FMap.del s.sec.resetAt p,
                                        killed := FMap.set (fun _ => false) s.sec.killed p false } }
  let s := (s.setFld (R.SEC_PART_STATUS.PENDING p) 0).setFld (R.SEC_PART_STATUS.STATE p) psResetting
  let s := s.resetCollectives p
  let s := (((s.resetThreads p).resetSieve p).resetKernels p).resetTransfers p
  let s := s.rlcDrop fun l => l.tag == old
  let s := { s with home := { s.home with owned := s.home.owned.filter fun o => o.tag != old } }
  let s := s.setFld (R.PRT_STATUS.GEN p) ((s.gen p + 1) % 1024)
  ((s.resetSecurity p).noteEarliest p).recheck

/-- Whether a partition reset in progress has nothing left to do: no reset to come, no sweep, no scrub (R326). -/
def State.resetOver (s : State) (p : Nat) : Bool :=
  s.pstate p == psResetting && (FMap.find s.sec.resetAt p).isNone && (FMap.find s.siv.sweeps p).isNone
    && s.sec.oldScrubs.all (fun e => e.2.1 != p) && (s.rangesOf p 1).all fun i => s.fld (R.SEC_RANGE.STATE i) != 2

end Sys2Proof.Machine
end

