-- ==== Sys2Proof/Machine/Settings.lean ====
section
/-! DEFINITION. Banks of the settings store: header, records, and when a bank is valid (R331, R378, R379). -/

namespace Sys2Proof.Machine

open Sys2Proof

/-- Bytes `off`, ..., `off + n - 1` of an image. -/
def cut (img : List Byte) (off n : Nat) : List Byte := (img.drop off).take n

/-- A little-endian number in an image (R4). -/
def numAt (img : List Byte) (off n : Nat) : Nat := ofLeBytes (cut img off n)

/-- Whether bytes are all 0. -/
def allZero (l : List Byte) : Bool := l.all (· == 0)

/-- Fields of a bank header (Table 16.8). -/
def hdrSeq (img : List Byte) : Nat := numAt img 8 4
def hdrLength (img : List Byte) : Nat := numAt img 12 4

/-- A settings record: TYPE and value (Table 16.9). -/
abbrev Rec := Nat × List Byte

/-- The records that fill a body exactly; none where they do not (Table 16.9). The first argument bounds their number. -/
def records : Nat → List Byte → Option (List Rec)
  | _, [] => some []
  | 0, _ => none
  | n + 1, body =>
    let len := numAt body 4 4
    let padded := (len + 7) / 8 * 8
    if body.length < 8 + padded ∨ ¬ allZero (cut body 2 2) ∨ ¬ allZero (cut body (8 + len) (padded - len)) then none
    else (records n (body.drop (8 + padded))).map ((numAt body 0 2, cut body 8 len) :: ·)

/-- The value of the first record of a type. -/
def recOf (rs : List Rec) (ty : Nat) : List Byte := ((rs.find? fun r => r.1 == ty).map (·.2)).getD []

/-- Records of a type. -/
def recCount (rs : List Rec) (ty : Nat) : Nat := (rs.filter fun r => r.1 == ty).length

/-- Whether the counts, the order and the lengths of the records are as Table 16.9 gives. -/
def recordsOk (rs : List Rec) : Bool :=
  (match rs with | [] => false | r :: _ => r.1 == 1)
    && (upFrom 1 6).all (fun t => recCount rs t == 1)
    && rs.all (fun r => decide (1 ≤ r.1 ∧ r.1 ≤ 10) || decide (0x8000 ≤ r.1))
    && decide ((recOf rs 1).length = 1952) && decide ((recOf rs 2).length = 4)
    && decide ((recOf rs 5).length ≤ 8192) && decide ((recOf rs 6).length ≤ 16384)
    && decide (recCount rs 8 ≤ 16)
    && rs.all (fun r => if r.1 = 7 then r.2.length % 16 == 0
        else if r.1 = 8 then r.2.length == 8 + 8 * 257 && allZero (cut r.2 1 7)
        else if r.1 = 9 then r.2.length % 1032 == 0
        else if r.1 = 10 then r.2.length % 24 == 0 else true)

/-- The pairs of a REGS record: offset and value. -/
def regPairs : Nat → List Byte → List (Nat × Nat)
  | 0, _ => []
  | n + 1, v => if v.length < 16 then [] else (numAt v 0 8, numAt v 8 8) :: regPairs n (v.drop 16)

/-- All REGS pairs of a bank, in record order. -/
def allPairs (rs : List Rec) : List (Nat × Nat) :=
  rs.flatMap fun r => if r.1 = 7 then regPairs r.2.length r.2 else []

/-- Whether the REGS records set GLB_FEID.FEID exactly once, to a module FEID (R379). -/
def feidOk (rs : List Rec) : Bool :=
  match (allPairs rs).filter fun e => e.1 == R.GLB_FEID.adr with
  | [e] => decide (e.2 % 2 ^ 16 ≤ 0x0FFF)
  | _ => false

/-- Whether an image is accepted under R331. -/
def imageOk (img : List Byte) (minSvn : Nat) : Bool := Config.imageSigned img && decide (minSvn ≤ Config.imageSvn img)

/-- The context of a bank's signature (Table 16.8): "GVR-SET-1". -/
def ctxSet : List Byte := [0x47, 0x56, 0x52, 0x2D, 0x53, 0x45, 0x54, 0x2D, 0x31]

/-- The records of an image of a bank (an 8 KiB header and a body), where R379 finds it valid. -/
def bankRecords (img : List Byte) : Option (List Rec) :=
  let len := hdrLength img
  let body := cut img 8192 len
  let head := numAt img 0 4 == 0x31535647 && numAt img 4 2 == 1 && allZero (cut img 6 2) && allZero (cut img 20 4)
    && allZero (cut img 3333 4859) && len % 8 == 0 && decide (8 ≤ len ∧ len ≤ 32497664) && decide (body.length = len)
  let crc := numAt img 16 4 == (crc32c (cut img 0 16 ++ body)).toNat
  match if head && crc then records len body else none with
  | none => none
  | some rs =>
    let svn := ofLeBytes (recOf rs 2)
    if recordsOk rs && Config.verify (recOf rs 1) (cut img 0 20 ++ body) ctxSet (cut img 24 3309) && feidOk rs
        && imageOk (recOf rs 3) svn && imageOk (recOf rs 4) svn then some rs else none

/-- MAGIC of a bank header (Table 16.8). -/
def hdrMagic : Nat := 0x31535647

/-- The image that a bank of the flash holds: its header alone where LENGTH is out of range. -/
def State.bankImage (s : State) (b : Nat) : List Byte :=
  let len := ofLeBytes (s.flashBytes (bankBase b + 12) 4)
  s.flashBytes (bankBase b) (8192 + if len ≤ 32497664 then len else 0)

/-- The records of a bank of the flash, where it is valid. -/
def State.bank (s : State) (b : Nat) : Option (List Rec) :=
  if ofLeBytes (s.flashBytes (bankBase b) 4) = hdrMagic then bankRecords (s.bankImage b) else none

/-- The value of a record of the active bank. -/
def State.setting (s : State) (ty : Nat) : List Byte :=
  if s.flag R.MGT_SET_STATUS.NONE then []
  else match s.bank (s.fld R.MGT_SET_STATUS.ACTIVE) with
  | some rs => recOf rs ty
  | none => []

/-- Whether Cruise phase C1 has loaded the settings (R302). -/
def State.settled (s : State) : Bool := decide (2 ≤ s.fld R.GLB_CRUISE_STATUS.PHASE)

end Sys2Proof.Machine
end

