-- ==== Sys2Proof/Machine/MgtCmds.lean ====
section
/-! DEFINITION. The management controller: I3C (R413), updates of the settings store (R383) and firmware swaps (R385). -/

namespace Sys2Proof.Machine

open Sys2Proof

/-! ## I3C -/

/-- I3C_ENTDAA (R413): the module gives its provisioned ID and takes its dynamic address. -/
def execI3cEntdaa (a : BitVec 7) (s : State) : Result :=
  .next (({ s with mgt := { s.mgt with i3c := some a } }).send (.i3cId (BitVec.ofNat 48 (s.fld R.GLB_ID.SERIAL))))

/-- I3C_POWER_READ (R413): 16 bytes, GLB_POWER_STATUS and then MGT_SENSE; nothing before the module has its address. -/
def execI3cPowerRead (s : State) : Result :=
  .next (if s.mgt.i3c.isNone then s
    else s.send (.i3cRead (BitVec.ofNat 128
      ((s.reg R.GLB_POWER_STATUS.adr).toNat + (s.reg R.MGT_SENSE.adr).toNat * 2 ^ 64))))

/-- I3C_CAP_WRITE (R413): NACKed until Cruise C1 has ended; a reserved value has no effect. -/
def execI3cCapWrite (v : BitVec 16) (s : State) : Result :=
  .next (if s.mgt.i3c.isNone then s
    else if ¬ s.settled then s.send .i3cNack
    else if 300 ≤ v.toNat ∧ v.toNat < 2048 then s.setFld R.GLB_POWER_CAP.CAP v.toNat
    else s)

/-! ## The settings store -/

/-- The bank that an update writes: the one that is not active; bank 0 while there is none (R383). -/
def State.olderBank (s : State) : Nat :=
  if s.flag R.MGT_SET_STATUS.NONE then 0 else 1 - s.fld R.MGT_SET_STATUS.ACTIVE

/-- The SEQ of the active bank. -/
def State.activeSeq (s : State) : Nat :=
  if s.flag R.MGT_SET_STATUS.ACTIVE then s.fld R.MGT_SET_SEQ.SEQ1 else s.fld R.MGT_SET_SEQ.SEQ0

/-- Show what a bank holds: its VALID bit and its SEQ. -/
def State.showBank (s : State) (b : Nat) (valid : Bool) (seq : Nat) : State :=
  let s := s.setFld (if b = 0 then R.MGT_SET_STATUS.VALID0 else R.MGT_SET_STATUS.VALID1) (b2n valid)
  s.setFld (if b = 0 then R.MGT_SET_SEQ.SEQ0 else R.MGT_SET_SEQ.SEQ1) (if valid then seq else 0)

/-- The image at an HBM byte address: header and body; its header alone where LENGTH is out of range. -/
def State.hbmImage (s : State) (a : Nat) : List Byte :=
  let len := s.readNat (a + 12) 4
  s.bytes a (8192 + if len ≤ 32497664 then len else 0)

/-- Step 1 of R383: the image lies in software-visible HBM outside every protected range, with no poisoned line, would be
valid as a bank, and is newer than the active bank's. -/
def State.imageTaken (s : State) (a : Nat) : Bool :=
  let img := s.hbmImage a
  s.plainExtent a img.length && (upFrom (a / 64) ((img.length + 63) / 64)).all (fun h => !s.isPoison h)
    && (bankRecords img).isSome && (s.flag R.MGT_SET_STATUS.NONE || newer (hdrSeq img) s.activeSeq)

/-- A MGT_SET_CMD completes. -/
def State.setResult (s : State) (status : Nat) : State :=
  ((s.setFld R.MGT_SET_STATUS.BUSY 0).setFld R.MGT_SET_STATUS.RESULT status).raise R.MGT_SET_STATUS.DONE

/-- SETTINGS_PROGRAM (R383): discarded while one runs or during a swap; an image that fails a check erases nothing; else the
older bank is erased, and BUSY until PROGRAM_DONE. -/
def execSettingsProgram (via : Via) (src : BitVec 46) (s : State) : Result :=
  .next <| s.gate via R.MGT_SET_CMD.adr fun s =>
    if s.mgt.prog.isSome ∨ s.mgt.swap.isSome then s.setFld R.MGT_SET_STATUS.RESULT sNORES
    else if s.mgt.restart.isSome then s.setResult sNORES
    else if ¬ s.imageTaken (64 * src.toNat) then s.setResult sCHECK
    else
      let b := s.olderBank
      let s := (s.flashErase (bankBase b) (2 ^ 25)).showBank b false 0
      ({ s with mgt := { s.mgt with prog := some { src := 64 * src.toNat, bank := b, start := s.tick } } }).setFld
        R.MGT_SET_STATUS.BUSY 1

/-- The journal records of an update (step 3 of R383): every item's current value, or the Debug Epoch alone while no bank is
valid. -/
def State.updateItems (s : State) : FMap Nat :=
  if s.flag R.MGT_SET_STATUS.NONE then [(65536 * itDEBUG, s.fld R.SEC_DEBUG_EPOCH.EPOCH)] else s.mgt.items

/-- Journal records from a flash address. -/
def State.putItems (s : State) : Nat → FMap Nat → State
  | _, [] => s
  | a, (k, v) :: r =>
    let s := s.flashWrite a (journalRecord (k / 65536) (k % 65536) s.mgt.jseq v)
    (({ s with mgt := { s.mgt with jseq := (s.mgt.jseq + 1) % 2 ^ 32 } }).putItems (a + 32) r)

/-- Cruise starts C1 again (R383): the bank just written is loaded. -/
def State.restartC1 (s : State) : State := { s with cru := { s.cru with begun := false, phaseAt := s.tick } }

/-- PROGRAM_DONE (R383, steps 2 to 5). -/
def execProgramDone (s : State) : Result :=
  .next <|
    match s.mgt.prog with
    | none => s
    | some x =>
      let img := s.hbmImage x.src
      let s := { s with mgt := { s.mgt with prog := none } }
      let s := (s.flashWrite (bankBase x.bank + 8192) (img.drop 8192)).putItems (bankBase x.bank + journalAt) s.updateItems
      let s := s.flashWrite (bankBase x.bank) (img.take 8192)
      if (s.bank x.bank).isNone then s.setResult sCHECK
      else
        let s := (s.showBank x.bank true (hdrSeq img)).setResult sOK
        if s.flag R.MGT_SET_STATUS.NONE then s.restartC1 else s

/-! ## Firmware swap -/

/-- A MGT_FW_CMD completes. -/
def State.fwResult (s : State) (status : Nat) : State := (s.setFld R.MGT_FW_CMD.RESULT status).raise R.MGT_FW_CMD.DONE

/-- FW_SWAP (R385): the older bank must be valid; while the controller is away the command completes with NO_RESOURCE. -/
def execFwSwap (via : Via) (s : State) : Result :=
  .next <| s.gate via R.MGT_FW_CMD.adr fun s =>
    if s.mgtAway then s.fwResult sNORES
    else if s.flag R.MGT_SET_STATUS.NONE ∨ (s.bank s.olderBank).isNone then s.fwResult sCHECK
    else ({ s with mgt := { s.mgt with swap := some s.tick } }).setFld R.MGT_FW_CMD.BUSY 1

/-- Firmware of a bank's records runs: its slot, its SVN and M_FW (R332, R385). -/
def State.runFirmware (s : State) (b : Nat) (rs : List Rec) : State :=
  let img := recOf rs 3
  let s := (s.setFld R.SEC_STATUS.FW_SLOT b).setFld R.SEC_STATUS.FW_SVN (Config.imageSvn img)
  { s with sec := { s.sec with mFw := measure img } }

/-- The swap ends: the older bank's image runs (R385). -/
def State.swapDone (s : State) : State :=
  if s.mgt.swap.isNone then s
  else
    let b := s.olderBank
    let s := match s.bank b with
      | some rs => s.runFirmware b rs
      | none => s
    (({ s with mgt := { s.mgt with swap := none } }).setFld R.MGT_FW_CMD.BUSY 0).fwResult sOK

/-- FW_SWAP_DONE (R385): the older bank's image runs. -/
def execFwSwapDone (s : State) : Result := .next s.swapDone

/-- A swap ends within 500 ms, 3,125,000 ticks (R34, R385). -/
def State.swapLimit (s : State) : State :=
  match s.mgt.swap with
  | some t => if t + 3125000 ≤ s.tick then s.swapDone else s
  | none => s

end Sys2Proof.Machine
end

