-- ==== Sys2Proof/Machine/Tables.lean ====
section
/-! DEFINITION. Writes of wide table entries: staging (R27), Route Table and Group Table commits (R73, R80 to R82, R154). -/

namespace Sys2Proof.Machine

open Sys2Proof

/-- The control-space offset of a staged word. -/
def Wide.off : Wide → Nat
  | .route f => 0x1000000 + 16 * f.toNat
  | .group g w => 0x2000000 + 0x400 * g.toNat + 8 * w.toNat
  | .plan p c => 0x3000000 + 0x1000 * p.toNat + 8 * c.toNat

/-- Words staged for entry `k`: those of another entry are discarded (R27). -/
def staged (st : Option (Nat × FMap Word)) (k : Nat) : FMap Word :=
  match st with
  | some (j, m) => if j = k then m else []
  | none => []

/-- TABLE_WORD_STAGE (R27): the word is staged; words staged for another entry are discarded. The highest word of a group
entry commits (R73), so it is no staged word. -/
def execTableWordStage (via : Via) (x : Wide) (v : Word) (s : State) : Result :=
  .next (s.gate via x.off fun s =>
    match x with
    | .route f => { s with swc := { s.swc with routeStage := some (f.toNat, v) } }
    | .group g w =>
      if w = 127 then s
      else { s with swc := { s.swc with groupStage := some (g.toNat, (staged s.swc.groupStage g.toNat).put w.toNat v) } }
    | .plan p c => { s with opt := { s.opt with stage := some (p.toNat, (staged s.opt.stage p.toNat).put c.toNat v) } })

/-- A Route Table entry takes effect whole: a destination whose equal-cost set changed is held (R82), and a lost neighbour's
entry is usable again (R355). -/
def State.putRoute (s : State) (f : Nat) (v : BitVec 128) : State :=
  let before := s.ecmpSet (s.route f)
  let s := { s with swc := { s.swc with routes := FMap.set (fun _ => 0) s.swc.routes f v,
                                        routeBad := FMap.set (fun _ => false) s.swc.routeBad f false,
                                        lost := FMap.set (fun _ => false) s.swc.lost f false } }
  if s.ecmpSet (s.route f) = before then s else s.holdPath f

/-- Words staged after a commit of entry `k`: those of another entry stay staged (R27). -/
def stagedAfter {α : Type} (st : Option (Nat × α)) (k : Nat) : Option (Nat × α) :=
  match st with
  | some (j, m) => if j = k then none else some (j, m)
  | none => none

/-- ROUTE_ENTRY_COMMIT (R154). -/
def execRouteEntryCommit (via : Via) (f : BitVec 16) (v : Word) (s : State) : Result :=
  .next (s.gate via (0x1000000 + 16 * f.toNat + 8) fun s =>
    let k := f.toNat
    let low := match s.swc.routeStage with
      | some (j, w) => if j = k then w.toNat else s.route k % 2 ^ 64
      | none => s.route k % 2 ^ 64
    let s := s.putRoute k (BitVec.ofNat 128 (low + v.toNat * 2 ^ 64))
    { s with swc := { s.swc with routeStage := stagedAfter s.swc.routeStage k } })

/-- The buckets whose MEMBER or VALID differs between two group entries. -/
def changedBuckets (old new : Nat → Nat) : BitVec 256 :=
  BitVec.ofNat 256 (packBits ((upFrom 0 256).map fun b =>
    (b, b2n (old b % 64 != new b % 64 || bitOf (old b) 7 != bitOf (new b) 7))))

/-- Hold the changed buckets of a group at the source: the slots that resolved through them are marked, and the buckets into
which a marked slot resolved join the held set (R80). -/
def State.holdBuckets (s : State) (g : Nat) (changed : BitVec 256) : State :=
  let hit (x : Slot) : Bool := match x.bucket with
    | some (h, b) => h == g && changed.getLsbD b
    | none => false
  let set := s.slots.foldl (fun (m : BitVec 256) e => match e.2.bucket with
    | some (_, b) => if hit e.2 then m ||| BitVec.ofNat 256 (2 ^ b) else m
    | none => m) (0 : BitVec 256)
  let s : State := { s with slots := s.slots.map fun (e : Nat × Slot) => if hit e.2 then (e.1, { e.2 with marked := true }) else e }
  let was : BitVec 256 := FMap.get (fun _ => 0) s.swc.held g
  let s : State := { s with swc := { s.swc with held := FMap.set (fun _ => 0) s.swc.held g (was ||| set) } }
  s.setFld R.SWC_WHISK_STATUS.GROUPS_HELD s.swc.held.length

/-- Put a whole group entry in effect. -/
def State.putGroup (s : State) (g : Nat) (m : FMap Word) : State :=
  let groups := m.foldl (fun t e => FMap.set (fun _ => 0) t (128 * g + e.1) e.2) s.swc.groups
  { s with swc := { s.swc with groups := groups, groupBad := FMap.set (fun _ => false) s.swc.groupBad g false } }

/-- GROUP_ENTRY_COMMIT (R73): the entry takes effect whole; changed buckets of a spread group are held at the source and in
transit (R80, R81). -/
def execGroupEntryCommit (via : Via) (g : BitVec 12) (v : Word) (s : State) : Result :=
  .next (s.gate via (0x2000000 + 0x400 * g.toNat + 8 * 127) fun s =>
    let k := g.toNat
    let old := s.gBucket k
    let s := s.putGroup k ((staged s.swc.groupStage k).put 127 v)
    let s := { s with swc := { s.swc with groupStage := stagedAfter s.swc.groupStage k } }
    if s.gKind k ≠ 0 then s
    else
      let changed := changedBuckets old (s.gBucket k)
      if changed = 0 then s
      else
        let s := s.holdBuckets k changed
        if s.gHold k = 0 then s
        else
          let h : BucketHold := { group := k, buckets := changed, until_ := s.tick + s.gHold k }
          { s with swc := { s.swc with transit := s.swc.transit ++ [h] } })

end Sys2Proof.Machine
end

