-- ==== Sys2Proof/Machine/PlanCmds.lean ====
section
/-! DEFINITION. Light plans: commits (R257, R258), requests and the schedule of a switch (R260, R261, Table 11.4). -/

namespace Sys2Proof.Machine

open Sys2Proof

/-- Whether two enabled lane words of one engine share a line. -/
def sharesLine (word : Nat → Nat) (line : Nat → Nat) : Bool :=
  (upFrom 0 16).any fun n =>
    let used := ((upFrom (16 * n) 16).map word).filter lwEn
    (upFrom 0 32).any fun k => decide (2 ≤ (used.filter fun w => line w == k).length)

/-- Whether a lane word has a bit set that is shown as 0, or an enabled lane names no module on an engine (R258, cause 2). -/
def badLane (w : Nat) : Bool :=
  getBits w 11 5 != 0 || getBits w 44 20 != 0
    || (lwEn w && (!decide (8 ≤ lwPort w ∧ lwPort w ≤ 23) || decide (0x8000 ≤ lwPeer w)))

/-- The cause for which a commit of plan `p` is refused, 0 for none: the first that applies (R258). -/
def State.planReject (s : State) (p : Nat) (word : Nat → Nat) (header : Nat) : Nat :=
  let valid := bitOf header 0
  let busy := (s.opt.force && s.fld R.OPT_PLAN_STATUS.CUR == p) || (match s.opt.sw with
    | some x => x.plan == p
    | none => false) || (match s.opt.restore with
    | some r => r.1 == p
    | none => false)
  if getBits header 8 4 ≠ p then 1
  else if valid ∧ (getBits header 1 7 ≠ 0 ∨ getBits header 12 4 ≠ 0 ∨ getBits header 32 32 ≠ 0
      ∨ (upFrom 0 256).any (fun c => badLane (word c))) then 2
  else if valid ∧ sharesLine word lwTx then 3
  else if valid ∧ sharesLine word lwRx then 4
  else if busy then 5 else 0

/-- Commit words and a header to plan `p`: accepted whole or refused (R257). -/
def State.commitPlan (s : State) (p : Nat) (words : FMap Word) (header : Word) : State :=
  let word (c : Nat) : Nat := match FMap.find words c with
    | some w => w.toNat
    | none => s.planWord p c
  let r := s.planReject p word header.toNat
  let s := s.setOpt { s.opt with stage := stagedAfter s.opt.stage p }
  if r ≠ 0 then (s.setFld R.OPT_PLAN_STATUS.REJECT r).optEvent R.OPT_EVENTS.PLAN_REJECT
  else
    let plans := words.foldl (fun m e => FMap.set (fun _ => 0) m (257 * p + e.1) e.2) s.opt.plans
    s.setOpt { s.opt with plans := FMap.set (fun _ => 0) plans (257 * p + 256) header }

/-- PLAN_COMMIT (R257, R258). -/
def execPlanCommit (via : Via) (p : BitVec 4) (v : Word) (s : State) : Result :=
  .next (s.gate via (0x3000000 + 0x1000 * p.toNat + 0x800) fun s =>
    s.commitPlan p.toNat (staged s.opt.stage p.toNat) v)

/-- PLAN_SWITCH_REQUEST (R260, R278): OPT_PLAN_CMD with GO; TICK gives T in bits [55:0]. -/
def execPlanSwitchRequest (via : Via) (plan : BitVec 4) (tick : BitVec 56) (s : State) : Result :=
  .next (s.gate via R.OPT_PLAN_CMD.adr fun s =>
    let t := s.tick / 2 ^ 56 * 2 ^ 56 + tick.toNat
    if s.opt.lock.isSome ∨ s.timeState = tsLOST then s.setFld R.OPT_PLAN_STATUS.RESULT sNORES
    else if t < s.tick + 2 ∨ s.tick + 2 ^ 20 < t ∨ ¬ s.planValid plan.toNat then s.setFld R.OPT_PLAN_STATUS.RESULT sCHECK
    else ((s.setLock (some .cmd)).askSwitch plan.toNat t .cmd).moveMet t)

/-- Update the switch under way. -/
def State.setSwitch (s : State) (x : PlanSwitch) : State := s.setOpt { s.opt with sw := some x }

/-- LP.SET's status register is written (R249). -/
def State.tellLp (s : State) (t : Nat) (st : BitVec 5) (status : Nat) : State :=
  let s := s.setLock none
  let s := s.setThr t ((s.thr t).subPend (regMask st))
  (s.writeStatus t st (statusWord status)).recheck

/-- In LOST a requested switch that has not started is refused; a restoring switch comes at the next boundary instead (R43,
R220). -/
def State.refuseSwitch (s : State) : State :=
  let s := s.setOpt { s.opt with restore := s.opt.restore.map fun r => (r.1, s.tick + 1) }
  match s.opt.sw with
  | none => s
  | some x =>
    if x.stage ≠ 0 then s
    else if x.by_ = .restore then s.setSwitch { x with tick := s.tick + 1 }
    else
      let s := (s.setOpt { s.opt with sw := none }).setFld R.OPT_PLAN_STATUS.PENDING 0
      match x.by_ with
      | .cmd => (s.setFld R.OPT_PLAN_STATUS.RESULT sNORES).setLock none
      | .lp t st => s.tellLp t st sNORES
      | _ => s

/-- PLAN_SWITCH_START (R261, R143): at T the changed channels leave their links, and links that gain channels get no more
grants; a lightlane held in test leaves its test (R271, R274). -/
def execPlanSwitchStart (s : State) : Result :=
  .next (
    match s.opt.sw with
    | none => s
    | some x =>
      if x.stage ≠ 0 ∨ s.tick < x.tick ∨ (s.opt.force ∧ x.plan = s.fld R.OPT_PLAN_STATUS.CUR) then s
      else if s.timeState = tsLOST ∧ x.by_ ≠ .restore then s.refuseSwitch.settleCredits
      else
        let cs := s.changedLanes x.plan
        let gains := (cs.filter fun c => lwEn (s.planWord x.plan c)).filterMap fun c => s.linkOf (lwPeer (s.planWord x.plan c))
        let s := s.setSwitch { x with stage := 1, changed := cs }
        let s := { s with swc := { s.swc with gains := gains } }
        let s := cs.foldl (fun s c =>
          let s := if (s.lane c).test = 1 then s.setFld (R.OPT_MARGIN.VERDICT c) 4 else s
          let s := if (s.lane c).test ≠ 0 then s.setSource c false else s
          let s := s.setFld (R.OPT_LANE_TEST.TEST c) 0
          (s.setLane c { s.lane c with test := 0 }).beginLeave c 1) s
        s.refreshLinks.settleCredits)

/-- A changed channel at T + 12: with packets still unacknowledged it goes DOWN and they are lost (Table 11.4). -/
def State.undrained (s : State) (c : Nat) : State :=
  if s.chUp c ∧ (s.chan c).replay ≠ [] then
    ((s.channelDown c 0).count R.OPT_COUNTS.SWITCH_LOST).optEvent R.OPT_EVENTS.SWITCH_LOST
  else s

/-- A changed lightlane at T + 12: DARK and tuned to its new lines, or OFF (Table 11.4). -/
def State.retune (s : State) (c w : Nat) : State :=
  let s := s.undrained c
  if ¬ lwEn w then s.laneOff c
  else
    let s := (s.setChan c { ident := (s.chan c).ident }).dropPool c
    let s := (s.setFld (R.SWC_CH_STATUS.STATE c) chDARK).setFld (R.SWC_CH_STATUS.MEMBER c) 0
    let s := (s.enterLane c lsRETUNE).setLane c { at_ := s.tick, los := (s.lane c).los, eq := (s.lane c).eq }
    let s := (s.tune c false (lwTx w)).tune c true (lwRx w)
    (s.setRing (c / 16) (ringNo c false) {}).setRing (c / 16) (ringNo c true) {}

/-- SWITCH_RETUNE (R261): at T + 12. -/
def execSwitchRetune (s : State) : Result :=
  .next (
    match s.opt.sw with
    | none => s
    | some x =>
      if x.stage ≠ 1 ∨ s.tick < x.tick + 12 then s
      else
        let s := (s.setFld R.OPT_PLAN_STATUS.CUR x.plan).setOpt { s.opt with force := true, sw := some { x with stage := 2 } }
        (x.changed.foldl (fun s c => s.retune c (s.planWord x.plan c)) s).refreshLinks)

/-- SWITCH_FINE_SEARCH (R261): at T + 16; `steps` gives, for rings by number 32·engine + ring, the step of highest coupling. -/
def execSwitchFineSearch (steps : List (Fin 512 × Fin 9)) (s : State) : Result :=
  .next (
    match s.opt.sw with
    | none => s
    | some x =>
      if x.stage ≠ 2 ∨ s.tick < x.tick + 16 then s
      else
        let s := s.setSwitch { x with stage := 3 }
        steps.foldl (fun s e =>
          let n := e.1.val / 32
          let r := e.1.val % 32
          let c := 16 * n + r % 16
          if s.laneState c = lsRETUNE then s.fine c (decide (16 ≤ r)) e.2 else s) s)

/-- SWITCH_ACQUIRE (R261, R270): at T + 18 the lock-in takes the changed rings over, and fast training and IDENT begin. -/
def execSwitchAcquire (s : State) : Result :=
  .next (
    match s.opt.sw with
    | none => s
    | some x =>
      if x.stage ≠ 3 ∨ s.tick < x.tick + 18 then s
      else
        let s := s.setSwitch { x with stage := 4 }
        x.changed.foldl (fun s c =>
          if s.laneState c = lsRETUNE then ((s.acquireRing c false).acquireRing c true).verify c false true else s) s)

/-- The requester of a switch learns of its end: OPT_PLAN_CMD and LP.SET receive OK and give up the lock (R249, R260). -/
def State.tellSwitch (s : State) : SwitchBy → State
  | .cmd => (s.setFld R.OPT_PLAN_STATUS.RESULT sOK).setLock none
  | .lp t st => s.tellLp t st sOK
  | .agreed p cid =>
    match s.colFind p cid with
    | some (h, e) => s.setCol h { e with switched := true, done := e.done || e.phaseNow.isNone }
    | none => s
  | .restore => s.setLock none

/-- SWITCH_COMPLETE (R260, R261, R268): at T + 25, or at T + 1 where the plan was in force already. -/
def execSwitchComplete (s : State) : Result :=
  .next (
    match s.opt.sw with
    | none => s
    | some x =>
      let same := decide (x.stage = 0) && s.opt.force && s.fld R.OPT_PLAN_STATUS.CUR == x.plan
      if ¬ ((same ∧ x.tick + 1 ≤ s.tick) ∨ (x.stage = 4 ∧ x.tick + 25 ≤ s.tick)) then s
      else
        let s := x.changed.foldl (fun s c => if s.laneState c = lsVERIFY then s.relockB c 4 else s) s
        let s := (s.setOpt { s.opt with sw := none }).setFld R.OPT_PLAN_STATUS.PENDING 0
        let s := { s with swc := { s.swc with gains := [] } }
        let s := ((s.count R.OPT_COUNTS.SWITCHES).refreshLinks).tellSwitch x.by_
        match s.opt.restore with
        | some (q, t) =>
          let t := max t s.tick
          ((s.setOpt { s.opt with restore := none }).askSwitch q t .restore).moveMet t
        | none => s)

end Sys2Proof.Machine
end

