-- ==== Sys2Proof/Machine/LaneCmds.lean ====
section
/-! DEFINITION. Lightlanes and lasers: IDENT (R267), checks and sweeps (R263 to R269), laser windows and dark windows (R275 to
R279), margin tests (R273, R274), lane tests and injections (R271, R297 to R299). -/

namespace Sys2Proof.Machine

open Sys2Proof

/-! ## Identity -/

/-- Check B (R267): the IDENT names the peer, engine and lightlane of the plan in force, on the drop ring's line. -/
def State.checkB (s : State) (c : Nat) (b : IdentBlock) : Bool :=
  let w := s.laneWord c
  lwEn w && b.feid.toNat == lwPeer w && b.port.toNat == lwPort w && b.lane.toNat == lwLane w && b.comb.toNat == lwRx w

/-- Check B is made on an IDENT of a lightlane (R265, R267). -/
def State.judgeB (s : State) (c : Nat) (b : IdentBlock) : State :=
  let ok := s.checkB c b
  let s := s.setFld (R.OPT_LANE_STATUS.CHK_B c) (b2n ok)
  let x := s.lane c
  if s.inTest c then s
  else if s.laneState c = lsUP then
    if ¬ ok then s.relockB c 3 else if s.chState c = chTRAINING then s.channelUp c else s
  else if s.laneState c = lsVERIFY then
    if ¬ ok then s.relockB c 3
    else if x.strict ∧ ¬ x.okA then s
    else (s.setLane c { x with okB := true }).maybeUp c
  else s

/-- IDENT_BLOCK (R142, R267, R388): the channel's peer, check B, the election and the time parent's distance. -/
def execIdentBlock (c : Channel) (b : IdentBlock) (s : State) : Result :=
  .next (
    let s := (s.setChan c { s.chan c with ident := some b }).setFld (R.SWC_CH_STATUS.PEER c) b.feid.toNat
    let s := if c.val < 256 then s.judgeB c b
      else if s.chState c = chTRAINING ∧ s.fld (R.ELK_PORT_STATUS.STATE (c - 256)) = 2 then s.channelUp c else s
    if s.ttOff (portCode c) then s
    else
      let mine := portCode c == s.fld R.GLB_TIME_STATUS.PARENT_LINK && b.feid.toNat == s.fld R.GLB_TIME_STATUS.PARENT_FEID
      let s := if mine ∧ b.thops ≠ 0xFF then s.setFld R.GLB_TIME_STATUS.HOPS (min 0xFF (b.thops.toNat + 1)) else s
      s.noteAlone.refreshAdv.leaveLost)

/-- Whether check A passes for a ring: the planned line's bin is the largest, by at least 12 dB (R266). -/
def passA (line : Nat) (best : BitVec 5) (lead : BitVec 16) : Bool := best.toNat == line && decide (120 ≤ lead.toNat)

/-- PILOT_CHECK (R266, R268, R269): at the end of a 4-tick window, for the modulator ring and the drop ring of a lightlane, the
largest pilot bin and its lead over the next, in 0.1 dB. While its light is absent a lightlane stays in VERIFY. -/
def execPilotCheck (c : LaneNo) (txBest : BitVec 5) (txLead : BitVec 16) (rxBest : BitVec 5) (rxLead : BitVec 16)
    (s : State) : Result :=
  .next (
    let w := s.laneWord c
    let m := passA (lwTx w) txBest txLead
    let d := passA (lwRx w) rxBest rxLead
    let x := s.lane c
    let x := { x with failM := if m then 0 else x.failM + 1, failD := if d then 0 else x.failD + 1,
                      pilotAt := x.pilotAt + 4 * ((s.tick - x.pilotAt) / 4) }
    if s.tick < (s.lane c).pilotAt + 4 then s
    else if s.laneState c = lsVERIFY then
      let s := (s.setFld (R.OPT_LANE_STATUS.CHK_A c) (b2n (m && d))).setLane c x
      if m ∧ d then (s.setLane c { x with okA := true }).maybeUp c
      else if x.los then s
      else s.relock c (if m then 2 else 1) (!m) (!d)
    else if s.laneState c = lsUP then
      let s := (s.setFld (R.OPT_LANE_STATUS.CHK_A c) (b2n (m && d))).setLane c x
      if 2 ≤ x.failM ∨ 2 ≤ x.failD then s.relock c (if 2 ≤ x.failM then 1 else 2) (2 ≤ x.failM) (2 ≤ x.failD) else s
    else s)

/-- Whether a ring is under lock-in: its lightlane is on its lines and the ring does not sweep. -/
def State.underLock (s : State) (c : Nat) (drop : Bool) : Bool :=
  let st := s.laneState c
  let x := s.lane c
  (st == lsVERIFY || st == lsUP || (st == lsSWEEP && !(if drop then x.sweepD else x.sweepM)))

/-- A sweep is over once the rings that it swept, and the other ring, are locked: the lightlane enters VERIFY (Table 11.6). -/
def State.sweepOver (s : State) (c : Nat) : State :=
  let x := s.lane c
  if s.laneState c = lsSWEEP ∧ ¬ x.sweepM ∧ ¬ x.sweepD ∧ (s.ring (c / 16) (ringNo c false)).locked
      ∧ (s.ring (c / 16) (ringNo c true)).locked then s.verify c true false
  else s

/-- Move the calibration codes of a ring with the code of its line (Table 11.5). -/
def State.recalibrate (s : State) (n r line code : Nat) : State :=
  let d : Int := (code : Int) - s.calCode n r line
  (upFrom 0 32).foldl (fun s k => s.setCal n r k (if k = line then code else moveCode (s.calCode n r k) d)) s

/-- RING_LOCK_WINDOW (R263 to R265, R268): at the end of a 1,024-tick window since the lock-in took a ring over, the demodulated
error and the monitor power (0.01 dB) of the ring correct its heater and judge lock and ring loss; after a sweep the lightlane enters
VERIFY once both its rings are locked. How a fraction of a code is rounded is free. -/
def execRingLockWindow (c : LaneNo) (drop : Bool) (err : BitVec 16) (power : BitVec 16) (s : State) : Result :=
  .next (
    if s.tick < (s.ring (c / 16) (ringNo c drop)).winAt + 1024 ∨ s.mgtAway ∨ ¬ s.underLock c drop then s
    else
      let n := c.val / 16
      let r := ringNo c drop
      let x := s.ring n r
      let g : Nat := 2 ^ s.fld R.OPT_RING_CTL.GAIN
      let num : Int := err.toInt * (if 0 < x.acq then 4 else 1)
      let (f, s) := s.fresh
      let corr : Int := num / g + (if num % g = 0 then 0 else ((f % 2 : Nat) : Int))
      let corr : Int := max (-64) (min 64 corr)
      let code := moveCode (s.fld (codeField c drop)) corr
      let s := s.setFld (codeField c drop) code
      let good := if num.natAbs < 2 * g then x.good + 1 else 0
      let locked := x.locked || decide (2 ≤ good)
      let ref := if locked && !x.locked then power.toInt else x.power
      let low := if x.locked ∧ power.toInt ≤ x.power - 600 then x.low + 1 else 0
      let lost := decide (2 ≤ low) || code == 0 || code == 65535
      let s := s.setRing n r { good := good, locked := locked, power := ref, low := low, acq := x.acq - 1,
                               winAt := x.winAt + 1024 * ((s.tick - x.winAt) / 1024) }
      let s := if locked then s.recalibrate n r (s.fld (lineField c drop)) code else s
      if lost ∧ s.laneState c = lsUP then s.relockB c 6 else s.sweepOver c)

/-- RING_SWEEP_DONE (R268): a ring's sweep ends with the code of every line; `found`: the planned line is among the
resonances; `fine`: the step of the fine search with the highest coupling. The ring is then in acquire mode. A ring that no plan
uses is only calibrated. -/
def execRingSweepDone (c : LaneNo) (drop : Bool) (codes : BitVec 512) (found : Bool) (fine : Fin 9) (s : State) : Result :=
  .next (
    let x := s.lane c
    if (s.laneState c ≠ lsSWEEP ∧ s.laneState c ≠ lsOFF) ∨ ¬ (if drop then x.sweepD else x.sweepM)
        ∨ s.tick < x.sweepAt + s.fld R.OPT_RING_CTL.SWEEP_TICKS then s
    else
      let n := c.val / 16
      let r := ringNo c drop
      let s := (upFrom 0 32).foldl (fun s k => s.setCal n r k (getBits codes.toNat (16 * k) 16)) s
      if s.laneState c = lsOFF then
        s.setLane c (if drop then { x with sweepD := false } else { x with sweepM := false })
      else if ¬ found then s.laneFailed c (if x.los then 5 else 6)
      else
        let w := s.laneWord c
        let s := (((s.tune c drop (if drop then lwRx w else lwTx w)).fine c drop fine).acquireRing c drop)
        s.setLane c (if drop then { x with sweepD := false } else { x with sweepM := false }))

/-- VERIFY_TIMEOUT (R265): no IDENT within VERIFY_TICKS of the entry into VERIFY, or of the beginning of Cruise C4 where that came
later; before C4 the wait has no limit. -/
def execVerifyTimeout (c : LaneNo) (s : State) : Result :=
  .next (
    let x := s.lane c
    if s.laneState c = lsVERIFY ∧ ¬ s.inTest c ∧ ¬ x.okB ∧ 4 ≤ s.fld R.GLB_CRUISE_STATUS.PHASE
        ∧ max x.at_ s.cru.c4At + s.fld R.OPT_RING_CTL.VERIFY_TICKS ≤ s.tick then s.relockB c 4 else s)

/-- Whether a received power, in 0.1 dBm, is below the LOS level (R269). -/
def State.dim (s : State) (p : BitVec 16) : Bool := decide (p.toInt < -(s.fld R.OPT_RING_CTL.LOS_LEVEL : Int))

/-- OPTICAL_LOS (R269, R354): the received powers of two consecutive ticks. -/
def execOpticalLos (c : LaneNo) (p1 p2 : BitVec 16) (s : State) : Result :=
  .next (
    if ¬ s.dim p1 ∨ ¬ s.dim p2 ∨ s.chState c = chDARK then s
    else
      let s := s.setLane c { s.lane c with los := true }
      if s.laneState c ≠ lsUP then s
      else if s.failing c then (s.optEvent R.OPT_EVENTS.LOS).laneFailed c 9
      else
        let s := (s.channelDown c 2).optEvent R.OPT_EVENTS.LOS
        (s.verify c false false).setFld (R.OPT_LANE_STATUS.CAUSE c) 5)

/-- LIGHT_RETURN (R269): the lowest power of 64 consecutive ticks is above the LOS level. -/
def execLightReturn (c : LaneNo) (low : BitVec 16) (s : State) : Result :=
  .next (
    if low.toInt ≤ -(s.fld R.OPT_RING_CTL.LOS_LEVEL : Int) then s
    else
      let s := s.setLane c { s.lane c with los := false }
      if s.laneState c = lsFAILED ∧ s.fld (R.OPT_LANE_STATUS.CAUSE c) = 5 then s.verify c true false else s)

/-! ## Lasers -/

/-- Warm the spare of a bank for an engine, where it is free to be used (R275). -/
def State.warmSpare (s : State) (b n : Nat) : State :=
  match FMap.find s.opt.spare b with
  | some (m, _, _) => if m = n then s else s.optEvent R.OPT_EVENTS.SPARE_NONE
  | none =>
    if s.fld (R.OPT_LASER_STATUS.STATE b 4) ≠ 0 then s.optEvent R.OPT_EVENTS.SPARE_NONE
    else
      let s := s.setFld (R.OPT_LASER_STATUS.STATE b 4) 2
      s.setOpt { s.opt with spare := s.opt.spare.put b (n, s.tick, false) }

/-- A hard laser failure (R279): the spare, ready or warming, goes in without notice, else the engine's lightlanes fail. -/
def State.hardFailure (s : State) (b k n : Nat) : State :=
  let s := s.faultLog 0x0401 0 0 0 (8 * b + k) (s.reg (R.OPT_LASER_STATUS.adr b k)).toNat
  match FMap.find s.opt.spare b with
  | some (m, t, _) =>
    if m ≠ n then s.laserDead n
    else if s.fld (R.OPT_LASER_STATUS.STATE b 4) = 3 then
      (s.setOpt { s.opt with wins := s.opt.wins.filter fun x => x.engine != n }).insertSpare b n
    else s.setOpt { s.opt with spare := s.opt.spare.put b (n, t, true) }
  | none => s.laserDead n

/-- Whether laser monitoring of an engine has had no conversions for the whole of the window of 4,096 ticks that ends now (R264). -/
def State.unmonitored (s : State) (n : Nat) : Bool :=
  (adcShares (s.acquiring n)).2.1 == 0 && (match FMap.find s.opt.acqAt n with
    | some t => decide (t + 4096 ≤ s.tick)
    | none => false)

/-- LASER_POWER_WINDOW (R264, R275, R279): a window's mean power of a source, 0.01 dBm; a window that receives no conversions gives
no result. -/
def execLaserPowerWindow (b : Fin 4) (k : Fin 5) (power : BitVec 16) (s : State) : Result :=
  .next (
    if s.mgtAway ∨ s.fld (R.OPT_LASER_STATUS.STATE b k) = 0 ∨ s.fld (R.OPT_LASER_STATUS.STATE b k) = 4
        ∨ s.unmonitored (s.fld (R.OPT_LASER_STATUS.FEEDS b k)) then s
    else
      let delta : Int := power.toInt - signedOf 16 (s.fld (R.OPT_LASER_BASE.BASE b k))
      let s := (s.setFld (R.OPT_LASER_STATUS.POWER b k) power.toNat).setFld (R.OPT_LASER_STATUS.DELTA b k) (fieldOf 16 delta)
      let (a, m, h) := FMap.get (fun _ => (0, 0, 0)) s.opt.fade (8 * b + k)
      let up (n : Nat) (limit : Int) : Nat := if limit < -delta then n + 1 else 0
      let a := up a 150
      let m := up m 250
      let h := up h 400
      let s := s.setOpt { s.opt with fade := FMap.set (fun _ => (0, 0, 0)) s.opt.fade (8 * b + k) (a, m, h) }
      let n := s.fld (R.OPT_LASER_STATUS.FEEDS b k)
      if s.fld (R.OPT_LASER_STATUS.STATE b k) ≠ 1 ∨ 16 ≤ n then s
      else
        let s := if a = 2 then (s.setFld (R.OPT_LASER_STATUS.WARN b k) 1).optEvent R.OPT_EVENTS.LASER_WARN else s
        let s := if m = 2 then s.warmSpare b n else s
        if h = 2 then s.hardFailure b k n else s)

/-- SPARE_SOURCE_READY (R275, R276, R279): the warming spare is at its base; a dark window is chosen, or, after a hard
failure, the spare goes in at once. -/
def execSpareSourceReady (b : Fin 4) (s : State) : Result :=
  .next (
    match FMap.find s.opt.spare b with
    | none => s
    | some (n, _, now) =>
      if s.fld (R.OPT_LASER_STATUS.STATE b 4) ≠ 2 then s
      else
        let s := s.setFld (R.OPT_LASER_STATUS.STATE b 4) 3
        if now then s.insertSpare b n
        else s.openDark b n (s.darkTick (s.tick + s.fld R.OPT_LASER_CTL.NOTICE_TICKS)))

/-- SPARE_WARM_TIMEOUT (R275): the spare is not warm within 2^18 ticks. After a hard failure the engine then has none. -/
def execSpareWarmTimeout (b : Fin 4) (s : State) : Result :=
  .next (
    match FMap.find s.opt.spare b with
    | none => s
    | some (n, t, now) =>
      if s.fld (R.OPT_LASER_STATUS.STATE b 4) ≠ 2 ∨ s.tick < t + 2 ^ 18 then s
      else
        let s := (s.setFld (R.OPT_LASER_STATUS.STATE b 4) 4).optEvent R.OPT_EVENTS.SPARE_NONE
        let s := s.setOpt { s.opt with spare := FMap.del s.opt.spare b }
        let s := s.journal itLASER b (s.laserMap b)
        if now then s.laserDead n else s)

/-- DARK_NOTICE (R277): the channels whose last IDENT named the sender's engine and lightlanes are to be DARK; the notice is
acknowledged. -/
def execDarkNotice (p : Packet) (s : State) : Result :=
  .next (
    let b := p.payload.toNat
    if ¬ (p.op = opMGMT ∧ b % 256 = 0x21) then s
    else if !s.intact p then s.takeLocal p
    else
      let s := s.takeLocal p
      let port := getBits b 8 8
      let lanes := getBits b 16 16
      let w := getBits b 64 64
      let cs := (upFrom 0 256).filter fun c => match (s.chan c).ident with
        | some i => i.feid == p.src && i.port.toNat == port && bitOf lanes i.lane.toNat
        | none => false
      let s := s.setOpt { s.opt with peerDark := s.opt.peerDark ++ cs.map fun c => (c, w) }
      s.sendPacket (s.mgmtPacket p.src.toNat (darkPayload 0x22 port lanes (getBits b 32 32) w)))

/-- DARK_ACK (R276): recorded with the window whose notice it answers. -/
def execDarkAck (p : Packet) (s : State) : Result :=
  .next (
    let b := p.payload.toNat
    if ¬ (p.op = opMGMT ∧ b % 256 = 0x22) then s
    else if !s.intact p then s.takeLocal p
    else
      let s := s.takeLocal p
      let hit (e : Nat × Nat × Bool) : Bool := e.1 == p.src.toNat && e.2.1 == getBits b 32 32
      let wins := s.opt.wins.map fun x => { x with notices := x.notices.map fun e => if hit e then (e.1, e.2.1, true) else e }
      s.setOpt { s.opt with wins := wins })

/-- DARK_ACK_DEADLINE (R276): 16 ticks before W the window is confirmed, or moves to a later multiple of 4,096. -/
def execDarkAckDeadline (s : State) : Result :=
  .next (
    (s.opt.wins.filter fun x => !x.confirmed && decide (x.tick ≤ s.tick + 16)).foldl (fun s x =>
      if x.notices.all (·.2.2) then
        s.setOpt { s.opt with wins := s.opt.wins.map fun y => if y = x then { x with confirmed := true } else y }
      else s.moveDark x) s)

/-- DARK_WINDOW (R276, R277, R254): at W the engine's channels go DARK and the bank's feed moves to the spare; channels named
in a peer's notice go DARK at its tick. -/
def execDarkWindow (s : State) : Result :=
  .next (
    let s := (s.opt.wins.filter fun x => x.confirmed && !x.begun && x.tick == s.tick).foldl (fun s x =>
      let s := s.setOpt { s.opt with wins := s.opt.wins.map fun y => if y = x then { x with begun := true } else y }
      let s := (upFrom (16 * x.engine) 16).foldl (fun s c => s.goDark c) s
      s.insertSpare x.bank x.engine) s
    (s.opt.peerDark.filter fun e => e.2 == s.tick).foldl (fun s e => s.goDark e.1) s)

/-- DARK_WINDOW_END (R152, R278): two ticks after it began, a window ends; both ends replay, and a ring that was sweeping
starts its sweep again. -/
def execDarkWindowEnd (s : State) : Result :=
  .next (
    let done := s.opt.wins.filter fun x => x.begun && decide (x.tick + 2 ≤ s.tick)
    let s := done.foldl (fun s x =>
      let s := (upFrom (16 * x.engine) 16).foldl (fun s c =>
        let s := s.endDark c
        if s.laneState c = lsSWEEP then s.setLane c { s.lane c with sweepAt := s.tick } else s) s
      s.count R.OPT_COUNTS.DARK_WINDOWS) s
    let s := s.setOpt { s.opt with wins := s.opt.wins.filter fun x => !(x.begun && decide (x.tick + 2 ≤ s.tick)) }
    let past := s.opt.peerDark.filter fun e => decide (e.2 + 2 ≤ s.tick)
    let s := s.setOpt { s.opt with peerDark := s.opt.peerDark.filter fun e => !decide (e.2 + 2 ≤ s.tick) }
    past.foldl (fun s e => s.endDark e.1) s)

/-! ## Counter sources and tests (R271, R297, R298) -/

/-- A lightlane comes back from a test: through VERIFY (R271), where no other test holds it. -/
def State.endTest (s : State) (c : Nat) : State :=
  let s := s.setLane c { s.lane c with test := 0 }
  if s.inTest c ∨ s.laneState c = lsOFF ∨ s.laneState c = lsFAILED then s else s.verify c false false

/-- OPT_LANE_TEST_WRITE (R151, R271): TEST puts the lightlane in test or ends the test; PATTERN changes only with generator
and checker off. -/
def execOptLaneTestWrite (via : Via) (c : LaneNo) (v : Word) (s : State) : Result :=
  .next (s.gate via (R.OPT_LANE_TEST.adr c) fun s =>
    let v := v.toNat
    let still := !s.flag (R.OPT_LANE_TEST.GEN_EN c) && !s.flag (R.OPT_LANE_TEST.CHK_EN c)
    let pat := getBits v 1 2
    let s := if pat = s.fld (R.OPT_LANE_TEST.PATTERN c) then s
      else if still then s.setFld (R.OPT_LANE_TEST.PATTERN c) pat else s.optEvent R.OPT_EVENTS.CMD_DENY
    let s := (s.setFld (R.OPT_LANE_TEST.GEN_EN c) (getBits v 3 1)).setFld (R.OPT_LANE_TEST.CHK_EN c) (getBits v 4 1)
    let s := if bitOf v 4 then s else s.setFld (R.OPT_LANE_TEST.CHK_LOCK c) 0
    let was := s.flag (R.OPT_LANE_TEST.TEST c)
    let s := s.setFld (R.OPT_LANE_TEST.TEST c) (v % 2)
    if (s.lane c).test ≠ 0 then s
    else if ¬ was ∧ bitOf v 0 then s.beginLeave c 2
    else if was ∧ ¬ bitOf v 0 then s.endTest c else s)

/-- OPT_CNT_SRC_WRITE (R271, R298): only the bits of lightlanes in test change; any other change, and one to a lightlane
whose margin test runs, is discarded. -/
def execOptCntSrcWrite (via : Via) (k : Fin 4) (v : Word) (s : State) : Result :=
  .next (s.gate via (R.OPT_CNT_SRC.adr k) fun s =>
    (upFrom 0 64).foldl (fun s i =>
      let c := 64 * k.val + i
      if s.flag ⟨R.OPT_CNT_SRC.adr k, i, 1⟩ == v.getLsbD i then s
      else if (s.lane c).test = 0 ∧ s.flag (R.OPT_LANE_TEST.TEST c) then s.setSource c (v.getLsbD i)
      else s.optEvent R.OPT_EVENTS.CMD_DENY) s)

/-- Start an injection sequence on a lane: the first error at once, the rest INTERVAL ticks apart (R299). `busy` shows it. -/
def State.startInject (s : State) (key kind len count interval : Nat) (busy : Field) : State :=
  let s := s.corrupt key kind len
  if count ≤ 1 then s
  else
    let x : Inject := { kind := kind, len := len, left := count - 1, interval := interval, next := s.tick + interval }
    ({ s with elk := { s.elk with inject := s.elk.inject.put key x } }).setFld busy 1

/-- Whether the fields of an injection command hold no reserved value (Table 12.13, R9). -/
def goodInject (kind len count interval : Nat) : Bool :=
  kind != 3 && len != 0 && count != 0 && interval != 0

/-- OPT_INJECT_GO (R9, R271, R299). -/
def execOptInjectGo (via : Via) (c : LaneNo) (kind : BitVec 2) (len : BitVec 8) (count interval : BitVec 16) (s : State) :
    Result :=
  .next (s.gate via (R.OPT_INJECT.adr c) fun s =>
    if (FMap.find s.elk.inject c).isSome ∨ ¬ goodInject kind.toNat len.toNat count.toNat interval.toNat then
      s.optEvent R.OPT_EVENTS.CMD_DENY
    else s.startInject c kind.toNat len.toNat count.toNat interval.toNat (R.OPT_INJECT.BUSY c))

/-- INJECT_REPEAT (R299): the next error of a sequence; a quiet electrical lane waits for its exit from idle. -/
def execInjectRepeat (key : Fin 304) (s : State) : Result :=
  .next (
    match FMap.find s.elk.inject key with
    | none => s
    | some x =>
      let quiet := decide (256 ≤ key.val) && s.fld (R.ELK_LANE_STATUS.STATE (key - 256)) == 4
      if s.tick < x.next ∨ quiet then s
      else
        let s := s.corrupt key x.kind x.len
        if x.left ≤ 1 then
          let s := { s with elk := { s.elk with inject := FMap.del s.elk.inject key } }
          s.setFld (if key.val < 256 then R.OPT_INJECT.BUSY key else R.ELK_INJECT.BUSY (key - 256)) 0
        else
          let x := { x with left := x.left - 1, next := x.next + x.interval }
          { s with elk := { s.elk with inject := s.elk.inject.put key x } })

/-! ## Margin tests -/

/-- Whether a margin test asked for by OPT_MARGIN_CMD waits for its start or measures a lightlane (R274). -/
def State.marginRuns (s : State) : Bool :=
  match s.opt.margin with
  | none => false
  | some m => m.begun.isNone || m.lanes.any fun c => (s.lane c).test == 1

/-- MARGIN_TEST_GO (R274): OPT_MARGIN_CMD with GO. -/
def execMarginTestGo (via : Via) (engines lanes start : BitVec 16) (s : State) : Result :=
  .next (s.gate via R.OPT_MARGIN_CMD.adr fun s =>
    if s.marginRuns then s.optEvent R.OPT_EVENTS.CMD_DENY
    else
      let cs := (upFrom 0 256).filter fun c => engines.getLsbD (c / 16) && lanes.getLsbD (c % 16)
      s.setOpt { s.opt with margin := some { lanes := cs, start := start.toNat, asked := s.tick } })

/-- Put a lightlane under a margin test: out of its link, counters on the pattern checker (R271, R272, R274). -/
def State.marginLane (s : State) (c : Nat) : State :=
  let s := (s.setLane c { s.lane c with test := 1, testAt := s.tick, paused := 0 }).setFld (R.OPT_MARGIN.VERDICT c) 0
  (s.setSource c true).beginLeave c 3

/-- MARGIN_TEST_START (R274): at the next tick whose low 16 bits equal START. -/
def execMarginTestStart (s : State) : Result :=
  .next (
    match s.opt.margin with
    | none => s
    | some m =>
      if m.begun.isSome ∨ s.tick ≤ m.asked ∨ s.tick % 2 ^ 16 ≠ m.start then s
      else
        let s := s.setOpt { s.opt with margin := some { m with begun := some s.tick } }
        m.lanes.foldl (fun s c => if lwEn (s.laneWord c) then s.marginLane c else s) s)

/-- The verdict on measured values (R273): the first whose condition holds. -/
def State.verdict (s : State) (c : Nat) (rx : BitVec 16) (ser : BitVec 8) (det : BitVec 16) : Nat :=
  let base := s.flag (R.OPT_BASE.VALID c)
  let drop : Int := signedOf 16 (s.fld (R.OPT_BASE.RXPWR c)) - rx.toInt
  let bDet := s.fld (R.OPT_BASE.DETUNE c)
  if ser.toNat < s.fld R.OPT_MARGIN_CTL.SER_FAIL
      ∨ (base ∧ ((s.fld R.OPT_MARGIN_CTL.FAIL_DB : Int) < drop ∨ 2 * det.toNat < bDet)) then 3
  else if base ∧ ((s.fld R.OPT_MARGIN_CTL.WARN_DB : Int) < drop ∨ ser.toNat + 10 < s.fld (R.OPT_BASE.SER_E c)
      ∨ 4 * det.toNat < 3 * bDet) then 2
  else 1

/-- A lightlane's margin test ends: its counters' source is the FEC statistics again, and it leaves the test (R272). -/
def State.testOver (s : State) (c : Nat) : State := (s.setSource c false).endTest c

/-- The verdict takes effect (R273). In Cruise C3 the lightlane's generator goes on, and its test ends with the phase (R272). -/
def State.giveVerdict (s : State) (c v : Nat) : State :=
  let s := (s.setFld (R.OPT_MARGIN.VERDICT c) v).setLane c { s.lane c with test := 2 }
  let s := if v = 1 ∨ v = 2 ∨ v = 3 then s.adapted c else s
  let s := if v = 3 then (s.laneFailed c 7).optEvent R.OPT_EVENTS.MARGIN_FAIL
    else if v = 2 then s.optEvent R.OPT_EVENTS.MARGIN_WARN else s
  if s.cru.on ∧ s.fld R.GLB_CRUISE_STATUS.PHASE = 3 then s else s.testOver c

/-- MARGIN_TEST_DONE (R264, R273, R274): a lightlane's measured values, `none` where its measurement did not end in time: within
2^LOG2_TICKS + 2^19 ticks in service, not counting those in which lock-in took every conversion; in Cruise C3 the phase is the
limit (R272). Where lock-in takes them now the measurement goes on. -/
def execMarginTestDone (c : LaneNo) (m : Option (BitVec 16 × BitVec 8 × BitVec 16)) (s : State) : Result :=
  .next (
    let limit := (s.lane c).testAt + 2 ^ s.fld R.OPT_MARGIN_CTL.LOG2_TICKS + 2 ^ 19 + (s.lane c).paused
    if (s.lane c).test ≠ 1 ∨ (adcShares (s.acquiring (c / 16))).2.2 = 0
        ∨ (m = none ∧ (s.tick < limit ∨ (s.cru.on ∧ s.fld R.GLB_CRUISE_STATUS.PHASE = 3))) then s
    else
      let s := match m with
        | some (rx, ser, det) =>
          let s := (s.setFld (R.OPT_MARGIN.RXPWR c) rx.toNat).setFld (R.OPT_MARGIN.SER_E c) ser.toNat
          let s := s.setFld (R.OPT_MARGIN.DETUNE c) det.toNat
          s.giveVerdict c (s.verdict c rx ser det)
        | none => s.giveVerdict c 4
      match s.opt.margin with
      | some x =>
        if x.lanes.all fun d => (s.lane d).test != 1 then s.setOpt { s.opt with margin := none } else s
      | none => s)

/-- MARGIN_COMMIT (R273): OPT_MARGIN_CMD with COMMIT. -/
def execMarginCommit (via : Via) (s : State) : Result :=
  .next (s.gate via R.OPT_MARGIN_CMD.adr fun s =>
    (upFrom 0 256).foldl (fun s c =>
      let v := s.fld (R.OPT_MARGIN.VERDICT c)
      if v = 1 ∨ v = 2
          ∨ (¬ s.flag (R.OPT_BASE.VALID c) ∧ s.fld R.OPT_MARGIN_CTL.SER_FAIL ≤ s.fld (R.OPT_MARGIN.SER_E c)) then
        let s := (s.setFld (R.OPT_BASE.RXPWR c) (s.fld (R.OPT_MARGIN.RXPWR c))).setFld (R.OPT_BASE.SER_E c)
          (s.fld (R.OPT_MARGIN.SER_E c))
        let s := (s.setFld (R.OPT_BASE.DETUNE c) (s.fld (R.OPT_MARGIN.DETUNE c))).setFld (R.OPT_BASE.VALID c) 1
        s.journal itBASE c (s.reg (R.OPT_BASE.adr c)).toNat
      else s) s)

/-! ## Commands on one lightlane -/

/-- LANE_RELOCK (R265): OPT_LANE_CMD RELOCK sends a FAILED lightlane to SWEEP with RELOCKS 0. -/
def execLaneRelock (via : Via) (c : LaneNo) (s : State) : Result :=
  .next (s.gate via R.OPT_LANE_CMD.adr fun s =>
    if s.laneState c ≠ lsFAILED then s.optEvent R.OPT_EVENTS.CMD_DENY
    else (s.beginSweep c 9 true true).setFld (R.OPT_LANE_STATUS.RELOCKS c) 0)

/-- LANE_FAIL (R151, R265): OPT_LANE_CMD FAIL, cause 9; a channel that is UP leaves its link first and LEAVE with REASON 4 is sent,
and then the lightlane is FAILED. -/
def execLaneFail (via : Via) (c : LaneNo) (s : State) : Result :=
  .next (s.gate via R.OPT_LANE_CMD.adr fun s => if s.chUp c then s.beginLeave c 4 else s.laneFailed c 9)

end Sys2Proof.Machine
end

