-- ==== Sys2Proof/Machine/PortCmds.lean ====
section
/-! DEFINITION. Electrical ports and the line code (chapter 12): lock, training, idle, Skois mode, lane tests. A lane key is a
lightlane's channel 0-255, or 256 + l for electrical lane l. -/

namespace Sys2Proof.Machine

open Sys2Proof

/-- State of an electrical lane (Table 12.11). -/
def State.elkState (s : State) (l : Nat) : Nat := s.fld (R.ELK_LANE_STATUS.STATE l)

/-- Whether a lane is active in its port (R289). -/
def State.laneActive (s : State) (l : Nat) : Bool := bitOf (s.fld (R.ELK_PORT_STATUS.ACTIVE (l / 8))) (l % 8)

/-! ## Lock and loss -/

/-- LANE_LOCK (R270, R290): 64 valid headers at one position, or 8 in fast training. A lightlane that still receives training frames
has no headers. -/
def execLaneLock (key : LaneKey) (s : State) : Result :=
  .next (
    if key.val < 256 then
      if 1 ≤ (s.lane key).train ∧ (s.lane key).train ≤ 4 then s
      else
        let s := s.setLane key { s.lane key with locked := true, train := 0 }
        if s.chState key = chTRAINING then s.sendIdent key else s
    else
      let l := key.val - 256
      if s.elkState l ≠ 2 then s
      else (s.setFld (R.ELK_LANE_STATUS.STATE l) 3).setElkLane l { s.elkLane l with stage := 5, since := s.tick })

/-- LANE_LOCK_LOSS (R290, R294, R354): 16 invalid headers in 64; the port retrains. -/
def execLaneLockLoss (key : LaneKey) (s : State) : Result :=
  .next (
    if key.val < 256 then
      let s := s.addFld (R.OPT_LANE_CNT.LOCK_LOSS key) 1
      let s := s.setLane key { s.lane key with locked := false }
      if s.chUp key then s.retrain key 4 else s
    else
      let l := key.val - 256
      if s.elkState l ≠ 3 then s
      else
        let s := (s.addFld (R.ELK_LANE_CNT.LOCK_LOSS l) 1).linkEvent R.ELK_EVENTS.LOCK_LOSS
        let s := s.setFld (R.ELK_LANE_STATUS.STATE l) 2
        if s.laneActive l then s.portTrain (l / 8) 4 false else s)

/-- ELECTRICAL_LOS (R294, R354): a lane below the threshold for 64 symbols outside electrical idle. -/
def execElectricalLos (l : ElkLaneNo) (s : State) : Result :=
  .next (
    if s.elkState l = 4 ∨ (s.chan (256 + l / 8)).ei then s
    else
      let s := (s.setFld (R.ELK_LANE_STATUS.LOS l) 1).linkEvent R.ELK_EVENTS.LOS
      if s.laneActive l ∧ s.fld (R.ELK_PORT_STATUS.STATE (l / 8)) ≠ 1 then s.portTrain (l / 8) 1 false else s)

/-! ## Training (R291) -/

/-- The tap of a lane that a request addresses (Table 12.3), and whether its value is signed. -/
def tapField (l tap : Nat) : Field × Bool :=
  if tap = 0 then (R.ELK_TXEQ.PRE2 l, true) else if tap = 1 then (R.ELK_TXEQ.PRE1 l, true)
  else if tap = 2 then (R.ELK_TXEQ.MAIN l, false) else (R.ELK_TXEQ.POST1 l, true)

/-- A peer's request moves a tap by one step; the answer is ACK. What a preset sets is free. -/
def State.moveTap (s : State) (l tap req : Nat) : State :=
  let (f, sg) := tapField l tap
  let v := s.fld f
  let top := if sg then 127 else 255
  let bot := if sg then 128 else 0
  let ack (s : State) (a : Nat) : State := s.setElkLane l { s.elkLane l with ack := a }
  if req = 1 then (if v = top then ack s 2 else ack (s.setFld f (v + 1)) 1)
  else if req = 2 then (if v = bot then ack s 2 else ack (s.setFld f (v + 255)) 1)
  else if req = 3 then
    let (p, s) := s.fresh
    ack (s.setFld f p) 1
  else ack s 0

/-- An electrical lane sends training frames with its lane, port, the answer to the peer's last request, RX_READY and FEC; which taps
of the peer it asks to move is not in the spec (R291). -/
def State.elkFrame (s : State) (l : Nat) : State :=
  let (q, s) := s.fresh
  let x := s.elkLane l
  s.send (.frame (256 + l) (frameWord (l % 8) (l / 8) (q % 4) (q / 4 % 4) x.ack x.ready (s.flag (R.ELK_PORT_CTL.FEC (l / 8)))
    (x.ready && x.peerReady && x.stage == 4)))

/-- A lightlane in full training receives a frame (R270): stages 1, 3 and 4 of Table 12.2, and in place of stage 2 the receiver
adapts alone. After END the headers are to be locked. -/
def State.laneTrains (s : State) (c w : Nat) (ready : Bool) : State :=
  let x := s.lane c
  let x := { x with peerReady := x.peerReady || bitOf w 12, ready := x.ready || ready }
  if x.train = 1 ∨ x.train = 3 then (s.setLane c { x with train := x.train + 1, trainAt := s.tick }).laneFrame c
  else if x.train = 2 then
    if x.ready then ((s.setLane c { x with train := 3, trainAt := s.tick }).adapted c).laneFrame c else s.setLane c x
  else if x.train = 4 then
    if bitOf w 15 then (s.setLane c { x with train := 5 }).lineStart c else (s.setLane c x).laneFrame c
  else s

/-- TRAINING_FRAME (R270, R291, R295): a frame's control word, whether the marker came inverted, and whether this lane's receiver
has adapted. A frame whose CHECK fails is ignored. -/
def execTrainingFrame (key : LaneKey) (word : BitVec 32) (inverted ready : Bool) (s : State) : Result :=
  .next (
    let w := word.toNat
    let l := key.val - 256
    if (crc16 (leBytes 2 (w % 2 ^ 16))).toNat ≠ w / 2 ^ 16 then s
    else if key.val < 256 then s.laneTrains key w ready
    else if s.elkState l ≠ 1 then s
    else
      let m := l / 8
      let s := (s.setFld (R.ELK_LANE_STATUS.LOS l) 0).setFld (R.ELK_LANE_STATUS.PEER_LANE l) (w % 8)
      let s := s.setFld (R.ELK_LANE_STATUS.INVERTED l) (b2n inverted)
      let s := s.setElkPort m { s.elkPort m with fec272 := bitOf w 13, skois := bitOf w 14 }
      let s := s.moveTap l (getBits w 6 2) (getBits w 8 2)
      let x : ElkLane := { s.elkLane l with peerReady := bitOf w 12, ready := ready }
      let s := if x.stage = 1 then s.setElkLane l { x with stage := 2, since := s.tick }
        else if x.stage = 2 then
          if ¬ (x.ready ∧ x.peerReady) then s.setElkLane l x
          else s.setElkLane l { x with stage := if x.out then 6 else 3, since := s.tick }
        else if x.stage = 3 then s.setElkLane l { x with stage := 4, since := s.tick }
        else if x.stage = 4 ∧ bitOf w 15 then (s.setElkLane l x).setFld (R.ELK_LANE_STATUS.STATE l) 2
        else s.setElkLane l x
      s.elkFrame l)

/-- Limits of the training stages in ticks (Table 12.2, R34). -/
def stageLimit (n : Nat) : Nat :=
  if n = 2 then 937500 else if n = 4 then 62500 else 6250

/-- Limits of a lightlane's full training: those of Table 12.2, with 1 ms for the adaptation in place of stage 2 (R270). -/
def laneLimit (n : Nat) : Nat := if n = 4 ∨ n = 5 then 62500 else 6250

/-- TRAINING_STAGE_LIMIT (R270, R291, R294): a lane that misses its stage's limit is left out of the port; where the port retrains
from stage 3, it trains on from stage 1 by itself, and so does a lightlane (DESIGN CHOICE, log entry 72). -/
def execTrainingStageLimit (key : LaneKey) (s : State) : Result :=
  .next (
    let l := key.val - 256
    let x := s.elkLane l
    let y := s.lane key
    if key.val < 256 then
      if 1 ≤ y.train ∧ y.train ≤ 5 ∧ y.trainAt + laneLimit y.train ≤ s.tick then s.fullTrain key else s
    else if ¬ (1 ≤ x.stage ∧ x.stage ≤ 5) ∨ (s.elkState l ≠ 1 ∧ s.elkState l ≠ 2) ∨ s.tick < x.since + stageLimit x.stage then s
    else
      let s := s.linkEvent R.ELK_EVENTS.TRAIN_FAIL
      if 3 ≤ x.stage ∨ x.out then s.trainLane l 1 true
      else (s.setElkLane l { out := true }).setFld (R.ELK_LANE_STATUS.STATE l) 0)

/-- The lanes of a port whose training counts. -/
def State.trainees (s : State) (m : Nat) : List Nat :=
  (upFrom (8 * m) 8).filter fun l => s.mayTrain l && !(s.elkLane l).out

/-- PORT_TRAINING_DONE (R283, R289, R291, R295): every lane has completed or been left out; with at least MIN_LANES lanes the
port is UP and its channel waits for IDENT, else it is DOWN. -/
def execPortTrainingDone (m : ElkPortNo) (s : State) : Result :=
  .next (
    let ls := s.trainees m
    if s.fld (R.ELK_PORT_STATUS.STATE m) ≠ 1 ∨ ls.any (fun l => s.elkState l != 3)
        ∨ ¬ (s.flag R.GLB_TIME_STATUS.REFA_OK ∨ s.flag R.GLB_TIME_STATUS.REFB_OK) then s
    else if ls.length < s.fld (R.ELK_PORT_CTL.MIN_LANES m) ∨ ls.isEmpty then
      let s := (s.setFld (R.ELK_PORT_STATUS.STATE m) 0).setFld (R.SWC_CH_STATUS.STATE (256 + m)) chDOWN
      s.linkEvent R.ELK_EVENTS.PORT_DOWN
    else
      let x := s.elkPort m
      let sk := s.flag (R.ELK_PORT_CTL.SKOIS m) || x.skois
      let s := s.setFld (R.ELK_PORT_STATUS.ACTIVE m) (packBits (ls.map fun l => (l % 8, 1)))
      let s := s.setFld (R.ELK_PORT_STATUS.FEC m) (b2n (s.flag (R.ELK_PORT_CTL.FEC m) && x.fec272 && !sk))
      let s := (s.setFld (R.ELK_PORT_STATUS.SKOIS m) (b2n sk)).setFld (R.ELK_PORT_STATUS.STATE m) 2
      let s := ls.foldl (fun s l => s.setElkLane l {}) s
      let s := s.setElkPort m { x with busyAt := s.tick, sentEi := false }
      ((s.setFld (R.SWC_CH_STATUS.STATE (256 + m)) chTRAINING).lineStart (256 + m)).sendIdent (256 + m))

/-- TRAINING_RETRY (R291): every 2^16 ticks a DOWN port tries again from stage 1. -/
def execTrainingRetry (m : ElkPortNo) (s : State) : Result :=
  .next (
    if s.fld (R.ELK_PORT_STATUS.STATE m) = 0 ∧ s.flag (R.ELK_PORT_CTL.EN m) ∧ (s.elkPort m).tryAt + 2 ^ 16 ≤ s.tick then
      s.portTrain m 0 true
    else s)

/-- PORT_RETRAIN (R294): ELK_PORT_CTL.RETRAIN retrains the port now from stage 3. -/
def execPortRetrain (via : Via) (m : ElkPortNo) (s : State) : Result :=
  .next (s.gate via (R.ELK_PORT_CTL.adr m) fun s => if s.flag (R.ELK_PORT_CTL.EN m) then s.portTrain m 0 false else s)

/-- LANE_REJOIN (R294): at a tick that REJOIN permits, a port with a returning lane retrains. -/
def execLaneRejoin (m : ElkPortNo) (s : State) : Result :=
  .next (
    let r := s.fld (R.ELK_PORT_CTL.REJOIN m)
    let st := s.fld (R.ELK_PORT_STATUS.STATE m)
    if (r = 0 ∨ s.tick % 2 ^ 16 % r = 0) ∧ 2 ≤ st
        ∧ (upFrom (8 * m.val) 8).any (fun l => s.mayTrain l && (s.elkLane l).stage == 6) then s.portTrain m 0 false
    else s)

/-! ## Idle (R292, R293, R296) -/

/-- Whether a channel has nothing to send: no packet queued for it or to be resent, no credit and no acknowledgement to
return (R150). -/
def State.nothingToSend (s : State) (c : Nat) : Bool :=
  let x := s.chan c
  !(s.swc.linkq.any fun q => s.isFor c q) && x.resend.isEmpty
    && s.creditBlock c == .credit x.toldAck (BitVec.ofNat 12 (s.fld (R.SWC_CH_STATUS.TX_SEQ c))) x.toldFreed

/-- Set the state of a port's active lanes. -/
def State.setLanes (s : State) (m st : Nat) : State :=
  (upFrom (8 * m) 8).foldl (fun s l => if s.laneActive l then s.setFld (R.ELK_LANE_STATUS.STATE l) st else s) s

/-- Both ends have sent EI: the port is quiet. -/
def State.goQuiet (s : State) (m : Nat) : State :=
  ((s.setFld (R.ELK_PORT_STATUS.STATE m) 3).setFld (R.SWC_CH_STATUS.STATE (256 + m)) chIDLE).setLanes m 4

/-- IDLE_ENTER (R150, R292): the port sends EI, and is quiet once the peer's EI has come. -/
def execIdleEnter (m : ElkPortNo) (s : State) : Result :=
  .next (
    let c := 256 + m.val
    if ¬ s.flag (R.ELK_PORT_CTL.IDLE_EN m) ∨ s.skois c ∨ s.fld (R.ELK_PORT_STATUS.STATE m) ≠ 2 ∨ s.chState c ≠ chUP
        ∨ ¬ s.nothingToSend c ∨ (s.elkPort m).sentEi then s
    else
      let s := (s.sendEi c).setElkPort m { s.elkPort m with sentEi := true }
      if (s.chan c).ei then s.goQuiet m else s)

/-- EI_BLOCK (R292, R296): the peer announces electrical idle. A lightlane never idles (R270). -/
def execEiBlock (c : Channel) (s : State) : Result :=
  .next (
    if c.val < 256 then s
    else
      let m := c.val - 256
      let s := s.setChan c { s.chan c with ei := true }
      if s.skois c then
        let st := s.fld (R.ELK_PORT_STATUS.STATE m)
        if st = 2 then s.setFld (R.ELK_PORT_STATUS.STATE m) 5 else if st = 4 then s.setFld (R.ELK_PORT_STATUS.STATE m) 3 else s
      else if (s.elkPort m).sentEi then s.goQuiet m else s)

/-- Whether a quiet transmitter must exit: something to send, or a CREDIT due at the next boundary (R150, R293, R296). -/
def State.mustExit (s : State) (m : Nat) : Bool :=
  let c := 256 + m
  !s.nothingToSend c || decide ((s.elkPort m).busyAt + (if s.skois c then 2 ^ 14 - 1 else 15) ≤ s.tick)

/-- IDLE_EXIT (R150, R293, R296): a quiet transmitter exits idle. -/
def execIdleExit (m : ElkPortNo) (s : State) : Result :=
  .next (
    let c := 256 + m.val
    let st := s.fld (R.ELK_PORT_STATUS.STATE m)
    if (st ≠ 3 ∧ st ≠ 4) ∨ ¬ s.mustExit m then s
    else
      let s := s.setElkPort m { s.elkPort m with sentEi := false, busyAt := s.tick + 1 }
      let s := ((s.setFld (R.SWC_CH_STATUS.STATE c) chUP).setLanes m 3).lineResume c
      if s.skois c then s.setFld (R.ELK_PORT_STATUS.STATE m) (if (s.chan c).ei then 5 else 2)
      else
        let s := s.setChan c { s.chan c with ei := false, lastCredit := s.tick }
        s.setFld (R.ELK_PORT_STATUS.STATE m) 2)

/-- Ticks with nothing to send after which a Skois direction sleeps: SLEEP_TICKS, and 1 at shed level S4 and above (Table 16.3). -/
def State.sleepTicks (s : State) (m : Nat) : Nat :=
  if 4 ≤ s.fld R.GLB_POWER_STATUS.LEVEL then 1 else s.fld (R.ELK_SKOIS_CTL.SLEEP_TICKS m)

/-- SKOIS_SLEEP (R296): a Skois direction with nothing to send for SLEEP_TICKS sends EI and is quiet by itself. -/
def execSkoisSleep (m : ElkPortNo) (s : State) : Result :=
  .next (
    let c := 256 + m.val
    let st := s.fld (R.ELK_PORT_STATUS.STATE m)
    if ¬ s.skois c ∨ (st ≠ 2 ∧ st ≠ 5) ∨ ¬ s.nothingToSend c
        ∨ s.tick < (s.elkPort m).busyAt + s.sleepTicks m then s
    else
      let s := (s.sendEi c).setFld (R.ELK_PORT_STATUS.STATE m) (if st = 5 then 3 else 4)
      (s.setFld (R.SWC_CH_STATUS.STATE c) chIDLE).setLanes m 4)

/-! ## Lane tests (R297 to R299) -/

/-- ELK_LANE_TEST_WRITE (R297): TEST takes the lane out of its port, which retrains without it, or returns it. -/
def execElkLaneTestWrite (via : Via) (l : ElkLaneNo) (v : Word) (s : State) : Result :=
  .next (s.gate via (R.ELK_LANE_CTL.adr l) fun s =>
    let v := v.toNat
    let still := !s.flag (R.ELK_LANE_CTL.GEN_EN l) && !s.flag (R.ELK_LANE_CTL.CHK_EN l)
    let pat := getBits v 1 2
    let s := if pat = s.fld (R.ELK_LANE_CTL.PATTERN l) then s
      else if still then s.setFld (R.ELK_LANE_CTL.PATTERN l) pat else s.linkEvent R.ELK_EVENTS.CFG_BUSY
    let s := (s.setFld (R.ELK_LANE_CTL.GEN_EN l) (getBits v 3 1)).setFld (R.ELK_LANE_CTL.CHK_EN l) (getBits v 4 1)
    let s := if bitOf v 4 then s else s.setFld (R.ELK_LANE_STATUS.CHK_LOCK l) 0
    let was := s.flag (R.ELK_LANE_CTL.TEST l)
    let s := s.setFld (R.ELK_LANE_CTL.TEST l) (v % 2)
    if ¬ was ∧ bitOf v 0 then
      let part := s.laneActive l
      let s := (s.setElkLane l {}).setFld (R.ELK_LANE_STATUS.STATE l) 5
      if part then s.portTrain (l / 8) 0 false else s
    else if was ∧ ¬ bitOf v 0 then
      if bitOf (s.fld (R.ELK_PORT_CTL.LANE_EN (l / 8))) (l % 8) ∧ s.flag (R.ELK_PORT_CTL.EN (l / 8)) then s.trainLane l 1 true
      else s.setFld (R.ELK_LANE_STATUS.STATE l) 0
    else s)

/-- ELK_CNT_SRC_WRITE (R298): only the bits of lanes in test change; a change of source clears the lane's counters. -/
def execElkCntSrcWrite (via : Via) (v : Word) (s : State) : Result :=
  .next (s.gate via R.ELK_CNT_SRC.adr fun s =>
    (upFrom 0 48).foldl (fun s l =>
      let f : Field := ⟨R.ELK_CNT_SRC.adr, l, 1⟩
      if s.flag f == v.getLsbD l then s
      else if s.flag (R.ELK_LANE_CTL.TEST l) then
        (upFrom 0 4).foldl (fun s k => s.setFld (R.ELK_LANE_CNT.CNT l k) 0) (s.setFld f (b2n (v.getLsbD l)))
      else s.linkEvent R.ELK_EVENTS.CFG_BUSY) s)

/-- ELK_INJECT_GO (R9, R299): a lane that is quiet waits for its exit. -/
def execElkInjectGo (via : Via) (l : ElkLaneNo) (kind : BitVec 2) (len : BitVec 8) (count interval : BitVec 16) (s : State) :
    Result :=
  .next (s.gate via (R.ELK_INJECT.adr l) fun s =>
    let key := 256 + l.val
    if (FMap.find s.elk.inject key).isSome ∨ ¬ goodInject kind.toNat len.toNat count.toNat interval.toNat then
      s.linkEvent R.ELK_EVENTS.CFG_BUSY
    else if s.elkState l = 4 then
      let x : Inject := { kind := kind.toNat, len := len.toNat, left := count.toNat, interval := interval.toNat, next := s.tick }
      ({ s with elk := { s.elk with inject := s.elk.inject.put key x } }).setFld (R.ELK_INJECT.BUSY l) 1
    else s.startInject key kind.toNat len.toNat count.toNat interval.toNat (R.ELK_INJECT.BUSY l))

/-- Whether a lane's checker runs: in test with CHK_EN, and in a margin test (R272, R297). -/
def State.checking (s : State) (key : Nat) : Bool :=
  if key < 256 then (s.flag (R.OPT_LANE_TEST.TEST key) && s.flag (R.OPT_LANE_TEST.CHK_EN key)) || (s.lane key).test != 0
  else s.flag (R.ELK_LANE_CTL.TEST (key - 256)) && s.flag (R.ELK_LANE_CTL.CHK_EN (key - 256))

/-- The CHK_LOCK field of a lane. -/
def chkLock (key : Nat) : Field :=
  if key < 256 then R.OPT_LANE_TEST.CHK_LOCK key else R.ELK_LANE_STATUS.CHK_LOCK (key - 256)

/-- Whether the source of a lane's counters is its pattern checker (R298). -/
def State.fromChecker (s : State) (key : Nat) : Bool :=
  if key < 256 then s.flag ⟨R.OPT_CNT_SRC.adr (key / 64), key % 64, 1⟩ else s.flag ⟨R.ELK_CNT_SRC.adr, key - 256, 1⟩

/-- A lane's counter `k` counts on. -/
def State.laneCnt (s : State) (key k n : Nat) : State :=
  if key < 256 then s.addFld (R.OPT_LANE_CNT.CNT key k) n else s.addFld (R.ELK_LANE_CNT.CNT (key - 256) k) n

/-- What a lane has counted by a boundary reaches the counters of its source (R271, R298): FEC statistics; or, while the checker is
locked, bits checked and errors, the relocks being counted as they happen. An electrical receiver shows its SNR estimate. -/
def State.countLane (s : State) (x : LaneCount) : State :=
  let s := if x.key.val < 256 then s else s.setFld (R.ELK_LANE_STATUS.SNR (x.key - 256)) x.snr.toNat
  if s.fromChecker x.key then
    if s.checking x.key ∧ s.flag (chkLock x.key) then
      ((s.laneCnt x.key 0 x.a.toNat).laneCnt x.key 1 x.b.toNat).laneCnt x.key 2 x.c.toNat
    else s
  else
    (((s.laneCnt x.key 0 x.a.toNat).laneCnt x.key 1 x.b.toNat).laneCnt x.key 2 x.c.toNat).laneCnt x.key 3 x.d.toNat

/-- PATTERN_CHECKER_LOCK (R297): 64 error-free symbols. -/
def execPatternCheckerLock (key : LaneKey) (s : State) : Result :=
  .next (if s.checking key then s.setFld (chkLock key) 1 else s)

/-- PATTERN_CHECKER_RELOCK (R297, R298): 4 errors within 64 symbols; the checker relocks, and counts it where the counters'
source is the checker. -/
def execPatternCheckerRelock (key : LaneKey) (s : State) : Result :=
  .next (
    if ¬ s.checking key ∨ ¬ s.flag (chkLock key) then s
    else if s.fromChecker key then s.laneCnt key 3 1 else s)

end Sys2Proof.Machine
end

