-- ==== Sys2Proof/Machine/Power.lean ====
section
/-! DEFINITION. Shed levels (R365 to R371). -/

namespace Sys2Proof.Machine

open Sys2Proof

/-- Replace the shed control's state. -/
def State.setPwr (s : State) (x : PwrState) : State := { s with pwr := x }

/-- A GLB_POWER_EVENTS bit is set, with cause POWER (R370). -/
def State.powerEvent (s : State) (f : Field) : State := s.event f 0

/-- Input bound of a shed level, W (Table 16.3). -/
def shedBound : Nat → Nat
  | 0 => 1000
  | 1 => 900
  | 2 => 825
  | 3 => 750
  | 4 => 700
  | 5 => 650
  | 6 => 575
  | _ => 500

/-- The cap in effect: 1,001 to 2,047 act as 1,000 (Table 16.19). -/
def State.cap (s : State) : Nat := min 1000 (s.fld R.GLB_POWER_CAP.CAP)

/-- The cap controller's target: the lowest-numbered level whose bound is at or below the cap; S7 for a lower cap (R368). -/
def State.capTarget (s : State) : Nat := ((upFrom 0 8).find? fun n => decide (shedBound n ≤ s.cap)).getD 7

/-- The level that all sources together demand (R367). -/
def State.demanded (s : State) : Nat :=
  let cruise := if s.fld R.GLB_CRUISE_STATUS.PHASE < 8 then 5 else 0
  maxOf [s.pwr.demand, if s.flag R.GLB_POWER_STATUS.EMERG then 7 else 0, if s.flag R.GLB_POWER_STATUS.HOT then 4 else 0,
    if s.pwr.uv then 7 else 0, s.fld R.GLB_POWER_CTL.MIN_LEVEL, cruise]

/-- The cap controller at a tick boundary (R368); it holds while the controller restarts or is swapped (R344, R385). -/
def State.capControl (s : State) : State :=
  if s.mgtAway then s
  else
    let t := s.capTarget
    let d := s.pwr.demand
    let s := s.setFld R.GLB_POWER_STATUS.TARGET t
    if t = d then s
    else if t = d + 1 then s.setPwr { s.pwr with demand := t, changedAt := s.tick }
    else if d < t then (s.setPwr { s.pwr with demand := t, changedAt := s.tick }).powerEvent R.GLB_POWER_EVENTS.CAP_FAST
    else if s.pwr.changedAt + s.fld R.GLB_POWER_CTL.UP_TICKS ≤ s.tick then
      s.setPwr { s.pwr with demand := d - 1, changedAt := s.tick }
    else s

/-- Whether a shed step is due: the level in effect is not the one demanded (R367). -/
def State.shedDue (s : State) : Bool := !s.mgtAway && s.demanded != s.fld R.GLB_POWER_STATUS.LEVEL

/-- The shed step of a tick boundary (R367). -/
def State.shedStep (s : State) : State :=
  if ¬ s.shedDue then s
  else
    let n := s.demanded
    let at7 := if n = 7 then some s.tick else none
    (s.setFld R.GLB_POWER_STATUS.LEVEL n).setPwr { s.pwr with s7At := at7 }

/-- CAP_UNMET: 64 ticks after S7 took effect under a cap below 500 W, the input power is still above the cap (R368). -/
def State.capUnmet (s : State) : State :=
  match s.pwr.s7At with
  | some t =>
    if s.tick = t + 64 ∧ s.cap < 500 ∧ s.cap < s.fld R.GLB_POWER_STATUS.INPUT_W then s.powerEvent R.GLB_POWER_EVENTS.CAP_UNMET
    else s
  | none => s

end Sys2Proof.Machine
end

