-- ==== Sys2Proof/Machine/ColCmds.lean ====
section
/-! DEFINITION. The commands of the Collective Engine (chapter 9). -/

namespace Sys2Proof.Machine

open Sys2Proof

/-- The reservation of RSV for a partition and CID. -/
def State.rsvOf (s : State) (p cid : Nat) : Option ColRsv := s.col.rsvs.find? fun r => r.part == p && r.cid == cid

/-- Replace or remove a reservation of RSV. -/
def State.setRsv (s : State) (p cid : Nat) (r : Option ColRsv) : State :=
  let rest := s.col.rsvs.filter fun r => !(r.part == p && r.cid == cid)
  { s with col := { s.col with rsvs := rest ++ r.toList } }

/-- RESERVATION_GRANT (R205, R207). -/
def execReservationGrant (p : PartNo) (cid : BitVec 32) (s : State) : Result :=
  .next <|
    match s.colOf p cid with
    | some (h, e) =>
      if e.res = 0 ∧ e.abort.isNone ∧ s.grantable p cid.toNat e.slots then
        (s.reserve e.slots).decided h { e with res := 1, held := s.active, positions := s.active }
      else s
    | none =>
      match s.rsvOf p cid.toNat with
      | some r =>
        if r.res = 0 ∧ s.grantable p cid.toNat r.slots then
          (s.reserve r.slots).setRsv p cid.toNat (some { r with res := 1, held := s.active })
        else s
      | none => s

/-- RESERVATION_WITHDRAW (R205): 64 ticks after issue, or after the RSV, an ungranted request makes the collective spill; one that
is aborting sends no JOIN. -/
def execReservationWithdraw (p : PartNo) (cid : BitVec 32) (s : State) : Result :=
  .next <|
    match s.colOf p cid with
    | some (h, e) =>
      let e' := { e with res := 2, flags := e.flags ||| 1, positions := s.active }
      if e.res ≠ 0 ∨ s.tick < e.reqAt + 64 then s
      else if e.abort.isSome then (s.raise R.COL_EVENTS.SPILL).setCol h e'
      else (s.raise R.COL_EVENTS.SPILL).decided h e'
    | none =>
      match s.rsvOf p cid.toNat with
      | some r =>
        if r.res = 0 ∧ r.reqAt + 64 ≤ s.tick then
          (s.raise R.COL_EVENTS.SPILL).setRsv p cid.toNat (some { r with res := 2 })
        else s
      | none => s

/-- RSV_EXPIRE (R206): no COLL has taken the reservation within JOIN_TICKS. -/
def execRsvExpire (p : PartNo) (cid : BitVec 32) (s : State) : Result :=
  .next <|
    match s.rsvOf p cid.toNat with
    | some r =>
      if r.reqAt + s.fld R.COL_CTL.JOIN_TICKS ≤ s.tick then
        ((s.unreserve r.held r.slots).setRsv p cid.toNat none).count R.COL_COUNTS1.RSV_EXPIRED
      else s
    | none => s

/-! ## Control messages (R212) -/

/-- Fields of a COLL_CTL payload (Table 9.4). -/
def ccType (p : Packet) : Nat := getBits p.payload.toNat 0 8
def ccStep (p : Packet) : Nat := getBits p.payload.toNat 8 4
def ccRound (p : Packet) : Nat := getBits p.payload.toNat 12 2
def ccOk (p : Packet) : Bool := bitOf p.payload.toNat 16
def ccValue (p : Packet) : Nat := getBits p.payload.toNat 64 64

/-- What a JOIN, READY or XDONE does to the entry that it is for. -/
def State.colMessage (s : State) (h : Nat) (e : ColEntry) (p : Packet) : State :=
  let src := p.src.toNat
  let e := e.heardFrom src s.tick
  if e.abort.isSome then s
  else if ccType p = 1 then
    (s.setCol h { e with joined := if e.joined.contains src then e.joined else e.joined ++ [src] }).colAdvance h
  else if ccType p = 2 then
    (s.setCol h { e with ready := e.ready.put (readyKey (ccStep p) (ccRound p) src) (ccValue p, ccOk p) }).colAdvance h
  else if ccType p = 4 then
    match e.members.findIdx? (· == src) with
    | some r => (s.setCol h ({ e with announced := e.announced.put r (ccValue p) } : ColEntry).xEnd).colAdvance h
    | none => s
  else s

/-- A JOIN, READY or XDONE arrives: for an active collective at once; kept for one not yet issued here (DEDUCED; log entry
32); discarded where an abort record matches (R221) or the generation is not the current one (R211). -/
def State.colControl (s : State) (type : Nat) (p : Packet) : State :=
  let part := partOf p.tag
  if p.op ≠ opCOLLCTL ∨ ccType p ≠ type then s
  else if !s.intact p then s.takeLocal p
  else
    let s := s.takeLocal p
    if p.tag ≠ s.tagOf part then s
    else match s.colOf part (BitVec.ofNat 32 (ccCid p)) with
      | some (h, e) => s.colMessage h e p
      | none =>
        if (s.abortRecord part (ccCid p)).isSome then s
        else { s with col := { s.col with early := s.col.early ++ [p] } }

/-- JOIN_MESSAGE (R207). -/
def execJoinMessage (p : Packet) (s : State) : Result := .next (s.colControl 1 p)

/-- READY_MESSAGE (R208, R210). -/
def execReadyMessage (p : Packet) (s : State) : Result := .next (s.colControl 2 p)

/-- XDONE_MESSAGE (R214). -/
def execXdoneMessage (p : Packet) (s : State) : Result := .next (s.colControl 4 p)

/-- JOIN_TIMEOUT (R207): DETAIL 0x12. -/
def execJoinTimeout (p : PartNo) (cid : BitVec 32) (s : State) : Result :=
  .next <|
    match s.colOf p cid with
    | some (h, e) =>
      if e.missing ∧ e.issuedAt + s.fld R.COL_CTL.JOIN_TICKS ≤ s.tick then s.colAbort h 0x12 else s
    | none => s

/-! ## Steps -/

/-- AGREED_STEP_START (R208, R213): at T the step starts. With F = 1 its switch, requested when the agreement was reached, takes
the boundary's slot, and data flows once that has completed (PHASE_START); with F = 0 the phase starts on the plans in force, or
the closing step ends; an exchange starts. -/
def execAgreedStepStart (p : PartNo) (cid : BitVec 32) (x : Supply) (s : State) : Result :=
  .next <|
    match s.colOf p cid with
    | none => s
    | some (h, e) =>
      match e.agreed with
      | none => s
      | some (m, f) =>
        let T := m + s.fld R.COL_CTL.LEAD_PLAN
        if e.asked ∨ e.abort.isSome ∨ s.tick < T then s
        else
          let e := { e with asked := true }
          match e.phaseNow with
          | some ph =>
            (if ph.kind = 3 then s.startExchange h e x.hosts
            else if f then s.setCol h e
            else s.startPhase h e ph x.hosts x.runs).settleCredits
          | none => (s.setCol h (if f then e else { e with done := true })).settleCredits

/-- PHASE_START (R198, R202, R208): a phase that needs no agreement, or whose agreed switch has completed, starts once the
previous phase is complete and the neighbours' JOINs are held. Work items that sum several sources go as `x.runs` has it (R193). -/
def execPhaseStart (p : PartNo) (cid : BitVec 32) (x : Supply) (s : State) : Result :=
  .next <|
    match s.colOf p cid with
    | none => s
    | some (h, e) =>
      match e.phaseNow with
      | none => s
      | some ph =>
        if ph.kind = 3 ∨ e.running ∨ e.abort.isSome ∨ e.res = 0 ∨ e.missing ∨ (e.byAgreement ∧ ¬ e.switched) then s
        else s.startPhase h e ph x.hosts x.runs

/-! ## Data -/

/-- Discard a COLL or XCHG packet, counted in LATE (R211, R221). -/
def State.colLate (s : State) (p : Packet) : State := (s.takeLocal p).count R.COL_COUNTS1.LATE

/-- The collective that a COLL or XCHG packet is for (R211): none also where its generation is not the current one, and
where the collective is being aborted (R219). -/
def State.colTarget (s : State) (p : Packet) (op : Nat) : Option (Nat × ColEntry) :=
  let part := partOf p.tag
  if p.tag ≠ s.tagOf part then none
  else match s.colFind part (lineCid p) with
    | some (h, e) => if e.abort.isSome ∨ (op = opXCHG ∧ ¬ cdExchange e.desc) then none else some (h, e)
    | none => none

/-- A COLL packet is reduced, and its partial sent on or kept; or, in a phase that distributes results, taken and sent on. Cells that
the item's checks have found bad are retired once it has ended (R194). -/
def State.collTake (s : State) (h : Nat) (e : ColEntry) (ph : Phase) (x : Seg) (k pos : Nat) (p : Packet) (run : ItemRun)
    (hs : List HostAnswer) : State :=
  let d := (e.descs.getD x.desc 0).toNat
  let a := ph.axis e.desc
  let last := x.stop (cdDim e.desc a) ph.kind == coord e.desc e.rank a
  let (l, half) := e.wireLine ph x k
  let src := p.src.toNat
  let e := (({ e with got := e.got + 1, gotFrom := e.gotFrom.put src (FMap.get (fun _ => 0) e.gotFrom src + 1) } : ColEntry).heardFrom
    src s.tick).took x pos
  let r : ColRun := { g := s.eng e.tag hs e.op, e := e }
  let data := p.data.toNat
  let forward := fun (s : State) (v : Nat) (pz : Bool) =>
    if last then s else s.colSend h (s.collPacket e (e.nextPeer ph x) ph x k v pz)
  if ph.kind = 0 then
    let (r, loc, bad) := r.localPart ph x.desc l half
    if r.g.fail.isSome then r.done h
    else
      let accs := if cdWide d ∨ ph.pre then [] else orderedAccs (cdFmt d) (cdRop d) [data, loc.data]
      let ok := (!cdWide d || ph.pre || alignedResOk (cdFmt d) data loc.data) && accs.all LAcc.resOk
      let (s, c) := r.g.s.checkItem pos (max r.g.level r.e.chk.toNat) (run.judged ok) (Config.itemCrc false e.cid l)
      let retire := fun (s : State) => s.retireCells (s.fld (R.LDL_POS_STATUS.PHYS pos)) c.retire
      if !c.usable then retire ((s.setCol h r.e).colAbort h 0x15)
      else
        let hop := reduceHop d ph.pre data loc.data
        let pz := p.pz || bad
        let s := s.keepAccs (s.fld (R.LDL_POS_STATUS.PHYS pos)) run.cell accs
        let s := if e.res = 2 then s.spill h (1024 * x.num + k) data p.pz loc.data bad else s
        let r := (({ r with g := { r.g with s := s } } : ColRun).note d loc).note d { hop with flags := hop.flags ||| c.flags }
        let r := if last then r.keep ph x.desc l half hop.data pz else r
        let r := r.phaseEnd ph
        let s := r.done h
        retire (if r.g.fail.isSome then s else (forward s hop.data pz).colAdvance h)
  else
    let r := if ph.pre then r.exponents x.desc l data else r.result x.desc l data p.pz
    let r := r.phaseEnd ph
    let s := r.done h
    if r.g.fail.isSome then s else (forward s data p.pz).colAdvance h

/-- COLL_PACKET (R18, R199, R201, R211, R218, R219, R221): `run` is how its work item goes. A packet waits in the input pool while
this member has not started its phase, while its segment finds no slot free (R207), while its position is being replaced (R195), and,
in a reduce-scatter phase, while its position runs kernel work in this quantum (R184); work items run on live cells (R194). -/
def execCollPacket (p : Packet) (run : ItemRun) (hs : List HostAnswer) (s : State) : Result :=
  .next <|
    if p.op ≠ opCOLL then s
    else if !s.intact p then s.takeLocal p
    else match s.colTarget p opCOLL with
    | none => s.colLate p
    | some (h, e) =>
      if e.res = 0 ∨ e.res = 3 then
        let s := (s.takeLocal p).faultLog 0x0201 p.tag.toNat 6 h p.line.toNat p.src.toNat
        s.colAbort h 0x19
      else
        let num := getBits p.line.toNat 28 4
        match (upFrom 0 e.phases.length).find? fun i => (e.phases.getD i ⟨0, 0, false, 0⟩).num == num with
        | none => s.colLate p
        | some i =>
          if i < e.phase then s.colLate p
          else if e.phase < i ∨ ¬ e.running then s
          else
            let ph := e.phases.getD i ⟨0, 0, false, 0⟩
            let k := getBits p.line.toNat 0 10
            let n := cdDim e.desc (ph.axis e.desc)
            match (e.segs ph).find? fun x => x.num == getBits p.line.toNat 10 18 with
            | none => s.colLate p
            | some x =>
              if x.count ≤ k ∨ x.start n ph.kind = coord e.desc e.rank (ph.axis e.desc) then s.colLate p
              else match s.segPosition e x.num with
                | none => s
                | some pos =>
                  if ¬ e.slotFor pos x.num ∨ s.posState pos = 1 ∨ (ph.kind = 0 ∧ s.cellsBusy pos)
                      ∨ (ph.kind = 0 ∧ s.isRetired (s.fld (R.LDL_POS_STATUS.PHYS pos)) run.cell) then s
                  else (s.takeLocal p).collTake h e ph x k pos p run hs

/-- XCHG_PACKET (R185, R211, R213, R214). -/
def execXchgPacket (p : Packet) (hs : List HostAnswer) (s : State) : Result :=
  .next <|
    if p.op ≠ opXCHG then s
    else if !s.intact p then s.takeLocal p
    else match s.colTarget p opXCHG with
    | none => s.colLate p
    | some (h, e) =>
      match e.members.findIdx? (· == p.src.toNat) with
      | none => s.colLate p
      | some from_ =>
        let s := s.takeLocal p
        let e := e.heardFrom p.src.toNat s.tick
        let r : ColRun := { g := s.eng e.tag hs e.op, e := e }
        let r := r.xLine from_ (getBits p.line.toNat 0 32) p.data.toNat p.pz
        ((({ r with e := if r.g.fail.isNone then r.e.xEnd else r.e } : ColRun).done h).colAdvance h).exchangeGo h

/-- COLLECTIVE_STALL (R219): DETAIL 0x13. -/
def execCollectiveStall (p : PartNo) (cid : BitVec 32) (s : State) : Result :=
  .next <|
    match s.colOf p cid with
    | some (h, e) => if s.colStalled e then s.colAbort h 0x13 else s
    | none => s

/-! ## Aborts -/

/-- ABORT_MESSAGE (R212, R219): the first ABORT received, and any later one with a smaller epoch, is relayed; the member stops, and
the smallest epoch it knows, its own among them, is the collective's. -/
def execAbortMessage (p : Packet) (s : State) : Result :=
  .next <|
    let part := partOf p.tag
    if p.op ≠ opCOLLCTL ∨ ccType p ≠ 3 then s
    else if !s.intact p then s.takeLocal p
    else
      let s := s.takeLocal p
      if p.tag ≠ s.tagOf part then s
      else
        let s := s.raise R.COL_EVENTS.ABORT_RX
        let epoch := ccValue p
        match s.colOf part (BitVec.ofNat 32 (ccCid p)) with
        | some (h, e) =>
          let s := if e.abort.isNone ∧ epoch + 192 < s.tick then s.raise R.COL_EVENTS.LATE_ABORT else s
          let first := match e.heard with | some x => decide (epoch < x) | none => true
          if !first then s
          else
            let detail := match e.abort with | some (_, d) => d | none => 0x11
            let newer := match e.abort with | some (x, _) => decide (epoch < x) | none => true
            let s := s.setCol h { e with heard := some epoch, running := false, blocks := [],
                                         abort := if newer then some (epoch, detail) else e.abort }
            let s := if newer then (s.askRestore e epoch).keepAbort part e.cid epoch else s
            s.sendAborts e epoch
        | none =>
          match s.abortRecord part (ccCid p) with
          | some a => if epoch < a.epoch then s.keepAbort part (ccCid p) epoch else s
          | none => s.keepAbort part (ccCid p) epoch

/-- DST of an aborted collective is undefined (Table 9.7): the lines that this member may have written hold free values. Answers the
host ports written to. -/
def State.scramble (s : State) (e : ColEntry) : State × List Nat :=
  e.descs.foldl (fun (a : State × List Nat) b =>
    let d := b.toNat
    let lines := if cdExchange d then
        maxOf ((upFrom 0 e.members.length).map fun r => e.xBase r + (e.xExpect r).getD 0)
      else if cdOp d = 3 ∧ e.rank ≠ cdRoot d then 0
      else if cdOp d = 2 then cdLines d / cdN d
      else setLines d false
    (upFrom 0 lines).foldl (fun (a : State × List Nat) l =>
      let (v, s) := a.1.fresh
      let g := (s.eng e.tag [] e.op a.2).write (cdDst d + 64 * l) 0 64 v false
      (g.s, g.ports)) a) (s, e.ports)

/-- ABORT_COMPLETE (R219, R220): at e + 192, or at once where the abort was learned later. The plan lock goes with the restoring
switch, where there is one. -/
def execAbortComplete (p : PartNo) (cid : BitVec 32) (s : State) : Result :=
  .next <|
    match s.colOf p cid with
    | none => s
    | some (h, e) =>
      match e.abort with
      | none => s
      | some (epoch, detail) =>
        if s.tick < epoch + 192 then s
        else
          let (s, ports) := s.scramble e
          let s := if e.restorePlan.isNone then s.unlockCol e else s
          let s := s.freeCol h e
          { s with col := { s.col with ended := s.col.ended ++ [{ e with status := sABORTED, detail := detail, ports := ports }] } }

/-- ABORT_RECORD_EXPIRE (R221). -/
def execAbortRecordExpire (p : PartNo) (cid : BitVec 32) (s : State) : Result :=
  .next <|
    match s.abortRecord p cid.toNat with
    | some a =>
      if a.at_ + s.fld R.COL_CTL.QUAR_TICKS ≤ s.tick then
        { s with col := { s.col with aborts := s.col.aborts.filter fun x => !(x.part == a.part && x.cid == a.cid) } }
      else s
    | none => s

/-! ## Completion (R217, R218) -/

/-- The completion record of a descriptor (Table 9.6). PHASE and START_TICK of a collective that has started no phase are
free values. -/
def ColEntry.record (e : ColEntry) (i start phase now : Nat) : Line :=
  let d := (e.descs.getD i 0).toNat
  let idx := if ¬ e.batch then 0 else if e.status = sCHECK ∧ e.detail = 1 then e.batchIdx else i
  recordLine (cdCseq d) (cdCkind d) 40
    (leBytes 1 e.status ++ leBytes 1 e.detail ++ leBytes 1 e.flags.toNat ++ leBytes 1 idx ++ leBytes 1 (phase % 16)
      ++ leBytes 3 0 ++ leBytes 8 (cdUser d) ++ leBytes 8 start ++ leBytes 8 now
      ++ leBytes 8 (match e.abort with | some (x, _) => x | none => 0))

/-- A collective completes (R217, R218, R349): its records, the counts, and the thread's operation. -/
def State.endCol (s : State) (e : ColEntry) (hs : List HostAnswer) : State :=
  let (a, s) := s.fresh
  let (b, s) := s.fresh
  let start := e.startTick.getD a
  let phase := if e.startTick.isSome then e.phaseShown else b
  let now := s.tick
  let (g, w) := (upFrom 0 e.descs.length).foldl (fun (r : Eng × Option (Nat × Nat)) i =>
    let d := (e.descs.getD i 0).toNat
    let (s, w) := r.1.complete (cdCompl d % 2 ^ 57) (e.record i start phase now) e.thread e.pc
    ({ r.1 with s := s }, if r.2.isSome then r.2 else w)) (s.eng e.tag hs e.op, none)
  let s := g.s
  let s := if e.status = sABORTED then s.count R.COL_COUNTS0.ABORTED else s.count R.COL_COUNTS0.COMPLETED
  let s := s.tally 1824
  let s := match e.poison with
    | some (l, sub) => if e.status = sPOISON then s.consume e.part 3 e.tag.toNat l sub s.feid 0 else s
    | none => s
  match w with
  | none => s.closeOp e.thread e.op e.status e.detail
  | some (st, dt) => s.closeOp e.thread e.op st dt

/-- COLLECTIVE_COMPLETE (R127, R206, R210, R217, R218): the collective that has ended, or the active one whose phases and closing
step have ended; every DST write, mirrored ones and those to a host, has been performed first. An aborted one keeps its status where
a host reports an error at that. -/
def execCollectiveComplete (p : PartNo) (cid : BitVec 32) (hs : List HostAnswer) (s : State) : Result :=
  .next <|
    match s.col.ended.find? fun e => e.part == p.val && e.cid == cid.toNat with
    | some e =>
      if s.engineWaits (e.op + 1) then s
      else
        let g := (({ s with col := { s.col with ended := s.col.ended.erase e } }).eng e.tag hs e.op e.ports).flush
        g.s.endCol e g.hs
    | none =>
      match s.colOf p cid with
      | none => s
      | some (h, e) =>
        if ¬ e.done ∨ e.abort.isSome ∨ s.engineWaits (e.op + 1) then s
        else
          let g := (s.eng e.tag hs e.op e.ports).flush
          match g.fail with
          | some f => g.s.colFailed h e f
          | none =>
            let e := if e.status = sOK ∧ e.poison.isSome then { e with status := sPOISON, detail := 6 } else e
            ((g.s.freeCol h e).unlockCol e).endCol e g.hs

/-- XCHG_FAMILY_CHANGE (R215): once no exchange runs, the family of the exchange that has waited longest is taken, and every
exchange of that family starts its agreement. -/
def execXchgFamilyChange (s : State) : Result :=
  .next <|
    let xs := s.col.entries.filter fun e => cdExchange e.2.desc
    let waiting := xs.filter fun e => e.2.waits
    if (xs.any fun e => !e.2.waits) ∨ waiting = [] then s
    else
      let first := waiting.foldl (fun (b : Option (Nat × ColEntry)) e => match b with
        | none => some e
        | some x => if e.2.issuedAt < x.2.issuedAt then some e else some x) none
      match first with
      | none => s
      | some (_, f) =>
        let fam := cdOp f.desc - 8
        let s := s.setFld R.COL_XCHG_MODE.FAMILY fam
        (waiting.filter fun e => cdOp e.2.desc - 8 == fam).foldl (fun s e =>
          (s.setCol e.1 { e.2 with waits := false }).colAdvance e.1) s

end Sys2Proof.Machine
end

