-- ==== Sys2Proof/Machine/Disil.lean ====
section
/-! DEFINITION. Issue of a Disil instruction: the word in the instruction cache, the checks of R228, the guard (R227) and
the pending registers (R225). -/

namespace Sys2Proof.Machine

open Sys2Proof

/-- The 64-bit word of an instruction (Table 10.2). -/
def Insn.word (f : Insn) (opc : Nat) : Nat :=
  packBits [(0, opc % 256), (8, f.pg.toNat), (11, b2n f.pn), (12, f.d.toNat), (17, f.a.toNat), (22, f.b.toNat),
    (27, f.st.toNat), (32, f.imm.toNat)]

/-- The 8-byte word at a thread's PC in its instruction cache. -/
def State.fetchedWord (s : State) (t : Nat) : Option Nat :=
  (s.icLine t).map fun l => getBits l.toNat (8 * (s.pc t % 64)) 64

/-- Which fields an instruction uses (Table 10.3): D, A, B, S, and the bits of IMM. -/
structure Uses where
  d : Bool := false
  a : Bool := false
  b : Bool := false
  st : Bool := false
  imm : BitVec 32 := 0
deriving DecidableEq, Repr

/-- A field that the instruction does not use is not 0, or the guard is the reserved inverse of p0 (R226 to R228). -/
def Insn.malformed (f : Insn) (u : Uses) : Bool :=
  (f.pg == 0 && f.pn) || (!u.d && f.d != 0) || (!u.a && f.a != 0) || (!u.b && f.b != 0) || (!u.st && f.st != 0)
    || (f.imm &&& ~~~u.imm) != 0

/-- A line-group field is not a multiple of 8. -/
def badGroup (r : BitVec 5) : Bool := r.toNat % 8 != 0

/-- S equals D, or lies inside the line group D, and is not g0 (R228). -/
def Insn.clash (f : Insn) (group : Bool) : Bool :=
  f.st != 0 && (if group then f.st.toNat / 8 == f.d.toNat / 8 else f.st == f.d)

/-- Whether an instruction's guard is 1 (R227). -/
def Thread.guard (x : Thread) (f : Insn) : Bool := x.pred f.pg.toNat != f.pn

/-- The PC moves to the next instruction. -/
def State.advance (s : State) (t : Nat) : State := s.setPc t (s.pc t + 8)

/-- Count an instruction issued (Table 17.1): not one that waits to be issued again. -/
def State.countIssued (s0 s : State) (t : Nat) : State :=
  if s.tstate t = stWaiting ∧ s.pc t = s0.pc t ∧ ¬ ((s.thr t).wait matches .tick _) then s else s.tally 1880

/-- Whether Table 10.3 lists an OPC. -/
def opcListed (n : Nat) : Bool :=
  decide (n ≤ 0x0A ∨ (0x10 ≤ n ∧ n ≤ 0x2D) ∨ (0x40 ≤ n ∧ n ≤ 0x4A) ∨ (0x50 ≤ n ∧ n ≤ 0x57))

/-- Issue an instruction of opcode `opc` by thread `t`: nothing unless the thread is RUNNABLE and the word at its PC is this
instruction; a held status trap is taken first (R232); a miss waits for the line (R62); a word whose OPC Table 10.3 does not
list has no row of its own and traps with ILLEGAL_OP at the thread's next issue (R228; log entry 12); the checks of R228 come
whatever the guard; an instruction whose guard is 0 does nothing (R227); a pending register holds it (R225). -/
def State.insn (s : State) (t : ThreadNo) (opc : Nat) (f : Insn) (bad : Bool) (need : BitVec 32)
    (body : State → State) : State :=
  if s.tstate t ≠ stRunnable then s
  else if (s.thr t).held.isSome && !s.flag (R.SEQ_THREAD_STATUS.HANDLER t) then s.takeHeld t
  else match s.fetchedWord t with
    | none => s.waitOn t (.fetch (s.pc t))
    | some w =>
      if w ≠ f.word opc then (if opcListed (w % 256) then s else s.trap t 0x01 w)
      else if bad then s.trap t 0x01 w
      else if !(s.thr t).guard f then (s.advance t).tally 1880
      else if (s.thr t).pend &&& need ≠ 0 then s.waitOn t (.regs need)
      else s.countIssued (body s) t

/-- Read a register of a thread. -/
def State.greg (s : State) (t : Nat) (r : BitVec 5) : Word := (s.thr t).reg r

/-- Write a register of a thread. -/
def State.setGreg (s : State) (t : Nat) (r : BitVec 5) (v : Word) : State := s.setThr t ((s.thr t).setReg r v)

/-- Write a predicate of a thread. -/
def State.setPredOf (s : State) (t i : Nat) (v : Bool) : State := s.setThr t ((s.thr t).setPred i v)

/-- A two-source scalar instruction: gD := op gA gB. -/
def State.alu (s : State) (t : ThreadNo) (opc : Nat) (f : Insn) (op : Word → Word → Word) : State :=
  s.insn t opc f (f.malformed { d := true, a := true, b := true }) (regMask f.d ||| regMask f.a ||| regMask f.b)
    fun s => (s.setGreg t f.d (op (s.greg t f.a) (s.greg t f.b))).advance t

/-- An immediate scalar instruction: gD := op gA IMM, with the used bits of IMM. -/
def State.aluImm (s : State) (t : ThreadNo) (opc : Nat) (f : Insn) (imm : BitVec 32) (op : Word → Word) : State :=
  s.insn t opc f (f.malformed { d := true, a := true, imm := imm }) (regMask f.d ||| regMask f.a)
    fun s => (s.setGreg t f.d (op (s.greg t f.a))).advance t

/-- IMM sign-extended to 64 bits. -/
def Insn.sext (f : Insn) : Word := f.imm.signExtend 64

/-- Table 10.5, none for the reserved condition 7. -/
def cmpCond (c : Nat) (a b : Word) : Option Bool :=
  if c = 0 then some (a == b)
  else if c = 1 then some (a != b)
  else if c = 2 then some (a.slt b)
  else if c = 3 then some (!a.slt b)
  else if c = 4 then some (a.ult b)
  else if c = 5 then some (!a.ult b)
  else if c = 6 then some (a &&& b != 0)
  else none

/-- A branch target: PC plus 8 times the sign-extended IMM (R229). -/
def State.target (s : State) (t : Nat) (f : Insn) : Nat := (BitVec.ofNat 64 (s.pc t) + 8 * f.sext).toNat

end Sys2Proof.Machine
end

