-- ==== Sys2Proof/Machine/Fabric.lean ====
section
/-! DEFINITION. Fabric memory, atomic, ordering and coherence instructions (R233 to R239), and the walk after a TLB miss
(R85). -/

namespace Sys2Proof.Machine

open Sys2Proof

/-- The request timeout of a partition, log2 ticks (R23). -/
def State.reqLimit (s : State) (p : Nat) : Nat := s.fld (R.SEQ_REQ_TIMEOUT.LOG2 p)

/-- A thread's instruction ends at once with a status (and data). -/
def State.endNow (s : State) (t : Nat) (dest : Dest) (st : BitVec 5) (a : Answer) : State :=
  ((s.setThr t ((s.thr t).deliver dest a)).writeStatus t st (statusWord a.status)).advance t

/-- A thread's fabric request: translated (Table 5.3), then issued under R13, R48, R106, R107 and the rules of the Remote
Line Cache; a translation failure faults the thread (R98). -/
def State.fabricOp (s : State) (t : ThreadNo) (r : Req) (acc : Acc) : State :=
  match s.translate r.tag r.fva acc with
  | (s, .fault f) => s.threadXlateFault t f acc r.fva
  | (s, .unreachable) => s.endNow t r.dest r.st { status := sUNREACH }
  | (s, .ok x) =>
    match s.request r x with
    | (s, .wait w) => s.waitOn t w
    | (s, .hit st d) =>
      let s := s.endNow t r.dest r.st { status := st, data := d }
      if st = sPOISON then s.consume (partOf r.tag) 1 r.tag.toNat x.line x.sub x.dest r.pc else s
    | (s, .ends st) => s.endNow t r.dest r.st { status := st }
    | (s, .sent) => (s.setThr t ((s.thr t).addPend (r.dest.mask ||| regMask r.st))).advance t

/-- The request of a thread, by its bound Skidder and under its tag. -/
def State.threadReq (s : State) (t : ThreadNo) (f : Insn) (op fva : Nat) : Req :=
  { owner := .thread t, sk := s.tskid t, tag := s.ttag t, fva := fva, op := op, of_ := f.imm.getLsbD 31, st := f.st,
    limit := s.reqLimit (s.tpart t), pc := s.pc t }

/-- The FVA of LD, ST, LD.L and ST.L: gA + sext(IMM[23:0]) (R233). -/
def State.memFva (s : State) (t : Nat) (f : Insn) : Nat := (s.greg t f.a + sextTo64 24 f.imm.toNat).toNat

/-- Size in bytes of LD and ST: IMM[25:24]. -/
def Insn.size (f : Insn) : Nat := 2 ^ getBits f.imm.toNat 24 2

/-- LD: READ of 1 to 8 bytes into gD (R233). -/
def execLd (t : ThreadNo) (f : Insn) (s : State) : Result :=
  .next <| s.insn t 0x40 f (f.malformed { d := true, a := true, st := true, imm := 0x87FFFFFF } || f.clash false)
    (regMask f.d ||| regMask f.a ||| regMask f.st) fun s =>
    let fva := s.memFva t f
    if fva % f.size ≠ 0 then s.trap t 0x03 fva
    else s.fabricOp t { s.threadReq t f opREAD fva with dest := .reg f.d (fva % 64) f.size (f.imm.getLsbD 26) } .load

/-- ST: WRITE of the low bytes of gB (R233). -/
def execSt (t : ThreadNo) (f : Insn) (s : State) : Result :=
  .next <| s.insn t 0x41 f (f.malformed { a := true, b := true, st := true, imm := 0x83FFFFFF })
    (regMask f.a ||| regMask f.b ||| regMask f.st) fun s =>
    let fva := s.memFva t f
    if fva % f.size ≠ 0 then s.trap t 0x03 fva
    else
      let first := fva % 64
      s.fabricOp t { s.threadReq t f opWRITE fva with
        bmc := first + 64 * f.size, payload := (s.greg t f.b).toNat % 2 ^ (8 * f.size) * 2 ^ (8 * first) } .store

/-- LD.L: READ of the whole line into group D (R233). -/
def execLdL (t : ThreadNo) (f : Insn) (s : State) : Result :=
  .next <| s.insn t 0x42 f
    (f.malformed { d := true, a := true, st := true, imm := 0x80FFFFFF } || badGroup f.d || f.clash true)
    (groupMask f.d ||| regMask f.a ||| regMask f.st) fun s =>
    let fva := s.memFva t f
    if fva % 64 ≠ 0 then s.trap t 0x03 fva
    else s.fabricOp t { s.threadReq t f opREAD fva with dest := .group f.d } .load

/-- ST.L: WRITE of group B with count 64 (R233). -/
def execStL (t : ThreadNo) (f : Insn) (s : State) : Result :=
  .next <| s.insn t 0x43 f (f.malformed { a := true, b := true, st := true, imm := 0x80FFFFFF } || badGroup f.b)
    (regMask f.a ||| groupMask f.b ||| regMask f.st) fun s =>
    let fva := s.memFva t f
    if fva % 64 ≠ 0 then s.trap t 0x03 fva
    else s.fabricOp t { s.threadReq t f opWRITE fva with bmc := 64 * 64, payload := ((s.thr t).group f.b).toNat } .store

/-- ATOM (R235, R110): one ATOM request for the operand at FVA gA. -/
def execAtom (t : ThreadNo) (f : Insn) (s : State) : Result :=
  let op := getBits f.imm.toNat 0 4
  let ty := getBits f.imm.toNat 4 4
  let w := typeWidth ty
  .next <| s.insn t 0x44 f
    (f.malformed { d := true, a := true, b := true, st := true, imm := 0x800000FF } || f.clash false || !atomListed op ty)
    (regMask f.d ||| regMask f.a ||| regMask f.b ||| regMask f.st) fun s =>
    let fva := (s.greg t f.a).toNat
    if fva % w ≠ 0 then s.trap t 0x03 fva
    else
      let b := if op = 2 then (s.greg t f.d).toNat % 2 ^ (8 * w) else 0
      s.fabricOp t { s.threadReq t f opATOM fva with
        bmc := fva % 64 + 64 * ty + 512 * op, payload := (s.greg t f.b).toNat % 2 ^ (8 * w) + 2 ^ 64 * b,
        dest := .result f.d (w == 4) } .atomic

/-- RED (R236): RED_ADD, RED_MIN or RED_MAX on lanes of group B. Counts 0 and 1 are widths that Table 6.2 does not list, hence
ILLEGAL_OP (R110). -/
def execRed (t : ThreadNo) (f : Insn) (s : State) : Result :=
  let n := f.imm.toNat
  let rop := n % 4
  let ty := getBits n 4 4
  let w := typeWidth ty
  let cnt := getBits n 8 7
  .next <| s.insn t 0x45 f
    (f.malformed { a := true, b := true, st := true, imm := 0x80007FF3 } || badGroup f.b || rop == 3 || !redListed ty
      || decide (cnt < 2))
    (regMask f.a ||| groupMask f.b ||| regMask f.st) fun s =>
    let fva := (s.greg t f.a).toNat
    let first := fva % 64
    if first % w ≠ 0 ∨ cnt % w ≠ 0 ∨ 64 < first + cnt then s.trap t 0x03 fva
    else s.fabricOp t { s.threadReq t f (opREDADD + rop) fva with
        bmc := first + 64 * cnt + 8192 * ty, payload := ((s.thr t).group f.b).toNat } .reduction

/-- Whether a Skidder is assigned to a partition (R53). -/
def State.skidOf (s : State) (k p : Nat) : Bool :=
  s.flag (R.SEQ_SKID_CFG.ASSIGNED k) && s.fld (R.SEQ_SKID_CFG.PART k) == p

/-- RESOLVE (R237): one send in the resolve form for the request whose status word is gB. -/
def execResolve (t : ThreadNo) (f : Insn) (s : State) : Result :=
  let op := f.imm.toNat % 32
  let red := decide (4 ≤ op ∧ op ≤ 6)
  let own := op == 11 || op == 12
  .next <| s.insn t 0x46 f
    (f.malformed { d := true, a := true, b := true, st := true, imm := 0x1F } || f.clash false
      || !(op == 3 || red || own))
    (regMask f.d ||| regMask f.a ||| regMask f.b ||| regMask f.st) fun s =>
    let fva := (s.greg t f.a).toNat
    let key := (s.greg t f.b).toNat
    let k := getBits key 40 7
    if ¬ own ∧ fva % 4 ≠ 0 then s.trap t 0x03 fva
    else if ¬ bitOf key 23 ∨ ¬ s.skidOf k (s.tpart t) then s.endNow t .none f.st { status := sCHECK }
    else
      let bmc := if op = 3 then fva % 64 + 64 * (if fva % 8 = 0 then 1 else 0)
        else if red then fva % 64 + 64 * 4 else 0
      s.fabricOp t { s.threadReq t f op fva with
        sk := k, form := 2, bmc := bmc, dest := .result f.d false, lseq := some (getBits key 24 16),
        t16 := getBits key 48 16 } (if own then .own else if red then .reduction else .atomic)

/-- FENCE (R108, R238): at once where nothing in its scope is outstanding, else WAITING with reason FENCE. -/
def execFence (t : ThreadNo) (f : Insn) (s : State) : Result :=
  .next <| s.insn t 0x47 f (f.malformed { imm := 1 }) 0 fun s =>
    if s.waitMet t (.fence (f.imm.getLsbD 0)) then s.advance t else s.waitOn t (.fence (f.imm.getLsbD 0))

/-- INVL (R239): scope LINE or GRANULE. -/
def execInvl (t : ThreadNo) (f : Insn) (s : State) : Result :=
  .next <| s.insn t 0x48 f (f.malformed { a := true, st := true, imm := 0x80000001 }) (regMask f.a ||| regMask f.st)
    fun s =>
    s.fabricOp t { s.threadReq t f opINVL (s.greg t f.a).toNat with bmc := f.imm.toNat % 2 } .invl

/-- OWN.ACQ (R239, R123). -/
def execOwnAcq (t : ThreadNo) (f : Insn) (s : State) : Result :=
  .next <| s.insn t 0x49 f (f.malformed { d := true, a := true, st := true, imm := 0x80000000 } || f.clash false)
    (regMask f.d ||| regMask f.a ||| regMask f.st) fun s =>
    s.fabricOp t { s.threadReq t f opOWNACQ (s.greg t f.a).toNat with dest := .result f.d false } .own

/-- OWN.REL (R239, R125): write-backs first. -/
def execOwnRel (t : ThreadNo) (f : Insn) (s : State) : Result :=
  .next <| s.insn t 0x4A f (f.malformed { d := true, a := true, st := true, imm := 0x80000000 } || f.clash false)
    (regMask f.d ||| regMask f.a ||| regMask f.st) fun s =>
    s.fabricOp t { s.threadReq t f opOWNREL (s.greg t f.a).toNat with dest := .result f.d false } .own

/-- PAGE_WALK (R85 to R88, R97, R98): the walk of a TLB miss under a tag fills the caches, or is a fault of the thread that
missed, which is RUNNABLE or WAITING (Table 3.2). -/
def execPageWalk (t : ThreadNo) (fva : BitVec 64) (acc : Acc) (s : State) : Result :=
  .next <|
    if ¬ (s.tstate t = stRunnable ∨ s.tstate t = stWaiting) then s
    else match s.leafOf (s.ttag t) fva.toNat with
    | (s, .inl f) => s.threadXlateFault t f acc fva.toNat
    | (s, .inr _) => s

end Sys2Proof.Machine
end

