-- ==== Sys2Proof/Machine/SkdCmds.lean ====
section
/-! DEFINITION. Block transfers (R244 to R247): the Bucker's descriptors, their lines and their completion. -/

namespace Sys2Proof.Machine

open Sys2Proof

/-- Fields of a Skidder descriptor (Table 10.9). -/
def skKind (d : Nat) : Nat := fieldAt d 0 1
def skFmt (d : Nat) : Nat := getBits d 8 4
def skRop (d : Nat) : Nat := getBits d 12 2
def skSrc (d : Nat) : Nat := fieldAt d 8 8
def skDst (d : Nat) : Nat := fieldAt d 16 8
def skLen (d : Nat) : Nat := fieldAt d 24 8
def skCompl (d : Nat) : Nat := fieldAt d 32 8

/-- Lane width in bytes of an ACCUM format, none for a reserved code (Table 10.9). -/
def accumWidth (fmt : Nat) : Option Nat :=
  if fmt = 12 ∨ fmt = 0 then some 4 else if fmt = 13 then some 8 else if fmt = 1 ∨ fmt = 2 then some 2 else none

/-- The type code of Table 7.4 for an ACCUM format. -/
def accumType (fmt : Nat) : Nat :=
  if fmt = 12 then 0 else if fmt = 13 then 1 else if fmt = 0 then 4 else if fmt = 1 then 6 else 7

/-- Whether a descriptor fails R245. -/
def skdBad (d : Nat) : Bool :=
  let k := skKind d
  let reserved := decide (k = 0 ∨ 4 ≤ k) || decide (getBits d 14 2 ≠ 0) || decide (skDst d / 2 ^ 57 ≠ 0)
    || decide (skCompl d / 2 ^ 57 ≠ 0) || decide (getBits d 384 128 ≠ 0)
    || (k != 2 && decide (skSrc d / 2 ^ 57 ≠ 0))
    || (if k = 3 then (accumWidth (skFmt d)).isNone || skRop d == 3 else decide (getBits d 8 6 ≠ 0))
  let len := decide (skLen d = 0 ∨ 2 ^ 40 < skLen d)
  let meets := k != 2 && rangesMeet (skSrc d) (skLen d) (skDst d) (skLen d)
  let w := (accumWidth (skFmt d)).getD 1
  let accum := k == 3 && decide (skSrc d % 64 ≠ skDst d % 64 ∨ skSrc d % w ≠ 0 ∨ skLen d % w ≠ 0 ∨ skCompl d % 64 ≠ 0)
  reserved || len || meets || accum

/-- The first FVA and the end of destination line `i` of a descriptor (R246). -/
def skdSpan (d i : Nat) : Nat × Nat :=
  (max (skDst d) (64 * (skDst d / 64 + i)), min (skDst d + skLen d) (64 * (skDst d / 64 + i) + 64))

/-- Number of destination lines. -/
def skdLines (d : Nat) : Nat := (skDst d + skLen d - 1) / 64 + 1 - skDst d / 64

/-- First and last source line of destination line `i`. -/
def skdSources (d i : Nat) : Nat × Nat :=
  let (lo, hi) := skdSpan d i
  let a := skSrc d + (lo - skDst d)
  (a / 64, (a + (hi - lo) - 1) / 64)

/-- The data of destination line `i`, in place in its line, from its source lines or its pattern (R246). -/
def skdData (d i : Nat) (ln : SkdLine) : Nat :=
  let (lo, hi) := skdSpan d i
  if skKind d = 2 then
    packBits ((upFrom (lo % 64) (hi - lo)).map fun j => (8 * j, getBits (skSrc d) (8 * (j % 8)) 8))
  else
    let both := ln.src.toNat + 2 ^ 512 * ln.src2.toNat
    let a := (skSrc d + (lo - skDst d)) % 64
    getBits both (8 * a) (8 * (hi - lo)) * 2 ^ (8 * (lo % 64))

/-- BYTES: from the start of the range up to the first line whose write did not complete OK (R247). -/
def SkdRun.bytes (r : SkdRun) : Nat :=
  let d := r.desc.bytes.toNat
  let okLines := (r.lines.foldl (fun (a : Nat) e => if e.1 = a ∧ e.2.ok then a + 1 else a) 0)
  if okLines = 0 then 0 else (skdSpan d (okLines - 1)).2 - skDst d

/-- The completion record of a block transfer (Table 10.11). -/
def SkdRun.record (r : SkdRun) (k : Nat) : Line :=
  let d := r.desc.bytes.toNat
  recordLine (fieldAt d 4 4) (fieldAt d 2 2) 40
    (leBytes 1 r.status ++ leBytes 1 r.detail ++ leBytes 1 k ++ leBytes 5 0 ++ leBytes 8 (fieldAt d 40 8)
      ++ leBytes 8 r.startTick ++ leBytes 8 r.endTick ++ leBytes 8 r.bytes)

/-- Whether every line that a descriptor has begun has completed, and it begins no other (R247). -/
def SkdRun.finished (r : SkdRun) : Bool :=
  r.suspended.isNone && (r.stopped || decide (skdLines r.desc.bytes.toNat ≤ r.next))
    && r.lines.all fun e => e.2.done && e.2.reading == 0

/-- Whether the Bucker may start the next descriptor: every line of the one before has been issued (R244, R98). -/
def SkdRun.issued (r : SkdRun) : Bool :=
  r.suspended.isNone && (r.stopped || decide (skdLines r.desc.bytes.toNat ≤ r.next))
    && r.lines.all fun e => e.2.sent || e.2.done

/-- A request of the Bucker for a descriptor. -/
def State.skdReq (s : State) (k : Nat) (r : SkdRun) (i what op fva : Nat) : Req :=
  { owner := .bucker r.desc.op i what, sk := k, tag := r.desc.tag, fva := fva, op := op,
    limit := s.fld (R.SEQ_REQ_TIMEOUT.LOG2 (partOf r.desc.tag)) }

/-- Replace a started descriptor. -/
def State.setRun (s : State) (k : Nat) (r : SkdRun) : State :=
  let x := s.skid k
  s.setSkid k { x with run := x.run.map fun y => if y.desc.op = r.desc.op then r else y }

/-- Issue one request of the Bucker: `r` is the descriptor as it stands where the request is sent, `i` its line. A
translation failure suspends the descriptor at the line (R98); a wait leaves everything as it is. -/
def State.skdSend (s : State) (k : Nat) (q : Req) (acc : Acc) (r r' : SkdRun) (i : Nat) : State :=
  match s.translate q.tag q.fva acc with
  | (s, .fault f) =>
    let bytes := (skdSpan r.desc.bytes.toNat i).1 - skDst r.desc.bytes.toNat
    ((s.setRun k { r with suspended := some i }).xlateRecord f acc 1 k q.tag q.fva bytes)
  | (s, .unreachable) =>
    let ln : SkdLine := { (FMap.find r'.lines i).getD {} with done := true, reading := 0, toRead := 0 }
    s.setRun k { r'.meet sUNREACH with lines := r'.lines.put i ln, endTick := s.tick }
  | (s, .ok x) =>
    let what := match q.owner with | .bucker _ _ w => w | _ => 0
    let ends := fun (s : State) (status : Nat) (d : Line) =>
      let ln := ((FMap.find r'.lines i).getD {}).after what { status := status, data := d }
      s.setRun k { r'.meet status with lines := r'.lines.put i ln, endTick := s.tick }
    match s.request q x with
    | (s, .wait w) => s.countHeld (4 + k) q.fva w
    | (s, .hit st d) =>
      let s := ends s st d
      if st = sPOISON then s.accumReads r what x.line x.sub x.dest else s
    | (s, .ends st) => ends s st 0
    | (s, .sent) => s.setRun k r'

/-- A line of the descriptor is issued: START_TICK is that of the first one (Table 10.11). -/
def SkdRun.issueAt (r : SkdRun) (now : Nat) : SkdRun :=
  if r.begun then r else { r with begun := true, startTick := now }

/-- Send the destination write of a line whose sources have come (R246). -/
def State.skdWrite (s : State) (k : Nat) (r : SkdRun) (i : Nat) (ln : SkdLine) : State :=
  let d := r.desc.bytes.toNat
  let (lo, hi) := skdSpan d i
  let first := lo % 64
  let r' := { r.issueAt s.tick with lines := r.lines.put i { ln with sent := true } }
  let isLast := i + 1 == skdLines d
  let q := if skKind d = 3 then
      { s.skdReq k r i 0 (opREDADD + skRop d) lo with
        bmc := first + 64 * (hi - lo) + 8192 * accumType (skFmt d), payload := skdData d i ln, last := isLast, pz := ln.poison }
    else
      { s.skdReq k r i 0 opBWRITE lo with
        bmc := first + 64 * (hi - lo), payload := skdData d i ln, last := isLast, pz := ln.poison }
  s.skdSend k q (if skKind d = 3 then .reduction else .store) r r' i

/-- Send the next source read of a line (R246). -/
def State.skdRead (s : State) (k : Nat) (r : SkdRun) (i : Nat) (ln : SkdLine) : State :=
  let (a, b) := skdSources r.desc.bytes.toNat i
  let second := ln.toRead == 1 && a != b
  let q := s.skdReq k r i (if second then 2 else 1) opBREAD (64 * (if second then b else a))
  let ln := { ln with toRead := ln.toRead - 1, reading := ln.reading + 1 }
  let r' := { r.issueAt s.tick with lines := r.lines.put i ln }
  s.skdSend k q .load r r' i

/-- SKIDDER_DESCRIPTOR_START (R244, R245): the next queued descriptor starts, where every line of the one before has been
issued; one that fails R245 is stopped with CHECK_FAIL before any line. -/
def execSkidderDescriptorStart (k : SkidNo) (s : State) : Result :=
  .next <|
    let x := s.skid k
    match x.queue with
    | [] => s
    | d :: rest =>
      let free := match x.run.getLast? with | some r => r.issued | none => true
      if !free then s
      else
        let r : SkdRun := { desc := d, startTick := s.tick, endTick := s.tick }
        let r := if skdBad d.bytes.toNat then { r with status := sCHECK, detail := 1, stopped := true } else r
        (s.setSkid k { x with queue := rest, run := x.run ++ [r] }).recheck

/-- Whether the Bucker may go on with a line it has begun: a suspended descriptor goes on with the lines before the faulting
one only (R98). -/
def SkdRun.goesOn (r : SkdRun) (i : Nat) : Bool :=
  match r.suspended with
  | some j => decide (i < j)
  | none => true

/-- The next request of a descriptor: a destination write whose sources have come, a source read still to be sent, or the
next line. -/
def State.skdNext (s : State) (k : Nat) (r : SkdRun) : Option State :=
  let open_ := r.lines.filter fun e => !e.2.done && !e.2.sent && r.goesOn e.1
  match open_.find? fun e => e.2.toRead == 0 && e.2.reading == 0 with
  | some (i, ln) => some (s.skdWrite k r i ln)
  | none =>
    match open_.find? fun e => decide (e.2.toRead ≠ 0) with
    | some (i, ln) => some (s.skdRead k r i ln)
    | none =>
      let d := r.desc.bytes.toNat
      if r.stopped ∨ r.suspended.isSome ∨ skdLines d ≤ r.next then none
      else
        let i := r.next
        let (a, b) := skdSources d i
        let ln : SkdLine := { toRead := if skKind d = 2 then 0 else b + 1 - a }
        let r := { r with next := i + 1, lines := r.lines.put i ln }
        some (if skKind d = 2 then s.skdWrite k r i ln else s.skdRead k r i ln)

/-- SKIDDER_LINE_ISSUE (R246): one request of the oldest descriptor that has one to issue; it waits for a slot. -/
def execSkidderLineIssue (k : SkidNo) (s : State) : Result :=
  .next <|
    match (s.skid k).run.findSome? fun r => s.skdNext k r with
    | some s' => s'
    | none => s

/-- BLOCK_TRANSFER_COMPLETE (R247): the oldest descriptor that has finished writes its completion record, where it has one,
and its operation ends with the record performed. -/
def execBlockTransferComplete (k : SkidNo) (s : State) : Result :=
  .next <|
    match (s.skid k).run.find? fun r => r.finished && !r.recording with
    | none => s
    | some r =>
      let d := r.desc.bytes.toNat
      if skCompl d = 0 then (s.skdEnd k r r.status r.detail).recheck
      else
        let q := { s.skdReq k r 0 3 opBWRITE (skCompl d) with
          bmc := 64 * 64, payload := (r.record k).toNat, last := true }
        match s.translate q.tag q.fva .store with
        | (s, .fault f) =>
          ((s.skdEnd k r sXLATE 4).xlateRecord f .store 1 k q.tag q.fva (skLen d)).recheck
        | (s, .unreachable) => (s.skdEnd k r sUNREACH 0x10).recheck
        | (s, .ok x) =>
          match s.request q x with
          | (s, .wait _) => s
          | (s, .hit st _) => (s.skdEnd k r (if st = sOK then r.status else st) (if st = sOK then r.detail else skdDetail st)).recheck
          | (s, .ends st) => (s.skdEnd k r st (skdDetail st)).recheck
          | (s, .sent) => s.setRun k { r with recording := true }

end Sys2Proof.Machine
end

