-- ==== Sys2Proof/Machine/EngineCmds.lean ====
section
/-! DEFINITION. Engine instructions of Disil (R240 to R249) and the end of their descriptor reads (R241): block transfers,
kernels, collectives and reservations are accepted or refused. -/

namespace Sys2Proof.Machine

open Sys2Proof

/-- The handle of slot `i` (Table 10.8). -/
def handleOf (i : Nat) (h : Handle) : Nat := packBits [(0, i), (4, h.serial.toNat), (12, h.kind)]

/-- An engine instruction ends at once: its status in gS and 0 in gD (R241, R244). -/
def State.engineRefused (s : State) (t : ThreadNo) (f : Insn) (st : Nat) : State :=
  ((s.setGreg t f.d 0).writeStatus t f.st (statusWord st)).advance t

/-- Hand an engine operation on for its descriptor to be read; `slot`: the handle slot taken (R240, R241). -/
def State.handOn (s : State) (t : ThreadNo) (f : Insn) (kind arg : Nat) (slot : Option Nat) : State :=
  let op := s.issued
  let x := s.thr t
  let hk := if kind ≤ 2 then kind else 3
  let (x, h) := match slot with
    | none => (x, 0)
    | some i =>
      let h : Handle := { used := true, serial := (x.hand i).serial + 1, kind := hk, busy := true, op := op }
      (x.setHand i h, handleOf i h)
  let o : EngineOp := { thread := t, kind := kind, fva := (s.greg t f.a).toNat, arg := arg, d := f.d, st := f.st, op := op,
                        handle := h, pc := s.pc t, tag := s.ttag t }
  let s := { s with issued := op + 1, descs := s.descs ++ [o] }
  let n := if kind = 5 then x.reads else x.reads + 1
  (s.setThr t ({ x with reads := n }.addPend (regMask f.d ||| regMask f.st))).advance t

/-- Issue an engine instruction: at most 64 operations of the thread, and a handle slot unless NH or RSV (R240);
during a tray drain it waits (R357). -/
def State.engineIssue (s : State) (t : ThreadNo) (f : Insn) (kind arg : Nat) : State :=
  let x := s.thr t
  if s.fld R.REL_TRAY.STATE ≠ 0 then s.waitOn t .tray
  else if 64 ≤ x.ops + x.reads then s.waitOn t .engineOps
  else if kind = 5 ∨ f.imm.getLsbD 0 then s.handOn t f kind arg none
  else match x.freeHand with
    | none => s.waitOn t .handleSlot
    | some i => s.handOn t f kind arg (some i)

/-- The form checks of SKD.Q, KRN, COLL and COLL.BATCH: with NH, D must be 0 (R228, R240). -/
def Insn.engineBad (f : Insn) (b : Bool) : Bool :=
  f.malformed { d := true, a := true, b := b, st := true, imm := 1 } || f.clash false || (f.imm.getLsbD 0 && f.d != 0)

/-- The registers that an engine instruction needs. -/
def Insn.engineNeed (f : Insn) : BitVec 32 := regMask f.d ||| regMask f.a ||| regMask f.b ||| regMask f.st

/-- SKD.Q (R244). -/
def execSkdQ (t : ThreadNo) (f : Insn) (s : State) : Result :=
  .next (s.insn t 0x50 f (f.engineBad true) f.engineNeed fun s =>
    let k := (s.greg t f.b).toNat
    if 128 ≤ k then s.engineRefused t f sCHECK
    else if !s.skidOf k (s.tpart t) then s.engineRefused t f sDENY
    else if 32 ≤ (s.skid k).queue.length + (s.descs.filter fun o => o.kind == 1 && o.arg == k).length then s.waitOn t (.queue k)
    else s.engineIssue t f 1 k)

/-- KRN (R248, R182). -/
def execKrn (t : ThreadNo) (f : Insn) (s : State) : Result :=
  .next (s.insn t 0x51 f (f.engineBad false) f.engineNeed fun s => s.engineIssue t f 2 0)

/-- COLL (R248, R204). -/
def execColl (t : ThreadNo) (f : Insn) (s : State) : Result :=
  .next (s.insn t 0x52 f (f.engineBad false) f.engineNeed fun s => s.engineIssue t f 3 1)

/-- COLL.BATCH (R248, R216): gB from 1 to 64. -/
def execCollBatch (t : ThreadNo) (f : Insn) (s : State) : Result :=
  .next (s.insn t 0x53 f (f.engineBad true) f.engineNeed fun s =>
    let n := (s.greg t f.b).toNat
    if n = 0 ∨ 64 < n then s.engineRefused t f sCHECK else s.engineIssue t f 4 n)

/-- RSV (R248, R206). -/
def execRsv (t : ThreadNo) (f : Insn) (s : State) : Result :=
  .next (s.insn t 0x54 f (f.malformed { a := true, st := true }) (regMask f.a ||| regMask f.st) fun s => s.engineIssue t f 5 0)

/-- The status word of the handle in a register, and its slot where one matches (R242). -/
def State.handleStatus (s : State) (t : Nat) (w : Word) : Word × Option Nat :=
  let i := getBits w.toNat 0 4
  let h := (s.thr t).hand i
  if h.used ∧ h.serial.toNat = getBits w.toNat 4 8 then (handleWord h, some i)
  else (BitVec.ofNat 64 (packBits [(0, sCHECK), (8, 0x20), (16, getBits w.toNat 12 2)]), none)

/-- A word is returned; with BUSY = 0 the slot is free (R242). -/
def State.handleReturn (s : State) (t : ThreadNo) (f : Insn) (w : Word) (slot : Option Nat) : State :=
  let x := s.thr t
  let x := match slot with
    | some i => if (x.hand i).busy then x else x.setHand i { x.hand i with used := false }
    | none => x
  ((s.setThr t x).setGreg t f.d w).advance t

/-- HPOLL (R242). -/
def execHpoll (t : ThreadNo) (f : Insn) (s : State) : Result :=
  .next (s.insn t 0x55 f (f.malformed { d := true, a := true }) (regMask f.d ||| regMask f.a) fun s =>
    let (w, i) := s.handleStatus t (s.greg t f.a)
    s.handleReturn t f w i)

/-- HWAIT (R242): waits while the operation is BUSY. -/
def execHwait (t : ThreadNo) (f : Insn) (s : State) : Result :=
  .next (s.insn t 0x56 f (f.malformed { d := true, a := true }) (regMask f.d ||| regMask f.a) fun s =>
    match s.handleStatus t (s.greg t f.a) with
    | (w, some i) =>
      let h := (s.thr t).hand i
      if h.busy then s.waitOn t (.handle i) h.kind else s.handleReturn t f w (some i)
    | (w, none) => s.handleReturn t f w none)

/-- LP.SET (R249). -/
def execLpSet (t : ThreadNo) (f : Insn) (s : State) : Result :=
  .next (s.insn t 0x57 f (f.malformed { a := true, b := true, st := true })
    (regMask f.a ||| regMask f.b ||| regMask f.st) fun s =>
    let q := (s.greg t f.a).toNat
    let tk := (s.greg t f.b).toNat
    if !s.flag (R.COL_PART_CFG.LP_EN (s.tpart t)) || s.opt.lock.isSome || s.timeState == tsLOST then
      (s.writeStatus t f.st (statusWord sNORES)).advance t
    else if 15 < q ∨ ¬ s.planValid q ∨ tk < s.tick + 2 ∨ s.tick + 2 ^ 20 < tk then
      (s.writeStatus t f.st (statusWord sCHECK)).advance t
    else
      let s := ((s.setLock (some (.lp t))).askSwitch q tk (.lp t f.st)).moveMet tk
      (s.setThr t ((s.thr t).addPend (regMask f.st))).advance t)

/-! ## The end of a descriptor read (R241) -/

/-- The descriptor read of an operation is over: the thread's registers get their values, unless it was halted meanwhile. -/
def State.readOver (s : State) (o : EngineOp) (status : Nat) (taken : Bool) : State :=
  let s := { s with descs := s.descs.filter fun x => x.op != o.op }
  let x := s.thr o.thread
  let x := if o.kind = 5 ∨ o.op < x.opsFrom then x
    else { x with reads := x.reads - 1, ops := if taken then x.ops + 1 else x.ops }
  let x := if status = sOK then x else match x.handOf o.op with
    | some i => x.setHand i { x.hand i with used := false, busy := false }
    | none => x
  if o.dead then (s.setThr o.thread x).recheck
  else
    let x := x.subPend (regMask o.d ||| regMask o.st)
    let x := x.setReg o.d (BitVec.ofNat 64 (if status = sOK then o.handle else 0))
    ((s.setThr o.thread x).writeStatus o.thread o.st (statusWord status)).recheck

/-- The operation must wait: its thread is WAITING, at once where it could issue, else when it next could (R182, R204, R248). -/
def State.mustWait (s : State) (o : EngineOp) (w : Wait) : State :=
  let s := { s with descs := s.descs.map fun x => if x.op = o.op then { x with waits := some w } else x }
  if s.tstate o.thread = stRunnable ∧ ¬ o.dead then s.waitOn o.thread w else s

/-- The check floor under which an operation is accepted (R250): the thread's now. -/
def State.floorOf (s : State) (o : EngineOp) : BitVec 3 := (s.thr o.thread).chk

/-! ## Collectives: validation and issue -/

/-- An FVA of a descriptor that must be given: not 0, 64-byte aligned, bits [63:57] at 0. -/
def badFva (a : Nat) : Bool := a == 0 || a % 64 != 0 || decide (2 ^ 57 ≤ a)

/-- An FVA that must be given and aligned; bits [63:57] fault where it is translated (R70). -/
def badAddr (a : Nat) : Bool := a == 0 || a % 64 != 0

/-- Reduce-scatter phases of a descriptor (R201). -/
def cdReduces (d : Nat) : Bool := decide (cdOp d ≤ 3)

/-- Bytes of the staging area (R201). -/
def cdStageBytes (d : Nat) : Nat :=
  let n := cdDimA0 d
  if !cdReduces d then 0
  else if cdWide d then 2 * cdBytes d / n + cdBytes d / 64 else cdBytes d / n

/-- Whether the sizes of a descriptor give no ranks: R197 allows 2 to 4,096 members. -/
def cdSizeBad (d : Nat) : Bool :=
  (upFrom 0 3).any (fun a => cdDim d a == 0) || decide (cdN d < 2) || decide (4096 < cdN d)

/-- Whether the dimensions and the order are not ones that R197 and R200 allow. -/
def cdShapeBad (d : Nat) : Bool :=
  (upFrom 0 3).any (fun a => decide (getBits d (397 + 16 * a) 3 ≠ 0)) || cdSizeBad d
    || !((upFrom 0 3).all fun a => (upFrom 0 3).any fun i => getBits (cdOrder d) (2 * i) 2 == a)

/-- Whether an ALLTOALLV's blocks overlap (R200): lines of SRC that its table has this member send, and lines of DST that it has it
take. -/
def vecOverlap (d : Nat) (table : List Nat) : Bool :=
  table.any fun x => table.any fun y =>
    let n := getBits x 0 32
    let m := getBits y 64 32
    n != 0 && m != 0
      && rangesMeet (cdSrc d 0 + 64 * getBits x 32 32) (64 * n) (cdDst d + 64 * getBits y 96 32) (64 * m)

/-- Whether a collective descriptor fails R200, but for the sizes of an ALLTOALLV, which its table gives. -/
def cdBad (d : Nat) : Bool :=
  let op := cdOp d
  let x := cdExchange d
  let D := cdBytes d
  let ints := decide (12 ≤ cdFmt d)
  let dstBytes := if x then 64 * cdCount d * (if op = 8 then cdN d else 1)
    else if op = 2 then D / cdN d else if op = 4 then cdN d * D else D
  let srcBytes := if x then dstBytes else D
  let srcs := (upFrom 0 (min 4 (cdNsrc d))).map (cdSrc d)
  !([1, 2, 3, 4, 5, 8, 9, 10, 11].contains op)
    || decide (getBits d 11 5 ≠ 0) || decide (getBits d 22 2 ≠ 0) || decide (getBits d 29 3 ≠ 0)
    || decide (getBits d 275 5 ≠ 0) || decide (getBits d 286 2 ≠ 0) || decide (getBits d 872 8 ≠ 0)
    || decide (2 ^ 57 ≤ cdCompl d) || cdCompl d % 64 != 0
    || cdShapeBad d || badAddr (cdMemb d)
    || (if x then cdFmt d != 0 else decide (4 < cdFmt d) && !(cdFmt d == 12 || cdFmt d == 13))
    || cdRop d == 3
    || (cdAligned d && !x && cdRop d == 0 && (cdFmt d == 3 || cdFmt d == 4))
    || (if cdWide d then cdH d == 0 || decide (16 < cdH d)
        else if cdAligned d && !x then decide (16 < cdH d) else cdH d != 0)
    || cdNsrc d == 0 || decide (4 < cdNsrc d) || (decide (4 ≤ op) && cdNsrc d != 1)
    || (if op = 3 ∨ op = 5 then decide (cdN d ≤ cdRoot d) else cdRoot d != 0)
    || srcs.any badAddr || (upFrom (cdNsrc d) (4 - cdNsrc d)).any (fun n => cdSrc d n != 0)
    || badAddr (cdDst d)
    || cdCount d == 0
    || (if x then decide (2 ^ 32 ≤ cdCount d)
        else decide (cdCount d * elemBits (cdFmt d) % (512 * (if op = 2 then cdN d else 1)) ≠ 0)
          || decide (2 ^ 34 < D) || (cdAligned d && !ints && decide (2 ^ 33 < D)))
    || (if x then cdSlots d != 0 else cdSlots d == 0 || decide (6 < cdSlots d))
    || ((upFrom 0 3).map (cdPlan d) ++ [cdPlanEnd d]).any (fun p => decide (15 < p) && p != 0xFF)
    || (op == 10 && cdShift d == 0)
    || (if op = 9 ∨ op = 11 then badAddr (cdVec d) else cdVec d != 0)
    || (if x then cdStage d != 0
        else (cdStage d == 0 && cdReduces d && decide (1 < (cdAxes d).length)) || (cdStage d != 0 && badFva (cdStage d)))
    || (op != 9 && srcs.any fun a => rangesMeet a srcBytes (cdDst d) dstBytes)
    || (!x && cdStage d != 0
        && (rangesMeet (cdStage d) (cdStageBytes d) (cdDst d) dstBytes
          || srcs.any fun a => rangesMeet (cdStage d) (cdStageBytes d) a srcBytes))

/-- Whether two descriptors of a batch agree (R216). -/
def cdAgree (a b : Nat) : Bool :=
  cdOp a == cdOp b && cdAligned a == cdAligned b && cdMemb a == cdMemb b && (upFrom 0 3).all (fun i => cdDim a i == cdDim b i)
    && cdOrder a == cdOrder b && cdRoot a == cdRoot b && cdSlots a == cdSlots b
    && (upFrom 0 3).all (fun i => cdPlan a i == cdPlan b i) && cdPlanEnd a == cdPlanEnd b

/-- The index of the first descriptor that is invalid, or that does not fit into its batch (R200, R216). -/
def firstBad (ds : List (BitVec 1024)) (batch : Bool) : Option Nat :=
  let d0 := (ds.getD 0 0).toNat
  (upFrom 0 ds.length).find? fun i =>
    let d := (ds.getD i 0).toNat
    cdBad d || (batch && (cdExchange d || !cdAgree d0 d))

/-- Read a table of 2-byte entries. -/
def Eng.halves (g : Eng) (fva n : Nat) : Eng × List Nat :=
  let (g, v) := g.read fva (2 * n)
  (g, (upFrom 0 n).map fun i => getBits v (16 * i) 16)

/-- A collective completes without having taken an entry; where it is an abort of this member's own, every neighbour that can
be named is told (R200, R219). -/
def State.endUnissued (s : State) (o : EngineOp) (e : ColEntry) (status detail : Nat) (tell : Bool) : State :=
  let e := { e with status := status, detail := detail }
  let e := if status = sABORTED ∧ e.abort.isNone then { e with abort := some (s.tick, detail) } else e
  let s := if tell then
      let named := { e with members := if cdSizeBad e.desc then [] else e.members }
      let s := (s.keepAbort e.part e.cid s.tick).raise R.COL_EVENTS.ABORT_SENT
      if named.members = [] then s
      else (named.neighbours.filter fun f => decide (f < 0x1000)).foldl (fun s f => s.colCtl e f 3 0 0 false false s.tick) s
    else s
  ({ s with col := { s.col with ended := s.col.ended ++ [e] } }).readOver o sOK true

/-- A collective takes an entry (R204): the reservation of RSV where there is one (R206), and the messages that came early. -/
def State.enterCol (s : State) (o : EngineOp) (e : ColEntry) : State :=
  let d := e.desc
  let free := (upFrom 0 64).filter fun h => (s.colAt h).isNone
  let (n, s) := s.fresh
  let h := free.getD (n % free.length) 0
  let e := { e with issuedAt := s.tick, reqAt := s.tick, waitAt := s.tick, slots := cdSlots d }
  let mine := fun (p : Packet) => partOf p.tag == e.part && ccCid p == e.cid
  let early := s.col.early.filter mine
  let s := { s with col := { s.col with early := s.col.early.filter fun p => !mine p } }
  let s :=
    if cdExchange d then
      let fam := cdOp d - 8
      (s.setCol h { e with res := 3, waits := fam != s.fld R.COL_XCHG_MODE.FAMILY }).colAdvance h
    else match s.rsvOf e.part e.cid with
      | none => s.setCol h e
      | some r =>
        let e := { e with res := r.res, held := r.held, slots := r.slots, reqAt := r.reqAt, positions := s.active,
                          flags := if r.res = 2 then e.flags ||| 1 else e.flags }
        let s := s.setRsv e.part e.cid none
        if r.res = 0 then s.setCol h e else s.decided h e
  let s := early.foldl (fun s p => match s.colAt h with
    | some e => s.colMessage h e p
    | none => s) s
  s.readOver o sOK true

/-- The table at VEC that an exchange reads (R213): ALLTOALLV records, or PERMUTE ranks. -/
def Eng.vecTable (g : Eng) (d : Nat) : Eng × List Nat :=
  if cdOp d = 9 then
    let (g, v) := g.read (cdVec d) (16 * cdN d)
    (g, (upFrom 0 (cdN d)).map fun r => getBits v (128 * r) 128)
  else if cdOp d = 11 then g.halves (cdVec d) (cdN d)
  else (g, [])

/-- A collective whose tables cannot be read is aborted (Table 9.8, R218). -/
def State.tableFailed (s : State) (o : EngineOp) (e : ColEntry) (f : EngFail) : State :=
  (s.opXlateRecord f e.thread e.tag e.pc).endUnissued o e sABORTED (match f with
    | .status n => if n = sHOST ∨ n = sTIMEOUT then 0x1A else 0x16
    | _ => 0x16) true

/-- A collective descriptor, or batch, has been read (R197, R200, R204, R216, R221): the first status of Table 9.7 that applies, else
it takes an entry. -/
def State.acceptCol (s : State) (o : EngineOp) (ds : List (BitVec 1024)) (hs : List HostAnswer) : State :=
  let d := (ds.getD 0 0).toNat
  let p := partOf o.tag
  let bad := firstBad ds (o.kind == 4)
  let e : ColEntry := { part := p, cid := cdCid d, thread := o.thread, op := o.op, pc := o.pc, tag := o.tag, chk := s.floorOf o,
                        descs := ds, batch := o.kind == 4, batchIdx := bad.getD 0 }
  let g := s.eng o.tag hs o.op
  let readable := !(cdSizeBad d || badAddr (cdMemb d))
  let (g, ms) := if readable then g.halves (cdMemb d) (cdN d) else (g, [])
  let e := { e with members := if g.fail.isNone ∧ ms.contains s.feid then ms else [], rank := (ms.findIdx? (· == s.feid)).getD 0 }
  if bad.isSome then g.s.endUnissued o e sCHECK 1 true
  else
    let (v, table) := ({ g with fail := none } : Eng).vecTable d
    let s := v.s
    if cdOp d = 9 ∧ v.fail.isNone ∧ vecOverlap d table then s.endUnissued o e sCHECK 1 true
    else if g.fail.isNone ∧ ¬ (ms.all (fun f => decide (f < 0x1000)) ∧ (ms.filter (· == s.feid)).length = 1) then
      s.endUnissued o e sCHECK 2 true
    else if !s.flag (R.COL_PART_CFG.EN p) || s.timeState == tsLOST
        || (cdExchange d && !s.flag R.COL_XCHG_MODE.AUTO && s.fld R.COL_XCHG_MODE.FAMILY != cdOp d - 8) then
      s.endUnissued o e sNORES 8 false
    else match s.abortRecord p e.cid with
    | some a =>
      (s.count R.COL_COUNTS1.QUARANTINED).endUnissued o { e with abort := some (a.epoch, 0x11) } sABORTED 0x11 false
    | none =>
      match g.fail, v.fail with
      | some f, _ => s.tableFailed o e f
      | none, some f => s.tableFailed o e f
      | none, none =>
        if !s.collRoom p e.cid then s.mustWait o (.collective o.op) else s.enterCol o { e with table := table }

/-- RSV's descriptor has been read (R206, R221, R248): SLOTS outside 1 to 6 is CHECK_FAIL. -/
def State.acceptRsv (s : State) (o : EngineOp) (d : Nat) : State :=
  let p := partOf o.tag
  if cdSlots d = 0 ∨ 6 < cdSlots d then s.readOver o sCHECK false
  else if (s.abortRecord p (cdCid d)).isSome then (s.count R.COL_COUNTS1.QUARANTINED).readOver o sABORTED false
  else if (s.rsvOf p (cdCid d)).isSome then s.readOver o sOK false
  else (s.setRsv p (cdCid d) (some { part := p, cid := cdCid d, slots := cdSlots d, reqAt := s.tick })).readOver o sOK false

/-- ENGINE_DESCRIPTOR_READ_DONE (R241): the descriptor read of operation `op` finishes. A kernel or collective that has to
wait keeps its descriptor read open: the same event ends it once there is room. `hs`: what the hosts answer where tables of
a collective lie in their memory. -/
def execEngineDescriptorReadDone (op : Nat) (hs : List HostAnswer) (s : State) : Result :=
  .next <|
    match if s.fld R.REL_TRAY.STATE ≠ 0 then none else s.descs.find? fun o => o.op == op with
    | none => s
    | some o =>
      let n := if o.kind = 1 then 64 else if o.kind = 4 then 128 * o.arg else 128
      match s.readDescriptor o.tag o.fva n with
      | (s, .fault f fva) => (s.xlateRecord f .load 0 o.thread o.tag fva o.pc).readOver o sXLATE false
      | (s, .refused st) => s.readOver o st false
      | (s, .ok bs poison) =>
        let v := ofLeBytes bs
        if poison then
          let (l, sub) := match (s.translate o.tag o.fva .load).2 with
            | .ok x => (x.line, x.sub)
            | _ => (0, 0)
          (s.readOver o sPOISON false).consume (partOf o.tag) 1 o.tag.toNat l sub s.feid o.pc
        else if o.kind = 1 then
          if 32 ≤ (s.skid o.arg).queue.length then s.mustWait o (.queue o.arg)
          else
            let k : SkdDesc := { thread := o.thread, op := o.op, tag := o.tag, bytes := BitVec.ofNat 512 v }
            let s := s.setSkid o.arg { s.skid o.arg with queue := (s.skid o.arg).queue ++ [k] }
            s.readOver o sOK true
        else if o.kind = 2 then
          if !kernelBad v && !s.kernelRoom (partOf o.tag) then s.mustWait o (.kernel o.op)
          else
            (s.submitKernel { thread := o.thread, op := o.op, tag := o.tag, fva := o.fva, bytes := BitVec.ofNat 1024 v,
                              chk := s.floorOf o, pc := o.pc }).readOver o sOK true
        else if o.kind = 5 then s.acceptRsv o v
        else
          let count := if o.kind = 4 then o.arg else 1
          s.acceptCol o ((upFrom 0 count).map fun i => BitVec.ofNat 1024 (getBits v (1024 * i) 1024)) hs

end Sys2Proof.Machine
end

