-- ==== Sys2Proof/Machine/LadleCmds.lean ====
section
/-! DEFINITION. Kernels at a position: LRA (R186), EGR (R187), their work items (R192 to R194) and completion (R189, R190);
cell retirement, the spare (R195), slots (R183) and quanta (R184). -/

namespace Sys2Proof.Machine

open Sys2Proof

/-! ## Tensors -/

/-- Lines of a row of `n` elements (R185). -/
def rowLines (fmt n : Nat) : Nat := (n * elemBits fmt + 511) / 512

/-- The bytes and scale bytes of elements `j` to `j + n - 1` of a tensor's row `r` of length `len` (R171, R185). -/
def Eng.elemBytes (e : Eng) (fmt base sc r len j n : Nat) : Eng × (Nat × Nat) :=
  let w := elemBits fmt
  let (e, v) := e.read (base + 64 * rowLines fmt len * r + j * w / 8) ((n * w + 7) / 8)
  let (e, scales) := if isMx fmt then e.read (sc + r * (len / 32) + j / 32) ((n + 31) / 32) else (e, 0)
  (e, (v, scales))

/-- Elements as exact numbers, with their scales in MX formats (R171). -/
def elemsOf (fmt n : Nat) (x : Nat × Nat) : List Num :=
  let w := elemBits fmt
  (upFrom 0 n).map fun i =>
    let y := elemNum fmt (getBits x.1 (w * i) w)
    if isMx fmt then y.scaled (getBits x.2 (8 * (i / 32)) 8) else y

/-- An engine reads elements `j` to `j + n - 1` of a tensor's row `r` of length `len`. -/
def Eng.elems (e : Eng) (fmt base sc r len j n : Nat) : Eng × List Num :=
  let (e, x) := e.elemBytes fmt base sc r len j n
  (e, elemsOf fmt n x)

/-- Rows `r`, ..., `r + n - 1` of a tensor, whole. -/
def Eng.rows (e : Eng) (fmt base sc len : Nat) : Nat → Nat → Eng × List (List Num)
  | _, 0 => (e, [])
  | r, n + 1 =>
    let (e, x) := e.elems fmt base sc r len 0 len
    let (e, y) := Eng.rows e fmt base sc len (r + 1) n
    (e, x :: y)

/-- One line write of a tile: FVA, byte count, data. -/
structure TileWrite where
  fva : Nat
  count : Nat
  data : Nat
deriving DecidableEq, Repr

/-- The line writes of output elements from `j` of row `r` (R185, R186). -/
def tileWrites (fmt base len r j : Nat) (outs : List Nat) : List TileWrite :=
  let w := elemBits fmt
  let per := lineElems fmt
  (upFrom 0 ((outs.length + per - 1) / per)).map fun m =>
    let part := (outs.drop (m * per)).take per
    { fva := base + 64 * (rowLines fmt len * r + j / per + m), count := part.length * w / 8,
      data := packBits ((upFrom 0 part.length).map fun i => (w * i, part.getD i 0)) }

/-- Read-out mode of output element `i` by a kernel descriptor (R174, R175). -/
def kdMode (d i : Nat) : RndMode :=
  { draw := if bitOf d 8 then some (draw (fieldAt d 8 8) i) else none, sat := bitOf d 9 }

/-! ## Tiles -/

/-- What a tile gives: the group's t, or line writes; and the flags of its read-outs. -/
structure Tile where
  temp : Option (List Nat) := none
  writes : List TileWrite := []
  flags : RFlags := 0
  /-- long accumulators of its outputs, in order -/
  accs : List LAcc := []
  /-- B as read by now for the group -/
  b : Option (FMap BRead) := none
deriving DecidableEq, Repr

/-- Tokens per group of an LRA kernel (R186). -/
def lraGroup (d : Nat) : Nat :=
  min (kdNtok d) (min (512 / kdRank d) (262144 / (kdDin d * (elemBits (kdXfmt d) / 8))))

/-- Tiles of 512 outputs of a row. -/
def chunks (len : Nat) : Nat := (len + 511) / 512

/-- The exact sum of products of two lists, in a long accumulator. -/
def dot (a x : List Num) : LAcc := LAcc.sum ((a.zip x).map fun p => p.1.mul p.2)

/-- The first tile of an LRA group: t := round_fp32(A·x), to nearest even (R186). With SAT an infinity of t is the largest finite
value, and that is a saturation (R174, Table 8.9). -/
def Eng.lraFirst (e : Eng) (d group : Nat) : Eng × Tile :=
  let g := lraGroup d
  let (e, a) := e.rows (kdAfmt d) (kdA d) (kdAsc d) (kdDin d) 0 (kdRank d)
  let (e, x) := e.rows (kdXfmt d) (kdX d) 0 (kdDin d) (group * g) (min g (kdNtok d - group * g))
  let sat := bitOf d 9
  let shown : RFlags := if sat then 3 else 1
  let outs := (x.map fun xn => a.map fun ai =>
    let s := dot ai xn
    let (v, f) := readOut 0 { sat := sat } s.num
    (v, (if s.inexact then f ||| 1 else f), s)).flatten
  (e, { temp := some (outs.map (·.1)), flags := outs.foldl (fun (f : RFlags) o => f ||| (o.2.1 &&& shown)) 0,
        accs := outs.map fun o => o.2.2, b := some [] })

/-- B's rows for outputs `j` on: read once per group (R186), and as read before where a tile of the group has read them. -/
def Eng.bRows (e : Eng) (d j cnt : Nat) (known : FMap BRead) : Eng × BRead :=
  match FMap.find known j with
  | some b => ({ e with level := max e.level b.level, isSealed := e.isSealed || b.isSealed }, b)
  | none =>
    let (g, l) := (upFrom 0 (kdRank d)).foldl (fun (p : Eng × List (Nat × Nat)) i =>
      let (e, x) := p.1.elemBytes (kdBfmt d) (kdB d) (kdBsc d) i (kdDout d) j cnt
      (e, p.2 ++ [x])) ({ e with level := 0, isSealed := false }, [])
    ({ g with level := max e.level g.level, isSealed := e.isSealed || g.isSealed }, { lines := l, level := g.level, isSealed := g.isSealed })

/-- A later tile of an LRA group: outputs `j` on of token `n` (R186). -/
def Eng.lraTile (e : Eng) (d group : Nat) (temp : List Nat) (known : FMap BRead) (n j : Nat) : Eng × Tile :=
  let rank := kdRank d
  let dout := kdDout d
  let cnt := min 512 (dout - j)
  let (e, read) := e.bRows d j cnt known
  let b := read.lines.map (elemsOf (kdBfmt d) cnt)
  let row := group * lraGroup d + n
  let (e, y) := if bitOf d 10 then e.elems (kdYfmt d) (kdY d) 0 row dout j cnt else (e, [])
  let outs := (upFrom 0 cnt).map fun c =>
    let s := LAcc.sum ((upFrom 0 rank).map fun i =>
      ((b.getD i []).getD c .nan).mul (elemNum 0 (temp.getD (n * rank + i) 0)))
    let v := s.timesNum (elemNum 0 (kdScale d))
    let v := if bitOf d 10 then (y.getD c .nan).add v else v
    let (o, f) := readOut (kdYfmt d) (kdMode d (row * dout + j + c)) v
    (o, (if s.inexact then f ||| 1 else f), s)
  (e, { writes := tileWrites (kdYfmt d) (kdY d) dout row j (outs.map (·.1)),
        flags := outs.foldl (fun (f : RFlags) o => f ||| o.2.1) 0, accs := outs.map fun o => o.2.2, b := some (known.put j read) })

/-- The row indices and weights of an EGR bag (R187): CHECK_FAIL with DETAIL 2 where an offset or an index is invalid. -/
def Eng.egrBag (e : Eng) (d b : Nat) : Eng × List (Nat × Num) :=
  let (e, w) := e.read (egOffs d + 4 * b) 8
  let lo := signedOf 32 w
  let hi := signedOf 32 (w / 2 ^ 32)
  if e.fail.isSome then (e, [])
  else if hi < lo then (e.stop e.s (.check 2), [])
  else
    (upFrom 0 (hi - lo).toNat).foldl (fun (p : Eng × List (Nat × Num)) (i : Nat) =>
      let at_ : Int := (4 * (lo + i)) % (2 ^ 64 : Nat)
      let (e, x) := p.1.read ((egIdx d + at_.toNat) % 2 ^ 64) 4
      let (e, w) := if egWgt d = 0 then (e, Num.fin false ⟨1, 0⟩)
        else let (e, w) := e.read ((egWgt d + at_.toNat) % 2 ^ 64) 4; (e, elemNum 0 w)
      if e.fail.isSome then (e, p.2)
      else if 2 ^ 31 ≤ x ∨ egNrows d ≤ x then (e.stop e.s (.check 2), p.2)
      else (e, p.2 ++ [(x, w)])) (e, [])

/-- A tile of an EGR kernel: elements `j` on of bag `b` (R187). -/
def Eng.egrTile (e : Eng) (d b j : Nat) : Eng × Tile :=
  let row := egRow d
  let cnt := min 512 (row - j)
  let (e, bag) := e.egrBag d b
  let (e, rows) := bag.foldl (fun (p : Eng × List (List Num)) iw =>
    let (e, x) := p.1.elems (egTfmt d) (egT d) (egTsc d) iw.1 row j cnt
    (e, p.2 ++ [x.map fun v => iw.2.mul v])) (e, [])
  let outs := (upFrom 0 cnt).map fun c =>
    let xs := rows.map fun r => r.getD c .nan
    let mode := kdMode d (b * row + j + c)
    if egOp d = 2 then
      match xs with
      | [] => (0, (0 : RFlags), none)
      | x :: r => let (o, f) := readOut (egYfmt d) mode (r.foldl Num.max x); (o, f, none)
    else if xs = [] then (0, 0, none)
    else
      let s := LAcc.sum xs
      let (o, f) := readOut (egYfmt d) mode s.num (if egOp d = 1 then xs.length else 1)
      (o, (if s.inexact then f ||| 1 else f), some s)
  (e, { writes := tileWrites (egYfmt d) (egY d) row b j (outs.map (·.1)),
        flags := outs.foldl (fun (f : RFlags) o => f ||| o.2.1) 0, accs := outs.filterMap fun o => o.2.2 })

/-- The tile that a running kernel comes to. -/
def Eng.tile (e : Eng) (r : KernelRun) : Eng × Tile :=
  let d := r.k.bytes.toNat
  if kdKind d = 1 then
    if r.tile = 0 then e.lraFirst d r.group
    else e.lraTile d r.group r.temp r.b ((r.tile - 1) / chunks (kdDout d)) (512 * ((r.tile - 1) % chunks (kdDout d)))
  else e.egrTile d r.group (512 * r.tile)

/-- The kernel after a tile: the next tile, group or bag, or finished. -/
def KernelRun.step (r : KernelRun) : KernelRun :=
  let d := r.k.bytes.toNat
  let inGroup := min (lraGroup d) (kdNtok d - r.group * lraGroup d)
  let tiles := if kdKind d = 1 then 1 + inGroup * chunks (kdDout d) else chunks (egRow d)
  let groups := if kdKind d = 1 then (kdNtok d + lraGroup d - 1) / lraGroup d else egNbag d
  let r := { r with items := r.items + 1 }
  if r.tile + 1 < tiles then { r with tile := r.tile + 1 }
  else if r.group + 1 < groups then { r with group := r.group + 1, tile := 0, temp := [], b := [] }
  else { r with finished := true }

/-! ## Commands -/

/-- KERNEL_START (R182, R183): an active position starts its next kernel on 6 kernel-side slots. -/
def execKernelStart (k : Fin 16) (s : State) : Result :=
  .next <|
    let x := s.lpos k
    match x.queue with
    | [] => s
    | q :: rest =>
      if x.running.isSome ∨ s.posState k ≠ 0 ∨ s.fld (R.LDL_POS_STATUS.KSLOTS k) < 6
          ∨ s.fld R.GLB_POWER_STATUS.LEVEL = 7 then s
      else (s.setLpos k { x with queue := rest, running := some { k := q, startTick := s.tick } }).recheck

/-- The work item of a kernel's tile ends (R186, R187, R190, R192 to R194): the first of poison and failure that its reads meet
ends the kernel, and so does an item with no result that can be used; else its lines are written. Cells found bad are retired
once the item has ended. -/
def State.itemDone (s : State) (k : Nat) (x : LdlPos) (r : KernelRun) (run : ItemRun) (hs : List HostAnswer) : State :=
  let a := s.fld (R.LDL_POS_STATUS.PHYS k)
  let (e, t) := (s.eng r.k.tag hs r.k.op).tile r
  let done := fun (s : State) (r : KernelRun) => s.setLpos k { x with running := some r, isSealed := e.isSealed }
  if e.poison.isSome then done e.s { r.halt sPOISON 6 with poison := e.poison }
  else match e.fail with
  | some f => done (e.s.opXlateRecord f r.k.thread r.k.tag r.k.pc) (r.halt f.code.1 f.code.2)
  | none =>
    let (s, c) := e.s.checkItem k (max e.level r.k.chk.toNat) (run.judged (t.accs.all LAcc.resOk)) (Config.itemCrc true r.k.fva r.items)
    let r := { r with flags := r.flags ||| t.flags ||| c.flags }
    if !c.usable then (done s (r.halt sCHECK 3)).retireCells a c.retire
    else
      let e' := t.writes.foldl (fun (e : Eng) w => e.write w.fva 0 w.count w.data false) { e with s := s.keepAccs a run.cell t.accs }
      let r := { r with temp := t.temp.getD r.temp, b := t.b.getD r.b,
                        ports := r.ports ++ e'.ports.filter (fun n => !r.ports.contains n),
                        lastY := if t.writes = [] then r.lastY else some s.tick }
      (match e'.fail with
      | some f => done (e'.s.opXlateRecord f r.k.thread r.k.tag r.k.pc) (r.halt f.code.1 f.code.2)
      | none => done e'.s r.step).retireCells a c.retire

/-- WORK_ITEM_DONE (R184, R186, R187, R194, R195): the tile that a position's kernel has come to ends on a live cell. Where
reduction work waits, it goes first, but for the quanta that KMIN gives to kernel work; in a quantum that the shed level withholds
none ends (R366). -/
def execWorkItemDone (k : Fin 16) (run : ItemRun) (hs : List HostAnswer) (s : State) : Result :=
  .next <|
    let x := s.lpos k
    match x.running with
    | none => s
    | some r =>
      if r.finished ∨ s.posState k ≠ 0 ∨ s.isRetired (s.fld (R.LDL_POS_STATUS.PHYS k)) run.cell
          ∨ x.quantum = 4 ∨ (x.quantum ≠ 2 ∧ s.reductionWaits k) then s
      else s.itemDone k x r run hs

/-- The Y lines that a kernel has not written: (row, first element), row by row (R190). -/
def KernelRun.unwritten (r : KernelRun) : List (Nat × Nat) :=
  let d := r.k.bytes.toNat
  let len := if kdKind d = 1 then kdDout d else egRow d
  let fmt := if kdKind d = 1 then kdYfmt d else egYfmt d
  let per := lineElems fmt
  let rows := if kdKind d = 1 then kdNtok d else egNbag d
  let n := chunks len
  let row := if kdKind d = 1 then r.group * lraGroup d + (r.tile - 1) / n else r.group
  let first := if kdKind d = 1 then 512 * ((r.tile - 1) % n) else 512 * r.tile
  ((upFrom row (rows - row)).map fun y =>
    ((upFrom 0 ((len + per - 1) / per)).filter fun m => decide (y ≠ row ∨ first ≤ m * per)).map fun m => (y, m * per)).flatten

/-- A kernel that met poison writes its remaining Y lines poisoned; their data is free (R190). -/
def Eng.poisonRest (e : Eng) (r : KernelRun) : Eng :=
  let d := r.k.bytes.toNat
  let (base, len, fmt) := if kdKind d = 1 then (kdY d, kdDout d, kdYfmt d) else (egY d, egRow d, egYfmt d)
  r.unwritten.foldl (fun (e : Eng) y =>
    let (v, s) := e.s.fresh
    { e with s := s }.write (base + 64 * (rowLines fmt len * y.1 + y.2 / lineElems fmt)) 0 64 v true) e

/-- A kernel that has run ends (R189): its record, once every Y write has been performed. -/
def State.kernelEnds (s : State) (p : Nat) (r : KernelRun) (hs : List HostAnswer) : State :=
  let e := s.eng r.k.tag hs r.k.op r.ports
  let hostY := decide (e.ports ≠ [])
  let e := e.flush
  let k := match e.fail with
    | some f => if r.k.status = sOK then { r.k with status := f.code.1, detail := f.code.2 } else r.k
    | none => r.k
  let s := e.s.setLpos p { e.s.lpos p with running := none, isSealed := false }
  let (free, s) := s.fresh
  s.endKernel k e.hs p r.startTick (if hostY then s.tick else r.lastY.getD free) r.flags r.poison

/-- KERNEL_COMPLETE (R127, R189, R190): the finished kernel of a position, or (none) the first kernel that ends without having
run, writes its completion record once every Y write has been performed; one that met poison first writes its remaining Y lines
poisoned. -/
def execKernelComplete (pos : Option (Fin 16)) (hs : List HostAnswer) (s : State) : Result :=
  .next <|
    match pos with
    | none =>
      match s.ldl.ended with
      | [] => s
      | k :: rest =>
        let (a, s) := s.fresh
        let (b, s) := s.fresh
        let (c, s) := s.fresh
        ({ s with ldl := { s.ldl with ended := rest } }).endKernel k hs a b c 0 none
    | some p =>
      match (s.lpos p).running with
      | none => s
      | some r =>
        if !r.finished || s.engineWaits (r.k.op + 1) then s
        else if r.k.status = sPOISON ∧ ¬ r.rested then
          let e := (s.eng r.k.tag hs r.k.op r.ports).poisonRest r
          let r := { r with rested := true, ports := e.ports, lastY := if r.unwritten = [] then r.lastY else some s.tick }
          let s := e.s.setLpos p { e.s.lpos p with running := some r }
          if s.engineWaits (r.k.op + 1) then s else s.kernelEnds p r e.hs
        else s.kernelEnds p r hs

/-- CELL_RETIRE_WRITE (Table 8.15): each 1 retires a cell. -/
def execCellRetireWrite (via : Via) (a : Fin 17) (v : Word) (s : State) : Result :=
  .next <| s.gate via (R.LDL_CELL_RETIRE.adr a) fun s =>
    ((upFrom 0 64).filter fun c => bitOf v.toNat c).foldl (fun s c => s.retireCell a c) s

/-- SPARE_REPLACE_GO (R195, Table 8.16). -/
def execSpareReplaceGo (via : Via) (k : Fin 16) (s : State) : Result :=
  .next <| s.gate via R.LDL_SPARE_CTL.adr fun s => s.startReplace k

/-- SPARE_REPLACEMENT_DONE (R195): the spare takes the position over. -/
def execSpareReplacementDone (s : State) : Result :=
  .next <|
    match s.ldl.repl with
    | none => s
    | some (k, _) =>
      let old := s.fld (R.LDL_POS_STATUS.PHYS k)
      let new := s.fld R.LDL_STATUS.SPARE_PHYS
      let s := { s with ldl := { s.ldl with repl := none } }
      let s := (s.setFld (R.LDL_POS_STATUS.PHYS k) new).setFld R.LDL_STATUS.SPARE_PHYS 0x1F
      let s := (s.setFld (R.LDL_POS_STATUS.LIVE k) (s.liveCells new)).setPosState k 0
      (((s.ldlEvent R.LDL_EVENTS.ARRAY_REPLACED).faultLog 0x0503 0 5 old k old).judgeCells k).recheck

/-- KERNEL_SLOT_MOVE (R183): the boundary of a bank moves by one slot toward KERNEL_SLOTS, where the slot is free. Which of
its slots a reservation or a kernel holds is not in the spec: those nearest its own end of the bank (log entry 21). -/
def execKernelSlotMove (k : Fin 16) (s : State) : Result :=
  .next <|
    let now := s.fld (R.LDL_POS_STATUS.KSLOTS k)
    let want := s.fld R.LDL_STORE_SPLIT.KERNEL_SLOTS
    let used := if (s.lpos k).running.isSome then 6 else 0
    if now < want ∧ s.fld (R.LDL_POS_STATUS.CRES k) + now + 1 ≤ 96 then
      (s.setFld (R.LDL_POS_STATUS.KSLOTS k) (now + 1)).recheck
    else if want < now ∧ used ≤ now - 1 then (s.setFld (R.LDL_POS_STATUS.KSLOTS k) (now - 1)).recheck
    else s

/-- Quanta of every 16 in which cells accept work items at a shed level (Table 16.3). -/
def ladleDuty : Nat → Nat
  | 0 => 16
  | 1 => 12
  | 2 => 8
  | 3 => 6
  | 4 => 4
  | 5 => 2
  | _ => 1

/-- LADLE_QUANTUM (R184, R366): the shed level's duty gives work the first quanta of every 16 (DESIGN CHOICE, log entry 60);
reduction work that waits goes first; of 16 quanta in which both kinds wait, kernel work has at least KMIN. -/
def execLadleQuantum (k : Fin 16) (s : State) : Result :=
  .next <|
    let x := { s.lpos k with turn := ((s.lpos k).turn + 1) % 16 }
    let red := s.reductionWaits k
    let ker := s.kernelRuns k
    if ladleDuty (s.fld R.GLB_POWER_STATUS.LEVEL) ≤ x.turn then s.setLpos k { x with quantum := 4 }
    else if red && ker then
      let b := if x.both = 16 then 0 else x.both
      let n := if x.both = 16 then 0 else x.kernelQuanta
      let kernel := decide (16 - b ≤ s.fld R.LDL_ARB.KMIN - n)
      s.setLpos k { x with quantum := if kernel then 2 else 1, both := b + 1, kernelQuanta := if kernel then n + 1 else n }
    else s.setLpos k { x with quantum := if red then 1 else if ker then 3 else 0 }

end Sys2Proof.Machine
end

