-- ==== Sys2Proof/Machine/RelCmds.lean ====
section
/-! DEFINITION. Reliability (chapter 15): the patrol, errors in the module's own storage, the controller's restart, tray
removal, the logs, and the scheduler fault of an array (R195). -/

namespace Sys2Proof.Machine

open Sys2Proof

/-! ## HBM and on-die storage -/

/-- HBM lines (R71). -/
def hbmLines : Nat := 4500000000

/-- Ticks of the patrol's period: PERIOD_H hours (R34, R346). -/
def State.patrolPeriod (s : State) : Nat := 22500000 * s.fld R.REL_SCRUB.PERIOD_H

/-- PATROL_SCRUB (R34, R346, R374): the patrol's next line, as its check finds it; a unit not yet written is skipped. A pass over
HBM begins one period after the one before; PERIOD_H = 0 stops the patrol, and shed level S2 and above pause it
(Table 16.3). -/
def execPatrolScrub (e : Ecc) (s : State) : Result :=
  .next <|
    if s.fld R.REL_SCRUB.PERIOD_H = 0 ∨ 2 ≤ s.fld R.GLB_POWER_STATUS.LEVEL then s
    else
      let h := s.rel.patrol
      let start := decide (h = 0)
      if start ∧ s.rel.patrolAt ≠ 0 ∧ s.tick < s.rel.patrolAt + s.patrolPeriod then s
      else
        let next := if FMap.get (fun _ => false) s.units (h / 1024) then h + 1 else (h / 1024 + 1) * 1024
        let s := s.hbmRead h e none
        { s with rel := { s.rel with patrol := if hbmLines ≤ next then 0 else next,
                                     patrolAt := if start then s.tick else s.rel.patrolAt } }

/-- Row of Table 15.3, and the address for the fault record; the packet buffers of the Switch Core are not in that table: 0. -/
def Storage.row : Storage → Nat × Nat
  | .sieveCache k => (1, k)
  | .tlb k => (1, k)
  | .walk k => (1, k)
  | .icache k => (1, k)
  | .route f => (2, f.toNat)
  | .group g => (2, g)
  | .plan p => (2, p)
  | .rlc i => (3, i)
  | .reduction _ k => (4, k)
  | .operand k => (4, k)
  | .atomicLine h => (5, h)
  | .sieveBucket b => (6, b)
  | .ledgerSet n => (7, n)
  | .packet i _ => (0, i)

/-- A Skidder with a free slot, which one being open. -/
def State.anySkid (s : State) : Option Nat × State :=
  let l := (upFrom 0 128).filter fun k => !(s.freeSlots k).isEmpty
  let (r, s) := s.fresh
  (l[r % l.length]?, s)

/-- Start the write-back of a dirty cached line through a Skidder with a free slot, where there is one (R124). -/
def State.writeOut (s : State) (l : RlcLine) : State :=
  match s.anySkid with
  | (none, s) => s
  | (some k, s) =>
    let leaving := s.home.rlc.map fun y => if y = l then { y with leaving := true } else y
    (s.setRlc leaving).writeBack k 512 l

/-- A line of a cached entry of the Remote Line Cache is uncorrectable: clean, dropped; dirty, written back with PZ. -/
def State.rlcError (s : State) (i : Nat) : State :=
  match s.home.rlc[i]? with
  | none => s
  | some l =>
    if ¬ l.dirty then s.setRlc (s.home.rlc.erase l)
    else
      let bad := { l with pz := true }
      let s := s.setRlc (s.home.rlc.map fun y => if y = l then bad else y)
      (s.writeOut bad).created 0 2 none 0

/-- Mark a table's entry at a key. -/
def markKey (m : FMap Bool) (k : Nat) : FMap Bool := FMap.set (fun _ => false) m k true

/-- A packet buffer of the Switch Core is uncorrectable (R139): an error in the payload sets the packet's PZ, with a CREATED record
(Table 15.11); one in the header discards it, with a fault record (Table 15.10). The queues stand one after another: those of the links, local delivery, the two holds and the stalled inputs. -/
def State.packetError (s : State) (i : Nat) (header : Bool) : State :=
  let all := s.swc.linkq ++ s.swc.localq ++ s.swc.holdq ++ s.swc.transq ++ s.swc.stalled
  match all[i]? with
  | none => s
  | some q =>
    let hit := fun (l : List QPkt) => if header then l.erase q else l.replace q { q with pkt := { q.pkt with pz := true } }
    let w := { s.swc with linkq := hit s.swc.linkq, localq := hit s.swc.localq, holdq := hit s.swc.holdq,
                          transq := hit s.swc.transq, stalled := hit s.swc.stalled }
    let s := { s with swc := w }
    let s := if header then (s.freePool q).noteHold else s
    let s := if header ∧ q.link < 32 then s.noteDepth q.link q.pkt.vc.toNat else s
    if header then s.faultLog 0x0204 0 0 0 0 q.point.code
    else s.created 0 3 (some (q.pkt.line.toNat, q.pkt.sub.toNat)) (if isResponse q.pkt.op then 0 else q.pkt.tag.toNat)

/-- What an uncorrectable error does at a place (Table 15.3, R139). -/
def State.strike (s : State) : Storage → State
  | .sieveCache k =>
    let p := getBits k 41 6
    ({ s with siv := { s.siv with cache := s.siv.cache.filter fun e => e.1 != k } }).noteCached p
  | .tlb k => { s with xlt := { s.xlt with tlb := FMap.drop (· == k) s.xlt.tlb } }
  | .walk k => { s with xlt := { s.xlt with walk := FMap.drop (· == k) s.xlt.walk } }
  | .icache k => { s with icache := s.icache.del k }
  | .route f =>
    let s := { s with swc := { s.swc with routeBad := markKey s.swc.routeBad f.toNat } }
    s.colLost fun m => s.memberLost m
  | .group g => { s with swc := { s.swc with groupBad := markKey s.swc.groupBad g } }
  | .plan p => { s with opt := { s.opt with plans := FMap.drop (fun k => k / 257 == p.val) s.opt.plans } }
  | .rlc i => s.rlcError i
  | .reduction h k =>
    match s.colAt h with
    | none => s
    | some e =>
      let hit := fun (m : FMap ColLine) => m.map fun (x : Nat × ColLine) => if x.1 = k then (x.1, { x.2 with pz := true }) else x
      (s.setCol h { e with kept := hit e.kept, results := hit e.results }).created 0 2 none 0
  | .operand k =>
    let x := s.lpos k
    match x.running with
    | none => s
    | some r =>
      let r := if r.finished then r else { r.halt sPOISON 6 with poison := some (0, 0) }
      (s.setLpos k { x with running := some r }).created 0 2 none 0
  | .atomicLine h => if s.home.onDie.contains h then (s.setPoison h true).created h 2 none 0 else s
  | .sieveBucket b => { s with siv := { s.siv with lost := markKey s.siv.lost b } }
  | .ledgerSet n =>
    let keep := FMap.drop (fun k => k / 4 == n.val) s.home.ledger
    { s with home := { s.home with ledger := keep, lostSets := FMap.put s.home.lostSets n s.tick } }
  | .packet i header => s.packetError i header

/-- SRAM_UNCORRECTABLE (R347, R139). -/
def execSramUncorrectable (x : Storage) (s : State) : Result :=
  .next <|
    if x.row.1 = 0 then s.strike x
    else
    let s := s.strike x
    let s := (s.event R.REL_EVENTS.SRAM_UE 9).count R.REL_COUNTS.SRAM_UE
    s.faultLog 0x0A01 0 0 0 x.row.1 x.row.2

/-- LEDGER_SET_LOST_EXPIRE (R347): 8,192 ticks after the set was found uncorrectable. -/
def execLedgerSetLostExpire (n : Fin 1048576) (s : State) : Result :=
  .next <|
    match FMap.find s.home.lostSets n with
    | some t => if t + 8192 ≤ s.tick then { s with home := { s.home with lostSets := FMap.del s.home.lostSets n } } else s
    | none => s

/-! ## The Iddaum controller (R344) -/

/-- A settings-store write in progress completes with NO_RESOURCE (R344). -/
def State.dropProgram (s : State) : State :=
  match s.mgt.prog with
  | none => s
  | some _ =>
    let s := { s with mgt := { s.mgt with prog := none } }
    ((s.setFld R.MGT_SET_STATUS.BUSY 0).setFld R.MGT_SET_STATUS.RESULT sNORES).raise R.MGT_SET_STATUS.DONE

/-- IDDAUM_LOCKSTEP_RESTART (R344): the control loops hold; mailbox commands, SPDM requests and settings-store writes in
progress, the Debug Epoch's among them, complete with NO_RESOURCE. -/
def execIddaumLockstepRestart (s : State) : Result :=
  .next <|
    if s.mgt.restart.isSome then s
    else
      let s := s.dropProgram.failEpoch
      let spdm := match s.sec.quote with
        | some q => if q.dst.isNone then some q.port else none
        | none => none
      let s := match spdm with
        | some h => (({ s with sec := { s.sec with quote := none } }).setFld R.SEC_QUOTE_STATUS.BUSY 0).send
            (.spdm h (.error .other))
        | none => s
      let s := { s with mgt := { s.mgt with restart := some s.tick } }
      s.event R.REL_EVENTS.IDDAUM_RESTART 9

/-- IDDAUM_RESTART_DONE (R344): the running image runs again; the 0x0B01 record gives the restart time. -/
def execIddaumRestartDone (s : State) : Result := .next s.restartDone

/-! ## Tray removal (R357) -/

/-- Start write-backs of dirty lines in owned granules. -/
def State.flushDirty (s : State) : State :=
  (s.home.rlc.filter fun l => l.dirty && !l.leaving).foldl (fun (s : State) l => s.writeOut l) s

/-- Queued kernels and queued block transfers end with NO_RESOURCE. -/
def State.dropQueues (s : State) : State :=
  let s := (upFrom 0 16).foldl (fun (s : State) k =>
    let x := s.lpos k
    (s.setLpos k { x with queue := [] }).noPosition x.queue) s
  let gone (d : SkdDesc) : SkdRun :=
    { desc := d, startTick := s.tick, endTick := s.tick, status := sNORES, detail := 8, stopped := true }
  let skids := s.skids.map fun (e : Nat × Skid) => (e.1, { e.2 with queue := [], run := e.2.run ++ e.2.queue.map gone })
  { s with skids := skids }

/-- TRAY_PRESENT_DEASSERT (R357): TRAY_PRESENT_N has been deasserted for one full tick. -/
def execTrayPresentDeassert (s : State) : Result :=
  .next <|
    if ¬ s.flag R.REL_TRAY.EN ∨ s.fld R.REL_TRAY.STATE ≠ 0 then s
    else
      let s := (s.dropQueues).colAbortAll 0x10
      let s := { s.setFld R.REL_TRAY.STATE 1 with rel := { s.rel with trayAt := s.tick } }
      (s.event R.REL_EVENTS.TRAY_DRAIN 8).flushDirty

/-- Whether everything that a drain waits for has come about (R357). -/
def State.drained357 (s : State) : Bool :=
  s.slots.isEmpty && ((upFrom 0 16).all fun k => (s.lpos k).running.isNone) && s.skids.all (fun e => e.2.run.isEmpty)
    && s.home.mirror.all (fun m => m.kind != .async) && s.home.rlc.all fun l => !l.dirty

/-- TRAY_DRAIN_END (R357): LEAVE with REASON 1 on every channel that is UP, and LEFT; while the drain still runs, the
write-backs that found no slot before are tried again. -/
def execTrayDrainEnd (s : State) : Result :=
  .next <|
    if s.fld R.REL_TRAY.STATE ≠ 1 then s
    else
      let late := decide (s.fld R.REL_TRAY.DRAIN_TICKS ≤ s.tick - s.rel.trayAt)
      if ¬ s.drained357 ∧ ¬ late then s.flushDirty
      else
        let s := (upFrom 0 262).foldl (fun (s : State) c =>
          if s.fld (R.SWC_CH_STATUS.STATE c) = chUP then
            s.sendCtrl c (.leave (BitVec.ofNat 16 s.feid) 1 (BitVec.ofNat 64 s.tick))
          else s) s
        (s.setFld R.REL_TRAY.STATE 2).faultLog 0x0A03 0 0 0 (s.tick - s.rel.trayAt) (b2n (!s.drained357))

/-! ## Logs (R362) -/

/-- LOG_READ (R362): the slot's record goes to REL_LOG_ACC_DATA. -/
def execLogRead (via : Via) (poison : Bool) (i : Fin 262144) (s : State) : Result :=
  .next <| s.gate via R.REL_LOG_ACC_CMD.adr fun s =>
    let r := (FMap.get (fun _ => 0) (if poison then s.rel.poisonLog else s.rel.faultLog) i).toNat
    (upFrom 0 4).foldl (fun (s : State) k =>
      s.setReg (R.REL_LOG_ACC_DATA.adr k) (BitVec.ofNat 64 (getBits r (64 * k) 64))) s

/-! ## The Ladle's scheduler (R195, R196) -/

/-- SCHEDULER_BANK_FAULT (R195, R196): the spare replaces the array, or the position is disabled at once where none is
left. -/
def execSchedulerBankFault (k : Fin 16) (s : State) : Result :=
  .next <|
    if s.posState k ≠ 0 then s
    else if s.fld R.LDL_STATUS.SPARE_PHYS = 0x1F ∨ s.ldl.repl.isSome then (s.startReplace k).disablePos k
    else s.startReplace k

end Sys2Proof.Machine
end

