-- ==== Sys2Proof/Machine/SecCmds.lean ====
section
/-! DEFINITION. Partition commands, protected ranges, keys, quotes, sealed loads and debug sessions (R324 to R341). -/

namespace Sys2Proof.Machine

open Sys2Proof

/-! ## Partitions -/

/-- PART_ENABLE (R324). -/
def execPartEnable (via : Via) (p : PartNo) (s : State) : Result :=
  .next <| s.gate via R.SEC_PART_CMD.adr fun s =>
    if s.pstate p = psDisabled then
      ((s.setFld (R.SEC_PART_STATUS.STATE p) psOpen).setFld (R.PRT_STATUS.ENABLED p) 1).partResult p sOK
    else s.partResult p sCHECK

/-- PART_SEAL (R324): judged in the rule's order; an accepted one runs until SEAL_COMPLETE. -/
def execPartSeal (via : Via) (p : PartNo) (s : State) : Result :=
  .next <| s.gate via R.SEC_PART_CMD.adr fun s =>
    let st := s.sealStatus p
    if st = sOK then
      let s := { s with sec := { s.sec with sealing := FMap.put s.sec.sealing p s.tick } }
      ((s.setFld (R.SEC_PART_STATUS.SEALING p) 1).noteEarliest p).partResult p sOK
    else s.partResult p st

/-- SEAL_COMPLETE (R324): M_CODE, the write protection of the CODE ranges and the ephemeral key pair; the random bits are
free. -/
def execSealComplete (p : PartNo) (s : State) : Result :=
  .next <|
    match FMap.find s.sec.sealing p with
    | none => s
    | some _ =>
      let (r, s) := s.fresh
      let pair : KeyPair := { ek := Config.kemPublic r, dk := Config.kemSecret r }
      let mc := FMap.set (fun _ => 0) s.sec.mCode p (measure (s.codeBytes p))
      let me := FMap.set (fun _ => 0) s.sec.mEk p (measure (leBytes 1184 pair.ek.toNat))
      let s := { s with sec := { s.sec with sealing := FMap.del s.sec.sealing p, pairs := FMap.put s.sec.pairs p pair,
                                            mCode := mc, mEk := me } }
      let s := (s.setFld (R.SEC_PART_STATUS.SEALING p) 0).setFld (R.SEC_PART_STATUS.EK p) 1
      ((s.setFld (R.SEC_PART_STATUS.STATE p) psSealed).setFld (R.PRT_STATUS.SEALED p) 1).noteEarliest p

/-- A RESET or DISABLE command (R325). -/
def State.resetCommand (s : State) (p : Nat) (low : BitVec 54) (disable : Bool) : State :=
  let T := s.fullTick low
  if s.mayReset p T then (s.scheduleReset p T disable).partResult p sOK else s.partResult p sCHECK

/-- PART_RESET (R325). -/
def execPartReset (via : Via) (p : PartNo) (tick : BitVec 54) (s : State) : Result :=
  .next <| s.gate via R.SEC_PART_CMD.adr fun s => s.resetCommand p tick false

/-- PART_DISABLE (R325). -/
def execPartDisable (via : Via) (p : PartNo) (tick : BitVec 54) (s : State) : Result :=
  .next <| s.gate via R.SEC_PART_CMD.adr fun s => s.resetCommand p tick true

/-- PARTITION_RESET (R326): at its tick, and not before R69 allows the next generation value. -/
def execPartitionReset (p : PartNo) (s : State) : Result :=
  .next <|
    match FMap.find s.sec.resetAt p with
    | some T => if T ≤ s.tick ∧ s.earliest p ≤ s.tick then s.resetPartition p else s
    | none => s

/-- PARTITION_RESET_DONE (R326): sweep and scrubs have ended; OPEN, or DISABLED after DISABLE. -/
def execPartitionResetDone (p : PartNo) (s : State) : Result :=
  .next <|
    if ¬ s.resetOver p then s
    else
      let off := FMap.get (fun _ => false) s.sec.toDisable p
      let s := { s with sec := { s.sec with toDisable := FMap.set (fun _ => false) s.sec.toDisable p false } }
      (s.setFld (R.SEC_PART_STATUS.STATE p) (if off then psDisabled else psOpen)).setFld (R.PRT_STATUS.ENABLED p) (b2n !off)

/-! ## Protected ranges -/

/-- RANGE_ADD (R327). -/
def execRangeAdd (via : Via) (i : Fin 256) (secret : Bool) (p : PartNo) (base : BitVec 28) (size : BitVec 16) (s : State) :
    Result :=
  .next <| s.gate via R.SEC_RANGE_CMD.adr fun s =>
    if s.mayAdd i (b2n secret) p base.toNat size.toNat then
      let v := packBits [(0, base.toNat), (28, size.toNat), (44, p.val), (50, b2n secret), (51, 1)]
      (s.setReg (R.SEC_RANGE.adr i) (BitVec.ofNat 64 v)).rangeResult sOK
    else s.rangeResult sCHECK

/-- RANGE_REMOVE (R327): a CODE range goes at once, a SEALED one is scrubbed. -/
def execRangeRemove (via : Via) (i : Fin 256) (s : State) : Result :=
  .next <| s.gate via R.SEC_RANGE_CMD.adr fun s =>
    let st := s.removeStatus i
    let s := if st ≠ sOK then s
      else if s.flag (R.SEC_RANGE.KIND i) then s.scrubRange i else s.freeRange i
    s.rangeResult st

/-- SCRUB_DONE (R326, R327, R373): every byte of the range has been written 0, and its index is free; a range from before a
warm reset comes first. The zeros are no writes that the Home Unit performs, and no watch line is told of them (DESIGN CHOICE, log
entry 70; R55 does not say). -/
def execScrubDone (i : Fin 256) (s : State) : Result :=
  .next <|
    match FMap.find s.sec.oldScrubs i with
    | some (_, b, n) =>
      let s := { s with sec := { s.sec with oldScrubs := FMap.del s.sec.oldScrubs i } }
      s.zeroBytes (65536 * b) (65536 * n)
    | none =>
      if s.fld (R.SEC_RANGE.STATE i) ≠ 2 then s
      else
        let a := 65536 * s.fld (R.SEC_RANGE.BASE i)
        let n := 65536 * s.fld (R.SEC_RANGE.SIZE i)
        ((s.zeroBytes a n).freeRange i).noteScrubs

/-! ## Keys -/

/-- KEY_UNWRAP (R336): discarded while a command runs; the nonce to compare with is that of its start. -/
def execKeyUnwrap (via : Via) (p : PartNo) (slot : Fin 16) (src : BitVec 46) (s : State) : Result :=
  .next <| s.gate via R.SEC_KEY_CMD.adr fun s =>
    if s.flag R.SEC_KEY_STATUS.BUSY then s.secDeny
    else
      let u : Unwrap := { part := p, slot := slot, src := 64 * src.toNat, nonce := FMap.find s.sec.nonces p, start := s.tick }
      ({ s with sec := { s.sec with unwrap := some u } }).setFld R.SEC_KEY_STATUS.BUSY 1

/-- UNWRAP_DONE (R336). -/
def execUnwrapDone (s : State) : Result :=
  .next <|
    match s.sec.unwrap with
    | none => s
    | some u =>
      let (st, tag, key) := s.unwrapEnd u
      let s := { s with sec := { s.sec with unwrap := none } }
      let s := match key with
        | some k =>
          let keys := FMap.put s.sec.keys (16 * u.part + u.slot) k
          ({ s with sec := { s.sec with keys := keys } }).noteSlots u.part
        | none => s.count R.SEC_COUNTS.UNWRAPS_FAILED
      (if tag then s.raise R.SEC_EVENTS.UNWRAP_FAIL else s).keyResult st

/-- KEY_CLEAR (R337, R339). -/
def execKeyClear (via : Via) (p : PartNo) (slot : Fin 16) (s : State) : Result :=
  .next <| s.gate via R.SEC_KEY_CMD.adr fun s =>
    if s.flag R.SEC_KEY_STATUS.BUSY then s.secDeny
    else ((s.clearSlot p slot).dropLoads p slot).keyResult sOK

/-! ## Quotes -/

/-- QUOTE_GO (R330, R333, R334): the nonce is captured; a GO while one is produced is discarded. -/
def execQuoteGo (via : Via) (p : PartNo) (dst : BitVec 46) (s : State) : Result :=
  .next <| s.gate via R.SEC_QUOTE_CMD.adr fun s =>
    if s.flag R.SEC_QUOTE_STATUS.BUSY then s.secDeny
    else if ¬ s.flag R.SEC_STATUS.ID_OK then s.secDeny.quoteResult sNORES
    else if ¬ s.quoteDst (64 * dst.toNat) then s.quoteResult sCHECK
    else
      let q : Quote := { part := p, nonce := s.nonceNow, dst := some (64 * dst.toNat), port := 0, start := s.tick }
      ({ s with sec := { s.sec with quote := some q } }).setFld R.SEC_QUOTE_STATUS.BUSY 1

/-- QUOTE_DONE (R333 to R335): the record goes to DST, or to the SPDM requester, whose response is large. -/
def execQuoteDone (s : State) : Result :=
  .next <|
    match s.sec.quote with
    | none => s
    | some q =>
      let s := { s with sec := { s.sec with quote := none } }
      match q.dst with
      | some a =>
        if ¬ s.quoteDst a then s.quoteResult sCHECK
        else
          let (r, s) := s.quoteRecord q.part q.nonce
          ((s.storeBytes a 79 r).keepNonce q.part q.nonce).quoteResult sOK
      | none =>
        let (r, s) := s.quoteRecord q.part q.nonce
        let s := (s.keepNonce q.part q.nonce).setFld R.SEC_QUOTE_STATUS.BUSY 0
        let spdm := { s.sec.spdm with large := FMap.put s.sec.spdm.large q.port r }
        ({ s with sec := { s.sec with spdm := spdm } }).send (.spdm q.port .large)

/-! ## Sealed loads -/

/-- LOAD_GO (R338): queued, or completed at once; discarded while 16 loads are queued. -/
def execLoadGo (via : Via) (range : Fin 256) (slot : Fin 16) (first count token : BitVec 16) (s : State) : Result :=
  .next <| s.gate via R.SEC_LOAD_CMD.adr fun s =>
    if 16 ≤ s.sec.loads.length then s.secDeny
    else
      let src := 64 * s.fld R.SEC_LOAD_SRC.ADDR
      let st := s.loadRefusal range slot first.toNat count.toNat src
      if st ≠ sOK then s.loadEnds token.toNat st 0
      else
        let l : Load := { range := range, slot := slot, first := first.toNat, count := count.toNat, token := token.toNat,
                          src := src }
        ({ s with sec := { s.sec with loads := s.sec.loads ++ [l] } }).noteLoads.startChunks

/-- CHUNK_DONE (R338): engine `e` has finished its chunk, which is written where its tag verifies. The load engines' writes
are none that the Home Unit performs, and no watch line is told of them (DESIGN CHOICE, log entry 70; R55 does not say). -/
def execChunkDone (e : Fin 4) (s : State) : Result :=
  .next <|
    match FMap.find s.sec.engines e, s.sec.loads with
    | some c, l :: rest =>
      let done := s.openChunk l c
      let s := { s with sec := { s.sec with engines := FMap.del s.sec.engines e } }
      match done with
      | .good plain =>
        let s := s.putLines (65536 * (s.fld (R.SEC_RANGE.BASE l.range) + l.first + c.j)) plain
        ({ s with sec := { s.sec with loads := { l with loaded := l.loaded + 1 } :: rest } }).finishLoad
      | .bad st tag =>
        let n := l.first + c.j
        let fail := match l.fail with
          | some (m, x) => if n < m then (n, st) else (m, x)
          | none => (n, st)
        let s := s.count R.SEC_COUNTS.CHUNKS_FAILED
        let s := if tag then s.raise R.SEC_EVENTS.GCM_FAIL else s
        ({ s with sec := { s.sec with loads := { l with fail := some fail } :: rest } }).finishLoad
    | _, _ => s

/-! ## Debug sessions -/

/-- DEBUG_OPEN (R340): a management-port session opens. -/
def execDebugOpen (via : Via) (s : State) : Result :=
  .next <| s.gate via R.SEC_DEBUG_CTL.adr fun s =>
    if s.flag R.SEC_DEBUG_CTL.SESSION then s
    else (s.raise R.SEC_DEBUG_CTL.SESSION).setFld R.SEC_DEBUG_CTL.COUNTED 0

/-- COUNTED ends with the last session (R341). -/
def State.sessionClosed (s : State) : State := if s.session then s else s.setFld R.SEC_DEBUG_CTL.COUNTED 0

/-- DEBUG_CLOSE (R340). -/
def execDebugClose (via : Via) (s : State) : Result :=
  .next <| s.gate via R.SEC_DEBUG_CTL.adr fun s => (s.setFld R.SEC_DEBUG_CTL.SESSION 0).sessionClosed

end Sys2Proof.Machine
end

