-- ==== Sys2Proof/Machine/TelCmds.lean ====
section
/-! DEFINITION. Counter blocks, the trace buffer and debug access (R341, R393 to R400). -/

namespace Sys2Proof.Machine

open Sys2Proof


/-! ## Counter blocks -/

/-- A count that only blocks hold. -/
def State.tallyOf (s : State) (k : Nat) : Nat := FMap.get (fun _ => 0) s.tel.tally k

/-- Channels of entry `j` of a block: E0-E5, then OE0-OE15. -/
def portChannels (j : Nat) : List Nat := if j < 6 then [256 + j] else upFrom (16 * (j - 6)) 16

/-- Sum of a counter's shadow over channels. -/
def State.sumShadow (s : State) (cs : List Nat) (f : Nat → Field) : Nat := cs.foldl (fun n c => n + s.shadowOf (f c)) 0

/-- Port entry `j` (Table 17.2), as byte offsets, widths in bits and values. -/
def State.portEntry (s : State) (j : Nat) : List (Nat × Nat) :=
  let cs := portChannels j
  let b := 8 * (64 + 32 * j)
  let up := (cs.filter fun c => s.chUp c).length
  let err := s.sumShadow cs R.SWC_CH_CNT.HCRC_ERR + s.sumShadow cs R.SWC_CH_CNT.TRAILER_ERR
  [(b, s.sumShadow cs R.SWC_CH_CNT.TX_BYTES % 2 ^ 64), (b + 64, s.sumShadow cs R.SWC_CH_CNT.RX_BYTES % 2 ^ 64),
   (b + 128, s.sumShadow cs R.SWC_CH_CNT.STALL_CREDIT % 2 ^ 64), (b + 192, s.sumShadow cs R.SWC_CH_CNT.REPLAYED % 2 ^ 32),
   (b + 224, err % 2 ^ 16), (b + 240, up)]

/-- Link entry `l` (Table 17.3). -/
def State.linkEntry (s : State) (l : Nat) : List (Nat × Nat) :=
  let b := 8 * (768 + 32 * l)
  let deep := (upFrom 0 8).map fun v => (b + 16 * v, min 65535 (FMap.get (fun _ => 0) s.tel.depthMax (8 * l + v)))
  let stall := (upFrom 0 8).foldl (fun n v => n + s.shadowOf (R.SWC_LINK_STALL.STALL l v)) 0
  deep ++ [(b + 128, stall % 2 ^ 64), (b + 192, s.fld (R.SWC_LINK_CFG.PEER l)),
    (b + 208, s.fld (R.SWC_LINK_STATUS.CHANNELS l))]

/-- A counter block (Table 17.1), as a number. HBM_RD and HBM_WR are free: the spec does not say what is read or written for
what the module does by itself. -/
def State.blockOf (s : State) (seq rd wr : Nat) : Nat :=
  let at64 (byte v : Nat) : Nat × Nat := (8 * byte, v % 2 ^ 64)
  packBits ([(0, 0x31544756 + 0x100000000), (48, getBits s.tel.atPower.toNat 0 3), (56, s.timeState), at64 8 s.tick,
      (128, seq % 2 ^ 32), (160, s.feid), at64 24 s.tel.atPower.toNat, at64 32 (s.reg R.MGT_SENSE.adr).toNat,
      at64 40 s.tel.atAlert.toNat]
    ++ (upFrom 0 22).flatMap s.portEntry ++ (upFrom 0 32).flatMap s.linkEntry
    ++ [at64 1792 rd, at64 1800 wr, at64 1808 (s.tallyOf 1808), at64 1816 (s.shadowOf R.LDL_COUNTS.KERNELS),
      at64 1824 (s.tallyOf 1824), at64 1832 (s.tallyOf 1832), at64 1840 (s.shadowOf R.HOM_LEDGER_COUNTS.REPLAYS)]
    ++ (upFrom 0 4).map (fun n => at64 (1848 + 8 * n) (s.tallyOf (1848 + 8 * n)))
    ++ [at64 1880 (s.tallyOf 1880), at64 1888 (s.shadowOf R.REL_COUNTS.HBM_CE), at64 1896 (s.tallyOf 1896)])

/-- Write the 32 pieces of a block from a place on. -/
def putBlock (m : FMap Line) (at_ n : Nat) : FMap Line :=
  (upFrom 0 32).foldl (fun (m : FMap Line) i =>
    FMap.set (fun _ => 0) m (at_ + i) (BitVec.ofNat 512 (getBits n (512 * i) 512))) m

/-- Depths of the link queues now, from which MAX starts anew (R394). -/
def State.depthsNow (s : State) : FMap Nat :=
  (upFrom 0 256).foldl (fun (m : FMap Nat) k => FMap.set (fun _ => 0) m k (s.fld (R.SWC_LINK_Q.DEPTH (k / 8) (k % 8)))) []

/-- A block is taken and written twice (R393, R395). -/
def State.takeBlock (s : State) : State :=
  let (rd, s) := s.fresh
  let (wr, s) := s.fresh
  let seq := s.tel.blocks % 2 ^ 32
  let n := s.blockOf seq rd wr
  let units := s.histUnits
  let slot := if units = 0 then 0 else seq % (64 * units)
  let buf := if units = 0 then s.tel.buf else putBlock s.tel.buf (32 * slot) n
  let tel := { s.tel with latest := putBlock s.tel.latest 0 n, buf := buf, depthMax := s.depthsNow,
                          blocks := s.tel.blocks + 1, extra := none, last := some s.tick }
  let s := s.setTel tel
  ((s.setFld R.TEL_SNAP_STATUS.SEQ seq).setFld R.TEL_SNAP_STATUS.SLOT slot).setFld R.TEL_SNAP_STATUS.VALID 1

/-- Whether a block falls due at this boundary: a scheduled one, or one asked for before it (R393). -/
def State.blockDue (s : State) : Bool :=
  let sched := s.flag R.TEL_SNAP_CTL.EN && decide (s.tick % 2 ^ s.fld R.TEL_SNAP_CTL.LOG2_INT = 0)
  let asked := match s.tel.extra with
    | some t => decide (t < s.tick)
    | none => false
  (sched || asked) && s.tel.last != some s.tick

/-- COUNTER_BLOCK (R393 to R395). -/
def execCounterBlock (s : State) : Result := .next (if s.blockDue then s.takeBlock else s)

/-- SNAP_GO (R393). -/
def execSnapGo (via : Via) (s : State) : Result :=
  .next <| s.gate via R.TEL_SNAP_CMD.adr fun s => s.setTel { s.tel with extra := some s.tick }

/-! ## The trace -/

/-- A TEL write is discarded (Table 17.19). -/
def State.telBusy (s : State) : State := s.raise R.TEL_EVENTS.CFG_BUSY

/-- TRACE_SPLIT_WRITE (R396): discarded while RUN = 1; a reserved value has no effect (R9); else it takes effect at the next
boundary, and the register reads as written at once. -/
def execTraceSplitWrite (via : Via) (units : BitVec 7) (s : State) : Result :=
  .next <| s.gate via R.TEL_TRACE_SPLIT.adr fun s =>
    if s.flag R.TEL_TRACE_CTL.RUN then s.telBusy
    else if 64 < units.toNat then s
    else (s.setTel { s.tel with split := some s.histUnits }).setFld R.TEL_TRACE_SPLIT.HIST_UNITS units.toNat

/-- The split takes effect (R396): every unit that changes side is cleared. -/
def State.applySplit (s : State) : State :=
  match s.tel.split with
  | none => s
  | some old =>
    let n := s.fld R.TEL_TRACE_SPLIT.HIST_UNITS
    let moved (k : Nat) : Bool := decide (min old n ≤ k / 2048 ∧ k / 2048 < max old n)
    s.setTel { s.tel with split := none, buf := FMap.drop moved s.tel.buf }

/-- Bits of TEL_TRACE_CTL that change only while RUN = 0 (Table 17.13): MODE to POINT, and START. -/
def traceBits (v : Nat) : Nat × Nat := (getBits v 1 15, getBits v 32 16)

/-- Whether POINT names a channel or a local port. -/
def goodPoint (n : Nat) : Bool := decide (n ≤ 261 ∨ (512 ≤ n ∧ n ≤ 527))

/-- Set the fields beside RUN; a reserved POINT keeps its value (R9). -/
def State.setTrace (s : State) (v : Nat) : State :=
  let s := s.setFld ⟨R.TEL_TRACE_CTL.adr, 1, 5⟩ (getBits v 1 5)
  let s := if goodPoint (getBits v 6 10) then s.setFld R.TEL_TRACE_CTL.POINT (getBits v 6 10) else s
  s.setFld R.TEL_TRACE_CTL.START (getBits v 32 16)

/-- A write of TEL_TRACE_CTL (R398): while RUN = 1 only RUN may change. -/
def State.writeTraceCtl (s : State) (v : Nat) : State :=
  let run := s.flag R.TEL_TRACE_CTL.RUN
  if run ∧ traceBits v ≠ traceBits (s.reg R.TEL_TRACE_CTL.adr).toNat then s.telBusy
  else
    let s := s.setTrace v
    let s := s.setFld R.TEL_TRACE_CTL.RUN (v % 2)
    if bitOf v 0 ∧ ¬ run then
      (s.setFld R.TEL_TRACE_STATUS.WRITTEN 0).setFld R.TEL_TRACE_STATUS.RUNNING (b2n (!s.flag R.TEL_TRACE_CTL.ARM))
    else if bitOf v 0 then s
    else s.setFld R.TEL_TRACE_STATUS.RUNNING 0

/-- TRACE_RUN (R398): TEL_TRACE_CTL is written with RUN = 1. -/
def execTraceRun (via : Via) (v : Word) (s : State) : Result :=
  .next <| s.gate via R.TEL_TRACE_CTL.adr fun s => s.writeTraceCtl (v ||| 1).toNat

/-- TRACE_ARMED_START (R398): the boundary at which GLB_TICK[15:0] equals START. -/
def execTraceArmedStart (s : State) : Result :=
  .next (
    if s.flag R.TEL_TRACE_CTL.RUN ∧ s.flag R.TEL_TRACE_CTL.ARM ∧ ¬ s.flag R.TEL_TRACE_STATUS.RUNNING
        ∧ s.tick % 2 ^ 16 = s.fld R.TEL_TRACE_CTL.START then
      s.setFld R.TEL_TRACE_STATUS.RUNNING 1
    else s)

/-! ## The debug line buffer (R400) -/

/-- The line that TEL_DBG_ADDR names. -/
def State.dbgAddr (s : State) : Nat := s.fld R.TEL_DBG_ADDR.LINE

/-- DEBUG_LINE_READ (R340, R341, R400): a sealed line only inside a session, and not before the Debug Epoch has risen. -/
def execDebugLineRead (via : Via) (s : State) : Result :=
  .next <| s.gate via R.TEL_DBG_CMD.adr fun s =>
    let h := s.dbgAddr
    if s.flag R.TEL_DBG_CMD.BUSY then s.telBusy
    else if hbmLines ≤ h then s.dbgResult sCHECK
    else if ¬ s.isSealedLine h then s.dbgLoad h
    else if ¬ s.session then s.dbgZero.dbgResult sSEALED
    else if s.flag R.SEC_DEBUG_CTL.COUNTED then s.dbgLoad h
    else ((s.setTel { s.tel with dbg := some h }).setFld R.TEL_DBG_CMD.BUSY 1).raiseEpoch

/-- Whether a line lies in a CODE range of a SEALED partition. -/
def State.isSealedCode (s : State) (h : Nat) : Bool :=
  (upFrom 0 256).any fun i =>
    s.fld (R.SEC_RANGE.STATE i) != 0 && !s.flag (R.SEC_RANGE.KIND i) && s.pstate (s.fld (R.SEC_RANGE.PART i)) == psSealed
      && decide (1024 * s.fld (R.SEC_RANGE.BASE i) ≤ h ∧ h < 1024 * (s.fld (R.SEC_RANGE.BASE i) + s.fld (R.SEC_RANGE.SIZE i)))

/-- DEBUG_LINE_WRITE (R400). -/
def execDebugLineWrite (via : Via) (s : State) : Result :=
  .next <| s.gate via R.TEL_DBG_CMD.adr fun s =>
    let h := s.dbgAddr
    if s.flag R.TEL_DBG_CMD.BUSY then s.telBusy
    else if hbmLines ≤ h then s.dbgResult sCHECK
    else if s.isSealedLine h ∨ s.isSealedCode h then s.dbgResult sSEALED
    else if ¬ s.visible (64 * h) 64 then s.dbgResult sCHECK
    else (s.homeWrite h 0 64 s.tel.line false).dbgResult sOK

/-- DEBUG_EPOCH_WRITE_DONE (R341): `ok`: the write to the settings store succeeded; while the controller is swapped it waits
(R385), and while it restarts the write fails (R344). -/
def execDebugEpochWriteDone (ok : Bool) (s : State) : Result :=
  .next (
    if s.sec.raising.isNone ∨ s.mgt.swap.isSome then s
    else if ¬ ok ∨ s.mgt.restart.isSome then s.failEpoch
    else
      let s := { s with sec := { s.sec with raising := none } }
      let e := (s.fld R.SEC_DEBUG_EPOCH.EPOCH + 1) % 2 ^ 64
      let s := (s.setFld R.SEC_DEBUG_EPOCH.EPOCH e).journal itDEBUG 0 e
      let s := { s with sec := { s.sec with dbgBoot := true } }
      let s := s.raise R.SEC_EVENTS.DEBUG_READ
      let s := if s.session then s.setFld R.SEC_DEBUG_CTL.COUNTED 1 else s
      s.endSealedRead true)

/-! ## Accumulators (Table 17.5) -/

/-- Control-space offset of word `i` of accumulator `a` of cell `c` at position `k`. -/
def accOffset (k c a i : Nat) : Nat := 0x3B00000 + 0x8000 * k + 0x200 * c + 0x40 * a + 8 * i

/-- A word of the accumulators' window (R399): a retired cell's accumulators read 0; so does the position while it runs a
work item that read a SEALED range, unless COUNTED. While the position runs a kernel, what an accumulator holds in the core cycle
of the read is free; else it holds what the cell's last work item left in it (Table 8.3). -/
def State.accumulator (s : State) (k c a i : Nat) : Nat × State :=
  let x := s.lpos k
  if s.isRetired (s.fld (R.LDL_POS_STATUS.PHYS k)) c then (0, s)
  else if x.running.isSome ∧ x.isSealed ∧ ¬ s.flag R.SEC_DEBUG_CTL.COUNTED then (0, s.raise R.TEL_EVENTS.SEALED_ZERO)
  else if s.kernelRuns k then s.fresh
  else (getBits (FMap.get (fun _ => {}) s.ldl.acc (512 * s.fld (R.LDL_POS_STATUS.PHYS k) + 8 * c + a) : LAcc).word (64 * i) 64, s)

/-- ACCUMULATOR_READ (R399). -/
def execAccumulatorRead (via : Via) (k : Fin 16) (c : Fin 64) (a : Fin 8) (i : Fin 6) (s : State) : Result :=
  .next (
    let off := accOffset k c a i
    if ¬ s.sees via off false then (s.denied via).send (.readData via off 0)
    else
      let (v, s) := s.accumulator k c a i
      s.send (.readData via off (BitVec.ofNat 64 v)))

end Sys2Proof.Machine
end

