-- ==== Sys2Proof/Machine/Boundary.lean ====
section
/-! DEFINITION. The tick boundary (R35, R45, Table 2.4). Actions of the table that have a row of their own in the opcode table
are their own commands. -/

namespace Sys2Proof.Machine

open Sys2Proof

/-- The readings are shown. -/
def State.measured (s : State) (m : Measured) : State :=
  let s := (s.setFld R.GLB_POWER_STATUS.INPUT_W m.watts.toNat).setFld R.GLB_POWER_STATUS.VIN m.vin.toNat
  let s := s.setFld R.GLB_POWER_STATUS.IIN m.iin.toNat
  let s := m.lanes.foldl (fun (s : State) x => s.countLane x) s
  if s.tick % 1024 ≠ 0 then s
  else
    let s := (s.setFld R.MGT_SENSE.TDIE m.tdie.toNat).setFld R.MGT_SENSE.THBM m.thbm.toNat
    (s.setFld R.MGT_SENSE.TLASER m.tlaser.toNat).setFld R.MGT_SENSE.RAIL_W m.rails.toNat

/-- Step 1: what a counter block of this boundary shows of power and alerts, before the actions below; a new split of the
trace buffer takes effect before the block is taken (R393, R396). -/
def State.snapshotPoint (s : State) : State :=
  let s := s.setTel { s.tel with atPower := s.reg R.GLB_POWER_STATUS.adr, atAlert := s.reg R.REL_ALERT_CAUSE.adr }
  s.applySplit

/-- Dark windows that a requested switch meets are moved (R278): also for a restoring switch, which an abort has requested. -/
def State.keepClear (s : State) : State :=
  match s.opt.sw with
  | some x => if x.stage = 0 then s.moveMet x.tick else s
  | none => s

/-- Step 2: the cap controller, and the shed step, which takes the slot of a plan switch due at the same boundary: the switch
moves to the next one (R45, R367, R368). -/
def State.powerStep (s : State) : State :=
  let s := s.capControl.keepClear
  if ¬ s.shedDue then s.capUnmet
  else
    let opt := match s.opt.sw with
      | some x => if x.stage = 0 ∧ x.tick ≤ s.tick then { s.opt with sw := some { x with tick := s.tick + 1 } } else s.opt
      | none => s.opt
    ((s.setOpt opt).shedStep).capUnmet

/-- Threads that wait for a ledger sequence value to become free again are looked at (R114): time alone frees it. -/
def State.wakeLedger (s : State) : State :=
  (s.threads.filter fun e => e.2.wait matches .ledger _).foldl (fun (s : State) e =>
    if s.tstate e.1 = stWaiting ∧ s.waitMet e.1 e.2.wait then (s.runnable e.1).takeHeld e.1 else s) s

/-- Exchanges under way go on where blocks have left (R213). -/
def State.exchangeTick (s : State) : State := (FMap.keys s.col.entries).foldl (fun (s : State) h => s.exchangeGo h) s

/-- The time's part: a module that becomes LOST aborts its collectives (R43, R219). -/
def State.clockTick (s : State) : State :=
  let was := s.timeState
  let s := s.timeTick.wakeLedger.restartLimit.swapLimit.exchangeTick
  let s := if s.swc.gains = [] then s else s.settleGains.refreshLinks
  if s.timeState = tsLOST ∧ was ≠ tsLOST then s.refuseSwitch.colAbortAll 0x18 else s

/-- What the boundary before left: a credit batch that still waits is sent, with the heartbeat. -/
def State.lateCredits (s : State) : State :=
  if s.tim.credits then ({ s with tim := { s.tim with credits := false } }).linkTick else s

/-- Steps 5 and 6 of a boundary: at once, or once the plan switch and the steps of collectives that are due at it have started
(R45). -/
def State.creditStep (s : State) : State := ({ s with tim := { s.tim with credits := true } }).settleCredits

/-- TICK_BOUNDARY (R35, R45): while the module is powered. -/
def execTickBoundary (m : Measured) (s : State) : Result :=
  .next (if ¬ s.cru.on then s else (((s.lateCredits.clockTick.measured m).snapshotPoint).powerStep).creditStep)

end Sys2Proof.Machine
end

