-- ==== Sys2Proof/Machine/RegMap.lean ====
section
/-! DEFINITION. Looking registers up in the register map: the fields at an offset, the registers that hold settings fields. -/

namespace Sys2Proof.Machine

open Sys2Proof

/-- Whether a distance from a register array's base is that of one of its registers. -/
def onGrid : List (Nat × Nat) → Nat → Bool
  | [], d => d == 0
  | (n, step) :: r, d => (upFrom 0 n).any fun i => decide (i * step ≤ d) && onGrid r (d - i * step)

/-- Distance of an array's last register from its base. -/
def gridSpan (dims : List (Nat × Nat)) : Nat := dims.foldl (fun n e => n + (e.1 - 1) * e.2) 0

/-- The fields of the register at an offset; none where no register lies there. -/
def fieldsAt (off : Nat) : List FieldSpec :=
  match regMap.find? fun r => decide (r.base ≤ off ∧ off ≤ r.base + gridSpan r.dims) && onGrid r.dims (off - r.base) with
  | some r => r.fields
  | none => []

/-- Offsets of the registers of an array. -/
def gridOffsets : List (Nat × Nat) → Nat → List Nat
  | [], base => [base]
  | (n, step) :: r, base => (upFrom 0 n).flatMap fun i => gridOffsets r (base + i * step)

/-- Whether a field's Meaning allows a value (R9). -/
def FieldSpec.allows (f : FieldSpec) (v : Nat) : Bool := f.ok.isEmpty || f.ok.any fun e => decide (e.1 ≤ v ∧ v ≤ e.2)

/-- The registers that hold a field marked S, with those fields. -/
def settingsRegs : List (Nat × List FieldSpec) :=
  regMap.flatMap fun r =>
    let fs := r.fields.filter (·.loaded)
    if fs.isEmpty then [] else (gridOffsets r.dims r.base).map fun o => (o, fs)

/-- The settings fields of the register at an offset. -/
def settingsAt (off : Nat) : List FieldSpec := (fieldsAt off).filter (·.loaded)

end Sys2Proof.Machine
end

