-- ==== Sys2Proof/Machine/CruiseLoad.lean ====
section
/-! DEFINITION. Cruise C1: bank choice, records, load defaults, the journal and the identity (R330, R379 to R382). -/

namespace Sys2Proof.Machine

open Sys2Proof

/-- SEQ in a bank's header as the flash holds it. -/
def State.flashSeq (s : State) (b : Nat) : Nat := ofLeBytes (s.flashBytes (bankBase b + 8) 4)

/-- The bank to load, with its records: the newer one first, bank 0 where neither is newer (R379). -/
def State.chooseBank (s : State) : Option (Nat × List Rec) :=
  let first := if newer (s.flashSeq 1) (s.flashSeq 0) then 1 else 0
  match s.bank first with
  | some rs => some (first, rs)
  | none => (s.bank (1 - first)).map fun rs => (1 - first, rs)

/-! ## Records -/

/-- Whether C1 follows a warm reset, which keeps SWC_WHISK_PC (R83). -/
def State.afterWarm (s : State) : Bool := s.fld R.GLB_RESET_STATUS.LAST == 2

/-- A REGS pair: the settings fields at its offset are written; a pair with none, or one for SWC_WHISK_PC after a warm reset,
is skipped and counted (R380, R83). -/
def State.loadPair (s : State) (e : Nat × Nat) : State :=
  let fs := settingsAt e.1
  if fs.isEmpty ∨ (e.1 = R.SWC_WHISK_PC.adr ∧ s.afterWarm) then s.satFld R.MGT_SET_STATUS.IGNORED 1
  else fs.foldl (fun (s : State) f => s.setFld ⟨e.1, f.lo, f.w⟩ (getBits e.2 f.lo f.w)) s

/-- A GROUPS record: units of 8 bytes and an entry (Table 16.9). -/
def State.loadGroups : Nat → List Byte → State → State
  | 0, _, s => s
  | n + 1, v, s =>
    if v.length < 1032 then s
    else
      let g := numAt v 0 2
      let m : FMap Word := (upFrom 0 128).map fun w => (w, BitVec.ofNat 64 (numAt v (8 + 8 * w) 8))
      State.loadGroups n (v.drop 1032) (if g < 4096 then s.putGroup g m else s)

/-- A ROUTES record: units of 8 bytes and an entry; C7 leaves these FEIDs alone (R381). -/
def State.loadRoutes : Nat → List Byte → State → State
  | 0, _, s => s
  | n + 1, v, s =>
    if v.length < 24 then s
    else
      let f := numAt v 0 2
      let s := s.putRoute f (BitVec.ofNat 128 (numAt v 8 16))
      State.loadRoutes n (v.drop 24) { s with cru := { s.cru with fixed := FMap.set (fun _ => false) s.cru.fixed f true } }

/-- A PLAN record: committed and validated as a write would be; a refused one leaves the plan empty (R257, R380). -/
def State.loadPlan (s : State) (v : List Byte) : State :=
  let p := numAt v 0 1
  let m : FMap Word := (upFrom 0 256).map fun c => (c, BitVec.ofNat 64 (numAt v (8 + 8 * c) 8))
  if p < 16 then ({ s with opt := { s.opt with plans := FMap.drop (fun k => k / 257 == p) s.opt.plans } } : State).commitPlan p m (BitVec.ofNat 64 (numAt v (8 + 8 * 256) 8)) else s.optEvent R.OPT_EVENTS.PLAN_REJECT

/-- One record of the bank (R380). -/
def State.loadRecord (s : State) (r : Rec) : State :=
  if r.1 = 7 then (regPairs r.2.length r.2).foldl (fun (s : State) e => s.loadPair e) s
  else if r.1 = 8 then s.loadPlan r.2
  else if r.1 = 9 then s.loadGroups r.2.length r.2
  else if r.1 = 10 then s.loadRoutes r.2.length r.2
  else s

/-- Load defaults of one register (R381): of every settings field where no pair set it, of those with a reserved value where
one did. -/
def State.loadDefault (s : State) (set : Bool) (e : Nat × List FieldSpec) : State :=
  e.2.foldl (fun (s : State) f =>
    let x : Field := ⟨e.1, f.lo, f.w⟩
    if ¬ set then s.setFld x f.dflt
    else if f.allows (s.fld x) then s
    else (s.setFld x f.dflt).satFld R.MGT_SET_STATUS.DEFAULTED 1) s

/-- Load defaults (R381). -/
def State.loadDefaults (s : State) (rs : List Rec) : State :=
  let offs := (allPairs rs).map (·.1)
  settingsRegs.foldl (fun (s : State) e =>
    if e.1 = R.SWC_WHISK_PC.adr ∧ s.afterWarm then s else s.loadDefault (offs.contains e.1) e) s

/-! ## Journal -/

/-- A journal record: ITEM, INDEX, JSEQ, VALUE; none where its CRC is wrong or its ITEM reserved (Table 16.10). -/
def journalAtPlace (bs : List Byte) : Option (Nat × Nat × Nat × Nat) :=
  let it := numAt bs 0 2
  if (crc32c (bs.take 28)).toNat = numAt bs 28 4 ∧ 1 ≤ it ∧ it ≤ 4 then
    some (it, numAt bs 2 2, numAt bs 4 4, numAt bs 8 16)
  else none

/-- Journal places of a bank that hold anything, ascending. -/
def State.journalPlaces (s : State) (b : Nat) : List Nat :=
  let lo := bankBase b + journalAt
  let used := (s.mgt.flash.filter fun e => decide (lo ≤ e.1 ∧ e.1 < lo + journalBytes)).map fun e => (e.1 - lo) / 32
  used.foldr (fun k l => if l.head? = some k then l else k :: l) []

/-- The records of a bank's journal, with their places. -/
def State.journalRecords (s : State) (b : Nat) : List (Nat × Nat × Nat × Nat × Nat) :=
  (s.journalPlaces b).filterMap fun k =>
    (journalAtPlace (s.flashBytes (bankBase b + journalAt + 32 * k) 32)).map fun r => (k, r)

/-- The current item values of a journal, each with its JSEQ: the highest JSEQ wins; for DEBUG_EPOCH the largest value. -/
def journalValues (l : List (Nat × Nat × Nat × Nat × Nat)) : FMap (Nat × Nat) :=
  l.foldl (fun (m : FMap (Nat × Nat)) (r : Nat × Nat × Nat × Nat × Nat) =>
    let (_, it, idx, jseq, v) := r
    match FMap.find m (65536 * it + idx) with
    | none => m.put (65536 * it + idx) (jseq, v)
    | some (j, old) =>
      if (if it = itDEBUG then decide (old < v) else decide (j < jseq)) then m.put (65536 * it + idx) (jseq, v) else m) []

/-- A journal item is applied (Table 16.10). -/
def State.applyItem (s : State) (key v : Nat) : State :=
  let it := key / 65536
  let i := key % 65536
  if it = itDEBUG then s.setFld R.SEC_DEBUG_EPOCH.EPOCH (max (s.fld R.SEC_DEBUG_EPOCH.EPOCH) (v % 2 ^ 64))
  else if it = itRETIRE ∧ i < 17 then s.setReg (R.LDL_CELL_RETIRE.adr i) (BitVec.ofNat 64 v)
  else if it = itBASE ∧ i < 256 then s.setReg (R.OPT_BASE.adr i) (BitVec.ofNat 64 v)
  else if it = itLASER ∧ i < 4 then
    (upFrom 0 5).foldl (fun (s : State) k =>
      let s := s.setFld (R.OPT_LASER_STATUS.FEEDS i k) (getBits v (8 * k) 5)
      s.setFld (R.OPT_LASER_STATUS.STATE i k) (if bitOf v (40 + k) then 4 else 0)) s
  else s

/-- The journal of the bank is read: its items are applied, and the next record's place and JSEQ follow the last one's
(R382). -/
def State.loadJournal (s : State) (b : Nat) : State :=
  let l := s.journalRecords b
  let vals := journalValues l
  let last := l.foldl (fun (x : Option (Nat × Nat)) (r : Nat × Nat × Nat × Nat × Nat) => match x with
    | some (_, j) => if j < r.2.2.2.1 then some (r.1, r.2.2.2.1) else x
    | none => some (r.1, r.2.2.2.1)) none
  let items : FMap Nat := vals.map fun e => (e.1, e.2.2)
  let (ptr, seq) := match last with
    | some (k, j) => (32 * (k + 1) % journalBytes, (j + 1) % 2 ^ 32)
    | none => (0, 0)
  let s := { s with mgt := { s.mgt with jptr := ptr, jseq := seq, items := items } }
  items.foldl (fun (s : State) e => s.applyItem e.1 e.2) s

/-! ## C1 as a whole -/

/-- The identity (R330). -/
def State.identify (s : State) (rs : List Rec) : State :=
  if Config.identityMatches (recOf rs 5) (recOf rs 6) then s.setFld R.SEC_STATUS.ID_OK 1
  else (s.setFld R.SEC_STATUS.ID_OK 0).raise R.SEC_EVENTS.ID_FAIL

/-- Live cells of every position follow the retirements (R194). -/
def State.countCells (s : State) : State :=
  (upFrom 0 16).foldl (fun (s : State) k =>
    if s.posState k = 2 then s
    else (s.setFld (R.LDL_POS_STATUS.LIVE k) (s.liveCells (s.fld (R.LDL_POS_STATUS.PHYS k)))).judgeCells k) s

/-- The split of every bank at the end of C1, when no collective holds a slot: KERNEL_SLOTS (R183). -/
def State.splitStores (s : State) : State :=
  (upFrom 0 16).foldl (fun (s : State) k => s.setFld (R.LDL_POS_STATUS.KSLOTS k) (s.fld R.LDL_STORE_SPLIT.KERNEL_SLOTS)) s

/-- What the banks of the flash are: VALID and SEQ of both (Tables 16.24 and 16.25). -/
def State.showBanks (s : State) : State :=
  (upFrom 0 2).foldl (fun (s : State) b => s.showBank b (s.bank b).isSome (s.flashSeq b)) s

/-- A bank is loaded (R380, R381), and measured with its images (R332). The Debug Epoch never decreases (R341). -/
def State.loadBank (s : State) (b : Nat) (rs : List Rec) : State :=
  let epoch := s.fld R.SEC_DEBUG_EPOCH.EPOCH
  let s := (s.setFld R.MGT_SET_STATUS.NONE 0).setFld R.MGT_SET_STATUS.ACTIVE b
  let s := rs.foldl (fun (s : State) r => s.loadRecord r) s
  let s := s.loadDefaults rs
  let s := s.setFld R.SEC_DEBUG_EPOCH.EPOCH (max epoch (s.fld R.SEC_DEBUG_EPOCH.EPOCH))
  let s := (s.loadJournal b).countCells.splitStores.refreshSets.refreshSets
  let s := (s.runFirmware b rs).setFld R.SEC_STATUS.SET_SEQ (s.flashSeq b)
  let s := { s with sec := { s.sec with mMicro := measure (recOf rs 4), mSet := measure (s.bankImage b) } }
  s.identify rs

end Sys2Proof.Machine
end

