-- ==== Sys2Proof/Machine/HostCmds.lean ====
section
/-! DEFINITION. The commands of the host ports (chapter 13): the two windows, the fence, MSI-X, decoders, configuration,
training and reset. -/

namespace Sys2Proof.Machine

open Sys2Proof

/-! ## Decoders and windows (R304, R305, R308, R310) -/

/-- Units of 256 MiB, in which HDM decoders are programmed. -/
def hdmUnit : Nat := 2 ^ 28

/-- The extent of a window: decoder 0 module memory less the spill area, rounded down to 256 MiB; decoder 1 SIZE_G GiB
(R304). -/
def State.windowExtent (s : State) (h : Nat) (d : Nat) : Nat :=
  if d = 0 then s.visibleEnd / hdmUnit * hdmUnit else s.fld (R.HST_FW.SIZE_G h) * 2 ^ 30

/-- A port's position in its set (R310). -/
def State.setPosition (s : State) (h : Nat) : Nat := ((upFrom 0 h).filter fun i => bitOf (s.portSet h) i).length

/-- The device address that a decoder yields for a host address: its offset with the way bits removed. -/
def Decoder.device (x : Decoder) (hpa : Nat) : Nat :=
  let off := hpa - x.base
  let g := 8 + x.ig
  off / 2 ^ (g + x.iw) * 2 ^ g + off % 2 ^ g

/-- The window offset of a device address (R305). -/
def windowOffset (iw ig k a : Nat) : Nat :=
  let g := 8 + ig
  (a / 2 ^ g * 2 ^ iw + k) * 2 ^ g + a % 2 ^ g

/-- The committed decoder `d` of a port. -/
def State.decoder (s : State) (h d : Nat) : Option Decoder := FMap.find s.hst.decoders (2 * h + d)

/-- The window offset of a CXL.mem request, none where R308 leaves it unperformed. -/
def State.window (s : State) (h d hpa : Nat) : Option Nat :=
  let en := if d = 0 then s.flag (R.HST_PORT_CFG.MM_EN h) else s.flag (R.HST_PORT_CFG.FW_EN h)
  match s.decoder h d with
  | none => none
  | some x =>
    if !en || s.fld R.REL_TRAY.STATE != 0 || !s.flag (R.HST_PORT_CFG.DEF_EN h) || decide (hpa < x.base) || decide (x.base + x.size ≤ hpa) then none
    else
      let k := if x.iw = 0 then 0 else s.setPosition h
      let o := windowOffset x.iw x.ig k (x.device hpa)
      if o / 64 * 64 + 64 ≤ s.windowExtent h d then some o else none

/-- A CXL.mem request is left unperformed (R308). -/
def State.outOfWindow (s : State) (h : Nat) : State :=
  (s.count (R.HST_COUNTS0.OUT_OF_WINDOW h)).raise (R.HST_EVENTS.OUT_OF_WINDOW h)

/-- Poisoned data of a CXL.mem write is received: it counts whether or not the write is performed (Tables 13.4, 13.14,
13.16; DEDUCED, log entry 23). -/
def State.poisonIn (s : State) (h : Nat) (pz : Bool) : State :=
  if pz then (s.count (R.HST_COUNTS1.POISON_IN h)).raise (R.HST_EVENTS.POISON_IN h) else s

/-- Answer a CXL.mem read with poison; its data is a free value. -/
def State.poisonedData (s : State) (h : Nat) : State :=
  let (v, s) := s.fresh
  s.send (.cxlData h (BitVec.ofNat 512 v) true)

/-- Whether a port can receive CXL.mem requests: link up and CXL.mem enabled. -/
def State.memUp (s : State) (h : Nat) : Bool :=
  s.flag (R.HST_PORT_CFG.EN h) && s.fld (R.HST_PORT_STATUS.LINK h) == 2 && (s.conf h).mem

/-- The default tenancy tag of a port (R306). -/
def State.defTag (s : State) (h : Nat) : BitVec 16 := s.tagOf (s.fld (R.HST_PORT_CFG.DEFPART h))

/-- A line of CXL.mem data is carried in a window (Table 17.1). -/
def State.carried (s : State) (h : Nat) : State := s.tally (1848 + 8 * h) 64

/-- A Module Memory window access in the form that the Sieve and the Home Unit judge: host-class, at sub-ID 0 (R306). -/
def State.mmPacket (s : State) (h o : Nat) (op bmc : Nat) (data : Line) (pz : Bool) : Packet :=
  { dst := BitVec.ofNat 16 s.feid, src := BitVec.ofNat 16 s.feid, tag := s.defTag h, opcode := opcodeOf true op 0,
    vc := 0, pz := pz, line := BitVec.ofNat 46 (o / 64), sub := 0, bmc := BitVec.ofNat 16 bmc, payload := data.setWidth 640 }

/-- MM_WINDOW_READ (R306, R308, R320, R328, R349): `e` is what the line's check finds (R346). -/
def execMmWindowRead (h : PortNo) (hpa : BitVec 64) (e : Ecc) (s : State) : Result :=
  .next <|
    if !s.memUp h then s
    else match s.window h 0 hpa.toNat with
    | none => (s.outOfWindow h).poisonedData h
    | some o =>
      let s0 := s
      let s := s.carried h
      let p := s.mmPacket h o opREAD 0 0 false
      match s.judgeAt p with
      | (s, .inr (.hbm a _)) =>
        if s.behindStore a (some h.val) p then s0 else
        let s := s.hbmRead a e (some (o / 64, 0))
        let bad := s.isPoison a
        let s := s.send (.cxlData h (s.readLine a) bad)
        if bad then s.consume (partOf p.tag) 5 p.tag.toNat (o / 64) 0 s.feid 0 else s
      | (s, .inl st) => if st = sSEALED then s.send (.cxlData h 0 true) else s.poisonedData h
      | (s, _) => s.poisonedData h

/-- MM_WINDOW_WRITE (R306, R308, R320, R348): completed once performed, with the mirror's acknowledgement where the region is
mirrored synchronously; a refused write is discarded. -/
def execMmWindowWrite (h : PortNo) (hpa : BitVec 64) (first : Fin 64) (count : Fin 65) (data : Line) (pz : Bool)
    (s : State) : Result :=
  .next <|
    if !s.memUp h ∨ count = 0 ∨ 64 < first.val + count.val then s
    else match s.window h 0 hpa.toNat with
    | none => ((s.poisonIn h pz).outOfWindow h).send (.cxlCmp h)
    | some o =>
      let s0 := s
      let s := s.carried h
      let p := s.mmPacket h o opWRITE (first + 64 * count) data pz
      match s.judgeAt p with
      | (s1, .inr (.hbm a i)) =>
        if s.storeWaits i then s0
        else
          let s := if pz then (s1.poisonIn h true).created a 4 (some (o / 64, 0)) p.tag.toNat else s1
          s.storeHbm (some h.val) p a i
      | (s, _) => (s.poisonIn h pz).send (.cxlCmp h)

/-! ## The Fabric Window (R307) -/

/-- The Skidders bound to a port: a change of the registers takes effect while no request of the port is outstanding
(R83). -/
def State.boundNow (s : State) (h : Nat) : Nat × State :=
  let regs := (s.reg (R.HST_SKID_LO.adr h)).toNat + 2 ^ 64 * (s.reg (R.HST_SKID_HI.adr h)).toNat
  if s.fld (R.HST_PORT_STATUS.FW_OUT h) = 0 then
    (regs, { s with hst := { s.hst with bound := FMap.set (fun _ => 0) s.hst.bound h regs } })
  else (FMap.get (fun _ => 0) s.hst.bound h, s)

/-- The Skidder that the Whisk chooses for a line (Table 4.3), none where none is bound or the one chosen is not assigned
to the partition (R307, DEDUCED: judged on the chosen one; log entry 33). -/
def State.hostSkid (s : State) (h p line : Nat) : Option Nat × State :=
  let (m, s) := s.boundNow h
  let l := (upFrom 0 128).filter fun k => bitOf m k
  let k := whisk (line % 2 ^ 46) (s.fld R.SWC_WHISK_SEED.SKID)
  match l[k % l.length]? with
  | some k => (if s.flag (R.SEQ_SKID_CFG.ASSIGNED k) && s.fld (R.SEQ_SKID_CFG.PART k) == p then some k else none, s)
  | none => (none, s)

/-- Whether a write of the port set to the line of an FVA is held, which later accesses to the line wait for (R99). -/
def State.behindHeld (s : State) (h fva : Nat) : Bool :=
  s.xlt.held.any fun e => match s.slot e.1 with
    | some sl => (match sl.owner with | .host n => s.sameSet n h | _ => false) && sl.fva / 64 == fva / 64
    | none => false

/-- FVA of a Fabric Window offset (R307). -/
def State.fwFva (s : State) (h o : Nat) : Nat := s.fld (R.HST_FW.BASE_G h) * 2 ^ 30 + o

/-- A port's fabric request. -/
def State.fwReq (s : State) (h sk op fva bmc : Nat) (data : Line) (pz : Bool) : Req :=
  { owner := .host h, sk := sk, tag := s.defTag h, fva := fva, op := op, hc := true, bmc := bmc, payload := data.toNat,
    pz := pz, limit := s.fld (R.HST_PORT_CFG.TIMEOUT_LOG2 h) }

/-- FW_WINDOW_READ (R307, R16, R308). A read that must wait at issue is taken when the command comes again. -/
def execFwWindowRead (h : PortNo) (hpa : BitVec 64) (s : State) : Result :=
  .next <|
    if !s.memUp h then s
    else match s.window h 1 hpa.toNat with
    | none => (s.outOfWindow h).poisonedData h
    | some o =>
      let s0 := s
      let s := s.carried h
      let fva := s.fwFva h (o / 64 * 64)
      let tag := s.defTag h
      if s.behindHeld h fva then s0
      else match s.translate tag fva .load with
      | (s, .fault f) =>
        let s := s.xlateRecord f .load 2 h tag fva 0
        (s.poisonedData h).faultLog 0x0802 tag.toNat 3 h fva sXLATE
      | (s, .unreachable) => (s.poisonedData h).faultLog 0x0802 tag.toNat 3 h fva sUNREACH
      | (s1, .ok x) =>
        match s1.hostSkid h (partOf tag) x.line with
        | (none, s) => (s.poisonedData h).faultLog 0x0802 tag.toNat 3 h fva sHOST
        | (some k, s1) =>
          match s1.request (s1.fwReq h k opREAD fva 0 0 false) x with
          | (_, .wait w) => s0.countHeld h fva w
          | (s, .hit st d) => s.fwReadDone h tag.toNat fva x.line x.sub x.dest { status := st, data := d }
          | (s, .ends st) => (s.poisonedData h).faultLog 0x0802 tag.toNat 3 h fva st
          | (s, .sent) => s

/-- A Fabric Window write takes a slot and is held (R99). -/
def State.holdWrite (s : State) (h k fva bmc : Nat) (data : Line) (pz : Bool) : Option State :=
  let free := s.freeSlots k
  let (c, s) := s.fresh
  match free[c % free.length]? with
  | none => none
  | some key =>
    let p : Packet :=
      { src := BitVec.ofNat 16 s.feid, tag := s.defTag h, opcode := opcodeOf true opWRITE 0, vc := 0, pz := pz,
        eng := BitVec.ofNat 7 k, slot := BitVec.ofNat 8 (key % 256), bmc := BitVec.ofNat 16 bmc, payload := data.setWidth 640 }
    let sl : Slot := { owner := .host h, pkt := p, fva := fva, first := s.tick, lastSend := s.tick,
                       limit := s.fld (R.HST_PORT_CFG.TIMEOUT_LOG2 h), seq := s.issued, hold := true, poison := pz }
    let s := { s with slots := s.slots.put key sl, issued := s.issued + 1,
                      xlt := { s.xlt with held := s.xlt.held ++ [(key, s.tick)] } }
    some (s.addFld (R.HST_PORT_STATUS.FW_OUT h) 1)

/-- FW_WINDOW_WRITE (R307, R15, R99, R308): the CXL.mem completion is returned once the write holds its slot; a write that
cannot be sent completes too, and its failure is reported. A write that is held takes the slot of the Skidder that Table 4.3
gives for the line of its leaf, whatever the leaf permits (DEDUCED, log entry 64). -/
def execFwWindowWrite (h : PortNo) (hpa : BitVec 64) (first : Fin 64) (count : Fin 65) (data : Line) (pz : Bool)
    (s : State) : Result :=
  .next <|
    if !s.memUp h ∨ count = 0 ∨ 64 < first.val + count.val then s
    else match s.window h 1 hpa.toNat with
    | none => ((s.poisonIn h pz).outOfWindow h).send (.cxlCmp h)
    | some o =>
      let s0 := s
      let s := s.carried h
      let fva := s.fwFva h (o / 64 * 64)
      let tag := s.defTag h
      let bmc := first.val + 64 * count.val
      let fails := fun (s : State) (st : Nat) =>
        ((s.poisonIn h pz).send (.cxlCmp h)).fwWriteDone h none tag.toNat fva st
      if s.behindHeld h fva then s0
      else match s.translate tag fva .store with
      | (s1, .fault f) =>
        if f.reason ≠ 6 then fails (s1.xlateRecord f .store 2 h tag fva 0) sXLATE
        else
          let line := match (s1.leafOf tag fva).2 with | .inr l => (l.xlat fva).line | .inl _ => 0
          match s1.hostSkid h (partOf tag) line with
          | (none, s) => fails s sHOST
          | (some k, s1) =>
            match s1.holdWrite h k fva bmc data pz with
            | none => s0
            | some s => (s.poisonIn h pz).send (.cxlCmp h)
      | (s1, .unreachable) => fails s1 sUNREACH
      | (s1, .ok x) =>
        match s1.hostSkid h (partOf tag) x.line with
        | (none, s) => fails s sHOST
        | (some k, s1) =>
          match s1.request (s1.fwReq h k opWRITE fva bmc data pz) x with
          | (_, .wait w) => s0.countHeld h fva w
          | (s, .hit st _) => (((s.poisonIn h pz).poisonSent x.line x.sub tag.toNat pz).send (.cxlCmp h)).fwWriteDone h none tag.toNat fva st
          | (s, .ends st) => fails s st
          | (s, .sent) => ((s.poisonIn h pz).poisonSent x.line x.sub tag.toNat pz).send (.cxlCmp h)

/-! ## The fence (R313) -/

/-- HOST_FENCE (R313): a write of HST_FENCE. Without GO nothing happens. -/
def execHostFence (via : Via) (h : PortNo) (token : BitVec 32) (go : Bool) (s : State) : Result :=
  .next <| s.gate via (R.HST_FENCE.adr h) fun s =>
    let m := s.portSet h
    let f := s.fence m
    if !go then s
    else if f.busy then s.raise (R.HST_EVENTS.FENCE_BUSY h)
    else
      let mine := s.slots.filter fun e => (match e.2.owner with | .host n => bitOf m n | _ => false)
        && (e.2.pkt.op != opREAD || e.2.merge.isSome)
      let s := s.setFence m { covered := mine.map (·.1), cFirst := f.first, cFailed := f.failed, busy := true,
                              token := token.toNat }
      let s := (upFrom 0 4).foldl (fun s n => if bitOf m n then s.setFld (R.HST_FENCE_STATUS.BUSY n) 1 else s) s
      s.fenceReport m

/-! ## Configuration, decoders, MSI-X -/

/-- MEM_ON of HST_PORT_STATUS (Table 13.8). -/
def State.noteMem (s : State) (h : Nat) : State :=
  s.setFld (R.HST_PORT_STATUS.MEM_ON h) (b2n ((s.conf h).mem && ((s.decoder h 0).isSome || (s.decoder h 1).isSome)))

/-- Set what the host has configured of a port. -/
def State.setConf (s : State) (h : Nat) (c : PortConf) : State :=
  ({ s with hst := { s.hst with conf := FMap.set (fun _ => {}) s.hst.conf h c } }).noteMem h

/-- A dword of configuration space, none where the spec does not give it: the identifiers of R303 at the places that PCIe
gives them (PRESUMED; log entry 34). -/
def State.configWord (s : State) (off : Nat) : Option Nat :=
  if off = 0 then some (0x4096 * 2 ^ 16 + 0x1F6B)
  else if off = 8 then some (0x120000 * 2 ^ 8 + s.fld R.GLB_FEID.STEPPING)
  else if off = 0x2C then some (0x0001 * 2 ^ 16 + 0x1F6B)
  else none

/-- CONFIG_REQUEST (R302, R303). -/
def execConfigRequest (h : PortNo) (c : ConfigOp) (s : State) : Result :=
  .next <|
    if !s.settled then s.send (.config h true 0)
    else
      let k := s.conf h
      match c with
      | .read off =>
        match s.configWord off.toNat with
        | some v => s.send (.config h false (BitVec.ofNat 32 v))
        | none =>
          let (v, s) := s.fresh
          s.send (.config h false (BitVec.ofNat 32 v))
      | .enables io mem => (s.setConf h { k with io := io, mem := mem }).send (.config h false 0)
      | .cache on =>
        let s := (s.setFld (R.HST_PORT_STATUS.CACHE_ON h) (b2n on)).send (.config h false 0)
        if on then s else s.watchPortDown h
      | .msix on mask =>
        let m := s.msixOf h
        let s := s.setMsix h { m with enabled := on, fmask := mask }
        let s := if on ∧ ¬ mask then
            (m.pending.filter fun e => e.2 && !FMap.get (fun _ => true) m.vmask e.1).foldl (fun s e =>
              (s.setMsix h { s.msixOf h with pending := FMap.set (fun _ => false) (s.msixOf h).pending e.1 false }).send
                (.msix h e.1)) s
          else s
        s.send (.config h false 0)
      | .timeout code => (s.setConf h { k with timeout := code.toNat }).send (.config h false 0)

/-- MSIX_VECTOR_UNMASK (R319): a vector (none: the function) is unmasked, and the messages that are pending and no longer
masked are sent. -/
def execMsixVectorUnmask (h : PortNo) (v : Option (Fin 2048)) (s : State) : Result :=
  .next <|
    let m := s.msixOf h
    let m := match v with
      | some v => { m with vmask := FMap.set (fun _ => true) m.vmask v.val false }
      | none => { m with fmask := false }
    let due := if m.enabled ∧ ¬ m.fmask then m.pending.filter fun e => e.2 && !FMap.get (fun _ => true) m.vmask e.1 else []
    let left := due.foldl (fun (p : FMap Bool) (e : Nat × Bool) => FMap.set (fun _ => false) p e.1 false) m.pending
    due.foldl (fun (s : State) (e : Nat × Bool) => s.send (.msix h e.1)) (s.setMsix h { m with pending := left })

/-- HDM_DECODER_COMMIT (R304): refused with 8 or more ways, a granularity outside 256 B to 16 KiB, or a size of 0; a
decoder above the window's extent commits, and R308 answers the requests that lie beyond it. That base and size are multiples of 256 MiB per way is CXL's rule (PRESUMED; log entry 34). -/
def execHdmDecoderCommit (h : PortNo) (d : Fin 2) (base size : BitVec 64) (iw ig : BitVec 4) (s : State) : Result :=
  .next <|
    let unit := hdmUnit * 2 ^ iw.toNat
    if 2 < iw.toNat ∨ 6 < ig.toNat ∨ size = 0 ∨ base.toNat % hdmUnit ≠ 0
        ∨ size.toNat % unit ≠ 0 ∨ 2 ^ 64 < base.toNat + size.toNat then s
    else
      let x : Decoder := { base := base.toNat, size := size.toNat, iw := iw.toNat, ig := ig.toNat }
      ({ s with hst := { s.hst with decoders := s.hst.decoders.put (2 * h.val + d.val) x } }).noteMem h

/-! ## Training and reset -/

/-- HOST_LINK_TRAIN (R301): `rate` and `width` are the best that the other end supports, as Table 13.8 codes them. -/
def execHostLinkTrain (h : PortNo) (rate width : Fin 3) (s : State) : Result :=
  .next <|
    if !s.flag (R.HST_PORT_CFG.EN h) then s
    else
      let s := (s.setFld (R.HST_PORT_STATUS.PERST h) 0).setFld (R.HST_PORT_STATUS.LINK h) 2
      let s := s.setFld (R.HST_PORT_STATUS.RATE h) (max rate.val (s.fld (R.HST_PORT_CFG.MAXRATE h)))
      s.setFld (R.HST_PORT_STATUS.WIDTH h) (max width.val (s.fld (R.HST_PORT_CFG.MAXWIDTH h)))

/-- Requests of the module to a host's memory end with HOST_ERROR (Table 13.5). -/
def State.dropHost (s : State) (h : Nat) : State :=
  let s := (s.home.hostReqs.filter fun r => r.port == h).foldl (fun s r => s.hostAnswer r sHOST 0) s
  let s := (s.home.flushes.filter fun f => f.port == h).foldl (fun s f => s.batchDone f sHOST) s
  let left := s.home.hostWrites.filter fun w => w.port == h
  if left = [] then s else s.batchDone { port := h, batch := 0, start := s.tick } sHOST

/-- A port reset (R321, Table 13.5). -/
def State.resetPort (s : State) (h : Nat) (k : PortResetKind) : State :=
  let down := !(k matches .flr)
  let s := s.raise (R.HST_EVENTS.PERST h)
  let s := if down then
      (s.raise (R.HST_EVENTS.LINK_DOWN h)).setFld (R.HST_PORT_STATUS.LINK h) (if k matches .hot then 1 else 0)
    else s
  let s := if k matches .perst then s.setFld (R.HST_PORT_STATUS.PERST h) 1 else s
  let slots := s.slots.map fun (e : Nat × Slot) =>
    if e.2.owner = .host h then (e.1, { e.2 with muted := true }) else e
  let hst : HstState := { s.hst with
    msix := FMap.set (fun _ => {}) s.hst.msix h {}, conf := FMap.set (fun _ => {}) s.hst.conf h {},
    decoders := FMap.drop (fun i => i / 2 == h) s.hst.decoders }
  let s := { s with slots := slots, hst := hst }
  let s := (s.setFld (R.HST_PORT_STATUS.MEM_ON h) 0).setFld (R.HST_PORT_STATUS.CACHE_ON h) 0
  ((s.watchPortDown h).dropHost h).recheck

/-- HOST_PORT_RESET (R321). -/
def execHostPortReset (h : PortNo) (k : PortResetKind) (s : State) : Result := .next (s.resetPort h k)

end Sys2Proof.Machine
end

