-- ==== Sys2Proof/Machine/PowerCmds.lean ====
section
/-! DEFINITION. The input supply, emergency shed and temperature (R365 to R371). -/

namespace Sys2Proof.Machine

open Sys2Proof

/-- INPUT_UNDERVOLTAGE (R365): below 40 V for 1 tick; S7 is demanded while it lasts. -/
def execInputUndervoltage (s : State) : Result :=
  .next ((s.setPwr { s.pwr with uv := true }).powerEvent R.GLB_POWER_EVENTS.UV)

/-- UNDERVOLTAGE_END (R365): the demand is withdrawn. -/
def execUndervoltageEnd (s : State) : Result := .next (s.setPwr { s.pwr with uv := false })

/-- INPUT_OVERVOLTAGE (R365): above 60 V for 1 tick; nothing but the event. -/
def execInputOvervoltage (s : State) : Result := .next (s.powerEvent R.GLB_POWER_EVENTS.OV)

/-- EMERGENCY_SHED_START (R369): S7 is demanded from the next boundary on. -/
def execEmergencyShedStart (s : State) : Result :=
  .next ((s.setFld R.GLB_POWER_STATUS.EMERG 1).powerEvent R.GLB_POWER_EVENTS.EMERGENCY)

/-- EMERGENCY_SHED_END (R369): the cap controller rises from S7. -/
def execEmergencyShedEnd (s : State) : Result :=
  .next (if s.flag R.GLB_POWER_STATUS.EMERG then
      (s.setFld R.GLB_POWER_STATUS.EMERG 0).setPwr { s.pwr with demand := 7, changedAt := s.tick }
    else s)

/-- TEMPERATURE_HOT (R371): at least S4 is demanded. -/
def execTemperatureHot (s : State) : Result :=
  .next ((s.setFld R.GLB_POWER_STATUS.HOT 1).powerEvent R.GLB_POWER_EVENTS.HOT)

/-- TEMPERATURE_COOL (R371): the demand is withdrawn. -/
def execTemperatureCool (s : State) : Result := .next (s.setFld R.GLB_POWER_STATUS.HOT 0)

/-- A cold reset (Table 16.5): everything as after power-up but the settings store, the TAP (R401) and what waits outside the
block. `last` is the code for GLB_RESET_STATUS.LAST. -/
def State.coldReset (s : State) (last : Nat) : State :=
  let t : State := { State.reset with mgt := { flash := s.mgt.flash }, jtag := s.jtag, issued := s.issued, free := s.free,
                                      out := s.out, pending := s.pending }
  t.setFld R.GLB_RESET_STATUS.LAST last

/-- INPUT_POWER_LOSS (R365): the regulators turn off; a cold reset follows on return. -/
def execInputPowerLoss (s : State) : Result := .next (s.coldReset 3)

/-- THERMAL_SHUTDOWN (R371): as for loss of power. -/
def execThermalShutdown (s : State) : Result := .next (s.coldReset 3)

end Sys2Proof.Machine
end

