-- ==== Sys2Proof/Machine/ResetCmds.lean ====
section
/-! DEFINITION. Power good and the reset levels cold, warm and Skidder (R372 to R375). -/

namespace Sys2Proof.Machine

open Sys2Proof

/-- POWER_GOOD (R386): a cold reset, and Cruise from C0. A module that runs stays as it is. -/
def execPowerGood (s : State) : Result :=
  .next (if s.cru.on then s
    else
      let s := s.coldReset (s.fld R.GLB_RESET_STATUS.LAST)
      { s with cru := { s.cru with on := true, phaseAt := s.tick }, jtag := { s.jtag with drive := .none } })

/-- RESET_N_ASSERT (R372): `cycles` is the reference cycles that RESET_N has been asserted for; the module stays in cold
reset until POWER_GOOD (R402). -/
def execResetNAssert (cycles : Nat) (s : State) : Result :=
  .next (if cycles < 16 then s
    else
      let s := s.coldReset 1
      { s with cru := { s.cru with resetN := true } })

/-! ## Warm reset -/

/-- Register fields that a warm reset leaves in place (Table 16.5): the tick and time state, the generations, the seed of the
Whisk, the places in the logs, the Debug Epoch, the fields marked H, and the contacts and conditions that status fields
show. -/
def warmKept : List Field :=
  [⟨R.GLB_TICK.adr, 0, 64⟩, ⟨R.GLB_TIME_STATUS.adr, 0, 64⟩, R.SWC_WHISK_PC.SEED, R.SEC_DEBUG_EPOCH.EPOCH, ⟨R.GLB_ID.adr, 0, 64⟩,
   R.GLB_FEID.STEPPING, R.GLB_RESET_STATUS.LAST, R.GLB_RESET_STATUS.WARMS, R.MGT_SET_STATUS.ACTIVE, R.MGT_SET_STATUS.VALID0,
   R.MGT_SET_STATUS.VALID1, R.MGT_SET_STATUS.NONE, ⟨R.MGT_SET_SEQ.adr, 0, 64⟩, R.SEC_STATUS.ID_OK, R.SEC_STATUS.FW_SLOT,
   R.SEC_STATUS.FW_SVN, R.LDL_STATUS.POS_ACTIVE, R.LDL_STATUS.SPARE_PHYS, R.GLB_POWER_STATUS.EMERG, R.GLB_POWER_STATUS.HOT]
    ++ (upFrom 0 2).flatMap (fun k => [R.REL_LOG_IDX.PROD k, R.REL_LOG_IDX.CONS k])
    ++ (upFrom 0 16).flatMap (fun k => [R.LDL_POS_STATUS.PHYS k, R.LDL_POS_STATUS.STATE k, R.LDL_POS_STATUS.LIVE k])
    ++ (upFrom 0 64).map (fun p => R.PRT_STATUS.GEN p)
    ++ (upFrom 0 4).map (fun h => R.HST_PORT_STATUS.PERST h)

/-- LEAVE with REASON 3 on every UP channel. -/
def State.leaveAll (s : State) (reason : Nat) : State :=
  (upFrom 0 262).foldl (fun (s : State) c =>
    if s.chUp c then s.sendCtrl c (.leave (BitVec.ofNat 16 s.feid) (BitVec.ofNat 4 reason) (BitVec.ofNat 64 s.tick)) else s) s

/-- What a warm reset does to an OPEN or SEALED partition: its partition reset takes effect, or waits for R69 with its Sieve
range being swept already; then it becomes DISABLED (R373). -/
def State.warmPartition (s : State) (p : Nat) : State :=
  if s.pstate p ≠ psOpen ∧ s.pstate p ≠ psSealed then s
  else if s.earliest p ≤ s.tick then s.resetPartition p
  else
    let s := (s.resetSieve p).setFld (R.SEC_PART_STATUS.STATE p) psResetting
    { s with sec := { s.sec with resetAt := FMap.put s.sec.resetAt p (s.earliest p) } }

/-- SEALED ranges and scrubs under way, which go on without their registers (R373). -/
def State.keptScrubs (s : State) : FMap (Nat × Nat × Nat) :=
  ((upFrom 0 256).filter fun i => s.fld (R.SEC_RANGE.STATE i) != 0 && s.flag (R.SEC_RANGE.KIND i)).foldl
    (fun (m : FMap (Nat × Nat × Nat)) i =>
      FMap.put m i (s.fld (R.SEC_RANGE.PART i), s.fld (R.SEC_RANGE.BASE i), s.fld (R.SEC_RANGE.SIZE i))) s.sec.oldScrubs

/-- A PROGRAM that a reset abandons leaves its bank invalid (R392). -/
def State.abandonProgram (s : State) : State :=
  match s.mgt.prog with
  | some x => s.flashErase (bankBase x.bank) 65536
  | none => s

/-- Every register to its reset value but those kept. -/
def State.wipeRegs (s : State) : State :=
  let t : State := { s with regs := [] }
  warmKept.foldl (fun (t : State) f => t.setFld f (s.fld f)) t

/-- The state that a warm reset leaves beside the registers; the key slots are cleared (R337). -/
def State.wipeRest (s : State) : State :=
  let keepHome : HomeState := { ledger := s.home.ledger, lostSets := s.home.lostSets }
  let keepSec : SecState := { resetAt := s.sec.resetAt, toDisable := s.sec.toDisable, dbgBoot := s.sec.dbgBoot,
                              left := s.sec.left, oldScrubs := s.sec.oldScrubs, mFw := s.sec.mFw, mMicro := s.sec.mMicro,
                              mSet := s.sec.mSet }
  let keepTel : TelState := { buf := s.tel.buf, latest := s.tel.latest, tally := s.tel.tally, depthMax := s.tel.depthMax,
                              blocks := s.tel.blocks }
  let skids := (s.skids.map fun (e : Nat × Skid) => (e.1, ({ lseq := e.2.lseq, sent := e.2.sent } : Skid)))
  { State.reset with
    regs := s.regs, hbm := s.hbm, units := s.units, poison := s.poison, shadow := s.shadow,
    siv := { table := s.siv.table, lost := s.siv.lost, sweeps := s.siv.sweeps }, skids := skids, home := keepHome,
    rel := { s.rel with trayAt := 0 }, pwr := { uv := s.pwr.uv }, sec := keepSec, ldl := { repl := s.ldl.repl }, tel := keepTel,
    tim := s.tim, cru := { mseq := s.cru.mseq, on := true, phaseAt := s.tick + 1 },
    mgt := { flash := s.mgt.flash, items := s.mgt.items, i3c := s.mgt.i3c, kept := s.mgt.kept },
    jtag := s.jtag, issued := s.issued, free := s.free, out := s.out, pending := s.pending }

/-- A partition that a warm reset leaves RESETTING: its status, its end in DISABLED, and its sweep's flag. -/
def State.warmResetting (s : State) (p : Nat) : State :=
  let s := { s with sec := { s.sec with toDisable := FMap.set (fun _ => false) s.sec.toDisable p true } }
  let s := (s.setFld (R.SEC_PART_STATUS.STATE p) psResetting).noteEarliest p
  if (FMap.find s.siv.sweeps p).isSome then s.setFld (R.SIV_PART_STATUS.SWEEP p) 1 else s

/-- A warm reset (R373). -/
def State.warmReset (s : State) : State :=
  let s := s.leaveAll 3
  let s := (upFrom 0 64).foldl (fun (s : State) p => s.warmPartition p) s
  let s := (upFrom 0 4).foldl (fun (s : State) h => s.resetPort h .linkDown) s
  let busy := (upFrom 0 64).filter fun p => s.pstate p == psResetting
  let s := { s with sec := { s.sec with oldScrubs := s.keptScrubs } }
  let s := s.abandonProgram.wipeRegs.wipeRest
  let s := (upFrom 0 64).foldl (fun (s : State) p => s.noteEarliest p) s
  let s := busy.foldl (fun (s : State) p => s.warmResetting p) s
  let s := (s.setFld R.GLB_RESET_STATUS.LAST 2).satFld R.GLB_RESET_STATUS.WARMS 1
  s.setFld R.GLB_CRUISE_STATUS.PHASE 1

/-- The value that GLB_RESET_CMD.KEY must have (Table 16.22). -/
def resetKey : BitVec 16 := 0x5752

/-- WARM_RESET (R373): a write of GLB_RESET_CMD with LEVEL 1; another KEY discards it. -/
def execWarmReset (via : Via) (key : BitVec 16) (s : State) : Result :=
  .next <| s.gate via R.GLB_RESET_CMD.adr fun s => if key = resetKey then s.warmReset else s

/-! ## Skidder reset -/

/-- A descriptor whose Skidder is reset: it begins no further line, gives up a suspended one, and ends ABORTED (R375). -/
def SkdRun.aborted (r : SkdRun) (detail now : Nat) : SkdRun :=
  if r.recording then r
  else
    let lines := match r.suspended with
      | some i => (match FMap.find r.lines i with
        | some ln => r.lines.put i { ln with done := true, toRead := 0 }
        | none => r.lines)
      | none => r.lines
    { r with status := sABORTED, detail := detail, stopped := true, suspended := none, lines := lines, endTick := now }

/-- The block work of a Skidder is reset (R375). Table 10.10 gives ABORTED no DETAIL: it is free. -/
def State.skidderReset (s : State) (k : Nat) : State :=
  let (d, s) := s.fresh
  let x := s.skid k
  let queued := x.queue.map fun (q : SkdDesc) =>
    SkdRun.aborted { desc := q, startTick := s.tick, endTick := s.tick } (d % 256) s.tick
  let running := x.run.map fun (r : SkdRun) => if r.finished then r else r.aborted (d % 256) s.tick
  (s.setSkid k { x with queue := [], run := running ++ queued }).recheck

/-- SKIDDER_RESET (R375): a write of GLB_RESET_CMD with LEVEL 2; another KEY discards it. -/
def execSkidderReset (via : Via) (key : BitVec 16) (k : SkidNo) (s : State) : Result :=
  .next <| s.gate via R.GLB_RESET_CMD.adr fun s => if key = resetKey then s.skidderReset k else s

end Sys2Proof.Machine
end

