-- ==== Sys2Proof/Machine/SieveCmds.lean ====
section
/-! DEFINITION. Indirect access to the Sieve Table (R92), the probe (R91), partition ranges (R90) and sweeps (R96). -/

namespace Sys2Proof.Machine

open Sys2Proof

/-- Whether an entry index lies in a partition's range. -/
def State.inRange (s : State) (p i : Nat) : Bool :=
  let b := s.fld (R.SIV_PART.BASE p)
  decide (b ≤ i / 4 ∧ i / 4 < b + 2 ^ s.fld (R.SIV_PART.LOG2B p))

/-- The enabled partition whose range holds an entry index (R90: ranges of enabled partitions do not overlap). -/
def State.rangeOwner (s : State) (i : Nat) : Option Nat :=
  (upFrom 0 64).find? fun p => s.flag (R.SIV_PART.EN p) && s.inRange p i

/-- Count the valid entries of a partition's range (SIV_PART_STATUS.USED). A partition whose EN is 0 owns no range (R96), and
its USED reads 0 (DEDUCED, log entry 64). -/
def State.noteUsed (s : State) (p : Nat) : State :=
  s.setFld (R.SIV_PART_STATUS.USED p)
    (if s.flag (R.SIV_PART.EN p) then (s.siv.table.filter fun e => bitOf e.2.toNat 0 && s.inRange p e.1).length else 0)

/-- SIV_PROBE_RESULT for the current key and its partition's range (R91). -/
def State.noteProbe (s : State) : State :=
  let key := s.fld R.SIV_PROBE_KEY.KEY
  let (a, b) := s.bucketsOf key
  ((s.setFld R.SIV_PROBE_RESULT.BUCKET_A a).setFld R.SIV_PROBE_RESULT.BUCKET_B b).setFld R.SIV_PROBE_RESULT.VALID
    (s.fld (R.SIV_PART.EN (getBits key 41 6)))

/-- Lines of an entry's local extent as a write judges it (R92, R93). -/
def State.extent (s : State) (e : Nat) : Nat :=
  let n := granLines (seSize e)
  if !seGv e then n
  else
    let g := seGroup e
    let gid := s.gGid g
    let slots := if s.groupValidFor gid && s.gKind g == 0 && gid % 4096 == g then s.gSlots g else 256
    n * slots / 256

/-- A reserved encoding in an entry (Table 5.4). -/
def badEntry (e : Nat) : Bool :=
  seSize e == 3 || decide (5 ≤ seSub e) || seMode e == 3 || seMir e == 3 || decide (6 ≤ seChk e) || bitOf e 63 || bitOf e 127

/-- RESULT of a Sieve write (R92), the first condition of the table that holds; 0 where it is accepted. The local extent of an
entry for host memory (SUB 1 to 4) is not judged here: software-visible memory is a part of this module's HBM, which such an
entry does not name (DEDUCED, log entry 64). -/
def State.sieveWriteResult (s : State) (i e : Nat) : Nat :=
  match s.rangeOwner i with
  | none => 1
  | some p =>
    let key := sieveKey (seGran e) (seSize e) (seSub e) p
    let (a, b) := s.bucketsOf key
    let other := ((upFrom (4 * a) 4) ++ (upFrom (4 * b) 4)).any fun j => j != i && entryHasKey (s.sieveEntry j) key
    if seV e ∧ ¬ (i / 4 = a ∨ i / 4 = b) then 2
    else if seV e ∧ other then 3
    else if s.flag (R.SIV_PART_STATUS.SWEEP p) then 4
    else if seV e ∧ badEntry e then 5
    else if seV e ∧ seSub e = 0 ∧ ¬ s.visible (65536 * seTarget e) (64 * s.extent e) then 5
    else 0

/-- An operation whose copy to the old mirror has been dropped proceeds under the entries as they now stand (R353): a store is
judged and performed anew, a recorded atomic is completed or forwarded to the new mirror. -/
def State.redoMirror (s : State) (m : MirrorOp) : State :=
  match s.judgeAt m.req, m.kind with
  | _, .async => s
  | (s, .inr (.hbm h i)), .store => s.storeHbm m.port m.req h i
  | (s, .inr (.hbm h i)), .engine who => s.storeEngine m.req h i who
  | (s, .inr (.hbm h i)), .waits who => s.storeEngine m.req h i who
  | (s, .inr (.hbm h i)), .atomic status result =>
    let e := s.sieveEntry i
    if seMir e = 0 then s.respond m.req status result
    else s.toMirror m.req (seMirror e) h m.kind none fun r =>
      m.req.matom s.feid (seMirror e) r (s.readLine h) (s.isPoison h) status result
  | (s, .inl st), .store => s.finish m.port m.req st
  | (s, .inl st), .engine who => s.engineFails who st
  | (s, .inl st), .waits who => s.engineFails who st
  | (s, _), .atomic status result => s.respond m.req status result
  | (s, .inr (.host ..)), _ => s

/-- An accepted write (R92): the table, the cache and USED; copies not acknowledged by the old mirror are dropped, and the
entry's sharer maps are freed (R353, R120). -/
def State.sieveStore (s : State) (i : Nat) (e : BitVec 128) : State :=
  let old := s.sieveEntry i
  let p := (s.rangeOwner i).getD 0
  let key := sieveKey (seGran e.toNat) (seSize e.toNat) (seSub e.toNat) p
  let lost := FMap.set (fun _ => false) s.siv.lost (i / 4) false
  let s := { s with siv := { s.siv with table := FMap.set (fun _ => 0) s.siv.table i e, lost := lost,
                                        cache := s.siv.cache.filter fun c => c.2 != i || (seV e.toNat && c.1 == key) } }
  let hit := fun (m : MirrorOp) => seV old && m.mirror.toNat == seMirror old && m.req.sub.toNat == seSub old
    && partOf m.req.tag == p && m.req.line.toNat / 2 ^ granShift (seSize old) == seGran old
  let again := s.home.mirror.filter hit
  let s := { s with home := { s.home with mirror := s.home.mirror.filter fun m => !hit m } }
  let s := s.setSharers (FMap.drop (fun k => k / 64 == i) s.home.sharers)
  (again.foldl (fun (s : State) m => s.redoMirror m) ((s.noteUsed p).noteCached p)).settleClosing

/-- Start an indirect access: index and data are captured; one at a time (R92). -/
def State.sieveStart (s : State) (via : Via) (write : Bool) : State :=
  s.gate via R.SIV_ACC_CMD.adr fun s =>
    if s.siv.acc.isSome then s
    else
      let data := s.reg R.SIV_ACC_DATA1.adr ++ s.reg R.SIV_ACC_DATA0.adr
      let a : SieveAcc := { write := write, idx := s.fld R.SIV_ACC_IDX.INDEX, data := data, start := s.tick }
      ({ s with siv := { s.siv with acc := some a } }).setFld R.SIV_ACC_CMD.BUSY 1

/-- SIEVE_READ (R92). -/
def execSieveRead (via : Via) (s : State) : Result := .next (s.sieveStart via false)

/-- SIEVE_WRITE (R92). -/
def execSieveWrite (via : Via) (s : State) : Result := .next (s.sieveStart via true)

/-- SIEVE_ACCESS_DONE (R92): BUSY clears; a READ loads the data registers, a WRITE is accepted or refused. -/
def execSieveAccessDone (s : State) : Result :=
  .next <|
    match s.siv.acc with
    | none => s
    | some a =>
      let s := ({ s with siv := { s.siv with acc := none } }).setFld R.SIV_ACC_CMD.BUSY 0
      if a.write then
        let r := s.sieveWriteResult a.idx a.data.toNat
        let s := s.setFld R.SIV_ACC_CMD.RESULT r
        if r = 0 then s.sieveStore a.idx a.data else s
      else
        let e := s.sieveEntry a.idx
        ((s.setReg R.SIV_ACC_DATA0.adr (BitVec.ofNat 64 e)).setReg R.SIV_ACC_DATA1.adr (BitVec.ofNat 64 (e / 2 ^ 64))).setFld
          R.SIV_ACC_CMD.RESULT 0

/-- SIEVE_PROBE (R91). -/
def execSieveProbe (via : Via) (key : BitVec 47) (s : State) : Result :=
  .next <| s.gate via R.SIV_PROBE_KEY.adr fun s => (s.setFld R.SIV_PROBE_KEY.KEY key.toNat).noteProbe

/-- Whether the range of a SIV_PART value overlaps that of an enabled partition other than `p`. -/
def State.overlaps (s : State) (p v : Nat) : Bool :=
  let b := getBits v 3 22
  let n := 2 ^ getBits v 25 5
  (upFrom 0 64).any fun q =>
    q != p && s.flag (R.SIV_PART.EN q) &&
      decide (b < s.fld (R.SIV_PART.BASE q) + 2 ^ s.fld (R.SIV_PART.LOG2B q) ∧ s.fld (R.SIV_PART.BASE q) < b + n)

/-- The value that a write of SIV_PART would set: reserved fields 0, and a field with a reserved encoding keeps its value
(R7, R9). -/
def State.sivPartValue (s : State) (p v : Nat) : Nat :=
  let old := (s.reg (R.SIV_PART.adr p)).toNat
  let log2b := if 23 ≤ getBits v 25 5 then getBits old 25 5 else getBits v 25 5
  let max := if 257 ≤ getBits v 33 9 then getBits old 33 9 else getBits v 33 9
  packBits [(0, v % 2), (3, getBits v 3 22), (25, log2b), (30, getBits v 30 3), (33, max)]

/-- SIEVE_PART_WRITE (R90, Table 5.16). -/
def execSievePartWrite (via : Via) (p : PartNo) (v : Word) (s : State) : Result :=
  .next <| s.gate via (R.SIV_PART.adr p) fun s =>
    let old := (s.reg (R.SIV_PART.adr p)).toNat
    let v := s.sivPartValue p v.toNat
    if bitOf old 0 ∧ bitOf v 0 ∧ v ≠ old then s.raise R.SIV_EVENTS.CFG_BUSY
    else if bitOf v 0 ∧ (s.overlaps p v ∨ getBits v 3 22 % 2 ^ getBits v 25 5 ≠ 0) then s.raise R.SIV_EVENTS.OVERLAP
    else ((s.setReg (R.SIV_PART.adr p) (BitVec.ofNat 64 v)).noteUsed p).noteProbe

/-- SIEVE_SWEEP_DONE (R96): V is clear in every entry of the swept range, SWEEP clears and USED reads 0. -/
def execSieveSweepDone (p : PartNo) (s : State) : Result :=
  .next <|
    match FMap.find s.siv.sweeps p with
    | none => s
    | some (b, n) =>
      let swept := s.siv.table.filter fun e => decide (b ≤ e.1 / 4 ∧ e.1 / 4 < b + n)
      let t := swept.foldl (fun (m : FMap (BitVec 128)) (e : Nat × BitVec 128) => FMap.set (fun _ => 0) m e.1 (e.2 >>> 1 <<< 1)) s.siv.table
      let s := { s with siv := { s.siv with table := t, sweeps := FMap.del s.siv.sweeps p } }
      (s.setFld (R.SIV_PART_STATUS.SWEEP p) 0).setFld (R.SIV_PART_STATUS.USED p) 0

end Sys2Proof.Machine
end

