-- ==== Sys2Proof/Machine/XltCmds.lean ====
section
/-! DEFINITION. Invalidation of translations and drains (R88, R89), suspended Buckers (R98) and held host writes (R99). -/

namespace Sys2Proof.Machine

open Sys2Proof

/-- Whether a TLB or walk-cache key is in the scope of an invalidation (R88): every entry of the partition, or those that
cover an FVA or lie on its path. -/
def inScope (key p : Nat) (fva : Option Nat) : Bool :=
  let path := key % 2 ^ 41
  let level := key / 2 ^ 41 % 8
  let tag := key / 2 ^ 44
  tag / 1024 == p && (match fva with
    | none => true
    | some a => pathOf a level == path)

/-- A held host write whose translation is tried again: it is sent, or stays held; at the end of its hold (`late`) it
completes with XLATE_FAULT and reason MIGRATING where it is still untranslatable (R99). -/
def State.retryHeld (s : State) (key : Nat) (late : Bool) : State :=
  match s.slot key with
  | none => s
  | some sl =>
    let h := match sl.owner with | .host h => h | _ => 0
    let drop := fun (s : State) =>
      let s := { s with xlt := { s.xlt with held := s.xlt.held.filter fun e => e.1 != key }, slots := s.slots.del key }
      s.setFld (R.HST_PORT_STATUS.FW_OUT h) (s.fld (R.HST_PORT_STATUS.FW_OUT h) - 1)
    match s.translate sl.pkt.tag sl.fva .store with
    | (s, .fault _) =>
      if ¬ late then { s with slots := s.slots.put key { sl with ready := false } }
      else
        let s := (drop s).xlateRecord ⟨6, 7⟩ .store 2 h sl.pkt.tag sl.fva 0
        (s.fwWriteDone h (some key) sl.pkt.tag.toNat sl.fva sXLATE).recheck
    | (s, .unreachable) => ((drop s).fwWriteDone h (some key) sl.pkt.tag.toNat sl.fva sUNREACH).recheck
    | (s, .ok x) =>
      let pkt := { sl.pkt with dst := BitVec.ofNat 16 x.dest, sub := BitVec.ofNat 3 x.sub,
                               line := BitVec.ofNat 46 x.line, ordered := x.ord }
      ({ s with slots := s.slots.put key { sl with pkt := pkt } }).sendHeld key

/-- Held host writes that an invalidation covers are translated again, in arrival order (R99). -/
def State.retryCovered (s : State) (p : Nat) (fva : Option Nat) : State :=
  s.xlt.held.foldl (fun s e =>
    match s.slot e.1 with
    | some sl =>
      let page := match fva with | none => true | some a => (upFrom 0 3).any fun l => pathOf a l == pathOf sl.fva l
      if partOf sl.pkt.tag == p && page then s.retryHeld e.1 false else s
    | none => s) s

/-- The requests of a partition that a drain records: translated here and not yet complete (R89). -/
def State.drainMark (s : State) (p : Nat) : State :=
  let mine := fun (sl : Slot) => partOf sl.pkt.tag == p && !sl.hold
  let n := (s.slots.filter fun e => mine e.2).length
  let s := { s with slots := s.slots.map fun e => if mine e.2 then (e.1, { e.2 with drain := true }) else e }
  if n = 0 then s else
    (s.setFld R.XLT_TLB_INV_STATUS.PENDING n).setFld R.XLT_TLB_INV_STATUS.BUSY 1

/-- An invalidation and, where asked for, its drain (R88, R89). That an accepted GO clears the DONE and LATE of the invalidation
before it is the model's choice (DESIGN CHOICE, log entry 70): Table 5.13 has software clear them. -/
def State.tlbInvalidate (s : State) (p : Nat) (fva : Option Nat) (drain : Bool) : State :=
  let x := { s.xlt with late := false, tlb := FMap.drop (fun k => inScope k p fva) s.xlt.tlb,
                        walk := FMap.drop (fun k => inScope k p fva) s.xlt.walk }
  let s := { s with xlt := x }
  let s := (s.setFld R.XLT_TLB_INV_STATUS.DONE 0).setFld R.XLT_TLB_INV_STATUS.LATE 0
  let s := if drain then s.drainMark p else s
  let s := if s.flag R.XLT_TLB_INV_STATUS.BUSY then s else s.raise R.XLT_TLB_INV_STATUS.DONE
  s.retryCovered p fva

/-- TLB_INVALIDATE (R88, R89): a write of XLT_TLB_INV with GO; while BUSY it is discarded. -/
def execTlbInvalidate (via : Via) (p : PartNo) (scope drain : Bool) (s : State) : Result :=
  .next <| s.gate via R.XLT_TLB_INV.adr fun s =>
    if s.flag R.XLT_TLB_INV_STATUS.BUSY then s.raise R.XLT_EVENTS.INV_BUSY
    else s.tlbInvalidate p (if scope then some (s.fld R.XLT_TLB_INV_FVA.FVA) else none) drain

/-- Whether a Skidder has a suspended descriptor. -/
def State.isSuspended (s : State) (k : Nat) : Bool :=
  match (s.skid k).run.getLast? with
  | some r => r.suspended.isSome
  | none => false

/-- Change the descriptor that the Bucker issues from: the one started last. -/
def State.updRun (s : State) (k : Nat) (f : SkdRun → SkdRun) : State :=
  let x := s.skid k
  match x.run.reverse with
  | [] => s
  | r :: rest => s.setSkid k { x with run := (f r :: rest).reverse }

/-- A command to a suspended descriptor; with none it is discarded (R98, Table 5.14). -/
def State.faultCmd (s : State) (via : Via) (k : Nat) (f : SkdRun → SkdRun) : State :=
  s.gate via R.XLT_FAULT_CMD.adr fun s =>
    if s.isSuspended k then s.updRun k f else s.raise R.XLT_EVENTS.CMD_DENY

/-- XLT_RETRY (R98): the Bucker goes on at the faulting line. -/
def execXltRetry (via : Via) (k : SkidNo) (s : State) : Result :=
  .next (s.faultCmd via k fun r => { r with suspended := none })

/-- A suspended descriptor is given up: it begins no further line, and the faulting line ends, with those after it of which
only source reads have been sent (R98, R247). -/
def SkdRun.giveUp (r : SkdRun) (now : Nat) : SkdRun :=
  let lines := match r.suspended with
    | some i => r.lines.map fun e => if i ≤ e.1 ∧ ¬ e.2.sent then (e.1, { e.2 with done := true, toRead := 0 }) else e
    | none => r.lines
  { r.meet sXLATE with suspended := none, lines := lines, endTick := now }

/-- XLT_ABORT (R98): the descriptor completes with XLATE_FAULT. -/
def execXltAbort (via : Via) (k : SkidNo) (s : State) : Result :=
  .next (s.faultCmd via k fun r => r.giveUp s.tick)

/-- MIG_HOLD_EXPIRE (R99): a write held for MIG_HOLD ticks is translated a last time. -/
def execMigHoldExpire (key : Fin 32768) (s : State) : Result :=
  .next <|
    match s.xlt.held.find? fun e => e.1 == key.val with
    | some (_, t) => if t + s.fld R.XLT_CTL.MIG_HOLD ≤ s.tick then s.retryHeld key true else s
    | none => s

end Sys2Proof.Machine
end

