-- ==== Sys2Proof/Machine/Control.lean ====
section
/-! DEFINITION. Control-space writes as a whole: the access codes (R7, Table 0.3), reserved encodings (R9), the conditions of
single registers, and the way from a written word to the command that its register gives. -/

namespace Sys2Proof.Machine

open Sys2Proof

/-! ## Access codes -/

/-- One field of a register under a write of `v` to it: `old` is the register, `isLocked` whether an RWL field is locked. A
reserved value leaves an RW or RWL field as it is (R9). -/
def FieldSpec.write (f : FieldSpec) (isLocked : Bool) (v old : Nat) : Nat :=
  let x := getBits v f.lo f.w
  match f.acc with
  | .rw => if f.allows x then putBits old f.lo f.w x else old
  | .rwl => if f.allows x && !isLocked then putBits old f.lo f.w x else old
  | .w1c => putBits old f.lo f.w (getBits old f.lo f.w &&& (2 ^ f.w - 1 - x))
  | .w1s => putBits old f.lo f.w (getBits old f.lo f.w ||| x)
  | .ro => old
  | .wo => old
  | .rc => old

/-- A register written as the access codes of its fields allow (Table 0.3). -/
def State.plainWrite (s : State) (off : Nat) (v : Word) (isLocked : Bool := false) : State :=
  s.setReg off (BitVec.ofNat 64 ((fieldsAt off).foldl (fun (old : Nat) f => f.write isLocked v.toNat old) (s.reg off).toNat))

/-- The state after a command that is part of a write. -/
def State.after (s : State) (r : Result) : State :=
  match r with
  | .next t => t
  | _ => s

/-- An element of an array from a distance: its index. -/
def idx (d stride : Nat) : Nat := d / stride

/-! ## Sequencer Complex and partition pages -/

/-- A write of SEQ_THREAD_CFG (R52, R53): only while the thread is HALTED and not DRAINING, and only to a Skidder assigned to
the same partition. -/
def State.writeThreadCfg (s : State) (t : Nat) (v : Word) : State :=
  let n := v.toNat
  let k := getBits n 8 7
  if s.tstate t ≠ stHalted ∨ s.flag (R.SEQ_THREAD_STATUS.DRAINING t) then s.raise R.SEQ_EVENTS.CFG_BUSY
  else if bitOf n 16 ∧ ¬ (s.flag (R.SEQ_SKID_CFG.ASSIGNED k) ∧ s.fld (R.SEQ_SKID_CFG.PART k) = getBits n 0 6) then
    s.raise R.SEQ_EVENTS.BIND_DENY
  else s.plainWrite (R.SEQ_THREAD_CFG.adr t) v

/-- A write of SEQ_SKID_CFG (R53): a change only while the Skidder has no slot in use and no thread is bound to it. -/
def State.writeSkidCfg (s : State) (k : Nat) (v : Word) : State :=
  let old := (s.reg (R.SEQ_SKID_CFG.adr k)).toNat
  let same := getBits v.toNat 0 6 == getBits old 0 6 && getBits v.toNat 8 1 == getBits old 8 1
  let used := s.slots.any fun e => e.1 / 256 == k
  let bound := (upFrom 0 512).any fun t => s.flag (R.SEQ_THREAD_CFG.ASSIGNED t) && s.fld (R.SEQ_THREAD_CFG.SKIDDER t) == k
  if same then s
  else if used ∨ bound then s.raise R.SEQ_EVENTS.CFG_BUSY
  else s.plainWrite (R.SEQ_SKID_CFG.adr k) v

/-- A thread command from its number (Table 3.3, R9). -/
def State.threadCommand (s : State) (via : Via) (page : Option PartNo) (t : ThreadNo) (cmd : Nat) : State :=
  if cmd = 0 then s
  else if cmd = 1 then s.after (execThreadStart via page t s)
  else if cmd = 2 then s.after (execThreadHalt via page t s)
  else if cmd = 3 then s.after (execThreadResume via page t s)
  else if cmd = 4 then s.after (execThreadSkip via page t s)
  else if cmd = 5 then s.after (execThreadReset via page t s)
  else s.cmdDeny page

/-- A write of SEQ_WATCH_CFG (R57, Table 3.17). -/
def State.writeWatchCfg (s : State) (via : Via) (w : Fin 4096) (v : Word) : State :=
  let mode := v.getLsbD 1
  let part : PartNo := Fin.ofNat 64 (getBits v.toNat 2 6)
  s.after (if v.getLsbD 0 then execWatchEnable via w mode part s else execWatchDisable via w mode part s)

/-- A write in the SEQ window. -/
def State.writeSeq (s : State) (via : Via) (off : Nat) (v : Word) : State :=
  let d := off % 2 ^ 20
  let n := v.toNat
  if d < 0x1000 then s.writeThreadCfg (idx d 8) v
  else if d < 0x2000 then
    let st := s.tstate (idx (d - 0x1000) 8)
    if st = stHalted ∨ st = stFaulted then s.plainWrite off v else s
  else if 0x4000 ≤ d ∧ d < 0x5000 then s.threadCommand via none (Fin.ofNat 512 (idx (d - 0x4000) 8)) (n % 8)
  else if 0x5000 ≤ d ∧ d < 0x5400 then s.writeSkidCfg (idx (d - 0x5000) 8) v
  else if 0x8000 ≤ d ∧ d < 0x10000 then
    if s.flag (R.SEQ_WATCH_CFG.ENABLE (idx (d - 0x8000) 8)) then s.raise R.SEQ_EVENTS.CFG_BUSY else s.plainWrite off v
  else if 0x10000 ≤ d ∧ d < 0x18000 then s.writeWatchCfg via (Fin.ofNat 4096 (idx (d - 0x10000) 8)) v
  else if d = 0x18000 then
    if bitOf n 8 then s.after (execIcacheInvalidate via (Fin.ofNat 64 n) s) else s
  else s.plainWrite off v

/-- A write of a partition's page. PRT_FAULT_BASE changes only while the ring is not in use; taking the ring into use sets
PROD to CONS (Tables 3.21 to 3.24). -/
def State.writePrt (s : State) (via : Via) (off : Nat) (v : Word) : State :=
  let p : PartNo := Fin.ofNat 64 (off % 2 ^ 20 / 0x4000)
  let d := off % 0x4000
  let on := s.flag (R.PRT_FAULT_IDX.ENABLE p)
  if d = 8 then s.threadCommand via (some p) (Fin.ofNat 512 v.toNat) (getBits v.toNat 9 3)
  else if d = 0x10 then (if on then s else s.plainWrite off v)
  else if d = 0x18 then
    let s := s.plainWrite off v
    if !on && v.getLsbD 32 then s.setFld (R.PRT_FAULT_IDX.PROD p) (s.fld (R.PRT_FAULT_IDX.CONS p)) else s
  else s.plainWrite off v

/-! ## XLT, SIV, HOM -/

/-- A write in the XLT window (R9, R88, R98). -/
def State.writeXlt (s : State) (via : Via) (off : Nat) (v : Word) : State :=
  let n := v.toNat
  if off = R.XLT_TLB_INV.adr then
    if bitOf n 8 then s.after (execTlbInvalidate via (Fin.ofNat 64 n) (bitOf n 6) (bitOf n 7) s) else s
  else if off = R.XLT_FAULT_CMD.adr then
    let k : SkidNo := Fin.ofNat 128 n
    let act := getBits n 7 2
    if act = 0 then s
    else if act = 1 then s.after (execXltRetry via k s)
    else if act = 2 then s.after (execXltAbort via k s)
    else s.raise R.XLT_EVENTS.CMD_DENY
  else s.plainWrite off v

/-- A write in the SIV window (R9, R90 to R92). -/
def State.writeSiv (s : State) (via : Via) (off : Nat) (v : Word) : State :=
  let n := v.toNat
  let d := off - R.SIV_PART.adr 0
  if d < 0x200 then s.after (execSievePartWrite via (Fin.ofNat 64 (idx d 8)) v s)
  else if off = R.SIV_ACC_CMD.adr then
    let op := n % 4
    if op = 0 then s
    else if op = 1 then s.after (execSieveRead via s)
    else if op = 2 then s.after (execSieveWrite via s)
    else s.raise R.SIV_EVENTS.CFG_BUSY
  else if off = R.SIV_PROBE_KEY.adr then s.after (execSieveProbe via (BitVec.ofNat 47 n) s)
  else s.plainWrite off v

/-- A write in the HOM window. -/
def State.writeHom (s : State) (via : Via) (off : Nat) (v : Word) : State :=
  if off = R.HOM_LEDGER_ACC_CMD.adr then (if bitOf v.toNat 0 then s.after (execLedgerRead via s) else s)
  else s.plainWrite off v

/-! ## Switch Core and electrical ports -/

/-- The links' configuration has changed: channels leave links that no longer match their peers and join those that do
(R142, R143). -/
def State.relink (s : State) : State :=
  let s := (upFrom 0 262).foldl (fun (s : State) c =>
    let fit := s.linkOf (s.fld (R.SWC_CH_STATUS.PEER c))
    if s.flag (R.SWC_CH_STATUS.MEMBER c) && fit != some (s.fld (R.SWC_CH_STATUS.LINK c)) then
      s.setFld (R.SWC_CH_STATUS.MEMBER c) 0
    else s) s
  let s := s.refreshLinks
  (upFrom 0 262).foldl (fun (s : State) c =>
    if s.flag (R.SWC_CH_STATUS.MEMBER c) ∨ ¬ s.chUp c then s
    else match s.linkOf (s.fld (R.SWC_CH_STATUS.PEER c)) with
      | none => s
      | some l => if s.linkUsable l then (s.setChan c { s.chan c with joining := true }).refreshLinks else s.joinLink c) s

/-- A write in the SWC window. -/
def State.writeSwc (s : State) (off : Nat) (v : Word) : State :=
  let s := s.plainWrite off v
  if 0x600100 ≤ off ∧ off < 0x600200 then s.relink
  else if off = R.SWC_GW_CTL.adr then s.refreshAdv
  else s

/-- A write of ELK_PORT_CTL: EN written 0 takes the port out of service, after its link has drained (R151); RETRAIN retrains
it (R294). -/
def State.writePortCtl (s : State) (via : Via) (m : Nat) (v : Word) : State :=
  let was := s.flag (R.ELK_PORT_CTL.EN m)
  let s := s.plainWrite (R.ELK_PORT_CTL.adr m) v
  if was ∧ ¬ s.flag (R.ELK_PORT_CTL.EN m) then
    if s.chUp (256 + m) then s.beginLeave (256 + m) 2 else (s.channelDown (256 + m) 0).portOff m
  else if v.getLsbD 32 then s.after (execPortRetrain via (Fin.ofNat 6 m) s) else s

/-- An injection command (Table 12.13): kind, length, count, interval. -/
def injectArgs (v : Word) : BitVec 2 × BitVec 8 × BitVec 16 × BitVec 16 :=
  (v.extractLsb' 1 2, v.extractLsb' 3 8, v.extractLsb' 11 16, v.extractLsb' 27 16)

/-- A write in the ELK window. -/
def State.writeElk (s : State) (via : Via) (off : Nat) (v : Word) : State :=
  let d := off % 2 ^ 20
  if d < 0x30 then s.writePortCtl via (idx d 8) v
  else if off = R.ELK_CNT_SRC.adr then s.after (execElkCntSrcWrite via v s)
  else if 0x100 ≤ d ∧ d < 0x280 then s.after (execElkLaneTestWrite via (Fin.ofNat 48 (idx (d - 0x100) 8)) v s)
  else if 0x700 ≤ d ∧ d < 0x880 then
    let (kind, len, count, gap) := injectArgs v
    if v.getLsbD 0 then s.after (execElkInjectGo via (Fin.ofNat 48 (idx (d - 0x700) 8)) kind len count gap s) else s
  else s.plainWrite off v

/-! ## Optics -/

/-- A write of OPT_MARGIN_CMD: COMMIT copies what has been measured, GO starts a test (Table 11.19). -/
def State.writeMargin (s : State) (via : Via) (v : Word) : State :=
  let s := if v.getLsbD 49 then s.after (execMarginCommit via s) else s
  if v.getLsbD 48 then
    s.after (execMarginTestGo via (v.extractLsb' 0 16) (v.extractLsb' 16 16) (v.extractLsb' 32 16) s)
  else s

/-- A write of OPT_LANE_CMD (R9). -/
def State.writeLaneCmd (s : State) (via : Via) (n : Nat) : State :=
  let act := getBits n 8 2
  if act = 0 then s
  else if act = 1 then s.after (execLaneRelock via (Fin.ofNat 256 n) s)
  else if act = 2 then s.after (execLaneFail via (Fin.ofNat 256 n) s)
  else s.optEvent R.OPT_EVENTS.CMD_DENY

/-- A write in the OPT window. -/
def State.writeOpt (s : State) (via : Via) (off : Nat) (v : Word) : State :=
  let d := off % 2 ^ 20
  if off = R.OPT_PLAN_CMD.adr then
    if v.getLsbD 4 then s.after (execPlanSwitchRequest via (v.extractLsb' 0 4) (v.extractLsb' 8 56) s) else s
  else if off = R.OPT_MARGIN_CMD.adr then s.writeMargin via v
  else if off = R.OPT_LANE_CMD.adr then s.writeLaneCmd via v.toNat
  else if 0x4000 ≤ d ∧ d < 0x4800 then s.after (execOptLaneTestWrite via (Fin.ofNat 256 (idx (d - 0x4000) 8)) v s)
  else if 0x4800 ≤ d ∧ d < 0x4820 then s.after (execOptCntSrcWrite via (Fin.ofNat 4 (idx (d - 0x4800) 8)) v s)
  else if 0x5000 ≤ d ∧ d < 0x5800 then
    let (kind, len, count, gap) := injectArgs v
    if v.getLsbD 0 then s.after (execOptInjectGo via (Fin.ofNat 256 (idx (d - 0x5000) 8)) kind len count gap s) else s
  else s.plainWrite off v

/-! ## Ladle arrays and the Collective Engine -/

/-- A write in the LDL window. -/
def State.writeLdl (s : State) (via : Via) (off : Nat) (v : Word) : State :=
  let d := off % 2 ^ 20
  if 0x200 ≤ d ∧ d < 0x288 then s.after (execCellRetireWrite via (Fin.ofNat 17 (idx (d - 0x200) 8)) v s)
  else
    let s := s.plainWrite off v
    let s := if off = R.LDL_SPARE_CTL.adr then s.judgeThresh else s
    if off = R.LDL_SPARE_CTL.adr ∧ v.getLsbD 12 then s.after (execSpareReplaceGo via (Fin.ofNat 16 (getBits v.toNat 8 4)) s)
    else s

/-- Whether an exchange runs here (R215). -/
def State.exchangeRuns (s : State) : Bool := s.col.entries.any fun e => cdExchange e.2.desc && !e.2.waits

/-- A write in the COL window: COL_XCHG_MODE is not written while an exchange runs (Table 9.12); EN = 1 with MAXC = 0 is a
reserved encoding of MAXC, which alone keeps its value (R9, Table 9.14). -/
def State.writeCol (s : State) (off : Nat) (v : Word) : State :=
  if off = R.COL_XCHG_MODE.adr ∧ s.exchangeRuns then s.raise R.COL_EVENTS.CFG_BUSY
  else if 0xA00100 ≤ off ∧ off < 0xA00300 ∧ v.getLsbD 0 ∧ getBits v.toNat 2 7 = 0 then
    let p := idx (off - 0xA00100) 8
    (s.setFld (R.COL_PART_CFG.LP_EN p) (getBits v.toNat 1 1)).setFld (R.COL_PART_CFG.EN p) 1
  else s.plainWrite off v

/-! ## Host ports -/

/-- A write of HST_PORT_CFG: SET_OK and SET_MISMATCH follow a change of SET (R310); a port that serves no CXL.cache any more
holds no watch line (R56). -/
def State.writePortCfg (s : State) (h : Nat) (v : Word) : State :=
  let old := s.setMask h
  let s := s.plainWrite (R.HST_PORT_CFG.adr h) v
  let s := if s.setMask h = old then s else s.refreshSets
  if s.flag (R.HST_PORT_CFG.EN h) ∧ s.flag (R.HST_PORT_CFG.CACHE_EN h) then s else s.watchPortDown h

/-- Bits set in a word. -/
def bitCount (v : Word) : Nat := ((upFrom 0 64).filter fun i => v.getLsbD i).length

/-- A write of HST_SKID_LO or HST_SKID_HI: 1 to 32 bits in all (Table 13.10). -/
def State.writeBinding (s : State) (h off : Nat) (v : Word) : State :=
  let other := if off = R.HST_SKID_LO.adr h then R.HST_SKID_HI.adr h else R.HST_SKID_LO.adr h
  let n := bitCount v + bitCount (s.reg other)
  if n = 0 ∨ 32 < n then s.raise (R.HST_EVENTS.CFG_REJECT h) else s.plainWrite off v

/-- A write of HST_PASID: two valid entries never share a PASID or a partition (R312). -/
def State.writePasid (s : State) (h i off : Nat) (v : Word) : State :=
  let n := v.toNat
  let clash (j : Nat) : Bool := j != i && s.flag (R.HST_PASID.VALID h j)
    && (s.fld (R.HST_PASID.PASID h j) == getBits n 0 20 || s.fld (R.HST_PASID.PART h j) == getBits n 20 6)
  if bitOf n 26 ∧ (upFrom 0 64).any clash then s.raise (R.HST_EVENTS.CFG_REJECT h) else s.plainWrite off v

/-- A write in the HST window. The set's ports share HST_FENCE_STATUS. -/
def State.writeHst (s : State) (via : Via) (off : Nat) (v : Word) : State :=
  let h := off % 2 ^ 20 / 0x4000
  let d := off % 0x4000
  if 4 ≤ h then s
  else if d = 0 then s.writePortCfg h v
  else if d = 0x18 ∨ d = 0x20 then s.writeBinding h off v
  else if d = 0x38 then s.after (execHostFence via (Fin.ofNat 4 h) (v.extractLsb' 0 32) (v.getLsbD 32) s)
  else if d = 0x40 then
    (upFrom 0 4).foldl (fun (s : State) i => if s.sameSet h i then s.plainWrite (R.HST_FENCE_STATUS.adr i) v else s) s
  else if 0x100 ≤ d ∧ d < 0x300 then s.writePasid h (idx (d - 0x100) 8) off v
  else s.plainWrite off v

/-! ## Security -/

/-- A write of SEC_PART_CMD (R9, R324, R325). -/
def State.writePartCmd (s : State) (via : Via) (v : Word) : State :=
  let p : PartNo := Fin.ofNat 64 v.toNat
  let cmd := getBits v.toNat 6 3
  let tick : BitVec 54 := v.extractLsb' 10 54
  if ¬ v.getLsbD 9 ∨ cmd = 0 then s
  else if cmd = 1 then s.after (execPartEnable via p s)
  else if cmd = 2 then s.after (execPartSeal via p s)
  else if cmd = 3 then s.after (execPartReset via p tick s)
  else if cmd = 4 then s.after (execPartDisable via p tick s)
  else s.secDeny.partResult p sCHECK

/-- A write of SEC_RANGE_CMD (R9, R327). -/
def State.writeRangeCmd (s : State) (via : Via) (v : Word) : State :=
  let i : Fin 256 := Fin.ofNat 256 v.toNat
  let op := getBits v.toNat 8 2
  if ¬ v.getLsbD 61 ∨ op = 0 then s
  else if op = 1 then
    s.after (execRangeAdd via i (v.getLsbD 10) (Fin.ofNat 64 (getBits v.toNat 11 6)) (v.extractLsb' 17 28) (v.extractLsb' 45 16) s)
  else if op = 2 then s.after (execRangeRemove via i s)
  else s.secDeny.rangeResult sCHECK

/-- A write of SEC_KEY_CMD (R9, R336, R337). -/
def State.writeKeyCmd (s : State) (via : Via) (v : Word) : State :=
  let p : PartNo := Fin.ofNat 64 (getBits v.toNat 2 6)
  let slot : Fin 16 := Fin.ofNat 16 (getBits v.toNat 8 4)
  let op := v.toNat % 4
  if ¬ v.getLsbD 12 ∨ op = 0 then s
  else if op = 1 then s.after (execKeyUnwrap via p slot (v.extractLsb' 14 46) s)
  else if op = 2 then s.after (execKeyClear via p slot s)
  else (s.secDeny.setFld R.SEC_KEY_STATUS.RESULT sCHECK).raise R.SEC_KEY_STATUS.DONE

/-- A write in the SEC window. An RWL field is locked while its partition is SEALED (R7). -/
def State.writeSec (s : State) (via : Via) (off : Nat) (v : Word) : State :=
  if off = R.SEC_DEBUG_CTL.adr then
    let s := if v.getLsbD 0 then s.after (execDebugOpen via s) else s
    if v.getLsbD 1 then s.after (execDebugClose via s) else s
  else if off = R.SEC_QUOTE_CMD.adr then
    if v.getLsbD 6 then s.after (execQuoteGo via (Fin.ofNat 64 v.toNat) (v.extractLsb' 8 46) s) else s
  else if off = R.SEC_KEY_CMD.adr then s.writeKeyCmd via v
  else if off = R.SEC_RANGE_CMD.adr then s.writeRangeCmd via v
  else if off = R.SEC_LOAD_CMD.adr then
    if v.getLsbD 60 then
      s.after (execLoadGo via (Fin.ofNat 256 v.toNat) (Fin.ofNat 16 (getBits v.toNat 8 4)) (v.extractLsb' 12 16)
        (v.extractLsb' 28 16) (v.extractLsb' 44 16) s)
    else s
  else if off = R.SEC_PART_CMD.adr then s.writePartCmd via v
  else if R.SEC_PART_CFG.adr 0 ≤ off ∧ off < R.SEC_PART_CFG.adr 64 ∧ s.flag (R.PRT_STATUS.SEALED (idx (off - R.SEC_PART_CFG.adr 0) 8)) then
    (s.plainWrite off v true).raise R.SEC_EVENTS.LOCKED
  else s.plainWrite off v

/-! ## Reliability, the global block, the settings, telemetry -/

/-- A write in the REL window. Unmasking a cause bit asserts ALERT_N (R360) and signals no port: the bit itself does not go
from 0 to 1 (R361). -/
def State.writeRel (s : State) (via : Via) (off : Nat) (v : Word) : State :=
  let n := v.toNat
  if off = R.REL_LOG_ACC_CMD.adr then
    if bitOf n 19 then s.after (execLogRead via (bitOf n 0) (Fin.ofNat 262144 (getBits n 1 18)) s) else s
  else s.plainWrite off v

/-- A write of GLB_RESET_CMD (R9, R375). -/
def State.writeReset (s : State) (via : Via) (v : Word) : State :=
  let key : BitVec 16 := v.extractLsb' 16 16
  let level := v.toNat % 4
  if level = 1 then s.after (execWarmReset via key s)
  else if level = 2 then s.after (execSkidderReset via key (Fin.ofNat 128 (getBits v.toNat 2 7)) s)
  else s

/-- IDENT goes out again on the channels whose exclusion from the time tree has changed (R38, R388). -/
def State.retellExclusion (s : State) (was : Nat → Bool) : State :=
  (upFrom 0 262).foldl (fun s c =>
    if s.ttOff (portCode c) != was (portCode c) && (s.chUp c || s.chState c == chTRAINING) then s.sendIdent c else s) s

/-- A write in the GLB window: GLB_TIME_CTL decides who is a candidate and which links carry time (R37, R388). -/
def State.writeGlb (s : State) (via : Via) (off : Nat) (v : Word) : State :=
  if off = R.GLB_RESET_CMD.adr then s.writeReset via v
  else if off = R.GLB_TIME_CTL.adr then ((s.plainWrite off v).refreshAdv.retellExclusion s.ttOff).noteAlone.leaveLost
  else s.plainWrite off v

/-- A write in the MGT window (R9, R383, R385). -/
def State.writeMgt (s : State) (via : Via) (off : Nat) (v : Word) : State :=
  if off = R.MGT_SET_CMD.adr then
    let op := v.toNat % 4
    if ¬ v.getLsbD 54 ∨ op = 0 then s
    else if op = 1 then s.after (execSettingsProgram via (v.extractLsb' 8 46) s)
    else (s.setFld R.MGT_SET_STATUS.RESULT sCHECK).raise R.MGT_SET_STATUS.DONE
  else if off = R.MGT_FW_CMD.adr then
    let s := s.plainWrite off v
    if v.getLsbD 0 then s.after (execFwSwap via s) else s
  else s.plainWrite off v

/-- A write in the TEL window (R9, R393 to R400). -/
def State.writeTel (s : State) (via : Via) (off : Nat) (v : Word) : State :=
  if off = R.TEL_SNAP_CMD.adr then (if v.getLsbD 0 then s.after (execSnapGo via s) else s)
  else if off = R.TEL_TRACE_SPLIT.adr then s.after (execTraceSplitWrite via (v.extractLsb' 0 7) s)
  else if off = R.TEL_TRACE_CTL.adr then s.writeTraceCtl v.toNat
  else if off = R.TEL_DBG_CMD.adr then
    let op := v.toNat % 4
    if op = 0 then s
    else if op = 1 then s.after (execDebugLineRead via s)
    else if op = 2 then s.after (execDebugLineWrite via s)
    else (s.setFld R.TEL_DBG_CMD.RESULT sCHECK).telBusy
  else s.plainWrite off v

/-! ## Windows -/

/-- A write of the debug line buffer (R400). -/
def State.writeBuffer (s : State) (i : Nat) (v : Word) : State :=
  s.setTel { s.tel with line := BitVec.ofNat 512 (putBits s.tel.line.toNat (64 * i) 64 v.toNat) }

/-- A write above the register windows: the tables (R27), the plan store and the debug line buffer; all else is read-only or
unimplemented. -/
def State.writeWindow (s : State) (via : Via) (off : Nat) (v : Word) : State :=
  if off < 0x1100000 then
    let f : BitVec 16 := BitVec.ofNat 16 ((off - 0x1000000) / 16)
    s.after (if off % 16 = 0 then execTableWordStage via (.route f) v s else execRouteEntryCommit via f v s)
  else if 0x2000000 ≤ off ∧ off < 0x2400000 then
    let g : BitVec 12 := BitVec.ofNat 12 ((off - 0x2000000) / 0x400)
    let w := off % 0x400 / 8
    s.after (if w = 127 then execGroupEntryCommit via g v s else execTableWordStage via (.group g (BitVec.ofNat 7 w)) v s)
  else if 0x3000000 ≤ off ∧ off < 0x3010000 then
    let p : BitVec 4 := BitVec.ofNat 4 ((off - 0x3000000) / 0x1000)
    let w := off % 0x1000 / 8
    if w < 256 then s.after (execTableWordStage via (.plan p (BitVec.ofNat 8 w)) v s)
    else if w = 256 then s.after (execPlanCommit via p v s) else s
  else if 0x3A10000 ≤ off ∧ off < 0x3A10040 then s.writeBuffer (off % 64 / 8) v
  else s

/-- An aligned 8-byte write that the requester may make, by the block its offset lies in (Table 1.8); a write of an
unimplemented offset is discarded (R6). -/
def State.writeWord (s : State) (via : Via) (off : Nat) (v : Word) : State :=
  if 0x1000000 ≤ off then s.writeWindow via off v
  else if (fieldsAt off).isEmpty then s
  else match off / 2 ^ 20 with
    | 0 => s.writeGlb via off v
    | 1 => s.writeMgt via off v
    | 2 => s.writePrt via off v
    | 3 => s.writeSeq via off v
    | 4 => s.writeXlt via off v
    | 5 => s.writeSiv via off v
    | 6 => s.writeSwc off v
    | 7 => s.writeElk via off v
    | 8 => s.writeOpt via off v
    | 9 => s.writeLdl via off v
    | 10 => s.writeCol off v
    | 11 => s.writeHom via off v
    | 12 => s.writeRel via off v
    | 13 => s.writeSec via off v
    | 14 => s.writeTel via off v
    | _ => s.writeHst via off v

/-- CONTROL_SPACE_WRITE (R6, R7, R9, R25): a write of `size` bytes at an offset; only an aligned 8-byte write acts. -/
def execControlSpaceWrite (via : Via) (off : BitVec 26) (size : Nat) (v : Word) (s : State) : Result :=
  .next <| s.gate via off.toNat fun s =>
    if size = 8 ∧ off.toNat % 8 = 0 then s.writeWord via off.toNat v else s

/-! ## Reads -/

/-- A register as it reads: WO and RSVD fields read 0; what repeats another register follows it (Tables 3.20, 3.25, 15.26). -/
def State.regView (s : State) (off : Nat) : Nat :=
  let r := (s.reg off).toNat
  let n := (fieldsAt off).foldl (fun (n : Nat) f =>
    if f.acc = Access.wo then n else n + getBits r f.lo f.w * 2 ^ f.lo) 0
  if off = R.GLB_ALERT_CAUSE.adr then (s.reg R.REL_ALERT_CAUSE.adr).toNat
  else if off / 2 ^ 20 = 2 then
    let p := off % 2 ^ 20 / 0x4000
    let d := off % 0x4000
    let mine (t : Nat) : Bool := s.flag (R.SEQ_THREAD_CFG.ASSIGNED t) && s.tpart t == p
    if d = 0 then putBits n 16 10 ((upFrom 0 512).filter mine).length
    else if 0x1000 ≤ d ∧ d < 0x2000 then
      let t := (d - 0x1000) / 8
      if mine t then (s.reg (R.SEQ_THREAD_STATUS.adr t)).toNat else 0
    else n
  else n

/-- A watch line's status line (Table 3.6). -/
def State.watchStatus (s : State) (w : Nat) : Nat :=
  let x := s.wl w
  packBits [(0, x.state), (3, s.fld (R.SEQ_WATCH_CFG.MODE w)), (4, s.fld (R.SEQ_WATCH_ADDR.TARGET w)),
    (7, s.fld (R.SEQ_WATCH_CFG.PART w)), (13, if x.state = 4 then x.thread else 0), (64, x.lastSeq.toNat), (128, x.wakes.toNat),
    (160, x.spurious.toNat), (192, x.rejected.toNat), (224, x.skipped.toNat), (256, x.lastWake.toNat)]

/-- What an aligned 8-byte word of control space reads as, and the state after: the entries of the tables in effect (R27), the
watch region, the diagnostic windows (Table 17.5), the registers; 0 where nothing is implemented (R6). -/
def State.readWord (s : State) (off : Nat) : Nat × State :=
  let piece (m : FMap Line) (o : Nat) : Nat := getBits (FMap.get (fun _ => (0 : Line)) m (o / 64)).toNat (8 * (o % 64)) 64
  if off < 0x1000000 then (s.regView off, s)
  else if off < 0x1100000 then (getBits (s.route ((off - 0x1000000) / 16)) (8 * (off % 16)) 64, s)
  else if 0x2000000 ≤ off ∧ off < 0x2400000 then (s.groupWord ((off - 0x2000000) / 0x400) (off % 0x400 / 8), s)
  else if 0x3000000 ≤ off ∧ off < 0x3010000 then
    (if off % 0x1000 ≤ 0x800 then s.planWord ((off - 0x3000000) / 0x1000) (off % 0x1000 / 8) else 0, s)
  else if 0x3100000 ≤ off ∧ off < 0x3140000 then
    (getBits (s.watchStatus ((off - 0x3100000) / 64)) (8 * (off % 64)) 64, s)
  else if 0x3200000 ≤ off ∧ off < 0x3A00000 then (piece s.tel.buf (off - 0x3200000), s)
  else if 0x3A00000 ≤ off ∧ off < 0x3A00800 then (piece s.tel.latest (off - 0x3A00000), s)
  else if 0x3A10000 ≤ off ∧ off < 0x3A10040 then (getBits s.tel.line.toNat (8 * (off % 64)) 64, s)
  else if 0x3B00000 ≤ off ∧ off < 0x3B80000 ∧ off % 0x40 < 48 then
    s.accumulator ((off - 0x3B00000) / 0x8000) (off % 0x8000 / 0x200) (off % 0x200 / 0x40) (off % 0x40 / 8)
  else (0, s)

/-- Clear the RC fields of a register that lie wholly in bits `lo` to `hi - 1` (R6). -/
def State.clearRc (s : State) (off lo hi : Nat) : State :=
  (fieldsAt off).foldl (fun (s : State) f =>
    if f.acc = Access.rc ∧ lo ≤ f.lo ∧ f.lo + f.w ≤ hi then s.setFld ⟨off, f.lo, f.w⟩ 0 else s) s

/-- A read of `size` bytes at an offset that the requester may see (R6): the whole register or an aligned half; any other
read returns 0. -/
def State.readSpace (s : State) (off size : Nat) : Word × State :=
  if size = 8 ∧ off % 8 = 0 then
    let (v, t) := s.readWord off
    (BitVec.ofNat 64 v, t.clearRc off 0 64)
  else if size = 4 ∧ off % 4 = 0 then
    let lo := 8 * (off % 8)
    let (v, t) := s.readWord (off - off % 8)
    (BitVec.ofNat 64 (getBits v lo 32), t.clearRc (off - off % 8) lo (lo + 32))
  else (0, s)

/-- CLEARING_READ (R6, R8, R25): a control-space read; what the port may not see reads 0 and is counted. -/
def execClearingRead (via : Via) (off : BitVec 26) (size : Nat) (s : State) : Result :=
  .next (
    if ¬ s.sees via off.toNat false then (s.denied via).send (.readData via off.toNat 0)
    else
      let (v, t) := s.readSpace off.toNat size
      t.send (.readData via off.toNat v))

end Sys2Proof.Machine
end

