-- ==== Sys2Proof/Machine/JtagCmds.lean ====
section
/-! DEFINITION. The JTAG instructions (R340, R401, R402). -/

namespace Sys2Proof.Machine

open Sys2Proof

/-- Load a JTAG instruction: its code, what it does to the contacts, and what its data register captures. -/
def State.loadIr (s : State) (ir : BitVec 8) (drive : Drive) (dr : Nat) : State :=
  { s with jtag := { s.jtag with ir := ir, drive := drive, dr := dr } }

/-- BYPASS selects the 1-bit bypass register, which captures 0 (IEEE 1149.1). -/
def State.bypass (s : State) : State := s.loadIr 0xFF .none 0

/-- An instruction that drives or floats contacts does so only while RESET_N is asserted; else it acts as BYPASS (R402). -/
def State.pinTest (s : State) (ir : BitVec 8) (drive : Drive) (dr : Nat) : State :=
  if s.cru.resetN then s.loadIr ir drive dr else s.bypass

/-- EXTEST (R402). -/
def execExtest (s : State) : Result := .next (s.pinTest 0x00 .scan s.jtag.captured)

/-- The IDCODE register (R401). -/
def State.idcode (s : State) : Nat :=
  packBits [(0, 1), (1, 0x4D5), (12, 0x4096), (28, s.fld R.GLB_FEID.STEPPING % 16)]

/-- IDCODE (R401). -/
def execIdcode (s : State) : Result := .next (s.loadIr 0x01 .none s.idcode)

/-- SAMPLE (R401): `pins` is what the contacts' cells capture. -/
def execSample (pins : Nat) (s : State) : Result :=
  let s := s.loadIr 0x02 .none pins
  .next { s with jtag := { s.jtag with captured := pins } }

/-- PRELOAD (R401): `cells` is what the boundary scan is loaded with. -/
def execPreload (cells : Nat) (s : State) : Result :=
  let s := s.loadIr 0x03 .none s.jtag.captured
  .next { s with jtag := { s.jtag with cells := cells } }

/-- CLAMP (R402). -/
def execClamp (s : State) : Result := .next (s.pinTest 0x04 .clamp 0)

/-- HIGHZ (R402). -/
def execHighz (s : State) : Result := .next (s.pinTest 0x05 .float 0)

/-- EXTEST_PULSE (R402). -/
def execExtestPulse (s : State) : Result := .next (s.pinTest 0x06 .pulse s.jtag.captured)

/-- EXTEST_TRAIN (R402). -/
def execExtestTrain (s : State) : Result := .next (s.pinTest 0x07 .train s.jtag.captured)

/-- SEC_DEBUG (R340): opens a JTAG debug session; the data register reads 1 while it is open. -/
def execSecDebug (s : State) : Result :=
  let s := s.loadIr 0x21 .none 1
  .next (if s.flag R.SEC_DEBUG_CTL.JTAG then s else (s.setFld R.SEC_DEBUG_CTL.JTAG 1).setFld R.SEC_DEBUG_CTL.COUNTED 0)

/-- BYPASS (R401). -/
def execBypass (s : State) : Result := .next s.bypass

/-- JTAG_TAP_RESET (R340, R401): TRST_N or Test-Logic-Reset; a JTAG session closes. -/
def execJtagTapReset (s : State) : Result :=
  let s := { s with jtag := {} }
  let s := { s with jtag := { s.jtag with dr := s.idcode } }
  .next (s.setFld R.SEC_DEBUG_CTL.JTAG 0).sessionClosed

end Sys2Proof.Machine
end

