-- ==== Sys2Proof/Machine/ControlCmds.lean ====
section
/-! DEFINITION. Control space from the management network (R412) and from JTAG (R403). -/

namespace Sys2Proof.Machine

open Sys2Proof

/-! ## Management datagrams (R412, Table 18.4) -/

/-- The responses kept for a source: those of its last 16 requests, for 2^16 ticks. -/
def State.keptFor (s : State) (src : BitVec 32) : List Kept :=
  ((s.mgt.kept.filter fun k => k.src == src).take 16).filter fun k => decide (s.tick < k.tick + 2 ^ 16)

/-- Keep a response: older ones of the source beyond 16, and those older than 2^16 ticks, are given up. -/
def State.keep (s : State) (k : Kept) : State :=
  let rest := s.mgt.kept.filter fun e => e.src != k.src && decide (s.tick < e.tick + 2 ^ 16)
  { s with mgt := { s.mgt with kept := k :: (s.keptFor k.src).take 15 ++ rest } }

/-- Send a response. -/
def State.sendKept (s : State) (k : Kept) : State := s.send (.datagram k.src k.seq k.op k.status k.off k.value)

/-- Answer a datagram: with the kept response of its SEQ, with CHECK_FAIL and VALUE from `bad` for a bad offset, or with what
`act` answers. -/
def State.datagram (s : State) (op : Nat) (src seq : BitVec 32) (off : BitVec 64) (bad act : State → Word × State) : State :=
  match (s.keptFor src).find? fun k => k.seq == seq with
  | some k => s.sendKept k
  | none =>
    let (status, value, t) : Nat × Word × State :=
      if off.toNat % 8 ≠ 0 ∨ 0x4000000 ≤ off.toNat then
        let (x, t) := bad s
        (sCHECK, x, t)
      else
        let (x, t) := act s
        (sOK, x, t)
    let k : Kept := { src := src, seq := seq, tick := s.tick, op := op, status := status, off := off, value := value }
    (t.keep k).sendKept k

/-- MGMT_DATAGRAM_READ (R412). What VALUE holds in a response with CHECK_FAIL is free. -/
def execMgmtDatagramRead (src seq : BitVec 32) (off : BitVec 64) (s : State) : Result :=
  .next (s.datagram 1 src seq off (fun s => let (x, t) := s.fresh; (BitVec.ofNat 64 x, t)) fun s => s.readSpace off.toNat 8)

/-- MGMT_DATAGRAM_WRITE (R412). -/
def execMgmtDatagramWrite (src seq : BitVec 32) (off : BitVec 64) (v : Word) (s : State) : Result :=
  .next (s.datagram 2 src seq off (fun s => (v, s)) fun s =>
    (v, s.gate .mgmt off.toNat fun s => s.writeWord .mgmt off.toNat v))

/-! ## JTAG -/

/-- CSR_ACCESS (R403): at Update-DR, the access; the next Capture-DR returns the data with VALID. `off` is OFFSET[25:3]. -/
def execCsrAccess (off : BitVec 23) (write : Bool) (data : Word) (s : State) : Result :=
  let o := 8 * off.toNat
  let (v, s) := if write then (data, s.writeWord .jtag o data) else s.readSpace o 8
  let s := s.loadIr 0x20 .none (packBits [(0, v.toNat), (64, off.toNat), (87, b2n write), (88, 1)])
  .next { s with jtag := { s.jtag with csr := some v } }

end Sys2Proof.Machine
end

