-- ==== Sys2Proof/Machine/ControlOps.lean ====
section
/-! DEFINITION. Control instructions of Disil (R229, R230, R250 to R253) and the WAIT.T wake. -/

namespace Sys2Proof.Machine

open Sys2Proof

/-- NOP: no effect (R229). -/
def execNop (t : ThreadNo) (f : Insn) (s : State) : Result :=
  .next (s.insn t 0x00 f (f.malformed {}) 0 fun s => s.advance t)

/-- BR: PC := PC + 8·sext(IMM) (R229). -/
def execBr (t : ThreadNo) (f : Insn) (s : State) : Result :=
  .next (s.insn t 0x01 f (f.malformed { imm := 0xFFFFFFFF }) 0 fun s => s.setPc t (s.target t f))

/-- JAL: gD := PC + 8; PC := PC + 8·sext(IMM) (R229). -/
def execJal (t : ThreadNo) (f : Insn) (s : State) : Result :=
  .next (s.insn t 0x02 f (f.malformed { d := true, imm := 0xFFFFFFFF }) (regMask f.d) fun s =>
    (s.setGreg t f.d (BitVec.ofNat 64 (s.pc t + 8))).setPc t (s.target t f))

/-- JR: PC := gA with bits [2:0] taken as 0 (R229). An FVA with a bit of [63:57] set faults with XLATE_FAULT (R70), at the JR,
since the PC holds no such bits (DEDUCED, log entry 64). -/
def execJr (t : ThreadNo) (f : Insn) (s : State) : Result :=
  .next (s.insn t 0x03 f (f.malformed { a := true }) (regMask f.a) fun s =>
    let a := (s.greg t f.a).toNat
    if a / 2 ^ 57 ≠ 0 then s.threadXlateFault t ⟨1, 7⟩ .load a else s.setPc t a)

/-- HALT: HALTED as R50, with PC at the next instruction (R229). -/
def execHalt (t : ThreadNo) (f : Insn) (s : State) : Result :=
  .next (s.insn t 0x04 f (f.malformed {}) 0 fun s => (s.advance t).haltThread t)

/-- TRAP: SW_TRAP with INFO = IMM zero-extended (R253). -/
def execTrap (t : ThreadNo) (f : Insn) (s : State) : Result :=
  .next (s.insn t 0x05 f (f.malformed { imm := 0xFFFFFFFF }) 0 fun s => s.trap t 0x06 f.imm.toNat)

/-- TRET: HANDLER is cleared and the thread continues at TRAP_PC, or TRAP_PC + 8 with IMM[0] = 1; a status trap held
meanwhile is then taken (R253, R232). With HANDLER = 0 it is ILLEGAL_OP (R228). -/
def execTret (t : ThreadNo) (f : Insn) (s : State) : Result :=
  .next (s.insn t 0x06 f (f.malformed { imm := 1 } || !s.flag (R.SEQ_THREAD_STATUS.HANDLER t)) 0 fun s =>
    ((s.setFld (R.SEQ_THREAD_STATUS.HANDLER t) 0).setPc t ((s.thr t).trapPc.toNat + 8 * (f.imm.toNat % 2))).takeHeld t)

/-- WAIT.T: at once where the target gA + sext(IMM) is at or below GLB_TICK, else WAITING with reason TICK (R251). -/
def execWaitT (t : ThreadNo) (f : Insn) (s : State) : Result :=
  .next (s.insn t 0x07 f (f.malformed { a := true, imm := 0xFFFFFFFF }) (regMask f.a) fun s =>
    let target := (s.greg t f.a + f.sext).toNat
    if target ≤ s.tick then s.advance t else s.waitOn t (.tick target))

/-- The wake of a thread in WAIT.T whose target has come (R251). -/
def State.tickWake (s : State) (t : Nat) : State :=
  match (s.thr t).wait with
  | .tick target =>
    if s.tstate t = stWaiting ∧ target ≤ s.tick then ((s.runnable t).advance t).takeHeld t else s
  | _ => s

/-- WAIT_T_WAKE (R251, Table 2.4 step 7). -/
def execWaitTWake (t : ThreadNo) (s : State) : Result := .next (s.tickWake t)

/-- The thread parks on a watch line (R57, R252). -/
def State.park (s : State) (t w : Nat) (st : BitVec 5) (deadline : Nat) : State :=
  let s := s.setThr t { s.thr t with waitReg := st }
  let s := s.setWl w { s.wl w with state := 4, thread := t, deadline := deadline }
  (s.setTState t stParked 0).setFld (R.SEQ_THREAD_STATUS.WATCH t) w

/-- WAIT.W (R252). -/
def execWaitW (t : ThreadNo) (f : Insn) (s : State) : Result :=
  .next (s.insn t 0x08 f (f.malformed { a := true, b := true, st := true })
    (regMask f.a ||| regMask f.b ||| regMask f.st) fun s =>
    let ga := (s.greg t f.a).toNat
    let gb := (s.greg t f.b).toNat
    let w := ga % 4096
    let x := s.wl w
    if 4096 ≤ ga ∨ s.fld (R.SEQ_WATCH_CFG.PART w) ≠ s.tpart t ∨ ¬ (x.state = 2 ∨ x.state = 3) then
      s.trap t 0x04 w
    else if x.state = 3 then
      let s := s.deliverSnap w t x.snap
      let s := s.setWl w { s.wl w with state := 2, snap := 0 }
      (s.writeStatus t f.st 0).advance t
    else if gb ≠ 0 ∧ gb ≤ s.tick then (s.writeStatus t f.st (statusWord 5)).advance t
    else s.park t w f.st gb)

/-- The value of a thread CSR (Table 10.6), none for a reserved number. -/
def State.csr (s : State) (t : Nat) (n : Nat) : Option Word :=
  let x := s.thr t
  if n = 0 then some (BitVec.ofNat 64 s.tick)
  else if n = 1 then some (BitVec.ofNat 64 t)
  else if n = 2 then some (BitVec.ofNat 64 (s.tpart t))
  else if n = 3 then some ((s.ttag t).setWidth 64)
  else if n = 4 then some (BitVec.ofNat 64 s.feid)
  else if n = 5 then some (BitVec.ofNat 64 (s.tskid t))
  else if n = 6 then some x.trapPc
  else if n = 7 then some x.trapCause
  else if n = 8 then some x.trapInfo
  else if n = 9 then some (x.chk.setWidth 64)
  else if n = 10 then some (BitVec.ofNat 64 (packBits ((upFrom 0 16).map fun i => (i, b2n (x.hand i).used))))
  else if n = 11 then some (BitVec.ofNat 64 (s.fld (R.SEQ_THREAD_STATUS.OUTSTANDING t)))
  else none

/-- CSRR: gD := the CSR numbered IMM[7:0] as it stands at issue (R230). -/
def execCsrr (t : ThreadNo) (f : Insn) (s : State) : Result :=
  .next (s.insn t 0x09 f (f.malformed { d := true, imm := 0xFF } || decide (11 < f.imm.toNat % 256)) (regMask f.d) fun s =>
    match s.csr t (f.imm.toNat % 256) with
    | some v => (s.setGreg t f.d v).advance t
    | none => s)

/-- CHK: the check floor becomes IMM[2:0], 0 to 4; 5 to 7 are reserved (R250). -/
def execChk (t : ThreadNo) (f : Insn) (s : State) : Result :=
  .next (s.insn t 0x0A f (f.malformed { imm := 7 } || decide (4 < f.imm.toNat % 8)) 0 fun s =>
    (s.setThr t { s.thr t with chk := BitVec.ofNat 3 f.imm.toNat }).advance t)

end Sys2Proof.Machine
end

