-- ==== Sys2Proof/Machine/CruiseCmds.lean ====
section
/-! DEFINITION. Cruise (R386 to R392): each phase's command begins the phase's work, and ends the phase once that is complete. -/

namespace Sys2Proof.Machine

open Sys2Proof

/-- Replace the Cruise record. -/
def State.setCru (s : State) (x : CruState) : State := { s with cru := x }

/-- Whether Cruise is in phase `n`, and the phase has begun to run (C1 after a warm reset waits one tick, R373). -/
def State.inPhase (s : State) (n : Nat) : Bool :=
  s.cru.on && s.fld R.GLB_CRUISE_STATUS.PHASE == n && decide (s.cru.phaseAt ≤ s.tick)

/-- Go on to the next phase. -/
def State.nextPhase (s : State) : State :=
  (s.addFld R.GLB_CRUISE_STATUS.PHASE 1).setCru { s.cru with begun := false, phaseAt := s.tick,
                                                             c4At := if s.fld R.GLB_CRUISE_STATUS.PHASE = 3 then s.tick else s.cru.c4At }

/-- The phase's work has begun. -/
def State.began (s : State) : State := s.setCru { s.cru with begun := true }

/-- A phase: its work begins at the first use of its command; a later use ends it where `over` holds. -/
def State.phase (s : State) (n : Nat) (start : State → State) (ended : State → Bool) (finish : State → State) : State :=
  if ¬ s.inPhase n then s
  else if ¬ s.cru.begun then (start s).began
  else if ended s then (finish s).nextPhase
  else s

/-! ## C0 to C2 -/

/-- CRUISE_C0_REGULATORS (R386): the regulators are on. -/
def execCruiseC0Regulators (s : State) : Result := .next (if s.inPhase 0 then s.nextPhase else s)

/-- CRUISE_C1_SETTINGS_LOAD (R379, R380): the banks are read; with none valid the module stays in C1. -/
def execCruiseC1SettingsLoad (s : State) : Result :=
  .next (
    if ¬ s.inPhase 1 then s
    else
      let s := s.showBanks
      match s.chooseBank with
      | none => (s.setFld R.MGT_SET_STATUS.NONE 1).began
      | some (b, rs) => (s.loadBank b rs).nextPhase)

/-- Training from stage 1 as Cruise starts it, which is no retraining. -/
def State.firstTrain (s : State) (m : Nat) : State :=
  (s.portTrain m 0 true).setFld (R.ELK_PORT_STATUS.RETRAINS m) (s.fld (R.ELK_PORT_STATUS.RETRAINS m))

/-- The electrical ports that are enabled. -/
def State.enabledPorts (s : State) : List Nat := (upFrom 0 6).filter fun m => s.flag (R.ELK_PORT_CTL.EN m)

/-- CRUISE_C2_TRAINING (R291). -/
def execCruiseC2Training (s : State) : Result :=
  .next (s.phase 2 (fun s => s.enabledPorts.foldl (fun (s : State) m => s.firstTrain m) s)
    (fun s => s.enabledPorts.all fun m => s.fld (R.ELK_PORT_STATUS.STATE m) == 2) id)

/-! ## C3 -/

/-- The lasers are turned on: sources 0-3 of each bank feed their engines unless retired, and a spare goes on feeding the
engine that it took over (R254, R272). -/
def State.lasersOn (s : State) : State :=
  (upFrom 0 4).foldl (fun (s : State) b =>
    (upFrom 0 5).foldl (fun (s : State) k =>
      if s.fld (R.OPT_LASER_STATUS.STATE b k) = 4 then s
      else if k < 4 then (s.setFld (R.OPT_LASER_STATUS.FEEDS b k) (4 * b + k)).setFld (R.OPT_LASER_STATUS.STATE b k) 1
      else if s.fld (R.OPT_LASER_STATUS.FEEDS b 4) < 16 then s.setFld (R.OPT_LASER_STATUS.STATE b 4) 1
      else s) s) s

/-- A source that is 2.5 dB or more below its base at start is replaced by the bank's spare at once (R272). `power`: its
output in 0.01 dBm. -/
def State.startSource (s : State) (b k : Nat) (power : BitVec 16) : State :=
  if s.fld (R.OPT_LASER_STATUS.STATE b k) ≠ 1 then s
  else
    let delta : Int := power.toInt - signedOf 16 (s.fld (R.OPT_LASER_BASE.BASE b k))
    let s := (s.setFld (R.OPT_LASER_STATUS.POWER b k) power.toNat).setFld (R.OPT_LASER_STATUS.DELTA b k) (fieldOf 16 delta)
    if -250 < delta ∨ 4 ≤ k then s
    else if s.fld (R.OPT_LASER_STATUS.STATE b 4) = 0 then s.insertSpare b (s.fld (R.OPT_LASER_STATUS.FEEDS b k))
    else s.optEvent R.OPT_EVENTS.SPARE_NONE

/-- A lightlane starts: its two rings are swept; one that the plan leaves disabled is OFF (R259, R272). -/
def State.startLane (s : State) (c : Nat) : State :=
  let s := if lwEn (s.laneWord c) then (s.enterLane c lsSWEEP).setFld (R.OPT_LANE_STATUS.CAUSE c) 0 else s.laneOff c
  s.setLane c { s.lane c with sweepM := true, sweepD := true, sweepAt := s.tick, okA := false, okB := false }

/-- C3 begins: lasers, the BOOT plan and the sweeps (R272, steps 1 to 3). -/
def State.startOptics (s : State) (powers : List (BitVec 16)) : State :=
  let s := s.lasersOn
  let s := (powers.zip (upFrom 0 20)).foldl (fun (s : State) e => s.startSource (e.2 / 5) (e.2 % 5) e.1) s
  let boot := s.fld R.OPT_PLAN_CTL.BOOT
  let s := if s.planValid boot then (s.setOpt { s.opt with force := true }).setFld R.OPT_PLAN_STATUS.CUR boot
    else (s.setOpt { s.opt with force := false }).optEvent R.OPT_EVENTS.PLAN_REJECT
  (upFrom 0 256).foldl (fun (s : State) c => s.startLane c) s

/-- Lightlanes that have passed check A and have no verdict yet go under the margin test (R272, steps 5 and 6). -/
def State.startMargins (s : State) : State :=
  (upFrom 0 256).foldl (fun (s : State) c =>
    if s.laneState c = lsVERIFY ∧ (s.lane c).okA ∧ (s.lane c).test = 0 ∧ s.fld (R.OPT_MARGIN.VERDICT c) = 0 then s.marginLane c
    else s) s

/-- Whether every ring has been swept and every lightlane of the plan in force has a verdict. -/
def State.allJudged (s : State) : Bool :=
  (upFrom 0 256).all fun c => !(s.lane c).sweepM && !(s.lane c).sweepD
    && (!lwEn (s.laneWord c) || s.fld (R.OPT_MARGIN.VERDICT c) != 0)

/-- C3 ends: lightlanes that then lack a measurement receive INCOMPLETE, and every lightlane leaves its test (R272). -/
def State.endMargins (s : State) : State :=
  (upFrom 0 256).foldl (fun (s : State) c =>
    let s := if lwEn (s.laneWord c) ∧ s.fld (R.OPT_MARGIN.VERDICT c) = 0 then s.setFld (R.OPT_MARGIN.VERDICT c) 4 else s
    if (s.lane c).test = 0 then s else s.testOver c) s

/-- CRUISE_C3_OPTICS (R259, R272): begun with the output of every source, bank by bank; each further use puts lightlanes that
have passed check A under test, until all have a verdict. -/
def execCruiseC3Optics (powers : List (BitVec 16)) (s : State) : Result :=
  .next (
    if ¬ s.inPhase 3 then s
    else if ¬ s.cru.begun then (s.startOptics powers).began
    else if s.allJudged then s.endMargins.nextPhase
    else s.startMargins)

/-! ## C4 and C5 -/

/-- Insert into an ascending list without repeats. -/
def insertNat (x : Nat) : List Nat → List Nat
  | [] => [x]
  | y :: r => if x < y then x :: y :: r else if x = y then y :: r else y :: insertNat x r

/-- The distinct peers seen in IDENT, ascending. -/
def State.peersSeen (s : State) : List Nat :=
  s.swc.chans.foldl (fun l e => match e.2.ident with
    | some b => insertNat b.feid.toNat l
    | none => l) []

/-- Assign links to peers (R387): those that no fixed link names take the remaining links, both ascending. -/
def State.assignLinks (s : State) : State :=
  let fixed := (upFrom 0 32).filter fun l => s.flag (R.SWC_LINK_CFG.EN l)
  let named := fixed.map fun l => s.fld (R.SWC_LINK_CFG.PEER l)
  let peers := s.peersSeen.filter fun f => !named.contains f
  let free := (upFrom 0 32).filter fun l => !s.flag (R.SWC_LINK_CFG.EN l)
  let s := (peers.zip free).foldl (fun (s : State) e =>
    (s.setFld (R.SWC_LINK_CFG.PEER e.2) e.1).setFld (R.SWC_LINK_CFG.EN e.2) 1) s
  let s := if free.length < peers.length then s.raise R.GLB_CRUISE_STATUS.LINKS_FULL else s
  s.swc.chans.foldl (fun (s : State) e =>
    if s.chUp e.1 && !s.flag (R.SWC_CH_STATUS.MEMBER e.1) then s.joinLink e.1 else s) s.refreshLinks

/-- Whether IDENT has come on every channel that works or trains. -/
def State.allIdents (s : State) : Bool :=
  (upFrom 0 262).all fun c => s.chState c == chDOWN || (s.chan c).ident.isSome

/-- CRUISE_C4_LINKS (R387). -/
def execCruiseC4Links (s : State) : Result :=
  .next (s.phase 4 (fun s => s.sendIdents) (fun s => s.allIdents) (fun s => s.assignLinks))

/-- The election starts (R388); an UNALIGNED module goes to ACQUIRING (Table 2.3). -/
def State.startElection (s : State) : State :=
  let s := if s.timeState = tsUNALIGNED then s.acquire else s
  (((s.setTim { s.tim with electing := true, advSince := s.tick }).refreshAdv).sendIdents)

/-- CRUISE_C5_ELECTION (R388): it ends with the module LOCKED, or LOST with no candidate. -/
def execCruiseC5Election (s : State) : Result :=
  .next (s.phase 5 (fun s => s.startElection) (fun s => s.timeState == tsLOCKED || s.timeState == tsLOST) id)

/-! ## C6: the map -/

/-- CRUISE_C6_MAP_FLOOD (R389): the map message is flooded. -/
def execCruiseC6MapFlood (s : State) : Result :=
  .next (
    if ¬ s.inPhase 6 ∨ s.cru.begun then s
    else (s.setCru { s.cru with changedAt := s.tick }).floodMap.began)

/-- Where a packet that waits for local delivery came from. -/
def State.cameFrom (s : State) (p : Packet) : Point :=
  match s.swc.localq.find? fun q => q.pkt == p with
  | some q => q.point
  | none => .loc 0

/-- The channel of a point of arrival. -/
def Point.chan? : Point → Option Nat
  | .chan c => some c.val
  | .loc _ | .arr _ => none

/-- The fragment that a map message carries (Table 16.13). -/
def mapFragOf (b : Nat) : MapFrag :=
  { mseq := getBits b 32 32, nfrag := getBits b 16 8, master := getBits b 64 16,
    links := (upFrom 0 (min 12 (getBits b 24 8))).map fun k => (getBits b (128 + 32 * k) 16, getBits b (144 + 32 * k) 8) }

/-- MAP_MESSAGE (R389): a fragment newer than the one held for its source is held and forwarded on every UP channel but the
one of arrival. -/
def execMapMessage (p : Packet) (s : State) : Result :=
  .next (
    let b := p.payload.toNat
    if ¬ (p.op = opMGMT ∧ b % 256 = 1) then s
    else if !s.intact p then s.takeLocal p
    else
      let pt := s.cameFrom p
      let s := s.takeLocal p
      let f := p.src.toNat
      let k := getBits b 8 8 % 4
      let m := mapFragOf b
      let fresh := match FMap.find s.cru.frags (4 * f + k) with
        | some old => newer m.mseq old.mseq
        | none => true
      if fresh then (s.holdFrag f k m).flood p pt pt.chan? else s)

/-- Ticks in a millisecond (R34). -/
def ms : Nat := 6250

/-- MAP_QUIET (R389): the map has been unchanged for max(2, D) ms. -/
def execMapQuiet (s : State) : Result :=
  .next (
    if s.inPhase 6 ∧ s.cru.begun ∧ s.cru.changedAt + max 2 (s.fld R.GLB_CRUISE_STATUS.DIAMETER) * ms ≤ s.tick then s.nextPhase
    else s)

/-! ## C7: routes (R390) -/

/-- A Route Table entry's slot as bits: link, EN, DLA; nothing where the slot is not in use. -/
def slotBits (k : Nat) (x : Option (Nat × Nat)) : List (Nat × Nat) :=
  match x with
  | some (l, dla) => [(10 * k + 8, l), (10 * k + 13, 1), (10 * k + 15, dla)]
  | none => []

/-- RTT for a path of `h` hops. -/
def State.rttFor (s : State) (h : Nat) : Nat := min 65535 (2 * h * (s.fld R.SWC_FWD_CTL.MAX_AGE + 6))

/-- The link to a neighbour that the map holds. -/
def State.linkTo (s : State) (mods : List Nat) (f : Nat) : Option Nat := if mods.contains f then s.linkOf f else none

/-- Coordinates of a module in the torus. -/
def State.coords (s : State) (f : Nat) : List Nat :=
  let dx := s.fld R.GLB_CRUISE_CTL.DIMX
  let dy := s.fld R.GLB_CRUISE_CTL.DIMY
  [f % dx, f / dx % dy, f / (dx * dy)]

/-- Sizes of the torus. -/
def State.dims (s : State) : List Nat :=
  [s.fld R.GLB_CRUISE_CTL.DIMX, s.fld R.GLB_CRUISE_CTL.DIMY, s.fld R.GLB_CRUISE_CTL.DIMZ]

/-- Whether routes follow the torus (Table 16.23). -/
def State.isTorus (s : State) : Bool :=
  s.flag R.GLB_CRUISE_CTL.TOPO && decide (s.dims.foldl (· * ·) 1 ≤ 4096) && s.dims.all (· != 0)

/-- Hops on a ring of `n` from `a` to `b`: forward, and the shorter way. -/
def ringUp (n a b : Nat) : Nat := (b + n - a % n) % n
def ringHops (n a b : Nat) : Nat := min (ringUp n a b) ((n - ringUp n a b) % n)

/-- DLA of a hop from `a` toward `b` round a ring: 2 where the rest of the path still crosses the dateline (R157, R390). -/
def hopDla (n a b : Nat) (up : Bool) : Nat :=
  let a' := if up then (a + 1) % n else (a + n - 1) % n
  if (if up then decide (b < a') else decide (a' < b)) then 2 else 1

/-- The torus entry of a module: the axis that its route takes first here, the hop each way round that ring. -/
def State.torusEntry (s : State) (mods : List Nat) (f : Nat) : List (Nat × Nat) :=
  let me := s.coords s.feid
  let to_ := s.coords f
  let size := s.dims
  let axes := (upFrom 0 3).map fun i => (i, size.getD i 1, me.getD i 0, to_.getD i 0)
  let hops := axes.foldl (fun h x => h + ringHops x.2.1 x.2.2.1 x.2.2.2) 0
  match axes.find? fun x => x.2.2.1 != x.2.2.2 with
  | none => []
  | some (i, n, a, b) =>
    if n ≤ b then []
    else
      let stride := (size.take i).foldl (· * ·) 1
      let next (up : Bool) : Nat := s.feid - a * stride + (if up then (a + 1) % n else (a + n - 1) % n) * stride
      let slot (up : Bool) : Option (Nat × Nat) := (s.linkTo mods (next up)).map fun l => (l, hopDla n a b up)
      let up := decide (2 * ringUp n a b ≤ n)
      slotBits 0 (slot up) ++ slotBits 1 (slot !up) ++ [(48, s.rttFor hops)]

/-- The root of the tree: the tick master that every map message names, else the lowest FEID of the map. -/
def State.treeRoot (s : State) (mods : List Nat) : Nat :=
  let masters := mods.filterMap fun f => (FMap.find s.cru.frags (4 * f)).map (·.master)
  let low := mods.foldl min 0xFFFF
  match masters with
  | m :: r => if r.all (· == m) && mods.contains m then m else low
  | [] => low

/-- A module's parent in the tree: the neighbour one hop nearer the root with the lowest FEID. -/
def State.treeParent (s : State) (dist : List (Nat × Nat)) (f : Nat) : Option Nat :=
  let d (g : Nat) : Nat := ((dist.find? fun e => e.1 == g).map (·.2)).getD 0
  ((s.mapPeers f).filter fun g => dist.any (fun e => e.1 == g) && d g + 1 == d f).foldl (fun (m : Option Nat) g => match m with
    | some h => some (min h g)
    | none => some g) none

/-- The path from a module up to the root, the module first. -/
def State.treePath (s : State) (dist : List (Nat × Nat)) : Nat → Nat → List Nat
  | 0, f => [f]
  | fuel + 1, f => match s.treeParent dist f with
    | some g => f :: s.treePath dist fuel g
    | none => [f]

/-- The tree entry of a module: the tree link toward it. -/
def State.treeEntry (s : State) (mods : List Nat) (dist : List (Nat × Nat)) (f : Nat) : List (Nat × Nat) :=
  let mine := s.treePath dist 4096 s.feid
  let its := s.treePath dist 4096 f
  let down := its.takeWhile (· != s.feid)
  let common := (its.filter fun g => mine.contains g).length
  let next := if its.contains s.feid then down.getLast? else mine[1]?
  let hops := if its.contains s.feid then down.length else mine.length + its.length - 2 * common
  slotBits 0 ((next.bind fun g => s.linkTo mods g).map fun l => (l, 0)) ++ [(48, s.rttFor hops)]

/-- The Route Table entries of the map's modules are computed and filled, but for those that ROUTES records set (R381,
R390). -/
def State.fillRoutes (s : State) : State :=
  let mods := s.mapModules
  let dist := s.mapDist (s.treeRoot mods)
  let torus := s.isTorus
  let s := s.setCru { s.cru with routeSeq := s.cru.mseq, stale := false }
  mods.foldl (fun (s : State) f =>
    if FMap.get (fun _ => false) s.cru.fixed f then s
    else
      let e := if f = s.feid then [(1, 1)] else if torus then s.torusEntry mods f else s.treeEntry mods dist f
      s.putRoute f (BitVec.ofNat 128 (packBits ((0, 1) :: e)))) s

/-- CRUISE_C7_ROUTES (R390). -/
def execCruiseC7Routes (s : State) : Result := .next (if s.inPhase 7 then s.fillRoutes.nextPhase else s)

/-! ## C8 -/

/-- CRUISE_C8_READY (R391): READY is flooded. -/
def execCruiseC8Ready (s : State) : Result :=
  .next (
    if ¬ s.inPhase 8 ∨ s.cru.begun then s
    else
      let seq := s.cru.routeSeq
      let s := s.flood (s.mgmtPacket 0xFFFF (packBits [(0, 2), (32, seq)])) (.loc 0) none
      (s.setCru { s.cru with begun := true, ready := FMap.put s.cru.ready s.feid (seq + 1) }).judgeReady)

/-- MGMT_READY (R389, R391): a READY counts, and goes on like a map message. -/
def execMgmtReady (p : Packet) (s : State) : Result :=
  .next (
    let b := p.payload.toNat
    if ¬ (p.op = opMGMT ∧ b % 256 = 2) then s
    else if !s.intact p then s.takeLocal p
    else
      let pt := s.cameFrom p
      let s := s.takeLocal p
      let f := p.src.toNat
      let seq := getBits b 32 32
      let fresh := match FMap.find s.cru.ready f with
        | some old => newer seq (old - 1)
        | none => true
      if fresh then ((s.setCru { s.cru with ready := FMap.put s.cru.ready f (seq + 1) }).flood p pt pt.chan?).judgeReady else s)

/-- The limit of the phase in progress, in ticks (Table 16.12); C1 may take longer where the newer bank fails. -/
def State.phaseLimit (s : State) : Nat :=
  match s.fld R.GLB_CRUISE_STATUS.PHASE with
  | 0 => 50 * ms
  | 1 => if (s.bank (if newer (s.flashSeq 1) (s.flashSeq 0) then 1 else 0)).isSome then 1500 * ms else 2300 * ms
  | 2 => 200 * ms
  | 3 => 2000 * ms
  | 4 => 10 * ms
  | 5 => 2 ^ 21
  | 6 => (s.fld R.GLB_CRUISE_STATUS.DIAMETER + 2) * ms
  | _ => 500 * ms

/-- What a phase that ends at its limit still does: verdicts (R272), and links for the peers seen so far (R387). -/
def State.cutShort (s : State) : State :=
  match s.fld R.GLB_CRUISE_STATUS.PHASE with
  | 3 => s.endMargins
  | 4 => s.assignLinks
  | _ => s

/-- CRUISE_PHASE_LIMIT (R386): the phase sets its LATE bit and ends, but for C1 with no valid bank (R379). -/
def execCruisePhaseLimit (s : State) : Result :=
  .next (
    let n := s.fld R.GLB_CRUISE_STATUS.PHASE
    if ¬ s.cru.on ∨ 8 ≤ n ∨ s.tick < s.cru.phaseAt + s.phaseLimit ∨ (n = 1 ∧ s.flag R.MGT_SET_STATUS.NONE) then s
    else s.cutShort.nextPhase.setFld ⟨R.GLB_CRUISE_STATUS.adr, 4 + n, 1⟩ 1)

/-- AUTOROUTE (R391): 2 ms after the last change of the map, with AUTOROUTE = 1, C7 is repeated. -/
def execAutoroute (s : State) : Result :=
  .next (
    if s.inPhase 8 ∧ s.flag R.GLB_CRUISE_CTL.AUTOROUTE ∧ s.cru.stale ∧ s.cru.changedAt + 2 * ms ≤ s.tick then s.fillRoutes else s)

end Sys2Proof.Machine
end

