-- ==== Sys2Proof/Machine/LinkCmds.lean ====
section
/-! DEFINITION. Packets and control blocks on channels (chapter 7), and the ends of holds and waits in the Switch Core. -/

namespace Sys2Proof.Machine

open Sys2Proof

/-- Whether a channel is in a link: an enabled link has its peer (R142). A channel that waits to join is. -/
def State.inLink (s : State) (c : Nat) : Bool := (s.linkOf (s.fld (R.SWC_CH_STATUS.PEER c))).isSome

/-- Accept a packet at link level and hand it to the Switch Core, where its channel is in a link (R142, R147). -/
def State.acceptPacket (s : State) (c : Channel) (p : Packet) : State :=
  let x := s.chan c
  let s := s.setChan c { x with pool := x.pool + p.len, failed := none }
  let s := ((s.addFld (R.SWC_CH_STATUS.RX_SEQ c) 1).addFld (R.SWC_CH_CNT.RX_PKTS c) 1).count (R.SWC_CH_CNT.RX_BYTES c) p.len
  let s := s.capture c 0 p false
  let q : QPkt := { pkt := p, point := .chan c, link := 0, tick := s.tick, hash := 0, dl0 := p.dl, pool := true,
                    trailer := some p.trailer }
  if s.inLink c then
    let lost := (s.fate p (.chan c)).lost
    let s := s.inject q
    if lost then s.colDropped p else s
  else (s.freePool q).count R.SWC_DISCARDS.ROUTE

/-- A packet whose header passed and whose trailer failed has been forwarded already: its copy goes on with the trailer
inverted (R149). -/
def State.forwardStomped (s : State) (c : Channel) (p : Packet) : State :=
  if s.inLink c then
    match s.fate p (.chan c) with
    | .link .. =>
      s.inject { pkt := p, point := .chan c, link := 0, tick := s.tick, hash := 0, dl0 := p.dl, stomp := true }
    | _ => s
  else s

/-- The trailer of a packet failed (R147, R149, R285): it has gone on with the trailer inverted, and a NAK goes out; or, where
the replayed copy fails again, the packet is passed over, and a request answered with CHECK_FAIL. -/
def State.trailerFailed (s : State) (c : Channel) (p : Packet) : State :=
  let seq := s.fld (R.SWC_CH_STATUS.RX_SEQ c)
  let s := (s.count (R.SWC_CH_CNT.TRAILER_ERR c) 1).forwardStomped c p
  if (s.chan c).failed = some seq then
    let x := s.chan c
    let k := 2 * p.vc.toNat + p.dl.toNat % 2
    let s := s.setChan c { x with failed := none,
                                  freedRx := FMap.set (fun _ => 0) x.freedRx k (FMap.get (fun _ => 0) x.freedRx k + p.len) }
    let s := (s.addFld (R.SWC_CH_STATUS.RX_SEQ c) 1).linkEvent R.SWC_EVENTS.REPLAY_FAIL
    s.refuse { pkt := p, point := .chan c, link := 0, tick := s.tick, hash := 0 } sCHECK
  else
    (s.setChan c { s.chan c with failed := some seq }).sendNak c 2

/-- A stomped packet is discarded with no NAK; its copy has gone on as it came (R149). -/
def State.stomped (s : State) (c : Channel) (p : Packet) : State :=
  let s := (s.forwardStomped c p).addFld (R.SWC_CH_CNT.STOMPED c) 1
  let x := s.chan c
  let k := 2 * p.vc.toNat + p.dl.toNat % 2
  (s.setChan c { x with failed := none,
                        freedRx := FMap.set (fun _ => 0) x.freedRx k (FMap.get (fun _ => 0) x.freedRx k + p.len) }).addFld
    (R.SWC_CH_STATUS.RX_SEQ c) 1

/-- PACKET_RECEIVE (R134, R135, R147, R149, R163, R285): a packet arrives with its HCRC and trailer as received; `flagged`:
a byte of it lies in a codeword that FEC could not correct. -/
def execPacketReceive (c : Channel) (p : Packet) (hcrc : BitVec 16) (trailer : BitVec 32) (flagged : Bool) (s : State) :
    Result :=
  .next (
    if ¬ s.chUp c then s
    else if (s.chan c).nak.isSome then s
    else if 0 < (s.chan c).dups then s.setChan c { s.chan c with dups := (s.chan c).dups - 1 }
    else if hcrc ≠ p.hcrc then (s.count (R.SWC_CH_CNT.HCRC_ERR c) 1).sendNak c 1
    else if poolBytes c < (s.chan c).pool + p.len then
      ((s.sendNak c 4).linkEvent R.SWC_EVENTS.OVERRUN).retrain c 0
    else if ¬ flagged ∧ trailer = p.trailer then s.acceptPacket c p
    else if ¬ flagged ∧ trailer = ~~~p.trailer then s.stomped c p
    else s.trailerFailed c p)

/-- PACKET_SEND (R146, R159, R161): resend the next packet of a replay, or send the packet that arbitration chooses, where
the link is granted packets, the window and the replay buffer have room and credit allows. -/
def execPacketSend (c : Channel) (s : State) : Result :=
  .next (
    let x := s.chan c
    if s.chState c ≠ chUP ∨ s.left then s
    else match x.resend with
      | q :: r =>
        ((s.setChan c { x with resend := r }).count (R.SWC_CH_CNT.REPLAYED c) 1).sendWords c q.pkt q.stomp
      | [] =>
        let granted := !(s.flag (R.SWC_CH_STATUS.MEMBER c) && s.flag (R.SWC_LINK_STATUS.JOINING (s.fld (R.SWC_CH_STATUS.LINK c))))
        let qs := s.swc.linkq.filter (s.isFor c)
        if ¬ granted ∨ 2048 ≤ x.replay.length then s
        else match s.arbitrate c qs with
          | (some (q, x), s) => s.transmit c q x
          | (none, s) => s.stall c qs)

/-- Inputs that the full hold queue stalled go on while there is room, oldest packets first (R82). -/
def State.unstall (s : State) : State :=
  let qs := s.swc.stalled
  qs.foldl (fun s q => if q.link = 34 then s.inject { q with link := 0 } else s.rechoose q)
    { s with swc := { s.swc with stalled := [] } }

/-- PACKET_AGE_EXPIRE (R166): every packet that has waited MAX_AGE ticks here is discarded without a response. -/
def execPacketAgeExpire (s : State) : Result :=
  let age := s.fld R.SWC_FWD_CTL.MAX_AGE
  let old (q : QPkt) := decide (q.tick + age ≤ s.tick)
  let gone := (s.swc.linkq ++ s.swc.localq ++ s.swc.holdq ++ s.swc.stalled ++ s.swc.transq).filter old
  let keep (l : List QPkt) := l.filter fun q => !old q
  let w := { s.swc with linkq := keep s.swc.linkq, localq := keep s.swc.localq, holdq := keep s.swc.holdq,
                        stalled := keep s.swc.stalled, transq := keep s.swc.transq }
  let s := gone.foldl (fun s q => (s.freePool q).count R.SWC_DISCARDS.AGE) { s with swc := w }
  .next (gone.foldl (fun s q => if q.link < 32 then s.noteDepth q.link q.pkt.vc.toNat else s) s.noteHold).unstall

/-- PATH_HOLD_EXPIRE (R82): held packets whose destinations' holds have ended take the new path choice. -/
def execPathHoldExpire (s : State) : Result :=
  let done := (s.swc.path.filter fun e => decide (e.2 ≤ s.tick)).map (·.1)
  let ready (q : QPkt) := done.contains q.pkt.dst.toNat
  let qs := s.swc.holdq.filter ready
  let w := { s.swc with holdq := s.swc.holdq.filter (fun q => !ready q), path := s.swc.path.filter fun e => !done.contains e.1 }
  .next (qs.foldl (fun (s : State) q => s.rechoose q) { s with swc := w }.noteHold).unstall

/-- GROUP_HOLD_EXPIRE (R81): holds whose HOLD_TICKS have passed end, and their packets enter the Switch Core again. -/
def execGroupHoldExpire (s : State) : Result :=
  let s := { s with swc := { s.swc with transit := s.swc.transit.filter fun h => decide (s.tick < h.until_) } }
  let qs := s.swc.transq.filter fun q => !s.heldHere q
  .next (qs.foldl (fun s q => s.inject { q with link := 0 })
    { s with swc := { s.swc with transq := s.swc.transq.filter s.heldHere } })

/-- CHANNEL_JOIN (R143): once every channel of the link has UNACK = 0, the channel joins it. -/
def execChannelJoin (c : Channel) (s : State) : Result :=
  .next (
    if ¬ (s.chan c).joining ∨ ¬ s.chUp c then s
    else match s.linkOf (s.fld (R.SWC_CH_STATUS.PEER c)) with
      | some l => if s.drained l then s.joinLink c else s
      | none => s.joinLink c)

/-- CREDIT_BLOCK (R146, R147, R150, R162): FREED counts by class are in bits [12k+11:12k]. -/
def execCreditBlock (c : Channel) (ack next : BitVec 12) (freed : BitVec 192) (s : State) : Result :=
  .next (
    if ¬ s.chUp c then s
    else
      let s := s.setChan c { s.chan c with lastCredit := s.tick, ei := false }
      let s := (s.acknowledge c ack.toNat).takeFreed c freed
      let rx := s.fld (R.SWC_CH_STATUS.RX_SEQ c)
      let ahead := (next.toNat + 4096 - rx) % 4096
      let s := if (s.chan c).nak.isNone && (s.chan c).dups == 0 && decide (1 ≤ ahead ∧ ahead ≤ 2047) then s.sendNak c 3 else s
      if s.flag (R.SWC_CH_STATUS.MEMBER c) then s.settleLeaves (s.fld (R.SWC_CH_STATUS.LINK c)) else s)

/-- NAK_BLOCK (R148). -/
def execNakBlock (c : Channel) (expect : BitVec 12) (_reason : BitVec 4) (s : State) : Result :=
  .next (
    if ¬ s.chUp c then s
    else
      let s := s.addFld (R.SWC_CH_CNT.NAK_RX c) 1
      let i := (expect.toNat + 4096 - s.oldest c) % 4096
      if i < (s.chan c).replay.length then s.startReplay c i
      else (s.linkEvent R.SWC_EVENTS.NAK_WINDOW).retrain c 0)

/-- REPLAY_BLOCK (R147). -/
def execReplayBlock (c : Channel) (seq : BitVec 12) (s : State) : Result :=
  .next (
    if ¬ s.chUp c then s
    else
      let rx := s.fld (R.SWC_CH_STATUS.RX_SEQ c)
      let back := (rx + 4096 - seq.toNat) % 4096
      if back ≤ 2047 then s.setChan c { s.chan c with nak := none, dups := back }
      else s.sendNak c 3)

/-- LEAVE_BLOCK (R151): REASON 1 to 3 take every channel to the FEID down, REASON 4 this one only. -/
def execLeaveBlock (c : Channel) (feid : BitVec 16) (reason : BitVec 4) (_tick : BitVec 64) (s : State) : Result :=
  .next (
    let s := s.linkEvent R.SWC_EVENTS.LEAVE_RX
    if reason = 1 ∨ reason = 2 ∨ reason = 3 then
      (upFrom 0 262).foldl (fun s d =>
        if s.fld (R.SWC_CH_STATUS.PEER d) = feid.toNat ∧ feid ≠ 0xFFFF then s.channelDown d 5 else s)
        (s.colLost (· == feid.toNat))
    else if reason = 4 then s.channelDown c 0 else s)

/-- IDLE_BLOCK (R145, R289): a received IDLE block is discarded at lane level. The symbols that came on the lane with it go
through the lane's line code: markers are counted out and checked, and the descrambler follows (R282, R287). -/
def execIdleBlock (x : RxSymbols) (s : State) : Result :=
  .next (
    if x.symbols = [] ∨ ¬ (s.lanesOf x.chan).contains x.lane.val then s
    else s.noteCode x.lane ((s.code x.lane).receive (s.fec272 x.lane) x.symbols) 0 0)

/-- NAK_REPEAT (R147): no suitable REPLAY within 2 ticks. -/
def execNakRepeat (c : Channel) (s : State) : Result :=
  .next (
    match (s.chan c).nak with
    | some (t, r) => if t + 2 ≤ s.tick then s.sendNak c r else s
    | none => s)

/-- Ticks without CREDIT after which a channel is silent, none while they are not counted (R150, R292, R296). -/
def State.silentAfter (s : State) (c : Nat) : Option Nat :=
  if (s.chan c).ei then (if s.skois c then some (2 ^ 14 + 64) else none) else some 64

/-- SILENT_PEER_TIMEOUT (R150, R153, R354). -/
def execSilentPeerTimeout (c : Channel) (s : State) : Result :=
  .next (
    match s.silentAfter c with
    | some n =>
      if s.chUp c ∧ (s.chan c).lastCredit + n ≤ s.tick then (s.linkEvent R.SWC_EVENTS.SILENT_PEER).channelDown c 3 else s
    | none => s)

/-- BAD_CONTROL_BLOCK (R145, R285): a received control block whose CRC fails or whose TYPE is reserved, or of which a bit lies in
a codeword that FEC could not correct, is discarded and counted. A block that passes comes as the command of its
TYPE. -/
def execBadControlBlock (x : RxBlock) (s : State) : Result :=
  .next (if x.flagged ∨ ctrlDecode x.bits = none then s.addFld (R.SWC_CH_CNT.CTRL_ERR x.chan) 1 else s)

end Sys2Proof.Machine
end

