-- ==== Sys2Proof/Machine/RspCmds.lean ====
section
/-! DEFINITION. Responses at the issuing Skidder (R138, R117), request timeouts (R23, R122), retransmissions (R117). -/

namespace Sys2Proof.Machine

open Sys2Proof

/-- The slot key that a response's request tag names. -/
def Packet.slotKey (p : Packet) : Nat := 256 * p.eng.toNat + p.slot.toNat

/-- The slot that a response belongs to: in use, with the response's TAG and LINE (R138). -/
def State.slotFor (s : State) (p : Packet) : Option Slot :=
  match s.slot p.slotKey with
  | some sl => if sl.pkt.tag = p.tag ∧ sl.pkt.line = p.line then some sl else none
  | none => none

/-- The completion status of a response: PZ makes an OK answer POISON (R139). -/
def Packet.answerStatus (p : Packet) : Nat := if p.pz ∧ p.status = 0 then sPOISON else p.status.toNat

/-- A response arrives (R138): discarded where its trailer fails at this end-point, and its request then ends by timeout or
retransmission (R149); discarded and counted where it matches no slot; UNREACHABLE to a retransmission is ignored
(R117); else its request ends. -/
def State.response (s : State) (p : Packet) (a : Answer) (cacheable : Bool) : State :=
  if !s.intact p then s.takeLocal p else
  let s := s.takeLocal p
  match s.slotFor p with
  | none => s.count R.SWC_DISCARDS.BAD_ENC
  | some sl =>
    if isAtomicClass sl.pkt.op ∧ p.form = 1 ∧ a.status = sUNREACH then s
    else s.complete p.slotKey a cacheable

/-- RSP (R138): a response without data. -/
def execRsp (p : Packet) (s : State) : Result :=
  .next (if p.op = opRSP then s.response p { status := p.status.toNat } false else s)

/-- RSP_DATA (R138): a response with a line. The operand is the packet's bit by which the home answers as cacheable or not (R120,
log entry 67). -/
def execRspData (p : Packet) (cacheable : Bool) (s : State) : Result :=
  .next <|
    let p := { p with cacheable := cacheable }
    (if p.op = opRSPDATA then s.response p { status := p.answerStatus, data := p.data, pz := p.pz } p.cacheable else s)

/-- RSP_ATOM (R138, R234): a response with RESULT. -/
def execRspAtom (p : Packet) (s : State) : Result :=
  .next (if p.op = opRSPATOM then
    s.response p { status := p.answerStatus, result := some (p.payload.toNat % 2 ^ 64) } false else s)

/-- A mirror has not acknowledged within the request timeout (R23): a synchronously mirrored store completes with TIMEOUT without
being performed (R353); an atomic is not completed, for only an acknowledgement completes it (R129); an asynchronous copy stays
unacknowledged (R128, R353). -/
def State.mirrorTimeout (s : State) (m : MirrorOp) : State :=
  match m.kind with
  | .async | .waits _ => s
  | .atomic .. => s.mirrorGone m
  | .engine who => ((s.mirrorGone m).engineFails who sTIMEOUT).settleClosing
  | .store => (s.mirrorGone m).finish m.port m.req sTIMEOUT

/-- REQUEST_TIMEOUT (R23, R122, R353): a request with no completion within its timeout ends with TIMEOUT. -/
def execRequestTimeout (x : Expiry) (s : State) : Result :=
  .next <|
    match x with
    | .slot key =>
      match s.slot key with
      | none => s
      | some sl => if sl.first + 2 ^ sl.limit ≤ s.tick ∧ ¬ sl.hold then s.complete key { status := sTIMEOUT } else s
    | .invl i =>
      match s.home.tracker[i]? with
      | none => s
      | some k =>
        if k.start + 2 ^ k.limit ≤ s.tick then
          ({ s with home := { s.home with tracker := s.home.tracker.erase k } }.raise R.HOM_EVENTS.INVL_FAIL).respond
            k.req sTIMEOUT 0
        else s
    | .mirror i =>
      match s.home.mirror[i]? with
      | none => s
      | some m => if m.start + 2 ^ m.limit ≤ s.tick then s.mirrorTimeout m else s

/-- Send an atomic-class request again, in the retransmission form, with its request tag and ledger key (R117). -/
def State.resend (s : State) (key : Nat) (sl : Slot) (x : Xlat) : State :=
  let p := { sl.pkt with dst := BitVec.ofNat 16 x.dest, sub := BitVec.ofNat 3 x.sub, line := BitVec.ofNat 46 x.line,
                         opcode := opcodeOf sl.pkt.hc sl.pkt.op 1 }
  let sl := { sl with pkt := p, lastSend := s.tick, retries := sl.retries + 1, bucket := s.bucketOf x.dest x.line }
  let k := s.skid (key / 256)
  let s := s.setSkid (key / 256) { k with sent := FMap.set (fun _ => 0) k.sent p.lseq.toNat (s.tick + 1) }
  ({ s with slots := s.slots.put key sl }).sendPacket p

/-- ATOMIC_RETRANSMIT (R117): RETRY_TICKS after the previous send, up to RETRY_MAX times; the FVA is translated again, and a
retransmission whose translation fails is not sent. -/
def execAtomicRetransmit (key : Fin 32768) (s : State) : Result :=
  .next <|
    match s.slot key with
    | none => s
    | some sl =>
      if isAtomicClass sl.pkt.op ∧ ¬ sl.resolve ∧ sl.retries < s.fld R.HOM_ATOM_CTL.RETRY_MAX
          ∧ sl.lastSend + s.fld R.HOM_ATOM_CTL.RETRY_TICKS ≤ s.tick then
        match s.translate sl.pkt.tag sl.fva (accOf sl.pkt.op) with
        | (s, .ok x) => s.resend key sl x
        | (s, _) => { s with slots := s.slots.put key { sl with lastSend := s.tick, retries := sl.retries + 1 } }
      else s

end Sys2Proof.Machine
end

