-- ==== Sys2Proof/Machine/Scalar.lean ====
section
/-! DEFINITION. Scalar instructions (R229, Tables 10.3 to 10.5). -/

namespace Sys2Proof.Machine

open Sys2Proof

/-- ADD: gD := gA + gB (R229). -/
def execAdd (t : ThreadNo) (f : Insn) (s : State) : Result := .next (s.alu t 0x10 f fun a b => a + b)

/-- SUB: gD := gA − gB (R229). -/
def execSub (t : ThreadNo) (f : Insn) (s : State) : Result := .next (s.alu t 0x11 f fun a b => a - b)

/-- AND (R229). -/
def execAnd (t : ThreadNo) (f : Insn) (s : State) : Result := .next (s.alu t 0x12 f fun a b => a &&& b)

/-- OR (R229). -/
def execOr (t : ThreadNo) (f : Insn) (s : State) : Result := .next (s.alu t 0x13 f fun a b => a ||| b)

/-- XOR (R229). -/
def execXor (t : ThreadNo) (f : Insn) (s : State) : Result := .next (s.alu t 0x14 f fun a b => a ^^^ b)

/-- SHL: left shift by gB[5:0] (R229). -/
def execShl (t : ThreadNo) (f : Insn) (s : State) : Result := .next (s.alu t 0x15 f fun a b => a <<< (b.toNat % 64))

/-- SHR: logical right shift by gB[5:0] (R229). -/
def execShr (t : ThreadNo) (f : Insn) (s : State) : Result := .next (s.alu t 0x16 f fun a b => a >>> (b.toNat % 64))

/-- SAR: arithmetic right shift by gB[5:0] (R229). -/
def execSar (t : ThreadNo) (f : Insn) (s : State) : Result :=
  .next (s.alu t 0x17 f fun a b => a.sshiftRight (b.toNat % 64))

/-- MUL: bits [63:0] of the product (R229). -/
def execMul (t : ThreadNo) (f : Insn) (s : State) : Result := .next (s.alu t 0x18 f fun a b => a * b)

/-- MULHU: unsigned bits [127:64] of the product (R229). -/
def execMulhu (t : ThreadNo) (f : Insn) (s : State) : Result :=
  .next (s.alu t 0x19 f fun a b => BitVec.ofNat 64 (a.toNat * b.toNat / 2 ^ 64))

/-- MINS: signed minimum (R229). -/
def execMins (t : ThreadNo) (f : Insn) (s : State) : Result :=
  .next (s.alu t 0x1A f fun a b => if a.slt b then a else b)

/-- MAXS: signed maximum (R229). -/
def execMaxs (t : ThreadNo) (f : Insn) (s : State) : Result :=
  .next (s.alu t 0x1B f fun a b => if a.slt b then b else a)

/-- MINU: unsigned minimum (R229). -/
def execMinu (t : ThreadNo) (f : Insn) (s : State) : Result :=
  .next (s.alu t 0x1C f fun a b => if a.ult b then a else b)

/-- MAXU: unsigned maximum (R229). -/
def execMaxu (t : ThreadNo) (f : Insn) (s : State) : Result :=
  .next (s.alu t 0x1D f fun a b => if a.ult b then b else a)

/-- SEL: gD := gA if p(IMM[2:0]) = 1, else gB (R229). -/
def execSel (t : ThreadNo) (f : Insn) (s : State) : Result :=
  .next <| s.insn t 0x1E f (f.malformed { d := true, a := true, b := true, imm := 7 })
    (regMask f.d ||| regMask f.a ||| regMask f.b) fun s =>
    let v := if (s.thr t).pred (f.imm.toNat % 8) then s.greg t f.a else s.greg t f.b
    (s.setGreg t f.d v).advance t

/-- CMP: p(IMM[2:0]) := cond(gA, gB) with cond = IMM[6:4] (R229, Table 10.5). -/
def execCmp (t : ThreadNo) (f : Insn) (s : State) : Result :=
  .next <| s.insn t 0x1F f (f.malformed { a := true, b := true, imm := 0x77 } || getBits f.imm.toNat 4 3 == 7)
    (regMask f.a ||| regMask f.b) fun s =>
    match cmpCond (getBits f.imm.toNat 4 3) (s.greg t f.a) (s.greg t f.b) with
    | some v => (s.setPredOf t (f.imm.toNat % 8) v).advance t
    | none => s

/-- CMPI: p(IMM[2:0]) := cond(gA, sext(IMM[31:8])); IMM[7] and IMM[3] are 0 (R229). -/
def execCmpi (t : ThreadNo) (f : Insn) (s : State) : Result :=
  .next <| s.insn t 0x29 f (f.malformed { a := true, imm := 0xFFFFFF77 } || getBits f.imm.toNat 4 3 == 7)
    (regMask f.a) fun s =>
    match cmpCond (getBits f.imm.toNat 4 3) (s.greg t f.a) (sextTo64 24 (f.imm.toNat / 256)) with
    | some v => (s.setPredOf t (f.imm.toNat % 8) v).advance t
    | none => s

/-- ADDI (R229). -/
def execAddi (t : ThreadNo) (f : Insn) (s : State) : Result :=
  .next (s.aluImm t 0x20 f 0xFFFFFFFF fun a => a + f.sext)

/-- ANDI (R229). -/
def execAndi (t : ThreadNo) (f : Insn) (s : State) : Result :=
  .next (s.aluImm t 0x21 f 0xFFFFFFFF fun a => a &&& f.sext)

/-- ORI (R229). -/
def execOri (t : ThreadNo) (f : Insn) (s : State) : Result :=
  .next (s.aluImm t 0x22 f 0xFFFFFFFF fun a => a ||| f.sext)

/-- XORI (R229). -/
def execXori (t : ThreadNo) (f : Insn) (s : State) : Result :=
  .next (s.aluImm t 0x23 f 0xFFFFFFFF fun a => a ^^^ f.sext)

/-- SHLI: left shift by IMM[5:0] (R229). -/
def execShli (t : ThreadNo) (f : Insn) (s : State) : Result :=
  .next (s.aluImm t 0x24 f 0x3F fun a => a <<< (f.imm.toNat % 64))

/-- SHRI: logical right shift by IMM[5:0] (R229). -/
def execShri (t : ThreadNo) (f : Insn) (s : State) : Result :=
  .next (s.aluImm t 0x25 f 0x3F fun a => a >>> (f.imm.toNat % 64))

/-- SARI: arithmetic right shift by IMM[5:0] (R229). -/
def execSari (t : ThreadNo) (f : Insn) (s : State) : Result :=
  .next (s.aluImm t 0x26 f 0x3F fun a => a.sshiftRight (f.imm.toNat % 64))

/-- MOVI: gD := sext(IMM) (R229). -/
def execMovi (t : ThreadNo) (f : Insn) (s : State) : Result :=
  .next <| s.insn t 0x27 f (f.malformed { d := true, imm := 0xFFFFFFFF }) (regMask f.d) fun s =>
    (s.setGreg t f.d f.sext).advance t

/-- MOVHI: gD := (IMM << 32) or gD[31:0] (R229). -/
def execMovhi (t : ThreadNo) (f : Insn) (s : State) : Result :=
  .next <| s.insn t 0x28 f (f.malformed { d := true, imm := 0xFFFFFFFF }) (regMask f.d) fun s =>
    (s.setGreg t f.d ((f.imm.setWidth 64 <<< 32) ||| (s.greg t f.d &&& 0xFFFFFFFF#64))).advance t

/-- PLOG: p(IMM[2:0]) := p(IMM[5:3]) op p(IMM[8:6]); op 0 AND, 1 OR, 2 XOR, 3 AND NOT (R229). -/
def execPlog (t : ThreadNo) (f : Insn) (s : State) : Result :=
  .next <| s.insn t 0x2A f (f.malformed { imm := 0x7FF }) 0 fun s =>
    let n := f.imm.toNat
    let a := (s.thr t).pred (getBits n 3 3)
    let b := (s.thr t).pred (getBits n 6 3)
    let o := getBits n 9 2
    let v := if o = 0 then a && b else if o = 1 then a || b else if o = 2 then a != b else a && !b
    (s.setPredOf t (n % 8) v).advance t

/-- CRC32C: state gA[31:0] advanced over the n = IMM[3:0] low bytes of gB; n = 0 and 9 to 15 are reserved (R229). -/
def execCrc32c (t : ThreadNo) (f : Insn) (s : State) : Result :=
  .next <| s.insn t 0x2B f
    (f.malformed { d := true, a := true, b := true, imm := 0xF } || !decide (1 ≤ f.imm.toNat % 16 ∧ f.imm.toNat % 16 ≤ 8))
    (regMask f.d ||| regMask f.a ||| regMask f.b) fun s =>
    let c := crc32cState (BitVec.ofNat 32 (s.greg t f.a).toNat) (leBytes (f.imm.toNat % 16) (s.greg t f.b).toNat)
    (s.setGreg t f.d (c.setWidth 64)).advance t

/-- WBUF: gD := bytes 8k to 8k + 7 of the wake buffer, k = IMM[2:0] (R229). -/
def execWbuf (t : ThreadNo) (f : Insn) (s : State) : Result :=
  .next <| s.insn t 0x2C f (f.malformed { d := true, imm := 7 }) (regMask f.d) fun s =>
    (s.setGreg t f.d (BitVec.ofNat 64 (getBits (s.thr t).wake.toNat (64 * (f.imm.toNat % 8)) 64))).advance t

/-- WBUF.L: line group D := the wake buffer (R229). -/
def execWbufL (t : ThreadNo) (f : Insn) (s : State) : Result :=
  .next <| s.insn t 0x2D f (f.malformed { d := true } || badGroup f.d) (groupMask f.d) fun s =>
    (s.setThr t ((s.thr t).setGroup f.d (s.thr t).wake)).advance t

end Sys2Proof.Machine
end

