-- ==== Sys2Proof/Machine/SpdmCmds.lean ====
section
/-! DEFINITION. The SPDM responder (R322, R335): one request at a time across the four ports. What DSP0274 itself lays down
beyond R335 (message encodings, transcripts) is outside the spec; signatures cover a free transcript. -/

namespace Sys2Proof.Machine

open Sys2Proof

/-- Replace the responder's state. -/
def State.setSpdm (s : State) (x : Spdm) : State := { s with sec := { s.sec with spdm := x } }

/-- The device certificate chain of slot 0 (Table 16.9). -/
def State.certChain (s : State) : List Byte := s.setting 6

/-- A signature over an SPDM transcript, which the spec does not lay out: its value is free. -/
def State.spdmSign (s : State) : BitVec 26472 × State :=
  let (r, s) := s.fresh
  (Config.sign r [] [], s)

/-- The raw bit-stream block at a measurement index (R335). -/
def State.spdmBlock (s : State) (i : Nat) : List Byte :=
  if i = 1 then leBytes 64 s.sec.mFw.toNat
  else if i = 2 then leBytes 64 s.sec.mMicro.toNat
  else if i = 3 then leBytes 64 s.sec.mSet.toNat
  else leBytes 8 (s.fld R.SEC_DEBUG_EPOCH.EPOCH)

/-- Bytes in one piece of a large response: at most a mailbox object (R322). -/
def spdmPiece : Nat := Config.spdmChunk % 4096 + 1

/-- A piece of the large response that a port's requester fetches; the last one ends it. -/
def State.spdmNext (s : State) (h seq : Nat) : SpdmRsp × State :=
  match FMap.find s.sec.spdm.large h with
  | none => (.error .invalidRequest, s)
  | some r =>
    let data := (r.drop (seq * spdmPiece)).take spdmPiece
    let last := decide (r.length ≤ (seq + 1) * spdmPiece)
    (.chunk seq last data, if last then s.setSpdm { s.sec.spdm with large := FMap.del s.sec.spdm.large h } else s)

/-- The answer to one request; none for a quote, which the responder takes in hand and answers with QUOTE_DONE (R335). -/
def State.spdmReply (s : State) (h : Nat) (r : SpdmReq) : Option SpdmRsp × State :=
  let x := s.sec.spdm
  let session := FMap.get (fun _ => 0) x.session h
  let noId := !s.flag R.SEC_STATUS.ID_OK
  match r with
  | .getVersion => (some (.version 0x14), s.setSpdm { x with agreed := FMap.del x.agreed h, session := FMap.del x.session h })
  | .getCapabilities => (some .capabilities, s)
  | .negotiateAlgorithms sg kem hash aead =>
    if sg && kem && hash && aead then (some .algorithms, s.setSpdm { x with agreed := FMap.put x.agreed h true })
    else (some (.error .other), s)
  | .getDigests => (some (.digests (Config.sha384 s.certChain)), s)
  | .getCertificate slot off len =>
    if slot ≠ 0 then (some (.error .invalidRequest), s)
    else
      let data := ((s.certChain).drop off.toNat).take len.toNat
      (some (.certificate data (s.certChain.length - off.toNat - data.length)), s)
  | .challenge slot =>
    if slot ≠ 0 then (some (.error .invalidRequest), s)
    else if noId then (some (.error .other), s)
    else let (sig, s) := s.spdmSign; (some (.challengeAuth sig), s)
  | .getMeasurements i sg =>
    if sg && noId then (some (.error .other), s)
    else
      let idx := if i = 255 then [1, 2, 3, 4] else if 1 ≤ i.toNat ∧ i.toNat ≤ 4 then [i.toNat] else []
      if idx = [] ∧ i ≠ 0 then (some (.error .invalidRequest), s)
      else
        let blocks := idx.map fun n => (n, s.spdmBlock n)
        if sg then let (sig, s) := s.spdmSign; (some (.measurements blocks (some sig)), s)
        else (some (.measurements blocks none), s)
  | .keyExchange mauth psk =>
    if mauth || psk then (some (.error .invalidRequest), s)
    else if noId then (some (.error .other), s)
    else
      let (sig, s) := s.spdmSign
      (some (.keyExchange sig), s.setSpdm { s.sec.spdm with session := FMap.put s.sec.spdm.session h 1 })
  | .finish =>
    if session = 1 then (some .finish, s.setSpdm { x with session := FMap.put x.session h 2 })
    else (some (.error .invalidRequest), s)
  | .heartbeat => if session = 2 then (some .heartbeat, s) else (some (.error .invalidRequest), s)
  | .endSession =>
    if session = 2 then (some .endSession, s.setSpdm { x with session := FMap.del x.session h })
    else (some (.error .invalidRequest), s)
  | .chunkGet seq => let (a, s) := s.spdmNext h seq.toNat; (some a, s)
  | .vendorDefined std vendor code part nonce =>
    if std ≠ 3 ∨ vendor ≠ 0x1F6B ∨ code ≠ 1 then (some (.error .unsupportedRequest), s)
    else
      let p := part.toNat
      if 64 ≤ p ∨ ¬ s.mapped h p ∨ ¬ bitOf (s.fld (R.SEC_PART_CFG.SPDM_PORTS p)) h then (some (.error .invalidRequest), s)
      else if noId then (some (.error .other), s)
      else
        let q : Quote := { part := p, nonce := nonce, dst := none, port := h, start := s.tick }
        (none, ({ s with sec := { s.sec with quote := some q } }).setFld R.SEC_QUOTE_STATUS.BUSY 1)

/-- Whether the responder can take a request from a port: the link is up, C1 has loaded the settings, and no quote is being
produced, on either path: while it is busy the mailbox stays in DOE Busy (R302, R322, R333). -/
def State.spdmReady (s : State) (h : Nat) : Bool :=
  s.settled && s.fld (R.HST_PORT_STATUS.LINK h) == 2 && s.sec.quote.isNone

/-- One SPDM request on port `h`. -/
def State.spdm (s : State) (h : Nat) (r : SpdmReq) : State :=
  if ¬ s.spdmReady h then s
  else if s.mgtAway then s.send (.spdm h (.error .other))
  else match s.spdmReply h r with
  | (some a, s) => s.send (.spdm h a)
  | (none, s) => s

/-- GET_VERSION (R335). -/
def execGetVersion (h : PortNo) (s : State) : Result := .next (s.spdm h .getVersion)

/-- GET_CAPABILITIES (R335). -/
def execGetCapabilities (h : PortNo) (s : State) : Result := .next (s.spdm h .getCapabilities)

/-- NEGOTIATE_ALGORITHMS (R335): which of the four algorithms the requester offers. -/
def execNegotiateAlgorithms (h : PortNo) (sign kem hash aead : Bool) (s : State) : Result :=
  .next (s.spdm h (.negotiateAlgorithms sign kem hash aead))

/-- GET_DIGESTS (R335). -/
def execGetDigests (h : PortNo) (s : State) : Result := .next (s.spdm h .getDigests)

/-- GET_CERTIFICATE (R335). -/
def execGetCertificate (h : PortNo) (slot : Fin 16) (off len : BitVec 16) (s : State) : Result :=
  .next (s.spdm h (.getCertificate slot off len))

/-- CHALLENGE (R335). -/
def execChallenge (h : PortNo) (slot : Fin 16) (s : State) : Result := .next (s.spdm h (.challenge slot))

/-- GET_MEASUREMENTS (R335). -/
def execGetMeasurements (h : PortNo) (index : BitVec 8) (sign : Bool) (s : State) : Result :=
  .next (s.spdm h (.getMeasurements index sign))

/-- KEY_EXCHANGE (R335). -/
def execKeyExchange (h : PortNo) (mauth psk : Bool) (s : State) : Result := .next (s.spdm h (.keyExchange mauth psk))

/-- FINISH (R335). -/
def execFinish (h : PortNo) (s : State) : Result := .next (s.spdm h .finish)

/-- HEARTBEAT (R335). -/
def execHeartbeat (h : PortNo) (s : State) : Result := .next (s.spdm h .heartbeat)

/-- END_SESSION (R335). -/
def execEndSession (h : PortNo) (s : State) : Result := .next (s.spdm h .endSession)

/-- CHUNK_SEND (R322, R335): a piece of a large request is taken; with the last piece, the request `whole` that they spell is
answered. -/
def execChunkSend (h : PortNo) (seq : BitVec 16) (whole : Option SpdmReq) (s : State) : Result :=
  .next <|
    if ¬ s.spdmReady h then s
    else if s.mgtAway then s.send (.spdm h (.error .other))
    else
      let n := FMap.get (fun _ => 0) s.sec.spdm.taken h
      if seq.toNat ≠ n then s.send (.spdm h (.error .invalidRequest))
      else
        let s := s.send (.spdm h (.chunkAck n))
        match whole with
        | none => s.setSpdm { s.sec.spdm with taken := FMap.set (fun _ => 0) s.sec.spdm.taken h (n + 1) }
        | some r => (s.setSpdm { s.sec.spdm with taken := FMap.set (fun _ => 0) s.sec.spdm.taken h 0 }).spdm h r

/-- CHUNK_GET (R322, R335). -/
def execChunkGet (h : PortNo) (seq : BitVec 16) (s : State) : Result := .next (s.spdm h (.chunkGet seq))

/-- VENDOR_DEFINED_REQUEST (R335): Palerami's quote request, or ERROR. -/
def execVendorDefinedRequest (h : PortNo) (standard vendor : BitVec 16) (code part : BitVec 8) (nonce : BitVec 256)
    (s : State) : Result :=
  .next (s.spdm h (.vendorDefined standard vendor code part nonce))

end Sys2Proof.Machine
end

