-- ==== Sys2Proof/Machine/Dispatch.lean ====
section
/-! DEFINITION. The dispatch: what each command does. -/

namespace Sys2Proof.Machine

open Sys2Proof

/-- The effect of a command on everything but the queue. -/
def exec (i : Instr) (s : State) : Host.Outcome State Fault Refusal :=
  match i with
  | .controlSpaceWrite via off size v => Sys2Proof.Machine.execControlSpaceWrite via off size v s
  | .clearingRead via off size => Sys2Proof.Machine.execClearingRead via off size s
  | .tableWordStage via x v => Sys2Proof.Machine.execTableWordStage via x v s
  | .routeEntryCommit via f v => Sys2Proof.Machine.execRouteEntryCommit via f v s
  | .groupEntryCommit via g v => Sys2Proof.Machine.execGroupEntryCommit via g v s
  | .planCommit via p v => Sys2Proof.Machine.execPlanCommit via p v s
  | .tickBoundary m => Sys2Proof.Machine.execTickBoundary m s
  | .refInputLoss inp e1 e2 => Sys2Proof.Machine.execRefInputLoss inp e1 e2 s
  | .refInputValid inp epochs => Sys2Proof.Machine.execRefInputValid inp epochs s
  | .refRevert => Sys2Proof.Machine.execRefRevert s
  | .timeExchange c phase => Sys2Proof.Machine.execTimeExchange c phase s
  | .timeBlock c b rx wait => Sys2Proof.Machine.execTimeBlock c b rx wait s
  | .holdoverExpire => Sys2Proof.Machine.execHoldoverExpire s
  | .epochInPulse phase => Sys2Proof.Machine.execEpochInPulse phase s
  | .electionSettle => Sys2Proof.Machine.execElectionSettle s
  | .threadStart via page t => Sys2Proof.Machine.execThreadStart via page t s
  | .threadHalt via page t => Sys2Proof.Machine.execThreadHalt via page t s
  | .threadResume via page t => Sys2Proof.Machine.execThreadResume via page t s
  | .threadSkip via page t => Sys2Proof.Machine.execThreadSkip via page t s
  | .threadReset via page t => Sys2Proof.Machine.execThreadReset via page t s
  | .icacheInvalidate via p => Sys2Proof.Machine.execIcacheInvalidate via p s
  | .icacheFill t => Sys2Proof.Machine.execIcacheFill t s
  | .watchEnable via w mode part => Sys2Proof.Machine.execWatchEnable via w mode part s
  | .watchDisable via w mode part => Sys2Proof.Machine.execWatchDisable via w mode part s
  | .watchArmed w host => Sys2Proof.Machine.execWatchArmed w host s
  | .watchEvaluate w => Sys2Proof.Machine.execWatchEvaluate w s
  | .watchDeadline w => Sys2Proof.Machine.execWatchDeadline w s
  | .snpInv h line => Sys2Proof.Machine.execSnpInv h line s
  | .snpData h line => Sys2Proof.Machine.execSnpData h line s
  | .snpCur h line => Sys2Proof.Machine.execSnpCur h line s
  | .watchRereadData w host => Sys2Proof.Machine.execWatchRereadData w host s
  | .nop t f => Sys2Proof.Machine.execNop t f s
  | .br t f => Sys2Proof.Machine.execBr t f s
  | .jal t f => Sys2Proof.Machine.execJal t f s
  | .jr t f => Sys2Proof.Machine.execJr t f s
  | .halt t f => Sys2Proof.Machine.execHalt t f s
  | .trap t f => Sys2Proof.Machine.execTrap t f s
  | .tret t f => Sys2Proof.Machine.execTret t f s
  | .waitT t f => Sys2Proof.Machine.execWaitT t f s
  | .waitTWake t => Sys2Proof.Machine.execWaitTWake t s
  | .waitW t f => Sys2Proof.Machine.execWaitW t f s
  | .csrr t f => Sys2Proof.Machine.execCsrr t f s
  | .chk t f => Sys2Proof.Machine.execChk t f s
  | .add t f => Sys2Proof.Machine.execAdd t f s
  | .sub t f => Sys2Proof.Machine.execSub t f s
  | .and t f => Sys2Proof.Machine.execAnd t f s
  | .or t f => Sys2Proof.Machine.execOr t f s
  | .xor t f => Sys2Proof.Machine.execXor t f s
  | .shl t f => Sys2Proof.Machine.execShl t f s
  | .shr t f => Sys2Proof.Machine.execShr t f s
  | .sar t f => Sys2Proof.Machine.execSar t f s
  | .mul t f => Sys2Proof.Machine.execMul t f s
  | .mulhu t f => Sys2Proof.Machine.execMulhu t f s
  | .mins t f => Sys2Proof.Machine.execMins t f s
  | .maxs t f => Sys2Proof.Machine.execMaxs t f s
  | .minu t f => Sys2Proof.Machine.execMinu t f s
  | .maxu t f => Sys2Proof.Machine.execMaxu t f s
  | .sel t f => Sys2Proof.Machine.execSel t f s
  | .cmp t f => Sys2Proof.Machine.execCmp t f s
  | .addi t f => Sys2Proof.Machine.execAddi t f s
  | .andi t f => Sys2Proof.Machine.execAndi t f s
  | .ori t f => Sys2Proof.Machine.execOri t f s
  | .xori t f => Sys2Proof.Machine.execXori t f s
  | .shli t f => Sys2Proof.Machine.execShli t f s
  | .shri t f => Sys2Proof.Machine.execShri t f s
  | .sari t f => Sys2Proof.Machine.execSari t f s
  | .movi t f => Sys2Proof.Machine.execMovi t f s
  | .movhi t f => Sys2Proof.Machine.execMovhi t f s
  | .cmpi t f => Sys2Proof.Machine.execCmpi t f s
  | .plog t f => Sys2Proof.Machine.execPlog t f s
  | .crc32c t f => Sys2Proof.Machine.execCrc32c t f s
  | .wbuf t f => Sys2Proof.Machine.execWbuf t f s
  | .wbufL t f => Sys2Proof.Machine.execWbufL t f s
  | .ld t f => Sys2Proof.Machine.execLd t f s
  | .st t f => Sys2Proof.Machine.execSt t f s
  | .ldL t f => Sys2Proof.Machine.execLdL t f s
  | .stL t f => Sys2Proof.Machine.execStL t f s
  | .atom t f => Sys2Proof.Machine.execAtom t f s
  | .red t f => Sys2Proof.Machine.execRed t f s
  | .resolve t f => Sys2Proof.Machine.execResolve t f s
  | .fence t f => Sys2Proof.Machine.execFence t f s
  | .invl t f => Sys2Proof.Machine.execInvl t f s
  | .ownAcq t f => Sys2Proof.Machine.execOwnAcq t f s
  | .ownRel t f => Sys2Proof.Machine.execOwnRel t f s
  | .skdQ t f => Sys2Proof.Machine.execSkdQ t f s
  | .krn t f => Sys2Proof.Machine.execKrn t f s
  | .coll t f => Sys2Proof.Machine.execColl t f s
  | .collBatch t f => Sys2Proof.Machine.execCollBatch t f s
  | .rsv t f => Sys2Proof.Machine.execRsv t f s
  | .hpoll t f => Sys2Proof.Machine.execHpoll t f s
  | .hwait t f => Sys2Proof.Machine.execHwait t f s
  | .lpSet t f => Sys2Proof.Machine.execLpSet t f s
  | .engineDescriptorReadDone op hs => Sys2Proof.Machine.execEngineDescriptorReadDone op hs s
  | .pageWalk t fva acc => Sys2Proof.Machine.execPageWalk t fva acc s
  | .tlbInvalidate via p scope drain => Sys2Proof.Machine.execTlbInvalidate via p scope drain s
  | .xltRetry via k => Sys2Proof.Machine.execXltRetry via k s
  | .xltAbort via k => Sys2Proof.Machine.execXltAbort via k s
  | .migHoldExpire key => Sys2Proof.Machine.execMigHoldExpire key s
  | .sieveRead via => Sys2Proof.Machine.execSieveRead via s
  | .sieveWrite via => Sys2Proof.Machine.execSieveWrite via s
  | .sieveAccessDone => Sys2Proof.Machine.execSieveAccessDone s
  | .sieveProbe via key => Sys2Proof.Machine.execSieveProbe via key s
  | .sievePartWrite via p v => Sys2Proof.Machine.execSievePartWrite via p v s
  | .sieveSweepDone p => Sys2Proof.Machine.execSieveSweepDone p s
  | .ledgerRead via => Sys2Proof.Machine.execLedgerRead via s
  | .packetReceive c p hcrc trailer flagged => Sys2Proof.Machine.execPacketReceive c p hcrc trailer flagged s
  | .packetSend c => Sys2Proof.Machine.execPacketSend c s
  | .packetAgeExpire => Sys2Proof.Machine.execPacketAgeExpire s
  | .pathHoldExpire => Sys2Proof.Machine.execPathHoldExpire s
  | .groupHoldExpire => Sys2Proof.Machine.execGroupHoldExpire s
  | .channelJoin c => Sys2Proof.Machine.execChannelJoin c s
  | .creditBlock c ack next freed => Sys2Proof.Machine.execCreditBlock c ack next freed s
  | .nakBlock c expect _reason => Sys2Proof.Machine.execNakBlock c expect _reason s
  | .replayBlock c seq => Sys2Proof.Machine.execReplayBlock c seq s
  | .identBlock c b => Sys2Proof.Machine.execIdentBlock c b s
  | .leaveBlock c feid reason _tick => Sys2Proof.Machine.execLeaveBlock c feid reason _tick s
  | .idleBlock x => Sys2Proof.Machine.execIdleBlock x s
  | .eiBlock c => Sys2Proof.Machine.execEiBlock c s
  | .nakRepeat c => Sys2Proof.Machine.execNakRepeat c s
  | .silentPeerTimeout c => Sys2Proof.Machine.execSilentPeerTimeout c s
  | .readRequest p e => Sys2Proof.Machine.execReadRequest p e s
  | .writeRequest p => Sys2Proof.Machine.execWriteRequest p s
  | .atomRequest p fail => Sys2Proof.Machine.execAtomRequest p fail s
  | .redRequest p fail => Sys2Proof.Machine.execRedRequest p fail s
  | .breadRequest p e => Sys2Proof.Machine.execBreadRequest p e s
  | .bwriteRequest p => Sys2Proof.Machine.execBwriteRequest p s
  | .invlRequest p => Sys2Proof.Machine.execInvlRequest p s
  | .invRequest p => Sys2Proof.Machine.execInvRequest p s
  | .sharerAck p => Sys2Proof.Machine.execSharerAck p s
  | .ownAcqRequest p => Sys2Proof.Machine.execOwnAcqRequest p s
  | .ownRelRequest p => Sys2Proof.Machine.execOwnRelRequest p s
  | .wbRequest p => Sys2Proof.Machine.execWbRequest p s
  | .mcopyRequest p => Sys2Proof.Machine.execMcopyRequest p s
  | .matomRequest p => Sys2Proof.Machine.execMatomRequest p s
  | .mirrorAck p => Sys2Proof.Machine.execMirrorAck p s
  | .rsp p => Sys2Proof.Machine.execRsp p s
  | .rspData p cacheable => Sys2Proof.Machine.execRspData p cacheable s
  | .rspAtom p => Sys2Proof.Machine.execRspAtom p s
  | .requestTimeout x => Sys2Proof.Machine.execRequestTimeout x s
  | .atomicRetransmit key => Sys2Proof.Machine.execAtomicRetransmit key s
  | .hostFlushRead h => Sys2Proof.Machine.execHostFlushRead h s
  | .hostFlushCompletion h a => Sys2Proof.Machine.execHostFlushCompletion h a s
  | .hostCompletion h hpa a => Sys2Proof.Machine.execHostCompletion h hpa a s
  | .hostCompletionTimeout h flush hpa => Sys2Proof.Machine.execHostCompletionTimeout h flush hpa s
  | .skidderDescriptorStart k => Sys2Proof.Machine.execSkidderDescriptorStart k s
  | .skidderLineIssue k => Sys2Proof.Machine.execSkidderLineIssue k s
  | .blockTransferComplete k => Sys2Proof.Machine.execBlockTransferComplete k s
  | .kernelStart k => Sys2Proof.Machine.execKernelStart k s
  | .workItemDone k run hs => Sys2Proof.Machine.execWorkItemDone k run hs s
  | .kernelComplete pos hs => Sys2Proof.Machine.execKernelComplete pos hs s
  | .cellRetireWrite via a v => Sys2Proof.Machine.execCellRetireWrite via a v s
  | .spareReplaceGo via k => Sys2Proof.Machine.execSpareReplaceGo via k s
  | .spareReplacementDone => Sys2Proof.Machine.execSpareReplacementDone s
  | .kernelSlotMove k => Sys2Proof.Machine.execKernelSlotMove k s
  | .ladleQuantum k => Sys2Proof.Machine.execLadleQuantum k s
  | .reservationGrant p cid => Sys2Proof.Machine.execReservationGrant p cid s
  | .reservationWithdraw p cid => Sys2Proof.Machine.execReservationWithdraw p cid s
  | .rsvExpire p cid => Sys2Proof.Machine.execRsvExpire p cid s
  | .joinMessage p => Sys2Proof.Machine.execJoinMessage p s
  | .joinTimeout p cid => Sys2Proof.Machine.execJoinTimeout p cid s
  | .readyMessage p => Sys2Proof.Machine.execReadyMessage p s
  | .agreedStepStart p cid x => Sys2Proof.Machine.execAgreedStepStart p cid x s
  | .phaseStart p cid x => Sys2Proof.Machine.execPhaseStart p cid x s
  | .collPacket p run hs => Sys2Proof.Machine.execCollPacket p run hs s
  | .xchgPacket p hs => Sys2Proof.Machine.execXchgPacket p hs s
  | .xdoneMessage p => Sys2Proof.Machine.execXdoneMessage p s
  | .abortMessage p => Sys2Proof.Machine.execAbortMessage p s
  | .collectiveStall p cid => Sys2Proof.Machine.execCollectiveStall p cid s
  | .abortComplete p cid => Sys2Proof.Machine.execAbortComplete p cid s
  | .collectiveComplete p cid hs => Sys2Proof.Machine.execCollectiveComplete p cid hs s
  | .abortRecordExpire p cid => Sys2Proof.Machine.execAbortRecordExpire p cid s
  | .xchgFamilyChange => Sys2Proof.Machine.execXchgFamilyChange s
  | .planSwitchRequest via plan tick => Sys2Proof.Machine.execPlanSwitchRequest via plan tick s
  | .planSwitchStart => Sys2Proof.Machine.execPlanSwitchStart s
  | .switchRetune => Sys2Proof.Machine.execSwitchRetune s
  | .switchFineSearch steps => Sys2Proof.Machine.execSwitchFineSearch steps s
  | .switchAcquire => Sys2Proof.Machine.execSwitchAcquire s
  | .switchComplete => Sys2Proof.Machine.execSwitchComplete s
  | .ringLockWindow c drop err power => Sys2Proof.Machine.execRingLockWindow c drop err power s
  | .pilotCheck c txBest txLead rxBest rxLead => Sys2Proof.Machine.execPilotCheck c txBest txLead rxBest rxLead s
  | .ringSweepDone c drop codes found fine => Sys2Proof.Machine.execRingSweepDone c drop codes found fine s
  | .verifyTimeout c => Sys2Proof.Machine.execVerifyTimeout c s
  | .opticalLos c p1 p2 => Sys2Proof.Machine.execOpticalLos c p1 p2 s
  | .lightReturn c low => Sys2Proof.Machine.execLightReturn c low s
  | .laserPowerWindow b k power => Sys2Proof.Machine.execLaserPowerWindow b k power s
  | .spareSourceReady b => Sys2Proof.Machine.execSpareSourceReady b s
  | .spareWarmTimeout b => Sys2Proof.Machine.execSpareWarmTimeout b s
  | .darkNotice p => Sys2Proof.Machine.execDarkNotice p s
  | .darkAck p => Sys2Proof.Machine.execDarkAck p s
  | .darkAckDeadline => Sys2Proof.Machine.execDarkAckDeadline s
  | .darkWindow => Sys2Proof.Machine.execDarkWindow s
  | .darkWindowEnd => Sys2Proof.Machine.execDarkWindowEnd s
  | .marginTestGo via engines lanes start => Sys2Proof.Machine.execMarginTestGo via engines lanes start s
  | .marginTestStart => Sys2Proof.Machine.execMarginTestStart s
  | .marginTestDone c m => Sys2Proof.Machine.execMarginTestDone c m s
  | .marginCommit via => Sys2Proof.Machine.execMarginCommit via s
  | .laneRelock via c => Sys2Proof.Machine.execLaneRelock via c s
  | .laneFail via c => Sys2Proof.Machine.execLaneFail via c s
  | .optLaneTestWrite via c v => Sys2Proof.Machine.execOptLaneTestWrite via c v s
  | .optCntSrcWrite via k v => Sys2Proof.Machine.execOptCntSrcWrite via k v s
  | .optInjectGo via c kind len count interval => Sys2Proof.Machine.execOptInjectGo via c kind len count interval s
  | .injectRepeat key => Sys2Proof.Machine.execInjectRepeat key s
  | .laneLock key => Sys2Proof.Machine.execLaneLock key s
  | .laneLockLoss key => Sys2Proof.Machine.execLaneLockLoss key s
  | .electricalLos l => Sys2Proof.Machine.execElectricalLos l s
  | .trainingFrame key word inverted ready => Sys2Proof.Machine.execTrainingFrame key word inverted ready s
  | .trainingStageLimit key => Sys2Proof.Machine.execTrainingStageLimit key s
  | .portTrainingDone m => Sys2Proof.Machine.execPortTrainingDone m s
  | .trainingRetry m => Sys2Proof.Machine.execTrainingRetry m s
  | .idleEnter m => Sys2Proof.Machine.execIdleEnter m s
  | .idleExit m => Sys2Proof.Machine.execIdleExit m s
  | .skoisSleep m => Sys2Proof.Machine.execSkoisSleep m s
  | .portRetrain via m => Sys2Proof.Machine.execPortRetrain via m s
  | .laneRejoin m => Sys2Proof.Machine.execLaneRejoin m s
  | .elkLaneTestWrite via l v => Sys2Proof.Machine.execElkLaneTestWrite via l v s
  | .elkCntSrcWrite via v => Sys2Proof.Machine.execElkCntSrcWrite via v s
  | .elkInjectGo via l kind len count interval => Sys2Proof.Machine.execElkInjectGo via l kind len count interval s
  | .mmWindowRead h hpa e => Sys2Proof.Machine.execMmWindowRead h hpa e s
  | .mmWindowWrite h hpa first count data pz => Sys2Proof.Machine.execMmWindowWrite h hpa first count data pz s
  | .fwWindowRead h hpa => Sys2Proof.Machine.execFwWindowRead h hpa s
  | .fwWindowWrite h hpa first count data pz => Sys2Proof.Machine.execFwWindowWrite h hpa first count data pz s
  | .hostFence via h token go => Sys2Proof.Machine.execHostFence via h token go s
  | .hostPortReset h k => Sys2Proof.Machine.execHostPortReset h k s
  | .hostLinkTrain h rate width => Sys2Proof.Machine.execHostLinkTrain h rate width s
  | .configRequest h c => Sys2Proof.Machine.execConfigRequest h c s
  | .getVersion h => Sys2Proof.Machine.execGetVersion h s
  | .getCapabilities h => Sys2Proof.Machine.execGetCapabilities h s
  | .negotiateAlgorithms h sign kem hash aead => Sys2Proof.Machine.execNegotiateAlgorithms h sign kem hash aead s
  | .getDigests h => Sys2Proof.Machine.execGetDigests h s
  | .getCertificate h slot off len => Sys2Proof.Machine.execGetCertificate h slot off len s
  | .challenge h slot => Sys2Proof.Machine.execChallenge h slot s
  | .getMeasurements h index sign => Sys2Proof.Machine.execGetMeasurements h index sign s
  | .keyExchange h mauth psk => Sys2Proof.Machine.execKeyExchange h mauth psk s
  | .finish h => Sys2Proof.Machine.execFinish h s
  | .heartbeat h => Sys2Proof.Machine.execHeartbeat h s
  | .endSession h => Sys2Proof.Machine.execEndSession h s
  | .chunkSend h seq whole => Sys2Proof.Machine.execChunkSend h seq whole s
  | .chunkGet h seq => Sys2Proof.Machine.execChunkGet h seq s
  | .vendorDefinedRequest h standard vendor code part nonce => Sys2Proof.Machine.execVendorDefinedRequest h standard vendor code part nonce s
  | .partEnable via p => Sys2Proof.Machine.execPartEnable via p s
  | .partSeal via p => Sys2Proof.Machine.execPartSeal via p s
  | .sealComplete p => Sys2Proof.Machine.execSealComplete p s
  | .partReset via p tick => Sys2Proof.Machine.execPartReset via p tick s
  | .partDisable via p tick => Sys2Proof.Machine.execPartDisable via p tick s
  | .partitionReset p => Sys2Proof.Machine.execPartitionReset p s
  | .partitionResetDone p => Sys2Proof.Machine.execPartitionResetDone p s
  | .rangeAdd via j secret p base size => Sys2Proof.Machine.execRangeAdd via j secret p base size s
  | .rangeRemove via j => Sys2Proof.Machine.execRangeRemove via j s
  | .scrubDone j => Sys2Proof.Machine.execScrubDone j s
  | .keyUnwrap via p slot src => Sys2Proof.Machine.execKeyUnwrap via p slot src s
  | .unwrapDone => Sys2Proof.Machine.execUnwrapDone s
  | .keyClear via p slot => Sys2Proof.Machine.execKeyClear via p slot s
  | .quoteGo via p dst => Sys2Proof.Machine.execQuoteGo via p dst s
  | .quoteDone => Sys2Proof.Machine.execQuoteDone s
  | .loadGo via range slot first count token => Sys2Proof.Machine.execLoadGo via range slot first count token s
  | .chunkDone e => Sys2Proof.Machine.execChunkDone e s
  | .debugOpen via => Sys2Proof.Machine.execDebugOpen via s
  | .debugClose via => Sys2Proof.Machine.execDebugClose via s
  | .debugEpochWriteDone ok => Sys2Proof.Machine.execDebugEpochWriteDone ok s
  | .patrolScrub e => Sys2Proof.Machine.execPatrolScrub e s
  | .sramUncorrectable x => Sys2Proof.Machine.execSramUncorrectable x s
  | .ledgerSetLostExpire n => Sys2Proof.Machine.execLedgerSetLostExpire n s
  | .iddaumLockstepRestart => Sys2Proof.Machine.execIddaumLockstepRestart s
  | .trayPresentDeassert => Sys2Proof.Machine.execTrayPresentDeassert s
  | .trayDrainEnd => Sys2Proof.Machine.execTrayDrainEnd s
  | .logRead via poison j => Sys2Proof.Machine.execLogRead via poison j s
  | .inputUndervoltage => Sys2Proof.Machine.execInputUndervoltage s
  | .inputPowerLoss => Sys2Proof.Machine.execInputPowerLoss s
  | .inputOvervoltage => Sys2Proof.Machine.execInputOvervoltage s
  | .emergencyShedStart => Sys2Proof.Machine.execEmergencyShedStart s
  | .emergencyShedEnd => Sys2Proof.Machine.execEmergencyShedEnd s
  | .temperatureHot => Sys2Proof.Machine.execTemperatureHot s
  | .temperatureCool => Sys2Proof.Machine.execTemperatureCool s
  | .thermalShutdown => Sys2Proof.Machine.execThermalShutdown s
  | .i3cEntdaa a => Sys2Proof.Machine.execI3cEntdaa a s
  | .i3cPowerRead => Sys2Proof.Machine.execI3cPowerRead s
  | .i3cCapWrite v => Sys2Proof.Machine.execI3cCapWrite v s
  | .mgmtDatagramRead src seq off => Sys2Proof.Machine.execMgmtDatagramRead src seq off s
  | .mgmtDatagramWrite src seq off v => Sys2Proof.Machine.execMgmtDatagramWrite src seq off v s
  | .powerGood => Sys2Proof.Machine.execPowerGood s
  | .resetNAssert cycles => Sys2Proof.Machine.execResetNAssert cycles s
  | .warmReset via key => Sys2Proof.Machine.execWarmReset via key s
  | .skidderReset via key k => Sys2Proof.Machine.execSkidderReset via key k s
  | .settingsProgram via src => Sys2Proof.Machine.execSettingsProgram via src s
  | .programDone => Sys2Proof.Machine.execProgramDone s
  | .fwSwap via => Sys2Proof.Machine.execFwSwap via s
  | .fwSwapDone => Sys2Proof.Machine.execFwSwapDone s
  | .cruiseC0Regulators => Sys2Proof.Machine.execCruiseC0Regulators s
  | .cruiseC1SettingsLoad => Sys2Proof.Machine.execCruiseC1SettingsLoad s
  | .cruiseC2Training => Sys2Proof.Machine.execCruiseC2Training s
  | .cruiseC3Optics powers => Sys2Proof.Machine.execCruiseC3Optics powers s
  | .cruiseC4Links => Sys2Proof.Machine.execCruiseC4Links s
  | .cruiseC5Election => Sys2Proof.Machine.execCruiseC5Election s
  | .cruiseC6MapFlood => Sys2Proof.Machine.execCruiseC6MapFlood s
  | .mapMessage p => Sys2Proof.Machine.execMapMessage p s
  | .mapQuiet => Sys2Proof.Machine.execMapQuiet s
  | .cruiseC7Routes => Sys2Proof.Machine.execCruiseC7Routes s
  | .cruiseC8Ready => Sys2Proof.Machine.execCruiseC8Ready s
  | .mgmtReady p => Sys2Proof.Machine.execMgmtReady p s
  | .cruisePhaseLimit => Sys2Proof.Machine.execCruisePhaseLimit s
  | .autoroute => Sys2Proof.Machine.execAutoroute s
  | .counterBlock => Sys2Proof.Machine.execCounterBlock s
  | .snapGo via => Sys2Proof.Machine.execSnapGo via s
  | .traceSplitWrite via units => Sys2Proof.Machine.execTraceSplitWrite via units s
  | .traceRun via v => Sys2Proof.Machine.execTraceRun via v s
  | .traceArmedStart => Sys2Proof.Machine.execTraceArmedStart s
  | .debugLineRead via => Sys2Proof.Machine.execDebugLineRead via s
  | .debugLineWrite via => Sys2Proof.Machine.execDebugLineWrite via s
  | .accumulatorRead via k c a j => Sys2Proof.Machine.execAccumulatorRead via k c a j s
  | .extest => Sys2Proof.Machine.execExtest s
  | .idcode => Sys2Proof.Machine.execIdcode s
  | .sample pins => Sys2Proof.Machine.execSample pins s
  | .preload cells => Sys2Proof.Machine.execPreload cells s
  | .clamp => Sys2Proof.Machine.execClamp s
  | .highz => Sys2Proof.Machine.execHighz s
  | .extestPulse => Sys2Proof.Machine.execExtestPulse s
  | .extestTrain => Sys2Proof.Machine.execExtestTrain s
  | .csrAccess off write data => Sys2Proof.Machine.execCsrAccess off write data s
  | .secDebug => Sys2Proof.Machine.execSecDebug s
  | .bypass => Sys2Proof.Machine.execBypass s
  | .jtagTapReset => Sys2Proof.Machine.execJtagTapReset s
  | .patternCheckerLock key => Sys2Proof.Machine.execPatternCheckerLock key s
  | .patternCheckerRelock key => Sys2Proof.Machine.execPatternCheckerRelock key s
  | .badControlBlock x => Sys2Proof.Machine.execBadControlBlock x s
  | .hdmDecoderCommit h d base size iw ig => Sys2Proof.Machine.execHdmDecoderCommit h d base size iw ig s
  | .msixVectorUnmask h v => Sys2Proof.Machine.execMsixVectorUnmask h v s
  | .iddaumRestartDone => Sys2Proof.Machine.execIddaumRestartDone s
  | .undervoltageEnd => Sys2Proof.Machine.execUndervoltageEnd s
  | .schedulerBankFault k => Sys2Proof.Machine.execSchedulerBankFault k s

end Sys2Proof.Machine
end

