-- ==== Sys2Proof/Safety.lean ====
section
/-! DEFINITION. The terms that claims use: completion of a command, what a command may change, the canonical forms of memory and
registers. -/

namespace Sys2Proof.Machine

open Sys2Proof

/-- HBM in canonical form: addresses rise strictly and no entry is the value that an unlisted byte reads as (R374). -/
abbrev Memory.wf (m : FMap Byte) : Bool := FMap.wf byteDefault m

/-- The register file in canonical form. -/
abbrev Registers.wf (m : FMap Word) : Bool := FMap.wf regDefault m

/-- Command `c` completes in state `s`, in a next state of which `P` holds. -/
def Completes (c : Instr) (s : State) (P : State → Prop) : Prop := ∃ t, exec c s = .next t ∧ P t

/-- Two register fields that share no bit. -/
def Field.Apart (f g : Field) : Prop := f.off ≠ g.off ∨ f.lo + f.w ≤ g.lo ∨ g.lo + g.w ≤ f.lo

/-- No register field changes but those listed. -/
def OnlyFields (fs : List Field) (s t : State) : Prop := ∀ g : Field, (∀ f ∈ fs, Field.Apart g f) → t.fld g = s.fld g

/-- No byte of HBM changes. -/
def SameMemory (s t : State) : Prop := ∀ a, t.byte a = s.byte a

/-- Only registers change, and of them only the fields listed. -/
def OnlyRegisters (fs : List Field) (s t : State) : Prop := t = { s with regs := t.regs } ∧ OnlyFields fs s t

/-- Only thread `th` changes, with the register fields listed and the counts of telemetry. -/
def OnlyThread (th : Nat) (fs : List Field) (s t : State) : Prop :=
  t = { s with regs := t.regs, threads := t.threads, tel := t.tel } ∧ (∀ u, u ≠ th → t.thr u = s.thr u) ∧ OnlyFields fs s t
    ∧ SameMemory s t

/-- Thread `th` issues the instruction `f` of opcode `opc`, which needs no register that is pending: it is RUNNABLE, holds no
status trap, finds this word at its PC in its instruction cache, and its guard is 1 (R61, R225 to R227, R232). -/
abbrev Issues (s : State) (th : ThreadNo) (opc : Nat) (f : Insn) (need : BitVec 32) : Prop :=
  s.tstate th = stRunnable ∧ (s.thr th).held = none ∧ s.fetchedWord th = some (f.word opc) ∧ (s.thr th).guard f = true
    ∧ (s.thr th).pend &&& need = 0

end Sys2Proof.Machine
end

