-- ==== Sys2Proof/Certificates/Slice0/Obligations.lean ====
section
/-! DEFINITION. The statements for the provers: what a step does, what every command does where it has its own effect, what the
rules of the spec say of the block, and the invariants that every step keeps. -/

open Sys2Proof Sys2Proof.Machine

/-! ## Steps -/

/-- A step takes the command at the front of the queue and runs it on the state with the rest of the queue; with no command
waiting one block slot passes on the lanes of the channels that are on, and nothing happens where none is (log entries 6 and 66, the
model's choice). -/
def Obligations.StepRunsFront : Prop :=
  (∀ (c : Instr) (q : List Instr) (s : State), step { s with pending := c :: q } = exec c { s with pending := q }) ∧
  (∀ s : State, s.pending = [] → step s = .next s.lineSlot) ∧
  (∀ s : State, s.pending = [] → (∀ c < 262, s.lineOn c = false) → step s = .next s)

/-- No command stops the machine: every command answers a next state in every state. -/
def Obligations.EveryCommandCompletes : Prop := ∀ (c : Instr) (s : State), ∃ t, exec c s = .next t

/-! ## Disil: encoding checks, guards, scalar and control instructions (chapter 10) -/

namespace Sys2Proof.Machine

/-- A Disil instruction: constructor, opcode, and when R228 refuses the fields in this state. -/
abbrev DisilRow : Type := (ThreadNo → Insn → Instr) × Nat × (State → ThreadNo → Insn → Bool)

/-- Control, CSR and waiting (Table 10.3). -/
def disilControl : List DisilRow :=
  let all : BitVec 32 := 0xFFFFFFFF
  [(.nop, 0x00, fun _ _ f => f.malformed {}), (.br, 0x01, fun _ _ f => f.malformed { imm := all }),
   (.jal, 0x02, fun _ _ f => f.malformed { d := true, imm := all }), (.jr, 0x03, fun _ _ f => f.malformed { a := true }),
   (.halt, 0x04, fun _ _ f => f.malformed {}), (.trap, 0x05, fun _ _ f => f.malformed { imm := all }),
   (.tret, 0x06, fun s t f => f.malformed { imm := 1 } || !s.flag (R.SEQ_THREAD_STATUS.HANDLER t)),
   (.waitT, 0x07, fun _ _ f => f.malformed { a := true, imm := all }),
   (.waitW, 0x08, fun _ _ f => f.malformed { a := true, b := true, st := true }),
   (.csrr, 0x09, fun _ _ f => f.malformed { d := true, imm := 0xFF } || decide (11 < f.imm.toNat % 256)),
   (.chk, 0x0A, fun _ _ f => f.malformed { imm := 7 } || decide (4 < f.imm.toNat % 8))]

/-- Two-source scalar instructions, SEL and CMP (Table 10.3). -/
def disilScalar : List DisilRow :=
  let three : Uses := { d := true, a := true, b := true }
  [(.add, 0x10, fun _ _ f => f.malformed three), (.sub, 0x11, fun _ _ f => f.malformed three),
   (.and, 0x12, fun _ _ f => f.malformed three), (.or, 0x13, fun _ _ f => f.malformed three),
   (.xor, 0x14, fun _ _ f => f.malformed three), (.shl, 0x15, fun _ _ f => f.malformed three),
   (.shr, 0x16, fun _ _ f => f.malformed three), (.sar, 0x17, fun _ _ f => f.malformed three),
   (.mul, 0x18, fun _ _ f => f.malformed three), (.mulhu, 0x19, fun _ _ f => f.malformed three),
   (.mins, 0x1A, fun _ _ f => f.malformed three), (.maxs, 0x1B, fun _ _ f => f.malformed three),
   (.minu, 0x1C, fun _ _ f => f.malformed three), (.maxu, 0x1D, fun _ _ f => f.malformed three),
   (.sel, 0x1E, fun _ _ f => f.malformed { three with imm := 7 }),
   (.cmp, 0x1F, fun _ _ f => f.malformed { a := true, b := true, imm := 0x77 } || getBits f.imm.toNat 4 3 == 7)]

/-- Immediate scalar instructions, CRC32C and WBUF (Table 10.3). -/
def disilImmediate : List DisilRow :=
  let three : Uses := { d := true, a := true, b := true }
  let two : Uses := { d := true, a := true }
  let all : BitVec 32 := 0xFFFFFFFF
  [(.addi, 0x20, fun _ _ f => f.malformed { two with imm := all }), (.andi, 0x21, fun _ _ f => f.malformed { two with imm := all }),
   (.ori, 0x22, fun _ _ f => f.malformed { two with imm := all }), (.xori, 0x23, fun _ _ f => f.malformed { two with imm := all }),
   (.shli, 0x24, fun _ _ f => f.malformed { two with imm := 0x3F }), (.shri, 0x25, fun _ _ f => f.malformed { two with imm := 0x3F }),
   (.sari, 0x26, fun _ _ f => f.malformed { two with imm := 0x3F }),
   (.movi, 0x27, fun _ _ f => f.malformed { d := true, imm := all }), (.movhi, 0x28, fun _ _ f => f.malformed { d := true, imm := all }),
   (.cmpi, 0x29, fun _ _ f => f.malformed { a := true, imm := 0xFFFFFF77 } || getBits f.imm.toNat 4 3 == 7),
   (.plog, 0x2A, fun _ _ f => f.malformed { imm := 0x7FF }),
   (.crc32c, 0x2B, fun _ _ f => f.malformed { three with imm := 0xF } || !decide (1 ≤ f.imm.toNat % 16 ∧ f.imm.toNat % 16 ≤ 8)),
   (.wbuf, 0x2C, fun _ _ f => f.malformed { d := true, imm := 7 }),
   (.wbufL, 0x2D, fun _ _ f => f.malformed { d := true } || badGroup f.d)]

/-- Fabric instructions (Table 10.3). -/
def disilFabric : List DisilRow :=
  let three : Uses := { d := true, a := true, b := true }
  let two : Uses := { d := true, a := true }
  [(.ld, 0x40, fun _ _ f => f.malformed { two with st := true, imm := 0x87FFFFFF } || f.clash false),
   (.st, 0x41, fun _ _ f => f.malformed { a := true, b := true, st := true, imm := 0x83FFFFFF }),
   (.ldL, 0x42, fun _ _ f => f.malformed { two with st := true, imm := 0x80FFFFFF } || badGroup f.d || f.clash true),
   (.stL, 0x43, fun _ _ f => f.malformed { a := true, b := true, st := true, imm := 0x80FFFFFF } || badGroup f.b),
   (.atom, 0x44, fun _ _ f => f.malformed { three with st := true, imm := 0x800000FF } || f.clash false
      || !atomListed (getBits f.imm.toNat 0 4) (getBits f.imm.toNat 4 4)),
   (.red, 0x45, fun _ _ f => f.malformed { a := true, b := true, st := true, imm := 0x80007FF3 } || badGroup f.b
      || decide (getBits f.imm.toNat 8 7 < 2) || f.imm.toNat % 4 == 3 || !redListed (getBits f.imm.toNat 4 4)),
   (.resolve, 0x46, fun _ _ f => f.malformed { three with st := true, imm := 0x1F } || f.clash false
      || !([3, 4, 5, 6, 11, 12].contains (f.imm.toNat % 32))),
   (.fence, 0x47, fun _ _ f => f.malformed { imm := 1 }),
   (.invl, 0x48, fun _ _ f => f.malformed { a := true, st := true, imm := 0x80000001 }),
   (.ownAcq, 0x49, fun _ _ f => f.malformed { two with st := true, imm := 0x80000000 } || f.clash false),
   (.ownRel, 0x4A, fun _ _ f => f.malformed { two with st := true, imm := 0x80000000 } || f.clash false)]

/-- Engine, handle and plan instructions (Table 10.3). -/
def disilEngine : List DisilRow :=
  let two : Uses := { d := true, a := true }
  [(.skdQ, 0x50, fun _ _ f => f.engineBad true), (.krn, 0x51, fun _ _ f => f.engineBad false),
   (.coll, 0x52, fun _ _ f => f.engineBad false), (.collBatch, 0x53, fun _ _ f => f.engineBad true),
   (.rsv, 0x54, fun _ _ f => f.malformed { a := true, st := true }), (.hpoll, 0x55, fun _ _ f => f.malformed two),
   (.hwait, 0x56, fun _ _ f => f.malformed two), (.lpSet, 0x57, fun _ _ f => f.malformed { a := true, b := true, st := true })]

/-- The Disil instructions. -/
def disilRows : List DisilRow := disilControl ++ disilScalar ++ disilImmediate ++ disilFabric ++ disilEngine

/-- Thread `th` is RUNNABLE with no status trap to take, and the word at its PC in its instruction cache is `f` with this
opcode (R61, R232). -/
abbrev Fetches (s : State) (th : ThreadNo) (opc : Nat) (f : Insn) : Prop :=
  s.tstate th = stRunnable ∧ (s.thr th).held = none ∧ s.fetchedWord th = some (f.word opc)

/-- The two-source scalar instructions: constructor, opcode, result (R229, Table 10.4). -/
def aluRows : List ((ThreadNo → Insn → Instr) × Nat × (Word → Word → Word)) :=
  [(.add, 0x10, fun a b => a + b), (.sub, 0x11, fun a b => a - b), (.and, 0x12, fun a b => a &&& b),
   (.or, 0x13, fun a b => a ||| b), (.xor, 0x14, fun a b => a ^^^ b), (.shl, 0x15, fun a b => a <<< (b.toNat % 64)),
   (.shr, 0x16, fun a b => a >>> (b.toNat % 64)), (.sar, 0x17, fun a b => a.sshiftRight (b.toNat % 64)),
   (.mul, 0x18, fun a b => a * b), (.mulhu, 0x19, fun a b => BitVec.ofNat 64 (a.toNat * b.toNat / 2 ^ 64)),
   (.mins, 0x1A, fun a b => if a.toInt < b.toInt then a else b), (.maxs, 0x1B, fun a b => if a.toInt < b.toInt then b else a),
   (.minu, 0x1C, fun a b => if a.toNat < b.toNat then a else b), (.maxu, 0x1D, fun a b => if a.toNat < b.toNat then b else a)]

/-- The one-source scalar instructions: constructor, opcode, used bits of IMM, result from gA, the old gD and IMM (R229). -/
def immRows : List ((ThreadNo → Insn → Instr) × Nat × BitVec 32 × (Word → Insn → Word)) :=
  [(.addi, 0x20, 0xFFFFFFFF, fun a f => a + f.imm.signExtend 64), (.andi, 0x21, 0xFFFFFFFF, fun a f => a &&& f.imm.signExtend 64),
   (.ori, 0x22, 0xFFFFFFFF, fun a f => a ||| f.imm.signExtend 64), (.xori, 0x23, 0xFFFFFFFF, fun a f => a ^^^ f.imm.signExtend 64),
   (.shli, 0x24, 0x3F, fun a f => a <<< (f.imm.toNat % 64)), (.shri, 0x25, 0x3F, fun a f => a >>> (f.imm.toNat % 64)),
   (.sari, 0x26, 0x3F, fun a f => a.sshiftRight (f.imm.toNat % 64))]

/-- In `u` thread `th` is past its instruction in `s`, which wrote `v` to register `d` (a write to g0 is discarded); nothing else
of the thread and nothing else of the machine has changed, but for counts of telemetry (Table 17.1). -/
def WroteReg (s : State) (th : ThreadNo) (d : BitVec 5) (v : Word) (u : State) : Prop :=
  OnlyThread th [R.SEQ_THREAD_PC.PC th] s u ∧ u.pc th = (s.pc th + 8) % 2 ^ 57
    ∧ (∀ r, u.greg th r = if r = d ∧ r ≠ 0 then v else s.greg th r)
    ∧ u.thr th = { s.thr th with g := (u.thr th).g }

/-- The same for a predicate (p0 stays 1). -/
def WrotePred (s : State) (th : ThreadNo) (i : Nat) (v : Bool) (u : State) : Prop :=
  OnlyThread th [R.SEQ_THREAD_PC.PC th] s u ∧ u.pc th = (s.pc th + 8) % 2 ^ 57
    ∧ (∀ j < 8, (u.thr th).pred j = if j = i ∧ j ≠ 0 then v else (s.thr th).pred j)
    ∧ u.thr th = { s.thr th with p := (u.thr th).p }

/-- The PC alone has changed, to `pc` (57 bits, bits [2:0] at 0), beside counts of telemetry. -/
def Jumped (s : State) (th : ThreadNo) (pc : Nat) (u : State) : Prop :=
  OnlyThread th [R.SEQ_THREAD_PC.PC th] s u ∧ u.pc th = pc / 8 * 8 % 2 ^ 57 ∧ u.thr th = s.thr th

end Sys2Proof.Machine

/-- R227: an instruction whose guard is 0 goes by and does nothing but count as issued, unless its encoding is refused, in which
case it traps with ILLEGAL_OP and its word whatever the guard; the guard is p(PG) with PN = 0 and its inverse with PN = 1, always
1 with PG = 0 and PN = 0, and PG = 0 with PN = 1 is refused in every instruction. A word whose OPC Table 10.3 does not list has
no row of its own: it traps in the same way at the thread's issue, whichever row issues it (R228; the model's reading, log entry
12). -/
def Obligations.GuardedOff : Prop :=
  (∀ e ∈ disilRows, ∀ (th : ThreadNo) (f : Insn) (s : State), Fetches s th e.2.1 f →
    (e.2.2 s th f = true → exec (e.1 th f) s = .next (s.trap th 0x01 (f.word e.2.1))) ∧
    (e.2.2 s th f = false → (s.thr th).guard f = false → Completes (e.1 th f) s (Jumped s th (s.pc th + 8))) ∧
    (f.pg = 0 → f.pn = true → e.2.2 s th f = true)) ∧
  (∀ (x : Thread) (f : Insn), (f.pg = 0 → f.pn = false → x.guard f = true) ∧
    (x.guard f = if f.pn then !x.pred f.pg.toNat else x.pred f.pg.toNat)) ∧
  (∀ e ∈ disilRows, ∀ (th : ThreadNo) (f : Insn) (s : State) (w : Nat), s.tstate th = stRunnable → (s.thr th).held = none →
    s.fetchedWord th = some w → w % 256 ∉ disilRows.map (fun r => r.2.1) → exec (e.1 th f) s = .next (s.trap th 0x01 w))

/-- R229, two-source scalar instructions: gD receives the result of Table 10.4 and nothing else changes. -/
def Obligations.TwoSourceResults : Prop :=
  ∀ e ∈ aluRows, ∀ (th : ThreadNo) (f : Insn) (s : State),
    Issues s th e.2.1 f (regMask f.d ||| regMask f.a ||| regMask f.b) → f.malformed { d := true, a := true, b := true } = false →
    Completes (e.1 th f) s (WroteReg s th f.d (e.2.2 (s.greg th f.a) (s.greg th f.b)))

/-- R229, immediate scalar instructions, MOVI, MOVHI, SEL, CRC32C and WBUF: the result in gD, nothing else changed. -/
def Obligations.ImmediateResults : Prop :=
  (∀ e ∈ immRows, ∀ (th : ThreadNo) (f : Insn) (s : State),
    Issues s th e.2.1 f (regMask f.d ||| regMask f.a) → f.malformed { d := true, a := true, imm := e.2.2.1 } = false →
    Completes (e.1 th f) s (WroteReg s th f.d (e.2.2.2 (s.greg th f.a) f))) ∧
  (∀ (th : ThreadNo) (f : Insn) (s : State), Issues s th 0x27 f (regMask f.d) →
    f.malformed { d := true, imm := 0xFFFFFFFF } = false →
    Completes (.movi th f) s (WroteReg s th f.d (f.imm.signExtend 64))) ∧
  (∀ (th : ThreadNo) (f : Insn) (s : State), Issues s th 0x28 f (regMask f.d) →
    f.malformed { d := true, imm := 0xFFFFFFFF } = false →
    Completes (.movhi th f) s (WroteReg s th f.d (f.imm ++ (s.greg th f.d).setWidth 32 : BitVec 64))) ∧
  (∀ (th : ThreadNo) (f : Insn) (s : State), Issues s th 0x1E f (regMask f.d ||| regMask f.a ||| regMask f.b) →
    f.malformed { d := true, a := true, b := true, imm := 7 } = false →
    Completes (.sel th f) s (WroteReg s th f.d
      (if (s.thr th).pred (f.imm.toNat % 8) then s.greg th f.a else s.greg th f.b))) ∧
  (∀ (th : ThreadNo) (f : Insn) (s : State), Issues s th 0x2B f (regMask f.d ||| regMask f.a ||| regMask f.b) →
    f.malformed { d := true, a := true, b := true, imm := 0xF } = false → 1 ≤ f.imm.toNat % 16 → f.imm.toNat % 16 ≤ 8 →
    Completes (.crc32c th f) s (WroteReg s th f.d
      ((crc32cState ((s.greg th f.a).setWidth 32) (leBytes (f.imm.toNat % 16) (s.greg th f.b).toNat)).setWidth 64))) ∧
  (∀ (th : ThreadNo) (f : Insn) (s : State), Issues s th 0x2C f (regMask f.d) → f.malformed { d := true, imm := 7 } = false →
    Completes (.wbuf th f) s (WroteReg s th f.d ((s.thr th).wake.extractLsb' (64 * (f.imm.toNat % 8)) 64)))

/-- R229, predicates: CMP, CMPI and PLOG write one predicate; WBUF.L writes a whole line group. -/
def Obligations.PredicateResults : Prop :=
  (∀ (th : ThreadNo) (f : Insn) (s : State) (v : Bool), Issues s th 0x1F f (regMask f.a ||| regMask f.b) →
    f.malformed { a := true, b := true, imm := 0x77 } = false →
    cmpCond (getBits f.imm.toNat 4 3) (s.greg th f.a) (s.greg th f.b) = some v →
    Completes (.cmp th f) s (WrotePred s th (f.imm.toNat % 8) v)) ∧
  (∀ (th : ThreadNo) (f : Insn) (s : State) (v : Bool), Issues s th 0x29 f (regMask f.a) →
    f.malformed { a := true, imm := 0xFFFFFF77 } = false →
    cmpCond (getBits f.imm.toNat 4 3) (s.greg th f.a) ((f.imm.extractLsb' 8 24).signExtend 64) = some v →
    Completes (.cmpi th f) s (WrotePred s th (f.imm.toNat % 8) v)) ∧
  (∀ (th : ThreadNo) (f : Insn) (s : State), Issues s th 0x2A f 0 → f.malformed { imm := 0x7FF } = false →
    Completes (.plog th f) s (WrotePred s th (f.imm.toNat % 8)
      (let a := (s.thr th).pred (getBits f.imm.toNat 3 3)
       let b := (s.thr th).pred (getBits f.imm.toNat 6 3)
       match getBits f.imm.toNat 9 2 with
       | 0 => a && b
       | 1 => a || b
       | 2 => xor a b
       | _ => a && !b))) ∧
  (∀ (th : ThreadNo) (f : Insn) (s : State), Issues s th 0x2D f (groupMask f.d) → f.malformed { d := true } = false →
    badGroup f.d = false →
    Completes (.wbufL th f) s fun u => OnlyThread th [R.SEQ_THREAD_PC.PC th] s u ∧ u.pc th = (s.pc th + 8) % 2 ^ 57 ∧
      ∀ r : BitVec 5, u.greg th r = if r ≠ 0 ∧ r.toNat / 8 = f.d.toNat / 8 then
        (s.thr th).wake.extractLsb' (64 * (r.toNat % 8)) 64 else s.greg th r)

/-- R229, control: NOP, BR, JAL, JR; R250: CHK. A JR to an address outside the canonical FVAs faults as an XLATE_FAULT of the access
that fetches there (R70; that the jump itself faults is the model's reading, log entry 64). -/
def Obligations.JumpResults : Prop :=
  (∀ (th : ThreadNo) (f : Insn) (s : State), Issues s th 0x00 f 0 → f.malformed {} = false →
    Completes (.nop th f) s (Jumped s th (s.pc th + 8))) ∧
  (∀ (th : ThreadNo) (f : Insn) (s : State), Issues s th 0x01 f 0 → f.malformed { imm := 0xFFFFFFFF } = false →
    Completes (.br th f) s (Jumped s th (BitVec.ofNat 64 (s.pc th) + 8 * f.imm.signExtend 64).toNat)) ∧
  (∀ (th : ThreadNo) (f : Insn) (s : State), Issues s th 0x02 f (regMask f.d) →
    f.malformed { d := true, imm := 0xFFFFFFFF } = false →
    Completes (.jal th f) s fun u => OnlyThread th [R.SEQ_THREAD_PC.PC th] s u
      ∧ u.pc th = (BitVec.ofNat 64 (s.pc th) + 8 * f.imm.signExtend 64).toNat / 8 * 8 % 2 ^ 57
      ∧ ∀ r, u.greg th r = if r = f.d ∧ r ≠ 0 then BitVec.ofNat 64 (s.pc th + 8) else s.greg th r) ∧
  (∀ (th : ThreadNo) (f : Insn) (s : State), Issues s th 0x03 f (regMask f.a) → f.malformed { a := true } = false →
    ((s.greg th f.a).toNat < 2 ^ 57 → Completes (.jr th f) s (Jumped s th (s.greg th f.a).toNat)) ∧
    (2 ^ 57 ≤ (s.greg th f.a).toNat → exec (.jr th f) s =
      .next (s.countIssued (s.threadXlateFault th ⟨1, 7⟩ .load (s.greg th f.a).toNat) th))) ∧
  (∀ (th : ThreadNo) (f : Insn) (s : State), Issues s th 0x0A f 0 → f.malformed { imm := 7 } = false → f.imm.toNat % 8 ≤ 4 →
    Completes (.chk th f) s fun u => OnlyThread th [R.SEQ_THREAD_PC.PC th] s u ∧ u.pc th = (s.pc th + 8) % 2 ^ 57
      ∧ u.thr th = { s.thr th with chk := BitVec.ofNat 3 f.imm.toNat })

/-- R230: CSRR reads the values of Table 10.6 as they stand at issue; a number not in the table is reserved and traps. -/
def Obligations.CsrValues : Prop :=
  ∀ (th : ThreadNo) (f : Insn) (s : State), Issues s th 0x09 f (regMask f.d) → f.malformed { d := true, imm := 0xFF } = false →
    let n := f.imm.toNat % 256
    let reads (v : Word) := Completes (.csrr th f) s (WroteReg s th f.d v)
    (n = 0 → reads (s.reg R.GLB_TICK.adr)) ∧
    (n = 1 → reads (BitVec.ofNat 64 th)) ∧
    (n = 2 → reads (BitVec.ofNat 64 (s.fld (R.SEQ_THREAD_CFG.PART th)))) ∧
    (n = 3 → reads (BitVec.ofNat 64 (1024 * s.fld (R.SEQ_THREAD_CFG.PART th)
      + s.fld (R.PRT_STATUS.GEN (s.fld (R.SEQ_THREAD_CFG.PART th)))))) ∧
    (n = 4 → reads (BitVec.ofNat 64 (s.fld R.GLB_FEID.FEID))) ∧
    (n = 5 → reads (BitVec.ofNat 64 (s.fld (R.SEQ_THREAD_CFG.SKIDDER th)))) ∧
    (n = 6 → reads (s.thr th).trapPc) ∧ (n = 7 → reads (s.thr th).trapCause) ∧ (n = 8 → reads (s.thr th).trapInfo) ∧
    (n = 9 → reads (BitVec.ofNat 64 (s.thr th).chk.toNat)) ∧
    (n = 10 → Completes (.csrr th f) s fun u => ∃ v, WroteReg s th f.d v u ∧
      ∀ i < 64, v.getLsbD i = (decide (i < 16) && ((s.thr th).hand i).used)) ∧
    (n = 11 → reads (BitVec.ofNat 64 (s.fld (R.SEQ_THREAD_STATUS.OUTSTANDING th)))) ∧
    (12 ≤ n → exec (.csrr th f) s = .next (s.trap th 0x01 (f.word 0x09)))

/-- R253: TRAP raises SW_TRAP with INFO = IMM; at a handler TRAP_PC is the TRAP instruction itself. TRET clears HANDLER and goes on
at TRAP_PC (IMM[0] = 0) or TRAP_PC + 8; with IMM[31:1] not 0 it is refused. A status trap records as TRAP_PC the instruction that
has not issued. -/
def Obligations.TrapAndReturn : Prop :=
  (∀ (th : ThreadNo) (f : Insn) (s : State), Issues s th 0x05 f 0 → f.malformed { imm := 0xFFFFFFFF } = false →
    exec (.trap th f) s = .next ((s.trap th 0x06 f.imm.toNat).tally 1880) ∧
    (s.flag (R.SEQ_THREAD_STATUS.HANDLER th) = false → s.fld (R.SEQ_THREAD_TRAPVEC.VEC th) ≠ 0 →
      Completes (.trap th f) s fun u => u.flag (R.SEQ_THREAD_STATUS.HANDLER th) = true ∧ (u.thr th).trapPc = BitVec.ofNat 64 (s.pc th)
        ∧ (u.thr th).trapCause = 0x06 ∧ (u.thr th).trapInfo = f.imm.setWidth 64 ∧ u.tstate th = stRunnable
        ∧ u.pc th = 8 * s.fld (R.SEQ_THREAD_TRAPVEC.VEC th) ∧ u.fld (R.SEQ_THREAD_STATUS.CAUSE th) = 0x06
        ∧ (u.thr th).g = (s.thr th).g ∧ (u.thr th).p = (s.thr th).p)) ∧
  (∀ (th : ThreadNo) (f : Insn) (s : State), Issues s th 0x06 f 0 → s.flag (R.SEQ_THREAD_STATUS.HANDLER th) = true →
    f.malformed { imm := 1 } = false →
    Completes (.tret th f) s fun u => u.flag (R.SEQ_THREAD_STATUS.HANDLER th) = false ∧ u.tstate th = stRunnable
      ∧ u.pc th = (if f.imm.getLsbD 0 then (s.thr th).trapPc.toNat + 8 else (s.thr th).trapPc.toNat) / 8 * 8 % 2 ^ 57
      ∧ u.thr th = s.thr th ∧ OnlyThread th [R.SEQ_THREAD_PC.PC th, R.SEQ_THREAD_STATUS.HANDLER th] s u) ∧
  (∀ (th : ThreadNo) (f : Insn) (s : State), Fetches s th 0x06 f → f.imm.toNat / 2 ≠ 0 →
    exec (.tret th f) s = .next (s.trap th 0x01 (f.word 0x06))) ∧
  (∀ (th : ThreadNo) (f : Insn) (s : State) (st : BitVec 4), s.tstate th = stRunnable → (s.thr th).held = some st →
    s.flag (R.SEQ_THREAD_STATUS.HANDLER th) = false → s.fld (R.SEQ_THREAD_TRAPVEC.VEC th) ≠ 0 →
    Completes (.nop th f) s fun u => (u.thr th).trapPc = BitVec.ofNat 64 (s.pc th) ∧ (u.thr th).trapCause = 0x07
      ∧ (u.thr th).trapInfo = st.setWidth 64 ∧ (u.thr th).held = none)

/-- R251: WAIT.T at or below GLB_TICK goes by at once; otherwise the thread is WAITING with reason TICK, and WAIT_T_WAKE makes it
RUNNABLE past the instruction once GLB_TICK has reached the target. R229: HALT stops the thread at the next instruction. Where the spec is
silent or can be read two ways this is the model's reading (log entry 14). -/
def Obligations.WaitForTick : Prop :=
  (∀ (th : ThreadNo) (f : Insn) (s : State), Issues s th 0x07 f (regMask f.a) → f.malformed { a := true, imm := 0xFFFFFFFF } = false →
    ((s.greg th f.a + f.imm.signExtend 64).toNat ≤ s.tick → Completes (.waitT th f) s (Jumped s th (s.pc th + 8))) ∧
    (s.tick < (s.greg th f.a + f.imm.signExtend 64).toNat → Completes (.waitT th f) s fun u =>
      OnlyThread th [R.SEQ_THREAD_STATUS.STATE th, R.SEQ_THREAD_STATUS.REASON th] s u ∧ u.tstate th = stWaiting
        ∧ u.fld (R.SEQ_THREAD_STATUS.REASON th) = 5
        ∧ u.thr th = { s.thr th with wait := .tick (s.greg th f.a + f.imm.signExtend 64).toNat })) ∧
  (∀ (th : ThreadNo) (s : State) (target : Nat), s.tstate th = stWaiting → (s.thr th).wait = .tick target → (s.thr th).held = none →
    s.stuck th = none → target ≤ s.tick → Completes (.waitTWake th) s fun u =>
      OnlyThread th [R.SEQ_THREAD_STATUS.STATE th, R.SEQ_THREAD_STATUS.REASON th, R.SEQ_THREAD_PC.PC th] s u
        ∧ u.tstate th = stRunnable ∧ u.pc th = (s.pc th + 8) % 2 ^ 57 ∧ u.thr th = { s.thr th with wait := .idle }) ∧
  (∀ (th : ThreadNo) (s : State) (target : Nat), (s.thr th).wait = .tick target → s.tick < target →
    exec (.waitTWake th) s = .next s) ∧
  (∀ (th : ThreadNo) (f : Insn) (s : State), Issues s th 0x04 f 0 → f.malformed {} = false →
    Completes (.halt th f) s fun u => u.tstate th = stHalted ∧ u.pc th = (s.pc th + 8) % 2 ^ 57
      ∧ u.thr th = { s.thr th with wait := .idle, pend := s.lpReg th, wbFail := 0 })

/-- R252: WAIT.W, branch by branch. Where the spec is
silent or can be read two ways this is the model's reading (log entry 14). -/
def Obligations.WaitForWatch : Prop :=
  ∀ (th : ThreadNo) (f : Insn) (s : State), Issues s th 0x08 f (regMask f.a ||| regMask f.b ||| regMask f.st) →
    f.malformed { a := true, b := true, st := true } = false →
    let ga := (s.greg th f.a).toNat
    let gb := (s.greg th f.b).toNat
    let w := ga % 4096
    let denied := 4096 ≤ ga ∨ s.fld (R.SEQ_WATCH_CFG.PART w) ≠ s.tpart th ∨ (s.wl w).state ∈ [0, 1, 4, 5]
    (denied → exec (.waitW th f) s = .next ((s.trap th 0x04 w).tally 1880)) ∧
    (¬ denied → (s.wl w).state = 3 → Completes (.waitW th f) s fun u => (u.thr th).wake = (s.wl w).snap ∧ (u.wl w).state = 2
      ∧ u.pc th = (s.pc th + 8) % 2 ^ 57 ∧ (∀ r, u.greg th r = if r = f.st then 0 else s.greg th r) ∧ SameMemory s u) ∧
    (¬ denied → (s.wl w).state = 2 → gb ≠ 0 → gb ≤ s.tick → Completes (.waitW th f) s fun u => u.watch = s.watch
      ∧ (u.thr th).wake = (s.thr th).wake ∧ u.pc th = (s.pc th + 8) % 2 ^ 57
      ∧ (∀ r, u.greg th r = if r = f.st ∧ r ≠ 0 then 5 else s.greg th r) ∧ SameMemory s u) ∧
    (¬ denied → (s.wl w).state = 2 → gb = 0 ∨ s.tick < gb → Completes (.waitW th f) s fun u => u.tstate th = stParked
      ∧ u.fld (R.SEQ_THREAD_STATUS.WATCH th) = w ∧ u.wl w = { s.wl w with state := 4, thread := th, deadline := gb }
      ∧ (u.thr th).wake = (s.thr th).wake ∧ u.pc th = s.pc th ∧ (∀ r, u.greg th r = s.greg th r) ∧ SameMemory s u)

/-! ## Threads, instruction caches, watch lines, snoops (chapter 3, R318) -/

/-- R50, R51, Table 3.3: an accepted thread command, from a requester that may write its register, has its effect; START,
RESUME and SKIP in a state that does not accept them are refused with CMD_DENY and change nothing of the thread. A thread one of
whose submissions waits goes on waiting for it (R248), and a status trap that is held is taken when the thread is RUNNABLE (R232; both
as log entry 64 reads them). -/
def Obligations.ThreadCommands : Prop :=
  ∀ (via : Via) (page : Option PartNo) (th : ThreadNo) (s : State), s.sees via (cmdOffset page th) true = true →
    (s.ownPage page th = true → s.canStart th = true → s.stuck th = none → (s.thr th).held = none → Completes (.threadStart via page th) s fun u =>
      OnlyThread th [R.SEQ_THREAD_STATUS.STATE th, R.SEQ_THREAD_STATUS.REASON th] s u ∧ u.tstate th = stRunnable
        ∧ u.fld (R.SEQ_THREAD_STATUS.REASON th) = 0 ∧ u.thr th = { s.thr th with wait := .idle }) ∧
    (s.ownPage page th = true → Completes (.threadHalt via page th) s fun u => u.tstate th = stHalted
      ∧ u.fld (R.SEQ_THREAD_STATUS.DRAINING th) = (if s.fld (R.SEQ_THREAD_STATUS.OUTSTANDING th) = 0 then 0 else 1)
      ∧ u.pc th = s.pc th ∧ (u.thr th).g = (s.thr th).g ∧ (u.thr th).p = (s.thr th).p ∧ (u.thr th).held = (s.thr th).held
      ∧ SameMemory s u
      ∧ (s.tstate th = stParked → ∀ w, s.fld (R.SEQ_THREAD_STATUS.WATCH th) = w → (s.wl w).state = 4 → (s.wl w).thread = th →
          u.wl w = { s.wl w with state := 2, thread := 0, deadline := 0 })) ∧
    (s.ownPage page th = true → s.tstate th = stFaulted → (s.thr th).held = none → s.stuck th = none → Completes (.threadResume via page th) s fun u =>
      OnlyThread th [R.SEQ_THREAD_STATUS.STATE th, R.SEQ_THREAD_STATUS.REASON th] s u ∧ u.tstate th = stRunnable
        ∧ u.pc th = s.pc th ∧ u.thr th = { s.thr th with wait := .idle }) ∧
    (s.ownPage page th = true → s.tstate th = stFaulted → (s.thr th).held = none → s.stuck th = none → Completes (.threadSkip via page th) s fun u =>
      OnlyThread th [R.SEQ_THREAD_STATUS.STATE th, R.SEQ_THREAD_STATUS.REASON th, R.SEQ_THREAD_PC.PC th] s u
        ∧ u.tstate th = stRunnable ∧ u.pc th = (s.pc th + 8) % 2 ^ 57 ∧ u.thr th = { s.thr th with wait := .idle }) ∧
    (s.ownPage page th = true → Completes (.threadReset via page th) s fun u => u.tstate th = stHalted
      ∧ (∀ r, u.greg th r = 0) ∧ (∀ i, 0 < i → i < 8 → (u.thr th).pred i = false) ∧ (u.thr th).wake = 0 ∧ (u.thr th).trapPc = 0
      ∧ (u.thr th).hands = [] ∧ (u.thr th).chk = 0 ∧ u.flag (R.SEQ_THREAD_STATUS.HANDLER th) = false ∧ u.pc th = s.pc th
      ∧ u.reg (R.SEQ_THREAD_CFG.adr th) = s.reg (R.SEQ_THREAD_CFG.adr th)
      ∧ u.reg (R.SEQ_THREAD_TRAPVEC.adr th) = s.reg (R.SEQ_THREAD_TRAPVEC.adr th)) ∧
    (s.ownPage page th = false ∨ s.canStart th = false → exec (.threadStart via page th) s = .next (s.cmdDeny page)) ∧
    (s.ownPage page th = false ∨ s.tstate th ≠ stFaulted → exec (.threadResume via page th) s = .next (s.cmdDeny page)
      ∧ exec (.threadSkip via page th) s = .next (s.cmdDeny page))

/-- R61 to R63: SEQ_ICACHE_INV removes the partition's lines and nothing else; the line of a miss arrives from the HBM line that
the fetch translation gives, and the thread goes on; a fetch that fails faults the thread with FETCH_FAULT (cause 0x02), never
with a trap. Where the spec is
silent or can be read two ways this is the model's reading (log entry 13). -/
def Obligations.InstructionCaches : Prop :=
  (∀ (via : Via) (p : PartNo) (s : State), s.sees via R.SEQ_ICACHE_INV.adr true = true →
    exec (.icacheInvalidate via p) s = .next { s with icache := s.icache.filter fun e => !(e.1 % 2 ^ 16 / 1024 == p.val) }) ∧
  (∀ (th : ThreadNo) (s s1 : State) (fva h : Nat), (s.thr th).wait = .fetch fva → s.tstate th = stWaiting →
    s.fetchLine th fva = (s1, some h) →
    exec (.icacheFill th) s =
      .next (((s1.icFill (th / 16) (fva / 64) (s1.ttag th) (s1.readLine h)).runnable th).takeHeld th)) ∧
  (∀ (th : ThreadNo) (s s1 : State) (fva : Nat), (s.thr th).wait = .fetch fva → s.tstate th = stWaiting →
    s.fetchLine th fva = (s1, none) → exec (.icacheFill th) s = .next (s1.threadFault th 0x02 fva))

/-- R56, R57, R60: enabling and disabling watch lines; a line in ERROR does not count toward the limit (log entry 64, the
model's reading). -/
def Obligations.WatchConfiguration : Prop :=
  ∀ (via : Via) (w : Fin 4096) (mode : Bool) (part : PartNo) (s : State), s.sees via (R.SEQ_WATCH_CFG.adr w) true = true →
    let tgt := s.fld (R.SEQ_WATCH_ADDR.TARGET w)
    let line := s.fld (R.SEQ_WATCH_ADDR.LINE w)
    (s.flag (R.SEQ_WATCH_CFG.ENABLE w) = false → tgt = 0 → 64 * line + 64 ≤ s.visibleEnd →
      Completes (.watchEnable via w mode part) s fun u =>
        u.wl w = { state := 1, lastSeq := (s.wl w).lastSeq } ∧ u.flag (R.SEQ_WATCH_CFG.ENABLE w) = true
          ∧ u.fld (R.SEQ_WATCH_CFG.PART w) = part ∧ u.fld (R.SEQ_WATCH_CFG.MODE w) = b2n mode ∧ u.out = s.out ∧ SameMemory s u
          ∧ OnlyFields [R.SEQ_WATCH_CFG.ENABLE w, R.SEQ_WATCH_CFG.PART w, R.SEQ_WATCH_CFG.MODE w] s u) ∧
    (s.flag (R.SEQ_WATCH_CFG.ENABLE w) = false → 0 < tgt → tgt ≤ 4 → s.watchCount (tgt - 1) < 1024 → s.cacheUp (tgt - 1) = true →
      Completes (.watchEnable via w mode part) s fun u =>
        u.wl w = { state := 1, lastSeq := (s.wl w).lastSeq, reading := true } ∧ u.out = .rdShared (tgt - 1) line :: s.out
          ∧ u.fld (R.SEQ_WATCH_CFG.PART w) = part) ∧
    (s.flag (R.SEQ_WATCH_CFG.ENABLE w) = false → tgt = 0 → s.visibleEnd < 64 * line + 64 →
      Completes (.watchEnable via w mode part) s fun u => (u.wl w).state = 5 ∧ u.flag R.SEQ_EVENTS.WATCH_ERROR = true) ∧
    (s.flag (R.SEQ_WATCH_CFG.ENABLE w) = true → (s.wl w).state ≠ 4 → Completes (.watchDisable via w mode part) s fun u =>
      (u.wl w).state = 0 ∧ u.flag (R.SEQ_WATCH_CFG.ENABLE w) = false ∧ u.fld (R.SEQ_WATCH_CFG.PART w) = part
        ∧ u.fld (R.SEQ_WATCH_CFG.MODE w) = b2n mode ∧ w.val ∉ u.reports ∧ SameMemory s u)

/-- R55, R58, R59: the first value of an arming line is taken without a wake; a reported write on a line of module memory in
LINE mode (MODE 0) wakes the parked thread with the line as it stands and status 0, or makes an idle line PENDING; a parked
thread whose deadline has passed wakes with TIMEOUT (R57). R318: SnpData and
SnpCur are answered as a hit exactly where a watch line holds the line, and change nothing else; SnpInv is answered in the same
way, and every watch line that held the line reads it again. -/
def Obligations.WatchEventsAndSnoops : Prop :=
  (∀ (w : Fin 4096) (s : State), (s.wl w).state = 1 → s.fld (R.SEQ_WATCH_ADDR.TARGET w) = 0 → s.flag (R.SEQ_WATCH_CFG.MODE w) = false →
    exec (.watchArmed w none) s = .next (s.setWl w { s.wl w with state := 2, reading := false })) ∧
  (∀ (w : Fin 4096) (l : Line) (s : State), (s.wl w).state = 1 → s.fld (R.SEQ_WATCH_ADDR.TARGET w) ≠ 0 →
    s.flag (R.SEQ_WATCH_CFG.MODE w) = true → recValid l = true →
    exec (.watchArmed w (some l)) s = .next (s.setWl w { s.wl w with state := 2, reading := false, lastSeq := l.setWidth 32 })) ∧
  (∀ (w : Fin 4096) (s : State), w.val ∈ s.reports → (s.wl w).state = 2 → s.flag (R.SEQ_WATCH_CFG.MODE w) = false →
    Completes (.watchEvaluate w) s fun u => u.reports = s.reports.erase w.val
      ∧ u.wl w = { s.wl w with state := 3, snap := s.readLine (s.fld (R.SEQ_WATCH_ADDR.LINE w)) } ∧ u.threads = s.threads
      ∧ u.regs = s.regs ∧ u.hbm = s.hbm) ∧
  (∀ (w : Fin 4096) (th : ThreadNo) (s : State), w.val ∈ s.reports → (s.wl w).state = 4 → (s.wl w).thread = th →
    s.flag (R.SEQ_WATCH_CFG.MODE w) = false → (s.thr th).held = none → s.stuck th = none →
    Completes (.watchEvaluate w) s fun u => (u.thr th).wake = s.readLine (s.fld (R.SEQ_WATCH_ADDR.LINE w))
      ∧ u.tstate th = stRunnable ∧ u.pc th = (s.pc th + 8) % 2 ^ 57 ∧ u.greg th (s.thr th).waitReg = 0 ∧ (u.wl w).state = 2
      ∧ (u.wl w).wakes = (s.wl w).wakes + 1 ∧ SameMemory s u) ∧
  (∀ (w : Fin 4096) (th : ThreadNo) (s : State), (s.wl w).state = 4 → (s.wl w).thread = th → (s.wl w).deadline ≠ 0 →
    (s.wl w).deadline ≤ s.tick → s.flag (R.SEQ_THREAD_CFG.TRAP_STATUS th) = false → (s.thr th).held = none →
    s.stuck th = none →
    Completes (.watchDeadline w) s fun u => (u.wl w).state = 2 ∧ u.tstate th = stRunnable ∧ u.pc th = (s.pc th + 8) % 2 ^ 57
      ∧ (∀ r, u.greg th r = if r = (s.thr th).waitReg ∧ r ≠ 0 then 5 else s.greg th r) ∧ (u.thr th).wake = (s.thr th).wake
      ∧ SameMemory s u) ∧
  (∀ (w : Fin 4096) (l : Line) (s : State), (s.wl w).reading = true → (s.wl w).state = 2 → s.flag (R.SEQ_WATCH_CFG.MODE w) = false →
    exec (.watchRereadData w (some l)) s = .next (s.setWl w { s.wl w with reading := false, state := 3, snap := l })) ∧
  (∀ (w : Fin 4096) (s : State), (s.wl w).reading = true → 2 ≤ (s.wl w).state → (s.wl w).state ≤ 4 →
    exec (.watchRereadData w none) s = .next (s.watchError w)) ∧
  (∀ (h : PortNo) (line : BitVec 46) (s : State),
    exec (.snpData h line) s = .next (s.send (.snoopRsp h line.toNat !(s.sharedBy h line.toNat).isEmpty)) ∧
    exec (.snpCur h line) s = .next (s.send (.snoopRsp h line.toNat !(s.sharedBy h line.toNat).isEmpty)) ∧
    (s.sharedBy h line.toNat = [] → exec (.snpInv h line) s = .next (s.send (.snoopRsp h line.toNat false))) ∧
    (∀ w, s.sharedBy h line.toNat = [w] → exec (.snpInv h line) s =
      .next (((s.send (.snoopRsp h line.toNat true)).setWl w { s.wl w with reading := true }).send (.rdShared h line.toNat))))

/-! ## Control space, tables (chapters 0 and 1), tick and time (chapter 2) -/

/-- R25: a BAR0 read of an offset that is not visible to its port returns 0; a BAR0 write to such an offset, or to a read-only page,
is discarded and completes normally; each such access increments the port's denied-access counter by one and changes nothing else
(the shadow count of R394 follows the counter). -/
def Obligations.DeniedAccess : Prop :=
  ∀ (h : PortNo) (pasid : Option (BitVec 20)) (off : BitVec 26) (size : Nat) (v : Word) (s : State),
    (s.sees (.bar0 h pasid) off.toNat false = false → Completes (.clearingRead (.bar0 h pasid) off size) s fun u =>
      u.out = .readData (.bar0 h pasid) off.toNat 0 :: s.out ∧ OnlyFields [R.HST_COUNTS0.DENIED h] s u
        ∧ u.fld (R.HST_COUNTS0.DENIED h) = (s.fld (R.HST_COUNTS0.DENIED h) + 1) % 2 ^ (R.HST_COUNTS0.DENIED h).w
        ∧ u = { s with regs := u.regs, shadow := u.shadow, out := u.out }) ∧
    (s.sees (.bar0 h pasid) off.toNat true = false → Completes (.controlSpaceWrite (.bar0 h pasid) off size v) s fun u =>
      OnlyFields [R.HST_COUNTS0.DENIED h] s u
        ∧ u.fld (R.HST_COUNTS0.DENIED h) = (s.fld (R.HST_COUNTS0.DENIED h) + 1) % 2 ^ (R.HST_COUNTS0.DENIED h).w
        ∧ u = { s with regs := u.regs, shadow := u.shadow })

namespace Sys2Proof.Machine

/-- Registers of which a write does nothing but what the access codes of their fields say: control registers (RW) and event
registers (W1C). -/
def plainRegs : List Nat :=
  [R.GLB_REF_CTL.adr, R.GLB_EPOCH_IN_DELAY.adr, R.GLB_POWER_CAP.adr, R.GLB_POWER_CTL.adr, R.GLB_CRUISE_CTL.adr,
   R.XLT_CTL.adr, R.XLT_TLB_INV_FVA.adr, R.SIV_ACC_IDX.adr, R.SIV_ACC_DATA0.adr, R.SIV_ACC_DATA1.adr, R.SWC_FWD_CTL.adr,
   R.SWC_VC7_RATE.adr, R.SWC_WHISK_HOLD.adr, R.HOM_ATOM_CTL.adr, R.HOM_LEDGER_ACC_IDX.adr, R.HOM_MIRROR_CTL.adr,
   R.LDL_STORE_SPLIT.adr, R.LDL_ARB.adr, R.COL_CTL.adr, R.OPT_PLAN_CTL.adr, R.OPT_RING_CTL.adr, R.OPT_MARGIN_CTL.adr,
   R.OPT_LASER_CTL.adr, R.REL_CHECK_LEVEL.adr, R.REL_ALERT_MASK.adr, R.REL_SCRUB.adr, R.SEC_LOAD_SRC.adr,
   R.TEL_SNAP_CTL.adr, R.TEL_TRACE_FILT0.adr, R.TEL_TRACE_FILT1.adr, R.TEL_DBG_ADDR.adr, R.GLB_TIME_EVENTS.adr,
   R.GLB_POWER_EVENTS.adr, R.SEQ_EVENTS.adr, R.SWC_EVENTS.adr, R.XLT_EVENTS.adr, R.SIV_EVENTS.adr, R.HOM_EVENTS.adr,
   R.LDL_EVENTS.adr, R.COL_EVENTS.adr, R.OPT_EVENTS.adr, R.ELK_EVENTS.adr, R.SEC_EVENTS.adr, R.REL_EVENTS.adr,
   R.TEL_EVENTS.adr]

/-- In `u` a write of `v` has acted on the register at `o` as Table 0.3 and R9 say, and on nothing else. -/
def PlainWritten (s : State) (o : Nat) (v : Word) (u : State) : Prop :=
  u = { s with regs := u.regs } ∧ (∀ p, p ≠ o → u.reg p = s.reg p) ∧
    ∀ f ∈ fieldsAt o, u.fld ⟨o, f.lo, f.w⟩ =
      let x := getBits v.toNat f.lo f.w
      let old := s.fld ⟨o, f.lo, f.w⟩
      match f.acc with
      | .rw => if f.allows x then x else old
      | .w1c => old &&& (2 ^ f.w - 1 - x)
      | _ => old

/-- No part of a tick boundary has anything to do but count: no change of time, no power change, no collective, switch or
split that waits, no waiting thread, and no channel that is UP. -/
abbrev QuietTick (s : State) : Prop :=
  s.tim.step = none ∧ s.tim.sel = none ∧ s.tim.next = none ∧ s.tim.credits = false ∧ (s.tick + 1) % 2 ^ 20 ≠ 2 ^ 19
    ∧ s.fld R.GLB_TIME_STATUS.PARENT_FEID = 0xFFFF ∧ s.threads = [] ∧ s.col.entries = [] ∧ s.swc.gains = [] ∧ s.opt.sw = none
    ∧ s.mgt.restart = none ∧ s.tel.split = none ∧ s.capTarget = s.pwr.demand ∧ s.demanded = s.fld R.GLB_POWER_STATUS.LEVEL
    ∧ s.pwr.s7At = none ∧ ∀ c < 262, s.chUp c = false

end Sys2Proof.Machine

/-- R6, R7, R9: a visible aligned write of 8 bytes acts on the register (for a plain register: RW fields take the value, fields
that software may not write keep theirs), any other size changes nothing; an aligned read of 8 bytes returns the word as it
reads and clears the register's RC fields, one of 4 bytes its half and the RC fields that lie in it, any other read returns 0;
in the registers of `plainRegs` a write completes with each field as its access code has it and a read completes with each field's
value. Where the spec is
silent or can be read two ways this is the model's reading (log entry 9). -/
def Obligations.ControlSpace : Prop :=
  (∀ (via : Via) (off : BitVec 26) (size : Nat) (v : Word) (s : State), s.sees via off.toNat true = true →
    (size = 8 → off.toNat % 8 = 0 → exec (.controlSpaceWrite via off size v) s = .next (s.writeWord via off.toNat v)) ∧
    (size ≠ 8 ∨ off.toNat % 8 ≠ 0 → exec (.controlSpaceWrite via off size v) s = .next s)) ∧
  (∀ o ∈ plainRegs, ∀ (via : Via) (v : Word) (s : State), s.sees via o true = true →
    Completes (.controlSpaceWrite via (BitVec.ofNat 26 o) 8 v) s (PlainWritten s o v)) ∧
  (∀ o ∈ plainRegs, ∀ (via : Via) (s : State), s.sees via o false = true →
    Completes (.clearingRead via (BitVec.ofNat 26 o) 8) s fun u => ∃ w : Word,
      u = { s with out := .readData via o w :: s.out } ∧ ∀ f ∈ fieldsAt o, getBits w.toNat f.lo f.w = s.fld ⟨o, f.lo, f.w⟩) ∧
  (∀ (v : Word) (s : State), s.flag R.MGT_SET_STATUS.NONE = false → Completes (.controlSpaceWrite .mgmt (BitVec.ofNat 26 R.GLB_REF_CTL.adr) 8 v) s fun u =>
    u.fld R.GLB_REF_CTL.PREFER = getBits v.toNat 0 1 ∧ u.fld R.GLB_REF_CTL.REVERT = getBits v.toNat 1 1
      ∧ (∀ o, o ≠ R.GLB_REF_CTL.adr → u.reg o = s.reg o)) ∧
  (∀ (via : Via) (off : BitVec 26) (s : State), s.sees via off.toNat false = true →
    (off.toNat % 8 = 0 → exec (.clearingRead via off 8) s = .next
      (((s.readWord off.toNat).2.clearRc off.toNat 0 64).send (.readData via off.toNat (BitVec.ofNat 64 (s.readWord off.toNat).1)))) ∧
    (off.toNat % 8 = 0 → exec (.clearingRead via off 4) s = .next
      (((s.readWord off.toNat).2.clearRc off.toNat 0 32).send
        (.readData via off.toNat (BitVec.ofNat 64 (getBits (s.readWord off.toNat).1 0 32))))) ∧
    (off.toNat % 8 = 4 → exec (.clearingRead via off 4) s = .next
      (((s.readWord (off.toNat - 4)).2.clearRc (off.toNat - 4) 32 64).send
        (.readData via off.toNat (BitVec.ofNat 64 (getBits (s.readWord (off.toNat - 4)).1 32 32))))) ∧
    (∀ size, (size = 8 → off.toNat % 8 ≠ 0) → (size = 4 → off.toNat % 4 ≠ 0) → exec (.clearingRead via off size) s = .next (s.send (.readData via off.toNat 0))))

/-- R412 (management datagrams), R403 (CSR_ACCESS): an access with the full view; a repeated SEQ gets the kept response again and
acts no second time. Where the spec is
silent or can be read two ways this is the model's reading (log entries 9 and 51). -/
def Obligations.OtherAccess : Prop :=
  (∀ (src seq : BitVec 32) (off : BitVec 64) (v : Word) (s : State), (s.keptFor src).find? (fun k => k.seq == seq) = none →
    off.toNat % 8 = 0 → off.toNat < 0x4000000 →
    (s.sees .mgmt off.toNat true = true → exec (.mgmtDatagramWrite src seq off v) s =
      let k : Kept := { src := src, seq := seq, tick := s.tick, op := 2, status := sOK, off := off, value := v }
      .next (((s.writeWord .mgmt off.toNat v).keep k).sendKept k)) ∧
    (exec (.mgmtDatagramRead src seq off) s =
      let k : Kept := { src := src, seq := seq, tick := s.tick, op := 1, status := sOK, off := off,
                        value := (s.readSpace off.toNat 8).1 }
      .next (((s.readSpace off.toNat 8).2.keep k).sendKept k))) ∧
  (∀ (src seq : BitVec 32) (off : BitVec 64) (v : Word) (s : State) (k : Kept),
    (s.keptFor src).find? (fun k => k.seq == seq) = some k →
    exec (.mgmtDatagramWrite src seq off v) s = .next (s.sendKept k) ∧ exec (.mgmtDatagramRead src seq off) s = .next (s.sendKept k)) ∧
  (∀ (off : BitVec 23) (v : Word) (s : State),
    (Completes (.csrAccess off true v) s fun u => u.jtag.csr = some v ∧ u.hbm = (s.writeWord .jtag (8 * off.toNat) v).hbm) ∧
    (Completes (.csrAccess off false v) s fun u => u.jtag.csr = some (s.readSpace (8 * off.toNat) 8).1))

/-- R27, R73, R154, R257: staged words take effect with the entry's highest word; a Route Table entry read back is the two words
written, words staged for another entry are given up when a lower word of an entry is written, and stay when a highest word is. Where the spec is
silent or can be read two ways this is the model's reading (log entry 56). -/
def Obligations.TableWrites : Prop :=
  (∀ (via : Via) (x : Wide) (v : Word) (s : State), s.sees via x.off true = true →
    match x with
    | .route f => exec (.tableWordStage via x v) s = .next { s with swc := { s.swc with routeStage := some (f.toNat, v) } }
    | .group g w => w ≠ 127 → exec (.tableWordStage via x v) s =
        .next { s with swc := { s.swc with groupStage := some (g.toNat, (staged s.swc.groupStage g.toNat).put w.toNat v) } }
    | .plan p c => exec (.tableWordStage via x v) s =
        .next { s with opt := { s.opt with stage := some (p.toNat, (staged s.opt.stage p.toNat).put c.toNat v) } }) ∧
  (∀ (via : Via) (f : BitVec 16) (w v : Word) (s : State), s.sees via (0x1000000 + 16 * f.toNat + 8) true = true →
    s.swc.routeStage = some (f.toNat, w) →
    Completes (.routeEntryCommit via f v) s fun u => u.route f.toNat = (v ++ w).toNat ∧ u.swc.routeStage = none
      ∧ (∀ g, g ≠ f.toNat → u.route g = s.route g) ∧ u.regs = s.regs ∧ u.hbm = s.hbm) ∧
  (∀ (via : Via) (f : BitVec 16) (w v : Word) (k : Nat) (s : State), s.sees via (0x1000000 + 16 * f.toNat + 8) true = true →
    s.swc.routeStage = some (k, w) → k ≠ f.toNat →
    Completes (.routeEntryCommit via f v) s fun u => u.route f.toNat = s.route f.toNat % 2 ^ 64 + v.toNat * 2 ^ 64
      ∧ u.swc.routeStage = some (k, w) ∧ (∀ g, g ≠ f.toNat → u.route g = s.route g) ∧ u.regs = s.regs ∧ u.hbm = s.hbm) ∧
  (∀ (via : Via) (g : BitVec 12) (v : Word) (s : State), s.sees via (0x2000000 + 0x400 * g.toNat + 8 * 127) true = true →
    (s.swc.groupStage = none → Completes (.groupEntryCommit via g v) s fun u => u.swc.groupStage = none
      ∧ u.groupWord g.toNat 127 = v.toNat ∧ (∀ k < 127, u.groupWord g.toNat k = s.groupWord g.toNat k) ∧ u.hbm = s.hbm) ∧
    (∀ (j : BitVec 7) (w : Word), j ≠ 127 → s.swc.groupStage = some (g.toNat, [(j.toNat, w)]) →
      Completes (.groupEntryCommit via g v) s fun u => u.swc.groupStage = none ∧ u.groupWord g.toNat 127 = v.toNat
        ∧ (∀ k < 127, u.groupWord g.toNat k = if k = j.toNat then w.toNat else s.groupWord g.toNat k) ∧ u.hbm = s.hbm)) ∧
  (∀ (via : Via) (p : BitVec 4) (v : Word) (s : State), s.sees via (0x3000000 + 0x1000 * p.toNat + 0x800) true = true →
    s.opt.stage = none →
    (s.planReject p.toNat (s.planWord p.toNat) v.toNat = 0 → Completes (.planCommit via p v) s fun u =>
      u.planWord p.toNat 256 = v.toNat ∧ (∀ c < 256, u.planWord p.toNat c = s.planWord p.toNat c) ∧ u.opt.stage = none
        ∧ u.regs = s.regs ∧ u.hbm = s.hbm) ∧
    (s.planReject p.toNat (s.planWord p.toNat) v.toNat ≠ 0 → Completes (.planCommit via p v) s fun u =>
      u.opt.plans = s.opt.plans ∧ u.flag R.OPT_EVENTS.PLAN_REJECT = true
        ∧ u.fld R.OPT_PLAN_STATUS.REJECT = s.planReject p.toNat (s.planWord p.toNat) v.toNat))

/-- R35, R40, R42, R45: with no step, slew, reference switch or transition due the boundary counts one tick; a step of whole ticks
moves the count; the parts of a boundary run in the order of Table 2.4; a boundary at which
nothing else is due counts one tick, shows the readings, and changes nothing else. Where the spec is silent or can be read two ways
this is the model's reading (log entries 15 and 43). -/
def Obligations.TickCounts : Prop :=
  (∀ (m : Measured) (s : State), s.cru.on = true →
    exec (.tickBoundary m) s = .next (((s.lateCredits.clockTick.measured m).snapshotPoint).powerStep).creditStep) ∧
  (∀ (m : Measured) (s : State), s.cru.on = true → QuietTick s → m.lanes = [] → Completes (.tickBoundary m) s fun u =>
    u.tick = (s.tick + 1) % 2 ^ 64 ∧ u.fld R.GLB_POWER_STATUS.INPUT_W = m.watts.toNat
      ∧ u.fld R.GLB_POWER_STATUS.VIN = m.vin.toNat ∧ u.fld R.GLB_POWER_STATUS.IIN = m.iin.toNat
      ∧ (u.tick % 1024 = 0 → u.fld R.MGT_SENSE.TDIE = m.tdie.toNat ∧ u.fld R.MGT_SENSE.THBM = m.thbm.toNat
          ∧ u.fld R.MGT_SENSE.TLASER = m.tlaser.toNat ∧ u.fld R.MGT_SENSE.RAIL_W = m.rails.toNat)
      ∧ OnlyFields [R.GLB_TICK.TICK, R.GLB_POWER_STATUS.INPUT_W, R.GLB_POWER_STATUS.VIN, R.GLB_POWER_STATUS.IIN,
          R.GLB_POWER_STATUS.TARGET, R.MGT_SENSE.TDIE, R.MGT_SENSE.THBM, R.MGT_SENSE.TLASER, R.MGT_SENSE.RAIL_W] s u
      ∧ u.out = s.out ∧ SameMemory s u) ∧
  (∀ (m : Measured) (s : State), s.cru.on = false → exec (.tickBoundary m) s = .next s) ∧
  (∀ s : State, s.tim.step = none → s.countTick.tick = (s.tick + 1) % 2 ^ 64) ∧
  (∀ (s : State) (k : Int), s.tim.step = some k → s.countTick.tim.step = none ∧
    s.countTick.tick = (((s.tick : Int) + 1 - k) % (2 ^ 64 : Nat)).toNat) ∧
  (∀ (s : State), s.tim.step = none → s.tim.sel = none → s.tim.next = none → s.flag R.GLB_TIME_CTL.EPOCH_SRC = false → s.fld R.GLB_TIME_STATUS.PARENT_FEID = 0xFFFF →
    OnlyRegisters [R.GLB_TICK.TICK] { s with tim := s.timeTick.tim } s.timeTick)

/-- R31 to R33: reference inputs. -/
def Obligations.References : Prop :=
  (∀ (inp : Bool) (e1 e2 : Nat) (s : State), goodTick e1 = false → goodTick e2 = false → s.flag (refOk inp) = true →
    s.flag (refOk (!inp)) = true → s.selected inp = true → s.advNow = s.tim.adv →
    Completes (.refInputLoss inp e1 e2) s fun u => u.flag (refOk inp) = false ∧ u.tim.sel = some (!inp)
      ∧ u.flag R.GLB_TIME_STATUS.REF_SEL = s.flag R.GLB_TIME_STATUS.REF_SEL ∧ SameMemory s u) ∧
  (∀ (inp : Bool) (epochs : Nat) (s : State), s.fld R.GLB_REF_CTL.REVERT_HOLD ≤ epochs → s.flag (refOk inp) = false →
    s.flag (refOk (!inp)) = true → s.timeState = tsLOCKED →
    exec (.refInputValid inp epochs) s = .next (s.setFld (refOk inp) 1).refreshAdv.leaveLost) ∧
  (∀ s : State, s.tick % 2 ^ 20 = 0 → s.flag R.GLB_REF_CTL.REVERT = true → s.flag (refOk (s.flag R.GLB_REF_CTL.PREFER)) = true →
    s.selected (s.flag R.GLB_REF_CTL.PREFER) = false →
    exec .refRevert s = .next ((s.setFld R.GLB_TIME_STATUS.REF_SEL (s.fld R.GLB_REF_CTL.PREFER)).timeEvents 4)) ∧
  (∀ s : State, s.flag R.GLB_REF_CTL.REVERT = false → exec .refRevert s = .next s)

/-- R39, R41, R43, R388: time transfer, the epoch input, holdover and the election. Where the spec is
silent or can be read two ways this is the model's reading (log entry 15). -/
def Obligations.TimeTransfer : Prop :=
  (∀ (c : Channel) (phase : BitVec 8) (s : State), s.timeOn c = true → s.tick % 2 ^ 12 = 0 → (s.exch (portCode c)).t4 = none →
    exec (.timeExchange c phase) s =
      let x := s.exch (portCode c)
      .next ((s.setExch (portCode c) { x with num := (x.num + 1) % 256 }).sendCtrl c (.time
        { dir := false, exch := BitVec.ofNat 8 x.num, phase := phase, tick := BitVec.ofNat 64 s.tick, prevExch := 0,
          prevValid := false, prevPhase := 0, prevTick := 0 }))) ∧
  (∀ (c : Channel) (b : TimeBlock) (rx : BitVec 8) (wait : BitVec 16) (s : State), s.timeOn c = true → b.dir = true →
    exec (.timeBlock c b rx wait) s = .next (s.setExch (portCode c)
      { s.exch (portCode c) with t4 := some (b.exch.toNat, 256 * s.tick + rx.toNat) })) ∧
  (∀ (c : Channel) (b : TimeBlock) (rx : BitVec 8) (wait : BitVec 16) (s : State), s.timeOn c = true → b.dir = false →
    b.prevValid = false →
    exec (.timeBlock c b rx wait) s =
      let t2 := 256 * s.tick + rx.toNat
      let t3 := t2 + wait.toNat
      let x := s.exch (portCode c)
      .next ((s.setExch (portCode c) { x with open_ := x.open_.put b.exch.toNat (256 * b.tick.toNat + b.phase.toNat, t2, t3) }).sendCtrl
        c (.time { dir := true, exch := b.exch, phase := BitVec.ofNat 8 t3, tick := BitVec.ofNat 64 (t3 / 256), prevExch := 0,
                   prevValid := false, prevPhase := 0, prevTick := 0 }))) ∧
  (∀ (s : State) (t : Nat), s.tim.alone = some t → s.timeState = tsHOLDOVER →
    t + s.fld R.GLB_TIME_CTL.HOLDOVER_EPOCHS * 2 ^ 20 ≤ s.tick →
    exec .holdoverExpire s = .next { s with tim := { s.tim with next := some (tsLOST, 16) } }) ∧
  (∀ (phase : BitVec 8) (s : State), s.flag R.GLB_TIME_CTL.EPOCH_SRC = true → s.tim.ignoreEpoch = false →
    let d := ((256 * s.tick + phase.toNat : Int) - s.fld R.GLB_EPOCH_IN_DELAY.DELAY) % (2 ^ 28 : Nat)
    (s.tim.pulses = 0 → d ≤ 16 ∨ (2 ^ 28 : Int) - 16 ≤ d →
      exec (.epochInPulse phase) s = .next { s with tim := { s.tim with pulses := 1 } }) ∧
    (0 < s.tim.pulses ∨ (16 < d ∧ d < (2 ^ 28 : Int) - 16) →
      exec (.epochInPulse phase) s =
        .next ({ s with tim := { s.tim with pulses := s.tim.pulses + 1, badPulse := true } }.timeEvents 32))) ∧
  (∀ s : State, s.tick % 2 ^ 20 = 2 ^ 19 → s.flag R.GLB_TIME_CTL.EPOCH_SRC = true → s.tim.ignoreEpoch = false →
    s.tim.watching = true →
    (s.tim.pulses = 1 → s.tim.badPulse = false → s.judgeEpoch =
      { s with tim := { s.tim with pulses := 0, badPulse := false, mismatch := 0, ignoreEpoch := false } }) ∧
    (s.tim.pulses = 0 ∨ s.tim.badPulse = true → s.judgeEpoch.tim.mismatch = s.tim.mismatch + 1
      ∧ (s.judgeEpoch.tim.ignoreEpoch = true ↔ 3 ≤ s.tim.mismatch))) ∧
  (∀ s : State, s.tim.electing = true → s.tim.advSince + 2 ^ 16 ≤ s.tick → s.tim.adv = s.feid → s.feid ≠ 0xFFFF →
    s.candidate = true → s.flag R.GLB_TIME_STATUS.MASTER = false → Completes .electionSettle s fun u =>
    u.flag R.GLB_TIME_STATUS.MASTER = true ∧ u.fld R.GLB_TIME_STATUS.HOPS = 0 ∧ u.fld R.GLB_TIME_STATUS.PARENT_FEID = 0xFFFF
      ∧ u.tim.next = some (tsLOCKED, 0) ∧ u.tim.electing = false
      ∧ OnlyFields [R.GLB_TIME_STATUS.MASTER, R.GLB_TIME_STATUS.PARENT_FEID, R.GLB_TIME_STATUS.PARENT_LINK, R.GLB_TIME_STATUS.HOPS,
          R.GLB_TIME_STATUS.OFFSET] s u)

/-! ## Translation and the Sieve (chapter 5), the Replay Ledger's window (R115) -/

/-- R85, R88, R89, R98, R99: walks, invalidation with no held host writes, the commands to a suspended descriptor, and the end
of a hold. Where the spec is silent or can be read two ways this is the model's reading (log entries 13 and 70). -/
def Obligations.Translations : Prop :=
  (∀ (th : ThreadNo) (fva : BitVec 64) (acc : Acc) (s s1 : State) (l : Leaf), s.tstate th = stRunnable →
    s.leafOf (s.ttag th) fva.toNat = (s1, .inr l) → exec (.pageWalk th fva acc) s = .next s1) ∧
  (∀ (th : ThreadNo) (fva : BitVec 64) (acc : Acc) (s s1 : State) (x : XFault), s.tstate th = stRunnable →
    s.leafOf (s.ttag th) fva.toNat = (s1, .inl x) →
    exec (.pageWalk th fva acc) s = .next (s1.threadXlateFault th x acc fva.toNat)) ∧
  (∀ (via : Via) (p : PartNo) (s : State), s.sees via R.XLT_TLB_INV.adr true = true → s.flag R.XLT_TLB_INV_STATUS.BUSY = false →
    s.xlt.held = [] → Completes (.tlbInvalidate via p false false) s fun u =>
      (∀ k : Nat, k / 2 ^ 44 / 1024 = p.val → k ∉ FMap.keys u.xlt.tlb ∧ k ∉ FMap.keys u.xlt.walk)
        ∧ (∀ e, e.1 / 2 ^ 44 / 1024 ≠ p.val → (e ∈ u.xlt.tlb ↔ e ∈ s.xlt.tlb))
        ∧ u.flag R.XLT_TLB_INV_STATUS.DONE = true ∧ u.flag R.XLT_TLB_INV_STATUS.LATE = false ∧ SameMemory s u
        ∧ OnlyFields [R.XLT_TLB_INV_STATUS.DONE, R.XLT_TLB_INV_STATUS.LATE] s u) ∧
  (∀ (via : Via) (p : PartNo) (scope drain : Bool) (s : State), s.sees via R.XLT_TLB_INV.adr true = true →
    s.flag R.XLT_TLB_INV_STATUS.BUSY = true →
    exec (.tlbInvalidate via p scope drain) s = .next (s.raise R.XLT_EVENTS.INV_BUSY)) ∧
  (∀ (via : Via) (k : SkidNo) (s : State) (pre : List SkdRun) (r : SkdRun), s.sees via R.XLT_FAULT_CMD.adr true = true →
    (s.skid k).run = pre ++ [r] → r.suspended.isSome = true →
    exec (.xltRetry via k) s = .next (s.setSkid k { s.skid k with run := pre ++ [{ r with suspended := none }] }) ∧
    exec (.xltAbort via k) s = .next (s.setSkid k { s.skid k with run := pre ++ [r.giveUp s.tick] })) ∧
  (∀ (via : Via) (k : SkidNo) (s : State), s.sees via R.XLT_FAULT_CMD.adr true = true → (s.skid k).run = [] →
    exec (.xltRetry via k) s = .next (s.raise R.XLT_EVENTS.CMD_DENY) ∧
    exec (.xltAbort via k) s = .next (s.raise R.XLT_EVENTS.CMD_DENY)) ∧
  (∀ (key : Fin 32768) (t : Nat) (rest : List (Nat × Nat)) (s : State), s.xlt.held = (key.val, t) :: rest →
    t + s.fld R.XLT_CTL.MIG_HOLD ≤ s.tick → exec (.migHoldExpire key) s = .next (s.retryHeld key true))

/-- R90 to R92, R96: indirect access to the Sieve Table, the probe, a partition's range, and the sweep; R115: HOM_LEDGER_ACC_CMD
loads the 256 bits of a ledger entry into its four data registers. Where the spec is silent or can be read two ways this is the
model's reading (log entries 13 and 64). -/
def Obligations.SieveTable : Prop :=
  (∀ (via : Via) (s : State), s.sees via R.SIV_ACC_CMD.adr true = true → s.siv.acc = none →
    let a (w : Bool) : SieveAcc := { write := w, idx := s.fld R.SIV_ACC_IDX.INDEX, start := s.tick,
                                     data := s.reg R.SIV_ACC_DATA1.adr ++ s.reg R.SIV_ACC_DATA0.adr }
    (Completes (.sieveRead via) s fun u => u.siv = { s.siv with acc := some (a false) } ∧ u.flag R.SIV_ACC_CMD.BUSY = true
      ∧ OnlyFields [R.SIV_ACC_CMD.BUSY] s u ∧ SameMemory s u) ∧
    (Completes (.sieveWrite via) s fun u => u.siv = { s.siv with acc := some (a true) } ∧ u.flag R.SIV_ACC_CMD.BUSY = true
      ∧ OnlyFields [R.SIV_ACC_CMD.BUSY] s u ∧ SameMemory s u)) ∧
  (∀ (s : State) (a : SieveAcc), s.siv.acc = some a → a.write = false → Completes .sieveAccessDone s fun u =>
    u.siv = { s.siv with acc := none } ∧ u.flag R.SIV_ACC_CMD.BUSY = false ∧ u.fld R.SIV_ACC_CMD.RESULT = 0
      ∧ (u.reg R.SIV_ACC_DATA1.adr ++ u.reg R.SIV_ACC_DATA0.adr).toNat = s.sieveEntry a.idx) ∧
  (∀ (s : State) (a : SieveAcc), s.siv.acc = some a → a.write = true →
    (s.sieveWriteResult a.idx a.data.toNat = 0 → Completes .sieveAccessDone s fun u => u.sieveEntry a.idx = a.data.toNat
      ∧ (∀ i, i ≠ a.idx → u.sieveEntry i = s.sieveEntry i) ∧ u.siv.acc = none ∧ u.fld R.SIV_ACC_CMD.RESULT = 0 ∧ SameMemory s u) ∧
    (s.sieveWriteResult a.idx a.data.toNat ≠ 0 → Completes .sieveAccessDone s fun u => u.siv = { s.siv with acc := none }
      ∧ u.fld R.SIV_ACC_CMD.RESULT = s.sieveWriteResult a.idx a.data.toNat % 2 ^ R.SIV_ACC_CMD.RESULT.w ∧ SameMemory s u)) ∧
  (∀ (via : Via) (key : BitVec 47) (s : State), s.sees via R.SIV_PROBE_KEY.adr true = true → Completes (.sieveProbe via key) s fun u =>
    u.fld R.SIV_PROBE_KEY.KEY = key.toNat
      ∧ u.fld R.SIV_PROBE_RESULT.BUCKET_A = (s.bucketsOf key.toNat).1 % 2 ^ R.SIV_PROBE_RESULT.BUCKET_A.w
      ∧ u.fld R.SIV_PROBE_RESULT.BUCKET_B = (s.bucketsOf key.toNat).2 % 2 ^ R.SIV_PROBE_RESULT.BUCKET_B.w) ∧
  (∀ (via : Via) (p : PartNo) (v : Word) (s : State), s.sees via (R.SIV_PART.adr p) true = true →
    s.flag (R.SIV_PART.EN p) = false → v.toNat = s.sivPartValue p v.toNat → v.getLsbD 0 = true →
    (s.overlaps p v.toNat = false → getBits v.toNat 3 22 % 2 ^ getBits v.toNat 25 5 = 0 → Completes (.sievePartWrite via p v) s fun u =>
      u.reg (R.SIV_PART.adr p) = v ∧ u.siv = s.siv ∧ SameMemory s u) ∧
    (s.overlaps p v.toNat = true → exec (.sievePartWrite via p v) s = .next (s.raise R.SIV_EVENTS.OVERLAP))) ∧
  (∀ (p : PartNo) (s : State) (b n : Nat), FMap.find s.siv.sweeps p = some (b, n) → Completes (.sieveSweepDone p) s fun u =>
    (∀ i, (b ≤ i / 4 ∧ i / 4 < b + n) → FMap.wf (fun _ => (0 : BitVec 128)) s.siv.table = true → seV (u.sieveEntry i) = false)
      ∧ (∀ i, ¬ (b ≤ i / 4 ∧ i / 4 < b + n) → u.sieveEntry i = s.sieveEntry i)
      ∧ u.flag (R.SIV_PART_STATUS.SWEEP p) = false ∧ u.fld (R.SIV_PART_STATUS.USED p) = 0) ∧
  (∀ (via : Via) (s : State), s.sees via R.HOM_LEDGER_ACC_CMD.adr true = true → s.flag R.HOM_LEDGER_ACC_CMD.BUSY = false →
    Completes (.ledgerRead via) s fun u =>
      (∀ k < 4, u.fld (R.HOM_LEDGER_ACC_DATA.DATA k) = getBits (s.ledgerEntry (s.fld R.HOM_LEDGER_ACC_IDX.INDEX)) (64 * k) 64)
        ∧ OnlyFields ((List.range 4).map R.HOM_LEDGER_ACC_DATA.DATA) s u ∧ u = { s with regs := u.regs })

/-! ## Fabric and engine instructions (chapters 6 and 10) -/

namespace Sys2Proof.Machine

/-- The request `r` of state `s` translates for access `acc` and is sent at once, which leaves `t` (R13, R106, R107). -/
def Sends (s : State) (r : Req) (acc : Acc) (t : State) : Prop :=
  ∃ x s1, s.translate r.tag r.fva acc = (s1, .ok x) ∧ s1.request r x = (t, .sent)

/-- After an instruction of thread `th` has sent request `r`, leaving `t`: the registers that the completion will write are
pending, and the PC is past the instruction (R225). -/
def sentOn (s : State) (th : ThreadNo) (r : Req) (t : State) : State :=
  s.countIssued ((t.setThr th ((t.thr th).addPend (r.dest.mask ||| regMask r.st))).advance th) th

/-- What a fabric instruction asks for: constructor, opcode, its checks (R228), the registers that it needs, the alignment in bytes
of its FVA (R233, R235), its request and its access class. -/
structure FabricRow where
  make : ThreadNo → Insn → Instr
  opc : Nat
  bad : Insn → Bool
  need : Insn → BitVec 32
  fva : State → ThreadNo → Insn → Nat
  align : Insn → Nat := fun _ => 1
  req : State → ThreadNo → Insn → Req
  acc : Acc

/-- The fabric instructions with one request each, but for RED and RESOLVE. -/
def fabricRows : List FabricRow :=
  [{ make := .ld, opc := 0x40, acc := .load, fva := fun s t f => s.memFva t f, align := Insn.size,
     bad := fun f => f.malformed { d := true, a := true, st := true, imm := 0x87FFFFFF } || f.clash false,
     need := fun f => regMask f.d ||| regMask f.a ||| regMask f.st,
     req := fun s t f => { s.threadReq t f opREAD (s.memFva t f) with
       dest := .reg f.d (s.memFva t f % 64) f.size (f.imm.getLsbD 26) } },
   { make := .st, opc := 0x41, acc := .store, fva := fun s t f => s.memFva t f, align := Insn.size,
     bad := fun f => f.malformed { a := true, b := true, st := true, imm := 0x83FFFFFF },
     need := fun f => regMask f.a ||| regMask f.b ||| regMask f.st,
     req := fun s t f => { s.threadReq t f opWRITE (s.memFva t f) with
       bmc := s.memFva t f % 64 + 64 * f.size,
       payload := (s.greg t f.b).toNat % 2 ^ (8 * f.size) * 2 ^ (8 * (s.memFva t f % 64)) } },
   { make := .ldL, opc := 0x42, acc := .load, fva := fun s t f => s.memFva t f, align := fun _ => 64,
     bad := fun f => f.malformed { d := true, a := true, st := true, imm := 0x80FFFFFF } || badGroup f.d || f.clash true,
     need := fun f => groupMask f.d ||| regMask f.a ||| regMask f.st,
     req := fun s t f => { s.threadReq t f opREAD (s.memFva t f) with dest := .group f.d } },
   { make := .stL, opc := 0x43, acc := .store, fva := fun s t f => s.memFva t f, align := fun _ => 64,
     bad := fun f => f.malformed { a := true, b := true, st := true, imm := 0x80FFFFFF } || badGroup f.b,
     need := fun f => regMask f.a ||| groupMask f.b ||| regMask f.st,
     req := fun s t f => { s.threadReq t f opWRITE (s.memFva t f) with bmc := 64 * 64, payload := ((s.thr t).group f.b).toNat } },
   { make := .atom, opc := 0x44, acc := .atomic, fva := fun s t f => (s.greg t f.a).toNat,
     align := fun f => typeWidth (getBits f.imm.toNat 4 4),
     bad := fun f => f.malformed { d := true, a := true, b := true, st := true, imm := 0x800000FF } || f.clash false
       || !atomListed (getBits f.imm.toNat 0 4) (getBits f.imm.toNat 4 4),
     need := fun f => regMask f.d ||| regMask f.a ||| regMask f.b ||| regMask f.st,
     req := fun s t f =>
       let op := getBits f.imm.toNat 0 4
       let ty := getBits f.imm.toNat 4 4
       let w := typeWidth ty
       { s.threadReq t f opATOM (s.greg t f.a).toNat with
         bmc := (s.greg t f.a).toNat % 64 + 64 * ty + 512 * op,
         payload := (s.greg t f.b).toNat % 2 ^ (8 * w) + 2 ^ 64 * (if op = 2 then (s.greg t f.d).toNat % 2 ^ (8 * w) else 0),
         dest := .result f.d (w == 4) } },
   { make := .invl, opc := 0x48, acc := .invl, fva := fun s t f => (s.greg t f.a).toNat,
     bad := fun f => f.malformed { a := true, st := true, imm := 0x80000001 },
     need := fun f => regMask f.a ||| regMask f.st,
     req := fun s t f => { s.threadReq t f opINVL (s.greg t f.a).toNat with bmc := f.imm.toNat % 2 } },
   { make := .ownAcq, opc := 0x49, acc := .own, fva := fun s t f => (s.greg t f.a).toNat,
     bad := fun f => f.malformed { d := true, a := true, st := true, imm := 0x80000000 } || f.clash false,
     need := fun f => regMask f.d ||| regMask f.a ||| regMask f.st,
     req := fun s t f => { s.threadReq t f opOWNACQ (s.greg t f.a).toNat with dest := .result f.d false } },
   { make := .ownRel, opc := 0x4A, acc := .own, fva := fun s t f => (s.greg t f.a).toNat,
     bad := fun f => f.malformed { d := true, a := true, st := true, imm := 0x80000000 } || f.clash false,
     need := fun f => regMask f.d ||| regMask f.a ||| regMask f.st,
     req := fun s t f => { s.threadReq t f opOWNREL (s.greg t f.a).toNat with dest := .result f.d false } }]

/-- RED's request (R236). -/
def redReq (s : State) (t : ThreadNo) (f : Insn) : Req :=
  let n := f.imm.toNat
  { s.threadReq t f (opREDADD + n % 4) (s.greg t f.a).toNat with
    bmc := (s.greg t f.a).toNat % 64 + 64 * getBits n 8 7 + 8192 * getBits n 4 4, payload := ((s.thr t).group f.b).toNat }

/-- RESOLVE's request for the ATOM whose status word is gB (R237). -/
def resolveAtomReq (s : State) (t : ThreadNo) (f : Insn) : Req :=
  let fva := (s.greg t f.a).toNat
  let key := (s.greg t f.b).toNat
  { s.threadReq t f opATOM fva with
    sk := getBits key 40 7, form := 2, bmc := fva % 64 + 64 * (if fva % 8 = 0 then 1 else 0), dest := .result f.d false,
    lseq := some (getBits key 24 16), t16 := getBits key 48 16 }

end Sys2Proof.Machine

/-- R233, R235, R239, R98, R110: a fabric instruction whose FVA is aligned sends the request that the rule describes, with its
result registers pending; one whose FVA is misaligned traps with MISALIGNED and INFO its FVA; one whose translation fails
faults its thread. -/
def Obligations.FabricInstructions : Prop :=
  ∀ e ∈ fabricRows, ∀ (th : ThreadNo) (f : Insn) (s : State), Issues s th e.opc f (e.need f) → e.bad f = false →
    (∀ t, e.fva s th f % e.align f = 0 → Sends s (e.req s th f) e.acc t →
      exec (e.make th f) s = .next (sentOn s th (e.req s th f) t)) ∧
    (e.fva s th f % e.align f ≠ 0 → exec (e.make th f) s = .next ((s.trap th 0x03 (e.fva s th f)).tally 1880)) ∧
    (∀ t x, e.fva s th f % e.align f = 0 → s.translate (s.ttag th) (e.fva s th f) e.acc = (t, .fault x) →
      exec (e.make th f) s = .next (s.countIssued (t.threadXlateFault th x e.acc (e.fva s th f)) th))

/-- R236, R237, R238: RED, RESOLVE of an ATOM, and FENCE. Where the spec is
silent or can be read two ways this is the model's reading (log entries 12 and 14). -/
def Obligations.ReductionsAndFences : Prop :=
  (∀ (th : ThreadNo) (f : Insn) (s t : State), Issues s th 0x45 f (regMask f.a ||| groupMask f.b ||| regMask f.st) →
    f.malformed { a := true, b := true, st := true, imm := 0x80007FF3 } = false → badGroup f.b = false → f.imm.toNat % 4 ≠ 3 →
    redListed (getBits f.imm.toNat 4 4) = true →
    let w := typeWidth (getBits f.imm.toNat 4 4)
    let first := (s.greg th f.a).toNat % 64
    let cnt := getBits f.imm.toNat 8 7
    first % w = 0 → cnt % w = 0 → 2 ≤ cnt → first + cnt ≤ 64 → Sends s (redReq s th f) .reduction t →
    exec (.red th f) s = .next (sentOn s th (redReq s th f) t)) ∧
  (∀ (th : ThreadNo) (f : Insn) (s t : State),
    Issues s th 0x46 f (regMask f.d ||| regMask f.a ||| regMask f.b ||| regMask f.st) →
    f.malformed { d := true, a := true, b := true, st := true, imm := 0x1F } = false → f.clash false = false → f.imm = 3 →
    (s.greg th f.a).toNat % 4 = 0 → (s.greg th f.b).getLsbD 23 = true →
    s.skidOf (getBits (s.greg th f.b).toNat 40 7) (s.tpart th) = true → Sends s (resolveAtomReq s th f) .atomic t →
    exec (.resolve th f) s = .next (sentOn s th (resolveAtomReq s th f) t)) ∧
  (∀ (th : ThreadNo) (f : Insn) (s : State), Issues s th 0x47 f 0 → f.malformed { imm := 1 } = false →
    (s.waitMet th (.fence (f.imm.getLsbD 0)) = true → Completes (.fence th f) s (Jumped s th (s.pc th + 8))) ∧
    (s.waitMet th (.fence (f.imm.getLsbD 0)) = false → Completes (.fence th f) s fun u => u.tstate th = stWaiting
      ∧ u.fld (R.SEQ_THREAD_STATUS.REASON th) = 3 ∧ u.pc th = s.pc th ∧ (u.thr th).wait = .fence (f.imm.getLsbD 0)
      ∧ SameMemory s u))

namespace Sys2Proof.Machine

/-- The handle slot that an engine instruction takes: none with NH, else the lowest free one (R240). -/
def takesSlot (s : State) (th : ThreadNo) (f : Insn) : Option (Option Nat) :=
  if f.imm.getLsbD 0 then some none else (s.thr th).freeHand.map some

/-- Engine operations may be issued: no tray drain, fewer than 64 of the thread under way (R240, R357). -/
abbrev EngineReady (s : State) (th : ThreadNo) : Prop :=
  s.fld R.REL_TRAY.STATE = 0 ∧ (s.thr th).ops + (s.thr th).reads < 64

end Sys2Proof.Machine

/-- R240, R241, R244, R248, R249: the engine instructions hand their operation on. -/
def Obligations.EngineInstructions : Prop :=
  ∀ (th : ThreadNo) (f : Insn) (s : State) (slot : Option Nat), EngineReady s th →
    (Issues s th 0x50 f f.engineNeed → f.engineBad true = false → (s.greg th f.b).toNat < 128 →
      s.skidOf (s.greg th f.b).toNat (s.tpart th) = true →
      (s.skid (s.greg th f.b).toNat).queue.length + (s.descs.filter fun o => o.kind == 1 && o.arg == (s.greg th f.b).toNat).length < 32 →
      takesSlot s th f = some slot →
      exec (.skdQ th f) s = .next (s.countIssued (s.handOn th f 1 (s.greg th f.b).toNat slot) th)) ∧
    (Issues s th 0x51 f f.engineNeed → f.engineBad false = false → takesSlot s th f = some slot →
      exec (.krn th f) s = .next (s.countIssued (s.handOn th f 2 0 slot) th)) ∧
    (Issues s th 0x52 f f.engineNeed → f.engineBad false = false → takesSlot s th f = some slot →
      exec (.coll th f) s = .next (s.countIssued (s.handOn th f 3 1 slot) th)) ∧
    (Issues s th 0x53 f f.engineNeed → f.engineBad true = false → 1 ≤ (s.greg th f.b).toNat → (s.greg th f.b).toNat ≤ 64 →
      takesSlot s th f = some slot →
      exec (.collBatch th f) s = .next (s.countIssued (s.handOn th f 4 (s.greg th f.b).toNat slot) th)) ∧
    (Issues s th 0x54 f (regMask f.a ||| regMask f.st) → f.malformed { a := true, st := true } = false →
      exec (.rsv th f) s = .next (s.countIssued (s.handOn th f 5 0 none) th)) ∧
    (Issues s th 0x57 f (regMask f.a ||| regMask f.b ||| regMask f.st) → f.malformed { a := true, b := true, st := true } = false →
      s.flag (R.COL_PART_CFG.LP_EN (s.tpart th)) = true → s.opt.lock = none → s.timeState ≠ tsLOST →
      (s.greg th f.a).toNat ≤ 15 → s.planValid (s.greg th f.a).toNat = true → s.tick + 2 ≤ (s.greg th f.b).toNat →
      (s.greg th f.b).toNat ≤ s.tick + 2 ^ 20 → Completes (.lpSet th f) s fun u =>
        u.pc th = (s.pc th + 8) % 2 ^ 57 ∧ (u.thr th).pend = (s.thr th).pend ||| regMask f.st ∧ (u.thr th).ops = (s.thr th).ops
          ∧ u.opt.lock = some (.lp th) ∧ SameMemory s u)

/-- R242: HPOLL and HWAIT return the status word of the handle; a slot that is no longer BUSY is free afterwards; HWAIT of a
BUSY one waits. R241: the end of a descriptor read queues a block transfer at its Skidder. -/
def Obligations.Handles : Prop :=
  (∀ (th : ThreadNo) (f : Insn) (s : State) (w : Word) (i : Option Nat), s.handleStatus th (s.greg th f.a) = (w, i) →
    f.malformed { d := true, a := true } = false →
    (Issues s th 0x55 f (regMask f.d ||| regMask f.a) → Completes (.hpoll th f) s fun u =>
      (∀ r, u.greg th r = if r = f.d ∧ r ≠ 0 then w else s.greg th r) ∧ u.pc th = (s.pc th + 8) % 2 ^ 57
        ∧ (∀ j, i = some j → ((s.thr th).hand j).busy = false → ((u.thr th).hand j).used = false)
        ∧ OnlyThread th [R.SEQ_THREAD_PC.PC th] s u) ∧
    (Issues s th 0x56 f (regMask f.d ||| regMask f.a) → (∀ j, i = some j → ((s.thr th).hand j).busy = false) →
      Completes (.hwait th f) s fun u =>
        (∀ r, u.greg th r = if r = f.d ∧ r ≠ 0 then w else s.greg th r) ∧ u.pc th = (s.pc th + 8) % 2 ^ 57
          ∧ (∀ j, i = some j → ((u.thr th).hand j).used = false) ∧ OnlyThread th [R.SEQ_THREAD_PC.PC th] s u) ∧
    (∀ j, Issues s th 0x56 f (regMask f.d ||| regMask f.a) → i = some j → ((s.thr th).hand j).busy = true →
      Completes (.hwait th f) s fun u => u.tstate th = stWaiting ∧ u.pc th = s.pc th ∧ (u.thr th).wait = .handle j)) ∧
  (∀ (op : Nat) (o : EngineOp) (hs : List HostAnswer) (s s1 : State) (bs : List Byte), s.fld R.REL_TRAY.STATE = 0 →
    s.descs.find? (fun o => o.op == op) = some o → o.kind = 1 → s.readDescriptor o.tag o.fva 64 = (s1, .ok bs false) →
    (s1.skid o.arg).queue.length < 32 →
    exec (.engineDescriptorReadDone op hs) s =
      let k : SkdDesc := { thread := o.thread, op := o.op, tag := o.tag, bytes := BitVec.ofNat 512 (ofLeBytes bs) }
      .next ((s1.setSkid o.arg { s1.skid o.arg with queue := (s1.skid o.arg).queue ++ [k] }).readOver o sOK true))

/-! ## Requests at their home, their responses, and host memory (chapters 6 and 13) -/

/-- R102, R131, R138: a load of a clean line of module memory that is not poisoned, with no earlier store to the line under way
(R104), answers OK with the line, and one of a poisoned line answers POISON with PZ; no byte of memory changes. R120: in a
read-shared region the bit of the reader's roster position is set in the entry's sharer map, and the answer is cacheable (the
packet's bit for that is the model's own, log entry 67). -/
def Obligations.Loads : Prop :=
  (∀ (p : Packet) (s s1 : State) (h i j : Nat) (m : BitVec 64), s.judgeAt p = (s1, .inr (.hbm h i)) →
    s.behindStore h none p = false → s.isPoison h = false →
    let s2 := s1.takeLocal p
    let k := mapKey i (partOf p.tag)
    seMode (s2.sieveEntry i) = 1 → s2.rosterAt (partOf p.tag) p.src.toNat = some j → FMap.find s2.home.sharers k = some m →
    let s3 := s2.setSharers (s2.home.sharers.put k (m ||| BitVec.ofNat 64 (2 ^ j)))
    let u := s3.sendPacket { p.reply s3.feid sOK (s3.readLine h).toNat with cacheable := true } (s3.isSealedLine h)
    (p.op = opREAD → exec (.readRequest p .clean) s = .next u) ∧ (p.op = opBREAD → exec (.breadRequest p .clean) s = .next u)) ∧
  ∀ (p : Packet) (s s1 : State) (h i : Nat), s.judgeAt p = (s1, .inr (.hbm h i)) → seMode (s.sieveEntry i) ≠ 1 →
    s.behindStore h none p = false →
    (s.isPoison h = false →
      let u := (s1.takeLocal p).respond p sOK (s.readLine h).toNat false (s.isSealedLine h)
      SameMemory s u ∧ (p.op = opREAD → exec (.readRequest p .clean) s = .next u)
        ∧ (p.op = opBREAD → exec (.breadRequest p .clean) s = .next u)) ∧
    (s.isPoison h = true →
      let u := (s1.takeLocal p).respond p sPOISON (s.readLine h).toNat true (s.isSealedLine h)
      SameMemory s u ∧ (p.op = opREAD → exec (.readRequest p .clean) s = .next u)
        ∧ (p.op = opBREAD → exec (.breadRequest p .clean) s = .next u))

/-- R102, R127, R131: a store to a line of module memory with no mirror puts its bytes into the line, leaves every other byte of
memory, poisons the line exactly where the data carries PZ or a partial store met poison, and answers OK, or POISON in the
latter case. -/
def Obligations.Stores : Prop :=
  ∀ (p : Packet) (s s1 : State) (h i : Nat), s.judgeAt p = (s1, .inr (.hbm h i)) → seMir (s1.sieveEntry i) = 0 →
    seMir (s.sieveEntry i) = 0 → p.first + p.bytes ≤ 64 → h < 4500000000 →
    let bad := s.isPoison h && decide (p.bytes ≠ 64)
    let done (c : Instr) := Completes c s fun u =>
      (∀ a, u.byte a = if 64 * h + p.first ≤ a ∧ a < 64 * h + p.first + p.bytes then lineByte p.data (a - 64 * h) else s.byte a)
        ∧ u.isPoison h = (p.pz || bad) ∧ (∀ k, k ≠ h → u.isPoison k = s.isPoison k)
        ∧ u = (((s1.takeLocal p).homeWrite h p.first p.bytes p.data (p.pz || bad)).respond p (if bad then sPOISON else sOK) 0)
    (p.op = opWRITE → done (.writeRequest p)) ∧ (p.op = opBWRITE → done (.bwriteRequest p)) ∧ (p.op = opWB → done (.wbRequest p))

/-- R111, R116, R123: an atomic, a reduction and an ownership request that the ledger lets through, on a line that is neither
poisoned nor mirrored: the new value, the record, the answer. -/
def Obligations.Atomics : Prop :=
  ∀ (p : Packet) (s s1 : State) (h i w : Nat), s.judgeAt p = (s1, .inr (.hbm h i)) → s.mirrorBusy h = false →
    (s1.takeLocal p).ledgerLook p.ledgerKey p.form p.line.toNat p.sub.toNat p.operandByte = .perform w →
    let s2 := s1.takeLocal p
    let s3 := s2.touchAtomic h
    let b := p.bmc.toNat
    (∀ s4 s5 : State, p.op = opATOM → s2.isPoison h = false →
      let ty := getBits b 6 3
      let old := getBits (s2.readLine h).toNat (8 * (b % 64)) (8 * typeWidth ty)
      let new := atomNew (getBits b 9 4) ty (typeWidth ty) old (p.payload.toNat % 2 ^ 64) (getBits p.payload.toNat 64 64)
      s4 = s3.homeWrite h (b % 64) (typeWidth ty) (BitVec.ofNat 512 (new * 2 ^ (8 * (b % 64)))) p.pz → s5 = s4.record p w sOK old →
      seMir (s5.sieveEntry i) = 0 → exec (.atomRequest p false) s = .next (s5.respond p sOK old)) ∧
    (∀ s4 s5 : State, p.op = opREDADD ∨ p.op = opREDMIN ∨ p.op = opREDMAX → s2.isPoison h = false →
      let ty := b / 2 ^ 13
      let new := redLine (p.op - opREDADD) ty (typeWidth ty) (b % 64) (getBits b 6 7) (s2.readLine h).toNat p.data.toNat
      s4 = s3.homeWrite h (b % 64) (getBits b 6 7) (BitVec.ofNat 512 new) p.pz → s5 = s4.record p w sOK 0 →
      seMir (s5.sieveEntry i) = 0 → exec (.redRequest p false) s = .next (s5.respond p sOK 0)) ∧
    (∀ s4 : State, p.op = opOWNACQ → seMode (s2.sieveEntry i) = 2 → seMir (s4.sieveEntry i) = 0 →
      (seOwner (s2.sieveEntry i) = 0xFFFF → p.src ≠ 0xFFFF → s4 = (s2.setOwner i p.src.toNat).record p w sOK 0 →
        exec (.ownAcqRequest p) s = .next (s4.respond p sOK 0)) ∧
      (seOwner (s2.sieveEntry i) ≠ 0xFFFF → seOwner (s2.sieveEntry i) ≠ p.src.toNat →
        s4 = s2.record p w sNORES (seOwner (s2.sieveEntry i)) →
        exec (.ownAcqRequest p) s = .next (s4.respond p sNORES (seOwner (s2.sieveEntry i))))) ∧
    (∀ s4 : State, p.op = opOWNREL → seMode (s2.sieveEntry i) = 2 → seOwner (s2.sieveEntry i) = p.src.toNat → p.src ≠ 0xFFFF →
      s4 = (s2.setOwner i 0xFFFF).record p w sOK 0 → seMir (s4.sieveEntry i) = 0 →
      exec (.ownRelRequest p) s = .next (s4.respond p sOK 0))

/-- R122, R127 to R129: invalidations and mirrors. Where the spec is silent or can be read two ways this is the model's reading
(log entries 22 and 67). -/
def Obligations.CoherenceAndMirrors : Prop :=
  (∀ (p : Packet) (s s1 : State) (h i : Nat), p.op = opINVL → s.judgeAt p = (s1, .inr (.hbm h i)) →
    let s2 := s1.takeLocal p
    let e := s2.sieveEntry i
    (seMode e = 0 → exec (.invlRequest p) s = .next (s2.respond p sOK 0)) ∧
    (seMode e = 1 → s2.home.tracker.length < 1024 → FMap.find s2.home.sharers (mapKey i (partOf p.tag)) = none →
      exec (.invlRequest p) s = .next (s2.invlDone
        { req := p, entry := i, waiting := [], line := (p.inv s2.feid (seSize e) 0 0).line, start := s2.tick,
          limit := s2.fld (R.SEQ_REQ_TIMEOUT.LOG2 (partOf p.tag)) })) ∧
    (seMode e = 2 → exec (.invlRequest p) s = .next (s2.respond p sDENY 0))) ∧
  (∀ (p : Packet) (s s2 : State), p.op = opINV → p.bmcValid = true → s.intact p = true →
    s2 = ((s.takeLocal p).rlcDrop fun l => !l.dirty && p.covers l.home.toNat l.sub.toNat l.line.toNat l.tag) →
    let meets (q : Packet) := p.covers (s2.homeOf q.dst.toNat q.line.toNat) q.sub.toNat q.line.toNat q.tag
    let mark (e : Nat × Slot) := if meets e.2.pkt then (e.1, { e.2 with noFill := true }) else e
    exec (.invRequest p) s = .next (({ s2 with slots := s2.slots.map mark }).respond p sOK 0)) ∧
  (∀ (p : Packet) (s : State) (k : Track), s.trackFor p = some k → s.intact p = true →
    (p.status ≠ 0 → exec (.sharerAck p) s =
      .next ((((s.takeLocal p).untrack k).raise R.HOM_EVENTS.INVL_FAIL).respond k.req p.status.toNat 0)) ∧
    (p.status = 0 → k.waiting = [(p.src, p.rtag)] →
      exec (.sharerAck p) s = .next (((s.takeLocal p).untrack k).invlDone { k with waiting := [] }))) ∧
  (∀ (p : Packet) (s s1 : State) (h i : Nat), p.op = opMCOPY → s.judgeAt p = (s1, .inr (.hbm h i)) →
    let s2 := s1.takeLocal p
    (s2.acceptsFrom i p.src = true →
      exec (.mcopyRequest p) s = .next ((s2.performStore p h).1.respond p (s2.performStore p h).2 0)) ∧
    (s2.acceptsFrom i p.src = false → exec (.mcopyRequest p) s = .next (s2.respond p sDENY 0))) ∧
  (∀ (p : Packet) (s s1 : State) (h i w : Nat), p.op = opMATOM → s.judgeAt p = (s1, .inr (.hbm h i)) →
    let s2 := s1.takeLocal p
    s2.acceptsFrom i p.src = true → s2.ledgerWay p.ledgerKey.set = some w →
    exec (.matomRequest p) s = .next (((s2.homeWrite h 0 64 p.data p.pz).record p w (getBits p.payload.toNat 536 4)
      (getBits p.payload.toNat 576 64)).respond p sOK 0)) ∧
  (∀ (p : Packet) (s : State) (m : MirrorOp), s.mirrorFor p = some m → s.intact p = true → p.status.toNat = sOK →
    let s1 := (s.takeLocal p).mirrorGone m
    (m.kind = .store →
      exec (.mirrorAck p) s = .next ((s1.performStore m.req m.hline).1.finish m.port m.req (s1.performStore m.req m.hline).2)) ∧
    (∀ st res, m.kind = .atomic st res → exec (.mirrorAck p) s = .next (s1.respond m.req st res)) ∧
    (m.kind = .async → exec (.mirrorAck p) s = .next s1.settleWaits.settleClosing) ∧
    (∀ who, m.kind = .engine who → exec (.mirrorAck p) s = .next (s1.performStore m.req m.hline).1.settleClosing))

/-- R138, R139, R23, R117: a response to a slot in use with its TAG and LINE completes the request, any other is discarded and
counted; a request whose timeout has passed completes with TIMEOUT, as do a mirrored store and an INVL (R122, R353); an atomic-class request is sent again in the retransmission
form. Where the spec is
silent or can be read two ways this is the model's reading (log entries 19 and 22). -/
def Obligations.Responses : Prop :=
  (∀ (p : Packet) (b : Bool) (s : State), exec (.rspData p b) s = exec (.rspData { p with cacheable := b } b) s) ∧
  (∀ (p : Packet) (s : State), s.intact p = true → (s.takeLocal p).slotFor p = none →
    let u := (s.takeLocal p).count R.SWC_DISCARDS.BAD_ENC
    (p.op = opRSP → exec (.rsp p) s = .next u) ∧ (p.op = opRSPDATA → exec (.rspData p p.cacheable) s = .next u)
      ∧ (p.op = opRSPATOM → exec (.rspAtom p) s = .next u)) ∧
  (∀ (p : Packet) (s : State) (x : Slot), s.intact p = true → (s.takeLocal p).slotFor p = some x →
    isAtomicClass x.pkt.op = false ∨ p.form ≠ 1 →
    (p.op = opRSP → exec (.rsp p) s = .next ((s.takeLocal p).complete p.slotKey { status := p.status.toNat } false)) ∧
    (p.op = opRSPDATA → exec (.rspData p p.cacheable) s =
      .next ((s.takeLocal p).complete p.slotKey { status := p.answerStatus, data := p.data, pz := p.pz } p.cacheable)) ∧
    (p.op = opRSPATOM → exec (.rspAtom p) s = .next ((s.takeLocal p).complete p.slotKey
      { status := p.answerStatus, result := some (p.payload.toNat % 2 ^ 64) } false))) ∧
  (∀ (key : Fin 32768) (s : State) (x : Slot), s.slot key = some x → x.hold = false →
    (x.first + 2 ^ x.limit ≤ s.tick → exec (.requestTimeout (.slot key)) s = .next (s.complete key { status := sTIMEOUT })) ∧
    (s.tick < x.first + 2 ^ x.limit → exec (.requestTimeout (.slot key)) s = .next s)) ∧
  (∀ (i : Nat) (s : State) (m : MirrorOp), s.home.mirror[i]? = some m →
    (m.start + 2 ^ m.limit ≤ s.tick → m.kind = .store →
      exec (.requestTimeout (.mirror i)) s = .next ((s.mirrorGone m).finish m.port m.req sTIMEOUT)) ∧
    (m.start + 2 ^ m.limit ≤ s.tick → m.kind = .async → exec (.requestTimeout (.mirror i)) s = .next s) ∧
    (s.tick < m.start + 2 ^ m.limit → exec (.requestTimeout (.mirror i)) s = .next s)) ∧
  (∀ (i : Nat) (s : State) (k : Track), s.home.tracker[i]? = some k →
    (k.start + 2 ^ k.limit ≤ s.tick →
      exec (.requestTimeout (.invl i)) s = .next (((s.untrack k).raise R.HOM_EVENTS.INVL_FAIL).respond k.req sTIMEOUT 0)) ∧
    (s.tick < k.start + 2 ^ k.limit → exec (.requestTimeout (.invl i)) s = .next s)) ∧
  (∀ (key : Fin 32768) (s s1 : State) (x : Slot) (y : Xlat), s.slot key = some x → isAtomicClass x.pkt.op = true → x.resolve = false →
    x.retries < s.fld R.HOM_ATOM_CTL.RETRY_MAX → x.lastSend + s.fld R.HOM_ATOM_CTL.RETRY_TICKS ≤ s.tick →
    s.translate x.pkt.tag x.fva (accOf x.pkt.op) = (s1, .ok y) →
    exec (.atomicRetransmit key) s = .next (s1.resend key x y))

/-- R102, R317: flush reads, the host's answers, and its silence. -/
def Obligations.HostMemory : Prop :=
  (∀ (h : PortNo) (s : State) (w : HostWrite), s.home.hostWrites = [w] → w.port = h → w.batch = 0 → s.nonPosted h < 1024 →
    Completes (.hostFlushRead h) s fun u => u.home.hostWrites = [{ w with batch := s.home.nextBatch }]
      ∧ u.home.flushes = s.home.flushes ++ [{ port := h, batch := s.home.nextBatch, start := s.tick }]
      ∧ u.home.nextBatch = s.home.nextBatch + 1 ∧ u.regs = s.regs ∧ u.hbm = s.hbm) ∧
  (∀ (h : PortNo) (s : State) (f : Flush) (d : Line), s.home.flushes.find? (fun f => f.port == h.val) = some f →
    exec (.hostFlushCompletion h (.success false d)) s = .next (s.batchDone f sOK) ∧
    exec (.hostFlushCompletion h .unsupported) s = .next (s.batchDone f sHOST) ∧
    exec (.hostFlushCompletion h .abort) s = .next (s.batchDone f sHOST) ∧
    (s.ctoPast h f.start = true →
      exec (.hostCompletionTimeout h true 0) s = .next ((s.raise (R.HST_EVENTS.HOST_CTO h)).batchDone f sHOST))) ∧
  (∀ (h : PortNo) (hpa : Nat) (s : State) (r : HostReq) (d : Line), s.hostReqAt h hpa = some r →
    exec (.hostCompletion h hpa (.success false d)) s = .next (s.hostAnswer r sOK d) ∧
    exec (.hostCompletion h hpa (.success true d)) s = .next (s.hostAnswer r sPOISON d) ∧
    exec (.hostCompletion h hpa .unsupported) s = .next (s.hostAnswer r sHOST 0) ∧
    (s.ctoPast h r.start = true →
      exec (.hostCompletionTimeout h false hpa) s = .next ((s.raise (R.HST_EVENTS.HOST_CTO h)).hostAnswer r sHOST 0))) ∧
  (∀ (r : HostReq) (d : Line) (s : State), r.req.op = opREAD →
    s.hostAnswer r sOK d = ({ s with home := { s.home with hostReqs := s.home.hostReqs.erase r } }).sendPacket
      { r.req.reply s.feid sOK d.toNat with cacheable := r.cacheable })

/-! ## Channels and links (chapter 7) -/

/-- R134, R135, R142, R147, R149: on an UP channel with no NAK pending and no replay under way, a packet whose header and
trailer pass is accepted and RX_SEQ advances by one; a header failure, a trailer failure met first, and a stomped packet; an
accepted packet that is for this module joins its local packets, and one on a channel of no link is discarded and counted
(R142). R146, R148, R159, R161: a replay's next packet goes out first, otherwise the packet that arbitration chooses; a packet
that waits alone goes out when credit, tokens and the shed level's limit let it, takes the next sequence number, and stays in
the replay buffer. Where the spec is silent or can be read two ways this is the model's reading (log entries 18, 57, 65, 66 and
71). -/
def Obligations.PacketsOnChannels : Prop :=
  (∀ (c : Channel) (p : Packet) (s : State), s.chUp c = true → (s.chan c).nak = none → (s.chan c).dups = 0 →
    (s.chan c).pool + p.len ≤ poolBytes c →
    (exec (.packetReceive c p p.hcrc p.trailer false) s = .next (s.acceptPacket c p)) ∧
    (s.inLink c = false → Completes (.packetReceive c p p.hcrc p.trailer false) s fun u =>
      u.fld (R.SWC_CH_STATUS.RX_SEQ c) = (s.fld (R.SWC_CH_STATUS.RX_SEQ c) + 1) % 2 ^ (R.SWC_CH_STATUS.RX_SEQ c).w
        ∧ u.fld (R.SWC_CH_CNT.RX_PKTS c) = (s.fld (R.SWC_CH_CNT.RX_PKTS c) + 1) % 2 ^ (R.SWC_CH_CNT.RX_PKTS c).w
        ∧ u.fld R.SWC_DISCARDS.ROUTE = (s.fld R.SWC_DISCARDS.ROUTE + 1) % 2 ^ R.SWC_DISCARDS.ROUTE.w
        ∧ (u.chan c).pool = (s.chan c).pool ∧ u.swc.localq = s.swc.localq ∧ u.swc.linkq = s.swc.linkq ∧ u.out = s.out
        ∧ SameMemory s u) ∧
    (∀ p' : Packet, s.inLink c = true → s.flag R.TEL_TRACE_STATUS.RUNNING = false → s.left = false → s.swc.stalled = [] →
      s.swc.transit = [] → s.fate p (.chan c) = .deliver p' → p'.noEndpoint = false → p'.vc ≠ 7 →
      Completes (.packetReceive c p p.hcrc p.trailer false) s fun u =>
        u.fld (R.SWC_CH_STATUS.RX_SEQ c) = (s.fld (R.SWC_CH_STATUS.RX_SEQ c) + 1) % 2 ^ (R.SWC_CH_STATUS.RX_SEQ c).w
          ∧ u.fld (R.SWC_CH_CNT.RX_PKTS c) = (s.fld (R.SWC_CH_CNT.RX_PKTS c) + 1) % 2 ^ (R.SWC_CH_CNT.RX_PKTS c).w
          ∧ u.swc.localq = s.swc.localq ++ [{ pkt := p', point := .chan c, link := 32, tick := s.tick, hash := 0, dl0 := p.dl,
                                              pool := true, trailer := some p.trailer }]
          ∧ (u.chan c).pool = (s.chan c).pool + p.len ∧ u.swc.linkq = s.swc.linkq ∧ u.out = s.out ∧ SameMemory s u) ∧
    (∀ hcrc trailer flagged, hcrc ≠ p.hcrc →
      exec (.packetReceive c p hcrc trailer flagged) s = .next ((s.count (R.SWC_CH_CNT.HCRC_ERR c) 1).sendNak c 1)) ∧
    (exec (.packetReceive c p p.hcrc (~~~p.trailer) false) s = .next (s.stomped c p)) ∧
    (∀ trailer flagged, flagged = true ∨ (trailer ≠ p.trailer ∧ trailer ≠ ~~~p.trailer) →
      exec (.packetReceive c p p.hcrc trailer flagged) s = .next (s.trailerFailed c p))) ∧
  (∀ (c : Channel) (s : State), s.chState c = chUP → s.left = false →
    (∀ q r, (s.chan c).resend = q :: r → Completes (.packetSend c) s fun u =>
      u.out = .packet c q.pkt q.stomp :: s.out ∧ (u.chan c).resend = r ∧ (u.chan c).replay = (s.chan c).replay
        ∧ u.fld (R.SWC_CH_CNT.REPLAYED c) = (s.fld (R.SWC_CH_CNT.REPLAYED c) + 1) % 2 ^ (R.SWC_CH_CNT.REPLAYED c).w
        ∧ SameMemory s u) ∧
    ((s.chan c).resend = [] → s.flag (R.SWC_CH_STATUS.MEMBER c) = true →
      s.flag (R.SWC_LINK_STATUS.JOINING (s.fld (R.SWC_CH_STATUS.LINK c))) = false → (s.chan c).replay.length < 2048 →
      (∀ q x s1, s.arbitrate c (s.swc.linkq.filter (s.isFor c)) = (some (q, x), s1) →
        exec (.packetSend c) s = .next (s1.transmit c q x)) ∧
      (∀ q : QPkt, s.swc.linkq = [q] → s.isFor c q = true → s.maySend c q = true → (q.pkt.vc = 7 → q.pkt.len ≤ (s.chan c).tokens) →
        (q.pkt.vc ≠ 7 → s.egressOk c q = true) → Completes (.packetSend c) s fun u =>
          u.out = .packet c q.pkt q.stomp :: s.out ∧ u.swc.linkq = [] ∧ (u.chan c).replay = (s.chan c).replay ++ [q]
            ∧ u.fld (R.SWC_CH_STATUS.TX_SEQ c) = (s.fld (R.SWC_CH_STATUS.TX_SEQ c) + 1) % 2 ^ (R.SWC_CH_STATUS.TX_SEQ c).w
            ∧ u.fld (R.SWC_CH_CNT.TX_PKTS c) = (s.fld (R.SWC_CH_CNT.TX_PKTS c) + 1) % 2 ^ (R.SWC_CH_CNT.TX_PKTS c).w
            ∧ SameMemory s u)))

/-- R81, R82, R166: packets that have waited MAX_AGE ticks are gone, whichever queue holds them; the ends of holds. Where the spec is
silent or can be read two ways this is the model's reading (log entry 17). -/
def Obligations.PacketWaits : Prop :=
  (∀ s : State, s.swc.stalled = [] → (s.swc.linkq ++ s.swc.localq ++ s.swc.holdq ++ s.swc.transq).all (fun q => !q.pool && decide (32 ≤ q.link)) = true →
    Completes .packetAgeExpire s fun u =>
      u.swc.linkq = s.swc.linkq.filter (fun q => decide (s.tick < q.tick + s.fld R.SWC_FWD_CTL.MAX_AGE))
        ∧ u.swc.localq = s.swc.localq.filter (fun q => decide (s.tick < q.tick + s.fld R.SWC_FWD_CTL.MAX_AGE))
        ∧ u.swc.holdq = s.swc.holdq.filter (fun q => decide (s.tick < q.tick + s.fld R.SWC_FWD_CTL.MAX_AGE))
        ∧ u.swc.transq = s.swc.transq.filter (fun q => decide (s.tick < q.tick + s.fld R.SWC_FWD_CTL.MAX_AGE)) ∧ SameMemory s u) ∧
  (∀ s : State, s.swc.holdq = [] → s.swc.stalled = [] → Completes .pathHoldExpire s fun u =>
    u.swc = { s.swc with path := s.swc.path.filter fun e => !((s.swc.path.filter fun e => decide (e.2 ≤ s.tick)).map (·.1)).contains e.1 }
      ∧ u.fld R.SWC_WHISK_STATUS.HOLDQ = 0 ∧ OnlyFields [R.SWC_WHISK_STATUS.HOLDQ] s u ∧ SameMemory s u) ∧
  (∀ (s : State) (q : QPkt) (f : Nat), s.swc.holdq = [q] → s.swc.stalled = [] → q.pkt.dst.toNat = f → s.swc.path = [(f, s.tick)] →
    exec .pathHoldExpire s =
      .next ((({ s with swc := { s.swc with holdq := [], path := [] } }).setFld R.SWC_WHISK_STATUS.HOLDQ 0).rechoose q).unstall) ∧
  (∀ s : State, s.swc.transq = [] → Completes .groupHoldExpire s fun u =>
    u = { s with swc := { s.swc with transit := s.swc.transit.filter fun h => decide (s.tick < h.until_) } }) ∧
  (∀ (s : State) (q : QPkt) (h : BucketHold), s.swc.transq = [q] → s.swc.transit = [h] → h.until_ ≤ s.tick →
    exec .groupHoldExpire s = .next (({ s with swc := { s.swc with transit := [], transq := [] } }).inject { q with link := 0 }))

/-- R143, R145 to R148, R150, R151, R162: what the link control blocks and the waits for them do on an UP channel; a control
block of which no bit has changed is read as the block that was sent (Tables 7.5 to 7.10), and one that fails its check is
counted. How blocks reach a lane is the model's choice (log entry 66). -/
def Obligations.ControlBlocks : Prop :=
  (∀ (c : Channel) (s : State), s.chUp c = true → (s.chan c).joining = true →
    s.linkOf (s.fld (R.SWC_CH_STATUS.PEER c)) = none → exec (.channelJoin c) s = .next (s.joinLink c)) ∧
  (∀ (c : Channel) (ack next : BitVec 12) (freed : BitVec 192) (s : State), s.chUp c = true → (s.chan c).nak.isSome = true →
    s.flag (R.SWC_CH_STATUS.MEMBER c) = false →
    let s1 := ((s.setChan c { s.chan c with lastCredit := s.tick, ei := false }).acknowledge c ack.toNat).takeFreed c freed
    (s1.chan c).nak.isSome = true → s1.flag (R.SWC_CH_STATUS.MEMBER c) = false →
    exec (.creditBlock c ack next freed) s = .next s1) ∧
  (∀ (c : Channel) (expect : BitVec 12) (reason : BitVec 4) (s : State), s.chUp c = true →
    let s1 := s.addFld (R.SWC_CH_CNT.NAK_RX c) 1
    let i := (expect.toNat + 4096 - s1.oldest c) % 4096
    (i < (s1.chan c).replay.length → exec (.nakBlock c expect reason) s = .next (s1.startReplay c i)) ∧
    ((s1.chan c).replay.length ≤ i →
      exec (.nakBlock c expect reason) s = .next ((s1.linkEvent R.SWC_EVENTS.NAK_WINDOW).retrain c 0))) ∧
  (∀ (c : Channel) (seq : BitVec 12) (s : State), s.chUp c = true →
    let back := (s.fld (R.SWC_CH_STATUS.RX_SEQ c) + 4096 - seq.toNat) % 4096
    (back ≤ 2047 → exec (.replayBlock c seq) s = .next (s.setChan c { s.chan c with nak := none, dups := back })) ∧
    (2047 < back → exec (.replayBlock c seq) s = .next (s.sendNak c 3))) ∧
  (∀ (c : Channel) (feid : BitVec 16) (tick : BitVec 64) (s : State),
    exec (.leaveBlock c feid 4 tick) s = .next ((s.linkEvent R.SWC_EVENTS.LEAVE_RX).channelDown c 0)) ∧
  (∀ (x : RxSymbols) (s : State), x.symbols = [] → exec (.idleBlock x) s = .next s) ∧
  (∀ (x : RxSymbols) (s : State), x.symbols ≠ [] → (s.lanesOf x.chan).contains x.lane.val = true → exec (.idleBlock x) s =
    .next (s.noteCode x.lane ((s.code x.lane).receive (s.fec272 x.lane) x.symbols) 0 0)) ∧
  (∀ b : CtrlBlock, b.bytes < 2 ^ 256 ∧ ctrlDecode (BitVec.ofNat 256 b.bytes) = some b) ∧
  (∀ (c : Channel) (s : State) (t r : Nat), (s.chan c).nak = some (t, r) →
    (t + 2 ≤ s.tick → exec (.nakRepeat c) s = .next (s.sendNak c r)) ∧ (s.tick < t + 2 → exec (.nakRepeat c) s = .next s)) ∧
  (∀ (c : Channel) (s : State), s.chUp c = true → (s.chan c).ei = false →
    ((s.chan c).lastCredit + 64 ≤ s.tick →
      exec (.silentPeerTimeout c) s = .next ((s.linkEvent R.SWC_EVENTS.SILENT_PEER).channelDown c 3)) ∧
    (s.tick < (s.chan c).lastCredit + 64 → exec (.silentPeerTimeout c) s = .next s)) ∧
  (∀ (x : RxBlock) (s : State), ctrlDecode x.bits ≠ none → x.flagged = false → exec (.badControlBlock x) s = .next s) ∧
  (∀ (x : RxBlock) (s : State), x.flagged = true ∨ ctrlDecode x.bits = none →
    Completes (.badControlBlock x) s fun u => u.fld (R.SWC_CH_CNT.CTRL_ERR x.chan)
        = (s.fld (R.SWC_CH_CNT.CTRL_ERR x.chan) + 1) % 2 ^ (R.SWC_CH_CNT.CTRL_ERR x.chan).w
      ∧ OnlyRegisters [R.SWC_CH_CNT.CTRL_ERR x.chan] s u)

/-! ## Electrical ports and lanes (chapter 12) -/

/-- R290, R291, R294: lock, loss, training and retraining of electrical lanes and ports; R270: a lightlane's first frame of full
training, and its limit. Where the spec is silent or can be read two ways this is the model's reading (log entries 55, 66 and
72). -/
def Obligations.PortTraining : Prop :=
  (∀ (l : ElkLaneNo) (key : LaneKey) (s : State), key.val = 256 + l.val →
    (s.elkState l = 2 → Completes (.laneLock key) s fun u => u.elkState l = 3 ∧ u.elkLane l = { s.elkLane l with stage := 5, since := s.tick }
      ∧ OnlyFields [R.ELK_LANE_STATUS.STATE l] s u ∧ SameMemory s u) ∧
    (s.elkState l = 3 → s.laneActive l = false → Completes (.laneLockLoss key) s fun u => u.elkState l = 2
      ∧ u.fld (R.ELK_LANE_CNT.LOCK_LOSS l) = (s.fld (R.ELK_LANE_CNT.LOCK_LOSS l) + 1) % 2 ^ (R.ELK_LANE_CNT.LOCK_LOSS l).w
      ∧ u.flag R.ELK_EVENTS.LOCK_LOSS = true ∧ SameMemory s u)) ∧
  (∀ (l : ElkLaneNo) (s : State), s.elkState l = 3 → (s.chan (256 + l / 8)).ei = false → s.laneActive l = false →
    exec (.electricalLos l) s = .next ((s.setFld (R.ELK_LANE_STATUS.LOS l) 1).linkEvent R.ELK_EVENTS.LOS)) ∧
  (∀ (key : LaneKey) (word : BitVec 32) (inv rdy : Bool) (s : State),
    (crc16 (leBytes 2 (word.toNat % 2 ^ 16))).toNat ≠ word.toNat / 2 ^ 16 → exec (.trainingFrame key word inv rdy) s = .next s) ∧
  (∀ (key : LaneKey) (word : BitVec 32) (inv rdy : Bool) (s : State), key.val < 256 → (s.lane key).train = 1 →
    (crc16 (leBytes 2 (word.toNat % 2 ^ 16))).toNat = word.toNat / 2 ^ 16 →
    Completes (.trainingFrame key word inv rdy) s fun u => (u.lane key).train = 2 ∧ (u.lane key).trainAt = s.tick
      ∧ (u.lane key).peerReady = ((s.lane key).peerReady || word.getLsbD 12) ∧ (u.lane key).ready = ((s.lane key).ready || rdy)
      ∧ u.regs = s.regs ∧ SameMemory s u) ∧
  (∀ (key : LaneKey) (s : State), key.val < 256 → 1 ≤ (s.lane key).train → (s.lane key).train ≤ 5 →
    (s.lane key).trainAt + laneLimit (s.lane key).train ≤ s.tick → exec (.trainingStageLimit key) s = .next (s.fullTrain key)) ∧
  (∀ (l : ElkLaneNo) (key : LaneKey) (word : BitVec 32) (inv rdy : Bool) (s : State), key.val = 256 + l.val → s.elkState l = 1 →
    (s.elkLane l).stage = 1 →
    (crc16 (leBytes 2 (word.toNat % 2 ^ 16))).toNat = word.toNat / 2 ^ 16 → getBits word.toNat 8 2 = 0 →
    Completes (.trainingFrame key word inv rdy) s fun u => (u.elkLane l).stage = 2 ∧ (u.elkLane l).since = s.tick
      ∧ (u.elkLane l).peerReady = word.getLsbD 12 ∧ u.fld (R.ELK_LANE_STATUS.PEER_LANE l) = word.toNat % 8
      ∧ u.fld (R.ELK_LANE_STATUS.INVERTED l) = b2n inv ∧ (u.elkPort (l / 8)).skois = word.getLsbD 14 ∧ SameMemory s u) ∧
  (∀ (l : ElkLaneNo) (key : LaneKey) (s : State), key.val = 256 + l.val → (s.elkLane l).stage = 1 → (s.elkLane l).out = false → s.elkState l = 1 →
    (s.elkLane l).since + stageLimit 1 ≤ s.tick →
    exec (.trainingStageLimit key) s =
      .next (((s.linkEvent R.ELK_EVENTS.TRAIN_FAIL).setElkLane l { out := true }).setFld (R.ELK_LANE_STATUS.STATE l) 0)) ∧
  (∀ (m : ElkPortNo) (s : State), s.fld (R.ELK_PORT_STATUS.STATE m) = 1 → (s.trainees m).all (fun l => s.elkState l == 3) = true →
    s.flag R.GLB_TIME_STATUS.REFA_OK = true →
    (s.fld (R.ELK_PORT_CTL.MIN_LANES m) ≤ (s.trainees m).length → s.trainees m ≠ [] → Completes (.portTrainingDone m) s fun u =>
      u.fld (R.ELK_PORT_STATUS.STATE m) = 2 ∧ u.fld (R.SWC_CH_STATUS.STATE (256 + m)) = chTRAINING ∧ SameMemory s u) ∧
    ((s.trainees m).length < s.fld (R.ELK_PORT_CTL.MIN_LANES m) →
      exec (.portTrainingDone m) s = .next (((s.setFld (R.ELK_PORT_STATUS.STATE m) 0).setFld (R.SWC_CH_STATUS.STATE (256 + m)) chDOWN).linkEvent
        R.ELK_EVENTS.PORT_DOWN))) ∧
  (∀ (m : ElkPortNo) (s : State), s.fld (R.ELK_PORT_STATUS.STATE m) = 0 → s.flag (R.ELK_PORT_CTL.EN m) = true →
    (s.elkPort m).tryAt + 2 ^ 16 ≤ s.tick → exec (.trainingRetry m) s = .next (s.portTrain m 0 true)) ∧
  (∀ (via : Via) (m : ElkPortNo) (s : State), s.sees via (R.ELK_PORT_CTL.adr m) true = true → s.flag (R.ELK_PORT_CTL.EN m) = true →
    exec (.portRetrain via m) s = .next (s.portTrain m 0 false)) ∧
  (∀ (m : ElkPortNo) (s : State), s.fld (R.ELK_PORT_CTL.REJOIN m) = 0 → s.fld (R.ELK_PORT_STATUS.STATE m) = 2 →
    (upFrom (8 * m.val) 8).any (fun l => s.mayTrain l && (s.elkLane l).stage == 6) = true →
    exec (.laneRejoin m) s = .next (s.portTrain m 0 false))

/-- R150, R292, R293, R296: electrical idle and Skois sleep. Where the spec is
silent or can be read two ways this is the model's reading (log entry 16). -/
def Obligations.ElectricalIdle : Prop :=
  (∀ (m : ElkPortNo) (s : State), s.flag (R.ELK_PORT_CTL.IDLE_EN m) = true → s.skois (256 + m) = false →
    s.fld (R.ELK_PORT_STATUS.STATE m) = 2 → s.chState (256 + m) = chUP → s.nothingToSend (256 + m) = true →
    (s.elkPort m).sentEi = false →
    let s1 := (s.sendEi (256 + m)).setElkPort m { s.elkPort m with sentEi := true }
    ((s.chan (256 + m)).ei = false → exec (.idleEnter m) s = .next s1) ∧
    ((s.chan (256 + m)).ei = true → exec (.idleEnter m) s = .next (s1.goQuiet m))) ∧
  (∀ (c : Channel) (s : State), (c.val < 256 → exec (.eiBlock c) s = .next s) ∧
    (256 ≤ c.val → s.skois c = false → (s.elkPort (c - 256)).sentEi = false →
      exec (.eiBlock c) s = .next (s.setChan c { s.chan c with ei := true })) ∧
    (256 ≤ c.val → s.skois c = false → (s.elkPort (c - 256)).sentEi = true →
      exec (.eiBlock c) s = .next ((s.setChan c { s.chan c with ei := true }).goQuiet (c - 256)))) ∧
  (∀ (m : ElkPortNo) (s : State), s.fld (R.ELK_PORT_STATUS.STATE m) = 3 → s.mustExit m = true → s.skois (256 + m) = false →
    Completes (.idleExit m) s fun u => u.fld (R.ELK_PORT_STATUS.STATE m) = 2 ∧ u.fld (R.SWC_CH_STATUS.STATE (256 + m)) = chUP
      ∧ (u.elkPort m).sentEi = false ∧ (u.chan (256 + m)).ei = false ∧ (u.chan (256 + m)).lastCredit = s.tick ∧ SameMemory s u) ∧
  (∀ (m : ElkPortNo) (s : State), s.skois (256 + m) = true → s.fld (R.ELK_PORT_STATUS.STATE m) = 2 →
    s.nothingToSend (256 + m) = true → (s.elkPort m).busyAt + s.sleepTicks m ≤ s.tick →
    Completes (.skoisSleep m) s fun u => u.fld (R.ELK_PORT_STATUS.STATE m) = 4 ∧ u.fld (R.SWC_CH_STATUS.STATE (256 + m)) = chIDLE
      ∧ u.out = .control (256 + m) .ei :: s.out ∧ SameMemory s u)

/-- R9, R297 to R299: lane tests, counter sources, injection and the pattern checker. Where the spec is silent or can be read
two ways this is the model's reading (log entries 54, 61 and 66). -/
def Obligations.LaneTests : Prop :=
  (∀ (via : Via) (l : ElkLaneNo) (v : Word) (s : State), s.sees via (R.ELK_LANE_CTL.adr l) true = true →
    s.reg (R.ELK_LANE_CTL.adr l) = 0 → s.laneActive l = false → v.toNat % 32 = 1 →
    Completes (.elkLaneTestWrite via l v) s fun u => u.flag (R.ELK_LANE_CTL.TEST l) = true ∧ u.elkState l = 5 ∧ u.elkLane l = {}
      ∧ u.fld (R.ELK_LANE_STATUS.CHK_LOCK l) = 0 ∧ SameMemory s u) ∧
  (∀ (via : Via) (v : Word) (s : State), s.sees via R.ELK_CNT_SRC.adr true = true →
    (∀ l < 48, s.flag ⟨R.ELK_CNT_SRC.adr, l, 1⟩ = v.getLsbD l) → exec (.elkCntSrcWrite via v) s = .next s) ∧
  (∀ (via : Via) (l : ElkLaneNo) (s : State), s.sees via R.ELK_CNT_SRC.adr true = true → s.flag (R.ELK_LANE_CTL.TEST l) = true →
    s.reg R.ELK_CNT_SRC.adr = 0 → Completes (.elkCntSrcWrite via (BitVec.ofNat 64 (2 ^ l.val))) s fun u =>
      u.flag ⟨R.ELK_CNT_SRC.adr, l, 1⟩ = true ∧ (∀ k < 4, u.fld (R.ELK_LANE_CNT.CNT l k) = 0) ∧ SameMemory s u) ∧
  (∀ (via : Via) (l : ElkLaneNo) (kind : BitVec 2) (len : BitVec 8) (count interval : BitVec 16) (s : State),
    s.sees via (R.ELK_INJECT.adr l) true = true →
    (FMap.find s.elk.inject (256 + l.val) = none → goodInject kind.toNat len.toNat count.toNat interval.toNat = true → s.elkState l ≠ 4 →
      exec (.elkInjectGo via l kind len count interval) s =
        .next (s.startInject (256 + l.val) kind.toNat len.toNat count.toNat interval.toNat (R.ELK_INJECT.BUSY l))) ∧
    (goodInject kind.toNat len.toNat count.toNat interval.toNat = false →
      exec (.elkInjectGo via l kind len count interval) s = .next (s.linkEvent R.ELK_EVENTS.CFG_BUSY))) ∧
  (∀ (key : LaneKey) (s : State), s.checking key = true → exec (.patternCheckerLock key) s = .next (s.setFld (chkLock key) 1)) ∧
  (∀ (l : ElkLaneNo) (key : LaneKey) (s : State), key.val = 256 + l.val → s.checking key = true → s.flag (chkLock key) = true →
    s.flag ⟨R.ELK_CNT_SRC.adr, l, 1⟩ = true → Completes (.patternCheckerRelock key) s fun u =>
      u.fld (R.ELK_LANE_CNT.CNT l 3) = (s.fld (R.ELK_LANE_CNT.CNT l 3) + 1) % 2 ^ (R.ELK_LANE_CNT.CNT l 3).w
        ∧ OnlyRegisters [R.ELK_LANE_CNT.CNT l 3] s u)

/-! ## Optics (chapter 11) -/

/-- R260, R261, R268, Table 11.4: a plan switch, from its request to its completion, each part at its tick from T and not
before. Where the spec is silent or can be read two ways this is the model's reading (log entries 29 and 72). -/
def Obligations.PlanSwitches : Prop :=
  (∀ (via : Via) (plan : BitVec 4) (tick : BitVec 56) (s : State), s.sees via R.OPT_PLAN_CMD.adr true = true →
    let t := s.tick / 2 ^ 56 * 2 ^ 56 + tick.toNat
    (s.opt.lock = none → s.timeState ≠ tsLOST → s.tick + 2 ≤ t → t ≤ s.tick + 2 ^ 20 → s.planValid plan.toNat = true →
      s.opt.wins = [] → Completes (.planSwitchRequest via plan tick) s fun u =>
        u.opt.sw = some { plan := plan.toNat, tick := t, by_ := .cmd } ∧ u.opt.lock = some .cmd
          ∧ u.flag R.OPT_PLAN_STATUS.PENDING = true ∧ u.fld R.OPT_PLAN_STATUS.NEXT = plan.toNat ∧ SameMemory s u) ∧
    (s.opt.lock ≠ none ∨ s.timeState = tsLOST →
      exec (.planSwitchRequest via plan tick) s = .next (s.setFld R.OPT_PLAN_STATUS.RESULT sNORES)) ∧
    (s.opt.lock = none → s.timeState ≠ tsLOST → t < s.tick + 2 ∨ s.tick + 2 ^ 20 < t ∨ s.planValid plan.toNat = false →
      exec (.planSwitchRequest via plan tick) s = .next (s.setFld R.OPT_PLAN_STATUS.RESULT sCHECK))) ∧
  (∀ (s : State) (x : PlanSwitch), s.opt.sw = some x →
    (x.stage = 0 → x.tick ≤ s.tick → s.opt.force = false → s.timeState ≠ tsLOST ∨ x.by_ = .restore →
      s.changedLanes x.plan = [] → Completes .planSwitchStart s fun u =>
      u.opt.sw = some { x with stage := 1, changed := [] } ∧ u.swc.gains = [] ∧ SameMemory s u) ∧
    (x.stage = 0 → s.tick < x.tick → exec .planSwitchStart s = .next s) ∧
    (x.stage = 1 → x.tick + 12 ≤ s.tick → x.changed = [] → Completes .switchRetune s fun u =>
      u.fld R.OPT_PLAN_STATUS.CUR = x.plan % 2 ^ R.OPT_PLAN_STATUS.CUR.w ∧ u.opt.sw = some { x with stage := 2 } ∧ u.opt.force = true
        ∧ SameMemory s u) ∧
    (∀ (c : LaneNo) (k : Fin 512) (d : Fin 9), x.stage = 2 → x.tick + 16 ≤ s.tick → k.val = 32 * (c / 16) + c % 16 →
      s.laneState c = lsRETUNE → Completes (.switchFineSearch [(k, d)]) s fun u => u.opt.sw = some { x with stage := 3 }
        ∧ u.fld (R.OPT_LANE_STATUS.TX_CODE c) = moveCode (s.fld (R.OPT_LANE_STATUS.TX_CODE c)) (16 * (d.val : Int) - 64)
        ∧ OnlyFields [R.OPT_LANE_STATUS.TX_CODE c] s u ∧ SameMemory s u) ∧
    (x.stage = 3 → x.tick + 18 ≤ s.tick → x.changed = [] → Completes .switchAcquire s fun u =>
      u = s.setOpt { s.opt with sw := some { x with stage := 4 } }) ∧
    (x.stage = 4 → x.tick + 25 ≤ s.tick → x.changed = [] → x.by_ = .cmd → s.opt.restore = none → s.col.entries = [] →
      Completes .switchComplete s fun u => u.opt.sw = none ∧ u.opt.lock = none ∧ u.flag R.OPT_PLAN_STATUS.PENDING = false
        ∧ u.fld R.OPT_PLAN_STATUS.RESULT = sOK
        ∧ u.fld R.OPT_COUNTS.SWITCHES = (s.fld R.OPT_COUNTS.SWITCHES + 1) % 2 ^ R.OPT_COUNTS.SWITCHES.w ∧ SameMemory s u) ∧
    (x.stage = 1 → x.tick + 12 ≤ s.tick → exec .switchRetune s =
      let s1 := (s.setFld R.OPT_PLAN_STATUS.CUR x.plan).setOpt { s.opt with force := true, sw := some { x with stage := 2 } }
      .next (x.changed.foldl (fun s c => s.retune c (s.planWord x.plan c)) s1).refreshLinks) ∧
    (x.stage = 1 → s.tick < x.tick + 12 → exec .switchRetune s = .next s) ∧
    (∀ steps, x.stage = 2 → x.tick + 16 ≤ s.tick → (∀ e ∈ steps, s.laneState (16 * (e.1.val / 32) + e.1.val % 16) ≠ lsRETUNE) →
      exec (.switchFineSearch steps) s = .next (s.setSwitch { x with stage := 3 })) ∧
    (x.stage = 3 → x.tick + 18 ≤ s.tick → exec .switchAcquire s =
      .next (x.changed.foldl (fun s c =>
        if s.laneState c = lsRETUNE then ((s.acquireRing c false).acquireRing c true).verify c false true else s)
        (s.setSwitch { x with stage := 4 }))) ∧
    (x.stage = 4 → x.tick + 25 ≤ s.tick → x.changed = [] → s.opt.restore = none → exec .switchComplete s =
      let s1 := (s.setOpt { s.opt with sw := none }).setFld R.OPT_PLAN_STATUS.PENDING 0
      let s2 := { s1 with swc := { s1.swc with gains := [] } }
      .next (((s2.count R.OPT_COUNTS.SWITCHES).refreshLinks).tellSwitch x.by_)) ∧
    (x.stage = 4 → s.tick < x.tick + 25 → exec .switchComplete s = .next s))

/-- R263 to R269: the lock-in's window, pilot and identity checks, sweeps, their limits, loss and return of light. Where the
spec is silent or can be read two ways this is the model's reading (log entries 29, 59 and 72). -/
def Obligations.Lightlanes : Prop :=
  (∀ (c : LaneNo) (drop : Bool) (err power : BitVec 16) (s : State),
    (s.ring (c / 16) (ringNo c drop)).winAt + 1024 ≤ s.tick → s.mgtAway = false → s.underLock c drop = true →
    (s.ring (c / 16) (ringNo c drop)).locked = false → (s.ring (c / 16) (ringNo c drop)).good = 0 →
    (s.ring (c / 16) (ringNo c drop)).acq = 0 → (∃ k : Int, err.toInt = k * (2 ^ s.fld R.OPT_RING_CTL.GAIN : Nat)) → err.toInt ≠ 0 →
    Completes (.ringLockWindow c drop err power) s fun u => SameMemory s u ∧
      (0 < moveCode (s.fld (codeField c drop)) (max (-64) (min 64 (err.toInt / (2 ^ s.fld R.OPT_RING_CTL.GAIN : Nat)))) →
        moveCode (s.fld (codeField c drop)) (max (-64) (min 64 (err.toInt / (2 ^ s.fld R.OPT_RING_CTL.GAIN : Nat)))) < 65535 →
        u.fld (codeField c drop)
          = moveCode (s.fld (codeField c drop)) (max (-64) (min 64 (err.toInt / (2 ^ s.fld R.OPT_RING_CTL.GAIN : Nat)))))) ∧
  (∀ (c : LaneNo) (tb rb : BitVec 5) (tl rl : BitVec 16) (s : State), s.laneState c = lsUP →
    (s.lane c).pilotAt + 4 ≤ s.tick → passA (lwTx (s.laneWord c)) tb tl = true → passA (lwRx (s.laneWord c)) rb rl = true →
    exec (.pilotCheck c tb tl rb rl) s =
      .next ((s.setFld (R.OPT_LANE_STATUS.CHK_A c) 1).setLane c { s.lane c with
        failM := 0, failD := 0, pilotAt := (s.lane c).pilotAt + 4 * ((s.tick - (s.lane c).pilotAt) / 4) })) ∧
  (∀ (c : LaneNo) (tb rb : BitVec 5) (tl rl : BitVec 16) (s : State), s.tick < (s.lane c).pilotAt + 4 →
    exec (.pilotCheck c tb tl rb rl) s = .next s) ∧
  (∀ (c : LaneNo) (b : IdentBlock) (ch : Channel) (s : State), ch.val = c.val → s.ttOff (portCode ch) = true → s.inTest c = false →
    s.laneState c = lsUP → s.checkB c b = true → s.chState c = chUP → Completes (.identBlock ch b) s fun u =>
      (u.chan ch).ident = some b ∧ u.fld (R.SWC_CH_STATUS.PEER ch) = b.feid.toNat ∧ u.flag (R.OPT_LANE_STATUS.CHK_B c) = true
        ∧ u.laneState c = lsUP ∧ SameMemory s u) ∧
  (∀ (c : LaneNo) (codes : BitVec 512) (found : Bool) (fine : Fin 9) (s : State), s.laneState c = lsOFF → (s.lane c).sweepD = true →
    (s.lane c).sweepAt + s.fld R.OPT_RING_CTL.SWEEP_TICKS ≤ s.tick → Completes (.ringSweepDone c true codes found fine) s fun u =>
      (∀ k < 32, u.calCode (c / 16) (ringNo c true) k = getBits codes.toNat (16 * k) 16) ∧ (u.lane c).sweepD = false ∧ SameMemory s u) ∧
  (∀ (c : LaneNo) (s : State), s.laneState c = lsVERIFY → s.inTest c = false → (s.lane c).okB = false →
    4 ≤ s.fld R.GLB_CRUISE_STATUS.PHASE →
    (max (s.lane c).at_ s.cru.c4At + s.fld R.OPT_RING_CTL.VERIFY_TICKS ≤ s.tick → exec (.verifyTimeout c) s = .next (s.relockB c 4)) ∧
    (s.tick < max (s.lane c).at_ s.cru.c4At + s.fld R.OPT_RING_CTL.VERIFY_TICKS → exec (.verifyTimeout c) s = .next s)) ∧
  (∀ (c : LaneNo) (s : State), s.fld R.GLB_CRUISE_STATUS.PHASE < 4 → exec (.verifyTimeout c) s = .next s) ∧
  (∀ (c : LaneNo) (p1 p2 : BitVec 16) (s : State), s.dim p1 = true → s.dim p2 = true → s.chState c ≠ chDARK →
    (s.laneState c ≠ lsUP → exec (.opticalLos c p1 p2) s = .next (s.setLane c { s.lane c with los := true })) ∧
    (s.laneState c = lsUP → s.failing c = false → exec (.opticalLos c p1 p2) s =
      .next (((((s.setLane c { s.lane c with los := true }).channelDown c 2).optEvent R.OPT_EVENTS.LOS).verify c false false).setFld
        (R.OPT_LANE_STATUS.CAUSE c) 5))) ∧
  (∀ (c : LaneNo) (low : BitVec 16) (s : State), low.toInt ≤ -(s.fld R.OPT_RING_CTL.LOS_LEVEL : Int) →
    exec (.lightReturn c low) s = .next s) ∧
  (∀ (c : LaneNo) (low : BitVec 16) (s : State), -(s.fld R.OPT_RING_CTL.LOS_LEVEL : Int) < low.toInt →
    (s.laneState c ≠ lsFAILED → exec (.lightReturn c low) s = .next (s.setLane c { s.lane c with los := false })) ∧
    (s.laneState c = lsFAILED → s.fld (R.OPT_LANE_STATUS.CAUSE c) = 5 →
      exec (.lightReturn c low) s = .next ((s.setLane c { s.lane c with los := false }).verify c true false))) ∧
  (∀ (via : Via) (c : LaneNo) (s : State), s.sees via R.OPT_LANE_CMD.adr true = true →
    (s.laneState c = lsFAILED →
      exec (.laneRelock via c) s = .next ((s.beginSweep c 9 true true).setFld (R.OPT_LANE_STATUS.RELOCKS c) 0)) ∧
    (s.laneState c ≠ lsFAILED → exec (.laneRelock via c) s = .next (s.optEvent R.OPT_EVENTS.CMD_DENY)) ∧
    (s.chUp c = false → Completes (.laneFail via c) s fun u => u.laneState c = lsFAILED ∧ u.fld (R.OPT_LANE_STATUS.CAUSE c) = 9
      ∧ u.flag R.OPT_EVENTS.LANE_FAILED = true ∧ SameMemory s u))

/-- R275 to R279: laser power, the spare source, and dark windows. Where the spec is
silent or can be read two ways this is the model's reading (log entry 29). -/
def Obligations.LasersAndDarkWindows : Prop :=
  (∀ (b : Fin 4) (k : Fin 5) (power : BitVec 16) (s : State), s.mgtAway = false → s.fld (R.OPT_LASER_STATUS.STATE b k) = 1 →
    s.unmonitored (s.fld (R.OPT_LASER_STATUS.FEEDS b k)) = false → (-(power.toInt - signedOf 16 (s.fld (R.OPT_LASER_BASE.BASE b k))) ≤ 150) → Completes (.laserPowerWindow b k power) s fun u =>
      u.fld (R.OPT_LASER_STATUS.POWER b k) = power.toNat
        ∧ u.fld (R.OPT_LASER_STATUS.DELTA b k) = fieldOf 16 (power.toInt - signedOf 16 (s.fld (R.OPT_LASER_BASE.BASE b k)))
        ∧ OnlyFields [R.OPT_LASER_STATUS.POWER b k, R.OPT_LASER_STATUS.DELTA b k] s u ∧ SameMemory s u) ∧
  (∀ (b : Fin 4) (s : State) (n t : Nat), FMap.find s.opt.spare b = some (n, t, true) → s.fld (R.OPT_LASER_STATUS.STATE b 4) = 2 →
    exec (.spareSourceReady b) s = .next ((s.setFld (R.OPT_LASER_STATUS.STATE b 4) 3).insertSpare b n)) ∧
  (∀ (b : Fin 4) (s : State) (n t : Nat), FMap.find s.opt.spare b = some (n, t, false) → s.fld (R.OPT_LASER_STATUS.STATE b 4) = 2 →
    let s1 := s.setFld (R.OPT_LASER_STATUS.STATE b 4) 3
    (exec (.spareSourceReady b) s = .next (s1.openDark b n (s1.darkTick (s1.tick + s1.fld R.OPT_LASER_CTL.NOTICE_TICKS)))) ∧
    (t + 2 ^ 18 ≤ s.tick → Completes (.spareWarmTimeout b) s fun u => u.fld (R.OPT_LASER_STATUS.STATE b 4) = 4
      ∧ u.flag R.OPT_EVENTS.SPARE_NONE = true ∧ u.opt.spare = FMap.del s.opt.spare b ∧ SameMemory s u)) ∧
  (∀ (p : Packet) (s : State), p.op = opMGMT → p.payload.toNat % 256 = 0x21 → s.intact p = true → (s.takeLocal p).swc.chans = [] →
    exec (.darkNotice p) s = .next ((s.takeLocal p).sendPacket ((s.takeLocal p).mgmtPacket p.src.toNat
      (darkPayload 0x22 (getBits p.payload.toNat 8 8) (getBits p.payload.toNat 16 16) (getBits p.payload.toNat 32 32)
        (getBits p.payload.toNat 64 64))))) ∧
  (∀ (p : Packet) (s : State) (x : DarkWin) (id : Nat), p.op = opMGMT → p.payload.toNat % 256 = 0x22 → s.intact p = true →
    getBits p.payload.toNat 32 32 = id → (s.takeLocal p).opt.wins = [x] → x.notices = [(p.src.toNat, id, false)] →
    Completes (.darkAck p) s fun u => u.opt.wins = [{ x with notices := [(p.src.toNat, id, true)] }] ∧ SameMemory s u) ∧
  (∀ (s : State) (x : DarkWin), s.opt.wins = [x] → x.confirmed = false → x.tick ≤ s.tick + 16 →
    (x.notices.all (fun e => e.2.2) = true →
      exec .darkAckDeadline s = .next (s.setOpt { s.opt with wins := [{ x with confirmed := true }] })) ∧
    (x.notices.all (fun e => e.2.2) = false →
      exec .darkAckDeadline s = .next (s.moveDark x))) ∧
  (∀ (s : State) (c : Nat), s.opt.wins = [] → s.opt.peerDark = [(c, s.tick)] → exec .darkWindow s = .next (s.goDark c)) ∧
  (∀ (s : State) (x : DarkWin), s.opt.wins = [x] → x.confirmed = true → x.begun = false → x.tick = s.tick → s.opt.peerDark = [] →
    (∀ c < 16, s.chUp (16 * x.engine + c) = false) →
    exec .darkWindow s = .next ((s.setOpt { s.opt with wins := [{ x with begun := true }] }).insertSpare x.bank x.engine)) ∧
  (∀ (s : State) (c : Nat), s.opt.wins = [] → s.opt.peerDark = [(c, s.tick - 2)] → 2 ≤ s.tick →
    exec .darkWindowEnd s = .next ((s.setOpt { s.opt with peerDark := [] }).endDark c))

/-- R271, R273, R274, R299: margin tests, lane tests and injections on lightlanes. Where the spec is silent or can be read two
ways this is the model's reading (log entries 54, 66 and 72). -/
def Obligations.MarginTests : Prop :=
  (∀ (via : Via) (engines lanes start : BitVec 16) (s : State), s.sees via R.OPT_MARGIN_CMD.adr true = true →
    (s.marginRuns = false → exec (.marginTestGo via engines lanes start) s =
      let m : Margin := { lanes := (upFrom 0 256).filter fun c => engines.getLsbD (c / 16) && lanes.getLsbD (c % 16), start := start.toNat, asked := s.tick }
      .next { s with opt := { s.opt with margin := some m } }) ∧
    (s.marginRuns = true → exec (.marginTestGo via engines lanes start) s = .next (s.optEvent R.OPT_EVENTS.CMD_DENY))) ∧
  (∀ (s : State) (m : Margin), s.opt.margin = some m → m.begun = none → m.asked < s.tick → s.tick % 2 ^ 16 = m.start →
    exec .marginTestStart s = .next (m.lanes.foldl (fun s c => if lwEn (s.laneWord c) then s.marginLane c else s)
      (s.setOpt { s.opt with margin := some { m with begun := some s.tick } }))) ∧
  (∀ (c : LaneNo) (rx : BitVec 16) (ser : BitVec 8) (det : BitVec 16) (s : State), (s.lane c).test = 1 → s.opt.margin = none →
    s.acquiring (c / 16) = false → s.verdict c rx ser det = 1 → s.laneState c = lsOFF →
    (s.cru.on = false ∨ s.fld R.GLB_CRUISE_STATUS.PHASE ≠ 3) → Completes (.marginTestDone c (some (rx, ser, det))) s fun u =>
      u.fld (R.OPT_MARGIN.VERDICT c) = 1 ∧ u.fld (R.OPT_MARGIN.RXPWR c) = rx.toNat ∧ u.fld (R.OPT_MARGIN.SER_E c) = ser.toNat
        ∧ u.fld (R.OPT_MARGIN.DETUNE c) = det.toNat ∧ (u.lane c).test = 0 ∧ SameMemory s u) ∧
  (∀ (c : LaneNo) (s : State) (m : Option (BitVec 16 × BitVec 8 × BitVec 16)), (s.lane c).test ≠ 1 →
    exec (.marginTestDone c m) s = .next s) ∧
  (∀ (via : Via) (c : LaneNo) (s : State), s.sees via R.OPT_MARGIN_CMD.adr true = true → s.fld (R.OPT_MARGIN.VERDICT c) = 1 →
    Completes (.marginCommit via) s fun u => u.fld (R.OPT_BASE.RXPWR c) = s.fld (R.OPT_MARGIN.RXPWR c)
      ∧ u.fld (R.OPT_BASE.SER_E c) = s.fld (R.OPT_MARGIN.SER_E c) ∧ u.fld (R.OPT_BASE.DETUNE c) = s.fld (R.OPT_MARGIN.DETUNE c)
      ∧ u.flag (R.OPT_BASE.VALID c) = true ∧ SameMemory s u) ∧
  (∀ (via : Via) (c : LaneNo) (v : Word) (s : State), s.sees via (R.OPT_LANE_TEST.adr c) true = true →
    s.reg (R.OPT_LANE_TEST.adr c) = 0 → v.toNat % 32 = 1 →
    (s.lane c).test = 0 →
    ∃ s1 : State, s1.flag (R.OPT_LANE_TEST.TEST c) = true ∧ s1.lane c = s.lane c ∧ s1.swc = s.swc ∧ s1.hbm = s.hbm
      ∧ exec (.optLaneTestWrite via c v) s = .next (s1.beginLeave c 2)) ∧
  (∀ (via : Via) (k : Fin 4) (v : Word) (s : State), s.sees via (R.OPT_CNT_SRC.adr k) true = true →
    s.reg (R.OPT_CNT_SRC.adr k) = v → exec (.optCntSrcWrite via k v) s = .next s) ∧
  (∀ (via : Via) (c : LaneNo) (s : State), s.sees via (R.OPT_CNT_SRC.adr (c / 64)) true = true → s.reg (R.OPT_CNT_SRC.adr (c / 64)) = 0 →
    (s.lane c).test = 0 → s.flag (R.OPT_LANE_TEST.TEST c) = true → ∀ k : Fin 4, k.val = c / 64 →
    Completes (.optCntSrcWrite via k (BitVec.ofNat 64 (2 ^ (c.val % 64)))) s fun u =>
      u.flag ⟨R.OPT_CNT_SRC.adr k, c.val % 64, 1⟩ = true ∧ (∀ j < 4, u.fld (R.OPT_LANE_CNT.CNT c j) = 0) ∧ SameMemory s u) ∧
  (∀ (via : Via) (c : LaneNo) (kind : BitVec 2) (len : BitVec 8) (count interval : BitVec 16) (s : State),
    s.sees via (R.OPT_INJECT.adr c) true = true → FMap.find s.elk.inject c = none →
    (goodInject kind.toNat len.toNat count.toNat interval.toNat = true → count = 1 →
      exec (.optInjectGo via c kind len count interval) s = .next (s.corrupt c kind.toNat len.toNat)) ∧
    (goodInject kind.toNat len.toNat count.toNat interval.toNat = false →
      exec (.optInjectGo via c kind len count interval) s = .next (s.optEvent R.OPT_EVENTS.CMD_DENY))) ∧
  (∀ (key : Fin 304) (s : State) (x : Inject), FMap.find s.elk.inject key = some x → x.next ≤ s.tick → key.val < 256 →
    (1 < x.left → exec (.injectRepeat key) s =
      let y := { x with left := x.left - 1, next := x.next + x.interval }
      let s1 := s.corrupt key x.kind x.len
      .next { s1 with elk := { s1.elk with inject := s1.elk.inject.put key y } }) ∧
    (x.left ≤ 1 → exec (.injectRepeat key) s =
      let s1 := s.corrupt key x.kind x.len
      .next (({ s1 with elk := { s1.elk with inject := FMap.del s1.elk.inject key } }).setFld (R.OPT_INJECT.BUSY key) 0)))

/-! ## Skidders and Ladles (chapters 8 and 10) -/

/-- R244 to R247: block transfers. Where the spec is
silent or can be read two ways this is the model's reading (log entry 41). -/
def Obligations.BlockTransfers : Prop :=
  (∀ (k : SkidNo) (s : State) (d : SkdDesc) (rest : List SkdDesc), (s.skid k).queue = d :: rest → (s.skid k).run = [] →
    let r : SkdRun := { desc := d, startTick := s.tick, endTick := s.tick }
    (skdBad d.bytes.toNat = false →
      exec (.skidderDescriptorStart k) s = .next (s.setSkid k { s.skid k with queue := rest, run := [r] }).recheck) ∧
    (skdBad d.bytes.toNat = true → exec (.skidderDescriptorStart k) s =
      .next (s.setSkid k { s.skid k with queue := rest, run := [{ r with status := sCHECK, detail := 1, stopped := true }] }).recheck)) ∧
  (∀ (k : SkidNo) (s : State) (d : SkdDesc) (rest : List SkdDesc) (r : SkdRun), (s.skid k).queue = d :: rest → (s.skid k).run = [r] →
    r.issued = false → exec (.skidderDescriptorStart k) s = .next s) ∧
  (∀ (k : SkidNo) (s : State) (d : SkdDesc) (rest : List SkdDesc), (s.skid k).queue = d :: rest → (s.skid k).run = [] →
    skdBad d.bytes.toNat = false → s.threads = [] → Completes (.skidderDescriptorStart k) s fun t =>
      (t.skid k).queue = rest ∧ (t.skid k).run = [{ desc := d, startTick := s.tick, endTick := s.tick }] ∧ SameMemory s t) ∧
  (∀ (k : SkidNo) (s : State) (r : SkdRun), (s.skid k).run = [r] → r.lines = [] → r.stopped = false → r.suspended = none →
    r.next < skdLines r.desc.bytes.toNat →
    (skKind r.desc.bytes.toNat = 2 → exec (.skidderLineIssue k) s =
      .next (s.skdWrite k { r with next := r.next + 1, lines := [(r.next, {})] } r.next {})) ∧
    (skKind r.desc.bytes.toNat ≠ 2 →
      let ln : SkdLine := { toRead := (skdSources r.desc.bytes.toNat r.next).2 + 1 - (skdSources r.desc.bytes.toNat r.next).1 }
      exec (.skidderLineIssue k) s = .next (s.skdRead k { r with next := r.next + 1, lines := [(r.next, ln)] } r.next ln))) ∧
  (∀ (k : SkidNo) (s : State) (r : SkdRun) (i : Nat) (ln : SkdLine) (x : Xlat) (s1 s2 : State),
    let d := r.desc.bytes.toNat
    let q := { s.skdReq k r i 0 opBWRITE (skdSpan d i).1 with
      bmc := (skdSpan d i).1 % 64 + 64 * ((skdSpan d i).2 - (skdSpan d i).1), payload := skdData d i ln,
      last := i + 1 == skdLines d, pz := ln.poison }
    skKind d ≠ 3 → s.translate q.tag q.fva .store = (s1, .ok x) → s1.request q x = (s2, .sent) →
    s.skdWrite k r i ln = s2.setRun k { r.issueAt s.tick with lines := r.lines.put i { ln with sent := true } }) ∧
  (∀ (k : SkidNo) (s : State) (r : SkdRun) (x : Xlat) (s1 s2 : State), (s.skid k).run = [r] → r.lines = [] → r.stopped = false →
    r.suspended = none → r.next < skdLines r.desc.bytes.toNat → skKind r.desc.bytes.toNat = 2 →
    let d := r.desc.bytes.toNat
    let r1 : SkdRun := { r with next := r.next + 1, lines := [(r.next, {})] }
    let q := { s.skdReq k r1 r.next 0 opBWRITE (skdSpan d r.next).1 with
      bmc := (skdSpan d r.next).1 % 64 + 64 * ((skdSpan d r.next).2 - (skdSpan d r.next).1), payload := skdData d r.next {},
      last := r.next + 1 == skdLines d, pz := false }
    s.translate q.tag q.fva .store = (s1, .ok x) → s1.request q x = (s2, .sent) →
    exec (.skidderLineIssue k) s = .next (s2.setRun k { r1.issueAt s.tick with lines := [(r.next, { sent := true })] })) ∧
  (∀ (k : SkidNo) (s : State) (r : SkdRun), (s.skid k).run = [r] → r.recording = false →
    (r.finished = true → skCompl r.desc.bytes.toNat = 0 →
      exec (.blockTransferComplete k) s = .next (s.skdEnd k r r.status r.detail).recheck) ∧
    (r.finished = false → exec (.blockTransferComplete k) s = .next s))

/-- R182 to R184, R186, R189, R192 to R195: kernels at a position, cells, the spare and slots. Where the spec is silent or can
be read two ways this is the model's reading (log entries 20, 21, 42, 60 and 68). -/
def Obligations.Kernels : Prop :=
  (∀ (k : Fin 16) (s : State) (q : Kernel) (rest : List Kernel), (s.lpos k).queue = q :: rest → (s.lpos k).running = none →
    s.posState k = 0 → 6 ≤ s.fld (R.LDL_POS_STATUS.KSLOTS k) → s.fld R.GLB_POWER_STATUS.LEVEL ≠ 7 →
    exec (.kernelStart k) s =
      .next (s.setLpos k { s.lpos k with queue := rest, running := some { k := q, startTick := s.tick } }).recheck) ∧
  (∀ (k : Fin 16) (run : ItemRun) (hs : List HostAnswer) (s s1 : State) (r : KernelRun) (e : Eng) (t : Tile) (c : ItemEnd),
    (s.lpos k).running = some r → r.finished = false → s.posState k = 0 →
    s.isRetired (s.fld (R.LDL_POS_STATUS.PHYS k)) run.cell = false → (s.lpos k).quantum ≠ 4 →
    (s.lpos k).quantum = 2 ∨ s.reductionWaits k = false → (s.eng r.k.tag hs r.k.op).tile r = (e, t) →
    (e.poison ≠ none → exec (.workItemDone k run hs) s = .next (e.s.setLpos k { s.lpos k with
      running := some { r.halt sPOISON 6 with poison := e.poison }, isSealed := e.isSealed })) ∧
    (e.poison = none → e.fail = none →
      e.s.checkItem k (max e.level r.k.chk.toNat) (run.judged (t.accs.all LAcc.resOk)) (Config.itemCrc true r.k.fva r.items) = (s1, c) →
      (c.usable = false → exec (.workItemDone k run hs) s =
        let r1 := { r with flags := r.flags ||| t.flags ||| c.flags }
        .next ((s1.setLpos k { s.lpos k with running := some (r1.halt sCHECK 3), isSealed := e.isSealed }).retireCells
          (s.fld (R.LDL_POS_STATUS.PHYS k)) c.retire)) ∧
      (c.usable = true → t.writes = [] → exec (.workItemDone k run hs) s =
        let r1 := { r with flags := r.flags ||| t.flags ||| c.flags }
        let r2 := { r1 with temp := t.temp.getD r1.temp, b := t.b.getD r1.b,
                            ports := r1.ports ++ e.ports.filter (fun n => !r1.ports.contains n) }
        .next (((s1.keepAccs (s.fld (R.LDL_POS_STATUS.PHYS k)) run.cell t.accs).setLpos k { s.lpos k with
          running := some r2.step, isSealed := e.isSealed }).retireCells (s.fld (R.LDL_POS_STATUS.PHYS k)) c.retire)))) ∧
  (∀ (k : Fin 16) (run : ItemRun) (hs : List HostAnswer) (s : State) (r : KernelRun), (s.lpos k).running = some r →
    (r.finished = true → exec (.workItemDone k run hs) s = .next s) ∧
    ((s.lpos k).quantum = 4 → exec (.workItemDone k run hs) s = .next s) ∧
    ((s.lpos k).quantum ≠ 2 → s.reductionWaits k = true → exec (.workItemDone k run hs) s = .next s) ∧
    (s.isRetired (s.fld (R.LDL_POS_STATUS.PHYS k)) run.cell = true → exec (.workItemDone k run hs) s = .next s)) ∧
  (∀ (s : State) (k : Kernel) (rest : List Kernel) (hs : List HostAnswer), s.ldl.ended = k :: rest →
    exec (.kernelComplete none hs) s =
      let s1 := { s with free := s.free + 3 }
      let s2 : State := { s1 with ldl := { s1.ldl with ended := rest } }
      .next (s2.endKernel k hs (Config.freeNat s.free) (Config.freeNat (s.free + 1))
        (Config.freeNat (s.free + 2)) 0 none)) ∧
  (∀ (p : Fin 16) (s : State) (r : KernelRun) (hs : List HostAnswer), (s.lpos p).running = some r →
    (r.finished = false → exec (.kernelComplete (some p) hs) s = .next s) ∧
    (r.finished = true → s.engineWaits (r.k.op + 1) = true → exec (.kernelComplete (some p) hs) s = .next s) ∧
    (r.finished = true → s.engineWaits (r.k.op + 1) = false → r.k.status ≠ sPOISON ∨ r.rested = true →
      exec (.kernelComplete (some p) hs) s = .next (s.kernelEnds p r hs)) ∧
    (∀ e y, r.finished = true → s.engineWaits (r.k.op + 1) = false → r.k.status = sOK →
      (s.eng r.k.tag hs r.k.op r.ports).flush = e → e.fail = none → r.ports = [] → r.lastY = some y →
      let s1 := e.s.setLpos p { e.s.lpos p with running := none, isSealed := false }
      let s2 : State := { s1 with free := s1.free + 1 }
      exec (.kernelComplete (some p) hs) s =
        .next (s2.endKernel r.k e.hs p r.startTick y r.flags r.poison))) ∧
  (∀ (via : Via) (a : Fin 17) (c : Fin 64) (s : State), s.sees via (R.LDL_CELL_RETIRE.adr a) true = true →
    exec (.cellRetireWrite via a (BitVec.ofNat 64 (2 ^ c.val))) s = .next (s.retireCell a c)) ∧
  (∀ (via : Via) (k : Fin 16) (s : State), s.sees via R.LDL_SPARE_CTL.adr true = true →
    exec (.spareReplaceGo via k) s = .next (s.startReplace k)) ∧
  (∀ (s : State) (k t : Nat), s.ldl.repl = some (k, t) → k < 16 → Completes .spareReplacementDone s fun u =>
    u.fld (R.LDL_POS_STATUS.PHYS k) = s.fld R.LDL_STATUS.SPARE_PHYS ∧ u.fld R.LDL_STATUS.SPARE_PHYS = 0x1F
      ∧ u.flag R.LDL_EVENTS.ARRAY_REPLACED = true ∧ SameMemory s u) ∧
  (∀ (k : Fin 16) (s : State),
    (s.fld (R.LDL_POS_STATUS.KSLOTS k) < s.fld R.LDL_STORE_SPLIT.KERNEL_SLOTS →
      s.fld (R.LDL_POS_STATUS.CRES k) + s.fld (R.LDL_POS_STATUS.KSLOTS k) + 1 ≤ 96 →
      exec (.kernelSlotMove k) s =
        .next (s.setFld (R.LDL_POS_STATUS.KSLOTS k) (s.fld (R.LDL_POS_STATUS.KSLOTS k) + 1)).recheck) ∧
    (s.fld (R.LDL_POS_STATUS.KSLOTS k) = s.fld R.LDL_STORE_SPLIT.KERNEL_SLOTS → exec (.kernelSlotMove k) s = .next s)) ∧
  (∀ (k : Fin 16) (s : State),
    let x : LdlPos := { s.lpos k with turn := ((s.lpos k).turn + 1) % 16 }
    let duty := ladleDuty (s.fld R.GLB_POWER_STATUS.LEVEL)
    (duty ≤ x.turn → exec (.ladleQuantum k) s = .next (s.setLpos k { x with quantum := 4 })) ∧
    (x.turn < duty → s.reductionWaits k = false → s.kernelRuns k = false →
      exec (.ladleQuantum k) s = .next (s.setLpos k { x with quantum := 0 })) ∧
    (x.turn < duty → s.reductionWaits k = false → s.kernelRuns k = true →
      exec (.ladleQuantum k) s = .next (s.setLpos k { x with quantum := 3 })) ∧
    (x.turn < duty → s.reductionWaits k = true → s.kernelRuns k = false →
      exec (.ladleQuantum k) s = .next (s.setLpos k { x with quantum := 1 })) ∧
    (x.turn < duty → s.reductionWaits k = true → s.kernelRuns k = true → x.both < 16 →
      (x.kernelQuanta + 16 ≤ s.fld R.LDL_ARB.KMIN + x.both → exec (.ladleQuantum k) s =
        .next (s.setLpos k { x with quantum := 2, both := x.both + 1, kernelQuanta := x.kernelQuanta + 1 })) ∧
      (s.fld R.LDL_ARB.KMIN + x.both < x.kernelQuanta + 16 → exec (.ladleQuantum k) s =
        .next (s.setLpos k { x with quantum := 1, both := x.both + 1 }))))

/-! ## Collectives (chapter 9) -/

/-- R205 to R208, R212, R214, R219, R221: requests for slots, the waits of a collective, and what its control messages do. A
JOIN, READY or XDONE for a collective that is not active here, and has no abort record, is kept (log entry 32, the model's
choice). The positions that a collective counts as active are those of its reservation's decision (log entry 73, the model's
choice). -/
def Obligations.CollectiveMessages : Prop :=
  (∀ (p : PartNo) (cid : BitVec 32) (s : State) (h : Nat) (e : ColEntry), s.colOf p cid = some (h, e) → e.res = 0 → e.abort = none →
    (s.grantable p cid.toNat e.slots = true →
      exec (.reservationGrant p cid) s = .next ((s.reserve e.slots).decided h
        { e with res := 1, held := s.active, positions := s.active })) ∧
    (s.grantable p cid.toNat e.slots = false → exec (.reservationGrant p cid) s = .next s) ∧
    (e.reqAt + 64 ≤ s.tick → exec (.reservationWithdraw p cid) s =
      .next ((s.raise R.COL_EVENTS.SPILL).decided h
        { e with res := 2, flags := e.flags ||| 1, positions := s.active })) ∧
    (s.tick < e.reqAt + 64 → exec (.reservationWithdraw p cid) s = .next s)) ∧
  (∀ (p : PartNo) (cid : BitVec 32) (s : State) (h : Nat) (e : ColEntry), s.colOf p cid = some (h, e) → e.res = 0 → e.abort ≠ none →
    e.reqAt + 64 ≤ s.tick → exec (.reservationWithdraw p cid) s =
      .next ((s.raise R.COL_EVENTS.SPILL).setCol h { e with res := 2, flags := e.flags ||| 1, positions := s.active })) ∧
  (∀ (p : PartNo) (cid : BitVec 32) (s : State) (r : ColRsv), s.colOf p cid = none → s.rsvOf p cid.toNat = some r → r.res = 0 →
    (s.grantable p cid.toNat r.slots = true → exec (.reservationGrant p cid) s =
      .next ((s.reserve r.slots).setRsv p cid.toNat (some { r with res := 1, held := s.active }))) ∧
    (r.reqAt + 64 ≤ s.tick → exec (.reservationWithdraw p cid) s =
      .next ((s.raise R.COL_EVENTS.SPILL).setRsv p cid.toNat (some { r with res := 2 })))) ∧
  (∀ (p : PartNo) (cid : BitVec 32) (s : State) (r : ColRsv), s.rsvOf p cid.toNat = some r →
    r.reqAt + s.fld R.COL_CTL.JOIN_TICKS ≤ s.tick → exec (.rsvExpire p cid) s =
      .next (((s.unreserve r.held r.slots).setRsv p cid.toNat none).count R.COL_COUNTS1.RSV_EXPIRED)) ∧
  (∀ (p : Packet) (s : State) (h : Nat) (e : ColEntry), p.op = opCOLLCTL → s.intact p = true →
    p.tag = (s.takeLocal p).tagOf (partOf p.tag) →
    (s.takeLocal p).colOf (partOf p.tag) (BitVec.ofNat 32 (ccCid p)) = some (h, e) → e.abort = none →
    let s1 := s.takeLocal p
    let e1 := e.heardFrom p.src.toNat s1.tick
    (ccType p = 1 → e.joined.contains p.src.toNat = false → exec (.joinMessage p) s =
      .next ((s1.setCol h { e1 with joined := e.joined ++ [p.src.toNat] }).colAdvance h)) ∧
    (ccType p = 2 → exec (.readyMessage p) s = .next ((s1.setCol h
      { e1 with ready := e.ready.put (readyKey (ccStep p) (ccRound p) p.src.toNat) (ccValue p, ccOk p) }).colAdvance h)) ∧
    (∀ r, ccType p = 4 → e.members.findIdx? (· == p.src.toNat) = some r → exec (.xdoneMessage p) s =
      .next ((s1.setCol h ({ e1 with announced := e.announced.put r (ccValue p) } : ColEntry).xEnd).colAdvance h))) ∧
  (∀ (p : Packet) (s : State), p.op = opCOLLCTL → s.intact p = false →
    (ccType p = 1 → exec (.joinMessage p) s = .next (s.takeLocal p)) ∧ (ccType p = 2 → exec (.readyMessage p) s = .next (s.takeLocal p)) ∧
      (ccType p = 3 → exec (.abortMessage p) s = .next (s.takeLocal p)) ∧
      (ccType p = 4 → exec (.xdoneMessage p) s = .next (s.takeLocal p))) ∧
  (∀ (p : Packet) (s : State), p.op = opCOLLCTL → s.intact p = true → p.tag = (s.takeLocal p).tagOf (partOf p.tag) →
    (s.takeLocal p).colOf (partOf p.tag) (BitVec.ofNat 32 (ccCid p)) = none →
    let s1 := s.takeLocal p
    let kept : State := { s1 with col := { s1.col with early := s1.col.early ++ [p] } }
    (s1.abortRecord (partOf p.tag) (ccCid p) = none →
      (ccType p = 1 → exec (.joinMessage p) s = .next kept) ∧ (ccType p = 2 → exec (.readyMessage p) s = .next kept) ∧
        (ccType p = 4 → exec (.xdoneMessage p) s = .next kept)) ∧
    (∀ a, s1.abortRecord (partOf p.tag) (ccCid p) = some a →
      (ccType p = 1 → exec (.joinMessage p) s = .next s1) ∧ (ccType p = 2 → exec (.readyMessage p) s = .next s1) ∧
        (ccType p = 4 → exec (.xdoneMessage p) s = .next s1))) ∧
  (∀ (p : PartNo) (cid : BitVec 32) (s : State) (h : Nat) (e : ColEntry), s.colOf p cid = some (h, e) →
    (e.missing = true → e.issuedAt + s.fld R.COL_CTL.JOIN_TICKS ≤ s.tick →
      exec (.joinTimeout p cid) s = .next (s.colAbort h 0x12)) ∧
    (e.missing = false → exec (.joinTimeout p cid) s = .next s) ∧
    (∀ f, f ∈ e.owed → max e.waitAt ((FMap.find e.rx f).getD 0) + s.fld R.COL_CTL.STALL_TICKS ≤ s.tick →
      exec (.collectiveStall p cid) s = .next (s.colAbort h 0x13)) ∧
    ((∀ f ∈ e.owed, s.tick < max e.waitAt ((FMap.find e.rx f).getD 0) + s.fld R.COL_CTL.STALL_TICKS) →
      exec (.collectiveStall p cid) s = .next s)) ∧
  (∀ (p : Packet) (s : State) (h : Nat) (e : ColEntry), p.op = opCOLLCTL → ccType p = 3 → s.intact p = true →
    p.tag = (s.takeLocal p).tagOf (partOf p.tag) →
    let s1 := (s.takeLocal p).raise R.COL_EVENTS.ABORT_RX
    s1.colOf (partOf p.tag) (BitVec.ofNat 32 (ccCid p)) = some (h, e) →
    (e.abort = none → e.heard = none →
      let s2 := if ccValue p + 192 < s1.tick then s1.raise R.COL_EVENTS.LATE_ABORT else s1
      let e1 : ColEntry := { e with heard := some (ccValue p), running := false, blocks := [], abort := some (ccValue p, 0x11) }
      exec (.abortMessage p) s = .next ((((s2.setCol h e1).askRestore e (ccValue p)).keepAbort (partOf p.tag) e.cid
        (ccValue p)).sendAborts e (ccValue p))) ∧
    (∀ x epoch detail, e.abort = some (epoch, detail) → e.heard = some x → x ≤ ccValue p → exec (.abortMessage p) s = .next s1) ∧
    (∀ epoch detail, e.abort = some (epoch, detail) → e.heard = none → epoch ≤ ccValue p → exec (.abortMessage p) s =
      .next ((s1.setCol h { e with heard := some (ccValue p), running := false, blocks := [] }).sendAborts e (ccValue p)))) ∧
  (∀ (p : PartNo) (cid : BitVec 32) (s : State) (h epoch detail : Nat) (e : ColEntry), s.colOf p cid = some (h, e) →
    e.abort = some (epoch, detail) →
    (epoch + 192 ≤ s.tick →
      let w := s.scramble e
      let s1 := (if e.restorePlan = none then w.1.unlockCol e else w.1).freeCol h e
      let e1 : ColEntry := { e with status := sABORTED, detail := detail, ports := w.2 }
      let s2 : State := { s1 with col := { s1.col with ended := s1.col.ended ++ [e1] } }
      exec (.abortComplete p cid) s = .next s2) ∧
    (s.tick < epoch + 192 → exec (.abortComplete p cid) s = .next s)) ∧
  (∀ (p : PartNo) (cid : BitVec 32) (s : State) (a : ColAbort), s.abortRecord p cid.toNat = some a →
    (a.at_ + s.fld R.COL_CTL.QUAR_TICKS ≤ s.tick →
      let left := s.col.aborts.filter fun x => !(x.part == a.part && x.cid == a.cid)
      exec (.abortRecordExpire p cid) s = .next { s with col := { s.col with aborts := left } }) ∧
    (s.tick < a.at_ + s.fld R.COL_CTL.QUAR_TICKS → exec (.abortRecordExpire p cid) s = .next s))

/-- R198, R199, R202, R208, R211, R213 to R218: the start of steps and phases, COLL and XCHG packets, completion, and the family
of exchanges. Where the spec is silent or can be read two ways this is the model's reading (log entries 30 to 32, 37 to 40 and
73). -/
def Obligations.CollectiveData : Prop :=
  (∀ (p : PartNo) (cid : BitVec 32) (i : Supply) (s : State) (h m : Nat) (f : Bool) (e : ColEntry),
    s.colOf p cid = some (h, e) → e.agreed = some (m, f) → e.asked = false → e.abort = none →
    let T := m + s.fld R.COL_CTL.LEAD_PLAN
    let e1 : ColEntry := { e with asked := true }
    (s.tick < T → exec (.agreedStepStart p cid i) s = .next s) ∧
    (∀ ph, T ≤ s.tick → e1.phaseNow = some ph →
      (ph.kind = 3 → exec (.agreedStepStart p cid i) s = .next (s.startExchange h e1 i.hosts).settleCredits) ∧
      (ph.kind ≠ 3 → f = false → exec (.agreedStepStart p cid i) s = .next (s.startPhase h e1 ph i.hosts i.runs).settleCredits) ∧
      (ph.kind ≠ 3 → f = true → exec (.agreedStepStart p cid i) s = .next (s.setCol h e1).settleCredits) ∧
      (ph.kind ≠ 3 → f = true → s.tim.credits = false → exec (.agreedStepStart p cid i) s = .next (s.setCol h e1))) ∧
    (T ≤ s.tick → e1.phaseNow = none → f = false →
      exec (.agreedStepStart p cid i) s = .next (s.setCol h { e1 with done := true }).settleCredits) ∧
    (T ≤ s.tick → e1.phaseNow = none → f = true → exec (.agreedStepStart p cid i) s = .next (s.setCol h e1).settleCredits)) ∧
  (∀ (p : PartNo) (cid : BitVec 32) (i : Supply) (s : State) (h : Nat) (e : ColEntry) (ph : Phase),
    s.colOf p cid = some (h, e) → e.phaseNow = some ph →
    (ph.kind ≠ 3 → e.running = false → e.abort = none → e.res ≠ 0 → e.missing = false →
      (e.byAgreement = true → e.switched = true) → exec (.phaseStart p cid i) s = .next (s.startPhase h e ph i.hosts i.runs)) ∧
    (e.running = true → exec (.phaseStart p cid i) s = .next s) ∧
    (e.missing = true → exec (.phaseStart p cid i) s = .next s)) ∧
  (∀ (p : Packet) (run : ItemRun) (hs : List HostAnswer) (s : State) (h : Nat) (e : ColEntry) (ph : Phase) (x : Seg) (pos : Nat),
    p.op = opCOLL → s.intact p = true → s.colTarget p opCOLL = some (h, e) → e.res = 1 ∨ e.res = 2 →
    ((upFrom 0 e.phases.length).find? fun i =>
      (e.phases.getD i ⟨0, 0, false, 0⟩).num == getBits p.line.toNat 28 4) = some e.phase →
    e.phases.getD e.phase ⟨0, 0, false, 0⟩ = ph → e.running = true →
    ((e.segs ph).find? fun y => y.num == getBits p.line.toNat 10 18) = some x →
    getBits p.line.toNat 0 10 < x.count → x.start (cdDim e.desc (ph.axis e.desc)) ph.kind ≠ coord e.desc e.rank (ph.axis e.desc) →
    s.segPosition e x.num = some pos →
    (e.slotFor pos x.num = true → s.posState pos ≠ 1 →
      (ph.kind = 0 → s.cellsBusy pos = false ∧ s.isRetired (s.fld (R.LDL_POS_STATUS.PHYS pos)) run.cell = false) →
      exec (.collPacket p run hs) s =
        .next ((s.takeLocal p).collTake h e ph x (getBits p.line.toNat 0 10) pos p run hs)) ∧
    (e.slotFor pos x.num = false → exec (.collPacket p run hs) s = .next s) ∧
    (s.posState pos = 1 → exec (.collPacket p run hs) s = .next s) ∧
    (ph.kind = 0 → s.cellsBusy pos = true → exec (.collPacket p run hs) s = .next s)) ∧
  (∀ (p : Packet) (run : ItemRun) (hs : List HostAnswer) (s : State), p.op = opCOLL → s.intact p = true →
    (s.colTarget p opCOLL = none → exec (.collPacket p run hs) s = .next ((s.takeLocal p).count R.COL_COUNTS1.LATE)) ∧
    (∀ h e, s.colTarget p opCOLL = some (h, e) → e.res = 0 ∨ e.res = 3 → exec (.collPacket p run hs) s =
      .next (((s.takeLocal p).faultLog 0x0201 p.tag.toNat 6 h p.line.toNat p.src.toNat).colAbort h 0x19))) ∧
  (∀ (p : Packet) (run : ItemRun) (hs : List HostAnswer) (s : State), s.intact p = false →
    (p.op = opCOLL → exec (.collPacket p run hs) s = .next (s.takeLocal p)) ∧
      (p.op = opXCHG → exec (.xchgPacket p hs) s = .next (s.takeLocal p))) ∧
  (∀ (p : Packet) (hs : List HostAnswer) (s : State), p.op = opXCHG → s.intact p = true →
    (s.colTarget p opXCHG = none → exec (.xchgPacket p hs) s = .next ((s.takeLocal p).count R.COL_COUNTS1.LATE)) ∧
    (∀ h e i, s.colTarget p opXCHG = some (h, e) → e.members.findIdx? (· == p.src.toNat) = some i →
      let s1 := s.takeLocal p
      let e1 := e.heardFrom p.src.toNat s1.tick
      let r := ({ g := s1.eng e.tag hs e.op, e := e1 } : ColRun).xLine i (getBits p.line.toNat 0 32) p.data.toNat p.pz
      r.g.fail = none →
      exec (.xchgPacket p hs) s = .next (((({ r with e := r.e.xEnd } : ColRun).done h).colAdvance h).exchangeGo h))) ∧
  (∀ (p : PartNo) (cid : BitVec 32) (hs : List HostAnswer) (s : State),
    (∀ e, (s.col.ended.find? fun e => e.part == p.val && e.cid == cid.toNat) = some e →
      let s1 : State := { s with col := { s.col with ended := s.col.ended.erase e } }
      let g := (s1.eng e.tag hs e.op e.ports).flush
      (s.engineWaits (e.op + 1) = false → exec (.collectiveComplete p cid hs) s = .next (g.s.endCol e g.hs)) ∧
      (s.engineWaits (e.op + 1) = true → exec (.collectiveComplete p cid hs) s = .next s)) ∧
    (∀ h e, (s.col.ended.find? fun e => e.part == p.val && e.cid == cid.toNat) = none → s.colOf p cid = some (h, e) →
      e.abort = none → e.status = sOK →
      (e.done = true → s.engineWaits (e.op + 1) = true → exec (.collectiveComplete p cid hs) s = .next s) ∧
      (e.done = true → e.poison = none → s.engineWaits (e.op + 1) = false →
        let g := (s.eng e.tag hs e.op e.ports).flush
        g.fail = none → exec (.collectiveComplete p cid hs) s = .next (((g.s.freeCol h e).unlockCol e).endCol e g.hs)) ∧
      (e.done = false → exec (.collectiveComplete p cid hs) s = .next s))) ∧
  (∀ (s : State) (h : Nat) (e : ColEntry), s.col.entries = [(h, e)] → cdExchange e.desc = true →
    (e.waits = true → exec .xchgFamilyChange s =
      .next (((s.setFld R.COL_XCHG_MODE.FAMILY (cdOp e.desc - 8)).setCol h { e with waits := false }).colAdvance h)) ∧
    (e.waits = false → exec .xchgFamilyChange s = .next s))

/-! ## Host ports (chapter 13) -/

/-- R301 to R308, R313, R319, R321: the windows, the fence, configuration, MSI-X, decoders, training and reset of a host port.
The registers of configuration space that are shown are at the places PCIe gives them (log entry 34, the model's choice). Where
the spec is silent or can be read two ways this is the model's reading (log entries 33, 34, 52 and 64). -/
def Obligations.HostPorts : Prop :=
  (∀ (h : PortNo) (hpa : BitVec 64) (e : Ecc) (s : State), s.memUp h = true →
    (s.window h 0 hpa.toNat = none → exec (.mmWindowRead h hpa e) s = .next ((s.outOfWindow h).poisonedData h)) ∧
    (∀ o a i s1, s.window h 0 hpa.toNat = some o →
      (s.carried h).judgeAt ((s.carried h).mmPacket h o opREAD 0 0 false) = (s1, .inr (.hbm a i)) →
      let s2 := s1.hbmRead a e (some (o / 64, 0))
      let p := (s.carried h).mmPacket h o opREAD 0 0 false
      (s1.behindStore a (some h.val) p = true → exec (.mmWindowRead h hpa e) s = .next s) ∧
      (s1.behindStore a (some h.val) p = false → s2.isPoison a = false → exec (.mmWindowRead h hpa e) s = .next (s2.send (.cxlData h (s2.readLine a) false))))) ∧
  (∀ (h : PortNo) (hpa : BitVec 64) (first : Fin 64) (count : Fin 65) (data : Line) (pz : Bool) (s : State), s.memUp h = true →
    0 < count.val → first.val + count.val ≤ 64 →
    (s.window h 0 hpa.toNat = none →
      exec (.mmWindowWrite h hpa first count data pz) s = .next (((s.poisonIn h pz).outOfWindow h).send (.cxlCmp h))) ∧
    (∀ o a i s1, s.window h 0 hpa.toNat = some o →
      let p := (s.carried h).mmPacket h o opWRITE (first.val + 64 * count.val) data pz
      (s.carried h).judgeAt p = (s1, .inr (.hbm a i)) → (s.carried h).storeWaits i = false → pz = false →
        exec (.mmWindowWrite h hpa first count data pz) s = .next (s1.storeHbm (some h.val) p a i)) ∧
    (∀ o s1 st, s.window h 0 hpa.toNat = some o →
      (s.carried h).judgeAt ((s.carried h).mmPacket h o opWRITE (first.val + 64 * count.val) data pz) = (s1, .inl st) →
        exec (.mmWindowWrite h hpa first count data pz) s = .next ((s1.poisonIn h pz).send (.cxlCmp h)))) ∧
  (∀ (h : PortNo) (hpa : BitVec 64) (s : State) (o k : Nat) (x : Xlat) (s1 s2 s3 : State), s.memUp h = true →
    s.window h 1 hpa.toNat = some o →
    let s0 := s.carried h
    let fva := s0.fwFva h (o / 64 * 64)
    s0.behindHeld h fva = false → s0.translate (s0.defTag h) fva .load = (s1, .ok x) →
    s1.hostSkid h (partOf (s0.defTag h)) x.line = (some k, s2) →
    (s2.request (s2.fwReq h k opREAD fva 0 0 false) x = (s3, .sent) → exec (.fwWindowRead h hpa) s = .next s3) ∧
    (∀ d, s2.request (s2.fwReq h k opREAD fva 0 0 false) x = (s3, .hit sOK d) →
      exec (.fwWindowRead h hpa) s = .next (s3.send (.cxlData h d false))) ∧
    (∀ st d, s2.request (s2.fwReq h k opREAD fva 0 0 false) x = (s3, .hit st d) → exec (.fwWindowRead h hpa) s =
      .next (s3.fwReadDone h (s0.defTag h).toNat fva x.line x.sub x.dest { status := st, data := d })) ∧
    (∀ w, s2.request (s2.fwReq h k opREAD fva 0 0 false) x = (s3, .wait w) →
      exec (.fwWindowRead h hpa) s = .next (s.countHeld h fva w))) ∧
  (∀ (h : PortNo) (hpa : BitVec 64) (first : Fin 64) (count : Fin 65) (data : Line) (s : State) (o k : Nat) (x : Xlat)
      (s1 s2 s3 : State), s.memUp h = true → 0 < count.val → first.val + count.val ≤ 64 → s.window h 1 hpa.toNat = some o →
    let s0 := s.carried h
    let fva := s0.fwFva h (o / 64 * 64)
    s0.behindHeld h fva = false → s0.translate (s0.defTag h) fva .store = (s1, .ok x) →
    s1.hostSkid h (partOf (s0.defTag h)) x.line = (some k, s2) →
    s2.request (s2.fwReq h k opWRITE fva (first.val + 64 * count.val) data false) x = (s3, .sent) →
    exec (.fwWindowWrite h hpa first count data false) s = .next (s3.send (.cxlCmp h))) ∧
  (∀ (via : Via) (h : PortNo) (token : BitVec 32) (s : State), s.sees via (R.HST_FENCE.adr h) true = true →
    exec (.hostFence via h token false) s = .next s ∧
    ((s.fence (s.portSet h)).busy = true → Completes (.hostFence via h token true) s fun u =>
      u.flag (R.HST_EVENTS.FENCE_BUSY h) = true ∧ OnlyRegisters [R.HST_EVENTS.FENCE_BUSY h] s u) ∧
    ((s.fence (s.portSet h)).busy = false →
      let m := s.portSet h
      let mine := s.slots.filter fun e => (match e.2.owner with | .host n => bitOf m n | _ => false)
        && (e.2.pkt.op != opREAD || e.2.merge.isSome)
      let s1 := s.setFence m { covered := mine.map (·.1), cFirst := (s.fence m).first, cFailed := (s.fence m).failed, busy := true,
                               token := token.toNat }
      exec (.hostFence via h token true) s =
        .next (((upFrom 0 4).foldl (fun s n => if bitOf m n then s.setFld (R.HST_FENCE_STATUS.BUSY n) 1 else s) s1).fenceReport m))) ∧
  (∀ (h : PortNo) (s : State),
    (∀ c, s.settled = false → exec (.configRequest h c) s = .next (s.send (.config h true 0))) ∧
    (∀ off v, s.settled = true → s.configWord off.toNat = some v →
      exec (.configRequest h (.read off)) s = .next (s.send (.config h false (BitVec.ofNat 32 v)))) ∧
    (∀ io mem, s.settled = true → exec (.configRequest h (.enables io mem)) s =
      .next ((s.setConf h { s.conf h with io := io, mem := mem }).send (.config h false 0)))) ∧
  (∀ (h : PortNo) (v : Fin 2048) (s : State), (s.msixOf h).fmask = false →
    ((s.msixOf h).enabled = true → (s.msixOf h).pending = [(v.val, true)] → Completes (.msixVectorUnmask h (some v)) s fun u =>
      u.out = .msix h v :: s.out ∧ FMap.get (fun _ => true) (u.msixOf h).vmask v = false ∧ (u.msixOf h).pending = []
        ∧ u.regs = s.regs ∧ u.hbm = s.hbm) ∧
    ((s.msixOf h).pending = [] → Completes (.msixVectorUnmask h (some v)) s fun u =>
      u.out = s.out ∧ FMap.get (fun _ => true) (u.msixOf h).vmask v = false ∧ u.regs = s.regs ∧ u.hbm = s.hbm)) ∧
  (∀ (h : PortNo) (d : Fin 2) (base size : BitVec 64) (iw ig : BitVec 4) (s : State),
    (2 < iw.toNat ∨ 6 < ig.toNat ∨ size = 0 →
      exec (.hdmDecoderCommit h d base size iw ig) s = .next s) ∧
    (iw.toNat ≤ 2 → ig.toNat ≤ 6 → size ≠ 0 → base.toNat % 2 ^ 28 = 0 →
      size.toNat % (2 ^ 28 * 2 ^ iw.toNat) = 0 → base.toNat + size.toNat ≤ 2 ^ 64 →
      Completes (.hdmDecoderCommit h d base size iw ig) s fun u =>
        u.decoder h d = some { base := base.toNat, size := size.toNat, iw := iw.toNat, ig := ig.toNat } ∧ u.hbm = s.hbm
          ∧ OnlyFields [R.HST_PORT_STATUS.MEM_ON h] s u)) ∧
  (∀ (h : PortNo) (rate width : Fin 3) (s : State), s.flag (R.HST_PORT_CFG.EN h) = true →
    Completes (.hostLinkTrain h rate width) s fun u =>
      u.fld (R.HST_PORT_STATUS.LINK h) = 2 ∧ u.fld (R.HST_PORT_STATUS.PERST h) = 0
        ∧ u.fld (R.HST_PORT_STATUS.RATE h) =
          max rate.val (s.fld (R.HST_PORT_CFG.MAXRATE h)) % 2 ^ (R.HST_PORT_STATUS.RATE h).w
        ∧ u.fld (R.HST_PORT_STATUS.WIDTH h) =
          max width.val (s.fld (R.HST_PORT_CFG.MAXWIDTH h)) % 2 ^ (R.HST_PORT_STATUS.WIDTH h).w
        ∧ OnlyRegisters [R.HST_PORT_STATUS.LINK h, R.HST_PORT_STATUS.PERST h, R.HST_PORT_STATUS.RATE h,
            R.HST_PORT_STATUS.WIDTH h] s u) ∧
  (∀ (h : PortNo) (s : State),
    let s1 := s.raise (R.HST_EVENTS.PERST h)
    let cut (s2 : State) : State :=
      let slots := s2.slots.map fun (e : Nat × Slot) => if e.2.owner = .host h then (e.1, { e.2 with muted := true }) else e
      let hst : HstState := { s2.hst with msix := FMap.set (fun _ => {}) s2.hst.msix h {},
                                          conf := FMap.set (fun _ => {}) s2.hst.conf h {},
                                          decoders := FMap.drop (fun i => i / 2 == h.val) s2.hst.decoders }
      let s3 : State := { s2 with slots := slots, hst := hst }
      (((((s3.setFld (R.HST_PORT_STATUS.MEM_ON h) 0).setFld (R.HST_PORT_STATUS.CACHE_ON h) 0).watchPortDown h).dropHost h).recheck)
    exec (.hostPortReset h .flr) s = .next (cut s1) ∧
    exec (.hostPortReset h .hot) s =
      .next (cut ((s1.raise (R.HST_EVENTS.LINK_DOWN h)).setFld (R.HST_PORT_STATUS.LINK h) 1)) ∧
    exec (.hostPortReset h .linkDown) s =
      .next (cut ((s1.raise (R.HST_EVENTS.LINK_DOWN h)).setFld (R.HST_PORT_STATUS.LINK h) 0)) ∧
    exec (.hostPortReset h .perst) s =
      .next (cut (((s1.raise (R.HST_EVENTS.LINK_DOWN h)).setFld (R.HST_PORT_STATUS.LINK h) 0).setFld (R.HST_PORT_STATUS.PERST h) 1)))

/-! ## SPDM (R322, R335) -/

/-- R322, R335: what the SPDM responder answers on a port that it can serve; while it is busy with a quote, before C1 has ended
and on a port whose link is down, a request leaves the state as it is. A signature is over a free transcript. Where the spec is
silent or can be read two ways this is the model's reading (log entry 27). -/
def Obligations.SpdmResponses : Prop :=
  (∀ (h : PortNo) (s : State), s.spdmReady h = false →
    (∀ c ∈ [Instr.getVersion h, .getCapabilities h, .getDigests h, .finish h, .heartbeat h, .endSession h, .challenge h 0,
      .chunkGet h 0, .chunkSend h 0 none, .getMeasurements h 0 false, .keyExchange h false false], exec c s = .next s)) ∧
  (∀ (h : PortNo) (s : State), s.spdmReady h = true → s.mgtAway = false →
    let x := s.sec.spdm
    let answer (r : SpdmRsp) : Host.Outcome State Fault Refusal := .next (s.send (.spdm h r))
    let sig : BitVec 26472 := Config.sign (Config.freeNat s.free) [] []
    let s1 : State := { s with free := s.free + 1 }
    exec (.getVersion h) s = .next ((s.setSpdm
      { x with agreed := FMap.del x.agreed h, session := FMap.del x.session h }).send (.spdm h (.version 0x14))) ∧
    exec (.getCapabilities h) s = answer .capabilities ∧
    exec (.getDigests h) s = answer (.digests (Config.sha384 s.certChain)) ∧
    exec (.negotiateAlgorithms h true true true true) s =
      .next ((s.setSpdm { x with agreed := FMap.put x.agreed h true }).send (.spdm h .algorithms)) ∧
    (∀ a b c d, (a && b && c && d) = false → exec (.negotiateAlgorithms h a b c d) s = answer (.error .other)) ∧
    (∀ off len, exec (.getCertificate h 0 off len) s =
      answer (.certificate ((s.certChain.drop off.toNat).take len.toNat)
        (s.certChain.length - off.toNat - ((s.certChain.drop off.toNat).take len.toNat).length))) ∧
    (∀ slot off len, slot ≠ 0 → exec (.getCertificate h slot off len) s = answer (.error .invalidRequest)
      ∧ exec (.challenge h slot) s = answer (.error .invalidRequest)) ∧
    (s.flag R.SEC_STATUS.ID_OK = true → exec (.challenge h 0) s = .next (s1.send (.spdm h (.challengeAuth sig))) ∧
      exec (.keyExchange h false false) s = .next ((s1.setSpdm { x with session := FMap.put x.session h 1 }).send
        (.spdm h (.keyExchange sig)))) ∧
    (s.flag R.SEC_STATUS.ID_OK = false → exec (.challenge h 0) s = answer (.error .other) ∧
      exec (.keyExchange h false false) s = answer (.error .other) ∧
      ∀ i, exec (.getMeasurements h i true) s = answer (.error .other)) ∧
    (∀ i : BitVec 8, 1 ≤ i.toNat → i.toNat ≤ 4 →
      exec (.getMeasurements h i false) s = answer (.measurements [(i.toNat, s.spdmBlock i.toNat)] none)) ∧
    exec (.getMeasurements h 0 false) s = answer (.measurements [] none) ∧
    exec (.getMeasurements h 255 false) s = answer (.measurements [(1, s.spdmBlock 1), (2, s.spdmBlock 2), (3, s.spdmBlock 3),
      (4, s.spdmBlock 4)] none) ∧
    (FMap.get (fun _ => 0) x.session h = 1 →
      exec (.finish h) s = .next ((s.setSpdm { x with session := FMap.put x.session h 2 }).send (.spdm h .finish))) ∧
    (FMap.get (fun _ => 0) x.session h = 2 → exec (.heartbeat h) s = answer .heartbeat ∧
      exec (.endSession h) s = .next ((s.setSpdm { x with session := FMap.del x.session h }).send (.spdm h .endSession))) ∧
    (∀ seq : BitVec 16, seq.toNat = FMap.get (fun _ => 0) x.taken h → exec (.chunkSend h seq none) s =
      .next ((s.send (.spdm h (.chunkAck seq.toNat))).setSpdm
        { x with taken := FMap.set (fun _ => 0) x.taken h (seq.toNat + 1) })) ∧
    (∀ (seq : BitVec 16) (r : List Byte), FMap.find x.large h = some r → (seq.toNat + 1) * spdmPiece < r.length →
      exec (.chunkGet h seq) s = answer (.chunk seq.toNat false ((r.drop (seq.toNat * spdmPiece)).take spdmPiece))) ∧
    (∀ std vendor code part nonce, std ≠ 3 ∨ vendor ≠ 0x1F6B ∨ code ≠ 1 →
      exec (.vendorDefinedRequest h std vendor code part nonce) s = answer (.error .unsupportedRequest)) ∧
    (∀ (part : BitVec 8) (nonce : BitVec 256), part.toNat < 64 → s.mapped h part.toNat = true →
      bitOf (s.fld (R.SEC_PART_CFG.SPDM_PORTS part.toNat)) h = true → s.flag R.SEC_STATUS.ID_OK = true →
      let q : Quote := { part := part.toNat, nonce := nonce, dst := none, port := h, start := s.tick }
      let s2 : State := { s with sec := { s.sec with quote := some q } }
      exec (.vendorDefinedRequest h 3 0x1F6B 1 part nonce) s = .next (s2.setFld R.SEC_QUOTE_STATUS.BUSY 1)))

/-! ## Partitions, ranges, keys, quotes and loads (chapter 14) -/

/-- R324 to R327: the life of a partition and of its protected ranges. Where the spec is silent or can be read two ways this is
the model's reading (log entries 24, 25 and 64). -/
def Obligations.Partitions : Prop :=
  (∀ (via : Via) (p : PartNo) (s : State), s.sees via R.SEC_PART_CMD.adr true = true →
    (s.pstate p = psDisabled → Completes (.partEnable via p) s fun u =>
      u.pstate p = psOpen ∧ u.flag (R.PRT_STATUS.ENABLED p) = true ∧ u.fld (R.SEC_PART_STATUS.RESULT p) = sOK
        ∧ OnlyRegisters [R.SEC_PART_STATUS.STATE p, R.SEC_PART_STATUS.RESULT p, R.PRT_STATUS.ENABLED p] s u) ∧
    (s.pstate p ≠ psDisabled → Completes (.partEnable via p) s fun u =>
      u.fld (R.SEC_PART_STATUS.RESULT p) = sCHECK ∧ u.flag R.SEC_EVENTS.CMD_DENY = true
        ∧ OnlyRegisters [R.SEC_PART_STATUS.RESULT p, R.SEC_EVENTS.CMD_DENY] s u) ∧
    (s.sealStatus p = sOK →
      let s1 : State := { s with sec := { s.sec with sealing := FMap.put s.sec.sealing p s.tick } }
      exec (.partSeal via p) s =
        .next (((s1.setFld (R.SEC_PART_STATUS.SEALING p) 1).noteEarliest p).partResult p sOK)) ∧
    (s.sealStatus p ≠ sOK → Completes (.partSeal via p) s fun u =>
      u.fld (R.SEC_PART_STATUS.RESULT p) = s.sealStatus p ∧ u.flag R.SEC_EVENTS.CMD_DENY = true
        ∧ OnlyRegisters [R.SEC_PART_STATUS.RESULT p, R.SEC_EVENTS.CMD_DENY] s u) ∧
    (∀ (low : BitVec 54),
      (s.mayReset p (s.fullTick low) = true →
        exec (.partReset via p low) s = .next ((s.scheduleReset p (s.fullTick low) false).partResult p sOK) ∧
        exec (.partDisable via p low) s = .next ((s.scheduleReset p (s.fullTick low) true).partResult p sOK)) ∧
      (s.mayReset p (s.fullTick low) = false →
        exec (.partReset via p low) s = .next (s.partResult p sCHECK) ∧
        exec (.partDisable via p low) s = .next (s.partResult p sCHECK)))) ∧
  (∀ (p : PartNo) (s : State) (t : Nat), FMap.find s.sec.sealing p = some t → Completes (.sealComplete p) s fun u =>
    u.pstate p = psSealed ∧ u.flag (R.PRT_STATUS.SEALED p) = true ∧ u.flag (R.SEC_PART_STATUS.SEALING p) = false
      ∧ u.flag (R.SEC_PART_STATUS.EK p) = true ∧ FMap.get (fun _ => 0) u.sec.mCode p = measure (s.codeBytes p)
      ∧ (FMap.find u.sec.pairs p).isSome = true ∧ SameMemory s u) ∧
  (∀ (p : PartNo) (s : State) (T : Nat), FMap.find s.sec.resetAt p = some T →
    (T ≤ s.tick → s.earliest p ≤ s.tick → exec (.partitionReset p) s = .next (s.resetPartition p)) ∧
    (s.tick < T ∨ s.tick < s.earliest p → exec (.partitionReset p) s = .next s)) ∧
  (∀ (p : PartNo) (s : State),
    (s.resetOver p = true → Completes (.partitionResetDone p) s fun u =>
      u.pstate p = (if FMap.get (fun _ => false) s.sec.toDisable p then psDisabled else psOpen)
        ∧ u.flag (R.PRT_STATUS.ENABLED p) = !(FMap.get (fun _ => false) s.sec.toDisable p)
        ∧ OnlyFields [R.SEC_PART_STATUS.STATE p, R.PRT_STATUS.ENABLED p] s u ∧ SameMemory s u) ∧
    (s.resetOver p = false → exec (.partitionResetDone p) s = .next s)) ∧
  (∀ (via : Via) (i : Fin 256) (secret : Bool) (p : PartNo) (base : BitVec 28) (size : BitVec 16) (s : State),
    s.sees via R.SEC_RANGE_CMD.adr true = true →
    (s.mayAdd i (b2n secret) p base.toNat size.toNat = true → Completes (.rangeAdd via i secret p base size) s fun u =>
      u.fld (R.SEC_RANGE.BASE i) = base.toNat ∧ u.fld (R.SEC_RANGE.SIZE i) = size.toNat ∧ u.fld (R.SEC_RANGE.PART i) = p.val
        ∧ u.flag (R.SEC_RANGE.KIND i) = secret ∧ u.fld (R.SEC_RANGE.STATE i) = 1
        ∧ u.fld R.SEC_RANGE_STATUS.RESULT = sOK ∧ u.flag R.SEC_RANGE_STATUS.DONE = true ∧ u = { s with regs := u.regs }) ∧
    (s.mayAdd i (b2n secret) p base.toNat size.toNat = false → Completes (.rangeAdd via i secret p base size) s fun u =>
      u.fld R.SEC_RANGE_STATUS.RESULT = sCHECK ∧ u.flag R.SEC_EVENTS.CMD_DENY = true
        ∧ OnlyRegisters [R.SEC_RANGE_STATUS.RESULT, R.SEC_RANGE_STATUS.DONE, R.SEC_EVENTS.CMD_DENY] s u) ∧
    (s.removeStatus i = sOK → s.flag (R.SEC_RANGE.KIND i) = false →
      exec (.rangeRemove via i) s = .next ((s.freeRange i).rangeResult sOK)) ∧
    (s.removeStatus i = sOK → s.flag (R.SEC_RANGE.KIND i) = true →
      exec (.rangeRemove via i) s = .next ((s.scrubRange i).rangeResult sOK)) ∧
    (s.removeStatus i ≠ sOK → exec (.rangeRemove via i) s = .next (s.rangeResult (s.removeStatus i)))) ∧
  (∀ (i : Fin 256) (s : State), FMap.find s.sec.oldScrubs i = none → Memory.wf s.hbm = true →
    (s.fld (R.SEC_RANGE.STATE i) = 2 → Completes (.scrubDone i) s fun u =>
      u.fld (R.SEC_RANGE.STATE i) = 0 ∧
        (∀ a, 65536 * s.fld (R.SEC_RANGE.BASE i) ≤ a →
          a < 65536 * s.fld (R.SEC_RANGE.BASE i) + 65536 * s.fld (R.SEC_RANGE.SIZE i) → u.byte a = 0) ∧
        (∀ a, a < 65536 * s.fld (R.SEC_RANGE.BASE i) ∨
          65536 * s.fld (R.SEC_RANGE.BASE i) + 65536 * s.fld (R.SEC_RANGE.SIZE i) ≤ a → u.byte a = s.byte a)) ∧
    (s.fld (R.SEC_RANGE.STATE i) ≠ 2 → exec (.scrubDone i) s = .next s))

/-- R333 to R340: key release, quotes, sealed loads, and debug sessions at the management port. Where the spec is silent or can
be read two ways this is the model's reading (log entries 11, 25, 26 and 70). -/
def Obligations.KeysQuotesLoads : Prop :=
  (∀ (via : Via) (p : PartNo) (slot : Fin 16) (src : BitVec 46) (s : State), s.sees via R.SEC_KEY_CMD.adr true = true →
    (s.flag R.SEC_KEY_STATUS.BUSY = false →
      let u : Unwrap := { part := p, slot := slot, src := 64 * src.toNat, nonce := FMap.find s.sec.nonces p, start := s.tick }
      let s1 : State := { s with sec := { s.sec with unwrap := some u } }
      exec (.keyUnwrap via p slot src) s = .next (s1.setFld R.SEC_KEY_STATUS.BUSY 1) ∧
      exec (.keyClear via p slot) s = .next (((s.clearSlot p slot).dropLoads p slot).keyResult sOK)) ∧
    (s.flag R.SEC_KEY_STATUS.BUSY = true → exec (.keyUnwrap via p slot src) s = .next (s.raise R.SEC_EVENTS.CMD_DENY) ∧
      exec (.keyClear via p slot) s = .next (s.raise R.SEC_EVENTS.CMD_DENY))) ∧
  (∀ (s : State) (u : Unwrap) (st : Nat) (tag : Bool), s.sec.unwrap = some u →
    let s1 : State := { s with sec := { s.sec with unwrap := none } }
    (∀ k, s.unwrapEnd u = (st, tag, some k) →
      let s2 : State := { s1 with sec := { s1.sec with keys := FMap.put s1.sec.keys (16 * u.part + u.slot) k } }
      exec .unwrapDone s = .next (((if tag then (s2.noteSlots u.part).raise R.SEC_EVENTS.UNWRAP_FAIL
        else s2.noteSlots u.part)).keyResult st)) ∧
    (s.unwrapEnd u = (st, tag, none) → Completes .unwrapDone s fun t =>
      t.flag R.SEC_KEY_STATUS.BUSY = false ∧ t.fld R.SEC_KEY_STATUS.RESULT = st % 2 ^ R.SEC_KEY_STATUS.RESULT.w
        ∧ t.flag R.SEC_KEY_STATUS.DONE = true ∧ (tag = true → t.flag R.SEC_EVENTS.UNWRAP_FAIL = true)
        ∧ t.sec.keys = s.sec.keys ∧ t.fld R.SEC_COUNTS.UNWRAPS_FAILED =
          (s.fld R.SEC_COUNTS.UNWRAPS_FAILED + 1) % 2 ^ R.SEC_COUNTS.UNWRAPS_FAILED.w ∧ SameMemory s t)) ∧
  (∀ (via : Via) (p : PartNo) (dst : BitVec 46) (s : State), s.sees via R.SEC_QUOTE_CMD.adr true = true →
    (s.flag R.SEC_QUOTE_STATUS.BUSY = true → exec (.quoteGo via p dst) s = .next (s.raise R.SEC_EVENTS.CMD_DENY)) ∧
    (s.flag R.SEC_QUOTE_STATUS.BUSY = false → s.flag R.SEC_STATUS.ID_OK = true →
      (s.quoteDst (64 * dst.toNat) = true →
        let q : Quote := { part := p, nonce := s.nonceNow, dst := some (64 * dst.toNat), port := 0, start := s.tick }
        let s1 : State := { s with sec := { s.sec with quote := some q } }
        exec (.quoteGo via p dst) s = .next (s1.setFld R.SEC_QUOTE_STATUS.BUSY 1)) ∧
      (s.quoteDst (64 * dst.toNat) = false → exec (.quoteGo via p dst) s = .next (s.quoteResult sCHECK)))) ∧
  (∀ (s : State) (q : Quote), s.sec.quote = some q →
    let s1 : State := { s with sec := { s.sec with quote := none } }
    (∀ a r s2, q.dst = some a → s1.quoteDst a = true → s1.quoteRecord q.part q.nonce = (r, s2) →
      exec .quoteDone s = .next (((s2.storeBytes a 79 r).keepNonce q.part q.nonce).quoteResult sOK)) ∧
    (∀ r s2, q.dst = none → s1.quoteRecord q.part q.nonce = (r, s2) →
      let s3 := (s2.keepNonce q.part q.nonce).setFld R.SEC_QUOTE_STATUS.BUSY 0
      let spdm : Spdm := { s3.sec.spdm with large := FMap.put s3.sec.spdm.large q.port r }
      let s4 : State := { s3 with sec := { s3.sec with spdm := spdm } }
      exec .quoteDone s = .next (s4.send (.spdm q.port .large)))) ∧
  (∀ (via : Via) (range : Fin 256) (slot : Fin 16) (first count token : BitVec 16) (s : State),
    s.sees via R.SEC_LOAD_CMD.adr true = true →
    let src := 64 * s.fld R.SEC_LOAD_SRC.ADDR
    let st := s.loadRefusal range slot first.toNat count.toNat src
    (16 ≤ s.sec.loads.length → exec (.loadGo via range slot first count token) s = .next (s.raise R.SEC_EVENTS.CMD_DENY)) ∧
    (s.sec.loads.length < 16 → st ≠ sOK →
      exec (.loadGo via range slot first count token) s = .next (s.loadEnds token.toNat st 0)) ∧
    (s.sec.loads.length < 16 → st = sOK →
      let l : Load := { range := range, slot := slot, first := first.toNat, count := count.toNat, token := token.toNat, src := src }
      let s1 : State := { s with sec := { s.sec with loads := s.sec.loads ++ [l] } }
      exec (.loadGo via range slot first count token) s = .next s1.noteLoads.startChunks)) ∧
  (∀ (e : Fin 4) (s : State) (c : Chunk) (l : Load) (rest : List Load), FMap.find s.sec.engines e = some c → s.sec.loads = l :: rest →
    let s1 : State := { s with sec := { s.sec with engines := FMap.del s.sec.engines e } }
    (∀ plain, s.openChunk l c = .good plain →
      let s2 := s1.putLines (65536 * (s1.fld (R.SEC_RANGE.BASE l.range) + l.first + c.j)) plain
      let s3 : State := { s2 with sec := { s2.sec with loads := { l with loaded := l.loaded + 1 } :: rest } }
      exec (.chunkDone e) s = .next s3.finishLoad) ∧
    (∀ st tag, s.openChunk l c = .bad st tag → l.fail = none →
      let s0 := s1.count R.SEC_COUNTS.CHUNKS_FAILED
      let s2 := if tag then s0.raise R.SEC_EVENTS.GCM_FAIL else s0
      let s3 : State := { s2 with sec := { s2.sec with loads := { l with fail := some (l.first + c.j, st) } :: rest } }
      exec (.chunkDone e) s = .next s3.finishLoad)) ∧
  (∀ (via : Via) (s : State), s.sees via R.SEC_DEBUG_CTL.adr true = true →
    (s.flag R.SEC_DEBUG_CTL.SESSION = false → Completes (.debugOpen via) s fun u =>
      u.flag R.SEC_DEBUG_CTL.SESSION = true ∧ u.flag R.SEC_DEBUG_CTL.COUNTED = false
        ∧ OnlyRegisters [R.SEC_DEBUG_CTL.SESSION, R.SEC_DEBUG_CTL.COUNTED] s u) ∧
    (s.flag R.SEC_DEBUG_CTL.SESSION = true → exec (.debugOpen via) s = .next s) ∧
    (Completes (.debugClose via) s fun u => u.flag R.SEC_DEBUG_CTL.SESSION = false
      ∧ (s.flag R.SEC_DEBUG_CTL.JTAG = false → u.flag R.SEC_DEBUG_CTL.COUNTED = false)
      ∧ (s.flag R.SEC_DEBUG_CTL.JTAG = true → u.fld R.SEC_DEBUG_CTL.COUNTED = s.fld R.SEC_DEBUG_CTL.COUNTED)
      ∧ OnlyRegisters [R.SEC_DEBUG_CTL.SESSION, R.SEC_DEBUG_CTL.COUNTED] s u))

/-! ## Reliability, power and management (chapters 15 and 16) -/

/-- R195, R196, R344, R346, R347, R357, R362: the patrol, errors in the module's own storage, the controller's restart, tray
removal, log reads, and a scheduler fault. Where the spec is silent or can be read two ways this is the model's reading (log
entries 23 and 65). -/
def Obligations.Reliability : Prop :=
  (∀ (e : Ecc) (s : State),
    (s.fld R.REL_SCRUB.PERIOD_H ≠ 0 → s.fld R.GLB_POWER_STATUS.LEVEL < 2 →
      let h := s.rel.patrol
      let s1 := s.hbmRead h e none
      let next := if FMap.get (fun _ => false) s.units (h / 1024) then h + 1 else (h / 1024 + 1) * 1024
      let then_ := if hbmLines ≤ next then 0 else next
      (h ≠ 0 → exec (.patrolScrub e) s = .next { s1 with rel := { s1.rel with patrol := then_ } }) ∧
      (h = 0 → s.rel.patrolAt = 0 ∨ s.rel.patrolAt + 22500000 * s.fld R.REL_SCRUB.PERIOD_H ≤ s.tick →
        exec (.patrolScrub e) s = .next { s1 with rel := { s1.rel with patrol := then_, patrolAt := s1.tick } }) ∧
      (h = 0 → s.rel.patrolAt ≠ 0 → s.tick < s.rel.patrolAt + 22500000 * s.fld R.REL_SCRUB.PERIOD_H →
        exec (.patrolScrub e) s = .next s)) ∧
    (s.fld R.REL_SCRUB.PERIOD_H = 0 ∨ 2 ≤ s.fld R.GLB_POWER_STATUS.LEVEL → exec (.patrolScrub e) s = .next s)) ∧
  (∀ (x : Storage) (s : State),
    (x.row.1 ≠ 0 → exec (.sramUncorrectable x) s =
      .next ((((s.strike x).event R.REL_EVENTS.SRAM_UE 9).count R.REL_COUNTS.SRAM_UE).faultLog 0x0A01 0 0 0 x.row.1 x.row.2)) ∧
    (∀ i header, exec (.sramUncorrectable (.packet i header)) s = .next (s.packetError i header))) ∧
  (∀ (n : Fin 1048576) (s : State) (t : Nat), FMap.find s.home.lostSets n = some t →
    (t + 8192 ≤ s.tick → exec (.ledgerSetLostExpire n) s =
      .next { s with home := { s.home with lostSets := FMap.del s.home.lostSets n } }) ∧
    (s.tick < t + 8192 → exec (.ledgerSetLostExpire n) s = .next s)) ∧
  (∀ s : State,
    (s.mgt.restart = none → s.mgt.prog = none → s.sec.quote = none →
      let s1 : State := { s.failEpoch with mgt := { s.failEpoch.mgt with restart := some s.failEpoch.tick } }
      exec .iddaumLockstepRestart s = .next (s1.event R.REL_EVENTS.IDDAUM_RESTART 9)) ∧
    (∀ t, s.mgt.restart = some t → exec .iddaumLockstepRestart s = .next s ∧
      let s1 : State := { s with mgt := { s.mgt with restart := none } }
      exec .iddaumRestartDone s = .next (s1.faultLog 0x0B01 0 0 0 (s.tick - t) (s.fld R.SEC_STATUS.FW_SLOT))) ∧
    (s.mgt.restart = none → exec .iddaumRestartDone s = .next s)) ∧
  (∀ s : State,
    (s.flag R.REL_TRAY.EN = true → s.fld R.REL_TRAY.STATE = 0 →
      let s1 := ((s.dropQueues).colAbortAll 0x10).setFld R.REL_TRAY.STATE 1
      let s2 : State := { s1 with rel := { s1.rel with trayAt := ((s.dropQueues).colAbortAll 0x10).tick } }
      exec .trayPresentDeassert s = .next (s2.event R.REL_EVENTS.TRAY_DRAIN 8).flushDirty) ∧
    (s.flag R.REL_TRAY.EN = false ∨ s.fld R.REL_TRAY.STATE ≠ 0 → exec .trayPresentDeassert s = .next s) ∧
    (s.fld R.REL_TRAY.STATE = 1 →
      (s.drained357 = true →
        let leave (s : State) (c : Nat) : State :=
          if s.fld (R.SWC_CH_STATUS.STATE c) = chUP then
            s.sendCtrl c (.leave (BitVec.ofNat 16 s.feid) 1 (BitVec.ofNat 64 s.tick)) else s
        let s1 := (upFrom 0 262).foldl leave s
        exec .trayDrainEnd s = .next ((s1.setFld R.REL_TRAY.STATE 2).faultLog 0x0A03 0 0 0 (s1.tick - s1.rel.trayAt)
          (b2n (!s1.drained357)))) ∧
      (s.drained357 = false → s.tick - s.rel.trayAt < s.fld R.REL_TRAY.DRAIN_TICKS →
        exec .trayDrainEnd s = .next s.flushDirty)) ∧
    (s.fld R.REL_TRAY.STATE ≠ 1 → exec .trayDrainEnd s = .next s)) ∧
  (∀ (via : Via) (poison : Bool) (i : Fin 262144) (s : State), s.sees via R.REL_LOG_ACC_CMD.adr true = true →
    Completes (.logRead via poison i) s fun u =>
      let r := FMap.get (fun _ => 0) (if poison then s.rel.poisonLog else s.rel.faultLog) i
      (∀ k, k < 4 → u.reg (R.REL_LOG_ACC_DATA.adr k) = (r >>> (64 * k)).setWidth 64) ∧ u = { s with regs := u.regs }
        ∧ ∀ o, (∀ k, k < 4 → o ≠ R.REL_LOG_ACC_DATA.adr k) → u.reg o = s.reg o) ∧
  (∀ (k : Fin 16) (s : State),
    (s.posState k = 0 → s.fld R.LDL_STATUS.SPARE_PHYS ≠ 0x1F → s.ldl.repl = none →
      exec (.schedulerBankFault k) s = .next (s.startReplace k)) ∧
    (s.posState k = 0 → s.fld R.LDL_STATUS.SPARE_PHYS = 0x1F →
      exec (.schedulerBankFault k) s = .next ((s.ldlEvent R.LDL_EVENTS.SPARE_NONE).disablePos k)) ∧
    (s.posState k ≠ 0 → exec (.schedulerBankFault k) s = .next s))

/-- R365, R369, R371, R413: input voltage, emergency shed, temperature and the I3C interface. After loss of power the registers
are those of a cold reset with LAST = 3, and nothing but the flash, the TAP and what waits outside stays (the module's power-off
state itself is the model's choice). Where the spec is
silent or can be read two ways this is the model's reading (log entries 10 and 44). -/
def Obligations.PowerAndSense : Prop :=
  (∀ s : State,
    exec .inputUndervoltage s = .next ((s.setPwr { s.pwr with uv := true }).event R.GLB_POWER_EVENTS.UV 0) ∧
    exec .undervoltageEnd s = .next { s with pwr := { s.pwr with uv := false } } ∧
    exec .inputOvervoltage s = .next (s.event R.GLB_POWER_EVENTS.OV 0) ∧
    exec .emergencyShedStart s = .next ((s.setFld R.GLB_POWER_STATUS.EMERG 1).event R.GLB_POWER_EVENTS.EMERGENCY 0) ∧
    (s.flag R.GLB_POWER_STATUS.EMERG = true → Completes .emergencyShedEnd s fun u =>
      u.flag R.GLB_POWER_STATUS.EMERG = false ∧ u.pwr = { s.pwr with demand := 7, changedAt := s.tick }
        ∧ OnlyFields [R.GLB_POWER_STATUS.EMERG] s u ∧ SameMemory s u) ∧
    (s.flag R.GLB_POWER_STATUS.EMERG = false → exec .emergencyShedEnd s = .next s) ∧
    exec .temperatureHot s = .next ((s.setFld R.GLB_POWER_STATUS.HOT 1).event R.GLB_POWER_EVENTS.HOT 0) ∧
    (Completes .temperatureCool s fun u => u.flag R.GLB_POWER_STATUS.HOT = false ∧ OnlyRegisters [R.GLB_POWER_STATUS.HOT] s u) ∧
    (∀ c ∈ [Instr.inputPowerLoss, .thermalShutdown], Completes c s fun u =>
      u.fld R.GLB_RESET_STATUS.LAST = 3 ∧ OnlyFields [R.GLB_RESET_STATUS.LAST] State.reset u ∧ u.hbm = []
        ∧ u.mgt.flash = s.mgt.flash ∧ u.cru.on = false ∧ u.pending = s.pending)) ∧
  (∀ (a : BitVec 7) (s : State), exec (.i3cEntdaa a) s =
    let s1 : State := { s with mgt := { s.mgt with i3c := some a } }
    .next (s1.send (.i3cId (BitVec.ofNat 48 (s.fld R.GLB_ID.SERIAL))))) ∧
  (∀ (s : State), s.mgt.i3c.isSome = true →
    exec .i3cPowerRead s = .next (s.send (.i3cRead (s.reg R.MGT_SENSE.adr ++ s.reg R.GLB_POWER_STATUS.adr))) ∧
    (∀ v : BitVec 16, (s.settled = false → exec (.i3cCapWrite v) s = .next (s.send .i3cNack)) ∧
      (s.settled = true → 300 ≤ v.toNat → v.toNat < 2048 → Completes (.i3cCapWrite v) s fun u =>
        u.fld R.GLB_POWER_CAP.CAP = v.toNat ∧ OnlyRegisters [R.GLB_POWER_CAP.CAP] s u) ∧
      (s.settled = true → v.toNat < 300 → exec (.i3cCapWrite v) s = .next s)))

/-- R372, R373, R375, R383, R385, R386: power good, the reset levels, updates of the settings store and firmware swaps. What a
warm reset leaves of the fields that show conditions that last is the model's reading (log entry 35). Where the spec is
silent or can be read two ways this is the model's reading (log entries 35, 44 and 46). -/
def Obligations.ResetsAndUpdates : Prop :=
  (∀ s : State,
    (s.cru.on = false → Completes .powerGood s fun u =>
      u.cru.on = true ∧ u.fld R.GLB_CRUISE_STATUS.PHASE = 0 ∧ u.hbm = [] ∧ u.mgt.flash = s.mgt.flash
        ∧ u.fld R.GLB_RESET_STATUS.LAST = s.fld R.GLB_RESET_STATUS.LAST ∧ OnlyFields [R.GLB_RESET_STATUS.LAST] State.reset u) ∧
    (s.cru.on = true → exec .powerGood s = .next s) ∧
    (∀ cycles, 16 ≤ cycles → Completes (.resetNAssert cycles) s fun u =>
      u.fld R.GLB_RESET_STATUS.LAST = 1 ∧ OnlyFields [R.GLB_RESET_STATUS.LAST] State.reset u ∧ u.hbm = [] ∧ u.cru.on = false
        ∧ u.cru.resetN = true ∧ u.mgt.flash = s.mgt.flash) ∧
    (∀ cycles, cycles < 16 → exec (.resetNAssert cycles) s = .next s)) ∧
  (∀ (via : Via) (s : State), s.sees via R.GLB_RESET_CMD.adr true = true →
    exec (.warmReset via 0x5752) s = .next s.warmReset ∧
    (∀ key, key ≠ 0x5752 → exec (.warmReset via key) s = .next s ∧ ∀ k, exec (.skidderReset via key k) s = .next s) ∧
    (∀ (k : SkidNo), (s.skid k).run = [] → (s.skid k).queue = [] →
      let s1 : State := { s with free := s.free + 1 }
      exec (.skidderReset via 0x5752 k) s = .next (s1.setSkid k (s.skid k)).recheck) ∧
    (∀ (k : SkidNo) (r : SkdRun), (s.skid k).run = [r] → (s.skid k).queue = [] → r.finished = false →
      let s1 : State := { s with free := s.free + 1 }
      exec (.skidderReset via 0x5752 k) s =
        .next (s1.setSkid k { s.skid k with run := [r.aborted (Config.freeNat s.free % 256) s.tick] }).recheck)) ∧
  (∀ (via : Via) (src : BitVec 46) (s : State), s.sees via R.MGT_SET_CMD.adr true = true →
    (s.mgt.prog.isSome = true ∨ s.mgt.swap.isSome = true → Completes (.settingsProgram via src) s fun u =>
      u.fld R.MGT_SET_STATUS.RESULT = sNORES ∧ OnlyRegisters [R.MGT_SET_STATUS.RESULT] s u) ∧
    (s.mgt.prog = none → s.mgt.swap = none → s.mgt.restart = none →
      (s.imageTaken (64 * src.toNat) = false → Completes (.settingsProgram via src) s fun u =>
        u.fld R.MGT_SET_STATUS.RESULT = sCHECK ∧ u.flag R.MGT_SET_STATUS.DONE = true ∧ u.flag R.MGT_SET_STATUS.BUSY = false
          ∧ OnlyRegisters [R.MGT_SET_STATUS.RESULT, R.MGT_SET_STATUS.DONE, R.MGT_SET_STATUS.BUSY] s u) ∧
      (s.imageTaken (64 * src.toNat) = true →
        let s1 := (s.flashErase (bankBase s.olderBank) (2 ^ 25)).showBank s.olderBank false 0
        let x : Prog := { src := 64 * src.toNat, bank := s.olderBank, start := s1.tick }
        let s2 : State := { s1 with mgt := { s1.mgt with prog := some x } }
        exec (.settingsProgram via src) s = .next (s2.setFld R.MGT_SET_STATUS.BUSY 1)))) ∧
  (∀ (s : State) (x : Prog), s.mgt.prog = some x →
    let img := s.hbmImage x.src
    let s1 : State := { s with mgt := { s.mgt with prog := none } }
    let s2 := (s1.flashWrite (bankBase x.bank + 8192) (img.drop 8192)).putItems (bankBase x.bank + journalAt) s1.updateItems
    let s3 := s2.flashWrite (bankBase x.bank) (img.take 8192)
    ((s3.bank x.bank).isNone = true → exec .programDone s = .next (s3.setResult sCHECK)) ∧
    ((s3.bank x.bank).isNone = false → s3.flag R.MGT_SET_STATUS.NONE = false →
      exec .programDone s = .next ((s3.showBank x.bank true (hdrSeq img)).setResult sOK))) ∧
  (∀ (via : Via) (s : State), s.sees via R.MGT_FW_CMD.adr true = true →
    (s.mgtAway = true → Completes (.fwSwap via) s fun u =>
      u.fld R.MGT_FW_CMD.RESULT = sNORES ∧ u.flag R.MGT_FW_CMD.DONE = true
        ∧ OnlyRegisters [R.MGT_FW_CMD.RESULT, R.MGT_FW_CMD.DONE] s u) ∧
    (s.mgtAway = false → s.flag R.MGT_SET_STATUS.NONE = false → (s.bank s.olderBank).isSome = true →
      Completes (.fwSwap via) s fun u => u.mgt = { s.mgt with swap := some s.tick } ∧ u.flag R.MGT_FW_CMD.BUSY = true
        ∧ OnlyFields [R.MGT_FW_CMD.BUSY] s u ∧ SameMemory s u) ∧
    (s.mgtAway = false → (s.bank s.olderBank).isNone = true → exec (.fwSwap via) s = .next (s.fwResult sCHECK))) ∧
  (∀ (s : State) (t : Nat), s.mgt.swap = some t → Completes .fwSwapDone s fun u =>
    u.mgt = { s.mgt with swap := none } ∧ u.flag R.MGT_FW_CMD.BUSY = false ∧ u.fld R.MGT_FW_CMD.RESULT = sOK
      ∧ u.flag R.MGT_FW_CMD.DONE = true ∧ SameMemory s u
      ∧ ∀ rs, s.bank s.olderBank = some rs → u.fld R.SEC_STATUS.FW_SLOT = s.olderBank
          ∧ u.sec = { s.sec with mFw := measure (recOf rs 3) })

/-! ## Cruise (chapter 16) -/

/-- R272, R291, R379, R380, R386 to R391: the phases of Cruise, the map, routes and READY. A phase's command begins the phase's work at
its first use and ends the phase at a later one (the model's choice, log entry 36). Where the spec is
silent or can be read two ways this is the model's reading (log entries 36, 45 and 47). -/
def Obligations.Cruise : Prop :=
  (∀ s : State,
    (s.inPhase 0 = true → Completes .cruiseC0Regulators s fun u => u.fld R.GLB_CRUISE_STATUS.PHASE = 1
      ∧ u.cru = { s.cru with begun := false, phaseAt := s.tick } ∧ OnlyFields [R.GLB_CRUISE_STATUS.PHASE] s u ∧ SameMemory s u) ∧
    (s.inPhase 0 = false → exec .cruiseC0Regulators s = .next s) ∧
    (s.inPhase 1 = true →
      (∀ b rs, s.showBanks.chooseBank = some (b, rs) →
        exec .cruiseC1SettingsLoad s = .next (s.showBanks.loadBank b rs).nextPhase) ∧
      (s.showBanks.chooseBank = none →
        exec .cruiseC1SettingsLoad s = .next (s.showBanks.setFld R.MGT_SET_STATUS.NONE 1).began)) ∧
    (s.inPhase 2 = true →
      (s.cru.begun = false → exec .cruiseC2Training s = .next (s.enabledPorts.foldl (fun s m => s.firstTrain m) s).began) ∧
      (s.cru.begun = true → (∀ m ∈ s.enabledPorts, s.fld (R.ELK_PORT_STATUS.STATE m) = 2) →
        exec .cruiseC2Training s = .next s.nextPhase) ∧
      (∀ m ∈ s.enabledPorts, s.cru.begun = true → s.fld (R.ELK_PORT_STATUS.STATE m) ≠ 2 → exec .cruiseC2Training s = .next s)) ∧
    (∀ powers, s.inPhase 3 = true →
      (s.cru.begun = false → exec (.cruiseC3Optics powers) s = .next (s.startOptics powers).began) ∧
      (s.cru.begun = true → s.allJudged = true → exec (.cruiseC3Optics powers) s = .next s.endMargins.nextPhase) ∧
      (s.cru.begun = true → s.allJudged = false → exec (.cruiseC3Optics powers) s = .next s.startMargins)) ∧
    (s.inPhase 4 = true →
      (s.cru.begun = false → exec .cruiseC4Links s = .next s.sendIdents.began) ∧
      (s.cru.begun = true → s.allIdents = true → exec .cruiseC4Links s = .next s.assignLinks.nextPhase)) ∧
    (s.inPhase 5 = true →
      (s.cru.begun = false → exec .cruiseC5Election s = .next s.startElection.began) ∧
      (s.cru.begun = true → s.timeState = tsLOCKED ∨ s.timeState = tsLOST → exec .cruiseC5Election s = .next s.nextPhase)) ∧
    (s.inPhase 6 = true → s.cru.begun = false →
      exec .cruiseC6MapFlood s = .next (s.setCru { s.cru with changedAt := s.tick }).floodMap.began) ∧
    (s.inPhase 6 = true → s.cru.begun = true →
      (s.cru.changedAt + max 2 (s.fld R.GLB_CRUISE_STATUS.DIAMETER) * 6250 ≤ s.tick → exec .mapQuiet s = .next s.nextPhase) ∧
      (s.tick < s.cru.changedAt + max 2 (s.fld R.GLB_CRUISE_STATUS.DIAMETER) * 6250 → exec .mapQuiet s = .next s)) ∧
    (s.inPhase 7 = true → exec .cruiseC7Routes s = .next s.fillRoutes.nextPhase) ∧
    (s.inPhase 8 = true → s.cru.begun = false →
      let s1 := s.flood (s.mgmtPacket 0xFFFF (packBits [(0, 2), (32, s.cru.routeSeq)])) (.loc 0) none
      let c : CruState := { s1.cru with begun := true, ready := FMap.put s1.cru.ready s1.feid (s.cru.routeSeq + 1) }
      exec .cruiseC8Ready s = .next (s1.setCru c).judgeReady) ∧
    (s.inPhase 8 = true → s.cru.stale = true → s.cru.changedAt + 2 * 6250 ≤ s.tick →
      (s.flag R.GLB_CRUISE_CTL.AUTOROUTE = true → exec .autoroute s = .next s.fillRoutes) ∧
      (s.flag R.GLB_CRUISE_CTL.AUTOROUTE = false → exec .autoroute s = .next s)) ∧
    (∀ n ∈ [0, 2, 5, 6, 7], s.cru.on = true → s.fld R.GLB_CRUISE_STATUS.PHASE = n → s.cru.phaseAt + s.phaseLimit ≤ s.tick →
      Completes .cruisePhaseLimit s fun u => u.fld R.GLB_CRUISE_STATUS.PHASE = n + 1
        ∧ u.fld ⟨R.GLB_CRUISE_STATUS.adr, 4 + n, 1⟩ = 1 ∧ u.cru = { s.cru with begun := false, phaseAt := s.tick }
        ∧ OnlyFields [R.GLB_CRUISE_STATUS.PHASE, ⟨R.GLB_CRUISE_STATUS.adr, 4 + n, 1⟩] s u ∧ SameMemory s u)) ∧
  (∀ (p : Packet) (s : State), p.op = opMGMT → s.intact p = false →
    (p.payload.toNat % 256 = 1 → exec (.mapMessage p) s = .next (s.takeLocal p)) ∧
      (p.payload.toNat % 256 = 2 → exec (.mgmtReady p) s = .next (s.takeLocal p))) ∧
  (∀ (p : Packet) (s : State), p.op = opMGMT → s.intact p = true →
    let b := p.payload.toNat
    let s1 := s.takeLocal p
    let pt := s.cameFrom p
    (b % 256 = 1 →
      (FMap.find s1.cru.frags (4 * p.src.toNat + getBits b 8 8 % 4) = none → exec (.mapMessage p) s =
        .next ((s1.holdFrag p.src.toNat (getBits b 8 8 % 4) (mapFragOf b)).flood p pt pt.chan?)) ∧
      (∀ old, FMap.find s1.cru.frags (4 * p.src.toNat + getBits b 8 8 % 4) = some old →
        newer (mapFragOf b).mseq old.mseq = false → exec (.mapMessage p) s = .next s1)) ∧
    (b % 256 = 2 →
      (FMap.find s1.cru.ready p.src.toNat = none → exec (.mgmtReady p) s =
        .next (((s1.setCru { s1.cru with ready := FMap.put s1.cru.ready p.src.toNat (getBits b 32 32 + 1) }).flood p pt
          pt.chan?).judgeReady)) ∧
      (∀ old, FMap.find s1.cru.ready p.src.toNat = some old → newer (getBits b 32 32) (old - 1) = false →
        exec (.mgmtReady p) s = .next s1)))

/-! ## Telemetry, debug access and JTAG (chapter 17) -/

/-- R393 to R400: counter blocks, the trace buffer and the packet trace, accumulators, and the debug line buffer with the Debug
Epoch (R340, R341). What an accumulator holds while its position runs a kernel is a free value. Where the spec is silent or can
be read two ways this is the model's reading (log entries 28, 48, 49 and 68). -/
def Obligations.Telemetry : Prop :=
  (∀ s : State,
    (s.blockDue = true → exec .counterBlock s = .next s.takeBlock) ∧
    (s.blockDue = false → exec .counterBlock s = .next s) ∧
    (s.flag R.TEL_TRACE_CTL.RUN = true → s.flag R.TEL_TRACE_CTL.ARM = true → s.flag R.TEL_TRACE_STATUS.RUNNING = false →
      (s.tick % 2 ^ 16 = s.fld R.TEL_TRACE_CTL.START → Completes .traceArmedStart s fun u =>
        u.flag R.TEL_TRACE_STATUS.RUNNING = true ∧ OnlyRegisters [R.TEL_TRACE_STATUS.RUNNING] s u) ∧
      (s.tick % 2 ^ 16 ≠ s.fld R.TEL_TRACE_CTL.START → exec .traceArmedStart s = .next s)) ∧
    (∀ t, s.sec.raising = some t → s.mgtAway = false → s.tel.dbg = none → s.session = false →
      (exec (.debugEpochWriteDone false) s = .next { s with sec := { s.sec with raising := none } }) ∧
      (Completes (.debugEpochWriteDone true) s fun u =>
        u.fld R.SEC_DEBUG_EPOCH.EPOCH = (s.fld R.SEC_DEBUG_EPOCH.EPOCH + 1) % 2 ^ 64 ∧ u.flag R.SEC_EVENTS.DEBUG_READ = true
          ∧ u.sec = { s.sec with raising := none, dbgBoot := true } ∧ SameMemory s u)) ∧
    (∀ ok, s.sec.raising = none ∨ s.mgt.swap.isSome = true → exec (.debugEpochWriteDone ok) s = .next s) ∧
    (∀ ok, s.mgt.swap = none → s.mgt.restart.isSome = true → exec (.debugEpochWriteDone ok) s = .next s.failEpoch)) ∧
  (∀ (via : Via) (s : State),
    (s.sees via R.TEL_SNAP_CMD.adr true = true → exec (.snapGo via) s = .next { s with tel := { s.tel with extra := some s.tick } }) ∧
    (∀ units : BitVec 7, s.sees via R.TEL_TRACE_SPLIT.adr true = true →
      (s.flag R.TEL_TRACE_CTL.RUN = true → exec (.traceSplitWrite via units) s = .next (s.raise R.TEL_EVENTS.CFG_BUSY)) ∧
      (s.flag R.TEL_TRACE_CTL.RUN = false → units.toNat ≤ 64 →
        let s1 : State := { s with tel := { s.tel with split := some s.histUnits } }
        exec (.traceSplitWrite via units) s = .next (s1.setFld R.TEL_TRACE_SPLIT.HIST_UNITS units.toNat)) ∧
      (s.flag R.TEL_TRACE_CTL.RUN = false → 64 < units.toNat → exec (.traceSplitWrite via units) s = .next s)) ∧
    (∀ v : Word, s.sees via R.TEL_TRACE_CTL.adr true = true → s.flag R.TEL_TRACE_CTL.RUN = false →
      goodPoint (getBits v.toNat 6 10) = true → Completes (.traceRun via v) s fun u =>
        u.flag R.TEL_TRACE_CTL.RUN = true ∧ u.fld R.TEL_TRACE_CTL.POINT = getBits v.toNat 6 10
          ∧ u.fld R.TEL_TRACE_CTL.START = getBits v.toNat 32 16 ∧ u.fld R.TEL_TRACE_STATUS.WRITTEN = 0
          ∧ u.flag R.TEL_TRACE_STATUS.RUNNING = !(u.flag R.TEL_TRACE_CTL.ARM) ∧ u = { s with regs := u.regs }) ∧
    (s.sees via R.TEL_DBG_CMD.adr true = true → s.flag R.TEL_DBG_CMD.BUSY = false →
      (4500000000 ≤ s.dbgAddr → exec (.debugLineRead via) s = .next (s.dbgResult sCHECK) ∧
        exec (.debugLineWrite via) s = .next (s.dbgResult sCHECK)) ∧
      (s.dbgAddr < 4500000000 → s.isSealedLine s.dbgAddr = false →
        (Completes (.debugLineRead via) s fun u => u.tel = { s.tel with line := s.readLine s.dbgAddr }
          ∧ u.fld R.TEL_DBG_CMD.RESULT = (if s.isPoison s.dbgAddr then sPOISON else sOK) ∧ u.flag R.TEL_DBG_CMD.BUSY = false
          ∧ OnlyFields [R.TEL_DBG_CMD.RESULT, R.TEL_DBG_CMD.BUSY] s u ∧ SameMemory s u) ∧
        (s.isSealedCode s.dbgAddr = false → s.visible (64 * s.dbgAddr) 64 = true → Completes (.debugLineWrite via) s fun u =>
          u.readLine s.dbgAddr = s.tel.line ∧ u.isPoison s.dbgAddr = false ∧ u.fld R.TEL_DBG_CMD.RESULT = sOK
            ∧ OnlyFields [R.TEL_DBG_CMD.RESULT, R.TEL_DBG_CMD.BUSY] s u
            ∧ ∀ a, (a < 64 * s.dbgAddr ∨ 64 * s.dbgAddr + 64 ≤ a) → u.byte a = s.byte a)) ∧
      (s.dbgAddr < 4500000000 → s.isSealedLine s.dbgAddr = true →
        (s.session = false → Completes (.debugLineRead via) s fun u => u.tel.line = 0 ∧ u.fld R.TEL_DBG_CMD.RESULT = sSEALED
          ∧ SameMemory s u) ∧
        (s.session = true → s.flag R.SEC_DEBUG_CTL.COUNTED = true → exec (.debugLineRead via) s = .next (s.dbgLoad s.dbgAddr)) ∧
        (Completes (.debugLineWrite via) s fun u => u.fld R.TEL_DBG_CMD.RESULT = sSEALED ∧ SameMemory s u))) ∧
    (∀ (k : Fin 16) (c : Fin 64) (a : Fin 8) (i : Fin 6),
      let off := accOffset k c a i
      (s.sees via off false = true →
        (s.isRetired (s.fld (R.LDL_POS_STATUS.PHYS k)) c = true →
          exec (.accumulatorRead via k c a i) s = .next (s.send (.readData via off 0))) ∧
        (s.isRetired (s.fld (R.LDL_POS_STATUS.PHYS k)) c = false → (s.lpos k).running.isSome = true → (s.lpos k).isSealed = true →
          s.flag R.SEC_DEBUG_CTL.COUNTED = false → exec (.accumulatorRead via k c a i) s =
            .next ((s.raise R.TEL_EVENTS.SEALED_ZERO).send (.readData via off 0))) ∧
        (s.isRetired (s.fld (R.LDL_POS_STATUS.PHYS k)) c = false → (s.lpos k).running = none →
          let x : LAcc := FMap.get (fun _ => {}) s.ldl.acc (512 * s.fld (R.LDL_POS_STATUS.PHYS k) + 8 * c.val + a.val)
          exec (.accumulatorRead via k c a i) s =
            .next (s.send (.readData via off (BitVec.ofNat 64 (getBits x.word (64 * i.val) 64))))) ∧
        (s.isRetired (s.fld (R.LDL_POS_STATUS.PHYS k)) c = false → s.kernelRuns k = true → (s.lpos k).isSealed = false →
          let s1 : State := { s with free := s.free + 1 }
          exec (.accumulatorRead via k c a i) s = .next (s1.send (.readData via off (BitVec.ofNat 64 (Config.freeNat s.free)))))) ∧
      (s.sees via off false = false →
        exec (.accumulatorRead via k c a i) s = .next ((s.denied via).send (.readData via off 0)))))

/-- R340, R401, R402: the JTAG instructions. An instruction that drives or floats contacts has its own effect only while RESET_N is
asserted, and acts as BYPASS otherwise; TRST_N or Test-Logic-Reset selects IDCODE (PRESUMED, the model's choice). Where the spec is
silent or can be read two ways this is the model's reading (log entry 50). -/
def Obligations.JtagInstructions : Prop :=
  ∀ s : State,
    let load (ir : BitVec 8) (drive : Drive) (dr : Nat) : State :=
      { s with jtag := { s.jtag with ir := ir, drive := drive, dr := dr } }
    (s.cru.resetN = true →
      exec .extest s = .next (load 0x00 .scan s.jtag.captured) ∧ exec .clamp s = .next (load 0x04 .clamp 0) ∧
      exec .highz s = .next (load 0x05 .float 0) ∧ exec .extestPulse s = .next (load 0x06 .pulse s.jtag.captured) ∧
      exec .extestTrain s = .next (load 0x07 .train s.jtag.captured)) ∧
    (s.cru.resetN = false → ∀ c ∈ [Instr.extest, .clamp, .highz, .extestPulse, .extestTrain], exec c s = exec .bypass s) ∧
    exec .bypass s = .next (load 0xFF .none 0) ∧
    exec .idcode s = .next (load 0x01 .none
      (packBits [(0, 1), (1, 0x4D5), (12, 0x4096), (28, s.fld R.GLB_FEID.STEPPING % 16)])) ∧
    (∀ pins, Completes (.sample pins) s fun u => u.jtag = { s.jtag with ir := 0x02, drive := .none, dr := pins, captured := pins }
      ∧ u.regs = s.regs ∧ u.hbm = s.hbm) ∧
    (∀ cells, Completes (.preload cells) s fun u =>
      u.jtag = { s.jtag with ir := 0x03, drive := .none, dr := s.jtag.captured, cells := cells } ∧ u.regs = s.regs ∧ u.hbm = s.hbm) ∧
    (Completes .secDebug s fun u => u.flag R.SEC_DEBUG_CTL.JTAG = true ∧ u.jtag.ir = 0x21 ∧ u.jtag.dr = 1
      ∧ (s.flag R.SEC_DEBUG_CTL.JTAG = false → u.flag R.SEC_DEBUG_CTL.COUNTED = false)
      ∧ (s.flag R.SEC_DEBUG_CTL.JTAG = true → u.fld R.SEC_DEBUG_CTL.COUNTED = s.fld R.SEC_DEBUG_CTL.COUNTED)
      ∧ OnlyFields [R.SEC_DEBUG_CTL.JTAG, R.SEC_DEBUG_CTL.COUNTED] s u ∧ SameMemory s u) ∧
    (Completes .jtagTapReset s fun u => u.flag R.SEC_DEBUG_CTL.JTAG = false
      ∧ (s.flag R.SEC_DEBUG_CTL.SESSION = false → u.flag R.SEC_DEBUG_CTL.COUNTED = false)
      ∧ (s.flag R.SEC_DEBUG_CTL.SESSION = true → u.fld R.SEC_DEBUG_CTL.COUNTED = s.fld R.SEC_DEBUG_CTL.COUNTED)
      ∧ u.jtag = { dr := packBits [(0, 1), (1, 0x4D5), (12, 0x4096), (28, s.fld R.GLB_FEID.STEPPING % 16)] }
      ∧ OnlyFields [R.SEC_DEBUG_CTL.JTAG, R.SEC_DEBUG_CTL.COUNTED] s u ∧ SameMemory s u)

/-! ## Invariants -/

/-- The reset state (log entries 1 to 5) meets the invariant that every step keeps: HBM and the register file are in canonical form. -/
def Obligations.ResetIsCanonical : Prop := Memory.wf State.reset.hbm = true ∧ Registers.wf State.reset.regs = true ∧
  State.reset.pending = []

/-- Every step keeps HBM and the register file in canonical form (addresses strictly rising, no entry equal to what an unlisted
address reads as), so that equal contents are equal data; and no command adds, drops or reorders waiting commands: what waits after
a step is the rest of the queue. -/
def Obligations.StepsKeepCanonicalForm : Prop :=
  ∀ s t : State, step s = .next t → (Memory.wf s.hbm = true → Memory.wf t.hbm = true) ∧
    (Registers.wf s.regs = true → Registers.wf t.regs = true) ∧ t.pending = s.pending.tail
end

