-- ==== Sys2Proof/Laws/Bits.lean ====
section
/-! SUPPORT. Laws of bit fields: read after write. -/

namespace Sys2Proof.Machine

theorem getBits_lt (n lo w : Nat) : getBits n lo w < 2 ^ w := Nat.mod_lt _ (Nat.two_pow_pos w)

/-- A digit and a number above it, within the product of their bounds. -/
theorem digit_lt {a b p q : Nat} (ha : a < p) (hb : b < q) : a + p * b < p * q :=
  calc a + p * b < p + p * b := Nat.add_lt_add_right ha _
    _ = p * (b + 1) := by ring
    _ ≤ p * q := Nat.mul_le_mul_left p hb

/-- A number with a field set, as its part from the field on and its part below. -/
theorem putBits_eq (n lo w v : Nat) :
    putBits n lo w v = n % 2 ^ lo + 2 ^ lo * (v % 2 ^ w + 2 ^ w * (n / 2 ^ (lo + w))) := by
  unfold putBits
  rw [Nat.pow_add]
  ring

/-- A field reads back what was put into it. -/
@[simp] theorem getBits_putBits_same (n lo w v : Nat) : getBits (putBits n lo w v) lo w = v % 2 ^ w := by
  unfold getBits
  rw [putBits_eq, Nat.add_mul_div_left _ _ (Nat.two_pow_pos lo), Nat.div_eq_of_lt (Nat.mod_lt _ (Nat.two_pow_pos lo)),
    Nat.zero_add, Nat.add_mul_mod_self_left, Nat.mod_mod]

/-- A field below the one written keeps its value. -/
theorem getBits_putBits_below (n lo w v l m : Nat) (h : l + m ≤ lo) :
    getBits (putBits n lo w v) l m = getBits n l m := by
  obtain ⟨d, rfl⟩ := Nat.exists_eq_add_of_le h
  unfold getBits
  have key (x y : Nat) : (x % 2 ^ (l + m + d) + 2 ^ (l + m + d) * y) / 2 ^ l % 2 ^ m = x / 2 ^ l % 2 ^ m := by
    have h1 : 2 ^ (l + m + d) = 2 ^ l * (2 ^ m * 2 ^ d) := by rw [Nat.pow_add, Nat.pow_add]; ring
    rw [h1, Nat.mul_assoc, Nat.add_mul_div_left _ _ (Nat.two_pow_pos l), Nat.mod_mul_right_div_self, Nat.mul_assoc,
      Nat.add_mul_mod_self_left, Nat.mod_mul_right_mod]
  rw [putBits_eq, key]

/-- A field above the one written keeps its value. -/
theorem getBits_putBits_above (n lo w v l m : Nat) (h : lo + w ≤ l) :
    getBits (putBits n lo w v) l m = getBits n l m := by
  obtain ⟨d, rfl⟩ := Nat.exists_eq_add_of_le h
  unfold getBits
  congr 1
  have h1 : 2 ^ (lo + w + d) = 2 ^ lo * (2 ^ w * 2 ^ d) := by rw [Nat.pow_add, Nat.pow_add]; ring
  rw [putBits_eq, h1, ← Nat.div_div_eq_div_mul, ← Nat.div_div_eq_div_mul, ← Nat.div_div_eq_div_mul (m := n),
    ← Nat.div_div_eq_div_mul, Nat.add_mul_div_left _ _ (Nat.two_pow_pos lo),
    Nat.div_eq_of_lt (Nat.mod_lt n (Nat.two_pow_pos lo)), Nat.zero_add, Nat.add_mul_div_left _ _ (Nat.two_pow_pos w),
    Nat.div_eq_of_lt (Nat.mod_lt v (Nat.two_pow_pos w)), Nat.zero_add, Nat.pow_add, ← Nat.div_div_eq_div_mul]

/-- A number with a field set stays within a width that holds both. -/
theorem putBits_lt {n lo w v k : Nat} (hn : n < 2 ^ k) (h : lo + w ≤ k) : putBits n lo w v < 2 ^ k := by
  obtain ⟨d, rfl⟩ := Nat.exists_eq_add_of_le h
  have h3 : n / 2 ^ (lo + w) < 2 ^ d := by
    rw [Nat.div_lt_iff_lt_mul (Nat.two_pow_pos _), ← Nat.pow_add]
    simpa [Nat.add_comm] using hn
  have e : 2 ^ (lo + w + d) = 2 ^ lo * (2 ^ w * 2 ^ d) := by rw [Nat.pow_add, Nat.pow_add]; ring
  rw [putBits_eq, e]
  exact digit_lt (Nat.mod_lt _ (Nat.two_pow_pos lo)) (digit_lt (Nat.mod_lt _ (Nat.two_pow_pos w)) h3)

end Sys2Proof.Machine
end

