-- ==== Sys2Proof/Laws/Exec.lean ====
section
/-! SUPPORT. What exec is for each command: the one definition that gives its meaning. -/

namespace Sys2Proof.Machine

open Sys2Proof

@[simp] theorem exec_controlSpaceWrite (via : Via) (off : BitVec 26) (size : Nat) (v : Word) (s : State) :
    exec (.controlSpaceWrite via off size v) s = execControlSpaceWrite via off size v s := rfl
@[simp] theorem exec_clearingRead (via : Via) (off : BitVec 26) (size : Nat) (s : State) :
    exec (.clearingRead via off size) s = execClearingRead via off size s := rfl
@[simp] theorem exec_tableWordStage (via : Via) (x : Wide) (v : Word) (s : State) :
    exec (.tableWordStage via x v) s = execTableWordStage via x v s := rfl
@[simp] theorem exec_routeEntryCommit (via : Via) (f : BitVec 16) (v : Word) (s : State) :
    exec (.routeEntryCommit via f v) s = execRouteEntryCommit via f v s := rfl
@[simp] theorem exec_groupEntryCommit (via : Via) (g : BitVec 12) (v : Word) (s : State) :
    exec (.groupEntryCommit via g v) s = execGroupEntryCommit via g v s := rfl
@[simp] theorem exec_planCommit (via : Via) (p : BitVec 4) (v : Word) (s : State) :
    exec (.planCommit via p v) s = execPlanCommit via p v s := rfl
@[simp] theorem exec_tickBoundary (m : Measured) (s : State) : exec (.tickBoundary m) s = execTickBoundary m s := rfl
@[simp] theorem exec_refInputLoss (inp : Bool) (e1 e2 : Nat) (s : State) :
    exec (.refInputLoss inp e1 e2) s = execRefInputLoss inp e1 e2 s := rfl
@[simp] theorem exec_refInputValid (inp : Bool) (epochs : Nat) (s : State) :
    exec (.refInputValid inp epochs) s = execRefInputValid inp epochs s := rfl
@[simp] theorem exec_refRevert (s : State) : exec (.refRevert) s = execRefRevert s := rfl
@[simp] theorem exec_timeExchange (c : Channel) (phase : BitVec 8) (s : State) :
    exec (.timeExchange c phase) s = execTimeExchange c phase s := rfl
@[simp] theorem exec_timeBlock (c : Channel) (b : TimeBlock) (rx : BitVec 8) (wait : BitVec 16) (s : State) :
    exec (.timeBlock c b rx wait) s = execTimeBlock c b rx wait s := rfl
@[simp] theorem exec_holdoverExpire (s : State) : exec (.holdoverExpire) s = execHoldoverExpire s := rfl
@[simp] theorem exec_epochInPulse (phase : BitVec 8) (s : State) :
    exec (.epochInPulse phase) s = execEpochInPulse phase s := rfl
@[simp] theorem exec_electionSettle (s : State) : exec (.electionSettle) s = execElectionSettle s := rfl
@[simp] theorem exec_threadStart (via : Via) (page : Option PartNo) (t : ThreadNo) (s : State) :
    exec (.threadStart via page t) s = execThreadStart via page t s := rfl
@[simp] theorem exec_threadHalt (via : Via) (page : Option PartNo) (t : ThreadNo) (s : State) :
    exec (.threadHalt via page t) s = execThreadHalt via page t s := rfl
@[simp] theorem exec_threadResume (via : Via) (page : Option PartNo) (t : ThreadNo) (s : State) :
    exec (.threadResume via page t) s = execThreadResume via page t s := rfl
@[simp] theorem exec_threadSkip (via : Via) (page : Option PartNo) (t : ThreadNo) (s : State) :
    exec (.threadSkip via page t) s = execThreadSkip via page t s := rfl
@[simp] theorem exec_threadReset (via : Via) (page : Option PartNo) (t : ThreadNo) (s : State) :
    exec (.threadReset via page t) s = execThreadReset via page t s := rfl
@[simp] theorem exec_icacheInvalidate (via : Via) (p : PartNo) (s : State) :
    exec (.icacheInvalidate via p) s = execIcacheInvalidate via p s := rfl
@[simp] theorem exec_icacheFill (t : ThreadNo) (s : State) : exec (.icacheFill t) s = execIcacheFill t s := rfl
@[simp] theorem exec_watchEnable (via : Via) (w : Fin 4096) (mode : Bool) (part : PartNo) (s : State) :
    exec (.watchEnable via w mode part) s = execWatchEnable via w mode part s := rfl
@[simp] theorem exec_watchDisable (via : Via) (w : Fin 4096) (mode : Bool) (part : PartNo) (s : State) :
    exec (.watchDisable via w mode part) s = execWatchDisable via w mode part s := rfl
@[simp] theorem exec_watchArmed (w : Fin 4096) (host : Option Line) (s : State) :
    exec (.watchArmed w host) s = execWatchArmed w host s := rfl
@[simp] theorem exec_watchEvaluate (w : Fin 4096) (s : State) : exec (.watchEvaluate w) s = execWatchEvaluate w s := rfl
@[simp] theorem exec_watchDeadline (w : Fin 4096) (s : State) : exec (.watchDeadline w) s = execWatchDeadline w s := rfl
@[simp] theorem exec_snpInv (h : PortNo) (line : BitVec 46) (s : State) :
    exec (.snpInv h line) s = execSnpInv h line s := rfl
@[simp] theorem exec_snpData (h : PortNo) (line : BitVec 46) (s : State) :
    exec (.snpData h line) s = execSnpData h line s := rfl
@[simp] theorem exec_snpCur (h : PortNo) (line : BitVec 46) (s : State) :
    exec (.snpCur h line) s = execSnpCur h line s := rfl
@[simp] theorem exec_watchRereadData (w : Fin 4096) (host : Option Line) (s : State) :
    exec (.watchRereadData w host) s = execWatchRereadData w host s := rfl
@[simp] theorem exec_nop (t : ThreadNo) (f : Insn) (s : State) : exec (.nop t f) s = execNop t f s := rfl
@[simp] theorem exec_br (t : ThreadNo) (f : Insn) (s : State) : exec (.br t f) s = execBr t f s := rfl
@[simp] theorem exec_jal (t : ThreadNo) (f : Insn) (s : State) : exec (.jal t f) s = execJal t f s := rfl
@[simp] theorem exec_jr (t : ThreadNo) (f : Insn) (s : State) : exec (.jr t f) s = execJr t f s := rfl
@[simp] theorem exec_halt (t : ThreadNo) (f : Insn) (s : State) : exec (.halt t f) s = execHalt t f s := rfl
@[simp] theorem exec_trap (t : ThreadNo) (f : Insn) (s : State) : exec (.trap t f) s = execTrap t f s := rfl
@[simp] theorem exec_tret (t : ThreadNo) (f : Insn) (s : State) : exec (.tret t f) s = execTret t f s := rfl
@[simp] theorem exec_waitT (t : ThreadNo) (f : Insn) (s : State) : exec (.waitT t f) s = execWaitT t f s := rfl
@[simp] theorem exec_waitTWake (t : ThreadNo) (s : State) : exec (.waitTWake t) s = execWaitTWake t s := rfl
@[simp] theorem exec_waitW (t : ThreadNo) (f : Insn) (s : State) : exec (.waitW t f) s = execWaitW t f s := rfl
@[simp] theorem exec_csrr (t : ThreadNo) (f : Insn) (s : State) : exec (.csrr t f) s = execCsrr t f s := rfl
@[simp] theorem exec_chk (t : ThreadNo) (f : Insn) (s : State) : exec (.chk t f) s = execChk t f s := rfl
@[simp] theorem exec_add (t : ThreadNo) (f : Insn) (s : State) : exec (.add t f) s = execAdd t f s := rfl
@[simp] theorem exec_sub (t : ThreadNo) (f : Insn) (s : State) : exec (.sub t f) s = execSub t f s := rfl
@[simp] theorem exec_and (t : ThreadNo) (f : Insn) (s : State) : exec (.and t f) s = execAnd t f s := rfl
@[simp] theorem exec_or (t : ThreadNo) (f : Insn) (s : State) : exec (.or t f) s = execOr t f s := rfl
@[simp] theorem exec_xor (t : ThreadNo) (f : Insn) (s : State) : exec (.xor t f) s = execXor t f s := rfl
@[simp] theorem exec_shl (t : ThreadNo) (f : Insn) (s : State) : exec (.shl t f) s = execShl t f s := rfl
@[simp] theorem exec_shr (t : ThreadNo) (f : Insn) (s : State) : exec (.shr t f) s = execShr t f s := rfl
@[simp] theorem exec_sar (t : ThreadNo) (f : Insn) (s : State) : exec (.sar t f) s = execSar t f s := rfl
@[simp] theorem exec_mul (t : ThreadNo) (f : Insn) (s : State) : exec (.mul t f) s = execMul t f s := rfl
@[simp] theorem exec_mulhu (t : ThreadNo) (f : Insn) (s : State) : exec (.mulhu t f) s = execMulhu t f s := rfl
@[simp] theorem exec_mins (t : ThreadNo) (f : Insn) (s : State) : exec (.mins t f) s = execMins t f s := rfl
@[simp] theorem exec_maxs (t : ThreadNo) (f : Insn) (s : State) : exec (.maxs t f) s = execMaxs t f s := rfl
@[simp] theorem exec_minu (t : ThreadNo) (f : Insn) (s : State) : exec (.minu t f) s = execMinu t f s := rfl
@[simp] theorem exec_maxu (t : ThreadNo) (f : Insn) (s : State) : exec (.maxu t f) s = execMaxu t f s := rfl
@[simp] theorem exec_sel (t : ThreadNo) (f : Insn) (s : State) : exec (.sel t f) s = execSel t f s := rfl
@[simp] theorem exec_cmp (t : ThreadNo) (f : Insn) (s : State) : exec (.cmp t f) s = execCmp t f s := rfl
@[simp] theorem exec_addi (t : ThreadNo) (f : Insn) (s : State) : exec (.addi t f) s = execAddi t f s := rfl
@[simp] theorem exec_andi (t : ThreadNo) (f : Insn) (s : State) : exec (.andi t f) s = execAndi t f s := rfl
@[simp] theorem exec_ori (t : ThreadNo) (f : Insn) (s : State) : exec (.ori t f) s = execOri t f s := rfl
@[simp] theorem exec_xori (t : ThreadNo) (f : Insn) (s : State) : exec (.xori t f) s = execXori t f s := rfl
@[simp] theorem exec_shli (t : ThreadNo) (f : Insn) (s : State) : exec (.shli t f) s = execShli t f s := rfl
@[simp] theorem exec_shri (t : ThreadNo) (f : Insn) (s : State) : exec (.shri t f) s = execShri t f s := rfl
@[simp] theorem exec_sari (t : ThreadNo) (f : Insn) (s : State) : exec (.sari t f) s = execSari t f s := rfl
@[simp] theorem exec_movi (t : ThreadNo) (f : Insn) (s : State) : exec (.movi t f) s = execMovi t f s := rfl
@[simp] theorem exec_movhi (t : ThreadNo) (f : Insn) (s : State) : exec (.movhi t f) s = execMovhi t f s := rfl
@[simp] theorem exec_cmpi (t : ThreadNo) (f : Insn) (s : State) : exec (.cmpi t f) s = execCmpi t f s := rfl
@[simp] theorem exec_plog (t : ThreadNo) (f : Insn) (s : State) : exec (.plog t f) s = execPlog t f s := rfl
@[simp] theorem exec_crc32c (t : ThreadNo) (f : Insn) (s : State) : exec (.crc32c t f) s = execCrc32c t f s := rfl
@[simp] theorem exec_wbuf (t : ThreadNo) (f : Insn) (s : State) : exec (.wbuf t f) s = execWbuf t f s := rfl
@[simp] theorem exec_wbufL (t : ThreadNo) (f : Insn) (s : State) : exec (.wbufL t f) s = execWbufL t f s := rfl
@[simp] theorem exec_ld (t : ThreadNo) (f : Insn) (s : State) : exec (.ld t f) s = execLd t f s := rfl
@[simp] theorem exec_st (t : ThreadNo) (f : Insn) (s : State) : exec (.st t f) s = execSt t f s := rfl
@[simp] theorem exec_ldL (t : ThreadNo) (f : Insn) (s : State) : exec (.ldL t f) s = execLdL t f s := rfl
@[simp] theorem exec_stL (t : ThreadNo) (f : Insn) (s : State) : exec (.stL t f) s = execStL t f s := rfl
@[simp] theorem exec_atom (t : ThreadNo) (f : Insn) (s : State) : exec (.atom t f) s = execAtom t f s := rfl
@[simp] theorem exec_red (t : ThreadNo) (f : Insn) (s : State) : exec (.red t f) s = execRed t f s := rfl
@[simp] theorem exec_resolve (t : ThreadNo) (f : Insn) (s : State) : exec (.resolve t f) s = execResolve t f s := rfl
@[simp] theorem exec_fence (t : ThreadNo) (f : Insn) (s : State) : exec (.fence t f) s = execFence t f s := rfl
@[simp] theorem exec_invl (t : ThreadNo) (f : Insn) (s : State) : exec (.invl t f) s = execInvl t f s := rfl
@[simp] theorem exec_ownAcq (t : ThreadNo) (f : Insn) (s : State) : exec (.ownAcq t f) s = execOwnAcq t f s := rfl
@[simp] theorem exec_ownRel (t : ThreadNo) (f : Insn) (s : State) : exec (.ownRel t f) s = execOwnRel t f s := rfl
@[simp] theorem exec_skdQ (t : ThreadNo) (f : Insn) (s : State) : exec (.skdQ t f) s = execSkdQ t f s := rfl
@[simp] theorem exec_krn (t : ThreadNo) (f : Insn) (s : State) : exec (.krn t f) s = execKrn t f s := rfl
@[simp] theorem exec_coll (t : ThreadNo) (f : Insn) (s : State) : exec (.coll t f) s = execColl t f s := rfl
@[simp] theorem exec_collBatch (t : ThreadNo) (f : Insn) (s : State) : exec (.collBatch t f) s = execCollBatch t f s := rfl
@[simp] theorem exec_rsv (t : ThreadNo) (f : Insn) (s : State) : exec (.rsv t f) s = execRsv t f s := rfl
@[simp] theorem exec_hpoll (t : ThreadNo) (f : Insn) (s : State) : exec (.hpoll t f) s = execHpoll t f s := rfl
@[simp] theorem exec_hwait (t : ThreadNo) (f : Insn) (s : State) : exec (.hwait t f) s = execHwait t f s := rfl
@[simp] theorem exec_lpSet (t : ThreadNo) (f : Insn) (s : State) : exec (.lpSet t f) s = execLpSet t f s := rfl
@[simp] theorem exec_engineDescriptorReadDone (op : Nat) (hs : List HostAnswer) (s : State) :
    exec (.engineDescriptorReadDone op hs) s = execEngineDescriptorReadDone op hs s := rfl
@[simp] theorem exec_pageWalk (t : ThreadNo) (fva : BitVec 64) (acc : Acc) (s : State) :
    exec (.pageWalk t fva acc) s = execPageWalk t fva acc s := rfl
@[simp] theorem exec_tlbInvalidate (via : Via) (p : PartNo) (scope drain : Bool) (s : State) :
    exec (.tlbInvalidate via p scope drain) s = execTlbInvalidate via p scope drain s := rfl
@[simp] theorem exec_xltRetry (via : Via) (k : SkidNo) (s : State) : exec (.xltRetry via k) s = execXltRetry via k s := rfl
@[simp] theorem exec_xltAbort (via : Via) (k : SkidNo) (s : State) : exec (.xltAbort via k) s = execXltAbort via k s := rfl
@[simp] theorem exec_migHoldExpire (key : Fin 32768) (s : State) :
    exec (.migHoldExpire key) s = execMigHoldExpire key s := rfl
@[simp] theorem exec_sieveRead (via : Via) (s : State) : exec (.sieveRead via) s = execSieveRead via s := rfl
@[simp] theorem exec_sieveWrite (via : Via) (s : State) : exec (.sieveWrite via) s = execSieveWrite via s := rfl
@[simp] theorem exec_sieveAccessDone (s : State) : exec (.sieveAccessDone) s = execSieveAccessDone s := rfl
@[simp] theorem exec_sieveProbe (via : Via) (key : BitVec 47) (s : State) :
    exec (.sieveProbe via key) s = execSieveProbe via key s := rfl
@[simp] theorem exec_sievePartWrite (via : Via) (p : PartNo) (v : Word) (s : State) :
    exec (.sievePartWrite via p v) s = execSievePartWrite via p v s := rfl
@[simp] theorem exec_sieveSweepDone (p : PartNo) (s : State) : exec (.sieveSweepDone p) s = execSieveSweepDone p s := rfl
@[simp] theorem exec_ledgerRead (via : Via) (s : State) : exec (.ledgerRead via) s = execLedgerRead via s := rfl
@[simp] theorem exec_packetReceive (c : Channel) (p : Packet) (hcrc : BitVec 16) (trailer : BitVec 32) (flagged : Bool) (s : State) :
    exec (.packetReceive c p hcrc trailer flagged) s = execPacketReceive c p hcrc trailer flagged s := rfl
@[simp] theorem exec_packetSend (c : Channel) (s : State) : exec (.packetSend c) s = execPacketSend c s := rfl
@[simp] theorem exec_packetAgeExpire (s : State) : exec (.packetAgeExpire) s = execPacketAgeExpire s := rfl
@[simp] theorem exec_pathHoldExpire (s : State) : exec (.pathHoldExpire) s = execPathHoldExpire s := rfl
@[simp] theorem exec_groupHoldExpire (s : State) : exec (.groupHoldExpire) s = execGroupHoldExpire s := rfl
@[simp] theorem exec_channelJoin (c : Channel) (s : State) : exec (.channelJoin c) s = execChannelJoin c s := rfl
@[simp] theorem exec_creditBlock (c : Channel) (ack next : BitVec 12) (freed : BitVec 192) (s : State) :
    exec (.creditBlock c ack next freed) s = execCreditBlock c ack next freed s := rfl
@[simp] theorem exec_nakBlock (c : Channel) (expect : BitVec 12) (reason : BitVec 4) (s : State) :
    exec (.nakBlock c expect reason) s = execNakBlock c expect reason s := rfl
@[simp] theorem exec_replayBlock (c : Channel) (seq : BitVec 12) (s : State) :
    exec (.replayBlock c seq) s = execReplayBlock c seq s := rfl
@[simp] theorem exec_identBlock (c : Channel) (b : IdentBlock) (s : State) :
    exec (.identBlock c b) s = execIdentBlock c b s := rfl
@[simp] theorem exec_leaveBlock (c : Channel) (feid : BitVec 16) (reason : BitVec 4) (tick : BitVec 64) (s : State) :
    exec (.leaveBlock c feid reason tick) s = execLeaveBlock c feid reason tick s := rfl
@[simp] theorem exec_idleBlock (x : RxSymbols) (s : State) : exec (.idleBlock x) s = execIdleBlock x s := rfl
@[simp] theorem exec_eiBlock (c : Channel) (s : State) : exec (.eiBlock c) s = execEiBlock c s := rfl
@[simp] theorem exec_nakRepeat (c : Channel) (s : State) : exec (.nakRepeat c) s = execNakRepeat c s := rfl
@[simp] theorem exec_silentPeerTimeout (c : Channel) (s : State) :
    exec (.silentPeerTimeout c) s = execSilentPeerTimeout c s := rfl
@[simp] theorem exec_readRequest (p : Packet) (e : Ecc) (s : State) :
    exec (.readRequest p e) s = execReadRequest p e s := rfl
@[simp] theorem exec_writeRequest (p : Packet) (s : State) : exec (.writeRequest p) s = execWriteRequest p s := rfl
@[simp] theorem exec_atomRequest (p : Packet) (fail : Bool) (s : State) :
    exec (.atomRequest p fail) s = execAtomRequest p fail s := rfl
@[simp] theorem exec_redRequest (p : Packet) (fail : Bool) (s : State) :
    exec (.redRequest p fail) s = execRedRequest p fail s := rfl
@[simp] theorem exec_breadRequest (p : Packet) (e : Ecc) (s : State) :
    exec (.breadRequest p e) s = execBreadRequest p e s := rfl
@[simp] theorem exec_bwriteRequest (p : Packet) (s : State) : exec (.bwriteRequest p) s = execBwriteRequest p s := rfl
@[simp] theorem exec_invlRequest (p : Packet) (s : State) : exec (.invlRequest p) s = execInvlRequest p s := rfl
@[simp] theorem exec_invRequest (p : Packet) (s : State) : exec (.invRequest p) s = execInvRequest p s := rfl
@[simp] theorem exec_sharerAck (p : Packet) (s : State) : exec (.sharerAck p) s = execSharerAck p s := rfl
@[simp] theorem exec_ownAcqRequest (p : Packet) (s : State) : exec (.ownAcqRequest p) s = execOwnAcqRequest p s := rfl
@[simp] theorem exec_ownRelRequest (p : Packet) (s : State) : exec (.ownRelRequest p) s = execOwnRelRequest p s := rfl
@[simp] theorem exec_wbRequest (p : Packet) (s : State) : exec (.wbRequest p) s = execWbRequest p s := rfl
@[simp] theorem exec_mcopyRequest (p : Packet) (s : State) : exec (.mcopyRequest p) s = execMcopyRequest p s := rfl
@[simp] theorem exec_matomRequest (p : Packet) (s : State) : exec (.matomRequest p) s = execMatomRequest p s := rfl
@[simp] theorem exec_mirrorAck (p : Packet) (s : State) : exec (.mirrorAck p) s = execMirrorAck p s := rfl
@[simp] theorem exec_rsp (p : Packet) (s : State) : exec (.rsp p) s = execRsp p s := rfl
@[simp] theorem exec_rspData (p : Packet) (cacheable : Bool) (s : State) :
    exec (.rspData p cacheable) s = execRspData p cacheable s := rfl
@[simp] theorem exec_rspAtom (p : Packet) (s : State) : exec (.rspAtom p) s = execRspAtom p s := rfl
@[simp] theorem exec_requestTimeout (x : Expiry) (s : State) : exec (.requestTimeout x) s = execRequestTimeout x s := rfl
@[simp] theorem exec_atomicRetransmit (key : Fin 32768) (s : State) :
    exec (.atomicRetransmit key) s = execAtomicRetransmit key s := rfl
@[simp] theorem exec_hostFlushRead (h : PortNo) (s : State) : exec (.hostFlushRead h) s = execHostFlushRead h s := rfl
@[simp] theorem exec_hostFlushCompletion (h : PortNo) (a : HostAnswer) (s : State) :
    exec (.hostFlushCompletion h a) s = execHostFlushCompletion h a s := rfl
@[simp] theorem exec_hostCompletion (h : PortNo) (hpa : Nat) (a : HostAnswer) (s : State) :
    exec (.hostCompletion h hpa a) s = execHostCompletion h hpa a s := rfl
@[simp] theorem exec_hostCompletionTimeout (h : PortNo) (flush : Bool) (hpa : Nat) (s : State) :
    exec (.hostCompletionTimeout h flush hpa) s = execHostCompletionTimeout h flush hpa s := rfl
@[simp] theorem exec_skidderDescriptorStart (k : SkidNo) (s : State) :
    exec (.skidderDescriptorStart k) s = execSkidderDescriptorStart k s := rfl
@[simp] theorem exec_skidderLineIssue (k : SkidNo) (s : State) :
    exec (.skidderLineIssue k) s = execSkidderLineIssue k s := rfl
@[simp] theorem exec_blockTransferComplete (k : SkidNo) (s : State) :
    exec (.blockTransferComplete k) s = execBlockTransferComplete k s := rfl
@[simp] theorem exec_kernelStart (k : Fin 16) (s : State) : exec (.kernelStart k) s = execKernelStart k s := rfl
@[simp] theorem exec_workItemDone (k : Fin 16) (run : ItemRun) (hs : List HostAnswer) (s : State) :
    exec (.workItemDone k run hs) s = execWorkItemDone k run hs s := rfl
@[simp] theorem exec_kernelComplete (pos : Option (Fin 16)) (hs : List HostAnswer) (s : State) :
    exec (.kernelComplete pos hs) s = execKernelComplete pos hs s := rfl
@[simp] theorem exec_cellRetireWrite (via : Via) (a : Fin 17) (v : Word) (s : State) :
    exec (.cellRetireWrite via a v) s = execCellRetireWrite via a v s := rfl
@[simp] theorem exec_spareReplaceGo (via : Via) (k : Fin 16) (s : State) :
    exec (.spareReplaceGo via k) s = execSpareReplaceGo via k s := rfl
@[simp] theorem exec_spareReplacementDone (s : State) : exec (.spareReplacementDone) s = execSpareReplacementDone s := rfl
@[simp] theorem exec_kernelSlotMove (k : Fin 16) (s : State) : exec (.kernelSlotMove k) s = execKernelSlotMove k s := rfl
@[simp] theorem exec_ladleQuantum (k : Fin 16) (s : State) : exec (.ladleQuantum k) s = execLadleQuantum k s := rfl
@[simp] theorem exec_reservationGrant (p : PartNo) (cid : BitVec 32) (s : State) :
    exec (.reservationGrant p cid) s = execReservationGrant p cid s := rfl
@[simp] theorem exec_reservationWithdraw (p : PartNo) (cid : BitVec 32) (s : State) :
    exec (.reservationWithdraw p cid) s = execReservationWithdraw p cid s := rfl
@[simp] theorem exec_rsvExpire (p : PartNo) (cid : BitVec 32) (s : State) :
    exec (.rsvExpire p cid) s = execRsvExpire p cid s := rfl
@[simp] theorem exec_joinMessage (p : Packet) (s : State) : exec (.joinMessage p) s = execJoinMessage p s := rfl
@[simp] theorem exec_joinTimeout (p : PartNo) (cid : BitVec 32) (s : State) :
    exec (.joinTimeout p cid) s = execJoinTimeout p cid s := rfl
@[simp] theorem exec_readyMessage (p : Packet) (s : State) : exec (.readyMessage p) s = execReadyMessage p s := rfl
@[simp] theorem exec_agreedStepStart (p : PartNo) (cid : BitVec 32) (x : Supply) (s : State) :
    exec (.agreedStepStart p cid x) s = execAgreedStepStart p cid x s := rfl
@[simp] theorem exec_phaseStart (p : PartNo) (cid : BitVec 32) (x : Supply) (s : State) :
    exec (.phaseStart p cid x) s = execPhaseStart p cid x s := rfl
@[simp] theorem exec_collPacket (p : Packet) (run : ItemRun) (hs : List HostAnswer) (s : State) :
    exec (.collPacket p run hs) s = execCollPacket p run hs s := rfl
@[simp] theorem exec_xchgPacket (p : Packet) (hs : List HostAnswer) (s : State) :
    exec (.xchgPacket p hs) s = execXchgPacket p hs s := rfl
@[simp] theorem exec_xdoneMessage (p : Packet) (s : State) : exec (.xdoneMessage p) s = execXdoneMessage p s := rfl
@[simp] theorem exec_abortMessage (p : Packet) (s : State) : exec (.abortMessage p) s = execAbortMessage p s := rfl
@[simp] theorem exec_collectiveStall (p : PartNo) (cid : BitVec 32) (s : State) :
    exec (.collectiveStall p cid) s = execCollectiveStall p cid s := rfl
@[simp] theorem exec_abortComplete (p : PartNo) (cid : BitVec 32) (s : State) :
    exec (.abortComplete p cid) s = execAbortComplete p cid s := rfl
@[simp] theorem exec_collectiveComplete (p : PartNo) (cid : BitVec 32) (hs : List HostAnswer) (s : State) :
    exec (.collectiveComplete p cid hs) s = execCollectiveComplete p cid hs s := rfl
@[simp] theorem exec_abortRecordExpire (p : PartNo) (cid : BitVec 32) (s : State) :
    exec (.abortRecordExpire p cid) s = execAbortRecordExpire p cid s := rfl
@[simp] theorem exec_xchgFamilyChange (s : State) : exec (.xchgFamilyChange) s = execXchgFamilyChange s := rfl
@[simp] theorem exec_planSwitchRequest (via : Via) (plan : BitVec 4) (tick : BitVec 56) (s : State) :
    exec (.planSwitchRequest via plan tick) s = execPlanSwitchRequest via plan tick s := rfl
@[simp] theorem exec_planSwitchStart (s : State) : exec (.planSwitchStart) s = execPlanSwitchStart s := rfl
@[simp] theorem exec_switchRetune (s : State) : exec (.switchRetune) s = execSwitchRetune s := rfl
@[simp] theorem exec_switchFineSearch (steps : List (Fin 512 × Fin 9)) (s : State) :
    exec (.switchFineSearch steps) s = execSwitchFineSearch steps s := rfl
@[simp] theorem exec_switchAcquire (s : State) : exec (.switchAcquire) s = execSwitchAcquire s := rfl
@[simp] theorem exec_switchComplete (s : State) : exec (.switchComplete) s = execSwitchComplete s := rfl
@[simp] theorem exec_ringLockWindow (c : LaneNo) (drop : Bool) (err power : BitVec 16) (s : State) :
    exec (.ringLockWindow c drop err power) s = execRingLockWindow c drop err power s := rfl
@[simp] theorem exec_pilotCheck (c : LaneNo) (txBest : BitVec 5) (txLead : BitVec 16) (rxBest : BitVec 5) (rxLead : BitVec 16) (s : State) :
    exec (.pilotCheck c txBest txLead rxBest rxLead) s = execPilotCheck c txBest txLead rxBest rxLead s := rfl
@[simp] theorem exec_ringSweepDone (c : LaneNo) (drop : Bool) (codes : BitVec 512) (found : Bool) (fine : Fin 9) (s : State) :
    exec (.ringSweepDone c drop codes found fine) s = execRingSweepDone c drop codes found fine s := rfl
@[simp] theorem exec_verifyTimeout (c : LaneNo) (s : State) : exec (.verifyTimeout c) s = execVerifyTimeout c s := rfl
@[simp] theorem exec_opticalLos (c : LaneNo) (p1 p2 : BitVec 16) (s : State) :
    exec (.opticalLos c p1 p2) s = execOpticalLos c p1 p2 s := rfl
@[simp] theorem exec_lightReturn (c : LaneNo) (low : BitVec 16) (s : State) :
    exec (.lightReturn c low) s = execLightReturn c low s := rfl
@[simp] theorem exec_laserPowerWindow (b : Fin 4) (k : Fin 5) (power : BitVec 16) (s : State) :
    exec (.laserPowerWindow b k power) s = execLaserPowerWindow b k power s := rfl
@[simp] theorem exec_spareSourceReady (b : Fin 4) (s : State) :
    exec (.spareSourceReady b) s = execSpareSourceReady b s := rfl
@[simp] theorem exec_spareWarmTimeout (b : Fin 4) (s : State) :
    exec (.spareWarmTimeout b) s = execSpareWarmTimeout b s := rfl
@[simp] theorem exec_darkNotice (p : Packet) (s : State) : exec (.darkNotice p) s = execDarkNotice p s := rfl
@[simp] theorem exec_darkAck (p : Packet) (s : State) : exec (.darkAck p) s = execDarkAck p s := rfl
@[simp] theorem exec_darkAckDeadline (s : State) : exec (.darkAckDeadline) s = execDarkAckDeadline s := rfl
@[simp] theorem exec_darkWindow (s : State) : exec (.darkWindow) s = execDarkWindow s := rfl
@[simp] theorem exec_darkWindowEnd (s : State) : exec (.darkWindowEnd) s = execDarkWindowEnd s := rfl
@[simp] theorem exec_marginTestGo (via : Via) (engines lanes start : BitVec 16) (s : State) :
    exec (.marginTestGo via engines lanes start) s = execMarginTestGo via engines lanes start s := rfl
@[simp] theorem exec_marginTestStart (s : State) : exec (.marginTestStart) s = execMarginTestStart s := rfl
@[simp] theorem exec_marginTestDone (c : LaneNo) (m : Option (BitVec 16 × BitVec 8 × BitVec 16)) (s : State) :
    exec (.marginTestDone c m) s = execMarginTestDone c m s := rfl
@[simp] theorem exec_marginCommit (via : Via) (s : State) : exec (.marginCommit via) s = execMarginCommit via s := rfl
@[simp] theorem exec_laneRelock (via : Via) (c : LaneNo) (s : State) :
    exec (.laneRelock via c) s = execLaneRelock via c s := rfl
@[simp] theorem exec_laneFail (via : Via) (c : LaneNo) (s : State) : exec (.laneFail via c) s = execLaneFail via c s := rfl
@[simp] theorem exec_optLaneTestWrite (via : Via) (c : LaneNo) (v : Word) (s : State) :
    exec (.optLaneTestWrite via c v) s = execOptLaneTestWrite via c v s := rfl
@[simp] theorem exec_optCntSrcWrite (via : Via) (k : Fin 4) (v : Word) (s : State) :
    exec (.optCntSrcWrite via k v) s = execOptCntSrcWrite via k v s := rfl
@[simp] theorem exec_optInjectGo (via : Via) (c : LaneNo) (kind : BitVec 2) (len : BitVec 8) (count interval : BitVec 16) (s : State) :
    exec (.optInjectGo via c kind len count interval) s = execOptInjectGo via c kind len count interval s := rfl
@[simp] theorem exec_injectRepeat (key : Fin 304) (s : State) : exec (.injectRepeat key) s = execInjectRepeat key s := rfl
@[simp] theorem exec_laneLock (key : LaneKey) (s : State) : exec (.laneLock key) s = execLaneLock key s := rfl
@[simp] theorem exec_laneLockLoss (key : LaneKey) (s : State) : exec (.laneLockLoss key) s = execLaneLockLoss key s := rfl
@[simp] theorem exec_electricalLos (l : ElkLaneNo) (s : State) : exec (.electricalLos l) s = execElectricalLos l s := rfl
@[simp] theorem exec_trainingFrame (key : LaneKey) (word : BitVec 32) (inverted ready : Bool) (s : State) :
    exec (.trainingFrame key word inverted ready) s = execTrainingFrame key word inverted ready s := rfl
@[simp] theorem exec_trainingStageLimit (key : LaneKey) (s : State) :
    exec (.trainingStageLimit key) s = execTrainingStageLimit key s := rfl
@[simp] theorem exec_portTrainingDone (m : ElkPortNo) (s : State) :
    exec (.portTrainingDone m) s = execPortTrainingDone m s := rfl
@[simp] theorem exec_trainingRetry (m : ElkPortNo) (s : State) : exec (.trainingRetry m) s = execTrainingRetry m s := rfl
@[simp] theorem exec_idleEnter (m : ElkPortNo) (s : State) : exec (.idleEnter m) s = execIdleEnter m s := rfl
@[simp] theorem exec_idleExit (m : ElkPortNo) (s : State) : exec (.idleExit m) s = execIdleExit m s := rfl
@[simp] theorem exec_skoisSleep (m : ElkPortNo) (s : State) : exec (.skoisSleep m) s = execSkoisSleep m s := rfl
@[simp] theorem exec_portRetrain (via : Via) (m : ElkPortNo) (s : State) :
    exec (.portRetrain via m) s = execPortRetrain via m s := rfl
@[simp] theorem exec_laneRejoin (m : ElkPortNo) (s : State) : exec (.laneRejoin m) s = execLaneRejoin m s := rfl
@[simp] theorem exec_elkLaneTestWrite (via : Via) (l : ElkLaneNo) (v : Word) (s : State) :
    exec (.elkLaneTestWrite via l v) s = execElkLaneTestWrite via l v s := rfl
@[simp] theorem exec_elkCntSrcWrite (via : Via) (v : Word) (s : State) :
    exec (.elkCntSrcWrite via v) s = execElkCntSrcWrite via v s := rfl
@[simp] theorem exec_elkInjectGo (via : Via) (l : ElkLaneNo) (kind : BitVec 2) (len : BitVec 8) (count interval : BitVec 16) (s : State) :
    exec (.elkInjectGo via l kind len count interval) s = execElkInjectGo via l kind len count interval s := rfl
@[simp] theorem exec_mmWindowRead (h : PortNo) (hpa : BitVec 64) (e : Ecc) (s : State) :
    exec (.mmWindowRead h hpa e) s = execMmWindowRead h hpa e s := rfl
@[simp] theorem exec_mmWindowWrite (h : PortNo) (hpa : BitVec 64) (first : Fin 64) (count : Fin 65) (data : Line) (pz : Bool) (s : State) :
    exec (.mmWindowWrite h hpa first count data pz) s = execMmWindowWrite h hpa first count data pz s := rfl
@[simp] theorem exec_fwWindowRead (h : PortNo) (hpa : BitVec 64) (s : State) :
    exec (.fwWindowRead h hpa) s = execFwWindowRead h hpa s := rfl
@[simp] theorem exec_fwWindowWrite (h : PortNo) (hpa : BitVec 64) (first : Fin 64) (count : Fin 65) (data : Line) (pz : Bool) (s : State) :
    exec (.fwWindowWrite h hpa first count data pz) s = execFwWindowWrite h hpa first count data pz s := rfl
@[simp] theorem exec_hostFence (via : Via) (h : PortNo) (token : BitVec 32) (go : Bool) (s : State) :
    exec (.hostFence via h token go) s = execHostFence via h token go s := rfl
@[simp] theorem exec_hostPortReset (h : PortNo) (k : PortResetKind) (s : State) :
    exec (.hostPortReset h k) s = execHostPortReset h k s := rfl
@[simp] theorem exec_hostLinkTrain (h : PortNo) (rate width : Fin 3) (s : State) :
    exec (.hostLinkTrain h rate width) s = execHostLinkTrain h rate width s := rfl
@[simp] theorem exec_configRequest (h : PortNo) (c : ConfigOp) (s : State) :
    exec (.configRequest h c) s = execConfigRequest h c s := rfl
@[simp] theorem exec_getVersion (h : PortNo) (s : State) : exec (.getVersion h) s = execGetVersion h s := rfl
@[simp] theorem exec_getCapabilities (h : PortNo) (s : State) : exec (.getCapabilities h) s = execGetCapabilities h s := rfl
@[simp] theorem exec_negotiateAlgorithms (h : PortNo) (sign kem hash aead : Bool) (s : State) :
    exec (.negotiateAlgorithms h sign kem hash aead) s = execNegotiateAlgorithms h sign kem hash aead s := rfl
@[simp] theorem exec_getDigests (h : PortNo) (s : State) : exec (.getDigests h) s = execGetDigests h s := rfl
@[simp] theorem exec_getCertificate (h : PortNo) (slot : Fin 16) (off len : BitVec 16) (s : State) :
    exec (.getCertificate h slot off len) s = execGetCertificate h slot off len s := rfl
@[simp] theorem exec_challenge (h : PortNo) (slot : Fin 16) (s : State) :
    exec (.challenge h slot) s = execChallenge h slot s := rfl
@[simp] theorem exec_getMeasurements (h : PortNo) (index : BitVec 8) (sign : Bool) (s : State) :
    exec (.getMeasurements h index sign) s = execGetMeasurements h index sign s := rfl
@[simp] theorem exec_keyExchange (h : PortNo) (mauth psk : Bool) (s : State) :
    exec (.keyExchange h mauth psk) s = execKeyExchange h mauth psk s := rfl
@[simp] theorem exec_finish (h : PortNo) (s : State) : exec (.finish h) s = execFinish h s := rfl
@[simp] theorem exec_heartbeat (h : PortNo) (s : State) : exec (.heartbeat h) s = execHeartbeat h s := rfl
@[simp] theorem exec_endSession (h : PortNo) (s : State) : exec (.endSession h) s = execEndSession h s := rfl
@[simp] theorem exec_chunkSend (h : PortNo) (seq : BitVec 16) (whole : Option SpdmReq) (s : State) :
    exec (.chunkSend h seq whole) s = execChunkSend h seq whole s := rfl
@[simp] theorem exec_chunkGet (h : PortNo) (seq : BitVec 16) (s : State) :
    exec (.chunkGet h seq) s = execChunkGet h seq s := rfl
@[simp] theorem exec_vendorDefinedRequest (h : PortNo) (standard vendor : BitVec 16) (code part : BitVec 8) (nonce : BitVec 256) (s : State) :
    exec (.vendorDefinedRequest h standard vendor code part nonce) s = execVendorDefinedRequest h standard vendor code part nonce s := rfl
@[simp] theorem exec_partEnable (via : Via) (p : PartNo) (s : State) :
    exec (.partEnable via p) s = execPartEnable via p s := rfl
@[simp] theorem exec_partSeal (via : Via) (p : PartNo) (s : State) : exec (.partSeal via p) s = execPartSeal via p s := rfl
@[simp] theorem exec_sealComplete (p : PartNo) (s : State) : exec (.sealComplete p) s = execSealComplete p s := rfl
@[simp] theorem exec_partReset (via : Via) (p : PartNo) (tick : BitVec 54) (s : State) :
    exec (.partReset via p tick) s = execPartReset via p tick s := rfl
@[simp] theorem exec_partDisable (via : Via) (p : PartNo) (tick : BitVec 54) (s : State) :
    exec (.partDisable via p tick) s = execPartDisable via p tick s := rfl
@[simp] theorem exec_partitionReset (p : PartNo) (s : State) : exec (.partitionReset p) s = execPartitionReset p s := rfl
@[simp] theorem exec_partitionResetDone (p : PartNo) (s : State) :
    exec (.partitionResetDone p) s = execPartitionResetDone p s := rfl
@[simp] theorem exec_rangeAdd (via : Via) (j : Fin 256) (secret : Bool) (p : PartNo) (base : BitVec 28) (size : BitVec 16) (s : State) :
    exec (.rangeAdd via j secret p base size) s = execRangeAdd via j secret p base size s := rfl
@[simp] theorem exec_rangeRemove (via : Via) (j : Fin 256) (s : State) :
    exec (.rangeRemove via j) s = execRangeRemove via j s := rfl
@[simp] theorem exec_scrubDone (j : Fin 256) (s : State) : exec (.scrubDone j) s = execScrubDone j s := rfl
@[simp] theorem exec_keyUnwrap (via : Via) (p : PartNo) (slot : Fin 16) (src : BitVec 46) (s : State) :
    exec (.keyUnwrap via p slot src) s = execKeyUnwrap via p slot src s := rfl
@[simp] theorem exec_unwrapDone (s : State) : exec (.unwrapDone) s = execUnwrapDone s := rfl
@[simp] theorem exec_keyClear (via : Via) (p : PartNo) (slot : Fin 16) (s : State) :
    exec (.keyClear via p slot) s = execKeyClear via p slot s := rfl
@[simp] theorem exec_quoteGo (via : Via) (p : PartNo) (dst : BitVec 46) (s : State) :
    exec (.quoteGo via p dst) s = execQuoteGo via p dst s := rfl
@[simp] theorem exec_quoteDone (s : State) : exec (.quoteDone) s = execQuoteDone s := rfl
@[simp] theorem exec_loadGo (via : Via) (range : Fin 256) (slot : Fin 16) (first count token : BitVec 16) (s : State) :
    exec (.loadGo via range slot first count token) s = execLoadGo via range slot first count token s := rfl
@[simp] theorem exec_chunkDone (e : Fin 4) (s : State) : exec (.chunkDone e) s = execChunkDone e s := rfl
@[simp] theorem exec_debugOpen (via : Via) (s : State) : exec (.debugOpen via) s = execDebugOpen via s := rfl
@[simp] theorem exec_debugClose (via : Via) (s : State) : exec (.debugClose via) s = execDebugClose via s := rfl
@[simp] theorem exec_debugEpochWriteDone (ok : Bool) (s : State) :
    exec (.debugEpochWriteDone ok) s = execDebugEpochWriteDone ok s := rfl
@[simp] theorem exec_patrolScrub (e : Ecc) (s : State) : exec (.patrolScrub e) s = execPatrolScrub e s := rfl
@[simp] theorem exec_sramUncorrectable (x : Storage) (s : State) :
    exec (.sramUncorrectable x) s = execSramUncorrectable x s := rfl
@[simp] theorem exec_ledgerSetLostExpire (n : Fin 1048576) (s : State) :
    exec (.ledgerSetLostExpire n) s = execLedgerSetLostExpire n s := rfl
@[simp] theorem exec_iddaumLockstepRestart (s : State) : exec (.iddaumLockstepRestart) s = execIddaumLockstepRestart s := rfl
@[simp] theorem exec_trayPresentDeassert (s : State) : exec (.trayPresentDeassert) s = execTrayPresentDeassert s := rfl
@[simp] theorem exec_trayDrainEnd (s : State) : exec (.trayDrainEnd) s = execTrayDrainEnd s := rfl
@[simp] theorem exec_logRead (via : Via) (poison : Bool) (j : Fin 262144) (s : State) :
    exec (.logRead via poison j) s = execLogRead via poison j s := rfl
@[simp] theorem exec_inputUndervoltage (s : State) : exec (.inputUndervoltage) s = execInputUndervoltage s := rfl
@[simp] theorem exec_inputPowerLoss (s : State) : exec (.inputPowerLoss) s = execInputPowerLoss s := rfl
@[simp] theorem exec_inputOvervoltage (s : State) : exec (.inputOvervoltage) s = execInputOvervoltage s := rfl
@[simp] theorem exec_emergencyShedStart (s : State) : exec (.emergencyShedStart) s = execEmergencyShedStart s := rfl
@[simp] theorem exec_emergencyShedEnd (s : State) : exec (.emergencyShedEnd) s = execEmergencyShedEnd s := rfl
@[simp] theorem exec_temperatureHot (s : State) : exec (.temperatureHot) s = execTemperatureHot s := rfl
@[simp] theorem exec_temperatureCool (s : State) : exec (.temperatureCool) s = execTemperatureCool s := rfl
@[simp] theorem exec_thermalShutdown (s : State) : exec (.thermalShutdown) s = execThermalShutdown s := rfl
@[simp] theorem exec_i3cEntdaa (a : BitVec 7) (s : State) : exec (.i3cEntdaa a) s = execI3cEntdaa a s := rfl
@[simp] theorem exec_i3cPowerRead (s : State) : exec (.i3cPowerRead) s = execI3cPowerRead s := rfl
@[simp] theorem exec_i3cCapWrite (v : BitVec 16) (s : State) : exec (.i3cCapWrite v) s = execI3cCapWrite v s := rfl
@[simp] theorem exec_mgmtDatagramRead (src seq : BitVec 32) (off : BitVec 64) (s : State) :
    exec (.mgmtDatagramRead src seq off) s = execMgmtDatagramRead src seq off s := rfl
@[simp] theorem exec_mgmtDatagramWrite (src seq : BitVec 32) (off : BitVec 64) (v : Word) (s : State) :
    exec (.mgmtDatagramWrite src seq off v) s = execMgmtDatagramWrite src seq off v s := rfl
@[simp] theorem exec_powerGood (s : State) : exec (.powerGood) s = execPowerGood s := rfl
@[simp] theorem exec_resetNAssert (cycles : Nat) (s : State) :
    exec (.resetNAssert cycles) s = execResetNAssert cycles s := rfl
@[simp] theorem exec_warmReset (via : Via) (key : BitVec 16) (s : State) :
    exec (.warmReset via key) s = execWarmReset via key s := rfl
@[simp] theorem exec_skidderReset (via : Via) (key : BitVec 16) (k : SkidNo) (s : State) :
    exec (.skidderReset via key k) s = execSkidderReset via key k s := rfl
@[simp] theorem exec_settingsProgram (via : Via) (src : BitVec 46) (s : State) :
    exec (.settingsProgram via src) s = execSettingsProgram via src s := rfl
@[simp] theorem exec_programDone (s : State) : exec (.programDone) s = execProgramDone s := rfl
@[simp] theorem exec_fwSwap (via : Via) (s : State) : exec (.fwSwap via) s = execFwSwap via s := rfl
@[simp] theorem exec_fwSwapDone (s : State) : exec (.fwSwapDone) s = execFwSwapDone s := rfl
@[simp] theorem exec_cruiseC0Regulators (s : State) : exec (.cruiseC0Regulators) s = execCruiseC0Regulators s := rfl
@[simp] theorem exec_cruiseC1SettingsLoad (s : State) : exec (.cruiseC1SettingsLoad) s = execCruiseC1SettingsLoad s := rfl
@[simp] theorem exec_cruiseC2Training (s : State) : exec (.cruiseC2Training) s = execCruiseC2Training s := rfl
@[simp] theorem exec_cruiseC3Optics (powers : List (BitVec 16)) (s : State) :
    exec (.cruiseC3Optics powers) s = execCruiseC3Optics powers s := rfl
@[simp] theorem exec_cruiseC4Links (s : State) : exec (.cruiseC4Links) s = execCruiseC4Links s := rfl
@[simp] theorem exec_cruiseC5Election (s : State) : exec (.cruiseC5Election) s = execCruiseC5Election s := rfl
@[simp] theorem exec_cruiseC6MapFlood (s : State) : exec (.cruiseC6MapFlood) s = execCruiseC6MapFlood s := rfl
@[simp] theorem exec_mapMessage (p : Packet) (s : State) : exec (.mapMessage p) s = execMapMessage p s := rfl
@[simp] theorem exec_mapQuiet (s : State) : exec (.mapQuiet) s = execMapQuiet s := rfl
@[simp] theorem exec_cruiseC7Routes (s : State) : exec (.cruiseC7Routes) s = execCruiseC7Routes s := rfl
@[simp] theorem exec_cruiseC8Ready (s : State) : exec (.cruiseC8Ready) s = execCruiseC8Ready s := rfl
@[simp] theorem exec_mgmtReady (p : Packet) (s : State) : exec (.mgmtReady p) s = execMgmtReady p s := rfl
@[simp] theorem exec_cruisePhaseLimit (s : State) : exec (.cruisePhaseLimit) s = execCruisePhaseLimit s := rfl
@[simp] theorem exec_autoroute (s : State) : exec (.autoroute) s = execAutoroute s := rfl
@[simp] theorem exec_counterBlock (s : State) : exec (.counterBlock) s = execCounterBlock s := rfl
@[simp] theorem exec_snapGo (via : Via) (s : State) : exec (.snapGo via) s = execSnapGo via s := rfl
@[simp] theorem exec_traceSplitWrite (via : Via) (units : BitVec 7) (s : State) :
    exec (.traceSplitWrite via units) s = execTraceSplitWrite via units s := rfl
@[simp] theorem exec_traceRun (via : Via) (v : Word) (s : State) : exec (.traceRun via v) s = execTraceRun via v s := rfl
@[simp] theorem exec_traceArmedStart (s : State) : exec (.traceArmedStart) s = execTraceArmedStart s := rfl
@[simp] theorem exec_debugLineRead (via : Via) (s : State) : exec (.debugLineRead via) s = execDebugLineRead via s := rfl
@[simp] theorem exec_debugLineWrite (via : Via) (s : State) : exec (.debugLineWrite via) s = execDebugLineWrite via s := rfl
@[simp] theorem exec_accumulatorRead (via : Via) (k : Fin 16) (c : Fin 64) (a : Fin 8) (j : Fin 6) (s : State) :
    exec (.accumulatorRead via k c a j) s = execAccumulatorRead via k c a j s := rfl
@[simp] theorem exec_extest (s : State) : exec (.extest) s = execExtest s := rfl
@[simp] theorem exec_idcode (s : State) : exec (.idcode) s = execIdcode s := rfl
@[simp] theorem exec_sample (pins : Nat) (s : State) : exec (.sample pins) s = execSample pins s := rfl
@[simp] theorem exec_preload (cells : Nat) (s : State) : exec (.preload cells) s = execPreload cells s := rfl
@[simp] theorem exec_clamp (s : State) : exec (.clamp) s = execClamp s := rfl
@[simp] theorem exec_highz (s : State) : exec (.highz) s = execHighz s := rfl
@[simp] theorem exec_extestPulse (s : State) : exec (.extestPulse) s = execExtestPulse s := rfl
@[simp] theorem exec_extestTrain (s : State) : exec (.extestTrain) s = execExtestTrain s := rfl
@[simp] theorem exec_csrAccess (off : BitVec 23) (write : Bool) (data : Word) (s : State) :
    exec (.csrAccess off write data) s = execCsrAccess off write data s := rfl
@[simp] theorem exec_secDebug (s : State) : exec (.secDebug) s = execSecDebug s := rfl
@[simp] theorem exec_bypass (s : State) : exec (.bypass) s = execBypass s := rfl
@[simp] theorem exec_jtagTapReset (s : State) : exec (.jtagTapReset) s = execJtagTapReset s := rfl
@[simp] theorem exec_patternCheckerLock (key : LaneKey) (s : State) :
    exec (.patternCheckerLock key) s = execPatternCheckerLock key s := rfl
@[simp] theorem exec_patternCheckerRelock (key : LaneKey) (s : State) :
    exec (.patternCheckerRelock key) s = execPatternCheckerRelock key s := rfl
@[simp] theorem exec_badControlBlock (x : RxBlock) (s : State) : exec (.badControlBlock x) s = execBadControlBlock x s := rfl
@[simp] theorem exec_hdmDecoderCommit (h : PortNo) (d : Fin 2) (base size : BitVec 64) (iw ig : BitVec 4) (s : State) :
    exec (.hdmDecoderCommit h d base size iw ig) s = execHdmDecoderCommit h d base size iw ig s := rfl
@[simp] theorem exec_msixVectorUnmask (h : PortNo) (v : Option (Fin 2048)) (s : State) :
    exec (.msixVectorUnmask h v) s = execMsixVectorUnmask h v s := rfl
@[simp] theorem exec_iddaumRestartDone (s : State) : exec (.iddaumRestartDone) s = execIddaumRestartDone s := rfl
@[simp] theorem exec_undervoltageEnd (s : State) : exec (.undervoltageEnd) s = execUndervoltageEnd s := rfl
@[simp] theorem exec_schedulerBankFault (k : Fin 16) (s : State) :
    exec (.schedulerBankFault k) s = execSchedulerBankFault k s := rfl

end Sys2Proof.Machine
end

