-- ==== Sys2Proof/Laws/FMap.lean ====
section
/-! SUPPORT. Laws of sparse tables: read after write, and that every operation keeps the canonical form. -/

namespace Sys2Proof.Machine

variable {α : Type}

theorem FMap.get_above (d : Nat → α) {k : Nat} : ∀ {m : FMap α}, (∀ e ∈ m, k < e.1) → FMap.get d m k = d k
  | [], _ => rfl
  | (k', v) :: r, h => by
    have := h (k', v) List.mem_cons_self
    simp [FMap.get, this]

theorem FMap.get_filter_above (d : Nat → α) {k j : Nat} (h : k < j) :
    ∀ m : FMap α, FMap.get d (m.filter fun e => decide (k < e.1)) j = FMap.get d m j
  | [] => rfl
  | (k', v) :: r => by
    have ih := FMap.get_filter_above d h r
    by_cases hk : k < k'
    · simp [List.filter_cons, hk, FMap.get, ih]
    · have h1 : ¬ j < k' := by omega
      have h2 : j ≠ k' := by omega
      simp [List.filter_cons, hk, FMap.get, ih, h1, h2]

theorem FMap.get_filter_le (d : Nat → α) {k j : Nat} (h : j ≤ k) (m : FMap α) :
    FMap.get d (m.filter fun e => decide (k < e.1)) j = d j :=
  FMap.get_above d fun e he => by
    have := (List.mem_filter.mp he).2
    simp at this
    omega

/-- A value reads back after it has been written. -/
@[simp] theorem FMap.get_set_same [DecidableEq α] (d : Nat → α) (k : Nat) (v : α) :
    ∀ m : FMap α, FMap.get d (FMap.set d m k v) k = v
  | [] => by by_cases h : v = d k <;> simp [FMap.set, h, FMap.get]
  | (k', v') :: r => by
    have ih := FMap.get_set_same d k v r
    unfold FMap.set
    by_cases h1 : k < k'
    · by_cases h2 : v = d k <;> simp [h1, h2, FMap.get]
    · by_cases h3 : k = k'
      · by_cases h2 : v = d k
        · simp only [h1, h3, h2, if_false, if_true]; subst h3; simpa using FMap.get_filter_le d (Nat.le_refl _) r
        · subst h3; simp [h2, FMap.get]
      · simp [h1, h3, FMap.get, ih]

/-- A write leaves every other key as it reads. -/
@[simp] theorem FMap.get_set_ne [DecidableEq α] (d : Nat → α) {k j : Nat} (v : α) (h : j ≠ k) :
    ∀ m : FMap α, FMap.get d (FMap.set d m k v) j = FMap.get d m j
  | [] => by
    by_cases h2 : v = d k
    · simp [FMap.set, h2, FMap.get]
    · simp [FMap.set, h2, FMap.get, h]
  | (k', v') :: r => by
    have ih := FMap.get_set_ne d v h r
    unfold FMap.set
    by_cases h1 : k < k'
    · by_cases h2 : v = d k
      · simp [h1, h2]
      · simp only [h1, h2, if_true, if_false]
        by_cases h3 : j < k
        · have : j < k' := by omega
          simp [FMap.get, h3, this]
        · simp [FMap.get, h3, h]
    · by_cases h3 : k = k'
      · subst h3
        by_cases h2 : v = d k
        · simp only [h1, h2, if_true, if_false]
          rcases Nat.lt_or_ge k j with h4 | h4
          · have h5 : ¬ j < k := by omega
            simp [FMap.get, h5, h, FMap.get_filter_above d h4]
          · have h5 : j < k := by omega
            simp [FMap.get, h5, FMap.get_filter_le d h4]
        · simp [h2, FMap.get, h]
      · simp [h1, h3, FMap.get, ih]

theorem FMap.find_above {k : Nat} : ∀ {m : FMap α}, (∀ e ∈ m, k < e.1) → FMap.find m k = none
  | [], _ => rfl
  | (k', v) :: r, h => by
    have := h (k', v) List.mem_cons_self
    simp [FMap.find, this]

theorem FMap.find_filter_above {k j : Nat} (h : k < j) :
    ∀ m : FMap α, FMap.find (m.filter fun e => decide (k < e.1)) j = FMap.find m j
  | [] => rfl
  | (k', v) :: r => by
    have ih := FMap.find_filter_above h r
    by_cases hk : k < k'
    · simp [List.filter_cons, hk, FMap.find, ih]
    · have h1 : ¬ j < k' := by omega
      have h2 : j ≠ k' := by omega
      simp [List.filter_cons, hk, FMap.find, ih, h1, h2]

theorem FMap.find_filter_le {k j : Nat} (h : j ≤ k) (m : FMap α) :
    FMap.find (m.filter fun e => decide (k < e.1)) j = none :=
  FMap.find_above fun e he => by
    have := (List.mem_filter.mp he).2
    simp at this
    omega

/-- A listed record is found. -/
@[simp] theorem FMap.find_put_same (k : Nat) (v : α) : ∀ m : FMap α, FMap.find (FMap.put m k v) k = some v
  | [] => by simp [FMap.put, FMap.find]
  | (k', v') :: r => by
    have ih := FMap.find_put_same k v r
    unfold FMap.put
    by_cases h1 : k < k'
    · simp [h1, FMap.find]
    · by_cases h3 : k = k' <;> simp [h1, h3, FMap.find, ih]

/-- Listing a record leaves the others. -/
@[simp] theorem FMap.find_put_ne {k j : Nat} (v : α) (h : j ≠ k) :
    ∀ m : FMap α, FMap.find (FMap.put m k v) j = FMap.find m j
  | [] => by simp [FMap.put, FMap.find, h]
  | (k', v') :: r => by
    have ih := FMap.find_put_ne v h r
    unfold FMap.put
    by_cases h1 : k < k'
    · simp only [h1, if_true]
      by_cases h3 : j < k
      · have : j < k' := by omega
        simp [FMap.find, h3, this]
      · simp [FMap.find, h3, h]
    · by_cases h3 : k = k'
      · subst h3; simp [FMap.find, h]
      · simp [h1, h3, FMap.find, ih]

/-- An unlisted record is not found. -/
@[simp] theorem FMap.find_del_same (k : Nat) : ∀ m : FMap α, FMap.find (FMap.del m k) k = none
  | [] => rfl
  | (k', v') :: r => by
    have ih := FMap.find_del_same k r
    unfold FMap.del
    by_cases h1 : k < k'
    · simp [h1, FMap.find]
    · by_cases h3 : k = k'
      · subst h3; simpa using FMap.find_filter_le (Nat.le_refl _) r
      · simp [h1, h3, FMap.find, ih]

/-- Unlisting a record leaves the others. -/
@[simp] theorem FMap.find_del_ne {k j : Nat} (h : j ≠ k) : ∀ m : FMap α, FMap.find (FMap.del m k) j = FMap.find m j
  | [] => rfl
  | (k', v') :: r => by
    have ih := FMap.find_del_ne h r
    unfold FMap.del
    by_cases h1 : k < k'
    · simp [h1]
    · by_cases h3 : k = k'
      · subst h3
        rcases Nat.lt_or_ge k j with h4 | h4
        · have h5 : ¬ j < k := by omega
          simp [FMap.find, h5, h, FMap.find_filter_above h4]
        · have h5 : j < k := by omega
          simp [FMap.find, h5, FMap.find_filter_le h4]
      · simp [h1, h3, FMap.find, ih]

/-! ## The canonical form -/

/-- A bound under which a canonical table's keys lie. -/
def FMap.Above (lo : Option Nat) (k : Nat) : Prop := ∀ l, lo = some l → l < k

theorem FMap.wfFrom_cons [DecidableEq α] (d : Nat → α) (lo : Option Nat) (k : Nat) (v : α) (r : FMap α) :
    FMap.wfFrom d lo ((k, v) :: r) = true ↔ FMap.Above lo k ∧ v ≠ d k ∧ FMap.wfFrom d (some k) r = true := by
  cases lo <;> simp [FMap.wfFrom, FMap.Above, and_assoc]

theorem FMap.wfFrom_mono [DecidableEq α] (d : Nat → α) {lo lo' : Option Nat} (h : ∀ k, FMap.Above lo k → FMap.Above lo' k) :
    ∀ {m : FMap α}, FMap.wfFrom d lo m = true → FMap.wfFrom d lo' m = true
  | [], _ => rfl
  | (k, v) :: r, hm => by
    rw [FMap.wfFrom_cons] at hm ⊢
    exact ⟨h k hm.1, hm.2⟩

theorem FMap.keys_above [DecidableEq α] (d : Nat → α) : ∀ {m : FMap α} {l : Nat}, FMap.wfFrom d (some l) m = true →
    ∀ e ∈ m, l < e.1
  | [], _, _ => by simp
  | (k, v) :: r, l, h => by
    rw [FMap.wfFrom_cons] at h
    have hk := h.1 l rfl
    intro e he
    rcases List.mem_cons.mp he with rfl | he
    · exact hk
    · exact lt_trans hk (FMap.keys_above d h.2.2 e he)

theorem FMap.wfFrom_set [DecidableEq α] (d : Nat → α) (k : Nat) (v : α) : ∀ {m : FMap α} {lo : Option Nat},
    FMap.wfFrom d lo m = true → FMap.Above lo k → FMap.wfFrom d lo (FMap.set d m k v) = true
  | [], lo, _, hk => by
    by_cases h : v = d k
    · simp [FMap.set, h, FMap.wfFrom]
    · have : FMap.set d [] k v = [(k, v)] := by simp [FMap.set, h]
      rw [this, FMap.wfFrom_cons]
      exact ⟨hk, h, rfl⟩
  | (k', v') :: r, lo, hm, hk => by
    have hm' := (FMap.wfFrom_cons d lo k' v' r).mp hm
    unfold FMap.set
    by_cases h1 : k < k'
    · by_cases h2 : v = d k
      · simpa [h1, h2] using hm
      · simp only [h1, h2, if_true, if_false, FMap.wfFrom_cons]
        exact ⟨hk, h2, fun l hl => by cases hl; exact h1, hm'.2⟩
    · by_cases h3 : k = k'
      · subst h3
        by_cases h2 : v = d k
        · have : r.filter (fun e => decide (k < e.1)) = r :=
            List.filter_eq_self.mpr fun e he => by simpa using FMap.keys_above d hm'.2.2 e he
          simp only [h1, h2, if_true, if_false, this]
          exact FMap.wfFrom_mono d (fun j hj l hl => lt_trans (hk l hl) (hj k rfl)) hm'.2.2
        · simp only [h1, h2, if_true, if_false, FMap.wfFrom_cons]
          exact ⟨hk, h2, hm'.2.2⟩
      · simp only [h1, h3, if_false, FMap.wfFrom_cons]
        exact ⟨hm'.1, hm'.2.1, FMap.wfFrom_set d k v hm'.2.2 fun l hl => by cases hl; omega⟩

/-- A write keeps the canonical form. -/
theorem FMap.wf_set [DecidableEq α] (d : Nat → α) (k : Nat) (v : α) {m : FMap α} (h : FMap.wf d m = true) :
    FMap.wf d (FMap.set d m k v) = true :=
  FMap.wfFrom_set d k v h fun _ hl => by cases hl

theorem FMap.wfFrom_filter [DecidableEq α] (d : Nat → α) (p : Nat × α → Bool) : ∀ {m : FMap α} {lo : Option Nat},
    FMap.wfFrom d lo m = true → FMap.wfFrom d lo (m.filter p) = true
  | [], _, _ => rfl
  | (k, v) :: r, lo, h => by
    rw [FMap.wfFrom_cons] at h
    by_cases hp : p (k, v)
    · simp only [List.filter_cons, hp, if_true, FMap.wfFrom_cons]
      exact ⟨h.1, h.2.1, FMap.wfFrom_filter d p h.2.2⟩
    · simp only [List.filter_cons, hp]
      exact FMap.wfFrom_mono d (fun j hj l hl => lt_trans (h.1 l hl) (hj k rfl)) (FMap.wfFrom_filter d p h.2.2)

/-- Removing keys keeps the canonical form. -/
theorem FMap.wf_drop [DecidableEq α] (d : Nat → α) (p : Nat → Bool) {m : FMap α} (h : FMap.wf d m = true) :
    FMap.wf d (FMap.drop p m) = true :=
  FMap.wfFrom_filter d _ h

/-- Two tables in canonical form that read alike are the same table. -/
theorem FMap.wfFrom_ext [DecidableEq α] (d : Nat → α) : ∀ {m n : FMap α} {lo lo' : Option Nat},
    FMap.wfFrom d lo m = true → FMap.wfFrom d lo' n = true → (∀ k, FMap.get d m k = FMap.get d n k) → m = n
  | [], [], _, _, _, _, _ => rfl
  | [], (k, v) :: r, _, _, _, hn, h => by
    have := h k
    simp [FMap.get] at this
    exact absurd this.symm ((FMap.wfFrom_cons d _ k v r).mp hn).2.1
  | (k, v) :: r, [], _, _, hm, _, h => by
    have := h k
    simp [FMap.get] at this
    exact absurd this ((FMap.wfFrom_cons d _ k v r).mp hm).2.1
  | (k, v) :: r, (k', v') :: r', lo, lo', hm, hn, h => by
    have hm := (FMap.wfFrom_cons d _ k v r).mp hm
    have hn := (FMap.wfFrom_cons d _ k' v' r').mp hn
    have hk : k = k' := by
      rcases Nat.lt_trichotomy k k' with h1 | h1 | h1
      · have := h k
        simp [FMap.get, h1] at this
        exact absurd this hm.2.1
      · exact h1
      · have := h k'
        simp [FMap.get, h1] at this
        exact absurd this.symm hn.2.1
    subst hk
    have hv : v = v' := by simpa [FMap.get] using h k
    subst hv
    have : r = r' := FMap.wfFrom_ext d hm.2.2 hn.2.2 fun j => by
      rcases Nat.lt_trichotomy j k with h1 | h1 | h1
      · rw [FMap.get_above d fun e he => lt_trans h1 (FMap.keys_above d hm.2.2 e he),
          FMap.get_above d fun e he => lt_trans h1 (FMap.keys_above d hn.2.2 e he)]
      · subst h1
        rw [FMap.get_above d (FMap.keys_above d hm.2.2), FMap.get_above d (FMap.keys_above d hn.2.2)]
      · have h2 : ¬ j < k := by omega
        have h3 : j ≠ k := by omega
        simpa [FMap.get, h2, h3] using h j
    rw [this]

end Sys2Proof.Machine
end

