-- ==== Sys2Proof/Laws/Ladle.lean ====
section
/-! SUPPORT. The residue checks of R192 find no fault in sums that the model forms: RES follows VALUE through every addend, and the
comparison on adds of integer partials always holds. An item's check fails only as its command says, or after an error in storage. -/

namespace Sys2Proof.Machine

/-- A power of two mod 7 depends on its exponent mod 3. -/
theorem two_pow_mod_seven (k : Nat) : (2 : Int) ^ k % 7 = 2 ^ (k % 3) % 7 := by
  induction k using Nat.strongRecOn with
  | _ k ih =>
    by_cases h : k < 3
    · rw [Nat.mod_eq_of_lt h]
    · obtain ⟨j, rfl⟩ : ∃ j, k = j + 3 := ⟨k - 3, by omega⟩
      rw [Nat.add_mod_right, ← ih j (by omega), pow_add]
      omega

/-- The residue circuit's shift gives the residue of the shifted integer. -/
theorem res7_eq (m : Int) (k : Nat) : res7 m k = (m * 2 ^ k % 7).toNat := by
  have h : ((m % 7).toNat : Int) = m % 7 := Int.toNat_of_nonneg (Int.emod_nonneg _ (by decide))
  have g : 0 ≤ m * 2 ^ k % 7 := Int.emod_nonneg _ (by decide)
  zify
  rw [Int.toNat_of_nonneg g]
  simp only [res7, Int.natCast_mod, Int.natCast_mul, Int.natCast_pow, h, Nat.cast_ofNat]
  rw [Int.mul_emod m, two_pow_mod_seven k, ← Int.mul_emod, Int.mul_emod, Int.emod_emod_of_dvd _ (dvd_refl 7), ← Int.mul_emod]

/-- The residue added for an addend is its residue. -/
theorem unitsOf_residue (v : Dy) (u : Int) (rounded : Bool) (h : unitsOf v = (u, rounded)) :
    (if rounded then (u % 7).toNat else if -149 ≤ v.e then res7 v.m (v.e + 149).toNat else (u % 7).toNat) = (u % 7).toNat := by
  by_cases he : -149 ≤ v.e
  · simp only [unitsOf, he, if_true, Prod.mk.injEq] at h
    obtain ⟨rfl, rfl⟩ := h
    simp [he, res7_eq]
  · simp [he]

/-- RES agrees with VALUE after an addend where it did before. -/
theorem LAcc.add_resOk (a : LAcc) (x : Num) (h : a.resOk = true) : (a.add x).resOk = true := by
  cases x with
  | nan => exact h
  | inf neg => exact h
  | fin neg v =>
    obtain ⟨u, rounded, hu⟩ : ∃ u r, unitsOf v = (u, r) := ⟨_, _, rfl⟩
    simp only [LAcc.add, hu, unitsOf_residue v u rounded hu]
    split
    · exact h
    · split
      · exact h
      · simp only [LAcc.resOk, beq_iff_eq] at h ⊢
        omega

/-- RES agrees with VALUE in a sum. -/
theorem LAcc.sum_resOk (xs : List Num) : (LAcc.sum xs).resOk = true := by
  have : ∀ a : LAcc, a.resOk = true → (xs.foldl LAcc.add a).resOk = true := by
    induction xs with
    | nil => exact fun _ h => h
    | cons x xs ih => exact fun a h => ih _ (a.add_resOk x h)
  exact this {} rfl

/-- Element `i` of an ascending run. -/
theorem getElem?_upFrom (lo n i : Nat) (h : i < n) : (upFrom lo n)[i]? = some (lo + i) := by
  induction n generalizing lo i with
  | zero => omega
  | succ n ih =>
    cases i with
    | zero => rfl
    | succ i => simpa [upFrom, Nat.add_assoc, Nat.add_comm 1] using ih (lo + 1) i (by omega)

/-- What is in an ascending run. -/
theorem mem_upFrom (lo n i : Nat) (h : i ∈ upFrom lo n) : lo ≤ i ∧ i < lo + n := by
  induction n generalizing lo with
  | zero => simp [upFrom] at h
  | succ n ih =>
    rcases List.mem_cons.mp h with rfl | h
    · omega
    · have := ih (lo + 1) h; omega

/-- The comparison on every add of integer partials holds. -/
theorem alignedResOk_true (code a b : Nat) : alignedResOk code a b = true := by
  simp only [alignedResOk, List.all_eq_true, beq_iff_eq]
  intro i hi
  have hn := getElem?_upFrom 0 (512 / alignedWidth code) i (by have := (mem_upFrom _ _ i hi).2; omega)
  simp only [alignedRes, List.getD_eq_getElem?_getD, List.getElem?_map, hn, Option.map_some, Option.getD_some, Nat.zero_add]
  omega

end Sys2Proof.Machine
end

