-- ==== Sys2Proof/Laws/Ops.lean ====
section
/-! SUPPORT. Laws of the shared operations: registers, HBM. -/

namespace Sys2Proof.Machine

/-! ## Registers -/

@[simp] theorem State.reg_setReg_same (s : State) (o : Nat) (v : Word) : (s.setReg o v).reg o = v :=
  FMap.get_set_same ..

@[simp] theorem State.reg_setReg_ne (s : State) {o p : Nat} (v : Word) (h : p ≠ o) : (s.setReg o v).reg p = s.reg p :=
  FMap.get_set_ne _ _ h _

/-- A register after one of its fields has been set. -/
theorem State.toNat_reg_setFld (s : State) (f : Field) (v : Nat) (h : f.lo + f.w ≤ 64) :
    ((s.setFld f v).reg f.off).toNat = putBits (s.reg f.off).toNat f.lo f.w v := by
  rw [State.setFld, State.reg_setReg_same, BitVec.toNat_ofNat]
  exact Nat.mod_eq_of_lt (putBits_lt (s.reg f.off).isLt h)

/-- A field reads back what was set, cut to its width. -/
theorem State.fld_setFld_same (s : State) (f : Field) (v : Nat) (h : f.lo + f.w ≤ 64) :
    (s.setFld f v).fld f = v % 2 ^ f.w := by
  rw [State.fld, State.toNat_reg_setFld _ _ _ h, getBits_putBits_same]

/-- Setting a field leaves every field that shares no bit with it. -/
theorem State.fld_setFld_apart (s : State) (f g : Field) (v : Nat) (h : f.lo + f.w ≤ 64)
    (ha : g.off ≠ f.off ∨ g.lo + g.w ≤ f.lo ∨ f.lo + f.w ≤ g.lo) : (s.setFld f v).fld g = s.fld g := by
  by_cases ho : g.off = f.off
  · rw [State.fld, ho, State.toNat_reg_setFld _ _ _ h]
    rcases ha with ha | ha | ha
    · exact absurd ho ha
    · rw [getBits_putBits_below _ _ _ _ _ _ ha, State.fld, ho]
    · rw [getBits_putBits_above _ _ _ _ _ _ ha, State.fld, ho]
  · rw [State.fld, State.setFld, State.reg_setReg_ne _ _ ho, State.fld]

/-- A field's value fits its width. -/
theorem State.fld_lt (s : State) (f : Field) : s.fld f < 2 ^ f.w := getBits_lt _ _ _

/-! ## HBM -/

/-- Writing bytes keeps HBM in canonical form. -/
theorem wf_writeCells (d : Nat → Byte) (hd : d = byteDefault) : ∀ (bs : List Byte) {m : FMap Byte} {a : Nat},
    FMap.wf d m = true → FMap.wf d (writeCells m a bs) = true
  | [], _, _, h => h
  | b :: r, m, a, h => by
    subst hd
    exact wf_writeCells _ rfl r (FMap.wf_set _ _ _ h)

/-- Writing to HBM keeps it in canonical form. -/
theorem State.wf_putBytes (s : State) (a : Nat) (bs : List Byte) (h : FMap.wf byteDefault s.hbm = true) :
    FMap.wf byteDefault (s.putBytes a bs).hbm = true := by
  unfold State.putBytes
  split
  · exact h
  · exact wf_writeCells _ rfl bs h

/-- The Home Unit's write keeps HBM in canonical form. -/
theorem State.wf_homeWrite (s : State) (h first count : Nat) (data : Line) (poison : Bool)
    (hm : FMap.wf byteDefault s.hbm = true) : FMap.wf byteDefault (s.homeWrite h first count data poison).hbm = true :=
  s.wf_putBytes _ _ hm

/-- Bytes outside those written keep their values. -/
theorem get_writeCells_outside : ∀ (bs : List Byte) (m : FMap Byte) (a j : Nat), (j < a ∨ a + bs.length ≤ j) →
    FMap.get byteDefault (writeCells m a bs) j = FMap.get byteDefault m j
  | [], _, _, _, _ => rfl
  | b :: r, m, a, j, h => by
    rw [List.length_cons] at h
    have h1 : j < a + 1 ∨ a + 1 + r.length ≤ j := by omega
    have h2 : j ≠ a := by omega
    rw [writeCells, get_writeCells_outside r _ _ _ h1, FMap.get_set_ne _ _ h2]

/-- Byte `i` of those written reads back. -/
theorem get_writeCells_inside : ∀ (bs : List Byte) (m : FMap Byte) (a i : Nat) (h : i < bs.length),
    FMap.get byteDefault (writeCells m a bs) (a + i) = bs[i]
  | b :: r, m, a, 0, _ => by
    rw [writeCells, get_writeCells_outside r _ _ _ (Or.inl (by omega))]
    simp
  | b :: r, m, a, i + 1, h => by
    have h' : i < r.length := by simpa using h
    have := get_writeCells_inside r (FMap.set byteDefault m a b) (a + 1) i h'
    rw [writeCells, show a + (i + 1) = a + 1 + i by omega, this]
    rfl

/-- A byte of HBM outside those written keeps its value. -/
theorem State.byte_putBytes_outside (s : State) (a : Nat) (bs : List Byte) (j : Nat) (h : j < a ∨ a + bs.length ≤ j) :
    (s.putBytes a bs).byte j = s.byte j := by
  unfold State.putBytes
  split
  · rfl
  · exact get_writeCells_outside bs s.hbm a j h

/-- Byte `i` of those written to HBM reads back, where they lie in the device. -/
theorem State.byte_putBytes_inside (s : State) (a : Nat) (bs : List Byte) (i : Nat) (h : i < bs.length)
    (hd : a + bs.length ≤ hbmBytes) : (s.putBytes a bs).byte (a + i) = bs[i] := by
  unfold State.putBytes
  rw [if_neg (by omega)]
  exact get_writeCells_inside bs s.hbm a i h

end Sys2Proof.Machine
end

