-- ==== Sys2Proof/Laws/Memory.lean ====
section
/-! SUPPORT. Laws of clearing a range of HBM (R326). -/

namespace Sys2Proof.Machine

/-- Dropping keys: a dropped key reads as an unlisted one, the others keep their values. -/
theorem FMap.get_drop {α : Type} [DecidableEq α] (d : Nat → α) (p : Nat → Bool) (k : Nat) :
    ∀ {m : FMap α} {lo : Option Nat}, FMap.wfFrom d lo m = true →
      FMap.get d (FMap.drop p m) k = if p k = true then d k else FMap.get d m k
  | [], _, _ => by simp [FMap.drop, FMap.get]
  | (a, b) :: r, lo, h => by
    have hr : FMap.wfFrom d (some a) r = true := ((FMap.wfFrom_cons ..).1 h).2.2
    have ih := FMap.get_drop d p k hr
    have up : ∀ e ∈ r, a < e.1 := FMap.keys_above d hr
    have hd : FMap.drop p ((a, b) :: r) = if p a = true then FMap.drop p r else (a, b) :: FMap.drop p r := by
      unfold FMap.drop; cases hp : p a <;> simp [List.filter, hp]
    rw [hd]
    rcases Nat.lt_trichotomy k a with hk | hk | hk
    · have e : FMap.get d r k = d k := FMap.get_above d fun e he => Nat.lt_trans hk (up e he)
      split <;> simp [FMap.get, hk, ih, e]
    · subst hk
      split <;> rename_i hp <;> simp [FMap.get, ih, hp]
    · have h1 : ¬ k < a := by omega
      have h2 : ¬ k = a := by omega
      split <;> simp [FMap.get, h1, h2, ih]

/-- Clearing a range keeps HBM in canonical form. -/
theorem State.wf_zeroBytes (s : State) (a n : Nat) (h : FMap.wf byteDefault s.hbm = true) :
    FMap.wf byteDefault (s.zeroBytes a n).hbm = true :=
  FMap.wf_drop byteDefault (fun k => decide (a ≤ k ∧ k < a + n)) h

/-- A byte after a range has been cleared. -/
theorem State.byte_zeroBytes (s : State) (a n k : Nat) (h : FMap.wf byteDefault s.hbm = true) :
    (s.zeroBytes a n).byte k = if a ≤ k ∧ k < a + n then 0 else s.byte k := by
  have := FMap.get_drop byteDefault (fun k => decide (a ≤ k ∧ k < a + n)) k h
  simpa [State.byte, State.zeroBytes, byteDefault] using this

/-- Writing chunks of sealed loads keeps HBM in canonical form (R338). -/
theorem State.wf_putLines (s : State) (a : Nat) (bs : List Byte) (h : FMap.wf byteDefault s.hbm = true) :
    FMap.wf byteDefault (s.putLines a bs).hbm = true :=
  s.wf_putBytes _ _ h

end Sys2Proof.Machine
end

