-- ==== Sys2Proof/Laws/State.lean ====
section
/-! SUPPORT. What each update of the state leaves: one lemma per field per update. -/

namespace Sys2Proof.Machine

/-! ## State.setReg -/

@[simp] theorem State.hbm_setReg (s : State) (o : Nat) (v : Word) : (s.setReg o v).hbm = s.hbm := rfl
@[simp] theorem State.units_setReg (s : State) (o : Nat) (v : Word) : (s.setReg o v).units = s.units := rfl
@[simp] theorem State.poison_setReg (s : State) (o : Nat) (v : Word) : (s.setReg o v).poison = s.poison := rfl
@[simp] theorem State.shadow_setReg (s : State) (o : Nat) (v : Word) : (s.setReg o v).shadow = s.shadow := rfl
@[simp] theorem State.threads_setReg (s : State) (o : Nat) (v : Word) : (s.setReg o v).threads = s.threads := rfl
@[simp] theorem State.watch_setReg (s : State) (o : Nat) (v : Word) : (s.setReg o v).watch = s.watch := rfl
@[simp] theorem State.reports_setReg (s : State) (o : Nat) (v : Word) : (s.setReg o v).reports = s.reports := rfl
@[simp] theorem State.icache_setReg (s : State) (o : Nat) (v : Word) : (s.setReg o v).icache = s.icache := rfl
@[simp] theorem State.descs_setReg (s : State) (o : Nat) (v : Word) : (s.setReg o v).descs = s.descs := rfl
@[simp] theorem State.xlt_setReg (s : State) (o : Nat) (v : Word) : (s.setReg o v).xlt = s.xlt := rfl
@[simp] theorem State.siv_setReg (s : State) (o : Nat) (v : Word) : (s.setReg o v).siv = s.siv := rfl
@[simp] theorem State.skids_setReg (s : State) (o : Nat) (v : Word) : (s.setReg o v).skids = s.skids := rfl
@[simp] theorem State.slots_setReg (s : State) (o : Nat) (v : Word) : (s.setReg o v).slots = s.slots := rfl
@[simp] theorem State.home_setReg (s : State) (o : Nat) (v : Word) : (s.setReg o v).home = s.home := rfl
@[simp] theorem State.swc_setReg (s : State) (o : Nat) (v : Word) : (s.setReg o v).swc = s.swc := rfl
@[simp] theorem State.rel_setReg (s : State) (o : Nat) (v : Word) : (s.setReg o v).rel = s.rel := rfl
@[simp] theorem State.pwr_setReg (s : State) (o : Nat) (v : Word) : (s.setReg o v).pwr = s.pwr := rfl
@[simp] theorem State.hst_setReg (s : State) (o : Nat) (v : Word) : (s.setReg o v).hst = s.hst := rfl
@[simp] theorem State.sec_setReg (s : State) (o : Nat) (v : Word) : (s.setReg o v).sec = s.sec := rfl
@[simp] theorem State.ldl_setReg (s : State) (o : Nat) (v : Word) : (s.setReg o v).ldl = s.ldl := rfl
@[simp] theorem State.col_setReg (s : State) (o : Nat) (v : Word) : (s.setReg o v).col = s.col := rfl
@[simp] theorem State.tel_setReg (s : State) (o : Nat) (v : Word) : (s.setReg o v).tel = s.tel := rfl
@[simp] theorem State.tim_setReg (s : State) (o : Nat) (v : Word) : (s.setReg o v).tim = s.tim := rfl
@[simp] theorem State.cru_setReg (s : State) (o : Nat) (v : Word) : (s.setReg o v).cru = s.cru := rfl
@[simp] theorem State.opt_setReg (s : State) (o : Nat) (v : Word) : (s.setReg o v).opt = s.opt := rfl
@[simp] theorem State.elk_setReg (s : State) (o : Nat) (v : Word) : (s.setReg o v).elk = s.elk := rfl
@[simp] theorem State.mgt_setReg (s : State) (o : Nat) (v : Word) : (s.setReg o v).mgt = s.mgt := rfl
@[simp] theorem State.jtag_setReg (s : State) (o : Nat) (v : Word) : (s.setReg o v).jtag = s.jtag := rfl
@[simp] theorem State.issued_setReg (s : State) (o : Nat) (v : Word) : (s.setReg o v).issued = s.issued := rfl
@[simp] theorem State.free_setReg (s : State) (o : Nat) (v : Word) : (s.setReg o v).free = s.free := rfl
@[simp] theorem State.out_setReg (s : State) (o : Nat) (v : Word) : (s.setReg o v).out = s.out := rfl
@[simp] theorem State.pending_setReg (s : State) (o : Nat) (v : Word) : (s.setReg o v).pending = s.pending := rfl
@[simp] theorem State.byte_setReg (s : State) (o : Nat) (v : Word) (j : Nat) : (s.setReg o v).byte j = s.byte j := rfl
@[simp] theorem State.thr_setReg (s : State) (o : Nat) (v : Word) (u : Nat) : (s.setReg o v).thr u = s.thr u := rfl

/-! ## State.setFld -/

@[simp] theorem State.hbm_setFld (s : State) (f : Field) (v : Nat) : (s.setFld f v).hbm = s.hbm := rfl
@[simp] theorem State.units_setFld (s : State) (f : Field) (v : Nat) : (s.setFld f v).units = s.units := rfl
@[simp] theorem State.poison_setFld (s : State) (f : Field) (v : Nat) : (s.setFld f v).poison = s.poison := rfl
@[simp] theorem State.shadow_setFld (s : State) (f : Field) (v : Nat) : (s.setFld f v).shadow = s.shadow := rfl
@[simp] theorem State.threads_setFld (s : State) (f : Field) (v : Nat) : (s.setFld f v).threads = s.threads := rfl
@[simp] theorem State.watch_setFld (s : State) (f : Field) (v : Nat) : (s.setFld f v).watch = s.watch := rfl
@[simp] theorem State.reports_setFld (s : State) (f : Field) (v : Nat) : (s.setFld f v).reports = s.reports := rfl
@[simp] theorem State.icache_setFld (s : State) (f : Field) (v : Nat) : (s.setFld f v).icache = s.icache := rfl
@[simp] theorem State.descs_setFld (s : State) (f : Field) (v : Nat) : (s.setFld f v).descs = s.descs := rfl
@[simp] theorem State.xlt_setFld (s : State) (f : Field) (v : Nat) : (s.setFld f v).xlt = s.xlt := rfl
@[simp] theorem State.siv_setFld (s : State) (f : Field) (v : Nat) : (s.setFld f v).siv = s.siv := rfl
@[simp] theorem State.skids_setFld (s : State) (f : Field) (v : Nat) : (s.setFld f v).skids = s.skids := rfl
@[simp] theorem State.slots_setFld (s : State) (f : Field) (v : Nat) : (s.setFld f v).slots = s.slots := rfl
@[simp] theorem State.home_setFld (s : State) (f : Field) (v : Nat) : (s.setFld f v).home = s.home := rfl
@[simp] theorem State.swc_setFld (s : State) (f : Field) (v : Nat) : (s.setFld f v).swc = s.swc := rfl
@[simp] theorem State.rel_setFld (s : State) (f : Field) (v : Nat) : (s.setFld f v).rel = s.rel := rfl
@[simp] theorem State.pwr_setFld (s : State) (f : Field) (v : Nat) : (s.setFld f v).pwr = s.pwr := rfl
@[simp] theorem State.hst_setFld (s : State) (f : Field) (v : Nat) : (s.setFld f v).hst = s.hst := rfl
@[simp] theorem State.sec_setFld (s : State) (f : Field) (v : Nat) : (s.setFld f v).sec = s.sec := rfl
@[simp] theorem State.ldl_setFld (s : State) (f : Field) (v : Nat) : (s.setFld f v).ldl = s.ldl := rfl
@[simp] theorem State.col_setFld (s : State) (f : Field) (v : Nat) : (s.setFld f v).col = s.col := rfl
@[simp] theorem State.tel_setFld (s : State) (f : Field) (v : Nat) : (s.setFld f v).tel = s.tel := rfl
@[simp] theorem State.tim_setFld (s : State) (f : Field) (v : Nat) : (s.setFld f v).tim = s.tim := rfl
@[simp] theorem State.cru_setFld (s : State) (f : Field) (v : Nat) : (s.setFld f v).cru = s.cru := rfl
@[simp] theorem State.opt_setFld (s : State) (f : Field) (v : Nat) : (s.setFld f v).opt = s.opt := rfl
@[simp] theorem State.elk_setFld (s : State) (f : Field) (v : Nat) : (s.setFld f v).elk = s.elk := rfl
@[simp] theorem State.mgt_setFld (s : State) (f : Field) (v : Nat) : (s.setFld f v).mgt = s.mgt := rfl
@[simp] theorem State.jtag_setFld (s : State) (f : Field) (v : Nat) : (s.setFld f v).jtag = s.jtag := rfl
@[simp] theorem State.issued_setFld (s : State) (f : Field) (v : Nat) : (s.setFld f v).issued = s.issued := rfl
@[simp] theorem State.free_setFld (s : State) (f : Field) (v : Nat) : (s.setFld f v).free = s.free := rfl
@[simp] theorem State.out_setFld (s : State) (f : Field) (v : Nat) : (s.setFld f v).out = s.out := rfl
@[simp] theorem State.pending_setFld (s : State) (f : Field) (v : Nat) : (s.setFld f v).pending = s.pending := rfl
@[simp] theorem State.byte_setFld (s : State) (f : Field) (v : Nat) (j : Nat) : (s.setFld f v).byte j = s.byte j := rfl
@[simp] theorem State.thr_setFld (s : State) (f : Field) (v : Nat) (u : Nat) : (s.setFld f v).thr u = s.thr u := rfl

/-! ## State.raise -/

@[simp] theorem State.hbm_raise (s : State) (f : Field) : (s.raise f).hbm = s.hbm := rfl
@[simp] theorem State.units_raise (s : State) (f : Field) : (s.raise f).units = s.units := rfl
@[simp] theorem State.poison_raise (s : State) (f : Field) : (s.raise f).poison = s.poison := rfl
@[simp] theorem State.shadow_raise (s : State) (f : Field) : (s.raise f).shadow = s.shadow := rfl
@[simp] theorem State.threads_raise (s : State) (f : Field) : (s.raise f).threads = s.threads := rfl
@[simp] theorem State.watch_raise (s : State) (f : Field) : (s.raise f).watch = s.watch := rfl
@[simp] theorem State.reports_raise (s : State) (f : Field) : (s.raise f).reports = s.reports := rfl
@[simp] theorem State.icache_raise (s : State) (f : Field) : (s.raise f).icache = s.icache := rfl
@[simp] theorem State.descs_raise (s : State) (f : Field) : (s.raise f).descs = s.descs := rfl
@[simp] theorem State.xlt_raise (s : State) (f : Field) : (s.raise f).xlt = s.xlt := rfl
@[simp] theorem State.siv_raise (s : State) (f : Field) : (s.raise f).siv = s.siv := rfl
@[simp] theorem State.skids_raise (s : State) (f : Field) : (s.raise f).skids = s.skids := rfl
@[simp] theorem State.slots_raise (s : State) (f : Field) : (s.raise f).slots = s.slots := rfl
@[simp] theorem State.home_raise (s : State) (f : Field) : (s.raise f).home = s.home := rfl
@[simp] theorem State.swc_raise (s : State) (f : Field) : (s.raise f).swc = s.swc := rfl
@[simp] theorem State.rel_raise (s : State) (f : Field) : (s.raise f).rel = s.rel := rfl
@[simp] theorem State.pwr_raise (s : State) (f : Field) : (s.raise f).pwr = s.pwr := rfl
@[simp] theorem State.hst_raise (s : State) (f : Field) : (s.raise f).hst = s.hst := rfl
@[simp] theorem State.sec_raise (s : State) (f : Field) : (s.raise f).sec = s.sec := rfl
@[simp] theorem State.ldl_raise (s : State) (f : Field) : (s.raise f).ldl = s.ldl := rfl
@[simp] theorem State.col_raise (s : State) (f : Field) : (s.raise f).col = s.col := rfl
@[simp] theorem State.tel_raise (s : State) (f : Field) : (s.raise f).tel = s.tel := rfl
@[simp] theorem State.tim_raise (s : State) (f : Field) : (s.raise f).tim = s.tim := rfl
@[simp] theorem State.cru_raise (s : State) (f : Field) : (s.raise f).cru = s.cru := rfl
@[simp] theorem State.opt_raise (s : State) (f : Field) : (s.raise f).opt = s.opt := rfl
@[simp] theorem State.elk_raise (s : State) (f : Field) : (s.raise f).elk = s.elk := rfl
@[simp] theorem State.mgt_raise (s : State) (f : Field) : (s.raise f).mgt = s.mgt := rfl
@[simp] theorem State.jtag_raise (s : State) (f : Field) : (s.raise f).jtag = s.jtag := rfl
@[simp] theorem State.issued_raise (s : State) (f : Field) : (s.raise f).issued = s.issued := rfl
@[simp] theorem State.free_raise (s : State) (f : Field) : (s.raise f).free = s.free := rfl
@[simp] theorem State.out_raise (s : State) (f : Field) : (s.raise f).out = s.out := rfl
@[simp] theorem State.pending_raise (s : State) (f : Field) : (s.raise f).pending = s.pending := rfl
@[simp] theorem State.byte_raise (s : State) (f : Field) (j : Nat) : (s.raise f).byte j = s.byte j := rfl
@[simp] theorem State.thr_raise (s : State) (f : Field) (u : Nat) : (s.raise f).thr u = s.thr u := rfl

/-! ## State.addFld -/

@[simp] theorem State.hbm_addFld (s : State) (f : Field) (n : Nat) : (s.addFld f n).hbm = s.hbm := rfl
@[simp] theorem State.units_addFld (s : State) (f : Field) (n : Nat) : (s.addFld f n).units = s.units := rfl
@[simp] theorem State.poison_addFld (s : State) (f : Field) (n : Nat) : (s.addFld f n).poison = s.poison := rfl
@[simp] theorem State.shadow_addFld (s : State) (f : Field) (n : Nat) : (s.addFld f n).shadow = s.shadow := rfl
@[simp] theorem State.threads_addFld (s : State) (f : Field) (n : Nat) : (s.addFld f n).threads = s.threads := rfl
@[simp] theorem State.watch_addFld (s : State) (f : Field) (n : Nat) : (s.addFld f n).watch = s.watch := rfl
@[simp] theorem State.reports_addFld (s : State) (f : Field) (n : Nat) : (s.addFld f n).reports = s.reports := rfl
@[simp] theorem State.icache_addFld (s : State) (f : Field) (n : Nat) : (s.addFld f n).icache = s.icache := rfl
@[simp] theorem State.descs_addFld (s : State) (f : Field) (n : Nat) : (s.addFld f n).descs = s.descs := rfl
@[simp] theorem State.xlt_addFld (s : State) (f : Field) (n : Nat) : (s.addFld f n).xlt = s.xlt := rfl
@[simp] theorem State.siv_addFld (s : State) (f : Field) (n : Nat) : (s.addFld f n).siv = s.siv := rfl
@[simp] theorem State.skids_addFld (s : State) (f : Field) (n : Nat) : (s.addFld f n).skids = s.skids := rfl
@[simp] theorem State.slots_addFld (s : State) (f : Field) (n : Nat) : (s.addFld f n).slots = s.slots := rfl
@[simp] theorem State.home_addFld (s : State) (f : Field) (n : Nat) : (s.addFld f n).home = s.home := rfl
@[simp] theorem State.swc_addFld (s : State) (f : Field) (n : Nat) : (s.addFld f n).swc = s.swc := rfl
@[simp] theorem State.rel_addFld (s : State) (f : Field) (n : Nat) : (s.addFld f n).rel = s.rel := rfl
@[simp] theorem State.pwr_addFld (s : State) (f : Field) (n : Nat) : (s.addFld f n).pwr = s.pwr := rfl
@[simp] theorem State.hst_addFld (s : State) (f : Field) (n : Nat) : (s.addFld f n).hst = s.hst := rfl
@[simp] theorem State.sec_addFld (s : State) (f : Field) (n : Nat) : (s.addFld f n).sec = s.sec := rfl
@[simp] theorem State.ldl_addFld (s : State) (f : Field) (n : Nat) : (s.addFld f n).ldl = s.ldl := rfl
@[simp] theorem State.col_addFld (s : State) (f : Field) (n : Nat) : (s.addFld f n).col = s.col := rfl
@[simp] theorem State.tel_addFld (s : State) (f : Field) (n : Nat) : (s.addFld f n).tel = s.tel := rfl
@[simp] theorem State.tim_addFld (s : State) (f : Field) (n : Nat) : (s.addFld f n).tim = s.tim := rfl
@[simp] theorem State.cru_addFld (s : State) (f : Field) (n : Nat) : (s.addFld f n).cru = s.cru := rfl
@[simp] theorem State.opt_addFld (s : State) (f : Field) (n : Nat) : (s.addFld f n).opt = s.opt := rfl
@[simp] theorem State.elk_addFld (s : State) (f : Field) (n : Nat) : (s.addFld f n).elk = s.elk := rfl
@[simp] theorem State.mgt_addFld (s : State) (f : Field) (n : Nat) : (s.addFld f n).mgt = s.mgt := rfl
@[simp] theorem State.jtag_addFld (s : State) (f : Field) (n : Nat) : (s.addFld f n).jtag = s.jtag := rfl
@[simp] theorem State.issued_addFld (s : State) (f : Field) (n : Nat) : (s.addFld f n).issued = s.issued := rfl
@[simp] theorem State.free_addFld (s : State) (f : Field) (n : Nat) : (s.addFld f n).free = s.free := rfl
@[simp] theorem State.out_addFld (s : State) (f : Field) (n : Nat) : (s.addFld f n).out = s.out := rfl
@[simp] theorem State.pending_addFld (s : State) (f : Field) (n : Nat) : (s.addFld f n).pending = s.pending := rfl
@[simp] theorem State.byte_addFld (s : State) (f : Field) (n : Nat) (j : Nat) : (s.addFld f n).byte j = s.byte j := rfl
@[simp] theorem State.thr_addFld (s : State) (f : Field) (n : Nat) (u : Nat) : (s.addFld f n).thr u = s.thr u := rfl

/-! ## State.satFld -/

@[simp] theorem State.hbm_satFld (s : State) (f : Field) (n : Nat) : (s.satFld f n).hbm = s.hbm := rfl
@[simp] theorem State.units_satFld (s : State) (f : Field) (n : Nat) : (s.satFld f n).units = s.units := rfl
@[simp] theorem State.poison_satFld (s : State) (f : Field) (n : Nat) : (s.satFld f n).poison = s.poison := rfl
@[simp] theorem State.shadow_satFld (s : State) (f : Field) (n : Nat) : (s.satFld f n).shadow = s.shadow := rfl
@[simp] theorem State.threads_satFld (s : State) (f : Field) (n : Nat) : (s.satFld f n).threads = s.threads := rfl
@[simp] theorem State.watch_satFld (s : State) (f : Field) (n : Nat) : (s.satFld f n).watch = s.watch := rfl
@[simp] theorem State.reports_satFld (s : State) (f : Field) (n : Nat) : (s.satFld f n).reports = s.reports := rfl
@[simp] theorem State.icache_satFld (s : State) (f : Field) (n : Nat) : (s.satFld f n).icache = s.icache := rfl
@[simp] theorem State.descs_satFld (s : State) (f : Field) (n : Nat) : (s.satFld f n).descs = s.descs := rfl
@[simp] theorem State.xlt_satFld (s : State) (f : Field) (n : Nat) : (s.satFld f n).xlt = s.xlt := rfl
@[simp] theorem State.siv_satFld (s : State) (f : Field) (n : Nat) : (s.satFld f n).siv = s.siv := rfl
@[simp] theorem State.skids_satFld (s : State) (f : Field) (n : Nat) : (s.satFld f n).skids = s.skids := rfl
@[simp] theorem State.slots_satFld (s : State) (f : Field) (n : Nat) : (s.satFld f n).slots = s.slots := rfl
@[simp] theorem State.home_satFld (s : State) (f : Field) (n : Nat) : (s.satFld f n).home = s.home := rfl
@[simp] theorem State.swc_satFld (s : State) (f : Field) (n : Nat) : (s.satFld f n).swc = s.swc := rfl
@[simp] theorem State.rel_satFld (s : State) (f : Field) (n : Nat) : (s.satFld f n).rel = s.rel := rfl
@[simp] theorem State.pwr_satFld (s : State) (f : Field) (n : Nat) : (s.satFld f n).pwr = s.pwr := rfl
@[simp] theorem State.hst_satFld (s : State) (f : Field) (n : Nat) : (s.satFld f n).hst = s.hst := rfl
@[simp] theorem State.sec_satFld (s : State) (f : Field) (n : Nat) : (s.satFld f n).sec = s.sec := rfl
@[simp] theorem State.ldl_satFld (s : State) (f : Field) (n : Nat) : (s.satFld f n).ldl = s.ldl := rfl
@[simp] theorem State.col_satFld (s : State) (f : Field) (n : Nat) : (s.satFld f n).col = s.col := rfl
@[simp] theorem State.tel_satFld (s : State) (f : Field) (n : Nat) : (s.satFld f n).tel = s.tel := rfl
@[simp] theorem State.tim_satFld (s : State) (f : Field) (n : Nat) : (s.satFld f n).tim = s.tim := rfl
@[simp] theorem State.cru_satFld (s : State) (f : Field) (n : Nat) : (s.satFld f n).cru = s.cru := rfl
@[simp] theorem State.opt_satFld (s : State) (f : Field) (n : Nat) : (s.satFld f n).opt = s.opt := rfl
@[simp] theorem State.elk_satFld (s : State) (f : Field) (n : Nat) : (s.satFld f n).elk = s.elk := rfl
@[simp] theorem State.mgt_satFld (s : State) (f : Field) (n : Nat) : (s.satFld f n).mgt = s.mgt := rfl
@[simp] theorem State.jtag_satFld (s : State) (f : Field) (n : Nat) : (s.satFld f n).jtag = s.jtag := rfl
@[simp] theorem State.issued_satFld (s : State) (f : Field) (n : Nat) : (s.satFld f n).issued = s.issued := rfl
@[simp] theorem State.free_satFld (s : State) (f : Field) (n : Nat) : (s.satFld f n).free = s.free := rfl
@[simp] theorem State.out_satFld (s : State) (f : Field) (n : Nat) : (s.satFld f n).out = s.out := rfl
@[simp] theorem State.pending_satFld (s : State) (f : Field) (n : Nat) : (s.satFld f n).pending = s.pending := rfl
@[simp] theorem State.byte_satFld (s : State) (f : Field) (n : Nat) (j : Nat) : (s.satFld f n).byte j = s.byte j := rfl
@[simp] theorem State.thr_satFld (s : State) (f : Field) (n : Nat) (u : Nat) : (s.satFld f n).thr u = s.thr u := rfl

/-! ## State.setPc -/

@[simp] theorem State.hbm_setPc (s : State) (t n : Nat) : (s.setPc t n).hbm = s.hbm := rfl
@[simp] theorem State.units_setPc (s : State) (t n : Nat) : (s.setPc t n).units = s.units := rfl
@[simp] theorem State.poison_setPc (s : State) (t n : Nat) : (s.setPc t n).poison = s.poison := rfl
@[simp] theorem State.shadow_setPc (s : State) (t n : Nat) : (s.setPc t n).shadow = s.shadow := rfl
@[simp] theorem State.threads_setPc (s : State) (t n : Nat) : (s.setPc t n).threads = s.threads := rfl
@[simp] theorem State.watch_setPc (s : State) (t n : Nat) : (s.setPc t n).watch = s.watch := rfl
@[simp] theorem State.reports_setPc (s : State) (t n : Nat) : (s.setPc t n).reports = s.reports := rfl
@[simp] theorem State.icache_setPc (s : State) (t n : Nat) : (s.setPc t n).icache = s.icache := rfl
@[simp] theorem State.descs_setPc (s : State) (t n : Nat) : (s.setPc t n).descs = s.descs := rfl
@[simp] theorem State.xlt_setPc (s : State) (t n : Nat) : (s.setPc t n).xlt = s.xlt := rfl
@[simp] theorem State.siv_setPc (s : State) (t n : Nat) : (s.setPc t n).siv = s.siv := rfl
@[simp] theorem State.skids_setPc (s : State) (t n : Nat) : (s.setPc t n).skids = s.skids := rfl
@[simp] theorem State.slots_setPc (s : State) (t n : Nat) : (s.setPc t n).slots = s.slots := rfl
@[simp] theorem State.home_setPc (s : State) (t n : Nat) : (s.setPc t n).home = s.home := rfl
@[simp] theorem State.swc_setPc (s : State) (t n : Nat) : (s.setPc t n).swc = s.swc := rfl
@[simp] theorem State.rel_setPc (s : State) (t n : Nat) : (s.setPc t n).rel = s.rel := rfl
@[simp] theorem State.pwr_setPc (s : State) (t n : Nat) : (s.setPc t n).pwr = s.pwr := rfl
@[simp] theorem State.hst_setPc (s : State) (t n : Nat) : (s.setPc t n).hst = s.hst := rfl
@[simp] theorem State.sec_setPc (s : State) (t n : Nat) : (s.setPc t n).sec = s.sec := rfl
@[simp] theorem State.ldl_setPc (s : State) (t n : Nat) : (s.setPc t n).ldl = s.ldl := rfl
@[simp] theorem State.col_setPc (s : State) (t n : Nat) : (s.setPc t n).col = s.col := rfl
@[simp] theorem State.tel_setPc (s : State) (t n : Nat) : (s.setPc t n).tel = s.tel := rfl
@[simp] theorem State.tim_setPc (s : State) (t n : Nat) : (s.setPc t n).tim = s.tim := rfl
@[simp] theorem State.cru_setPc (s : State) (t n : Nat) : (s.setPc t n).cru = s.cru := rfl
@[simp] theorem State.opt_setPc (s : State) (t n : Nat) : (s.setPc t n).opt = s.opt := rfl
@[simp] theorem State.elk_setPc (s : State) (t n : Nat) : (s.setPc t n).elk = s.elk := rfl
@[simp] theorem State.mgt_setPc (s : State) (t n : Nat) : (s.setPc t n).mgt = s.mgt := rfl
@[simp] theorem State.jtag_setPc (s : State) (t n : Nat) : (s.setPc t n).jtag = s.jtag := rfl
@[simp] theorem State.issued_setPc (s : State) (t n : Nat) : (s.setPc t n).issued = s.issued := rfl
@[simp] theorem State.free_setPc (s : State) (t n : Nat) : (s.setPc t n).free = s.free := rfl
@[simp] theorem State.out_setPc (s : State) (t n : Nat) : (s.setPc t n).out = s.out := rfl
@[simp] theorem State.pending_setPc (s : State) (t n : Nat) : (s.setPc t n).pending = s.pending := rfl
@[simp] theorem State.byte_setPc (s : State) (t n : Nat) (j : Nat) : (s.setPc t n).byte j = s.byte j := rfl
@[simp] theorem State.thr_setPc (s : State) (t n : Nat) (u : Nat) : (s.setPc t n).thr u = s.thr u := rfl

/-! ## State.count -/

@[simp] theorem State.hbm_count (s : State) (f : Field) (n : Nat) : (s.count f n).hbm = s.hbm := rfl
@[simp] theorem State.units_count (s : State) (f : Field) (n : Nat) : (s.count f n).units = s.units := rfl
@[simp] theorem State.poison_count (s : State) (f : Field) (n : Nat) : (s.count f n).poison = s.poison := rfl
@[simp] theorem State.threads_count (s : State) (f : Field) (n : Nat) : (s.count f n).threads = s.threads := rfl
@[simp] theorem State.watch_count (s : State) (f : Field) (n : Nat) : (s.count f n).watch = s.watch := rfl
@[simp] theorem State.reports_count (s : State) (f : Field) (n : Nat) : (s.count f n).reports = s.reports := rfl
@[simp] theorem State.icache_count (s : State) (f : Field) (n : Nat) : (s.count f n).icache = s.icache := rfl
@[simp] theorem State.descs_count (s : State) (f : Field) (n : Nat) : (s.count f n).descs = s.descs := rfl
@[simp] theorem State.xlt_count (s : State) (f : Field) (n : Nat) : (s.count f n).xlt = s.xlt := rfl
@[simp] theorem State.siv_count (s : State) (f : Field) (n : Nat) : (s.count f n).siv = s.siv := rfl
@[simp] theorem State.skids_count (s : State) (f : Field) (n : Nat) : (s.count f n).skids = s.skids := rfl
@[simp] theorem State.slots_count (s : State) (f : Field) (n : Nat) : (s.count f n).slots = s.slots := rfl
@[simp] theorem State.home_count (s : State) (f : Field) (n : Nat) : (s.count f n).home = s.home := rfl
@[simp] theorem State.swc_count (s : State) (f : Field) (n : Nat) : (s.count f n).swc = s.swc := rfl
@[simp] theorem State.rel_count (s : State) (f : Field) (n : Nat) : (s.count f n).rel = s.rel := rfl
@[simp] theorem State.pwr_count (s : State) (f : Field) (n : Nat) : (s.count f n).pwr = s.pwr := rfl
@[simp] theorem State.hst_count (s : State) (f : Field) (n : Nat) : (s.count f n).hst = s.hst := rfl
@[simp] theorem State.sec_count (s : State) (f : Field) (n : Nat) : (s.count f n).sec = s.sec := rfl
@[simp] theorem State.ldl_count (s : State) (f : Field) (n : Nat) : (s.count f n).ldl = s.ldl := rfl
@[simp] theorem State.col_count (s : State) (f : Field) (n : Nat) : (s.count f n).col = s.col := rfl
@[simp] theorem State.tel_count (s : State) (f : Field) (n : Nat) : (s.count f n).tel = s.tel := rfl
@[simp] theorem State.tim_count (s : State) (f : Field) (n : Nat) : (s.count f n).tim = s.tim := rfl
@[simp] theorem State.cru_count (s : State) (f : Field) (n : Nat) : (s.count f n).cru = s.cru := rfl
@[simp] theorem State.opt_count (s : State) (f : Field) (n : Nat) : (s.count f n).opt = s.opt := rfl
@[simp] theorem State.elk_count (s : State) (f : Field) (n : Nat) : (s.count f n).elk = s.elk := rfl
@[simp] theorem State.mgt_count (s : State) (f : Field) (n : Nat) : (s.count f n).mgt = s.mgt := rfl
@[simp] theorem State.jtag_count (s : State) (f : Field) (n : Nat) : (s.count f n).jtag = s.jtag := rfl
@[simp] theorem State.issued_count (s : State) (f : Field) (n : Nat) : (s.count f n).issued = s.issued := rfl
@[simp] theorem State.free_count (s : State) (f : Field) (n : Nat) : (s.count f n).free = s.free := rfl
@[simp] theorem State.out_count (s : State) (f : Field) (n : Nat) : (s.count f n).out = s.out := rfl
@[simp] theorem State.pending_count (s : State) (f : Field) (n : Nat) : (s.count f n).pending = s.pending := rfl
@[simp] theorem State.byte_count (s : State) (f : Field) (n : Nat) (j : Nat) : (s.count f n).byte j = s.byte j := rfl
@[simp] theorem State.thr_count (s : State) (f : Field) (n : Nat) (u : Nat) : (s.count f n).thr u = s.thr u := rfl

/-! ## State.tally -/

@[simp] theorem State.regs_tally (s : State) (k n : Nat) : (s.tally k n).regs = s.regs := rfl
@[simp] theorem State.hbm_tally (s : State) (k n : Nat) : (s.tally k n).hbm = s.hbm := rfl
@[simp] theorem State.units_tally (s : State) (k n : Nat) : (s.tally k n).units = s.units := rfl
@[simp] theorem State.poison_tally (s : State) (k n : Nat) : (s.tally k n).poison = s.poison := rfl
@[simp] theorem State.shadow_tally (s : State) (k n : Nat) : (s.tally k n).shadow = s.shadow := rfl
@[simp] theorem State.threads_tally (s : State) (k n : Nat) : (s.tally k n).threads = s.threads := rfl
@[simp] theorem State.watch_tally (s : State) (k n : Nat) : (s.tally k n).watch = s.watch := rfl
@[simp] theorem State.reports_tally (s : State) (k n : Nat) : (s.tally k n).reports = s.reports := rfl
@[simp] theorem State.icache_tally (s : State) (k n : Nat) : (s.tally k n).icache = s.icache := rfl
@[simp] theorem State.descs_tally (s : State) (k n : Nat) : (s.tally k n).descs = s.descs := rfl
@[simp] theorem State.xlt_tally (s : State) (k n : Nat) : (s.tally k n).xlt = s.xlt := rfl
@[simp] theorem State.siv_tally (s : State) (k n : Nat) : (s.tally k n).siv = s.siv := rfl
@[simp] theorem State.skids_tally (s : State) (k n : Nat) : (s.tally k n).skids = s.skids := rfl
@[simp] theorem State.slots_tally (s : State) (k n : Nat) : (s.tally k n).slots = s.slots := rfl
@[simp] theorem State.home_tally (s : State) (k n : Nat) : (s.tally k n).home = s.home := rfl
@[simp] theorem State.swc_tally (s : State) (k n : Nat) : (s.tally k n).swc = s.swc := rfl
@[simp] theorem State.rel_tally (s : State) (k n : Nat) : (s.tally k n).rel = s.rel := rfl
@[simp] theorem State.pwr_tally (s : State) (k n : Nat) : (s.tally k n).pwr = s.pwr := rfl
@[simp] theorem State.hst_tally (s : State) (k n : Nat) : (s.tally k n).hst = s.hst := rfl
@[simp] theorem State.sec_tally (s : State) (k n : Nat) : (s.tally k n).sec = s.sec := rfl
@[simp] theorem State.ldl_tally (s : State) (k n : Nat) : (s.tally k n).ldl = s.ldl := rfl
@[simp] theorem State.col_tally (s : State) (k n : Nat) : (s.tally k n).col = s.col := rfl
@[simp] theorem State.tim_tally (s : State) (k n : Nat) : (s.tally k n).tim = s.tim := rfl
@[simp] theorem State.cru_tally (s : State) (k n : Nat) : (s.tally k n).cru = s.cru := rfl
@[simp] theorem State.opt_tally (s : State) (k n : Nat) : (s.tally k n).opt = s.opt := rfl
@[simp] theorem State.elk_tally (s : State) (k n : Nat) : (s.tally k n).elk = s.elk := rfl
@[simp] theorem State.mgt_tally (s : State) (k n : Nat) : (s.tally k n).mgt = s.mgt := rfl
@[simp] theorem State.jtag_tally (s : State) (k n : Nat) : (s.tally k n).jtag = s.jtag := rfl
@[simp] theorem State.issued_tally (s : State) (k n : Nat) : (s.tally k n).issued = s.issued := rfl
@[simp] theorem State.free_tally (s : State) (k n : Nat) : (s.tally k n).free = s.free := rfl
@[simp] theorem State.out_tally (s : State) (k n : Nat) : (s.tally k n).out = s.out := rfl
@[simp] theorem State.pending_tally (s : State) (k n : Nat) : (s.tally k n).pending = s.pending := rfl
@[simp] theorem State.reg_tally (s : State) (k n : Nat) (p : Nat) : (s.tally k n).reg p = s.reg p := rfl
@[simp] theorem State.fld_tally (s : State) (k n : Nat) (g : Field) : (s.tally k n).fld g = s.fld g := rfl
@[simp] theorem State.flag_tally (s : State) (k n : Nat) (g : Field) : (s.tally k n).flag g = s.flag g := rfl
@[simp] theorem State.tick_tally (s : State) (k n : Nat) : (s.tally k n).tick = s.tick := rfl
@[simp] theorem State.byte_tally (s : State) (k n : Nat) (j : Nat) : (s.tally k n).byte j = s.byte j := rfl
@[simp] theorem State.thr_tally (s : State) (k n : Nat) (u : Nat) : (s.tally k n).thr u = s.thr u := rfl

/-! ## State.send -/

@[simp] theorem State.regs_send (s : State) (x : Output) : (s.send x).regs = s.regs := rfl
@[simp] theorem State.hbm_send (s : State) (x : Output) : (s.send x).hbm = s.hbm := rfl
@[simp] theorem State.units_send (s : State) (x : Output) : (s.send x).units = s.units := rfl
@[simp] theorem State.poison_send (s : State) (x : Output) : (s.send x).poison = s.poison := rfl
@[simp] theorem State.shadow_send (s : State) (x : Output) : (s.send x).shadow = s.shadow := rfl
@[simp] theorem State.threads_send (s : State) (x : Output) : (s.send x).threads = s.threads := rfl
@[simp] theorem State.watch_send (s : State) (x : Output) : (s.send x).watch = s.watch := rfl
@[simp] theorem State.reports_send (s : State) (x : Output) : (s.send x).reports = s.reports := rfl
@[simp] theorem State.icache_send (s : State) (x : Output) : (s.send x).icache = s.icache := rfl
@[simp] theorem State.descs_send (s : State) (x : Output) : (s.send x).descs = s.descs := rfl
@[simp] theorem State.xlt_send (s : State) (x : Output) : (s.send x).xlt = s.xlt := rfl
@[simp] theorem State.siv_send (s : State) (x : Output) : (s.send x).siv = s.siv := rfl
@[simp] theorem State.skids_send (s : State) (x : Output) : (s.send x).skids = s.skids := rfl
@[simp] theorem State.slots_send (s : State) (x : Output) : (s.send x).slots = s.slots := rfl
@[simp] theorem State.home_send (s : State) (x : Output) : (s.send x).home = s.home := rfl
@[simp] theorem State.swc_send (s : State) (x : Output) : (s.send x).swc = s.swc := rfl
@[simp] theorem State.rel_send (s : State) (x : Output) : (s.send x).rel = s.rel := rfl
@[simp] theorem State.pwr_send (s : State) (x : Output) : (s.send x).pwr = s.pwr := rfl
@[simp] theorem State.hst_send (s : State) (x : Output) : (s.send x).hst = s.hst := rfl
@[simp] theorem State.sec_send (s : State) (x : Output) : (s.send x).sec = s.sec := rfl
@[simp] theorem State.ldl_send (s : State) (x : Output) : (s.send x).ldl = s.ldl := rfl
@[simp] theorem State.col_send (s : State) (x : Output) : (s.send x).col = s.col := rfl
@[simp] theorem State.tel_send (s : State) (x : Output) : (s.send x).tel = s.tel := rfl
@[simp] theorem State.tim_send (s : State) (x : Output) : (s.send x).tim = s.tim := rfl
@[simp] theorem State.cru_send (s : State) (x : Output) : (s.send x).cru = s.cru := rfl
@[simp] theorem State.opt_send (s : State) (x : Output) : (s.send x).opt = s.opt := rfl
@[simp] theorem State.elk_send (s : State) (x : Output) : (s.send x).elk = s.elk := rfl
@[simp] theorem State.mgt_send (s : State) (x : Output) : (s.send x).mgt = s.mgt := rfl
@[simp] theorem State.jtag_send (s : State) (x : Output) : (s.send x).jtag = s.jtag := rfl
@[simp] theorem State.issued_send (s : State) (x : Output) : (s.send x).issued = s.issued := rfl
@[simp] theorem State.free_send (s : State) (x : Output) : (s.send x).free = s.free := rfl
@[simp] theorem State.pending_send (s : State) (x : Output) : (s.send x).pending = s.pending := rfl
@[simp] theorem State.reg_send (s : State) (x : Output) (p : Nat) : (s.send x).reg p = s.reg p := rfl
@[simp] theorem State.fld_send (s : State) (x : Output) (g : Field) : (s.send x).fld g = s.fld g := rfl
@[simp] theorem State.flag_send (s : State) (x : Output) (g : Field) : (s.send x).flag g = s.flag g := rfl
@[simp] theorem State.tick_send (s : State) (x : Output) : (s.send x).tick = s.tick := rfl
@[simp] theorem State.byte_send (s : State) (x : Output) (j : Nat) : (s.send x).byte j = s.byte j := rfl
@[simp] theorem State.thr_send (s : State) (x : Output) (u : Nat) : (s.send x).thr u = s.thr u := rfl

/-! ## State.fresh -/

@[simp] theorem State.regs_fresh (s : State) : (s.fresh.2).regs = s.regs := rfl
@[simp] theorem State.hbm_fresh (s : State) : (s.fresh.2).hbm = s.hbm := rfl
@[simp] theorem State.units_fresh (s : State) : (s.fresh.2).units = s.units := rfl
@[simp] theorem State.poison_fresh (s : State) : (s.fresh.2).poison = s.poison := rfl
@[simp] theorem State.shadow_fresh (s : State) : (s.fresh.2).shadow = s.shadow := rfl
@[simp] theorem State.threads_fresh (s : State) : (s.fresh.2).threads = s.threads := rfl
@[simp] theorem State.watch_fresh (s : State) : (s.fresh.2).watch = s.watch := rfl
@[simp] theorem State.reports_fresh (s : State) : (s.fresh.2).reports = s.reports := rfl
@[simp] theorem State.icache_fresh (s : State) : (s.fresh.2).icache = s.icache := rfl
@[simp] theorem State.descs_fresh (s : State) : (s.fresh.2).descs = s.descs := rfl
@[simp] theorem State.xlt_fresh (s : State) : (s.fresh.2).xlt = s.xlt := rfl
@[simp] theorem State.siv_fresh (s : State) : (s.fresh.2).siv = s.siv := rfl
@[simp] theorem State.skids_fresh (s : State) : (s.fresh.2).skids = s.skids := rfl
@[simp] theorem State.slots_fresh (s : State) : (s.fresh.2).slots = s.slots := rfl
@[simp] theorem State.home_fresh (s : State) : (s.fresh.2).home = s.home := rfl
@[simp] theorem State.swc_fresh (s : State) : (s.fresh.2).swc = s.swc := rfl
@[simp] theorem State.rel_fresh (s : State) : (s.fresh.2).rel = s.rel := rfl
@[simp] theorem State.pwr_fresh (s : State) : (s.fresh.2).pwr = s.pwr := rfl
@[simp] theorem State.hst_fresh (s : State) : (s.fresh.2).hst = s.hst := rfl
@[simp] theorem State.sec_fresh (s : State) : (s.fresh.2).sec = s.sec := rfl
@[simp] theorem State.ldl_fresh (s : State) : (s.fresh.2).ldl = s.ldl := rfl
@[simp] theorem State.col_fresh (s : State) : (s.fresh.2).col = s.col := rfl
@[simp] theorem State.tel_fresh (s : State) : (s.fresh.2).tel = s.tel := rfl
@[simp] theorem State.tim_fresh (s : State) : (s.fresh.2).tim = s.tim := rfl
@[simp] theorem State.cru_fresh (s : State) : (s.fresh.2).cru = s.cru := rfl
@[simp] theorem State.opt_fresh (s : State) : (s.fresh.2).opt = s.opt := rfl
@[simp] theorem State.elk_fresh (s : State) : (s.fresh.2).elk = s.elk := rfl
@[simp] theorem State.mgt_fresh (s : State) : (s.fresh.2).mgt = s.mgt := rfl
@[simp] theorem State.jtag_fresh (s : State) : (s.fresh.2).jtag = s.jtag := rfl
@[simp] theorem State.issued_fresh (s : State) : (s.fresh.2).issued = s.issued := rfl
@[simp] theorem State.out_fresh (s : State) : (s.fresh.2).out = s.out := rfl
@[simp] theorem State.pending_fresh (s : State) : (s.fresh.2).pending = s.pending := rfl
@[simp] theorem State.reg_fresh (s : State) (p : Nat) : (s.fresh.2).reg p = s.reg p := rfl
@[simp] theorem State.fld_fresh (s : State) (g : Field) : (s.fresh.2).fld g = s.fld g := rfl
@[simp] theorem State.flag_fresh (s : State) (g : Field) : (s.fresh.2).flag g = s.flag g := rfl
@[simp] theorem State.tick_fresh (s : State) : (s.fresh.2).tick = s.tick := rfl
@[simp] theorem State.byte_fresh (s : State) (j : Nat) : (s.fresh.2).byte j = s.byte j := rfl
@[simp] theorem State.thr_fresh (s : State) (u : Nat) : (s.fresh.2).thr u = s.thr u := rfl

/-! ## State.setMsix -/

@[simp] theorem State.regs_setMsix (s : State) (n : Nat) (m : Msix) : (s.setMsix n m).regs = s.regs := rfl
@[simp] theorem State.hbm_setMsix (s : State) (n : Nat) (m : Msix) : (s.setMsix n m).hbm = s.hbm := rfl
@[simp] theorem State.units_setMsix (s : State) (n : Nat) (m : Msix) : (s.setMsix n m).units = s.units := rfl
@[simp] theorem State.poison_setMsix (s : State) (n : Nat) (m : Msix) : (s.setMsix n m).poison = s.poison := rfl
@[simp] theorem State.shadow_setMsix (s : State) (n : Nat) (m : Msix) : (s.setMsix n m).shadow = s.shadow := rfl
@[simp] theorem State.threads_setMsix (s : State) (n : Nat) (m : Msix) : (s.setMsix n m).threads = s.threads := rfl
@[simp] theorem State.watch_setMsix (s : State) (n : Nat) (m : Msix) : (s.setMsix n m).watch = s.watch := rfl
@[simp] theorem State.reports_setMsix (s : State) (n : Nat) (m : Msix) : (s.setMsix n m).reports = s.reports := rfl
@[simp] theorem State.icache_setMsix (s : State) (n : Nat) (m : Msix) : (s.setMsix n m).icache = s.icache := rfl
@[simp] theorem State.descs_setMsix (s : State) (n : Nat) (m : Msix) : (s.setMsix n m).descs = s.descs := rfl
@[simp] theorem State.xlt_setMsix (s : State) (n : Nat) (m : Msix) : (s.setMsix n m).xlt = s.xlt := rfl
@[simp] theorem State.siv_setMsix (s : State) (n : Nat) (m : Msix) : (s.setMsix n m).siv = s.siv := rfl
@[simp] theorem State.skids_setMsix (s : State) (n : Nat) (m : Msix) : (s.setMsix n m).skids = s.skids := rfl
@[simp] theorem State.slots_setMsix (s : State) (n : Nat) (m : Msix) : (s.setMsix n m).slots = s.slots := rfl
@[simp] theorem State.home_setMsix (s : State) (n : Nat) (m : Msix) : (s.setMsix n m).home = s.home := rfl
@[simp] theorem State.swc_setMsix (s : State) (n : Nat) (m : Msix) : (s.setMsix n m).swc = s.swc := rfl
@[simp] theorem State.rel_setMsix (s : State) (n : Nat) (m : Msix) : (s.setMsix n m).rel = s.rel := rfl
@[simp] theorem State.pwr_setMsix (s : State) (n : Nat) (m : Msix) : (s.setMsix n m).pwr = s.pwr := rfl
@[simp] theorem State.sec_setMsix (s : State) (n : Nat) (m : Msix) : (s.setMsix n m).sec = s.sec := rfl
@[simp] theorem State.ldl_setMsix (s : State) (n : Nat) (m : Msix) : (s.setMsix n m).ldl = s.ldl := rfl
@[simp] theorem State.col_setMsix (s : State) (n : Nat) (m : Msix) : (s.setMsix n m).col = s.col := rfl
@[simp] theorem State.tel_setMsix (s : State) (n : Nat) (m : Msix) : (s.setMsix n m).tel = s.tel := rfl
@[simp] theorem State.tim_setMsix (s : State) (n : Nat) (m : Msix) : (s.setMsix n m).tim = s.tim := rfl
@[simp] theorem State.cru_setMsix (s : State) (n : Nat) (m : Msix) : (s.setMsix n m).cru = s.cru := rfl
@[simp] theorem State.opt_setMsix (s : State) (n : Nat) (m : Msix) : (s.setMsix n m).opt = s.opt := rfl
@[simp] theorem State.elk_setMsix (s : State) (n : Nat) (m : Msix) : (s.setMsix n m).elk = s.elk := rfl
@[simp] theorem State.mgt_setMsix (s : State) (n : Nat) (m : Msix) : (s.setMsix n m).mgt = s.mgt := rfl
@[simp] theorem State.jtag_setMsix (s : State) (n : Nat) (m : Msix) : (s.setMsix n m).jtag = s.jtag := rfl
@[simp] theorem State.issued_setMsix (s : State) (n : Nat) (m : Msix) : (s.setMsix n m).issued = s.issued := rfl
@[simp] theorem State.free_setMsix (s : State) (n : Nat) (m : Msix) : (s.setMsix n m).free = s.free := rfl
@[simp] theorem State.out_setMsix (s : State) (n : Nat) (m : Msix) : (s.setMsix n m).out = s.out := rfl
@[simp] theorem State.pending_setMsix (s : State) (n : Nat) (m : Msix) : (s.setMsix n m).pending = s.pending := rfl
@[simp] theorem State.reg_setMsix (s : State) (n : Nat) (m : Msix) (p : Nat) : (s.setMsix n m).reg p = s.reg p := rfl
@[simp] theorem State.fld_setMsix (s : State) (n : Nat) (m : Msix) (g : Field) : (s.setMsix n m).fld g = s.fld g := rfl
@[simp] theorem State.flag_setMsix (s : State) (n : Nat) (m : Msix) (g : Field) : (s.setMsix n m).flag g = s.flag g := rfl
@[simp] theorem State.tick_setMsix (s : State) (n : Nat) (m : Msix) : (s.setMsix n m).tick = s.tick := rfl
@[simp] theorem State.byte_setMsix (s : State) (n : Nat) (m : Msix) (j : Nat) : (s.setMsix n m).byte j = s.byte j := rfl
@[simp] theorem State.thr_setMsix (s : State) (n : Nat) (m : Msix) (u : Nat) : (s.setMsix n m).thr u = s.thr u := rfl

/-! ## State.setPoison -/

@[simp] theorem State.regs_setPoison (s : State) (h : Nat) (v : Bool) : (s.setPoison h v).regs = s.regs := rfl
@[simp] theorem State.hbm_setPoison (s : State) (h : Nat) (v : Bool) : (s.setPoison h v).hbm = s.hbm := rfl
@[simp] theorem State.units_setPoison (s : State) (h : Nat) (v : Bool) : (s.setPoison h v).units = s.units := rfl
@[simp] theorem State.shadow_setPoison (s : State) (h : Nat) (v : Bool) : (s.setPoison h v).shadow = s.shadow := rfl
@[simp] theorem State.threads_setPoison (s : State) (h : Nat) (v : Bool) : (s.setPoison h v).threads = s.threads := rfl
@[simp] theorem State.watch_setPoison (s : State) (h : Nat) (v : Bool) : (s.setPoison h v).watch = s.watch := rfl
@[simp] theorem State.reports_setPoison (s : State) (h : Nat) (v : Bool) : (s.setPoison h v).reports = s.reports := rfl
@[simp] theorem State.icache_setPoison (s : State) (h : Nat) (v : Bool) : (s.setPoison h v).icache = s.icache := rfl
@[simp] theorem State.descs_setPoison (s : State) (h : Nat) (v : Bool) : (s.setPoison h v).descs = s.descs := rfl
@[simp] theorem State.xlt_setPoison (s : State) (h : Nat) (v : Bool) : (s.setPoison h v).xlt = s.xlt := rfl
@[simp] theorem State.siv_setPoison (s : State) (h : Nat) (v : Bool) : (s.setPoison h v).siv = s.siv := rfl
@[simp] theorem State.skids_setPoison (s : State) (h : Nat) (v : Bool) : (s.setPoison h v).skids = s.skids := rfl
@[simp] theorem State.slots_setPoison (s : State) (h : Nat) (v : Bool) : (s.setPoison h v).slots = s.slots := rfl
@[simp] theorem State.home_setPoison (s : State) (h : Nat) (v : Bool) : (s.setPoison h v).home = s.home := rfl
@[simp] theorem State.swc_setPoison (s : State) (h : Nat) (v : Bool) : (s.setPoison h v).swc = s.swc := rfl
@[simp] theorem State.rel_setPoison (s : State) (h : Nat) (v : Bool) : (s.setPoison h v).rel = s.rel := rfl
@[simp] theorem State.pwr_setPoison (s : State) (h : Nat) (v : Bool) : (s.setPoison h v).pwr = s.pwr := rfl
@[simp] theorem State.hst_setPoison (s : State) (h : Nat) (v : Bool) : (s.setPoison h v).hst = s.hst := rfl
@[simp] theorem State.sec_setPoison (s : State) (h : Nat) (v : Bool) : (s.setPoison h v).sec = s.sec := rfl
@[simp] theorem State.ldl_setPoison (s : State) (h : Nat) (v : Bool) : (s.setPoison h v).ldl = s.ldl := rfl
@[simp] theorem State.col_setPoison (s : State) (h : Nat) (v : Bool) : (s.setPoison h v).col = s.col := rfl
@[simp] theorem State.tel_setPoison (s : State) (h : Nat) (v : Bool) : (s.setPoison h v).tel = s.tel := rfl
@[simp] theorem State.tim_setPoison (s : State) (h : Nat) (v : Bool) : (s.setPoison h v).tim = s.tim := rfl
@[simp] theorem State.cru_setPoison (s : State) (h : Nat) (v : Bool) : (s.setPoison h v).cru = s.cru := rfl
@[simp] theorem State.opt_setPoison (s : State) (h : Nat) (v : Bool) : (s.setPoison h v).opt = s.opt := rfl
@[simp] theorem State.elk_setPoison (s : State) (h : Nat) (v : Bool) : (s.setPoison h v).elk = s.elk := rfl
@[simp] theorem State.mgt_setPoison (s : State) (h : Nat) (v : Bool) : (s.setPoison h v).mgt = s.mgt := rfl
@[simp] theorem State.jtag_setPoison (s : State) (h : Nat) (v : Bool) : (s.setPoison h v).jtag = s.jtag := rfl
@[simp] theorem State.issued_setPoison (s : State) (h : Nat) (v : Bool) : (s.setPoison h v).issued = s.issued := rfl
@[simp] theorem State.free_setPoison (s : State) (h : Nat) (v : Bool) : (s.setPoison h v).free = s.free := rfl
@[simp] theorem State.out_setPoison (s : State) (h : Nat) (v : Bool) : (s.setPoison h v).out = s.out := rfl
@[simp] theorem State.pending_setPoison (s : State) (h : Nat) (v : Bool) : (s.setPoison h v).pending = s.pending := rfl
@[simp] theorem State.reg_setPoison (s : State) (h : Nat) (v : Bool) (p : Nat) : (s.setPoison h v).reg p = s.reg p := rfl
@[simp] theorem State.fld_setPoison (s : State) (h : Nat) (v : Bool) (g : Field) : (s.setPoison h v).fld g = s.fld g := rfl
@[simp] theorem State.flag_setPoison (s : State) (h : Nat) (v : Bool) (g : Field) : (s.setPoison h v).flag g = s.flag g := rfl
@[simp] theorem State.tick_setPoison (s : State) (h : Nat) (v : Bool) : (s.setPoison h v).tick = s.tick := rfl
@[simp] theorem State.byte_setPoison (s : State) (h : Nat) (v : Bool) (j : Nat) : (s.setPoison h v).byte j = s.byte j := rfl
@[simp] theorem State.thr_setPoison (s : State) (h : Nat) (v : Bool) (u : Nat) : (s.setPoison h v).thr u = s.thr u := rfl

/-! ## State.report -/

@[simp] theorem State.regs_report (s : State) (h : Nat) : (s.report h).regs = s.regs := rfl
@[simp] theorem State.hbm_report (s : State) (h : Nat) : (s.report h).hbm = s.hbm := rfl
@[simp] theorem State.units_report (s : State) (h : Nat) : (s.report h).units = s.units := rfl
@[simp] theorem State.poison_report (s : State) (h : Nat) : (s.report h).poison = s.poison := rfl
@[simp] theorem State.shadow_report (s : State) (h : Nat) : (s.report h).shadow = s.shadow := rfl
@[simp] theorem State.threads_report (s : State) (h : Nat) : (s.report h).threads = s.threads := rfl
@[simp] theorem State.watch_report (s : State) (h : Nat) : (s.report h).watch = s.watch := rfl
@[simp] theorem State.icache_report (s : State) (h : Nat) : (s.report h).icache = s.icache := rfl
@[simp] theorem State.descs_report (s : State) (h : Nat) : (s.report h).descs = s.descs := rfl
@[simp] theorem State.xlt_report (s : State) (h : Nat) : (s.report h).xlt = s.xlt := rfl
@[simp] theorem State.siv_report (s : State) (h : Nat) : (s.report h).siv = s.siv := rfl
@[simp] theorem State.skids_report (s : State) (h : Nat) : (s.report h).skids = s.skids := rfl
@[simp] theorem State.slots_report (s : State) (h : Nat) : (s.report h).slots = s.slots := rfl
@[simp] theorem State.home_report (s : State) (h : Nat) : (s.report h).home = s.home := rfl
@[simp] theorem State.swc_report (s : State) (h : Nat) : (s.report h).swc = s.swc := rfl
@[simp] theorem State.rel_report (s : State) (h : Nat) : (s.report h).rel = s.rel := rfl
@[simp] theorem State.pwr_report (s : State) (h : Nat) : (s.report h).pwr = s.pwr := rfl
@[simp] theorem State.hst_report (s : State) (h : Nat) : (s.report h).hst = s.hst := rfl
@[simp] theorem State.sec_report (s : State) (h : Nat) : (s.report h).sec = s.sec := rfl
@[simp] theorem State.ldl_report (s : State) (h : Nat) : (s.report h).ldl = s.ldl := rfl
@[simp] theorem State.col_report (s : State) (h : Nat) : (s.report h).col = s.col := rfl
@[simp] theorem State.tel_report (s : State) (h : Nat) : (s.report h).tel = s.tel := rfl
@[simp] theorem State.tim_report (s : State) (h : Nat) : (s.report h).tim = s.tim := rfl
@[simp] theorem State.cru_report (s : State) (h : Nat) : (s.report h).cru = s.cru := rfl
@[simp] theorem State.opt_report (s : State) (h : Nat) : (s.report h).opt = s.opt := rfl
@[simp] theorem State.elk_report (s : State) (h : Nat) : (s.report h).elk = s.elk := rfl
@[simp] theorem State.mgt_report (s : State) (h : Nat) : (s.report h).mgt = s.mgt := rfl
@[simp] theorem State.jtag_report (s : State) (h : Nat) : (s.report h).jtag = s.jtag := rfl
@[simp] theorem State.issued_report (s : State) (h : Nat) : (s.report h).issued = s.issued := rfl
@[simp] theorem State.free_report (s : State) (h : Nat) : (s.report h).free = s.free := rfl
@[simp] theorem State.out_report (s : State) (h : Nat) : (s.report h).out = s.out := rfl
@[simp] theorem State.pending_report (s : State) (h : Nat) : (s.report h).pending = s.pending := rfl
@[simp] theorem State.reg_report (s : State) (h : Nat) (p : Nat) : (s.report h).reg p = s.reg p := rfl
@[simp] theorem State.fld_report (s : State) (h : Nat) (g : Field) : (s.report h).fld g = s.fld g := rfl
@[simp] theorem State.flag_report (s : State) (h : Nat) (g : Field) : (s.report h).flag g = s.flag g := rfl
@[simp] theorem State.tick_report (s : State) (h : Nat) : (s.report h).tick = s.tick := rfl
@[simp] theorem State.byte_report (s : State) (h : Nat) (j : Nat) : (s.report h).byte j = s.byte j := rfl
@[simp] theorem State.thr_report (s : State) (h : Nat) (u : Nat) : (s.report h).thr u = s.thr u := rfl

/-! ## State.setThr -/

@[simp] theorem State.regs_setThr (s : State) (t : Nat) (x : Thread) : (s.setThr t x).regs = s.regs := rfl
@[simp] theorem State.hbm_setThr (s : State) (t : Nat) (x : Thread) : (s.setThr t x).hbm = s.hbm := rfl
@[simp] theorem State.units_setThr (s : State) (t : Nat) (x : Thread) : (s.setThr t x).units = s.units := rfl
@[simp] theorem State.poison_setThr (s : State) (t : Nat) (x : Thread) : (s.setThr t x).poison = s.poison := rfl
@[simp] theorem State.shadow_setThr (s : State) (t : Nat) (x : Thread) : (s.setThr t x).shadow = s.shadow := rfl
@[simp] theorem State.watch_setThr (s : State) (t : Nat) (x : Thread) : (s.setThr t x).watch = s.watch := rfl
@[simp] theorem State.reports_setThr (s : State) (t : Nat) (x : Thread) : (s.setThr t x).reports = s.reports := rfl
@[simp] theorem State.icache_setThr (s : State) (t : Nat) (x : Thread) : (s.setThr t x).icache = s.icache := rfl
@[simp] theorem State.descs_setThr (s : State) (t : Nat) (x : Thread) : (s.setThr t x).descs = s.descs := rfl
@[simp] theorem State.xlt_setThr (s : State) (t : Nat) (x : Thread) : (s.setThr t x).xlt = s.xlt := rfl
@[simp] theorem State.siv_setThr (s : State) (t : Nat) (x : Thread) : (s.setThr t x).siv = s.siv := rfl
@[simp] theorem State.skids_setThr (s : State) (t : Nat) (x : Thread) : (s.setThr t x).skids = s.skids := rfl
@[simp] theorem State.slots_setThr (s : State) (t : Nat) (x : Thread) : (s.setThr t x).slots = s.slots := rfl
@[simp] theorem State.home_setThr (s : State) (t : Nat) (x : Thread) : (s.setThr t x).home = s.home := rfl
@[simp] theorem State.swc_setThr (s : State) (t : Nat) (x : Thread) : (s.setThr t x).swc = s.swc := rfl
@[simp] theorem State.rel_setThr (s : State) (t : Nat) (x : Thread) : (s.setThr t x).rel = s.rel := rfl
@[simp] theorem State.pwr_setThr (s : State) (t : Nat) (x : Thread) : (s.setThr t x).pwr = s.pwr := rfl
@[simp] theorem State.hst_setThr (s : State) (t : Nat) (x : Thread) : (s.setThr t x).hst = s.hst := rfl
@[simp] theorem State.sec_setThr (s : State) (t : Nat) (x : Thread) : (s.setThr t x).sec = s.sec := rfl
@[simp] theorem State.ldl_setThr (s : State) (t : Nat) (x : Thread) : (s.setThr t x).ldl = s.ldl := rfl
@[simp] theorem State.col_setThr (s : State) (t : Nat) (x : Thread) : (s.setThr t x).col = s.col := rfl
@[simp] theorem State.tel_setThr (s : State) (t : Nat) (x : Thread) : (s.setThr t x).tel = s.tel := rfl
@[simp] theorem State.tim_setThr (s : State) (t : Nat) (x : Thread) : (s.setThr t x).tim = s.tim := rfl
@[simp] theorem State.cru_setThr (s : State) (t : Nat) (x : Thread) : (s.setThr t x).cru = s.cru := rfl
@[simp] theorem State.opt_setThr (s : State) (t : Nat) (x : Thread) : (s.setThr t x).opt = s.opt := rfl
@[simp] theorem State.elk_setThr (s : State) (t : Nat) (x : Thread) : (s.setThr t x).elk = s.elk := rfl
@[simp] theorem State.mgt_setThr (s : State) (t : Nat) (x : Thread) : (s.setThr t x).mgt = s.mgt := rfl
@[simp] theorem State.jtag_setThr (s : State) (t : Nat) (x : Thread) : (s.setThr t x).jtag = s.jtag := rfl
@[simp] theorem State.issued_setThr (s : State) (t : Nat) (x : Thread) : (s.setThr t x).issued = s.issued := rfl
@[simp] theorem State.free_setThr (s : State) (t : Nat) (x : Thread) : (s.setThr t x).free = s.free := rfl
@[simp] theorem State.out_setThr (s : State) (t : Nat) (x : Thread) : (s.setThr t x).out = s.out := rfl
@[simp] theorem State.pending_setThr (s : State) (t : Nat) (x : Thread) : (s.setThr t x).pending = s.pending := rfl
@[simp] theorem State.reg_setThr (s : State) (t : Nat) (x : Thread) (p : Nat) : (s.setThr t x).reg p = s.reg p := rfl
@[simp] theorem State.fld_setThr (s : State) (t : Nat) (x : Thread) (g : Field) : (s.setThr t x).fld g = s.fld g := rfl
@[simp] theorem State.flag_setThr (s : State) (t : Nat) (x : Thread) (g : Field) : (s.setThr t x).flag g = s.flag g := rfl
@[simp] theorem State.tick_setThr (s : State) (t : Nat) (x : Thread) : (s.setThr t x).tick = s.tick := rfl
@[simp] theorem State.byte_setThr (s : State) (t : Nat) (x : Thread) (j : Nat) : (s.setThr t x).byte j = s.byte j := rfl

/-! ## State.setWl -/

@[simp] theorem State.regs_setWl (s : State) (w : Nat) (x : Watch) : (s.setWl w x).regs = s.regs := rfl
@[simp] theorem State.hbm_setWl (s : State) (w : Nat) (x : Watch) : (s.setWl w x).hbm = s.hbm := rfl
@[simp] theorem State.units_setWl (s : State) (w : Nat) (x : Watch) : (s.setWl w x).units = s.units := rfl
@[simp] theorem State.poison_setWl (s : State) (w : Nat) (x : Watch) : (s.setWl w x).poison = s.poison := rfl
@[simp] theorem State.shadow_setWl (s : State) (w : Nat) (x : Watch) : (s.setWl w x).shadow = s.shadow := rfl
@[simp] theorem State.threads_setWl (s : State) (w : Nat) (x : Watch) : (s.setWl w x).threads = s.threads := rfl
@[simp] theorem State.reports_setWl (s : State) (w : Nat) (x : Watch) : (s.setWl w x).reports = s.reports := rfl
@[simp] theorem State.icache_setWl (s : State) (w : Nat) (x : Watch) : (s.setWl w x).icache = s.icache := rfl
@[simp] theorem State.descs_setWl (s : State) (w : Nat) (x : Watch) : (s.setWl w x).descs = s.descs := rfl
@[simp] theorem State.xlt_setWl (s : State) (w : Nat) (x : Watch) : (s.setWl w x).xlt = s.xlt := rfl
@[simp] theorem State.siv_setWl (s : State) (w : Nat) (x : Watch) : (s.setWl w x).siv = s.siv := rfl
@[simp] theorem State.skids_setWl (s : State) (w : Nat) (x : Watch) : (s.setWl w x).skids = s.skids := rfl
@[simp] theorem State.slots_setWl (s : State) (w : Nat) (x : Watch) : (s.setWl w x).slots = s.slots := rfl
@[simp] theorem State.home_setWl (s : State) (w : Nat) (x : Watch) : (s.setWl w x).home = s.home := rfl
@[simp] theorem State.swc_setWl (s : State) (w : Nat) (x : Watch) : (s.setWl w x).swc = s.swc := rfl
@[simp] theorem State.rel_setWl (s : State) (w : Nat) (x : Watch) : (s.setWl w x).rel = s.rel := rfl
@[simp] theorem State.pwr_setWl (s : State) (w : Nat) (x : Watch) : (s.setWl w x).pwr = s.pwr := rfl
@[simp] theorem State.hst_setWl (s : State) (w : Nat) (x : Watch) : (s.setWl w x).hst = s.hst := rfl
@[simp] theorem State.sec_setWl (s : State) (w : Nat) (x : Watch) : (s.setWl w x).sec = s.sec := rfl
@[simp] theorem State.ldl_setWl (s : State) (w : Nat) (x : Watch) : (s.setWl w x).ldl = s.ldl := rfl
@[simp] theorem State.col_setWl (s : State) (w : Nat) (x : Watch) : (s.setWl w x).col = s.col := rfl
@[simp] theorem State.tel_setWl (s : State) (w : Nat) (x : Watch) : (s.setWl w x).tel = s.tel := rfl
@[simp] theorem State.tim_setWl (s : State) (w : Nat) (x : Watch) : (s.setWl w x).tim = s.tim := rfl
@[simp] theorem State.cru_setWl (s : State) (w : Nat) (x : Watch) : (s.setWl w x).cru = s.cru := rfl
@[simp] theorem State.opt_setWl (s : State) (w : Nat) (x : Watch) : (s.setWl w x).opt = s.opt := rfl
@[simp] theorem State.elk_setWl (s : State) (w : Nat) (x : Watch) : (s.setWl w x).elk = s.elk := rfl
@[simp] theorem State.mgt_setWl (s : State) (w : Nat) (x : Watch) : (s.setWl w x).mgt = s.mgt := rfl
@[simp] theorem State.jtag_setWl (s : State) (w : Nat) (x : Watch) : (s.setWl w x).jtag = s.jtag := rfl
@[simp] theorem State.issued_setWl (s : State) (w : Nat) (x : Watch) : (s.setWl w x).issued = s.issued := rfl
@[simp] theorem State.free_setWl (s : State) (w : Nat) (x : Watch) : (s.setWl w x).free = s.free := rfl
@[simp] theorem State.out_setWl (s : State) (w : Nat) (x : Watch) : (s.setWl w x).out = s.out := rfl
@[simp] theorem State.pending_setWl (s : State) (w : Nat) (x : Watch) : (s.setWl w x).pending = s.pending := rfl
@[simp] theorem State.reg_setWl (s : State) (w : Nat) (x : Watch) (p : Nat) : (s.setWl w x).reg p = s.reg p := rfl
@[simp] theorem State.fld_setWl (s : State) (w : Nat) (x : Watch) (g : Field) : (s.setWl w x).fld g = s.fld g := rfl
@[simp] theorem State.flag_setWl (s : State) (w : Nat) (x : Watch) (g : Field) : (s.setWl w x).flag g = s.flag g := rfl
@[simp] theorem State.tick_setWl (s : State) (w : Nat) (x : Watch) : (s.setWl w x).tick = s.tick := rfl
@[simp] theorem State.byte_setWl (s : State) (w : Nat) (x : Watch) (j : Nat) : (s.setWl w x).byte j = s.byte j := rfl
@[simp] theorem State.thr_setWl (s : State) (w : Nat) (x : Watch) (u : Nat) : (s.setWl w x).thr u = s.thr u := rfl

/-! ## State.setSkid -/

@[simp] theorem State.regs_setSkid (s : State) (k : Nat) (x : Skid) : (s.setSkid k x).regs = s.regs := rfl
@[simp] theorem State.hbm_setSkid (s : State) (k : Nat) (x : Skid) : (s.setSkid k x).hbm = s.hbm := rfl
@[simp] theorem State.units_setSkid (s : State) (k : Nat) (x : Skid) : (s.setSkid k x).units = s.units := rfl
@[simp] theorem State.poison_setSkid (s : State) (k : Nat) (x : Skid) : (s.setSkid k x).poison = s.poison := rfl
@[simp] theorem State.shadow_setSkid (s : State) (k : Nat) (x : Skid) : (s.setSkid k x).shadow = s.shadow := rfl
@[simp] theorem State.threads_setSkid (s : State) (k : Nat) (x : Skid) : (s.setSkid k x).threads = s.threads := rfl
@[simp] theorem State.watch_setSkid (s : State) (k : Nat) (x : Skid) : (s.setSkid k x).watch = s.watch := rfl
@[simp] theorem State.reports_setSkid (s : State) (k : Nat) (x : Skid) : (s.setSkid k x).reports = s.reports := rfl
@[simp] theorem State.icache_setSkid (s : State) (k : Nat) (x : Skid) : (s.setSkid k x).icache = s.icache := rfl
@[simp] theorem State.descs_setSkid (s : State) (k : Nat) (x : Skid) : (s.setSkid k x).descs = s.descs := rfl
@[simp] theorem State.xlt_setSkid (s : State) (k : Nat) (x : Skid) : (s.setSkid k x).xlt = s.xlt := rfl
@[simp] theorem State.siv_setSkid (s : State) (k : Nat) (x : Skid) : (s.setSkid k x).siv = s.siv := rfl
@[simp] theorem State.slots_setSkid (s : State) (k : Nat) (x : Skid) : (s.setSkid k x).slots = s.slots := rfl
@[simp] theorem State.home_setSkid (s : State) (k : Nat) (x : Skid) : (s.setSkid k x).home = s.home := rfl
@[simp] theorem State.swc_setSkid (s : State) (k : Nat) (x : Skid) : (s.setSkid k x).swc = s.swc := rfl
@[simp] theorem State.rel_setSkid (s : State) (k : Nat) (x : Skid) : (s.setSkid k x).rel = s.rel := rfl
@[simp] theorem State.pwr_setSkid (s : State) (k : Nat) (x : Skid) : (s.setSkid k x).pwr = s.pwr := rfl
@[simp] theorem State.hst_setSkid (s : State) (k : Nat) (x : Skid) : (s.setSkid k x).hst = s.hst := rfl
@[simp] theorem State.sec_setSkid (s : State) (k : Nat) (x : Skid) : (s.setSkid k x).sec = s.sec := rfl
@[simp] theorem State.ldl_setSkid (s : State) (k : Nat) (x : Skid) : (s.setSkid k x).ldl = s.ldl := rfl
@[simp] theorem State.col_setSkid (s : State) (k : Nat) (x : Skid) : (s.setSkid k x).col = s.col := rfl
@[simp] theorem State.tel_setSkid (s : State) (k : Nat) (x : Skid) : (s.setSkid k x).tel = s.tel := rfl
@[simp] theorem State.tim_setSkid (s : State) (k : Nat) (x : Skid) : (s.setSkid k x).tim = s.tim := rfl
@[simp] theorem State.cru_setSkid (s : State) (k : Nat) (x : Skid) : (s.setSkid k x).cru = s.cru := rfl
@[simp] theorem State.opt_setSkid (s : State) (k : Nat) (x : Skid) : (s.setSkid k x).opt = s.opt := rfl
@[simp] theorem State.elk_setSkid (s : State) (k : Nat) (x : Skid) : (s.setSkid k x).elk = s.elk := rfl
@[simp] theorem State.mgt_setSkid (s : State) (k : Nat) (x : Skid) : (s.setSkid k x).mgt = s.mgt := rfl
@[simp] theorem State.jtag_setSkid (s : State) (k : Nat) (x : Skid) : (s.setSkid k x).jtag = s.jtag := rfl
@[simp] theorem State.issued_setSkid (s : State) (k : Nat) (x : Skid) : (s.setSkid k x).issued = s.issued := rfl
@[simp] theorem State.free_setSkid (s : State) (k : Nat) (x : Skid) : (s.setSkid k x).free = s.free := rfl
@[simp] theorem State.out_setSkid (s : State) (k : Nat) (x : Skid) : (s.setSkid k x).out = s.out := rfl
@[simp] theorem State.pending_setSkid (s : State) (k : Nat) (x : Skid) : (s.setSkid k x).pending = s.pending := rfl
@[simp] theorem State.reg_setSkid (s : State) (k : Nat) (x : Skid) (p : Nat) : (s.setSkid k x).reg p = s.reg p := rfl
@[simp] theorem State.fld_setSkid (s : State) (k : Nat) (x : Skid) (g : Field) : (s.setSkid k x).fld g = s.fld g := rfl
@[simp] theorem State.flag_setSkid (s : State) (k : Nat) (x : Skid) (g : Field) : (s.setSkid k x).flag g = s.flag g := rfl
@[simp] theorem State.tick_setSkid (s : State) (k : Nat) (x : Skid) : (s.setSkid k x).tick = s.tick := rfl
@[simp] theorem State.byte_setSkid (s : State) (k : Nat) (x : Skid) (j : Nat) : (s.setSkid k x).byte j = s.byte j := rfl
@[simp] theorem State.thr_setSkid (s : State) (k : Nat) (x : Skid) (u : Nat) : (s.setSkid k x).thr u = s.thr u := rfl

/-! ## State.setRlc -/

@[simp] theorem State.regs_setRlc (s : State) (l : List RlcLine) : (s.setRlc l).regs = s.regs := rfl
@[simp] theorem State.hbm_setRlc (s : State) (l : List RlcLine) : (s.setRlc l).hbm = s.hbm := rfl
@[simp] theorem State.units_setRlc (s : State) (l : List RlcLine) : (s.setRlc l).units = s.units := rfl
@[simp] theorem State.poison_setRlc (s : State) (l : List RlcLine) : (s.setRlc l).poison = s.poison := rfl
@[simp] theorem State.shadow_setRlc (s : State) (l : List RlcLine) : (s.setRlc l).shadow = s.shadow := rfl
@[simp] theorem State.threads_setRlc (s : State) (l : List RlcLine) : (s.setRlc l).threads = s.threads := rfl
@[simp] theorem State.watch_setRlc (s : State) (l : List RlcLine) : (s.setRlc l).watch = s.watch := rfl
@[simp] theorem State.reports_setRlc (s : State) (l : List RlcLine) : (s.setRlc l).reports = s.reports := rfl
@[simp] theorem State.icache_setRlc (s : State) (l : List RlcLine) : (s.setRlc l).icache = s.icache := rfl
@[simp] theorem State.descs_setRlc (s : State) (l : List RlcLine) : (s.setRlc l).descs = s.descs := rfl
@[simp] theorem State.xlt_setRlc (s : State) (l : List RlcLine) : (s.setRlc l).xlt = s.xlt := rfl
@[simp] theorem State.siv_setRlc (s : State) (l : List RlcLine) : (s.setRlc l).siv = s.siv := rfl
@[simp] theorem State.skids_setRlc (s : State) (l : List RlcLine) : (s.setRlc l).skids = s.skids := rfl
@[simp] theorem State.slots_setRlc (s : State) (l : List RlcLine) : (s.setRlc l).slots = s.slots := rfl
@[simp] theorem State.swc_setRlc (s : State) (l : List RlcLine) : (s.setRlc l).swc = s.swc := rfl
@[simp] theorem State.rel_setRlc (s : State) (l : List RlcLine) : (s.setRlc l).rel = s.rel := rfl
@[simp] theorem State.pwr_setRlc (s : State) (l : List RlcLine) : (s.setRlc l).pwr = s.pwr := rfl
@[simp] theorem State.hst_setRlc (s : State) (l : List RlcLine) : (s.setRlc l).hst = s.hst := rfl
@[simp] theorem State.sec_setRlc (s : State) (l : List RlcLine) : (s.setRlc l).sec = s.sec := rfl
@[simp] theorem State.ldl_setRlc (s : State) (l : List RlcLine) : (s.setRlc l).ldl = s.ldl := rfl
@[simp] theorem State.col_setRlc (s : State) (l : List RlcLine) : (s.setRlc l).col = s.col := rfl
@[simp] theorem State.tel_setRlc (s : State) (l : List RlcLine) : (s.setRlc l).tel = s.tel := rfl
@[simp] theorem State.tim_setRlc (s : State) (l : List RlcLine) : (s.setRlc l).tim = s.tim := rfl
@[simp] theorem State.cru_setRlc (s : State) (l : List RlcLine) : (s.setRlc l).cru = s.cru := rfl
@[simp] theorem State.opt_setRlc (s : State) (l : List RlcLine) : (s.setRlc l).opt = s.opt := rfl
@[simp] theorem State.elk_setRlc (s : State) (l : List RlcLine) : (s.setRlc l).elk = s.elk := rfl
@[simp] theorem State.mgt_setRlc (s : State) (l : List RlcLine) : (s.setRlc l).mgt = s.mgt := rfl
@[simp] theorem State.jtag_setRlc (s : State) (l : List RlcLine) : (s.setRlc l).jtag = s.jtag := rfl
@[simp] theorem State.issued_setRlc (s : State) (l : List RlcLine) : (s.setRlc l).issued = s.issued := rfl
@[simp] theorem State.free_setRlc (s : State) (l : List RlcLine) : (s.setRlc l).free = s.free := rfl
@[simp] theorem State.out_setRlc (s : State) (l : List RlcLine) : (s.setRlc l).out = s.out := rfl
@[simp] theorem State.pending_setRlc (s : State) (l : List RlcLine) : (s.setRlc l).pending = s.pending := rfl
@[simp] theorem State.reg_setRlc (s : State) (l : List RlcLine) (p : Nat) : (s.setRlc l).reg p = s.reg p := rfl
@[simp] theorem State.fld_setRlc (s : State) (l : List RlcLine) (g : Field) : (s.setRlc l).fld g = s.fld g := rfl
@[simp] theorem State.flag_setRlc (s : State) (l : List RlcLine) (g : Field) : (s.setRlc l).flag g = s.flag g := rfl
@[simp] theorem State.tick_setRlc (s : State) (l : List RlcLine) : (s.setRlc l).tick = s.tick := rfl
@[simp] theorem State.byte_setRlc (s : State) (l : List RlcLine) (j : Nat) : (s.setRlc l).byte j = s.byte j := rfl
@[simp] theorem State.thr_setRlc (s : State) (l : List RlcLine) (u : Nat) : (s.setRlc l).thr u = s.thr u := rfl

/-! ## State.setOpt -/

@[simp] theorem State.regs_setOpt (s : State) (x : OptState) : (s.setOpt x).regs = s.regs := rfl
@[simp] theorem State.hbm_setOpt (s : State) (x : OptState) : (s.setOpt x).hbm = s.hbm := rfl
@[simp] theorem State.units_setOpt (s : State) (x : OptState) : (s.setOpt x).units = s.units := rfl
@[simp] theorem State.poison_setOpt (s : State) (x : OptState) : (s.setOpt x).poison = s.poison := rfl
@[simp] theorem State.shadow_setOpt (s : State) (x : OptState) : (s.setOpt x).shadow = s.shadow := rfl
@[simp] theorem State.threads_setOpt (s : State) (x : OptState) : (s.setOpt x).threads = s.threads := rfl
@[simp] theorem State.watch_setOpt (s : State) (x : OptState) : (s.setOpt x).watch = s.watch := rfl
@[simp] theorem State.reports_setOpt (s : State) (x : OptState) : (s.setOpt x).reports = s.reports := rfl
@[simp] theorem State.icache_setOpt (s : State) (x : OptState) : (s.setOpt x).icache = s.icache := rfl
@[simp] theorem State.descs_setOpt (s : State) (x : OptState) : (s.setOpt x).descs = s.descs := rfl
@[simp] theorem State.xlt_setOpt (s : State) (x : OptState) : (s.setOpt x).xlt = s.xlt := rfl
@[simp] theorem State.siv_setOpt (s : State) (x : OptState) : (s.setOpt x).siv = s.siv := rfl
@[simp] theorem State.skids_setOpt (s : State) (x : OptState) : (s.setOpt x).skids = s.skids := rfl
@[simp] theorem State.slots_setOpt (s : State) (x : OptState) : (s.setOpt x).slots = s.slots := rfl
@[simp] theorem State.home_setOpt (s : State) (x : OptState) : (s.setOpt x).home = s.home := rfl
@[simp] theorem State.swc_setOpt (s : State) (x : OptState) : (s.setOpt x).swc = s.swc := rfl
@[simp] theorem State.rel_setOpt (s : State) (x : OptState) : (s.setOpt x).rel = s.rel := rfl
@[simp] theorem State.pwr_setOpt (s : State) (x : OptState) : (s.setOpt x).pwr = s.pwr := rfl
@[simp] theorem State.hst_setOpt (s : State) (x : OptState) : (s.setOpt x).hst = s.hst := rfl
@[simp] theorem State.sec_setOpt (s : State) (x : OptState) : (s.setOpt x).sec = s.sec := rfl
@[simp] theorem State.ldl_setOpt (s : State) (x : OptState) : (s.setOpt x).ldl = s.ldl := rfl
@[simp] theorem State.col_setOpt (s : State) (x : OptState) : (s.setOpt x).col = s.col := rfl
@[simp] theorem State.tel_setOpt (s : State) (x : OptState) : (s.setOpt x).tel = s.tel := rfl
@[simp] theorem State.tim_setOpt (s : State) (x : OptState) : (s.setOpt x).tim = s.tim := rfl
@[simp] theorem State.cru_setOpt (s : State) (x : OptState) : (s.setOpt x).cru = s.cru := rfl
@[simp] theorem State.elk_setOpt (s : State) (x : OptState) : (s.setOpt x).elk = s.elk := rfl
@[simp] theorem State.mgt_setOpt (s : State) (x : OptState) : (s.setOpt x).mgt = s.mgt := rfl
@[simp] theorem State.jtag_setOpt (s : State) (x : OptState) : (s.setOpt x).jtag = s.jtag := rfl
@[simp] theorem State.issued_setOpt (s : State) (x : OptState) : (s.setOpt x).issued = s.issued := rfl
@[simp] theorem State.free_setOpt (s : State) (x : OptState) : (s.setOpt x).free = s.free := rfl
@[simp] theorem State.out_setOpt (s : State) (x : OptState) : (s.setOpt x).out = s.out := rfl
@[simp] theorem State.pending_setOpt (s : State) (x : OptState) : (s.setOpt x).pending = s.pending := rfl
@[simp] theorem State.reg_setOpt (s : State) (x : OptState) (p : Nat) : (s.setOpt x).reg p = s.reg p := rfl
@[simp] theorem State.fld_setOpt (s : State) (x : OptState) (g : Field) : (s.setOpt x).fld g = s.fld g := rfl
@[simp] theorem State.flag_setOpt (s : State) (x : OptState) (g : Field) : (s.setOpt x).flag g = s.flag g := rfl
@[simp] theorem State.tick_setOpt (s : State) (x : OptState) : (s.setOpt x).tick = s.tick := rfl
@[simp] theorem State.byte_setOpt (s : State) (x : OptState) (j : Nat) : (s.setOpt x).byte j = s.byte j := rfl
@[simp] theorem State.thr_setOpt (s : State) (x : OptState) (u : Nat) : (s.setOpt x).thr u = s.thr u := rfl

/-! ## State.setTim -/

@[simp] theorem State.regs_setTim (s : State) (x : TimeState) : (s.setTim x).regs = s.regs := rfl
@[simp] theorem State.hbm_setTim (s : State) (x : TimeState) : (s.setTim x).hbm = s.hbm := rfl
@[simp] theorem State.units_setTim (s : State) (x : TimeState) : (s.setTim x).units = s.units := rfl
@[simp] theorem State.poison_setTim (s : State) (x : TimeState) : (s.setTim x).poison = s.poison := rfl
@[simp] theorem State.shadow_setTim (s : State) (x : TimeState) : (s.setTim x).shadow = s.shadow := rfl
@[simp] theorem State.threads_setTim (s : State) (x : TimeState) : (s.setTim x).threads = s.threads := rfl
@[simp] theorem State.watch_setTim (s : State) (x : TimeState) : (s.setTim x).watch = s.watch := rfl
@[simp] theorem State.reports_setTim (s : State) (x : TimeState) : (s.setTim x).reports = s.reports := rfl
@[simp] theorem State.icache_setTim (s : State) (x : TimeState) : (s.setTim x).icache = s.icache := rfl
@[simp] theorem State.descs_setTim (s : State) (x : TimeState) : (s.setTim x).descs = s.descs := rfl
@[simp] theorem State.xlt_setTim (s : State) (x : TimeState) : (s.setTim x).xlt = s.xlt := rfl
@[simp] theorem State.siv_setTim (s : State) (x : TimeState) : (s.setTim x).siv = s.siv := rfl
@[simp] theorem State.skids_setTim (s : State) (x : TimeState) : (s.setTim x).skids = s.skids := rfl
@[simp] theorem State.slots_setTim (s : State) (x : TimeState) : (s.setTim x).slots = s.slots := rfl
@[simp] theorem State.home_setTim (s : State) (x : TimeState) : (s.setTim x).home = s.home := rfl
@[simp] theorem State.swc_setTim (s : State) (x : TimeState) : (s.setTim x).swc = s.swc := rfl
@[simp] theorem State.rel_setTim (s : State) (x : TimeState) : (s.setTim x).rel = s.rel := rfl
@[simp] theorem State.pwr_setTim (s : State) (x : TimeState) : (s.setTim x).pwr = s.pwr := rfl
@[simp] theorem State.hst_setTim (s : State) (x : TimeState) : (s.setTim x).hst = s.hst := rfl
@[simp] theorem State.sec_setTim (s : State) (x : TimeState) : (s.setTim x).sec = s.sec := rfl
@[simp] theorem State.ldl_setTim (s : State) (x : TimeState) : (s.setTim x).ldl = s.ldl := rfl
@[simp] theorem State.col_setTim (s : State) (x : TimeState) : (s.setTim x).col = s.col := rfl
@[simp] theorem State.tel_setTim (s : State) (x : TimeState) : (s.setTim x).tel = s.tel := rfl
@[simp] theorem State.cru_setTim (s : State) (x : TimeState) : (s.setTim x).cru = s.cru := rfl
@[simp] theorem State.opt_setTim (s : State) (x : TimeState) : (s.setTim x).opt = s.opt := rfl
@[simp] theorem State.elk_setTim (s : State) (x : TimeState) : (s.setTim x).elk = s.elk := rfl
@[simp] theorem State.mgt_setTim (s : State) (x : TimeState) : (s.setTim x).mgt = s.mgt := rfl
@[simp] theorem State.jtag_setTim (s : State) (x : TimeState) : (s.setTim x).jtag = s.jtag := rfl
@[simp] theorem State.issued_setTim (s : State) (x : TimeState) : (s.setTim x).issued = s.issued := rfl
@[simp] theorem State.free_setTim (s : State) (x : TimeState) : (s.setTim x).free = s.free := rfl
@[simp] theorem State.out_setTim (s : State) (x : TimeState) : (s.setTim x).out = s.out := rfl
@[simp] theorem State.pending_setTim (s : State) (x : TimeState) : (s.setTim x).pending = s.pending := rfl
@[simp] theorem State.reg_setTim (s : State) (x : TimeState) (p : Nat) : (s.setTim x).reg p = s.reg p := rfl
@[simp] theorem State.fld_setTim (s : State) (x : TimeState) (g : Field) : (s.setTim x).fld g = s.fld g := rfl
@[simp] theorem State.flag_setTim (s : State) (x : TimeState) (g : Field) : (s.setTim x).flag g = s.flag g := rfl
@[simp] theorem State.tick_setTim (s : State) (x : TimeState) : (s.setTim x).tick = s.tick := rfl
@[simp] theorem State.byte_setTim (s : State) (x : TimeState) (j : Nat) : (s.setTim x).byte j = s.byte j := rfl
@[simp] theorem State.thr_setTim (s : State) (x : TimeState) (u : Nat) : (s.setTim x).thr u = s.thr u := rfl

/-! ## State.setPwr -/

@[simp] theorem State.regs_setPwr (s : State) (x : PwrState) : (s.setPwr x).regs = s.regs := rfl
@[simp] theorem State.hbm_setPwr (s : State) (x : PwrState) : (s.setPwr x).hbm = s.hbm := rfl
@[simp] theorem State.units_setPwr (s : State) (x : PwrState) : (s.setPwr x).units = s.units := rfl
@[simp] theorem State.poison_setPwr (s : State) (x : PwrState) : (s.setPwr x).poison = s.poison := rfl
@[simp] theorem State.shadow_setPwr (s : State) (x : PwrState) : (s.setPwr x).shadow = s.shadow := rfl
@[simp] theorem State.threads_setPwr (s : State) (x : PwrState) : (s.setPwr x).threads = s.threads := rfl
@[simp] theorem State.watch_setPwr (s : State) (x : PwrState) : (s.setPwr x).watch = s.watch := rfl
@[simp] theorem State.reports_setPwr (s : State) (x : PwrState) : (s.setPwr x).reports = s.reports := rfl
@[simp] theorem State.icache_setPwr (s : State) (x : PwrState) : (s.setPwr x).icache = s.icache := rfl
@[simp] theorem State.descs_setPwr (s : State) (x : PwrState) : (s.setPwr x).descs = s.descs := rfl
@[simp] theorem State.xlt_setPwr (s : State) (x : PwrState) : (s.setPwr x).xlt = s.xlt := rfl
@[simp] theorem State.siv_setPwr (s : State) (x : PwrState) : (s.setPwr x).siv = s.siv := rfl
@[simp] theorem State.skids_setPwr (s : State) (x : PwrState) : (s.setPwr x).skids = s.skids := rfl
@[simp] theorem State.slots_setPwr (s : State) (x : PwrState) : (s.setPwr x).slots = s.slots := rfl
@[simp] theorem State.home_setPwr (s : State) (x : PwrState) : (s.setPwr x).home = s.home := rfl
@[simp] theorem State.swc_setPwr (s : State) (x : PwrState) : (s.setPwr x).swc = s.swc := rfl
@[simp] theorem State.rel_setPwr (s : State) (x : PwrState) : (s.setPwr x).rel = s.rel := rfl
@[simp] theorem State.hst_setPwr (s : State) (x : PwrState) : (s.setPwr x).hst = s.hst := rfl
@[simp] theorem State.sec_setPwr (s : State) (x : PwrState) : (s.setPwr x).sec = s.sec := rfl
@[simp] theorem State.ldl_setPwr (s : State) (x : PwrState) : (s.setPwr x).ldl = s.ldl := rfl
@[simp] theorem State.col_setPwr (s : State) (x : PwrState) : (s.setPwr x).col = s.col := rfl
@[simp] theorem State.tel_setPwr (s : State) (x : PwrState) : (s.setPwr x).tel = s.tel := rfl
@[simp] theorem State.tim_setPwr (s : State) (x : PwrState) : (s.setPwr x).tim = s.tim := rfl
@[simp] theorem State.cru_setPwr (s : State) (x : PwrState) : (s.setPwr x).cru = s.cru := rfl
@[simp] theorem State.opt_setPwr (s : State) (x : PwrState) : (s.setPwr x).opt = s.opt := rfl
@[simp] theorem State.elk_setPwr (s : State) (x : PwrState) : (s.setPwr x).elk = s.elk := rfl
@[simp] theorem State.mgt_setPwr (s : State) (x : PwrState) : (s.setPwr x).mgt = s.mgt := rfl
@[simp] theorem State.jtag_setPwr (s : State) (x : PwrState) : (s.setPwr x).jtag = s.jtag := rfl
@[simp] theorem State.issued_setPwr (s : State) (x : PwrState) : (s.setPwr x).issued = s.issued := rfl
@[simp] theorem State.free_setPwr (s : State) (x : PwrState) : (s.setPwr x).free = s.free := rfl
@[simp] theorem State.out_setPwr (s : State) (x : PwrState) : (s.setPwr x).out = s.out := rfl
@[simp] theorem State.pending_setPwr (s : State) (x : PwrState) : (s.setPwr x).pending = s.pending := rfl
@[simp] theorem State.reg_setPwr (s : State) (x : PwrState) (p : Nat) : (s.setPwr x).reg p = s.reg p := rfl
@[simp] theorem State.fld_setPwr (s : State) (x : PwrState) (g : Field) : (s.setPwr x).fld g = s.fld g := rfl
@[simp] theorem State.flag_setPwr (s : State) (x : PwrState) (g : Field) : (s.setPwr x).flag g = s.flag g := rfl
@[simp] theorem State.tick_setPwr (s : State) (x : PwrState) : (s.setPwr x).tick = s.tick := rfl
@[simp] theorem State.byte_setPwr (s : State) (x : PwrState) (j : Nat) : (s.setPwr x).byte j = s.byte j := rfl
@[simp] theorem State.thr_setPwr (s : State) (x : PwrState) (u : Nat) : (s.setPwr x).thr u = s.thr u := rfl

/-! ## State.setCru -/

@[simp] theorem State.regs_setCru (s : State) (x : CruState) : (s.setCru x).regs = s.regs := rfl
@[simp] theorem State.hbm_setCru (s : State) (x : CruState) : (s.setCru x).hbm = s.hbm := rfl
@[simp] theorem State.units_setCru (s : State) (x : CruState) : (s.setCru x).units = s.units := rfl
@[simp] theorem State.poison_setCru (s : State) (x : CruState) : (s.setCru x).poison = s.poison := rfl
@[simp] theorem State.shadow_setCru (s : State) (x : CruState) : (s.setCru x).shadow = s.shadow := rfl
@[simp] theorem State.threads_setCru (s : State) (x : CruState) : (s.setCru x).threads = s.threads := rfl
@[simp] theorem State.watch_setCru (s : State) (x : CruState) : (s.setCru x).watch = s.watch := rfl
@[simp] theorem State.reports_setCru (s : State) (x : CruState) : (s.setCru x).reports = s.reports := rfl
@[simp] theorem State.icache_setCru (s : State) (x : CruState) : (s.setCru x).icache = s.icache := rfl
@[simp] theorem State.descs_setCru (s : State) (x : CruState) : (s.setCru x).descs = s.descs := rfl
@[simp] theorem State.xlt_setCru (s : State) (x : CruState) : (s.setCru x).xlt = s.xlt := rfl
@[simp] theorem State.siv_setCru (s : State) (x : CruState) : (s.setCru x).siv = s.siv := rfl
@[simp] theorem State.skids_setCru (s : State) (x : CruState) : (s.setCru x).skids = s.skids := rfl
@[simp] theorem State.slots_setCru (s : State) (x : CruState) : (s.setCru x).slots = s.slots := rfl
@[simp] theorem State.home_setCru (s : State) (x : CruState) : (s.setCru x).home = s.home := rfl
@[simp] theorem State.swc_setCru (s : State) (x : CruState) : (s.setCru x).swc = s.swc := rfl
@[simp] theorem State.rel_setCru (s : State) (x : CruState) : (s.setCru x).rel = s.rel := rfl
@[simp] theorem State.pwr_setCru (s : State) (x : CruState) : (s.setCru x).pwr = s.pwr := rfl
@[simp] theorem State.hst_setCru (s : State) (x : CruState) : (s.setCru x).hst = s.hst := rfl
@[simp] theorem State.sec_setCru (s : State) (x : CruState) : (s.setCru x).sec = s.sec := rfl
@[simp] theorem State.ldl_setCru (s : State) (x : CruState) : (s.setCru x).ldl = s.ldl := rfl
@[simp] theorem State.col_setCru (s : State) (x : CruState) : (s.setCru x).col = s.col := rfl
@[simp] theorem State.tel_setCru (s : State) (x : CruState) : (s.setCru x).tel = s.tel := rfl
@[simp] theorem State.tim_setCru (s : State) (x : CruState) : (s.setCru x).tim = s.tim := rfl
@[simp] theorem State.opt_setCru (s : State) (x : CruState) : (s.setCru x).opt = s.opt := rfl
@[simp] theorem State.elk_setCru (s : State) (x : CruState) : (s.setCru x).elk = s.elk := rfl
@[simp] theorem State.mgt_setCru (s : State) (x : CruState) : (s.setCru x).mgt = s.mgt := rfl
@[simp] theorem State.jtag_setCru (s : State) (x : CruState) : (s.setCru x).jtag = s.jtag := rfl
@[simp] theorem State.issued_setCru (s : State) (x : CruState) : (s.setCru x).issued = s.issued := rfl
@[simp] theorem State.free_setCru (s : State) (x : CruState) : (s.setCru x).free = s.free := rfl
@[simp] theorem State.out_setCru (s : State) (x : CruState) : (s.setCru x).out = s.out := rfl
@[simp] theorem State.pending_setCru (s : State) (x : CruState) : (s.setCru x).pending = s.pending := rfl
@[simp] theorem State.reg_setCru (s : State) (x : CruState) (p : Nat) : (s.setCru x).reg p = s.reg p := rfl
@[simp] theorem State.fld_setCru (s : State) (x : CruState) (g : Field) : (s.setCru x).fld g = s.fld g := rfl
@[simp] theorem State.flag_setCru (s : State) (x : CruState) (g : Field) : (s.setCru x).flag g = s.flag g := rfl
@[simp] theorem State.tick_setCru (s : State) (x : CruState) : (s.setCru x).tick = s.tick := rfl
@[simp] theorem State.byte_setCru (s : State) (x : CruState) (j : Nat) : (s.setCru x).byte j = s.byte j := rfl
@[simp] theorem State.thr_setCru (s : State) (x : CruState) (u : Nat) : (s.setCru x).thr u = s.thr u := rfl

/-! ## State.setTel -/

@[simp] theorem State.regs_setTel (s : State) (x : TelState) : (s.setTel x).regs = s.regs := rfl
@[simp] theorem State.hbm_setTel (s : State) (x : TelState) : (s.setTel x).hbm = s.hbm := rfl
@[simp] theorem State.units_setTel (s : State) (x : TelState) : (s.setTel x).units = s.units := rfl
@[simp] theorem State.poison_setTel (s : State) (x : TelState) : (s.setTel x).poison = s.poison := rfl
@[simp] theorem State.shadow_setTel (s : State) (x : TelState) : (s.setTel x).shadow = s.shadow := rfl
@[simp] theorem State.threads_setTel (s : State) (x : TelState) : (s.setTel x).threads = s.threads := rfl
@[simp] theorem State.watch_setTel (s : State) (x : TelState) : (s.setTel x).watch = s.watch := rfl
@[simp] theorem State.reports_setTel (s : State) (x : TelState) : (s.setTel x).reports = s.reports := rfl
@[simp] theorem State.icache_setTel (s : State) (x : TelState) : (s.setTel x).icache = s.icache := rfl
@[simp] theorem State.descs_setTel (s : State) (x : TelState) : (s.setTel x).descs = s.descs := rfl
@[simp] theorem State.xlt_setTel (s : State) (x : TelState) : (s.setTel x).xlt = s.xlt := rfl
@[simp] theorem State.siv_setTel (s : State) (x : TelState) : (s.setTel x).siv = s.siv := rfl
@[simp] theorem State.skids_setTel (s : State) (x : TelState) : (s.setTel x).skids = s.skids := rfl
@[simp] theorem State.slots_setTel (s : State) (x : TelState) : (s.setTel x).slots = s.slots := rfl
@[simp] theorem State.home_setTel (s : State) (x : TelState) : (s.setTel x).home = s.home := rfl
@[simp] theorem State.swc_setTel (s : State) (x : TelState) : (s.setTel x).swc = s.swc := rfl
@[simp] theorem State.rel_setTel (s : State) (x : TelState) : (s.setTel x).rel = s.rel := rfl
@[simp] theorem State.pwr_setTel (s : State) (x : TelState) : (s.setTel x).pwr = s.pwr := rfl
@[simp] theorem State.hst_setTel (s : State) (x : TelState) : (s.setTel x).hst = s.hst := rfl
@[simp] theorem State.sec_setTel (s : State) (x : TelState) : (s.setTel x).sec = s.sec := rfl
@[simp] theorem State.ldl_setTel (s : State) (x : TelState) : (s.setTel x).ldl = s.ldl := rfl
@[simp] theorem State.col_setTel (s : State) (x : TelState) : (s.setTel x).col = s.col := rfl
@[simp] theorem State.tim_setTel (s : State) (x : TelState) : (s.setTel x).tim = s.tim := rfl
@[simp] theorem State.cru_setTel (s : State) (x : TelState) : (s.setTel x).cru = s.cru := rfl
@[simp] theorem State.opt_setTel (s : State) (x : TelState) : (s.setTel x).opt = s.opt := rfl
@[simp] theorem State.elk_setTel (s : State) (x : TelState) : (s.setTel x).elk = s.elk := rfl
@[simp] theorem State.mgt_setTel (s : State) (x : TelState) : (s.setTel x).mgt = s.mgt := rfl
@[simp] theorem State.jtag_setTel (s : State) (x : TelState) : (s.setTel x).jtag = s.jtag := rfl
@[simp] theorem State.issued_setTel (s : State) (x : TelState) : (s.setTel x).issued = s.issued := rfl
@[simp] theorem State.free_setTel (s : State) (x : TelState) : (s.setTel x).free = s.free := rfl
@[simp] theorem State.out_setTel (s : State) (x : TelState) : (s.setTel x).out = s.out := rfl
@[simp] theorem State.pending_setTel (s : State) (x : TelState) : (s.setTel x).pending = s.pending := rfl
@[simp] theorem State.reg_setTel (s : State) (x : TelState) (p : Nat) : (s.setTel x).reg p = s.reg p := rfl
@[simp] theorem State.fld_setTel (s : State) (x : TelState) (g : Field) : (s.setTel x).fld g = s.fld g := rfl
@[simp] theorem State.flag_setTel (s : State) (x : TelState) (g : Field) : (s.setTel x).flag g = s.flag g := rfl
@[simp] theorem State.tick_setTel (s : State) (x : TelState) : (s.setTel x).tick = s.tick := rfl
@[simp] theorem State.byte_setTel (s : State) (x : TelState) (j : Nat) : (s.setTel x).byte j = s.byte j := rfl
@[simp] theorem State.thr_setTel (s : State) (x : TelState) (u : Nat) : (s.setTel x).thr u = s.thr u := rfl

/-! ## State.setSpdm -/

@[simp] theorem State.regs_setSpdm (s : State) (x : Spdm) : (s.setSpdm x).regs = s.regs := rfl
@[simp] theorem State.hbm_setSpdm (s : State) (x : Spdm) : (s.setSpdm x).hbm = s.hbm := rfl
@[simp] theorem State.units_setSpdm (s : State) (x : Spdm) : (s.setSpdm x).units = s.units := rfl
@[simp] theorem State.poison_setSpdm (s : State) (x : Spdm) : (s.setSpdm x).poison = s.poison := rfl
@[simp] theorem State.shadow_setSpdm (s : State) (x : Spdm) : (s.setSpdm x).shadow = s.shadow := rfl
@[simp] theorem State.threads_setSpdm (s : State) (x : Spdm) : (s.setSpdm x).threads = s.threads := rfl
@[simp] theorem State.watch_setSpdm (s : State) (x : Spdm) : (s.setSpdm x).watch = s.watch := rfl
@[simp] theorem State.reports_setSpdm (s : State) (x : Spdm) : (s.setSpdm x).reports = s.reports := rfl
@[simp] theorem State.icache_setSpdm (s : State) (x : Spdm) : (s.setSpdm x).icache = s.icache := rfl
@[simp] theorem State.descs_setSpdm (s : State) (x : Spdm) : (s.setSpdm x).descs = s.descs := rfl
@[simp] theorem State.xlt_setSpdm (s : State) (x : Spdm) : (s.setSpdm x).xlt = s.xlt := rfl
@[simp] theorem State.siv_setSpdm (s : State) (x : Spdm) : (s.setSpdm x).siv = s.siv := rfl
@[simp] theorem State.skids_setSpdm (s : State) (x : Spdm) : (s.setSpdm x).skids = s.skids := rfl
@[simp] theorem State.slots_setSpdm (s : State) (x : Spdm) : (s.setSpdm x).slots = s.slots := rfl
@[simp] theorem State.home_setSpdm (s : State) (x : Spdm) : (s.setSpdm x).home = s.home := rfl
@[simp] theorem State.swc_setSpdm (s : State) (x : Spdm) : (s.setSpdm x).swc = s.swc := rfl
@[simp] theorem State.rel_setSpdm (s : State) (x : Spdm) : (s.setSpdm x).rel = s.rel := rfl
@[simp] theorem State.pwr_setSpdm (s : State) (x : Spdm) : (s.setSpdm x).pwr = s.pwr := rfl
@[simp] theorem State.hst_setSpdm (s : State) (x : Spdm) : (s.setSpdm x).hst = s.hst := rfl
@[simp] theorem State.ldl_setSpdm (s : State) (x : Spdm) : (s.setSpdm x).ldl = s.ldl := rfl
@[simp] theorem State.col_setSpdm (s : State) (x : Spdm) : (s.setSpdm x).col = s.col := rfl
@[simp] theorem State.tel_setSpdm (s : State) (x : Spdm) : (s.setSpdm x).tel = s.tel := rfl
@[simp] theorem State.tim_setSpdm (s : State) (x : Spdm) : (s.setSpdm x).tim = s.tim := rfl
@[simp] theorem State.cru_setSpdm (s : State) (x : Spdm) : (s.setSpdm x).cru = s.cru := rfl
@[simp] theorem State.opt_setSpdm (s : State) (x : Spdm) : (s.setSpdm x).opt = s.opt := rfl
@[simp] theorem State.elk_setSpdm (s : State) (x : Spdm) : (s.setSpdm x).elk = s.elk := rfl
@[simp] theorem State.mgt_setSpdm (s : State) (x : Spdm) : (s.setSpdm x).mgt = s.mgt := rfl
@[simp] theorem State.jtag_setSpdm (s : State) (x : Spdm) : (s.setSpdm x).jtag = s.jtag := rfl
@[simp] theorem State.issued_setSpdm (s : State) (x : Spdm) : (s.setSpdm x).issued = s.issued := rfl
@[simp] theorem State.free_setSpdm (s : State) (x : Spdm) : (s.setSpdm x).free = s.free := rfl
@[simp] theorem State.out_setSpdm (s : State) (x : Spdm) : (s.setSpdm x).out = s.out := rfl
@[simp] theorem State.pending_setSpdm (s : State) (x : Spdm) : (s.setSpdm x).pending = s.pending := rfl
@[simp] theorem State.reg_setSpdm (s : State) (x : Spdm) (p : Nat) : (s.setSpdm x).reg p = s.reg p := rfl
@[simp] theorem State.fld_setSpdm (s : State) (x : Spdm) (g : Field) : (s.setSpdm x).fld g = s.fld g := rfl
@[simp] theorem State.flag_setSpdm (s : State) (x : Spdm) (g : Field) : (s.setSpdm x).flag g = s.flag g := rfl
@[simp] theorem State.tick_setSpdm (s : State) (x : Spdm) : (s.setSpdm x).tick = s.tick := rfl
@[simp] theorem State.byte_setSpdm (s : State) (x : Spdm) (j : Nat) : (s.setSpdm x).byte j = s.byte j := rfl
@[simp] theorem State.thr_setSpdm (s : State) (x : Spdm) (u : Nat) : (s.setSpdm x).thr u = s.thr u := rfl

/-! ## State.putBytes -/

@[simp] theorem State.regs_putBytes (s : State) (a : Nat) (bs : List Byte) : (s.putBytes a bs).regs = s.regs := by unfold State.putBytes; split <;> rfl
@[simp] theorem State.poison_putBytes (s : State) (a : Nat) (bs : List Byte) : (s.putBytes a bs).poison = s.poison := by unfold State.putBytes; split <;> rfl
@[simp] theorem State.shadow_putBytes (s : State) (a : Nat) (bs : List Byte) : (s.putBytes a bs).shadow = s.shadow := by unfold State.putBytes; split <;> rfl
@[simp] theorem State.threads_putBytes (s : State) (a : Nat) (bs : List Byte) : (s.putBytes a bs).threads = s.threads := by unfold State.putBytes; split <;> rfl
@[simp] theorem State.watch_putBytes (s : State) (a : Nat) (bs : List Byte) : (s.putBytes a bs).watch = s.watch := by unfold State.putBytes; split <;> rfl
@[simp] theorem State.reports_putBytes (s : State) (a : Nat) (bs : List Byte) : (s.putBytes a bs).reports = s.reports := by unfold State.putBytes; split <;> rfl
@[simp] theorem State.icache_putBytes (s : State) (a : Nat) (bs : List Byte) : (s.putBytes a bs).icache = s.icache := by unfold State.putBytes; split <;> rfl
@[simp] theorem State.descs_putBytes (s : State) (a : Nat) (bs : List Byte) : (s.putBytes a bs).descs = s.descs := by unfold State.putBytes; split <;> rfl
@[simp] theorem State.xlt_putBytes (s : State) (a : Nat) (bs : List Byte) : (s.putBytes a bs).xlt = s.xlt := by unfold State.putBytes; split <;> rfl
@[simp] theorem State.siv_putBytes (s : State) (a : Nat) (bs : List Byte) : (s.putBytes a bs).siv = s.siv := by unfold State.putBytes; split <;> rfl
@[simp] theorem State.skids_putBytes (s : State) (a : Nat) (bs : List Byte) : (s.putBytes a bs).skids = s.skids := by unfold State.putBytes; split <;> rfl
@[simp] theorem State.slots_putBytes (s : State) (a : Nat) (bs : List Byte) : (s.putBytes a bs).slots = s.slots := by unfold State.putBytes; split <;> rfl
@[simp] theorem State.home_putBytes (s : State) (a : Nat) (bs : List Byte) : (s.putBytes a bs).home = s.home := by unfold State.putBytes; split <;> rfl
@[simp] theorem State.swc_putBytes (s : State) (a : Nat) (bs : List Byte) : (s.putBytes a bs).swc = s.swc := by unfold State.putBytes; split <;> rfl
@[simp] theorem State.rel_putBytes (s : State) (a : Nat) (bs : List Byte) : (s.putBytes a bs).rel = s.rel := by unfold State.putBytes; split <;> rfl
@[simp] theorem State.pwr_putBytes (s : State) (a : Nat) (bs : List Byte) : (s.putBytes a bs).pwr = s.pwr := by unfold State.putBytes; split <;> rfl
@[simp] theorem State.hst_putBytes (s : State) (a : Nat) (bs : List Byte) : (s.putBytes a bs).hst = s.hst := by unfold State.putBytes; split <;> rfl
@[simp] theorem State.sec_putBytes (s : State) (a : Nat) (bs : List Byte) : (s.putBytes a bs).sec = s.sec := by unfold State.putBytes; split <;> rfl
@[simp] theorem State.ldl_putBytes (s : State) (a : Nat) (bs : List Byte) : (s.putBytes a bs).ldl = s.ldl := by unfold State.putBytes; split <;> rfl
@[simp] theorem State.col_putBytes (s : State) (a : Nat) (bs : List Byte) : (s.putBytes a bs).col = s.col := by unfold State.putBytes; split <;> rfl
@[simp] theorem State.tel_putBytes (s : State) (a : Nat) (bs : List Byte) : (s.putBytes a bs).tel = s.tel := by unfold State.putBytes; split <;> rfl
@[simp] theorem State.tim_putBytes (s : State) (a : Nat) (bs : List Byte) : (s.putBytes a bs).tim = s.tim := by unfold State.putBytes; split <;> rfl
@[simp] theorem State.cru_putBytes (s : State) (a : Nat) (bs : List Byte) : (s.putBytes a bs).cru = s.cru := by unfold State.putBytes; split <;> rfl
@[simp] theorem State.opt_putBytes (s : State) (a : Nat) (bs : List Byte) : (s.putBytes a bs).opt = s.opt := by unfold State.putBytes; split <;> rfl
@[simp] theorem State.elk_putBytes (s : State) (a : Nat) (bs : List Byte) : (s.putBytes a bs).elk = s.elk := by unfold State.putBytes; split <;> rfl
@[simp] theorem State.mgt_putBytes (s : State) (a : Nat) (bs : List Byte) : (s.putBytes a bs).mgt = s.mgt := by unfold State.putBytes; split <;> rfl
@[simp] theorem State.jtag_putBytes (s : State) (a : Nat) (bs : List Byte) : (s.putBytes a bs).jtag = s.jtag := by unfold State.putBytes; split <;> rfl
@[simp] theorem State.issued_putBytes (s : State) (a : Nat) (bs : List Byte) : (s.putBytes a bs).issued = s.issued := by unfold State.putBytes; split <;> rfl
@[simp] theorem State.free_putBytes (s : State) (a : Nat) (bs : List Byte) : (s.putBytes a bs).free = s.free := by unfold State.putBytes; split <;> rfl
@[simp] theorem State.out_putBytes (s : State) (a : Nat) (bs : List Byte) : (s.putBytes a bs).out = s.out := by unfold State.putBytes; split <;> rfl
@[simp] theorem State.pending_putBytes (s : State) (a : Nat) (bs : List Byte) : (s.putBytes a bs).pending = s.pending := by unfold State.putBytes; split <;> rfl
@[simp] theorem State.reg_putBytes (s : State) (a : Nat) (bs : List Byte) (j : Nat) : (s.putBytes a bs).reg j = s.reg j := by
  simp only [State.reg, State.regs_putBytes]
@[simp] theorem State.fld_putBytes (s : State) (a : Nat) (bs : List Byte) (g : Field) : (s.putBytes a bs).fld g = s.fld g := by
  simp only [State.fld, State.reg_putBytes]

/-! ## State.homeWrite -/

@[simp] theorem State.regs_homeWrite (s : State) (h first count : Nat) (data : Line) (p : Bool) : (s.homeWrite h first count data p).regs = s.regs :=
  State.regs_putBytes ..
@[simp] theorem State.shadow_homeWrite (s : State) (h first count : Nat) (data : Line) (p : Bool) : (s.homeWrite h first count data p).shadow = s.shadow :=
  State.shadow_putBytes ..
@[simp] theorem State.threads_homeWrite (s : State) (h first count : Nat) (data : Line) (p : Bool) : (s.homeWrite h first count data p).threads = s.threads :=
  State.threads_putBytes ..
@[simp] theorem State.watch_homeWrite (s : State) (h first count : Nat) (data : Line) (p : Bool) : (s.homeWrite h first count data p).watch = s.watch :=
  State.watch_putBytes ..
@[simp] theorem State.icache_homeWrite (s : State) (h first count : Nat) (data : Line) (p : Bool) : (s.homeWrite h first count data p).icache = s.icache :=
  State.icache_putBytes ..
@[simp] theorem State.descs_homeWrite (s : State) (h first count : Nat) (data : Line) (p : Bool) : (s.homeWrite h first count data p).descs = s.descs :=
  State.descs_putBytes ..
@[simp] theorem State.xlt_homeWrite (s : State) (h first count : Nat) (data : Line) (p : Bool) : (s.homeWrite h first count data p).xlt = s.xlt :=
  State.xlt_putBytes ..
@[simp] theorem State.siv_homeWrite (s : State) (h first count : Nat) (data : Line) (p : Bool) : (s.homeWrite h first count data p).siv = s.siv :=
  State.siv_putBytes ..
@[simp] theorem State.skids_homeWrite (s : State) (h first count : Nat) (data : Line) (p : Bool) : (s.homeWrite h first count data p).skids = s.skids :=
  State.skids_putBytes ..
@[simp] theorem State.slots_homeWrite (s : State) (h first count : Nat) (data : Line) (p : Bool) : (s.homeWrite h first count data p).slots = s.slots :=
  State.slots_putBytes ..
@[simp] theorem State.home_homeWrite (s : State) (h first count : Nat) (data : Line) (p : Bool) : (s.homeWrite h first count data p).home = s.home :=
  State.home_putBytes ..
@[simp] theorem State.swc_homeWrite (s : State) (h first count : Nat) (data : Line) (p : Bool) : (s.homeWrite h first count data p).swc = s.swc :=
  State.swc_putBytes ..
@[simp] theorem State.rel_homeWrite (s : State) (h first count : Nat) (data : Line) (p : Bool) : (s.homeWrite h first count data p).rel = s.rel :=
  State.rel_putBytes ..
@[simp] theorem State.pwr_homeWrite (s : State) (h first count : Nat) (data : Line) (p : Bool) : (s.homeWrite h first count data p).pwr = s.pwr :=
  State.pwr_putBytes ..
@[simp] theorem State.hst_homeWrite (s : State) (h first count : Nat) (data : Line) (p : Bool) : (s.homeWrite h first count data p).hst = s.hst :=
  State.hst_putBytes ..
@[simp] theorem State.sec_homeWrite (s : State) (h first count : Nat) (data : Line) (p : Bool) : (s.homeWrite h first count data p).sec = s.sec :=
  State.sec_putBytes ..
@[simp] theorem State.ldl_homeWrite (s : State) (h first count : Nat) (data : Line) (p : Bool) : (s.homeWrite h first count data p).ldl = s.ldl :=
  State.ldl_putBytes ..
@[simp] theorem State.col_homeWrite (s : State) (h first count : Nat) (data : Line) (p : Bool) : (s.homeWrite h first count data p).col = s.col :=
  State.col_putBytes ..
@[simp] theorem State.tel_homeWrite (s : State) (h first count : Nat) (data : Line) (p : Bool) : (s.homeWrite h first count data p).tel = s.tel :=
  State.tel_putBytes ..
@[simp] theorem State.tim_homeWrite (s : State) (h first count : Nat) (data : Line) (p : Bool) : (s.homeWrite h first count data p).tim = s.tim :=
  State.tim_putBytes ..
@[simp] theorem State.cru_homeWrite (s : State) (h first count : Nat) (data : Line) (p : Bool) : (s.homeWrite h first count data p).cru = s.cru :=
  State.cru_putBytes ..
@[simp] theorem State.opt_homeWrite (s : State) (h first count : Nat) (data : Line) (p : Bool) : (s.homeWrite h first count data p).opt = s.opt :=
  State.opt_putBytes ..
@[simp] theorem State.elk_homeWrite (s : State) (h first count : Nat) (data : Line) (p : Bool) : (s.homeWrite h first count data p).elk = s.elk :=
  State.elk_putBytes ..
@[simp] theorem State.mgt_homeWrite (s : State) (h first count : Nat) (data : Line) (p : Bool) : (s.homeWrite h first count data p).mgt = s.mgt :=
  State.mgt_putBytes ..
@[simp] theorem State.jtag_homeWrite (s : State) (h first count : Nat) (data : Line) (p : Bool) : (s.homeWrite h first count data p).jtag = s.jtag :=
  State.jtag_putBytes ..
@[simp] theorem State.issued_homeWrite (s : State) (h first count : Nat) (data : Line) (p : Bool) : (s.homeWrite h first count data p).issued = s.issued :=
  State.issued_putBytes ..
@[simp] theorem State.free_homeWrite (s : State) (h first count : Nat) (data : Line) (p : Bool) : (s.homeWrite h first count data p).free = s.free :=
  State.free_putBytes ..
@[simp] theorem State.out_homeWrite (s : State) (h first count : Nat) (data : Line) (p : Bool) : (s.homeWrite h first count data p).out = s.out :=
  State.out_putBytes ..
@[simp] theorem State.pending_homeWrite (s : State) (h first count : Nat) (data : Line) (p : Bool) : (s.homeWrite h first count data p).pending = s.pending :=
  State.pending_putBytes ..
@[simp] theorem State.reg_homeWrite (s : State) (h first count : Nat) (data : Line) (p : Bool) (j : Nat) : (s.homeWrite h first count data p).reg j = s.reg j := by
  simp only [State.reg, State.regs_homeWrite]
@[simp] theorem State.fld_homeWrite (s : State) (h first count : Nat) (data : Line) (p : Bool) (g : Field) : (s.homeWrite h first count data p).fld g = s.fld g := by
  simp only [State.fld, State.reg_homeWrite]

end Sys2Proof.Machine
end

