-- ==== Sys2Proof/Laws/Threads.lean ====
section
/-! SUPPORT. Laws of threads and of the frame of a Disil instruction. -/

namespace Sys2Proof.Machine

open Sys2Proof

/-! ## Thread records -/

@[simp] theorem State.thr_setThr_same (s : State) (t : Nat) (x : Thread) : (s.setThr t x).thr t = x := FMap.get_set_same ..

@[simp] theorem State.thr_setThr_ne (s : State) {t u : Nat} (x : Thread) (h : u ≠ t) : (s.setThr t x).thr u = s.thr u :=
  FMap.get_set_ne _ _ h _

@[simp] theorem State.wl_setWl_same (s : State) (w : Nat) (x : Watch) : (s.setWl w x).wl w = x := FMap.get_set_same ..

@[simp] theorem State.wl_setWl_ne (s : State) {w v : Nat} (x : Watch) (h : v ≠ w) : (s.setWl w x).wl v = s.wl v :=
  FMap.get_set_ne _ _ h _

/-- A register after a write: g0 stays 0 (Table 10.1). -/
theorem Thread.reg_setReg (x : Thread) (d r : BitVec 5) (v : Word) :
    (x.setReg d v).reg r = if r = d ∧ r ≠ 0 then v else x.reg r := by
  unfold Thread.setReg Thread.reg
  by_cases h0 : r = 0
  · simp only [h0, if_true, ne_eq, not_true, and_false, if_false]
  · by_cases hd : d = 0
    · have : r ≠ d := by rw [hd]; exact h0
      simp only [hd, if_true, h0, this, false_and, if_false]
    · by_cases hr : r = d
      · subst hr
        simp only [h0, if_false, FMap.get_set_same, true_and, ne_eq, not_false_eq_true, if_true]
      · have hn : r.toNat ≠ d.toNat := fun h => hr (BitVec.eq_of_toNat_eq h)
        simp only [h0, hd, hr, if_false, FMap.get_set_ne _ _ hn, false_and]

/-- A register write changes the general registers alone. -/
theorem Thread.setReg_with (x : Thread) (d : BitVec 5) (v : Word) : x.setReg d v = { x with g := (x.setReg d v).g } := by
  unfold Thread.setReg; split <;> rfl

/-- The PC after it has been set: 57 bits, bits [2:0] at 0 (Table 3.11). -/
theorem State.pc_setPc (s : State) (t n : Nat) : (s.setPc t n).pc t = n / 8 * 8 % 2 ^ 57 := by
  unfold State.setPc State.pc
  rw [State.fld_setFld_same _ _ _ (by simp [R.SEQ_THREAD_PC.PC])]
  simp [R.SEQ_THREAD_PC.PC]; omega

/-! ## Issue -/

/-- An instruction that issues, and whose encoding is accepted, does its own work and is counted (R227, R225). -/
theorem State.insn_issues (s : State) (t : ThreadNo) (opc : Nat) (f : Insn) (bad : Bool) (need : BitVec 32)
    (body : State → State) (h : Issues s t opc f need) (hb : bad = false) :
    s.insn t opc f bad need body = s.countIssued (body s) t := by
  obtain ⟨h1, h2, h3, h4, h5⟩ := h
  simp [State.insn, h1, h2, h3, hb, h4, h5]

/-- A thread that is not waiting has issued its instruction. -/
theorem State.countIssued_of_state (s b : State) (t : Nat) (h : b.tstate t ≠ stWaiting) : s.countIssued b t = b.tally 1880 := by
  simp [State.countIssued, h]

/-- What an instruction leaves that ends by setting the thread's record and its PC: nothing else of the machine changes but the
counts of telemetry. -/
theorem State.onlyThread_setPc (s : State) (th : ThreadNo) (x : Thread) (n k : Nat) :
    OnlyThread th [R.SEQ_THREAD_PC.PC th] s (((s.setThr th x).setPc th n).tally k) := by
  refine ⟨rfl, fun u hu => ?_, fun g hg => ?_, fun a => rfl⟩
  · simp [hu]
  · have h2 : Field.Apart g (R.SEQ_THREAD_PC.PC th) := hg _ (by simp)
    simp only [State.setPc, State.fld_tally]
    rw [State.fld_setFld_apart _ _ _ _ (by simp [R.SEQ_THREAD_PC.PC])]
    · rfl
    · unfold Field.Apart at h2; omega

end Sys2Proof.Machine
end

