-- ==== Sys2Proof/WellFormed.lean ====
section
/-! DEFINITION. Well-formed commands: the operands that the interfaces can carry, where their types do not say it already. -/

namespace Sys2Proof

open Sys2Proof.Machine

/-- A control-space access is of 1 to 64 bytes, the most that one host request carries. -/
def goodSize (n : Nat) : Bool := decide (1 ≤ n ∧ n ≤ 64)

/-- A CXL.mem write is of at least one byte and stays in its line. -/
def goodBytes (first count : Nat) : Bool := decide (1 ≤ count ∧ first + count ≤ 64)

/-- Readings of distinct rings. -/
def distinctKeys (l : List (Fin 512 × Fin 9)) : Bool := (l.map (·.1)).Nodup

/-- Well-formed commands. The operands of every other command are of types that hold only what the interface can carry. -/
def Instr.wellFormed : Instr → Bool
  | .controlSpaceWrite _ _ size _ => goodSize size
  | .clearingRead _ _ size => goodSize size
  | .mmWindowWrite _ _ first count _ _ => goodBytes first count
  | .fwWindowWrite _ _ first count _ _ => goodBytes first count
  | .switchFineSearch steps => distinctKeys steps
  | .cruiseC3Optics powers => decide (powers.length ≤ 20)
  | _ => true

end Sys2Proof
end

