-- ==== Sys2Proof/Tests/Slice0.lean ====
section
/-! SUPPORT. Tests, each of one command on a small state, with what the rules of the spec give; the witnesses show states and
operands that meet the hypotheses of the statements, clause by clause. -/

namespace Sys2Proof.Tests

open Sys2Proof Sys2Proof.Machine

set_option Elab.async false

/-- A command completes in a state of which `P` holds. -/
def ends (c : Instr) (s : State) (P : State → Bool) : Bool :=
  match exec c s with
  | .next u => P u
  | _ => false

/-- A register without the listed fields. -/
def without (fs : List Field) (o : Nat) (v : Word) : Nat :=
  fs.foldl (fun (v : Nat) f => if f.off = o then putBits v f.lo f.w 0 else v) v.toNat

/-- Only the listed register fields change (of the registers that differ from reset before or after). -/
def keeps (fs : List Field) (s u : State) : Bool :=
  ((s.regs ++ u.regs).map (·.1)).all fun o => without fs o (s.reg o) == without fs o (u.reg o)

/-- Only the listed register fields change, and nothing beside the registers. -/
def keepsRest (fs : List Field) (s u : State) : Bool := keeps fs s u && decide (u = { s with regs := u.regs })

/-- Only thread `th` changes, and the listed register fields (counts of telemetry apart). -/
def keepsBut (th : Nat) (fs : List Field) (s u : State) : Bool :=
  keeps fs s u && decide (u = { s with regs := u.regs, threads := u.threads, tel := u.tel })
    && ((s.threads ++ u.threads).map (·.1)).all fun k => k == th || decide (u.thr k = s.thr k)

/-- Reset's state with register fields set. -/
def withFields (l : List (Field × Nat)) (s : State := State.reset) : State := l.foldl (fun s e => s.setFld e.1 e.2) s

/-! ## Well-formedness: an ill-formed term for each check -/

theorem test_wellFormed_controlSpaceWrite : (Instr.controlSpaceWrite .mgmt 0 0 0).wellFormed = false := by decide
theorem test_wellFormed_clearingRead : (Instr.clearingRead .mgmt 0 65).wellFormed = false := by decide
theorem test_wellFormed_mmWindowWrite : (Instr.mmWindowWrite 0 0 63 2 0 false).wellFormed = false := by decide
theorem test_wellFormed_fwWindowWrite : (Instr.fwWindowWrite 0 0 0 0 0 false).wellFormed = false := by decide
theorem test_wellFormed_switchFineSearch : (Instr.switchFineSearch [(1, 0), (1, 5)]).wellFormed = false := by decide
theorem test_wellFormed_cruiseC3Optics :
    (Instr.cruiseC3Optics (List.replicate 21 0)).wellFormed = false := by decide

/-- A well-formed access of 8 bytes, and the longest one. -/
theorem test_wellFormed_ok : (Instr.controlSpaceWrite .mgmt 0 8 0).wellFormed = true ∧
    (Instr.clearingRead .mgmt 0 64).wellFormed = true ∧ (Instr.mmWindowWrite 0 0 62 2 0 false).wellFormed = true := by decide

/-! ## Disil (chapter 10) -/

/-- Thread 3 RUNNABLE at PC 0 with these registers, the instruction's word in its instruction cache. -/
def thread3 (opc : Nat) (f : Insn) (g : List (BitVec 5 × Word)) (s : State := State.reset) : State :=
  let s := s.setFld (R.SEQ_THREAD_STATUS.STATE 3) stRunnable
  let s := s.setThr 3 (g.foldl (fun (x : Thread) e => x.setReg e.1 e.2) (s.thr 3))
  s.icFill 0 0 (s.ttag 3) (BitVec.ofNat 512 (f.word opc))

/-- An IMM that is well formed for each opcode. -/
def someImm (opc : Nat) : BitVec 32 := if opc = 0x2B then 1 else if opc = 0x46 then 3 else if opc = 0x44 then 0x10 else if opc = 0x45 then 0x400 else 0

/-- Thread 3 in its handler. -/
def handler3 : State := withFields [(R.SEQ_THREAD_STATUS.HANDLER 3, 1)]

/-- GuardedOff: the guard p1 is 0 in every instruction, and its encoding passes; the guard !p0 is refused in every instruction. -/
theorem test_witness_GuardedOff :
    (∀ e ∈ disilRows, Fetches (thread3 e.2.1 { pg := 1, imm := someImm e.2.1 } [] handler3) 3 e.2.1 { pg := 1, imm := someImm e.2.1 } ∧
      e.2.2 (thread3 e.2.1 { pg := 1, imm := someImm e.2.1 } [] handler3) 3 { pg := 1, imm := someImm e.2.1 } = false ∧
      ((thread3 e.2.1 { pg := 1, imm := someImm e.2.1 } [] handler3).thr 3).guard { pg := 1, imm := someImm e.2.1 } = false) ∧
    (∀ e ∈ disilRows, Fetches (thread3 e.2.1 { pn := true } []) 3 e.2.1 { pn := true } ∧
      e.2.2 (thread3 e.2.1 { pn := true } []) 3 { pn := true } = true) ∧
    (let s := thread3 0x60 {} []
     s.tstate 3 = stRunnable ∧ (s.thr 3).held = none ∧ s.fetchedWord 3 = some 0x60 ∧
       0x60 % 256 ∉ disilRows.map (fun r => r.2.1)) := by decide +kernel

/-- R227: an instruction whose guard is 0 goes by. -/
theorem test_guardedOff : ∀ e ∈ disilRows, let f : Insn := { pg := 1, imm := someImm e.2.1 }
    ends (e.1 3 f) (thread3 e.2.1 f [] handler3) (fun u => u.pc 3 == 8 && keepsBut 3 [R.SEQ_THREAD_PC.PC 3]
      (thread3 e.2.1 f [] handler3) u) = true := by decide +kernel

/-- R228: a word with OPC 0x60, 0x0B or 0xFF traps; one with a listed OPC that is another row's does nothing. -/
theorem test_unlisted : (∀ opc ∈ [0x60, 0x0B, 0xFF], ends (.nop 3 {}) (thread3 opc {} []) (fun u =>
      u.tstate 3 == stFaulted && u.fld (R.SEQ_THREAD_STATUS.CAUSE 3) == 1 && u.pc 3 == 0) = true) ∧
    ends (.nop 3 {}) (thread3 0x47 {} []) (fun u => u == thread3 0x47 {} []) = true := by decide +kernel

/-- R228, R64: a refused encoding faults with cause ILLEGAL_OP where there is no handler. -/
theorem test_illegal : ∀ e ∈ disilRows, ends (e.1 3 { pn := true }) (thread3 e.2.1 { pn := true } []) (fun u =>
    u.tstate 3 == stFaulted && u.fld (R.SEQ_THREAD_STATUS.CAUSE 3) == 1 && u.pc 3 == 0) = true := by decide +kernel

/-- gD = g5, gA = g6 = −10, gB = g7 = 3. -/
def f567 : Insn := { d := 5, a := 6, b := 7 }
def two67 (opc : Nat) : State := thread3 opc f567 [(6, -10), (7, 3)]

theorem test_witness_TwoSourceResults : ∀ e ∈ aluRows,
    Issues (two67 e.2.1) 3 e.2.1 f567 (regMask f567.d ||| regMask f567.a ||| regMask f567.b) ∧
      f567.malformed { d := true, a := true, b := true } = false := by decide +kernel

/-- Table 10.4 on −10 and 3, worked by hand. -/
theorem test_alu : ∀ e ∈ [(Instr.add 3 f567, 0x10, (-7 : Word)), (.sub 3 f567, 0x11, -13), (.and 3 f567, 0x12, 2),
      (.or 3 f567, 0x13, -9), (.xor 3 f567, 0x14, -11), (.shl 3 f567, 0x15, -80), (.shr 3 f567, 0x16, 0x1FFFFFFFFFFFFFFE),
      (.sar 3 f567, 0x17, -2), (.mul 3 f567, 0x18, -30), (.mulhu 3 f567, 0x19, 2), (.mins 3 f567, 0x1A, -10),
      (.maxs 3 f567, 0x1B, 3), (.minu 3 f567, 0x1C, 3), (.maxu 3 f567, 0x1D, -10)],
    ends e.1 (two67 e.2.1) (fun u => u.greg 3 5 == e.2.2 && u.pc 3 == 8 && keepsBut 3 [R.SEQ_THREAD_PC.PC 3] (two67 e.2.1) u)
      = true := by decide +kernel

/-- A shift by 64 is a shift by 0 (Table 10.4), and a write to g0 is discarded (Table 10.1). -/
theorem test_alu_edges :
    ends (.shl 3 f567) (thread3 0x15 f567 [(6, 1), (7, 64)]) (fun u => u.greg 3 5 == 1) = true ∧
    ends (.add 3 { a := 6, b := 7 }) (thread3 0x10 { a := 6, b := 7 } [(6, 1), (7, 2)]) (fun u => u.greg 3 0 == 0 && u.pc 3 == 8)
      = true := by decide +kernel

/-- gD = g5, gA = g6 = −10. -/
def f56 (imm : BitVec 32) : Insn := { d := 5, a := 6, imm := imm }
def one6 (opc : Nat) (imm : BitVec 32) : State := thread3 opc (f56 imm) [(6, -10)]

theorem test_witness_ImmediateResults : (∀ e ∈ immRows,
    Issues (one6 e.2.1 7) 3 e.2.1 (f56 7) (regMask (f56 7).d ||| regMask (f56 7).a) ∧
      (f56 7).malformed { d := true, a := true, imm := e.2.2.1 } = false) ∧
    (let f : Insn := { d := 5, imm := 0xFFFFFFFF }
     Issues (thread3 0x27 f []) 3 0x27 f (regMask f.d) ∧ Issues (thread3 0x28 f []) 3 0x28 f (regMask f.d) ∧
       f.malformed { d := true, imm := 0xFFFFFFFF } = false) ∧
    (let f : Insn := { d := 5, a := 6, b := 7, imm := 7 }
     Issues (thread3 0x1E f []) 3 0x1E f (regMask f.d ||| regMask f.a ||| regMask f.b) ∧
       f.malformed { d := true, a := true, b := true, imm := 7 } = false) ∧
    (let f : Insn := { d := 5, a := 6, b := 7, imm := 8 }
     Issues (thread3 0x2B f []) 3 0x2B f (regMask f.d ||| regMask f.a ||| regMask f.b) ∧
       f.malformed { d := true, a := true, b := true, imm := 0xF } = false ∧ 1 ≤ f.imm.toNat % 16 ∧ f.imm.toNat % 16 ≤ 8) ∧
    (let f : Insn := { d := 5, imm := 7 }
     Issues (thread3 0x2C f []) 3 0x2C f (regMask f.d) ∧ f.malformed { d := true, imm := 7 } = false) := by decide +kernel

/-- Table 10.4 with an immediate: IMM is sign-extended; shifts use its low 6 bits. -/
theorem test_aluImm : ∀ e ∈ [(Instr.addi 3 (f56 0xFFFFFFFF), 0x20, (0xFFFFFFFF : BitVec 32), (-11 : Word)),
      (.andi 3 (f56 0xFFFFFFF0), 0x21, 0xFFFFFFF0, -16), (.ori 3 (f56 9), 0x22, 9, -1), (.xori 3 (f56 0xFFFFFFFF), 0x23, 0xFFFFFFFF, 9),
      (.shli 3 (f56 63), 0x24, 63, 0), (.shri 3 (f56 63), 0x25, 63, 1), (.sari 3 (f56 63), 0x26, 63, -1)],
    ends e.1 (one6 e.2.1 e.2.2.1) (fun u => u.greg 3 5 == e.2.2.2 && u.pc 3 == 8) = true := by decide +kernel

/-- MOVI sign-extends, MOVHI keeps the low half, SEL by p2, CRC32C of the nine check bytes' first eight, WBUF word 7. -/
theorem test_moves :
    ends (.movi 3 { d := 5, imm := 0x80000000 }) (thread3 0x27 { d := 5, imm := 0x80000000 } [])
      (fun u => u.greg 3 5 == 0xFFFFFFFF80000000) = true ∧
    ends (.movhi 3 { d := 5, imm := 0x12345678 }) (thread3 0x28 { d := 5, imm := 0x12345678 } [(5, 0xAAAAAAAABBBBBBBB)])
      (fun u => u.greg 3 5 == 0x12345678BBBBBBBB) = true ∧
    ends (.sel 3 { f567 with imm := 2 }) (thread3 0x1E { f567 with imm := 2 } [(6, 11), (7, 22)]) (fun u => u.greg 3 5 == 22) = true ∧
    ends (.sel 3 f567) (thread3 0x1E f567 [(6, 11), (7, 22)]) (fun u => u.greg 3 5 == 11) = true := by decide +kernel

theorem test_wbuf : let f : Insn := { d := 5, imm := 7 }
    let s := (thread3 0x2C f []).setThr 3 { (thread3 0x2C f []).thr 3 with wake := 0x55#512 <<< 448 }
    ends (.wbuf 3 f) s (fun u => u.greg 3 5 == 0x55) = true := by decide +kernel

/-- CRC32C: the ASCII digits 1 to 8 and then 9 give the check value of Castagnoli's CRC, E3069283. -/
theorem test_crc32c : let f : Insn := { d := 5, a := 6, b := 7, imm := 1 }
    let s := thread3 0x2B { f with imm := 8 } [(6, 0xFFFFFFFF), (7, 0x3837363534333231)]
    ends (.crc32c 3 { f with imm := 8 }) s (fun u =>
      ends (.crc32c 3 f) (thread3 0x2B f [(6, u.greg 3 5), (7, 0x39)]) (fun v => v.greg 3 5 == 0x1CF96D7C)) = true := by decide +kernel

theorem test_witness_PredicateResults :
    (let f : Insn := { a := 6, b := 7, imm := 0x67 }
     Issues (thread3 0x1F f []) 3 0x1F f (regMask f.a ||| regMask f.b) ∧ f.malformed { a := true, b := true, imm := 0x77 } = false ∧
       cmpCond (getBits f.imm.toNat 4 3) 3 4 = some false) ∧
    (let f : Insn := { a := 6, imm := 0xFFFFFF21 }
     Issues (thread3 0x29 f [(6, -2)]) 3 0x29 f (regMask f.a) ∧ f.malformed { a := true, imm := 0xFFFFFF77 } = false ∧
       cmpCond (getBits f.imm.toNat 4 3) (-2) ((f.imm.extractLsb' 8 24).signExtend 64) = some true) ∧
    (let f : Insn := { imm := 0x7FF }
     Issues (thread3 0x2A f []) 3 0x2A f 0 ∧ f.malformed { imm := 0x7FF } = false) ∧
    (let f : Insn := { d := 24 }
     Issues (thread3 0x2D f []) 3 0x2D f (groupMask f.d) ∧ f.malformed { d := true } = false ∧ badGroup f.d = false) := by
  decide +kernel

/-- CMP (LT, signed) to p1, CMPI (EQ) with a negative immediate to p2, PLOG p3 := p0 AND NOT p1. -/
theorem test_predicates :
    ends (.cmp 3 { a := 6, b := 7, imm := 0x21 }) (thread3 0x1F { a := 6, b := 7, imm := 0x21 } [(6, -1), (7, 0)])
      (fun u => (u.thr 3).pred 1 && u.pc 3 == 8) = true ∧
    ends (.cmpi 3 { a := 6, imm := 0xFFFFFF02 }) (thread3 0x29 { a := 6, imm := 0xFFFFFF02 } [(6, -1)])
      (fun u => (u.thr 3).pred 2) = true ∧
    ends (.plog 3 { imm := 0x643 }) (thread3 0x2A { imm := 0x643 } []) (fun u => (u.thr 3).pred 3) = true := by decide +kernel

theorem test_wbufL : let f : Insn := { d := 8 }
    let s := (thread3 0x2D f []).setThr 3 { (thread3 0x2D f []).thr 3 with wake := 0x55#512 <<< 448 }
    ends (.wbufL 3 f) s (fun u => u.greg 3 15 == 0x55 && u.greg 3 8 == 0) = true := by decide +kernel

theorem test_witness_JumpResults :
    Issues (thread3 0x00 {} []) 3 0x00 {} 0 ∧ ({} : Insn).malformed {} = false ∧
    (let f : Insn := { imm := 0xFFFFFFFF }
     Issues (thread3 0x01 f []) 3 0x01 f 0 ∧ f.malformed { imm := 0xFFFFFFFF } = false) ∧
    (let f : Insn := { d := 31, imm := 0x7FFFFFFF }
     Issues (thread3 0x02 f []) 3 0x02 f (regMask f.d) ∧ f.malformed { d := true, imm := 0xFFFFFFFF } = false) ∧
    (let f : Insn := { a := 6 }
     Issues (thread3 0x03 f [(6, -1)]) 3 0x03 f (regMask f.a) ∧ f.malformed { a := true } = false) ∧
    (let f : Insn := { imm := 4 }
     Issues (thread3 0x0A f []) 3 0x0A f 0 ∧ f.malformed { imm := 7 } = false ∧ f.imm.toNat % 8 ≤ 4) := by decide +kernel

/-- NOP; BR back by one word from 0; JAL; JR, which drops bits [2:0] and keeps 57 bits; CHK. -/
theorem test_jumps :
    ends (.nop 3 {}) (thread3 0 {} []) (fun u => u.pc 3 == 8) = true ∧
    ends (.br 3 { imm := 0xFFFFFFFF }) (thread3 1 { imm := 0xFFFFFFFF } []) (fun u => u.pc 3 == 0x1FFFFFFFFFFFFF8) = true ∧
    ends (.jal 3 { d := 5, imm := 2 }) (thread3 2 { d := 5, imm := 2 } []) (fun u => u.pc 3 == 16 && u.greg 3 5 == 8) = true ∧
    ends (.jr 3 { a := 6 }) (thread3 3 { a := 6 } [(6, 0x107)]) (fun u => u.pc 3 == 0x100) = true ∧
    ends (.chk 3 { imm := 4 }) (thread3 0xA { imm := 4 } []) (fun u => (u.thr 3).chk == 4 && u.pc 3 == 8) = true := by decide +kernel

/-- CSRR of each number of Table 10.6, of the first reserved number, and of the last. -/
theorem test_witness_CsrValues : ∀ n ∈ [0, 1, 2, 3, 4, 5, 6, 7, 8, 9, 10, 11, 12, 255],
    let f : Insn := { d := 5, imm := BitVec.ofNat 32 n }
    Issues (thread3 0x09 f []) 3 0x09 f (regMask f.d) ∧ f.malformed { d := true, imm := 0xFF } = false ∧ f.imm.toNat % 256 = n := by
  decide +kernel

theorem test_csrr : let f (n : Nat) : Insn := { d := 5, imm := BitVec.ofNat 32 n }
    ends (.csrr 3 (f 1)) (thread3 9 (f 1) []) (fun u => u.greg 3 5 == 3) = true ∧
    ends (.csrr 3 (f 0)) (thread3 9 (f 0) [] (withFields [(R.GLB_TICK.TICK, 77)])) (fun u => u.greg 3 5 == 77) = true ∧
    ends (.csrr 3 (f 12)) (thread3 9 (f 12) []) (fun u => u.tstate 3 == stFaulted) = true := by decide +kernel

/-- Thread 3 with a trap vector at byte 0x80. -/
def vector3 : State := withFields [(R.SEQ_THREAD_TRAPVEC.VEC 3, 16)]

theorem test_witness_TrapAndReturn :
    (let f : Insn := { imm := 5 }
     Issues (thread3 5 f [] vector3) 3 5 f 0 ∧ f.malformed { imm := 0xFFFFFFFF } = false ∧
       (thread3 5 f [] vector3).flag (R.SEQ_THREAD_STATUS.HANDLER 3) = false ∧
       (thread3 5 f [] vector3).fld (R.SEQ_THREAD_TRAPVEC.VEC 3) ≠ 0) ∧
    (let f : Insn := { imm := 1 }
     Issues (thread3 6 f [] handler3) 3 6 f 0 ∧ (thread3 6 f [] handler3).flag (R.SEQ_THREAD_STATUS.HANDLER 3) = true ∧
       f.malformed { imm := 1 } = false) ∧
    (let f : Insn := { imm := 2 }
     Fetches (thread3 6 f [] handler3) 3 6 f ∧ f.imm.toNat / 2 ≠ 0) ∧
    (let s := (thread3 0 {} [] vector3).setThr 3 { held := some 4 }
     s.tstate 3 = stRunnable ∧ (s.thr 3).held = some 4 ∧ s.flag (R.SEQ_THREAD_STATUS.HANDLER 3) = false ∧
       s.fld (R.SEQ_THREAD_TRAPVEC.VEC 3) ≠ 0) := by decide +kernel

/-- TRAP enters the handler; TRET with IMM[0] = 1 goes on after the trap. -/
theorem test_trap :
    ends (.trap 3 { imm := 5 }) (thread3 5 { imm := 5 } [] vector3) (fun u => u.pc 3 == 0x80 && (u.thr 3).trapCause == 6 &&
      (u.thr 3).trapInfo == 5 && u.flag (R.SEQ_THREAD_STATUS.HANDLER 3) && u.tstate 3 == stRunnable &&
      (u.thr 3).trapPc == 0) = true ∧
    (let s := thread3 6 { imm := 1 } [] handler3
     ends (.tret 3 { imm := 1 }) (s.setThr 3 { (s.thr 3) with trapPc := 0x40 }) (fun u => u.pc 3 == 0x48 &&
       !u.flag (R.SEQ_THREAD_STATUS.HANDLER 3)) = true) := by decide +kernel

/-- WAIT.T at the boundary: gA + IMM = GLB_TICK goes by, GLB_TICK + 1 waits; wake at GLB_TICK = target and one before. -/
theorem test_witness_WaitForTick :
    (let f : Insn := { a := 6, imm := 0xFFFFFFFF }
     let s (t : Nat) := thread3 7 f [(6, 11)] (withFields [(R.GLB_TICK.TICK, t)])
     Issues (s 10) 3 7 f (regMask f.a) ∧ f.malformed { a := true, imm := 0xFFFFFFFF } = false ∧
       ((s 10).greg 3 f.a + f.imm.signExtend 64).toNat ≤ (s 10).tick ∧
       Issues (s 9) 3 7 f (regMask f.a) ∧ (s 9).tick < ((s 9).greg 3 f.a + f.imm.signExtend 64).toNat) ∧
    (let s (t : Nat) := (withFields [(R.GLB_TICK.TICK, t), (R.SEQ_THREAD_STATUS.STATE 3, stWaiting)]).setThr 3 { wait := .tick 10 }
     (s 10).tstate 3 = stWaiting ∧ ((s 10).thr 3).wait = .tick 10 ∧ ((s 10).thr 3).held = none ∧ 10 ≤ (s 10).tick ∧
       ((s 9).thr 3).wait = .tick 10 ∧ (s 9).tick < 10) ∧
    Issues (thread3 4 {} []) 3 4 {} 0 ∧ ({} : Insn).malformed {} = false := by decide +kernel

theorem test_waitT :
    (let f : Insn := { a := 6, imm := 0xFFFFFFFF }
     let s (t : Nat) := thread3 7 f [(6, 11)] (withFields [(R.GLB_TICK.TICK, t)])
     ends (.waitT 3 f) (s 10) (fun u => u.pc 3 == 8 && u.tstate 3 == stRunnable) = true ∧
     ends (.waitT 3 f) (s 9) (fun u => u.pc 3 == 0 && u.tstate 3 == stWaiting && u.fld (R.SEQ_THREAD_STATUS.REASON 3) == 5 &&
       decide ((u.thr 3).wait = .tick 10)) = true) ∧
    ends (.halt 3 {}) (thread3 4 {} []) (fun u => u.tstate 3 == stHalted && u.pc 3 == 8) = true := by decide +kernel

theorem test_waitTWake :
    let s (t : Nat) := (withFields [(R.GLB_TICK.TICK, t), (R.SEQ_THREAD_STATUS.STATE 3, stWaiting)]).setThr 3 { wait := .tick 10 }
    ends (.waitTWake 3) (s 10) (fun u => u.tstate 3 == stRunnable && u.pc 3 == 8) = true ∧
    ends (.waitTWake 3) (s 9) (fun u => u == s 9) = true := by decide +kernel

/-- WAIT.W on watch line 20, or on the one given, with deadline `d` at GLB_TICK 10. -/
def fW : Insn := { a := 6, b := 7, st := 8 }
def watch20 (line d : Word) (st : Nat) : State :=
  (thread3 8 fW [(6, line), (7, d)] (withFields [(R.GLB_TICK.TICK, 10)])).setWl 20 { state := st, snap := 0xABC }

theorem test_witness_WaitForWatch :
    (∀ e ∈ [(20, 10, 2), (20, 0, 2), (20, 11, 2), (20, 0, 3), (20, 0, 0), (20, 0, 1), (20, 0, 4), (20, 0, 5), (4096, 0, 2)],
      Issues (watch20 (BitVec.ofNat 64 e.1) (BitVec.ofNat 64 e.2.1) e.2.2) 3 8 fW (regMask fW.a ||| regMask fW.b ||| regMask fW.st) ∧
        fW.malformed { a := true, b := true, st := true } = false) ∧
    (∀ st ∈ [2, 3], (watch20 20 0 st).fld (R.SEQ_WATCH_CFG.PART 20) = (watch20 20 0 st).tpart 3 ∧
      ¬ ((watch20 20 0 st).wl 20).state ∈ [0, 1, 4, 5]) ∧
    (∀ st ∈ [0, 1, 4, 5], ((watch20 20 0 st).wl 20).state ∈ [0, 1, 4, 5]) ∧
    10 ≤ (watch20 20 10 2).tick ∧ (watch20 20 11 2).tick < 11 := by decide +kernel

theorem test_waitW :
    ends (.waitW 3 fW) (watch20 20 0 3) (fun u => (u.thr 3).wake == 0xABC && (u.wl 20).state == 2 && u.pc 3 == 8) = true ∧
    ends (.waitW 3 fW) (watch20 20 10 2) (fun u => u.greg 3 8 == 5 && u.pc 3 == 8 && u.tstate 3 == stRunnable) = true ∧
    ends (.waitW 3 fW) (watch20 20 11 2) (fun u => u.tstate 3 == stParked && (u.wl 20).state == 4 && (u.wl 20).thread == 3 &&
      (u.wl 20).deadline == 11 && u.pc 3 == 0) = true ∧
    ends (.waitW 3 fW) (watch20 4096 0 2) (fun u => u.tstate 3 == stFaulted && u.fld (R.SEQ_THREAD_STATUS.CAUSE 3) == 4) = true := by
  decide +kernel

/-! ## Threads, instruction caches, watch lines, snoops -/

/-- Thread 3 assigned to partition 2, which is enabled, in a thread state. -/
def thread3In (st : Nat) : State := withFields [(R.SEQ_THREAD_CFG.ASSIGNED 3, 1), (R.SEQ_THREAD_CFG.PART 3, 2),
  (R.PRT_STATUS.ENABLED 2, 1), (R.SEQ_THREAD_STATUS.STATE 3, st)]

/-- START from HALTED, through the management port and through the partition's page; HALT of a parked thread; RESUME and SKIP from
FAULTED; the refusals of Table 3.3. -/
theorem test_witness_ThreadCommands : let s := thread3In
    (∀ page ∈ [none, some (2 : PartNo)], (s stHalted).sees .mgmt (cmdOffset page 3) true = true ∧ (s stHalted).ownPage page 3 = true) ∧
    (s stHalted).canStart 3 = true ∧ (s stFaulted).tstate 3 = stFaulted ∧ ((s stFaulted).thr 3).held = none ∧
    (let p := ((s stParked).setFld (R.SEQ_THREAD_STATUS.WATCH 3) 20).setWl 20 { state := 4, thread := 3 }
     p.tstate 3 = stParked ∧ p.fld (R.SEQ_THREAD_STATUS.WATCH 3) = 20 ∧ (p.wl 20).state = 4 ∧ (p.wl 20).thread = 3) ∧
    (s stHalted).ownPage (some 1) 3 = false ∧ (s stRunnable).canStart 3 = false ∧ (s stRunnable).tstate 3 ≠ stFaulted := by
  decide +kernel

theorem test_threadCommands : let s := thread3In
    ends (.threadStart .mgmt none 3) (s stHalted) (fun u => u.tstate 3 == stRunnable &&
      keepsBut 3 [R.SEQ_THREAD_STATUS.STATE 3, R.SEQ_THREAD_STATUS.REASON 3] (s stHalted) u) = true ∧
    ends (.threadStart .mgmt none 3) (s stRunnable) (fun u => u.flag R.SEQ_EVENTS.CMD_DENY && u.tstate 3 == stRunnable) = true ∧
    ends (.threadStart .mgmt (some 1) 3) (s stHalted) (fun u => u.flag (R.PRT_STATUS.CMD_DENY 1) && u.tstate 3 == stHalted) = true ∧
    ends (.threadResume .mgmt none 3) (s stFaulted) (fun u => u.tstate 3 == stRunnable && u.pc 3 == 0) = true ∧
    ends (.threadSkip .mgmt none 3) (s stFaulted) (fun u => u.tstate 3 == stRunnable && u.pc 3 == 8) = true := by decide +kernel

theorem test_threadHalt : let p := ((thread3In stParked).setFld (R.SEQ_THREAD_STATUS.WATCH 3) 20).setWl 20 { state := 4, thread := 3 }
    ends (.threadHalt .mgmt none 3) p (fun u => u.tstate 3 == stHalted && (u.wl 20).state == 2 &&
      !u.flag (R.SEQ_THREAD_STATUS.DRAINING 3)) = true ∧
    ends (.threadHalt .mgmt none 3) (p.setFld (R.SEQ_THREAD_STATUS.OUTSTANDING 3) 2) (fun u =>
      u.flag (R.SEQ_THREAD_STATUS.DRAINING 3)) = true := by decide +kernel

theorem test_threadReset :
    let x : Thread := { g := [(5, 7)], p := 0xFE, wake := 3, chk := 4, trapPc := 8 }
    let s := ((thread3In stRunnable).setFld (R.SEQ_THREAD_STATUS.HANDLER 3) 1).setThr 3 x
    ends (.threadReset .mgmt none 3) s (fun u => u.tstate 3 == stHalted && decide (u.thr 3 = ({} : Thread)) &&
      !u.flag (R.SEQ_THREAD_STATUS.HANDLER 3) && u.tpart 3 == 2) = true := by decide +kernel

/-- Partition 0 with the 64 KiB page at FVA 0 translated to line 0 of this module (FEID 5, with its own route), and the granule of that line at HBM byte
0x1000000 (Sieve entry 0: loads, stores, atomics). -/
def mapped (s : State := State.reset) (sieveBits : Nat := 0) : State :=
  let s := withFields [(R.PRT_STATUS.ENABLED 0, 1), (R.SIV_PART.EN 0, 1), (R.SIV_PART.SIZES 0, 1), (R.GLB_FEID.FEID, 5)] s
  let pte := packBits [(0, 1), (1, 1), (2, 1), (3, 1), (4, 1), (5, 1), (16, 5)]
  let entry := packBits [(0, 1), (6, 1), (7, 1), (8, 1), (64, 0x100)] + sieveBits
  let x : XltState := { s.xlt with tlb := [(xltKey 0 0 0, BitVec.ofNat 128 pte)] }
  let v : SieveState := { s.siv with table := [(0, BitVec.ofNat 128 entry)] }
  { s with xlt := x, siv := v, swc := { s.swc with routes := [(5, 3)] } }

/-- Instruction-cache lines of partitions 0 and 1. -/
def twoLines : State := { State.reset with icache := [(icKey 0 0 0, 1), (icKey 0 0 (BitVec.ofNat 16 1024), 2)] }

theorem test_witness_InstructionCaches :
    twoLines.sees .mgmt R.SEQ_ICACHE_INV.adr true = true ∧
    (let s := (mapped (withFields [(R.SEQ_THREAD_STATUS.STATE 3, stWaiting)])).setThr 3 { wait := .fetch 0x40 }
     (s.thr 3).wait = .fetch 0x40 ∧ s.tstate 3 = stWaiting ∧ (s.fetchLine 3 0x40).2 = some 0x40001) ∧
    (let s := (withFields [(R.SEQ_THREAD_STATUS.STATE 3, stWaiting)]).setThr 3 { wait := .fetch 0x40 }
     (s.thr 3).wait = .fetch 0x40 ∧ s.tstate 3 = stWaiting ∧ (s.fetchLine 3 0x40).2 = none) := by decide +kernel

theorem test_icache :
    ends (.icacheInvalidate .mgmt 1) twoLines (fun u => u.icache.map (·.2) == [1]) = true ∧
    ends (.icacheFill 3) ((mapped (withFields [(R.SEQ_THREAD_STATUS.STATE 3, stWaiting)])).setThr 3 { wait := .fetch 0x40 })
      (fun u => u.tstate 3 == stRunnable && u.icache.length == 1) = true ∧
    ends (.icacheFill 3) ((withFields [(R.SEQ_THREAD_STATUS.STATE 3, stWaiting)]).setThr 3 { wait := .fetch 0x40 })
      (fun u => u.tstate 3 == stFaulted && u.fld (R.SEQ_THREAD_STATUS.CAUSE 3) == 2) = true := by decide +kernel

/-- Watch line 20 on HBM line `line` (or that line of a host), enabled or not, in a state. -/
def watchOn (tgt line en st : Nat) : State :=
  (withFields [(R.SEQ_WATCH_ADDR.TARGET 20, tgt), (R.SEQ_WATCH_ADDR.LINE 20, line), (R.SEQ_WATCH_CFG.ENABLE 20, en),
    (R.HST_PORT_CFG.CACHE_EN 0, 1), (R.HST_PORT_STATUS.CACHE_ON 0, 1), (R.HST_PORT_STATUS.LINK 0, 2), (R.GLB_TICK.TICK, 50)]).setWl
    20 { state := st }

/-- The first and the last visible line of module memory, the one after it, a host line, and DISABLE. -/
theorem test_witness_WatchConfiguration : let v := State.reset.visibleEnd / 64
    (watchOn 0 0 0 0).sees .mgmt (R.SEQ_WATCH_CFG.adr (20 : Fin 4096)) true = true ∧
    (∀ l ∈ [0, v - 1], let s := watchOn 0 l 0 0
      s.flag (R.SEQ_WATCH_CFG.ENABLE 20) = false ∧ s.fld (R.SEQ_WATCH_ADDR.TARGET 20) = 0 ∧
        64 * s.fld (R.SEQ_WATCH_ADDR.LINE 20) + 64 ≤ s.visibleEnd) ∧
    (let s := watchOn 1 7 0 0
     s.fld (R.SEQ_WATCH_ADDR.TARGET 20) = 1 ∧ s.watchCount 0 < 1024 ∧ s.cacheUp 0 = true) ∧
    (let s := watchOn 0 v 0 0
     s.visibleEnd < 64 * s.fld (R.SEQ_WATCH_ADDR.LINE 20) + 64) ∧
    (let s := watchOn 0 0 1 2
     s.flag (R.SEQ_WATCH_CFG.ENABLE 20) = true ∧ (s.wl 20).state ≠ 4) := by decide +kernel

theorem test_watchConfiguration : let v := State.reset.visibleEnd / 64
    ends (.watchEnable .mgmt 20 true 3) (watchOn 0 (v - 1) 0 0) (fun u => (u.wl 20).state == 1 &&
      u.flag (R.SEQ_WATCH_CFG.ENABLE 20) && u.fld (R.SEQ_WATCH_CFG.PART 20) == 3 && u.flag (R.SEQ_WATCH_CFG.MODE 20) &&
      keeps [R.SEQ_WATCH_CFG.ENABLE 20, R.SEQ_WATCH_CFG.PART 20, R.SEQ_WATCH_CFG.MODE 20] (watchOn 0 (v - 1) 0 0) u) = true ∧
    ends (.watchEnable .mgmt 20 false 3) (watchOn 1 7 0 0) (fun u => (u.wl 20).state == 1 && (u.wl 20).reading &&
      u.out == [.rdShared 0 7]) = true ∧
    ends (.watchEnable .mgmt 20 false 3) (watchOn 0 v 0 0) (fun u => (u.wl 20).state == 5 && u.flag R.SEQ_EVENTS.WATCH_ERROR) = true ∧
    ends (.watchDisable .mgmt 20 false 3) (watchOn 0 0 1 2) (fun u => (u.wl 20).state == 0 &&
      !u.flag (R.SEQ_WATCH_CFG.ENABLE 20)) = true := by decide +kernel

/-- A work record with SEQ 9 and no payload: FORMAT 1 in byte 7, its CRC-32C in bytes 60 to 63. -/
def record9 : Line := BitVec.ofNat 512 (packBits [(0, 9), (56, 1),
  (480, (crc32c ((lineBytes (BitVec.ofNat 512 (packBits [(0, 9), (56, 1)]))).take 60)).toNat)])

theorem test_witness_WatchEventsAndSnoops :
    (let s := watchOn 0 0 1 1
     (s.wl 20).state = 1 ∧ s.fld (R.SEQ_WATCH_ADDR.TARGET 20) = 0 ∧ s.flag (R.SEQ_WATCH_CFG.MODE 20) = false) ∧
    (let s := (watchOn 1 7 1 1).setFld (R.SEQ_WATCH_CFG.MODE 20) 1
     (s.wl 20).state = 1 ∧ s.fld (R.SEQ_WATCH_ADDR.TARGET 20) ≠ 0 ∧ s.flag (R.SEQ_WATCH_CFG.MODE 20) = true ∧
       recValid record9 = true) ∧
    (let s : State := { watchOn 0 0 1 2 with reports := [20] }
     20 ∈ s.reports ∧ (s.wl 20).state = 2 ∧ s.flag (R.SEQ_WATCH_CFG.MODE 20) = false) ∧
    (let s : State := { (watchOn 0 0 1 4).setWl 20 { state := 4, thread := 3, deadline := 50 } with reports := [20] }
     20 ∈ s.reports ∧ (s.wl 20).state = 4 ∧ (s.wl 20).thread = (3 : ThreadNo).val ∧ (s.thr 3).held = none ∧
       (s.wl 20).deadline ≠ 0 ∧ (s.wl 20).deadline ≤ s.tick ∧ s.flag (R.SEQ_THREAD_CFG.TRAP_STATUS 3) = false) ∧
    (let s := (watchOn 1 7 1 2).setWl 20 { state := 2, reading := true }
     (s.wl 20).reading = true ∧ (s.wl 20).state = 2 ∧ s.flag (R.SEQ_WATCH_CFG.MODE 20) = false ∧ 2 ≤ (s.wl 20).state ∧
       (s.wl 20).state ≤ 4) ∧
    (watchOn 1 7 1 2).sharedBy 0 7 = [20] ∧ (watchOn 1 7 1 2).sharedBy 0 8 = [] := by decide +kernel

theorem test_watchEvents :
    ends (.watchArmed 20 none) (watchOn 0 0 1 1) (fun u => (u.wl 20).state == 2) = true ∧
    ends (.watchArmed 20 (some record9)) ((watchOn 1 7 1 1).setFld (R.SEQ_WATCH_CFG.MODE 20) 1)
      (fun u => (u.wl 20).state == 2 && (u.wl 20).lastSeq == 9) = true ∧
    ends (.watchEvaluate 20) { watchOn 0 0 1 2 with reports := [20] } (fun u => (u.wl 20).state == 3 && u.reports == []) = true ∧
    (let s : State := { (watchOn 0 0 1 4).setWl 20 { state := 4, thread := 3 } with reports := [20] }
     ends (.watchEvaluate 20) ((s.putBytes 0 [0x7F]).setFld (R.SEQ_THREAD_STATUS.STATE 3) stParked) (fun u =>
       (u.thr 3).wake == 0x7F && u.tstate 3 == stRunnable && u.pc 3 == 8 && (u.wl 20).state == 2) = true) := by decide +kernel

theorem test_watchDeadline :
    let s (t : Nat) := (((watchOn 0 0 1 4).setWl 20 { state := 4, thread := 3, deadline := t }).setThr 3 { waitReg := 8 }).setFld
      (R.SEQ_THREAD_STATUS.STATE 3) stParked
    ends (.watchDeadline 20) (s 50) (fun u => u.greg 3 8 == 5 && u.tstate 3 == stRunnable && (u.wl 20).state == 2) = true ∧
    ends (.watchDeadline 20) (s 51) (fun u => u == s 51) = true := by decide +kernel

theorem test_snoops :
    ends (.snpData 0 7) (watchOn 1 7 1 2) (fun u => u.out == [.snoopRsp 0 7 true] && (u.wl 20).state == 2) = true ∧
    ends (.snpCur 0 8) (watchOn 1 7 1 2) (fun u => u.out == [.snoopRsp 0 8 false]) = true ∧
    ends (.snpInv 0 7) (watchOn 1 7 1 2) (fun u => u.out == [.rdShared 0 7, .snoopRsp 0 7 true] && (u.wl 20).reading) = true ∧
    (let s := (watchOn 1 7 1 2).setWl 20 { state := 2, reading := true }
     ends (.watchRereadData 20 (some 5)) s (fun u => (u.wl 20).state == 3 && (u.wl 20).snap == 5) = true ∧
     ends (.watchRereadData 20 none) s (fun u => (u.wl 20).state == 5) = true) := by decide +kernel

/-! ## Control space, tables, time -/

/-- Words of control space that a BAR0 access of H0 does not see, and one it may only read. -/
theorem test_witness_DeniedAccess : let via : Via := .bar0 0 none
    State.reset.sees via 0x300000 false = false ∧ State.reset.sees via 0x3FFFFF8 false = false ∧
      State.reset.sees via 0x300000 true = false ∧ State.reset.sees via 0 true = false ∧ State.reset.sees via 0x3FF8 true = false := by
  decide +kernel

/-- R25. -/
theorem test_deniedAccess :
    ends (.clearingRead (.bar0 0 none) 0x300000 8) State.reset (fun u => u.out == [.readData (.bar0 0 none) 0x300000 0] &&
      u.fld (R.HST_COUNTS0.DENIED 0) == 1) = true ∧
    ends (.controlSpaceWrite (.bar0 0 none) 0x300000 8 1) State.reset (fun u => u.fld (R.HST_COUNTS0.DENIED 0) == 1 &&
      keepsRest [R.HST_COUNTS0.DENIED 0] State.reset { u with shadow := [] }) = true := by decide +kernel

theorem test_witness_ControlSpace : State.reset.sees .mgmt 0 true = true ∧ State.reset.sees .jtag 0 false = true ∧
    (withFields [(R.GLB_CRUISE_STATUS.PHASE, 2)]).sees (.bar0 0 none) 0 false = true ∧ (8 : BitVec 26).toNat % 8 = 0 ∧ (12 : BitVec 26).toNat % 8 = 4 ∧
    (4 : BitVec 26).toNat % 8 ≠ 0 ∧ State.reset.flag R.MGT_SET_STATUS.NONE = false ∧
    (∀ o ∈ plainRegs, State.reset.sees .mgmt o true = true ∧ State.reset.sees .mgmt o false = true) := by decide +kernel

/-- Table 0.3, R9: an RW field takes what is written unless it is reserved, a W1C field keeps the bits that are written 0. -/
theorem test_plainRegs : let cap (v : Word) := exec (.controlSpaceWrite .mgmt (BitVec.ofNat 26 R.GLB_POWER_CAP.adr) 8 v)
    let shows (r : Host.Outcome State Fault Refusal) (n : Nat) : Bool := match r with
      | .next u => u.fld R.GLB_POWER_CAP.CAP == n && keepsRest [R.GLB_POWER_CAP.CAP] State.reset u
      | _ => false
    shows (cap 900 State.reset) 900 = true ∧ shows (cap 100 (withFields [(R.GLB_POWER_CAP.CAP, 900)])) 900 = true ∧
    ends (.controlSpaceWrite .mgmt (BitVec.ofNat 26 R.SWC_EVENTS.adr) 8 0xFFFFFFFFFFFFFFFE) (State.reset.setReg R.SWC_EVENTS.adr 3)
      (fun u => u.reg R.SWC_EVENTS.adr == 1) = true := by decide +kernel

/-- R6 to R8: an aligned 8-byte write acts, one of 4 bytes does not; a read of 8 and of 4 bytes; RC fields are cleared. -/
theorem test_controlSpace : let a : BitVec 26 := BitVec.ofNat 26 R.GLB_REF_CTL.adr
    let d : BitVec 26 := BitVec.ofNat 26 (R.HST_COUNTS0.adr 0)
    ends (.controlSpaceWrite .mgmt a 8 3) State.reset (fun u => u.flag R.GLB_REF_CTL.PREFER && u.flag R.GLB_REF_CTL.REVERT) = true ∧
    ends (.controlSpaceWrite .mgmt a 4 3) State.reset (fun u => u == State.reset) = true ∧
    ends (.clearingRead .mgmt d 8) (withFields [(R.HST_COUNTS0.DENIED 0, 7)]) (fun u => u.fld (R.HST_COUNTS0.DENIED 0) == 0 &&
      u.out.length == 1) = true ∧
    ends (.clearingRead .mgmt a 2) State.reset (fun u => u.out == [.readData .mgmt a.toNat 0]) = true := by decide +kernel

/-- A datagram write, and the same datagram again. -/
def keptOne : State :=
  let k : Kept := { src := 1, seq := 2, tick := 0, op := 2, status := sOK, off := BitVec.ofNat 64 R.GLB_REF_CTL.adr, value := 3 }
  State.reset.keep k

theorem test_witness_OtherAccess : (State.reset.keptFor 1).find? (fun k => k.seq == 2) = none ∧
    (BitVec.ofNat 64 R.GLB_REF_CTL.adr).toNat % 8 = 0 ∧ State.reset.sees .mgmt R.GLB_REF_CTL.adr true = true ∧ (0x3FFFFF8 : BitVec 64).toNat < 0x4000000 ∧
    ((keptOne.keptFor 1).find? (fun k => k.seq == 2)).isSome = true := by decide +kernel

theorem test_datagrams : let a := BitVec.ofNat 64 R.GLB_REF_CTL.adr
    ends (.mgmtDatagramWrite 1 2 a 3) State.reset (fun u => u.flag R.GLB_REF_CTL.PREFER && u.out == [.datagram 1 2 2 sOK a 3]) = true ∧
    ends (.mgmtDatagramWrite 1 2 a 0) keptOne (fun u => u.out == [.datagram 1 2 2 sOK a 3] && u.regs == keptOne.regs) = true ∧
    ends (.mgmtDatagramRead 1 9 a) (withFields [(R.GLB_REF_CTL.PREFER, 1)]) (fun u => u.out.length == 1) = true ∧
    ends (.csrAccess (BitVec.ofNat 23 (R.GLB_REF_CTL.adr / 8)) true 1) State.reset (fun u => u.flag R.GLB_REF_CTL.PREFER) = true := by
  decide +kernel

/-- A Route Table word staged; a plan staged or none; a plan header that is rejected: its plan number is another's. -/
theorem test_witness_TableWrites :
    let r : State := { State.reset with swc := { State.reset.swc with routeStage := some (9, 5) } }
    let g : State := { State.reset with swc := { State.reset.swc with groupStage := some (9, [(3, 5)]) } }
    (Wide.group 9 126).off = 0x2000000 + 0x400 * 9 + 8 * 126 ∧ r.sees .mgmt (0x1000000 + 16 * 9 + 8) true = true ∧
    r.swc.routeStage = some ((9 : BitVec 16).toNat, 5) ∧ 9 ≠ (8 : BitVec 16).toNat ∧ r.sees .mgmt (0x1000000 + 16 * 8 + 8) true = true ∧ State.reset.swc.groupStage = none ∧
    g.swc.groupStage = some ((9 : BitVec 12).toNat, [((3 : BitVec 7).toNat, (5 : Word))]) ∧ State.reset.opt.stage = none ∧
    State.reset.planReject 2 (State.reset.planWord 2) 0x200 = 0 ∧ State.reset.planReject 2 (State.reset.planWord 2) 0x300 ≠ 0 := by
  decide +kernel

theorem test_tables :
    let r : State := { State.reset with swc := { State.reset.swc with routeStage := some (9, 5) } }
    let g : State := { State.reset with swc := { State.reset.swc with groupStage := some (9, [(3, 5)]) } }
    ends (.tableWordStage .mgmt (.route 9) 5) State.reset (fun u => u == r) = true ∧
    ends (.tableWordStage .mgmt (.group 9 3) 5) State.reset (fun u => u == g) = true ∧
    ends (.routeEntryCommit .mgmt 9 7) r (fun u => u.route 9 == 7 * 2 ^ 64 + 5 && u.route 8 == 0 && u.swc.routeStage == none) = true ∧
    ends (.routeEntryCommit .mgmt 8 7) r (fun u => u.route 8 == 7 * 2 ^ 64 && u.route 9 == 0 && u.swc.routeStage == some (9, 5)) = true ∧
    ends (.groupEntryCommit .mgmt 9 7) g (fun u => u.groupWord 9 3 == 5 && u.groupWord 9 127 == 7) = true := by decide +kernel

theorem test_plans :
    ends (.planCommit .mgmt 2 0x200) State.reset (fun u => u.planWord 2 256 == 0x200 && !u.flag R.OPT_EVENTS.PLAN_REJECT) = true ∧
    ends (.planCommit .mgmt 2 0x300) State.reset (fun u => u.flag R.OPT_EVENTS.PLAN_REJECT &&
      u.fld R.OPT_PLAN_STATUS.REJECT == 1) = true := by decide +kernel

/-- The module is powered. -/
def powered (s : State := State.reset) : State := { s with cru := { s.cru with on := true } }

/-- It has finished Cruise, and nothing is due at its next tick boundary, which begins a window of 1,024 ticks. -/
def quiet : State := powered (withFields [(R.GLB_TICK.TICK, 1023), (R.GLB_TIME_STATUS.PARENT_FEID, 0xFFFF), (R.GLB_POWER_CAP.CAP, 1000),
  (R.GLB_CRUISE_STATUS.PHASE, 8), (R.GLB_POWER_STATUS.LEVEL, 0)])

theorem test_witness_TickCounts : (powered).cru.on = true ∧ State.reset.tim.step = none ∧ State.reset.tim.sel = none ∧
    State.reset.tim.next = none ∧ (withFields [(R.GLB_TIME_STATUS.PARENT_FEID, 0xFFFF)]).fld R.GLB_TIME_STATUS.PARENT_FEID = 0xFFFF ∧
    (let s : State := { State.reset with tim := { State.reset.tim with step := some (-1) } }
     s.tim.step = some (-1)) ∧
    QuietTick quiet ∧ quiet.cru.on = true := by decide +kernel

set_option maxRecDepth 20000 in
/-- R35: the last tick is followed by 0. R40: a step of −1 tick is made at the boundary. -/
theorem test_tick :
    ends (.tickBoundary {}) (powered (withFields [(R.GLB_TICK.TICK, 41)])) (fun u => u.tick == 42) = true ∧
    ends (.tickBoundary { watts := 700, tdie := 55 }) quiet (fun u => u.tick == 1024 && u.fld R.GLB_POWER_STATUS.INPUT_W == 700 &&
      u.fld R.MGT_SENSE.TDIE == 55 && u.out == [] && keeps [R.GLB_TICK.TICK, R.GLB_POWER_STATUS.INPUT_W, R.GLB_POWER_STATUS.VIN,
        R.GLB_POWER_STATUS.IIN, R.GLB_POWER_STATUS.TARGET, R.MGT_SENSE.TDIE, R.MGT_SENSE.THBM, R.MGT_SENSE.TLASER,
        R.MGT_SENSE.RAIL_W] quiet u) = true ∧
    (withFields [(R.GLB_TICK.TICK, 2 ^ 64 - 1)]).countTick.tick = 0 ∧
    (let s : State := { withFields [(R.GLB_TICK.TICK, 41)] with tim := { State.reset.tim with step := some (-1) } }
     s.countTick.tick = 43) := by decide +kernel

/-- Both references valid, A selected; at a multiple of 2^20 ticks. -/
def refs (a b sel : Nat) : State := withFields [(R.GLB_TIME_STATUS.REFA_OK, a), (R.GLB_TIME_STATUS.REFB_OK, b),
  (R.GLB_TIME_STATUS.REF_SEL, sel), (R.GLB_TIME_STATUS.STATE, tsLOCKED), (R.GLB_REF_CTL.REVERT, 1), (R.GLB_TICK.TICK, 2 ^ 20)]

theorem test_witness_References : let s := refs 1 1 0
    goodTick 14 = false ∧ goodTick 18 = false ∧ s.flag (refOk false) = true ∧ s.flag (refOk (!false)) = true ∧ s.selected false = true ∧
    s.advNow = s.tim.adv ∧
    (refs 0 1 1).fld R.GLB_REF_CTL.REVERT_HOLD ≤ 4 ∧ (refs 0 1 1).flag (refOk false) = false ∧ (refs 0 1 1).timeState = tsLOCKED ∧
    (refs 1 1 1).tick % 2 ^ 20 = 0 ∧ (refs 1 1 1).flag (refOk ((refs 1 1 1).flag R.GLB_REF_CTL.PREFER)) = true ∧
    (refs 1 1 1).selected ((refs 1 1 1).flag R.GLB_REF_CTL.PREFER) = false ∧ (withFields [(R.GLB_REF_CTL.REVERT, 0)]).flag R.GLB_REF_CTL.REVERT = false := by
  decide +kernel

theorem test_references :
    ends (.refInputLoss false 14 18) (refs 1 1 0) (fun u => !u.flag R.GLB_TIME_STATUS.REFA_OK && u.tim.sel == some true) = true ∧
    ends (.refInputLoss false 14 16) (refs 1 1 0) (fun u => u == refs 1 1 0) = true ∧
    ends (.refInputValid false 4) (refs 0 1 1) (fun u => u.flag R.GLB_TIME_STATUS.REFA_OK) = true ∧
    ends .refRevert (refs 1 1 1) (fun u => !u.flag R.GLB_TIME_STATUS.REF_SEL) = true := by decide +kernel

/-- Channel 256 (port E0) UP. -/
def chan256Up (s : State := State.reset) : State := withFields [(R.SWC_CH_STATUS.STATE 256, chUP)] s

theorem test_witness_TimeTransfer :
    (let s := chan256Up
     s.timeOn 256 = true ∧ s.tick % 2 ^ 12 = 0 ∧ (s.exch (portCode 256)).t4 = none) ∧
    (let s : State := { withFields [(R.GLB_TIME_STATUS.STATE, tsHOLDOVER), (R.GLB_TIME_CTL.HOLDOVER_EPOCHS, 2), (R.GLB_TICK.TICK, 2 ^ 21 + 9)]
       with tim := { State.reset.tim with alone := some 9 } }
     s.tim.alone = some 9 ∧ s.timeState = tsHOLDOVER ∧ 9 + s.fld R.GLB_TIME_CTL.HOLDOVER_EPOCHS * 2 ^ 20 ≤ s.tick) ∧
    (let s := withFields [(R.GLB_TIME_CTL.EPOCH_SRC, 1), (R.GLB_EPOCH_IN_DELAY.DELAY, 7), (R.GLB_TICK.TICK, 2 ^ 20)]
     s.flag R.GLB_TIME_CTL.EPOCH_SRC = true ∧ s.tim.ignoreEpoch = false ∧ s.tim.pulses = 0 ∧
       ((256 * s.tick + (23 : BitVec 8).toNat : Int) - s.fld R.GLB_EPOCH_IN_DELAY.DELAY) % (2 ^ 28 : Nat) = 16 ∧
       ((256 * s.tick + (24 : BitVec 8).toNat : Int) - s.fld R.GLB_EPOCH_IN_DELAY.DELAY) % (2 ^ 28 : Nat) = 17) ∧
    (∀ p ∈ [0, 1], ∀ b ∈ [true, false], let s : State := { withFields [(R.GLB_TIME_CTL.EPOCH_SRC, 1), (R.GLB_TICK.TICK, 2 ^ 19)]
       with tim := { State.reset.tim with pulses := p, badPulse := b, watching := true } }
     s.tick % 2 ^ 20 = 2 ^ 19 ∧ s.flag R.GLB_TIME_CTL.EPOCH_SRC = true ∧ s.tim.ignoreEpoch = false ∧ s.tim.watching = true) ∧
    (let s : State := { withFields [(R.GLB_TICK.TICK, 2 ^ 16), (R.GLB_TIME_STATUS.REFA_OK, 1), (R.GLB_TIME_CTL.MASTER_EN, 1)] with tim := { State.reset.tim with electing := true, advSince := 0, adv := State.reset.feid } }
     s.tim.electing = true ∧ s.tim.advSince + 2 ^ 16 ≤ s.tick ∧ s.tim.adv = s.feid ∧ s.feid ≠ 0xFFFF ∧
       s.candidate = true ∧ s.flag R.GLB_TIME_STATUS.MASTER = false) := by decide +kernel

theorem test_timeTransfer :
    ends (.timeExchange 256 9) chan256Up (fun u => (u.exch 0).num == 1 && u.out.length == 1) = true ∧
    (let s : State := { withFields [(R.GLB_TIME_STATUS.STATE, tsHOLDOVER), (R.GLB_TIME_CTL.HOLDOVER_EPOCHS, 2), (R.GLB_TICK.TICK, 2 ^ 21 + 9)]
       with tim := { State.reset.tim with alone := some 9 } }
     ends .holdoverExpire s (fun u => u.tim.next == some (tsLOST, 16)) = true) ∧
    (let b : TimeBlock := { dir := false, exch := 4, phase := 8, tick := 3, prevExch := 0, prevValid := false, prevPhase := 0, prevTick := 0 }
     ends (.timeBlock 256 b 1 2) chan256Up (fun u => u.out.length == 1 && (u.exch 0).open_ == [(4, (776, 1, 3))]) = true) := by
  decide +kernel

theorem test_election :
    let s : State := { withFields [(R.GLB_TICK.TICK, 2 ^ 16), (R.GLB_TIME_STATUS.REFA_OK, 1), (R.GLB_TIME_CTL.MASTER_EN, 1)] with tim := { State.reset.tim with electing := true, advSince := 0, adv := State.reset.feid } }
    ends .electionSettle s (fun u => u.flag R.GLB_TIME_STATUS.MASTER && u.fld R.GLB_TIME_STATUS.PARENT_FEID == 0xFFFF &&
      u.tim.next == some (tsLOCKED, 0)) = true ∧
    ends (.epochInPulse 7) (withFields [(R.GLB_TIME_CTL.EPOCH_SRC, 1), (R.GLB_EPOCH_IN_DELAY.DELAY, 7), (R.GLB_TICK.TICK, 2 ^ 20)])
      (fun u => u.tim.pulses == 1 && !u.tim.badPulse) = true ∧
    ends (.epochInPulse 24) (withFields [(R.GLB_TIME_CTL.EPOCH_SRC, 1), (R.GLB_EPOCH_IN_DELAY.DELAY, 7), (R.GLB_TICK.TICK, 2 ^ 20)])
      (fun u => u.tim.pulses == 1 && u.tim.badPulse) = true := by decide +kernel

/-! ## Translation and the Sieve -/

/-- Skidder 4 with a started descriptor that is suspended at its first line. -/
def suspended4 : State :=
  let d : SkdDesc := { thread := 3, op := 1, tag := 0, bytes := 0 }
  State.reset.setSkid 4 { run := [{ desc := d, suspended := some 0, lines := [(0, {})] }] }

/-- A host write held at tick 0, seen at tick `t` with MIG_HOLD 8. -/
def held (t : Nat) : State :=
  let s := withFields [(R.XLT_CTL.MIG_HOLD, 8), (R.GLB_TICK.TICK, t)]
  { s with xlt := { s.xlt with held := [(7, 0)] } }

theorem test_witness_Translations :
    (let s := (mapped).setFld (R.SEQ_THREAD_STATUS.STATE 3) stRunnable
     s.tstate 3 = stRunnable ∧ (match (s.leafOf (s.ttag 3) 0xFFFF).2 with | .inr _ => true | _ => false) = true ∧
       (match (s.leafOf (s.ttag 3) 0x10000).2 with | .inl x => decide (x = ⟨2, 7⟩) | _ => false) = true ∧
       (match (s.leafOf (s.ttag 3) (2 ^ 57)).2 with | .inl x => decide (x = ⟨1, 7⟩) | _ => false) = true) ∧
    (mapped).sees .mgmt R.XLT_TLB_INV.adr true = true ∧ (mapped).flag R.XLT_TLB_INV_STATUS.BUSY = false ∧ (mapped).xlt.held = [] ∧
    (withFields [(R.XLT_TLB_INV_STATUS.BUSY, 1)]).flag R.XLT_TLB_INV_STATUS.BUSY = true ∧
    (∃ r, (suspended4.skid 4).run = [] ++ [r] ∧ r.suspended.isSome = true) ∧ (State.reset.skid 4).run = [] ∧
    (held 8).xlt.held = ((7 : Fin 32768).val, 0) :: [] ∧ 0 + (held 8).fld R.XLT_CTL.MIG_HOLD ≤ (held 8).tick := by
  refine ⟨by decide +kernel, by decide +kernel, by decide +kernel, by decide +kernel, by decide +kernel, ⟨_, rfl, rfl⟩, ?_⟩
  decide +kernel

theorem test_pageWalk : let s := (mapped).setFld (R.SEQ_THREAD_STATUS.STATE 3) stRunnable
    ends (.pageWalk 3 0xFFFF .load) s (fun u => u == s) = true ∧
    ends (.pageWalk 3 0x10000 .load) s (fun u => u.tstate 3 == stFaulted) = true := by decide +kernel

/-- R85: a walk of two levels (TOP = 2) through tables in HBM: the 2 MiB leaf at level 1. -/
theorem test_walk : let s := (withFields [(R.XLT_ROOT.EN 0, 1), (R.XLT_ROOT.TOP 0, 2), (R.XLT_ROOT.BASE 0, 1),
      (R.SEQ_THREAD_STATUS.STATE 3, stRunnable)])
    let s := s.putBytes 8192 (leBytes 16 (packBits [(0, 1), (64, 256)]))
    let s := s.putBytes 16384 (leBytes 16 (packBits [(0, 1), (1, 1), (2, 1), (16, 5), (64, 2 ^ 15)]))
    ends (.pageWalk 3 0x40 .load) s (fun u => u.xlt.tlb.length == 1 && u.xlt.walk.length == 1 &&
      decide ((u.translate 0 0x40 .load).2 = .ok { dest := 5, sub := 0, line := 2 ^ 15 + 1, ord := false, shift := 21 })) = true := by
  decide +kernel

theorem test_tlbInvalidate :
    ends (.tlbInvalidate .mgmt 0 false false) mapped (fun u => u.xlt.tlb == [] && u.flag R.XLT_TLB_INV_STATUS.DONE &&
      keeps [R.XLT_TLB_INV_STATUS.DONE] mapped u) = true ∧
    ends (.tlbInvalidate .mgmt 1 false true) mapped (fun u => u.xlt.tlb.length == 1) = true ∧
    ends (.tlbInvalidate .mgmt 0 false false) (withFields [(R.XLT_TLB_INV_STATUS.BUSY, 1)]) (fun u => u.flag R.XLT_EVENTS.INV_BUSY)
      = true := by decide +kernel

theorem test_suspended :
    ends (.xltRetry .mgmt 4) suspended4 (fun u => ((u.skid 4).run.map (·.suspended)) == [none]) = true ∧
    ends (.xltAbort .mgmt 4) suspended4 (fun u => ((u.skid 4).run.map (·.status)) == [sXLATE]) = true ∧
    ends (.xltAbort .mgmt 5) suspended4 (fun u => u.flag R.XLT_EVENTS.CMD_DENY) = true ∧
    ends (.migHoldExpire 7) (held 7) (fun u => u == held 7) = true := by decide +kernel

/-- Partition 0's range is bucket 0; index 1 is captured. -/
def sieve0 (acc : Option SieveAcc) : State :=
  let s := withFields [(R.SIV_PART.EN 0, 1), (R.SIV_PART.SIZES 0, 1), (R.SIV_ACC_IDX.INDEX, 1)]
  { s with siv := { s.siv with acc := acc, table := [(0, 1), (2, 7)] } }

/-- A write of a valid entry for granule 3, and of one whose SIZE is reserved. -/
def wr (data : BitVec 128) : Option SieveAcc := some { write := true, idx := 1, data := data, start := 0 }
def entry3 : BitVec 128 := BitVec.ofNat 128 (packBits [(0, 1), (27, 3)])

theorem test_witness_SieveTable :
    (sieve0 none).sees .mgmt R.SIV_ACC_CMD.adr true = true ∧ (sieve0 none).siv.acc = none ∧
    (let a : SieveAcc := { write := false, idx := 2, data := 0, start := 0 }
     (sieve0 (some a)).siv.acc = some a ∧ a.write = false) ∧
    (sieve0 (wr entry3)).sieveWriteResult 1 entry3.toNat = 0 ∧ (sieve0 (wr (entry3 ||| 6))).sieveWriteResult 1 (entry3 ||| 6).toNat ≠ 0 ∧
    (let v : Word := BitVec.ofNat 64 (packBits [(0, 1), (3, 4), (25, 2)])
     let s := sieve0 none
     s.sees .mgmt (R.SIV_PART.adr (1 : PartNo)) true = true ∧ s.flag (R.SIV_PART.EN 1) = false ∧ v.toNat = s.sivPartValue 1 v.toNat ∧
       v.getLsbD 0 = true ∧ s.overlaps 1 v.toNat = false ∧ getBits v.toNat 3 22 % 2 ^ getBits v.toNat 25 5 = 0 ∧
       s.overlaps 1 1 = true ∧ (1 : Word).toNat = s.sivPartValue 1 1) ∧
    (let s : State := { sieve0 none with siv := { (sieve0 none).siv with sweeps := [(0, (0, 1))] } }
     FMap.find s.siv.sweeps (0 : PartNo) = some (0, 1) ∧ FMap.wf (fun _ => (0 : BitVec 128)) s.siv.table = true) ∧
    State.reset.flag R.HOM_LEDGER_ACC_CMD.BUSY = false := by decide +kernel

theorem test_sieveAccess :
    ends (.sieveRead .mgmt) (sieve0 none) (fun u => u.siv.acc == some { write := false, idx := 1, data := 0, start := 0 } &&
      u.flag R.SIV_ACC_CMD.BUSY) = true ∧
    ends (.sieveWrite .mgmt) (sieve0 none) (fun u => u.siv.acc == some { write := true, idx := 1, data := 0, start := 0 }) = true ∧
    ends .sieveAccessDone (sieve0 (some { write := false, idx := 2, data := 0, start := 0 })) (fun u =>
      u.reg R.SIV_ACC_DATA0.adr == 7 && u.siv.acc == none) = true ∧
    ends .sieveAccessDone (sieve0 (wr entry3)) (fun u => u.sieveEntry 1 == entry3.toNat && u.sieveEntry 2 == 7 &&
      u.fld R.SIV_ACC_CMD.RESULT == 0 && u.fld (R.SIV_PART_STATUS.USED 0) == 3) = true ∧
    ends .sieveAccessDone (sieve0 (wr (entry3 ||| 6))) (fun u => u.sieveEntry 1 == 0 && u.fld R.SIV_ACC_CMD.RESULT == 5) = true := by
  decide +kernel

theorem test_sievePart :
    ends (.sievePartWrite .mgmt 1 (BitVec.ofNat 64 (packBits [(0, 1), (3, 4), (25, 2)]))) (sieve0 none) (fun u =>
      u.flag (R.SIV_PART.EN 1) && u.fld (R.SIV_PART.BASE 1) == 4) = true ∧
    ends (.sievePartWrite .mgmt 1 1) (sieve0 none) (fun u => u.flag R.SIV_EVENTS.OVERLAP && !u.flag (R.SIV_PART.EN 1)) = true ∧
    ends (.sieveSweepDone 0) { sieve0 none with siv := { (sieve0 none).siv with sweeps := [(0, (0, 1))] } } (fun u =>
      u.sieveEntry 0 == 0 && u.sieveEntry 2 == 6) = true ∧
    ends (.sieveProbe .mgmt 5) (sieve0 none) (fun u => u.fld R.SIV_PROBE_KEY.KEY == 5 && u.flag R.SIV_PROBE_RESULT.VALID) = true ∧
    ends (.ledgerRead .mgmt) { State.reset with home := { State.reset.home with ledger := [(0, 0x1234)] } } (fun u =>
      u.fld (R.HOM_LEDGER_ACC_DATA.DATA 0) == 0x1234) = true := by decide +kernel

/-! ## Fabric and engine instructions -/

/-- The request translates and is sent (`Sends`, for some next state). -/
def sends (s : State) (r : Req) (acc : Acc) : Bool :=
  match s.translate r.tag r.fva acc with
  | (s1, .ok x) => (match s1.request r x with | (_, .sent) => true | _ => false)
  | _ => false

/-- The instruction word of a fabric instruction: gA = g6, gB = g16 (a line group), gD = g8, with LD and ST of 8 bytes. -/
def fFabric (opc : Nat) : Insn :=
  { d := if [0x40, 0x42, 0x44, 0x49, 0x4A].contains opc then 8 else 0, a := 6,
    b := if [0x41, 0x43, 0x44].contains opc then 16 else 0,
    imm := if opc = 0x40 ∨ opc = 0x41 then 0x3000000 else if opc = 0x44 then 0x10 else 0 }
def fabric (opc : Nat) (fva : Word) (s : State := mapped) : State := thread3 opc (fFabric opc) [(6, fva)] s

/-- In the page's last line; misaligned; with no translation. -/
theorem test_witness_FabricInstructions : ∀ e ∈ fabricRows, let f := fFabric e.opc
    (Issues (fabric e.opc 0xFFC0) 3 e.opc f (e.need f) ∧ e.bad f = false ∧ e.fva (fabric e.opc 0xFFC0) 3 f % e.align f = 0 ∧
      sends (fabric e.opc 0xFFC0) (e.req (fabric e.opc 0xFFC0) 3 f) e.acc = true) ∧
    (Issues (fabric e.opc 1) 3 e.opc f (e.need f) ∧ (e.align f = 1 ∨ e.fva (fabric e.opc 1) 3 f % e.align f ≠ 0)) ∧
    (Issues (fabric e.opc 0x10000) 3 e.opc f (e.need f) ∧ e.fva (fabric e.opc 0x10000) 3 f % e.align f = 0 ∧
      (match (fabric e.opc 0x10000).translate ((fabric e.opc 0x10000).ttag 3) (e.fva (fabric e.opc 0x10000) 3 f) e.acc with
        | (_, .fault _) => true
        | _ => false) = true) := by decide +kernel

/-- R235, R98: a misaligned FVA traps with MISALIGNED; a translation fault faults the thread. (Which slot a sent request takes is
a free value, so a run of one has no single outcome to test.) -/
theorem test_fabric : ∀ e ∈ fabricRows, let f := fFabric e.opc
    (e.align f = 1 ∨ ends (e.make 3 f) (fabric e.opc 1) (fun u => u.tstate 3 == stFaulted &&
      u.fld (R.SEQ_THREAD_STATUS.CAUSE 3) == 3 && u.slots.length == 0) = true) ∧
    ends (e.make 3 f) (fabric e.opc 0x10000) (fun u => u.tstate 3 == stFaulted && u.pc 3 == 0) = true := by decide +kernel

/-- RED.ADD of the 64 bytes of group g16 as 32-bit integers; RESOLVE of an atomic's key at Skidder 0. -/
def fRed : Insn := { a := 6, b := 16, imm := BitVec.ofNat 32 (64 * 256 + 0x00) }
def fRes : Insn := { d := 8, a := 6, b := 7, imm := 3 }
def resolving : State := thread3 0x46 fRes [(6, 0xFFC4), (7, 0x800000)] (mapped (withFields [(R.SEQ_SKID_CFG.ASSIGNED 0, 1)]))

theorem test_witness_ReductionsAndFences :
    (let s := thread3 0x45 fRed [(6, 0xFFC0)] mapped
     Issues s 3 0x45 fRed (regMask fRed.a ||| groupMask fRed.b ||| regMask fRed.st) ∧
       fRed.malformed { a := true, b := true, st := true, imm := 0x80007FF3 } = false ∧ badGroup fRed.b = false ∧
       fRed.imm.toNat % 4 ≠ 3 ∧ redListed (getBits fRed.imm.toNat 4 4) = true ∧
       (let w := typeWidth (getBits fRed.imm.toNat 4 4)
        let first := (s.greg 3 fRed.a).toNat % 64
        let cnt := getBits fRed.imm.toNat 8 7
        first % w = 0 ∧ cnt % w = 0 ∧ 2 ≤ cnt ∧ first + cnt ≤ 64) ∧ sends s (redReq s 3 fRed) .reduction = true) ∧
    (Issues resolving 3 0x46 fRes (regMask fRes.d ||| regMask fRes.a ||| regMask fRes.b ||| regMask fRes.st) ∧
      fRes.malformed { d := true, a := true, b := true, st := true, imm := 0x1F } = false ∧ fRes.clash false = false ∧
      (resolving.greg 3 fRes.a).toNat % 4 = 0 ∧ (resolving.greg 3 fRes.b).getLsbD 23 = true ∧
      resolving.skidOf (getBits (resolving.greg 3 fRes.b).toNat 40 7) (resolving.tpart 3) = true ∧
      sends resolving (resolveAtomReq resolving 3 fRes) .atomic = true) ∧
    (let s := thread3 0x47 {} []
     Issues s 3 0x47 {} 0 ∧ ({} : Insn).malformed { imm := 1 } = false ∧ s.waitMet 3 (.fence false) = true ∧
       (s.setFld (R.SEQ_THREAD_STATUS.OUTSTANDING 3) 1).waitMet 3 (.fence false) = false) := by decide +kernel

theorem test_redFence :
    ends (.red 3 fRed) (thread3 0x45 fRed [(6, 0xFFC4)] mapped) (fun u => u.tstate 3 == stFaulted &&
      u.fld (R.SEQ_THREAD_STATUS.CAUSE 3) == 3) = true ∧
    ends (.resolve 3 { fRes with st := 9 }) (thread3 0x46 { fRes with st := 9 } [(6, 0xFFC4)] mapped) (fun u =>
      u.greg 3 9 == BitVec.ofNat 64 sCHECK && u.slots.length == 0 && u.pc 3 == 8) = true ∧
    ends (.fence 3 {}) (thread3 0x47 {} []) (fun u => u.pc 3 == 8) = true ∧
    ends (.fence 3 {}) (thread3 0x47 {} [] (withFields [(R.SEQ_THREAD_STATUS.OUTSTANDING 3, 1)])) (fun u =>
      u.tstate 3 == stWaiting && u.fld (R.SEQ_THREAD_STATUS.REASON 3) == 3 && u.pc 3 == 0) = true := by decide +kernel

/-- Thread 3 with Skidder 4 assigned to its partition, LP.SET enabled, a valid plan 2, time LOCKED. -/
def engines (opc : Nat) (f : Insn) (g : List (BitVec 5 × Word)) : State :=
  let s := thread3 opc f g (withFields [(R.SEQ_SKID_CFG.ASSIGNED 4, 1), (R.COL_PART_CFG.LP_EN 0, 1), (R.GLB_TIME_STATUS.STATE, tsLOCKED),
    (R.GLB_TICK.TICK, 100)])
  { s with opt := { s.opt with plans := [(257 * 2 + 256, 0x201)] } }
def fEng : Insn := { d := 8, a := 6, b := 7, st := 9 }
def fEngA : Insn := { d := 8, a := 6, st := 9 }
def fLp : Insn := { a := 6, b := 7, st := 9 }

theorem test_witness_EngineInstructions :
    (let s := engines 0x50 fEng [(7, 4)]
     EngineReady s 3 ∧ Issues s 3 0x50 fEng fEng.engineNeed ∧ fEng.engineBad true = false ∧ (s.greg 3 fEng.b).toNat < 128 ∧
       s.skidOf (s.greg 3 fEng.b).toNat (s.tpart 3) = true ∧ takesSlot s 3 fEng = some (some 0) ∧
       (s.skid 4).queue.length + (s.descs.filter fun o => o.kind == 1 && o.arg == 4).length < 32) ∧
    (∀ e ∈ [0x51, 0x52], let s := engines e fEngA []
      EngineReady s 3 ∧ Issues s 3 e fEngA fEngA.engineNeed ∧ fEngA.engineBad false = false ∧ takesSlot s 3 fEngA = some (some 0)) ∧
    (∀ n ∈ [1, 64], let s := engines 0x53 fEng [(7, BitVec.ofNat 64 n)]
      Issues s 3 0x53 fEng fEng.engineNeed ∧ 1 ≤ (s.greg 3 fEng.b).toNat ∧ (s.greg 3 fEng.b).toNat ≤ 64) ∧
    (let f : Insn := { a := 6, st := 9 }
     Issues (engines 0x54 f []) 3 0x54 f (regMask f.a ||| regMask f.st) ∧ f.malformed { a := true, st := true } = false) ∧
    (∀ t ∈ [102, 100 + 2 ^ 20], let s := engines 0x57 fLp [(6, 2), (7, BitVec.ofNat 64 t)]
      Issues s 3 0x57 fLp (regMask fLp.a ||| regMask fLp.b ||| regMask fLp.st) ∧ s.flag (R.COL_PART_CFG.LP_EN (s.tpart 3)) = true ∧
        s.opt.lock = none ∧ s.timeState ≠ tsLOST ∧ (s.greg 3 fLp.a).toNat ≤ 15 ∧ s.planValid (s.greg 3 fLp.a).toNat = true ∧
        s.tick + 2 ≤ (s.greg 3 fLp.b).toNat ∧ (s.greg 3 fLp.b).toNat ≤ s.tick + 2 ^ 20) := by decide +kernel

theorem test_engines :
    ends (.skdQ 3 fEng) (engines 0x50 fEng [(7, 4)]) (fun u => u.descs.map (fun o => (o.kind, o.arg)) == [(1, 4)] && u.pc 3 == 8 &&
      ((u.thr 3).hand 0).busy) = true ∧
    ends (.krn 3 fEngA) (engines 0x51 fEngA []) (fun u => u.descs.map (·.kind) == [2]) = true ∧
    ends (.coll 3 fEngA) (engines 0x52 fEngA []) (fun u => u.descs.map (·.kind) == [3]) = true ∧
    ends (.collBatch 3 fEng) (engines 0x53 fEng [(7, 65)]) (fun u => u.descs == [] && u.greg 3 9 == BitVec.ofNat 64 sCHECK) = true ∧
    ends (.collBatch 3 fEng) (engines 0x53 fEng [(7, 64)]) (fun u => u.descs.map (·.arg) == [64]) = true ∧
    ends (.rsv 3 { a := 6, st := 9 }) (engines 0x54 { a := 6, st := 9 } []) (fun u => u.descs.map (·.kind) == [5]) = true ∧
    ends (.lpSet 3 fLp) (engines 0x57 fLp [(6, 2), (7, 102)]) (fun u => u.opt.lock == some (.lp 3) && u.pc 3 == 8) = true := by
  decide +kernel

/-- Thread 3 with handle 0 (serial 1) in use, busy or not; a block-transfer descriptor at FVA 0 handed on. -/
def handles (opc : Nat) (busy : Bool) : State :=
  let s := thread3 opc { d := 8, a := 6 } [(6, 0x1010)]
  s.setThr 3 ((s.thr 3).setHand 0 { used := true, serial := 1, kind := 1, busy := busy, status := 8, detail := 3 })
def handedOn : State :=
  let o : EngineOp := { thread := 3, kind := 1, fva := 0, arg := 4, d := 8, st := 9, op := 6, handle := 16, pc := 0, tag := 0 }
  { (mapped).setThr 3 { reads := 1, pend := 0x300 } with descs := [o] }

theorem test_witness_Handles :
    (∀ b ∈ [true, false], ∀ opc ∈ [0x55, 0x56], let f : Insn := { d := 8, a := 6 }
      Issues (handles opc b) 3 opc f (regMask f.d ||| regMask f.a) ∧ f.malformed { d := true, a := true } = false ∧
        ((handles opc b).handleStatus 3 ((handles opc b).greg 3 f.a)).2 = some 0 ∧ (((handles opc b).thr 3).hand 0).busy = b) ∧
    handedOn.fld R.REL_TRAY.STATE = 0 ∧ ((handedOn.descs.find? fun o => o.op == 6).map (·.kind)) = some 1 ∧
    (match handedOn.readDescriptor 0 0 64 with | (_, .ok _ false) => true | _ => false) = true ∧
    (handedOn.skid 4).queue.length < 32 := by decide +kernel

theorem test_handles : let f : Insn := { d := 8, a := 6 }
    ends (.hpoll 3 f) (handles 0x55 false) (fun u => u.greg 3 8 == 0x10308 && !((u.thr 3).hand 0).used && u.pc 3 == 8) = true ∧
    ends (.hpoll 3 f) (handles 0x55 true) (fun u => u.greg 3 8 == 0x10388 && ((u.thr 3).hand 0).used) = true ∧
    ends (.hwait 3 f) (handles 0x56 true) (fun u => u.tstate 3 == stWaiting && u.pc 3 == 0) = true ∧
    ends (.hwait 3 f) (handles 0x56 false) (fun u => u.greg 3 8 == 0x10308 && u.pc 3 == 8) = true ∧
    ends (.engineDescriptorReadDone 6 []) handedOn (fun u => (u.skid 4).queue.length == 1 && u.descs == [] && u.greg 3 8 == 16 &&
      (u.thr 3).pend == 0 && (u.thr 3).ops == 1) = true := by decide +kernel

/-! ## Requests at their home, responses, host memory -/

/-- A request of FEID 5 to its own line 1 (HBM line 0x40001), 8 bytes from byte 8 where it is a store or atomic. -/
def req (op : Nat) (bmc : Nat) (payload : Nat := 0) : Packet :=
  { dst := 5, src := 5, opcode := opcodeOf false op 0, line := 1, bmc := BitVec.ofNat 16 bmc, payload := BitVec.ofNat 640 payload }

/-- The home with the line's bytes 8 to 15 at 7. -/
def home (sieveBits : Nat := 0) : State := (mapped State.reset sieveBits).putBytes (64 * 0x40001 + 8) (leBytes 8 7)

/-- Whether a request lands on HBM line 0x40001 by Sieve entry 0. -/
def landsHere (s : State) (p : Packet) : Bool := match (s.judgeAt p).2 with | .inr (.hbm h i) => h == 0x40001 && i == 0 | _ => false

/-- The same in a read-shared region, with this module in the roster's place 3. -/
def homeRs : State :=
  let s := home (2 ^ 9)
  let h : HomeState := { s.home with sharers := [(mapKey 0 0, 1)] }
  withFields [(R.HOM_RS_ROSTER.VALID 0 3, 1), (R.HOM_RS_ROSTER.FEID 0 3, 5)] { s with home := h }

theorem test_witness_LoadsRs : ∀ op ∈ [opREAD, opBREAD], landsHere homeRs (req op 0) = true ∧
    homeRs.behindStore 0x40001 none (req op 0) = false ∧ homeRs.isPoison 0x40001 = false ∧
    seMode ((homeRs.takeLocal (req op 0)).sieveEntry 0) = 1 ∧ (homeRs.takeLocal (req op 0)).rosterAt 0 5 = some 3 ∧
    FMap.find (homeRs.takeLocal (req op 0)).home.sharers (mapKey 0 0) = some 1 := by decide +kernel

/-- R120: the reader's bit is set, and the answer is cacheable. -/
theorem test_loadRs : ends (.readRequest (req opREAD 0) .clean) homeRs (fun u => u.home.sharers == [(mapKey 0 0, 9)] &&
    u.swc.localq.map (fun q => (q.pkt.status.toNat, q.pkt.data.toNat, q.pkt.cacheable)) == [(sOK, 7 * 2 ^ 64, true)]) = true := by
  decide +kernel

theorem test_witness_Loads : ∀ op ∈ [opREAD, opBREAD], landsHere home (req op 0) = true ∧ seMode (home.sieveEntry 0) ≠ 1 ∧ home.behindStore 0x40001 none (req op 0) = false ∧
    home.isPoison 0x40001 = false ∧ landsHere (home.setPoison 0x40001 true) (req op 0) = true ∧
    (home.setPoison 0x40001 true).isPoison 0x40001 = true := by decide +kernel

theorem test_loads : let last (u : State) := u.swc.localq.map fun q => (q.pkt.status.toNat, q.pkt.data.toNat, q.pkt.pz)
    ends (.readRequest (req opREAD 0) .clean) home (fun u => last u == [(sOK, 7 * 2 ^ 64, false)]) = true ∧
    ends (.breadRequest (req opBREAD 0) .clean) (home.setPoison 0x40001 true) (fun u => last u == [(sPOISON, 7 * 2 ^ 64, true)]) = true ∧
    ends (.readRequest { req opREAD 0 with line := 2000 } .clean) home (fun u => last u == [(sDENY, 0, false)]) = true := by
  decide +kernel

theorem test_witness_Stores : ∀ op ∈ [opWRITE, opBWRITE, opWB], ∀ bmc ∈ [8 + 64 * 8, 64 * 64, 63 + 64],
    landsHere home (req op bmc) = true ∧ seMir (home.sieveEntry 0) = 0 ∧ (req op bmc).first + (req op bmc).bytes ≤ 64 := by
  decide +kernel

theorem test_stores : let b (u : State) (a : Nat) := (u.byte (64 * 0x40001 + a)).toNat
    ends (.writeRequest (req opWRITE (9 + 64 * 2) (0xAABB * 2 ^ 72))) home (fun u => b u 8 == 7 && b u 9 == 0xBB && b u 10 == 0xAA &&
      b u 11 == 0) = true ∧
    ends (.bwriteRequest (req opBWRITE (9 + 64) (0xAA * 2 ^ 72))) (home.setPoison 0x40001 true) (fun u => b u 9 == 0xAA &&
      u.isPoison 0x40001 && u.swc.localq.map (fun q => q.pkt.status.toNat) == [sPOISON]) = true ∧
    ends (.wbRequest (req opWB (64 * 64) 1)) (home.setPoison 0x40001 true) (fun u => b u 0 == 1 && b u 8 == 0 &&
      !u.isPoison 0x40001) = true := by decide +kernel

/-- The ledger lets a request through. -/
def performs (s : State) (p : Packet) : Bool :=
  match s.ledgerLook p.ledgerKey p.form p.line.toNat p.sub.toNat p.operandByte with | .perform _ => true | _ => false

/-- ATOM ADD (OP 0) of a 64-bit integer (type 1) at byte 8; RED.ADD of 8 bytes there; ownership of an OW granule with OWNER none,
this module and another. -/
def ownEntry (owner : Nat) : State := home (2 * 2 ^ 9 + owner * 2 ^ 92)

theorem test_witness_Atomics :
    (∀ p ∈ [req opATOM (8 + 64), req opREDADD (8 + 64 * 8), req opREDMIN (8 + 64 * 8), req opREDMAX (8 + 64 * 8)],
      landsHere home p = true ∧ home.mirrorBusy 0x40001 = false ∧ performs home p = true ∧ home.isPoison 0x40001 = false) ∧
    (∀ o ∈ [0xFFFF, 5, 9], ∀ op ∈ [opOWNACQ, opOWNREL], landsHere (ownEntry o) (req op 0) = true ∧ performs (ownEntry o) (req op 0) = true ∧
      seMode ((ownEntry o).sieveEntry 0) = 2 ∧ seMir ((ownEntry o).sieveEntry 0) = 0 ∧ seOwner ((ownEntry o).sieveEntry 0) = o) := by
  decide +kernel

theorem test_atomics : let last (u : State) := u.swc.localq.map fun q => (q.pkt.status.toNat, q.pkt.payload.toNat)
    ends (.atomRequest (req opATOM (8 + 64) 5) false) home (fun u => u.readNat (64 * 0x40001 + 8) 8 == 12 && last u == [(sOK, 7)] &&
      u.home.ledger.length == 1) = true ∧
    ends (.redRequest (req opREDADD (8 + 64 * 4) (3 * 2 ^ 64)) false) home (fun u => u.readNat (64 * 0x40001 + 8) 8 == 10 &&
      last u == [(sOK, 0)]) = true ∧
    ends (.ownAcqRequest (req opOWNACQ 0)) (ownEntry 0xFFFF) (fun u => seOwner (u.sieveEntry 0) == 5 && last u == [(sOK, 0)]) = true ∧
    ends (.ownAcqRequest (req opOWNACQ 0)) (ownEntry 9) (fun u => seOwner (u.sieveEntry 0) == 9 && last u == [(sNORES, 9)]) = true ∧
    ends (.ownRelRequest (req opOWNREL 0)) (ownEntry 5) (fun u => seOwner (u.sieveEntry 0) == 0xFFFF && last u == [(sOK, 0)]) = true := by
  decide +kernel

/-- R116: the same key again is answered from the ledger, and does not act. -/
theorem test_replay : ends (.atomRequest (req opATOM (8 + 64) 5) false) home (fun u =>
    ends (.atomRequest { req opATOM (8 + 64) 5 with opcode := opcodeOf false opATOM 1 } false) u (fun v =>
      v.readNat (64 * 0x40001 + 8) 8 == 12 && v.fld R.HOM_LEDGER_COUNTS.REPLAYS == 1)) = true := by decide +kernel

/-- A tracked INVL that waits for FEID 9; a mirrored granule whose mirror or primary is FEID 9; copies sent to FEID 9. -/
def track9 : Track := { req := req opINVL 0, entry := 0, waiting := [(9, 0)], line := 1, start := 0, limit := 4 }
def tracking : State := let s := home (2 ^ 9); { s with home := { s.home with tracker := [track9] } }
def mirrored : State := home (2 ^ 12 + 9 * 2 ^ 108)
def copying (k : MirrorKind) : State :=
  let m : MirrorOp := { req := req opWRITE (8 + 64 * 8) (5 * 2 ^ 64), mirror := 9, hline := 0x40001, kind := k, start := 0, limit := 4 }
  { home with home := { home.home with mirror := [m] } }
def ack (st : Nat) : Packet := { dst := 5, src := 9, opcode := opcodeOf false opRSP 0, line := 1, status := BitVec.ofNat 4 st }

theorem test_witness_CoherenceAndMirrors :
    (∀ m ∈ [0, 1, 2], landsHere (home (m * 2 ^ 9)) (req opINVL 0) = true ∧ seMode ((home (m * 2 ^ 9)).sieveEntry 0) = m) ∧
    (home (2 ^ 9)).home.tracker.length < 1024 ∧ FMap.find (home (2 ^ 9)).home.sharers (mapKey 0 0) = none ∧
    ({ req opINV 0 with src := 9 } : Packet).bmcValid = true ∧
    tracking.trackFor (ack 0) = some track9 ∧ (ack 0).status = 0 ∧ (ack 7).status ≠ 0 ∧ track9.waiting = [((ack 0).src, (ack 0).rtag)] ∧ tracking.intact (ack 0) = true ∧
    landsHere mirrored { req opMCOPY (8 + 64 * 8) with src := 9 } = true ∧ mirrored.acceptsFrom 0 9 = true ∧
    mirrored.acceptsFrom 0 8 = false ∧
    (let p : Packet := { req opMATOM (4 * opATOM) with src := 9 }
     landsHere mirrored p = true ∧ (mirrored.ledgerWay p.ledgerKey.set).isSome = true) ∧
    home.intact { req opINV 0 with src := 9 } = true ∧ (∀ k ∈ [MirrorKind.store, .async], (copying k).intact (ack 0) = true) ∧
    (∀ k ∈ [MirrorKind.store, .async, .atomic 0 7, .engine 3], ((copying k).mirrorFor (ack 0)).map (·.kind) = some k) := by decide +kernel

theorem test_coherence : let last (u : State) := u.swc.localq.map fun q => q.pkt.status.toNat
    ends (.invlRequest (req opINVL 0)) (home (2 ^ 9)) (fun u => last u == [sOK]) = true ∧
    ends (.invlRequest (req opINVL 0)) (home (2 * 2 ^ 9)) (fun u => last u == [sDENY]) = true ∧
    ends (.invRequest { req opINV 0 with src := 5 }) home (fun u => last u == [sOK]) = true ∧
    ends (.sharerAck (ack 0)) tracking (fun u => u.home.tracker == [] && last u == [sOK]) = true ∧
    ends (.sharerAck (ack 7)) tracking (fun u => u.home.tracker == [] && u.flag R.HOM_EVENTS.INVL_FAIL && last u == [7]) = true := by
  decide +kernel

theorem test_mirrors : let b (u : State) := u.readNat (64 * 0x40001 + 8) 8
    ends (.mcopyRequest { req opMCOPY (8 + 64 * 8) (5 * 2 ^ 64) with src := 9 }) mirrored (fun u => b u == 5) = true ∧
    ends (.mcopyRequest { req opMCOPY (8 + 64 * 8) (5 * 2 ^ 64) with src := 8 }) mirrored (fun u => b u == 7) = true ∧
    ends (.matomRequest { req opMATOM (4 * opATOM) (6 * 2 ^ 64) with src := 9 }) mirrored (fun u => b u == 6 && u.home.ledger.length == 1)
      = true ∧
    ends (.mirrorAck (ack 0)) (copying .store) (fun u => b u == 5 && u.home.mirror == []) = true ∧
    ends (.mirrorAck (ack 0)) (copying (.engine 3)) (fun u => b u == 5 && u.home.mirror == []) = true ∧
    ends (.mirrorAck (ack 0)) (copying .async) (fun u => b u == 7 && u.home.mirror == []) = true := by decide +kernel

/-- A load of thread 3 into g8 outstanding in slot 2 of Skidder 0, first sent at tick 0 with the timeout 2^4. -/
def outstanding (op : Nat) (t : Nat) : State :=
  let s := (mapped (withFields [(R.GLB_TICK.TICK, t), (R.SEQ_THREAD_STATUS.OUTSTANDING 3, 1), (R.HOM_ATOM_CTL.RETRY_TICKS, 9),
    (R.HOM_ATOM_CTL.RETRY_MAX, 2)])).setThr 3 { pend := 0x100 }
  let x : Slot := { owner := .thread 3, pkt := { req op 0 with slot := 2 }, fva := 0x40, dest := .reg 8 8 8 false, first := 0,
                    lastSend := 0, limit := 4, seq := 0 }
  { s with slots := [(2, x)] }
def answer (op slot payload : Nat) : Packet :=
  { dst := 5, src := 5, opcode := opcodeOf false op 0, line := 1, slot := BitVec.ofNat 8 slot, payload := BitVec.ofNat 640 payload }

theorem test_witness_Responses :
    (∀ op ∈ [opRSP, opRSPDATA, opRSPATOM], (outstanding opREAD 0).slotFor (answer op 3 0) = none ∧
      ((outstanding opREAD 0).slotFor (answer op 2 0)).isSome = true ∧ (outstanding opREAD 0).intact (answer op 2 0) = true ∧ (answer op 2 0).form ≠ 1) ∧ isAtomicClass opREAD = false ∧
    ((outstanding opREAD 16).slot (2 : Fin 32768)).map (fun x => (x.hold, x.first + 2 ^ x.limit)) = some (false, 16) ∧
    (outstanding opREAD 16).tick = 16 ∧ (outstanding opREAD 15).tick < 16 ∧
    (let s := outstanding opATOM 9
     isAtomicClass opATOM = true ∧ 0 < s.fld R.HOM_ATOM_CTL.RETRY_MAX ∧ 0 + s.fld R.HOM_ATOM_CTL.RETRY_TICKS ≤ s.tick ∧
       (match s.translate 0 0x40 (accOf opATOM) with | (_, .ok _) => true | _ => false) = true) := by decide +kernel

/-- R122, R353: what a mirror, or a sharer, does not acknowledge in time. -/
theorem test_witness_Timeouts :
    (∀ t ∈ [15, 16], let s := (copying .store).setFld R.GLB_TICK.TICK t
      (s.home.mirror[0]?).map (fun m => (m.kind, m.start + 2 ^ m.limit)) = some (.store, 16) ∧ s.tick = t) ∧
    ((copying .async).home.mirror[0]?).map (·.kind) = some .async ∧
    (∀ t ∈ [15, 16], let s := tracking.setFld R.GLB_TICK.TICK t
      (s.home.tracker[0]?).map (fun k => k.start + 2 ^ k.limit) = some 16 ∧ s.tick = t) := by decide +kernel

theorem test_timeouts : let last (u : State) := u.swc.localq.map fun q => q.pkt.status.toNat
    ends (.requestTimeout (.mirror 0)) ((copying .store).setFld R.GLB_TICK.TICK 16) (fun u => u.home.mirror == [] &&
      last u == [sTIMEOUT]) = true ∧
    ends (.requestTimeout (.invl 0)) (tracking.setFld R.GLB_TICK.TICK 16) (fun u => u.home.tracker == [] &&
      u.flag R.HOM_EVENTS.INVL_FAIL && last u == [sTIMEOUT]) = true := by decide +kernel

theorem test_responses :
    ends (.rspData (answer opRSPDATA 2 (0x77 * 2 ^ 64)) false) (outstanding opREAD 1) (fun u => u.greg 3 8 == 0x77 && u.slots == [] &&
      (u.thr 3).pend == 0 && u.fld (R.SEQ_THREAD_STATUS.OUTSTANDING 3) == 0) = true ∧
    ends (.rsp (answer opRSP 3 0)) (outstanding opREAD 1) (fun u => u.fld R.SWC_DISCARDS.BAD_ENC == 1 && u.slots.length == 1) = true ∧
    ends (.rsp (answer opRSP 2 0)) (outstanding opWRITE 1) (fun u => u.slots == []) = true ∧
    ends (.rspAtom (answer opRSPATOM 2 0x77)) (outstanding opATOM 1) (fun u => u.slots == []) = true ∧
    ends (.requestTimeout (.slot 2)) (outstanding opREAD 16) (fun u => u.slots == []) = true ∧
    ends (.requestTimeout (.slot 2)) (outstanding opREAD 15) (fun u => u.slots.length == 1) = true ∧
    ends (.atomicRetransmit 2) (outstanding opATOM 9) (fun u => u.slots.map (fun e => (e.2.pkt.form, e.2.retries, e.2.lastSend)) ==
      [(1, 1, 9)]) = true := by decide +kernel

/-- A write to H1 that no flush read covers; a flush read of batch 3 under way; a read at host address 0x1000 under way. -/
def hostWrite : State :=
  { State.reset with home := { State.reset.home with hostWrites := [{ port := 1, req := req opWRITE 0, batch := 0 }] } }
def flushing : State :=
  let h : HomeState := { hostWrites := [{ port := 1, req := req opWRITE 0, batch := 3 }],
                         flushes := [{ port := 1, batch := 3, start := 0 }], nextBatch := 4 }
  { mapped with home := h }
def reading : State :=
  { mapped with home := { State.reset.home with hostReqs := [{ port := 1, req := req opREAD 0, hpa := 0x1000, start := 0 }] } }

theorem test_witness_HostMemory : hostWrite.nonPosted 1 < 1024 ∧ hostWrite.home.hostWrites.map (·.batch) = [0] ∧
    (flushing.setFld R.GLB_TICK.TICK 313).ctoPast 1 0 = true ∧ reading.ctoPast 1 0 = false ∧
    (flushing.home.flushes.find? fun f => f.port == 1).isSome = true ∧ (reading.hostReqAt 1 0x1000).map (fun r => r.req.op) = some opREAD := by decide +kernel

theorem test_hostMemory : let last (u : State) := u.swc.localq.map fun q => q.pkt.status.toNat
    ends (.hostFlushRead 1) hostWrite (fun u => u.home.hostWrites.map (·.batch) == [1] && u.home.flushes.length == 1) = true ∧
    ends (.hostFlushCompletion 1 (.success false 0)) flushing (fun u => u.home.hostWrites == [] && last u == [sOK]) = true ∧
    ends (.hostFlushCompletion 1 .abort) flushing (fun u => last u == [sHOST]) = true ∧
    ends (.hostCompletion 1 0x1000 (.success false 9)) reading (fun u => last u == [sOK] && u.home.hostReqs == []) = true ∧
    ends (.hostCompletionTimeout 1 false 0x1000) (reading.setFld R.GLB_TICK.TICK 313) (fun u =>
      last u == [sHOST] && u.flag (R.HST_EVENTS.HOST_CTO 1)) = true ∧
    ends (.hostCompletionTimeout 1 false 0x1000) reading (fun u => u.home.hostReqs.length == 1) = true := by
  decide +kernel

/-! ## Channels and links -/

/-- Channel 256 UP with RX_SEQ 7, TX_SEQ 9, two unacknowledged packets, at tick 100. -/
def link256 (x : Chan := {}) : State :=
  (withFields [(R.GLB_TICK.TICK, 100), (R.SWC_CH_STATUS.RX_SEQ 256, 7), (R.SWC_CH_STATUS.TX_SEQ 256, 9), (R.GLB_FEID.FEID, 5),
    (R.SWC_LINK_ARB.WEIGHT 0 0, 1)] chan256Up).setChan 256 x
/-- The same with the channel in link 0, to FEID 9. -/
def linked (x : Chan := {}) : State :=
  withFields [(R.SWC_LINK_CFG.EN 0, 1), (R.SWC_LINK_CFG.PEER 0, 9), (R.SWC_CH_STATUS.PEER 256, 9), (R.SWC_CH_STATUS.MEMBER 256, 1)]
    (link256 x)
def pktTo (dst : Nat) : Packet := { dst := BitVec.ofNat 16 dst, src := 9, opcode := opcodeOf false opREAD 0, line := 1 }
def waiting (p : Packet) (link tick : Nat) : QPkt := { pkt := p, point := .loc 0, link := link, tick := tick, hash := 0 }
def two : List QPkt := [waiting (pktTo 1) 64 0, waiting (pktTo 2) 64 0]

theorem test_witness_PacketsOnChannels :
    (let s := link256
     s.chUp 256 = true ∧ (s.chan 256).nak = none ∧ (s.chan 256).dups = 0 ∧ (s.chan 256).pool + (pktTo 5).len ≤ poolBytes 256 ∧
       s.inLink 256 = false ∧ (0 : BitVec 16) ≠ (pktTo 5).hcrc ∧
       (0 : BitVec 32) ≠ (pktTo 5).trailer ∧ (0 : BitVec 32) ≠ ~~~(pktTo 5).trailer ∧
       s.chState 256 = chUP ∧ s.left = false ∧ ((link256 { resend := two }).chan 256).resend = two) ∧
    (let s := mapped linked
     s.chUp 256 = true ∧ (s.chan 256).nak = none ∧ (s.chan 256).dups = 0 ∧ (s.chan 256).pool + (pktTo 5).len ≤ poolBytes 256 ∧
       s.inLink 256 = true ∧ s.flag R.TEL_TRACE_STATUS.RUNNING = false ∧ s.left = false ∧ s.swc.stalled = [] ∧ s.swc.transit = [] ∧
       s.fate (pktTo 5) (.chan 256) = .deliver (pktTo 5) ∧ (pktTo 5).noEndpoint = false ∧ (pktTo 5).vc ≠ 7) ∧
    (∀ v ∈ [0, 7], let q := waiting { pktTo 1 with vc := v } (64 + 256) 90
     let s : State := { linked with swc := { (linked { tokens := 200 }).swc with linkq := [q] } }
     s.chState 256 = chUP ∧ s.left = false ∧ (s.chan 256).resend = [] ∧ s.swc.linkq = [q] ∧ s.flag (R.SWC_CH_STATUS.MEMBER 256) = true ∧
       s.flag (R.SWC_LINK_STATUS.JOINING (s.fld (R.SWC_CH_STATUS.LINK 256))) = false ∧ (s.chan 256).replay.length < 2048 ∧
       (s.arbitrate 256 (s.swc.linkq.filter (s.isFor 256))).1.isSome = true ∧ s.isFor 256 q = true ∧ s.maySend 256 q = true ∧
       (q.pkt.vc = 7 → q.pkt.len ≤ (s.chan 256).tokens) ∧ s.egressOk 256 q = true) := by
  decide +kernel

/-- An accepted packet for this module; a bad header CRC; a stomped packet; a bad trailer. -/
theorem test_packetReceive :
    let s := mapped linked
    let p := pktTo 5
    let rx (u : State) := u.fld (R.SWC_CH_STATUS.RX_SEQ 256)
    ends (.packetReceive 256 p p.hcrc p.trailer false) s (fun u => rx u == 8 && u.swc.localq.map (·.pkt) == [p]) = true ∧
    ends (.packetReceive 256 p p.hcrc p.trailer false) link256 (fun u => rx u == 8 && u.swc.localq == [] &&
      u.fld R.SWC_DISCARDS.ROUTE == 1) = true ∧
    ends (.packetReceive 256 p (p.hcrc + 1) p.trailer false) s (fun u => rx u == 7 && (u.chan 256).nak == some (100, 1) &&
      u.swc.localq == []) = true ∧
    ends (.packetReceive 256 p p.hcrc (~~~p.trailer) false) s (fun u => rx u == 8 && u.swc.localq == [] &&
      u.fld (R.SWC_CH_CNT.STOMPED 256) == 1) = true ∧
    ends (.packetReceive 256 p p.hcrc (p.trailer + 1) false) s (fun u => rx u == 7 && (u.chan 256).failed == some 7) = true := by
  decide +kernel

/-- R134: polynomial 0x1021, initial value 0xFFFF, no reflection: the known check value of "123456789". -/
theorem test_crc16 : crc16 ((upFrom 0x31 9).map (BitVec.ofNat 8)) = 0x29B1 := by decide +kernel

theorem test_packetSend :
    ends (.packetSend 256) (link256 { resend := two, replay := two }) (fun u => u.out.length == 1 && (u.chan 256).resend.length == 1 &&
      u.fld (R.SWC_CH_CNT.REPLAYED 256) == 1) = true ∧
    ends (.packetSend 256) { linked with swc := { linked.swc with linkq := [waiting (pktTo 1) (64 + 256) 90] } } (fun u =>
      u.out.length == 1 && (u.chan 256).replay.length == 1 && u.swc.linkq == [] && u.fld (R.SWC_CH_STATUS.TX_SEQ 256) == 10) = true := by
  decide +kernel

/-- At tick 100 with MAX_AGE 10: a packet that came at tick 90 is gone, one of tick 91 stays. -/
def aged : State :=
  let s := link256.setFld R.SWC_FWD_CTL.MAX_AGE 10
  let w : SwcState := { s.swc with linkq := [waiting (pktTo 1) 64 90], localq := [waiting (pktTo 5) 32 91],
                                   holdq := [waiting (pktTo 2) 33 90, waiting (pktTo 3) 40 91],
                                   transq := [waiting (pktTo 4) 40 90] }
  { s with swc := w }

/-- Packets to FEID 2 held under R82 until tick 100. -/
def pathHeld : State :=
  { link256 with swc := { link256.swc with holdq := [waiting (pktTo 2) 40 90], path := [(2, 100)] } }

theorem test_witness_PacketWaits :
    aged.swc.stalled = [] ∧ pathHeld.swc.stalled = [] ∧ (aged.swc.linkq ++ aged.swc.localq ++ aged.swc.holdq ++ aged.swc.transq).all (fun q => !q.pool && decide (32 ≤ q.link)) = true ∧
    link256.swc.holdq = [] ∧ pathHeld.swc.holdq = [waiting (pktTo 2) 40 90] ∧ (waiting (pktTo 2) 40 90).link ≠ 33 ∧
    (pktTo 2).dst.toNat = 2 ∧ pathHeld.swc.path = [(2, pathHeld.tick)] ∧
    (let h : BucketHold := { group := 1, buckets := 2, until_ := 100 }
     let s : State := { link256 with swc := { link256.swc with transit := [h], transq := [waiting (pktTo 2) 40 90] } }
     s.swc.transq = [waiting (pktTo 2) 40 90] ∧ s.swc.transit = [h] ∧ h.until_ ≤ s.tick) ∧ link256.swc.transq = [] := by decide +kernel

theorem test_packetWaits :
    ends .packetAgeExpire aged (fun u => u.swc.linkq == [] && u.swc.localq.length == 1 && u.swc.holdq.map (·.tick) == [91] &&
      u.swc.transq == [] &&
      u.fld R.SWC_DISCARDS.AGE == 3) = true ∧
    ends .pathHoldExpire pathHeld (fun u => u.swc.holdq == [] && u.swc.path == []) = true ∧
    (let h : List BucketHold := [{ group := 1, buckets := 2, until_ := 100 }, { group := 1, buckets := 4, until_ := 101 }]
     ends .groupHoldExpire { link256 with swc := { link256.swc with transit := h } } (fun u => u.swc.transit.map (·.until_) == [101])
       = true) := by decide +kernel

theorem test_witness_ControlBlocks : let s := link256
    (let j := link256 { joining := true }
     j.chUp 256 = true ∧ (j.chan 256).joining = true ∧ j.linkOf (j.fld (R.SWC_CH_STATUS.PEER 256)) = none) ∧
    (let n := link256 { nak := some (98, 2) }
     (n.chan 256).nak.isSome = true ∧ n.flag (R.SWC_CH_STATUS.MEMBER 256) = false ∧
       (let s1 := ((n.setChan 256 { n.chan 256 with lastCredit := n.tick, ei := false }).acknowledge 256 7).takeFreed 256 0
        (s1.chan 256).nak.isSome = true ∧ s1.flag (R.SWC_CH_STATUS.MEMBER 256) = false) ∧
       (n.chan 256).nak = some (98, 2) ∧ 98 + 2 ≤ n.tick ∧ ¬ 99 + 2 ≤ n.tick) ∧
    (let r := (link256 { replay := two }).addFld (R.SWC_CH_CNT.NAK_RX 256) 1
     ((8 : BitVec 12).toNat + 4096 - r.oldest 256) % 4096 < (r.chan 256).replay.length ∧
       (r.chan 256).replay.length ≤ ((9 : BitVec 12).toNat + 4096 - r.oldest 256) % 4096) ∧
    (s.fld (R.SWC_CH_STATUS.RX_SEQ 256) + 4096 - (7 : BitVec 12).toNat) % 4096 ≤ 2047 ∧
    2047 < (s.fld (R.SWC_CH_STATUS.RX_SEQ 256) + 4096 - (8 : BitVec 12).toNat) % 4096 ∧
    (s.lanesOf 3).contains (3 : LaneKey).val = true ∧
    (s.chan 256).ei = false ∧ ((link256 { lastCredit := 36 }).chan 256).lastCredit + 64 ≤ s.tick ∧
    s.tick < ((link256 { lastCredit := 37 }).chan 256).lastCredit + 64 := by decide +kernel

theorem test_controlBlocks :
    ends (.creditBlock 256 8 9 0) (link256 { replay := two }) (fun u => (u.chan 256).replay.length == 1 &&
      (u.chan 256).lastCredit == 100 && u.fld (R.SWC_CH_STATUS.UNACK 256) == 1) = true ∧
    ends (.nakBlock 256 8 1) (link256 { replay := two }) (fun u => (u.chan 256).resend.length == 1 && u.out.length == 1) = true ∧
    ends (.replayBlock 256 5) (link256 { nak := some (98, 2) }) (fun u => (u.chan 256).nak == none && (u.chan 256).dups == 2) = true ∧
    ends (.nakRepeat 256) (link256 { nak := some (98, 2) }) (fun u => u.out.length == 1 && (u.chan 256).nak == some (100, 2)) = true := by
  decide +kernel

theorem test_channelsDown :
    ends (.silentPeerTimeout 256) (link256 { lastCredit := 37 }) (fun u => u.chState 256 == chUP) = true ∧
    ends (.idleBlock { chan := 256, lane := 256 }) link256 (fun u => u == link256) = true ∧
    ends (.badControlBlock { chan := 256, bits := BitVec.ofNat 256 (CtrlBlock.nak 7 1).bytes }) link256 (fun u => u == link256) = true ∧
    ends (.badControlBlock { chan := 256, bits := BitVec.ofNat 256 (CtrlBlock.nak 7 1).bytes, flagged := true }) link256 (fun u =>
      u.fld (R.SWC_CH_CNT.CTRL_ERR 256) == 1) = true ∧
    ends (.badControlBlock { chan := 256, bits := BitVec.ofNat 256 ((CtrlBlock.nak 7 1).bytes + 2 ^ 20) }) link256 (fun u => u.fld (R.SWC_CH_CNT.CTRL_ERR 256) == 1) = true := by decide +kernel

/-! ## Electrical ports and lanes -/

/-- Electrical port 0 (lanes 0 to 7, channel 256) with fields set, at tick 100000. -/
def elk0 (l : List (Field × Nat)) : State :=
  withFields ([(R.GLB_TICK.TICK, 100000), (R.ELK_PORT_CTL.EN 0, 1), (R.ELK_PORT_CTL.LANE_EN 0, 1),
    (R.GLB_TIME_STATUS.REFA_OK, 1)] ++ l)

/-- A lane's training word with its CRC. -/
def trainWord (low : Nat) : BitVec 32 := BitVec.ofNat 32 (low + 2 ^ 16 * (crc16 (leBytes 2 low)).toNat)

theorem test_witness_PortTraining :
    (elk0 [(R.ELK_LANE_STATUS.STATE 0, 2)]).elkState 0 = 2 ∧
    (let s := elk0 [(R.ELK_LANE_STATUS.STATE 0, 3)]
     s.elkState 0 = 3 ∧ s.laneActive 0 = false ∧ (s.chan 256).ei = false) ∧
    (let s := (elk0 [(R.ELK_LANE_STATUS.STATE 0, 1)]).setElkLane 0 { stage := 1, since := 93750 }
     s.elkState 0 = 1 ∧ (s.elkLane 0).stage = 1 ∧ (s.elkLane 0).out = false ∧ (s.elkLane 0).since + stageLimit 1 ≤ s.tick ∧
       (crc16 (leBytes 2 ((trainWord 0x1005).toNat % 2 ^ 16))).toNat = (trainWord 0x1005).toNat / 2 ^ 16 ∧
       getBits (trainWord 0x1005).toNat 8 2 = 0 ∧
       (crc16 (leBytes 2 ((0 : BitVec 32).toNat % 2 ^ 16))).toNat ≠ (0 : BitVec 32).toNat / 2 ^ 16) ∧
    (let s := (elk0 []).setLane 7 { train := 1, trainAt := 93750 }
     (s.lane 7).train = 1 ∧ (s.lane 7).trainAt + laneLimit (s.lane 7).train ≤ s.tick ∧
       (crc16 (leBytes 2 ((trainWord 0x1000).toNat % 2 ^ 16))).toNat = (trainWord 0x1000).toNat / 2 ^ 16) ∧
    (let s := elk0 [(R.ELK_PORT_STATUS.STATE 0, 1), (R.ELK_LANE_STATUS.STATE 0, 3), (R.ELK_PORT_CTL.MIN_LANES 0, 1)]
     s.fld (R.ELK_PORT_STATUS.STATE 0) = 1 ∧ (s.trainees 0).all (fun l => s.elkState l == 3) = true ∧
       s.flag R.GLB_TIME_STATUS.REFA_OK = true ∧ s.fld (R.ELK_PORT_CTL.MIN_LANES 0) ≤ (s.trainees 0).length ∧ s.trainees 0 ≠ [] ∧
       ((s.setFld (R.ELK_PORT_CTL.MIN_LANES 0) 2).trainees 0).length < (s.setFld (R.ELK_PORT_CTL.MIN_LANES 0) 2).fld (R.ELK_PORT_CTL.MIN_LANES 0)) ∧
    (let s := (elk0 []).setElkPort 0 { tryAt := 100000 - 2 ^ 16 }
     s.fld (R.ELK_PORT_STATUS.STATE 0) = 0 ∧ s.flag (R.ELK_PORT_CTL.EN 0) = true ∧ (s.elkPort 0).tryAt + 2 ^ 16 ≤ s.tick ∧
       s.sees .mgmt (R.ELK_PORT_CTL.adr 0) true = true) ∧
    (let s := (elk0 [(R.ELK_PORT_STATUS.STATE 0, 2)]).setElkLane 0 { stage := 6 }
     s.fld (R.ELK_PORT_CTL.REJOIN 0) = 0 ∧ s.fld (R.ELK_PORT_STATUS.STATE 0) = 2 ∧
       (upFrom (8 * 0) 8).any (fun l => s.mayTrain l && (s.elkLane l).stage == 6) = true) := by decide +kernel

theorem test_portTraining :
    ends (.laneLock 256) (elk0 [(R.ELK_LANE_STATUS.STATE 0, 2)]) (fun u => u.elkState 0 == 3) = true ∧
    ends (.laneLockLoss 256) (elk0 [(R.ELK_LANE_STATUS.STATE 0, 3)]) (fun u => u.elkState 0 == 2 && u.flag R.ELK_EVENTS.LOCK_LOSS &&
      u.fld (R.ELK_LANE_CNT.LOCK_LOSS 0) == 1) = true ∧
    ends (.electricalLos 0) (elk0 [(R.ELK_LANE_STATUS.STATE 0, 3)]) (fun u => u.flag (R.ELK_LANE_STATUS.LOS 0)) = true ∧
    (let s := (elk0 [(R.ELK_LANE_STATUS.STATE 0, 1)]).setElkLane 0 { stage := 1, since := 93750 }
     ends (.trainingFrame 256 (trainWord 0x1005) true false) s (fun u => (u.elkLane 0).stage == 2 && (u.elkLane 0).peerReady &&
       u.fld (R.ELK_LANE_STATUS.PEER_LANE 0) == 5 && u.flag (R.ELK_LANE_STATUS.INVERTED 0)) = true ∧
     ends (.trainingFrame 256 0 true false) s (fun u => u == s) = true ∧
     ends (.trainingStageLimit 256) s (fun u => (u.elkLane 0).out && u.elkState 0 == 0 && u.flag R.ELK_EVENTS.TRAIN_FAIL) = true ∧
     ends (.trainingStageLimit 256) (s.setElkLane 0 { stage := 1, since := 93751 }) (fun u => u.elkState 0 == 1) = true) ∧
    (let s := (elk0 []).setLane 7 { train := 1, trainAt := 93750 }
     ends (.trainingFrame 7 (trainWord 0x1000) false true) s (fun u => (u.lane 7).train == 2 && (u.lane 7).peerReady &&
       (u.lane 7).ready && (u.lane 7).trainAt == 100000) = true ∧
     ends (.trainingStageLimit 7) s (fun u => u == s.fullTrain 7) = true) := by decide +kernel

theorem test_portStates :
    (let s := elk0 [(R.ELK_PORT_STATUS.STATE 0, 1), (R.ELK_LANE_STATUS.STATE 0, 3), (R.ELK_PORT_CTL.MIN_LANES 0, 1)]
     ends (.portTrainingDone 0) s (fun u => u.fld (R.ELK_PORT_STATUS.STATE 0) == 2 && u.chState 256 == chTRAINING) = true ∧
     ends (.portTrainingDone 0) (s.setFld (R.ELK_PORT_CTL.MIN_LANES 0) 2) (fun u => u.fld (R.ELK_PORT_STATUS.STATE 0) == 0 &&
       u.flag R.ELK_EVENTS.PORT_DOWN) = true) ∧
    ends (.trainingRetry 0) ((elk0 []).setElkPort 0 { tryAt := 100000 - 2 ^ 16 }) (fun u => u.fld (R.ELK_PORT_STATUS.STATE 0) == 1 &&
      (u.elkLane 0).stage == 1 && u.elkState 0 == 1) = true ∧
    ends (.portRetrain .mgmt 0) (elk0 []) (fun u => u.fld (R.ELK_PORT_STATUS.STATE 0) == 1) = true ∧
    ends (.laneRejoin 0) ((elk0 [(R.ELK_PORT_STATUS.STATE 0, 2)]).setElkLane 0 { stage := 6 }) (fun u =>
      u.fld (R.ELK_PORT_STATUS.STATE 0) == 1) = true := by decide +kernel

/-- Port 0 UP with its channel, quiet for long. -/
def up0 (l : List (Field × Nat)) : State := elk0 ([(R.ELK_PORT_STATUS.STATE 0, 2), (R.SWC_CH_STATUS.STATE 256, chUP)] ++ l)

/-- A channel's last told numbers are its present ones: there is nothing to send. -/
def told (s : State) : State :=
  match s.creditBlock 256 with
  | .credit a _ f => s.setChan 256 { s.chan 256 with toldAck := a, toldFreed := f }
  | _ => s

theorem test_witness_ElectricalIdle :
    (let s := told (up0 [(R.ELK_PORT_CTL.IDLE_EN 0, 1)])
     let e := s.setChan 256 { s.chan 256 with ei := true }
     s.flag (R.ELK_PORT_CTL.IDLE_EN 0) = true ∧ s.skois 256 = false ∧ s.fld (R.ELK_PORT_STATUS.STATE 0) = 2 ∧ s.chState 256 = chUP ∧
       s.nothingToSend 256 = true ∧ (s.elkPort 0).sentEi = false ∧ (s.chan 256).ei = false ∧ e.nothingToSend 256 = true ∧
       (e.chan 256).ei = true ∧ ((e.setElkPort 0 { sentEi := true }).elkPort 0).sentEi = true) ∧
    (let s := told (up0 [(R.ELK_PORT_STATUS.STATE 0, 3), (R.SWC_CH_STATUS.STATE 256, chIDLE)])
     s.fld (R.ELK_PORT_STATUS.STATE 0) = 3 ∧ s.mustExit 0 = true ∧ s.skois 256 = false ∧
       (s.setElkPort 0 { busyAt := 100000 - 14 }).mustExit 0 = false) ∧
    (let s := (told (up0 [(R.ELK_PORT_STATUS.SKOIS 0, 1), (R.ELK_SKOIS_CTL.SLEEP_TICKS 0, 100)])).setElkPort 0 { busyAt := 99900 }
     s.skois 256 = true ∧ s.fld (R.ELK_PORT_STATUS.STATE 0) = 2 ∧ s.nothingToSend 256 = true ∧
       (s.elkPort 0).busyAt + s.fld (R.ELK_SKOIS_CTL.SLEEP_TICKS 0) ≤ s.tick) := by decide +kernel

theorem test_electricalIdle :
    (let s := told (up0 [(R.ELK_PORT_CTL.IDLE_EN 0, 1)])
     let e := s.setChan 256 { s.chan 256 with ei := true }
     ends (.idleEnter 0) s (fun u => u.out == [.control 256 .ei] && u.fld (R.ELK_PORT_STATUS.STATE 0) == 2) = true ∧
     ends (.idleEnter 0) e (fun u => u.out == [.control 256 .ei] && u.fld (R.ELK_PORT_STATUS.STATE 0) == 3) = true ∧
     ends (.eiBlock 256) s (fun u => (u.chan 256).ei && u.fld (R.ELK_PORT_STATUS.STATE 0) == 2) = true ∧
     ends (.eiBlock 256) (s.setElkPort 0 { sentEi := true }) (fun u => u.fld (R.ELK_PORT_STATUS.STATE 0) == 3) = true) ∧
    (let s := told (up0 [(R.ELK_PORT_STATUS.STATE 0, 3), (R.SWC_CH_STATUS.STATE 256, chIDLE)])
     ends (.idleExit 0) s (fun u => u.fld (R.ELK_PORT_STATUS.STATE 0) == 2 && u.chState 256 == chUP) = true ∧
     ends (.idleExit 0) (s.setElkPort 0 { busyAt := 100000 - 14 }) (fun u => u.fld (R.ELK_PORT_STATUS.STATE 0) == 3) = true) ∧
    (let s := (told (up0 [(R.ELK_PORT_STATUS.SKOIS 0, 1), (R.ELK_SKOIS_CTL.SLEEP_TICKS 0, 100)])).setElkPort 0 { busyAt := 99900 }
     ends (.skoisSleep 0) s (fun u => u.fld (R.ELK_PORT_STATUS.STATE 0) == 4 && u.chState 256 == chIDLE) = true) := by decide +kernel

theorem test_witness_LaneTests : let s := elk0 []
    s.sees .mgmt (R.ELK_LANE_CTL.adr 47) true = true ∧ s.reg (R.ELK_LANE_CTL.adr 47) = 0 ∧ s.laneActive 47 = false ∧
    (1 : Word).toNat % 32 = 1 ∧ s.sees .mgmt R.ELK_CNT_SRC.adr true = true ∧ s.reg R.ELK_CNT_SRC.adr = 0 ∧
    (∀ l < 48, s.flag ⟨R.ELK_CNT_SRC.adr, l, 1⟩ = (0 : Word).getLsbD l) ∧
    (elk0 [(R.ELK_LANE_CTL.TEST 47, 1)]).flag (R.ELK_LANE_CTL.TEST 47) = true ∧
    s.sees .mgmt (R.ELK_INJECT.adr 47) true = true ∧ FMap.find s.elk.inject (256 + 47) = none ∧ goodInject 2 255 1 1 = true ∧
    s.elkState 47 ≠ 4 ∧ goodInject 3 1 1 1 = false ∧ goodInject 0 0 1 1 = false ∧
    (let t := elk0 [(R.ELK_LANE_CTL.TEST 47, 1), (R.ELK_LANE_CTL.CHK_EN 47, 1), (R.ELK_LANE_STATUS.CHK_LOCK 47, 1), (⟨R.ELK_CNT_SRC.adr, 47, 1⟩, 1)]
     t.checking 303 = true ∧ t.flag (chkLock 303) = true ∧ t.flag ⟨R.ELK_CNT_SRC.adr, 47, 1⟩ = true) := by decide +kernel

theorem test_laneTests : let s := elk0 []
    ends (.elkLaneTestWrite .mgmt 47 1) s (fun u => u.flag (R.ELK_LANE_CTL.TEST 47) && u.elkState 47 == 5) = true ∧
    ends (.elkCntSrcWrite .mgmt (BitVec.ofNat 64 (2 ^ 47))) (elk0 [(R.ELK_LANE_CTL.TEST 47, 1), (R.ELK_LANE_CNT.CNT 47 0, 9)]) (fun u =>
      u.flag ⟨R.ELK_CNT_SRC.adr, 47, 1⟩ && u.fld (R.ELK_LANE_CNT.CNT 47 0) == 0) = true ∧
    ends (.elkInjectGo .mgmt 47 2 255 2 9) s (fun u => u.flag (R.ELK_INJECT.BUSY 47)) = true ∧
    ends (.elkInjectGo .mgmt 47 3 1 1 1) s (fun u => !u.flag (R.ELK_INJECT.BUSY 47) && u.flag R.ELK_EVENTS.CFG_BUSY) = true ∧
    (let t := elk0 [(R.ELK_LANE_CTL.TEST 47, 1), (R.ELK_LANE_CTL.CHK_EN 47, 1), (R.ELK_LANE_STATUS.CHK_LOCK 47, 1), (⟨R.ELK_CNT_SRC.adr, 47, 1⟩, 1)]
     ends (.patternCheckerLock 303) t (fun u => u.flag (R.ELK_LANE_STATUS.CHK_LOCK 47)) = true ∧
     ends (.patternCheckerRelock 303) t (fun u => u.fld (R.ELK_LANE_CNT.CNT 47 3) == 1) = true) := by decide +kernel

/-! ## Optics -/

/-- A state with plan 3 valid and all its lanes disabled, at tick 1000. -/
def optic (l : List (Field × Nat)) (x : OptState := {}) : State :=
  let o : OptState := { x with plans := [(257 * 3 + 256, 0x301)] }
  { withFields ([(R.GLB_TICK.TICK, 1000)] ++ l) with opt := o }

/-- A switch to plan 3 at tick `t` in stage `n`. -/
def sw3 (t n : Nat) : PlanSwitch := { plan := 3, tick := t, by_ := .cmd, stage := n }

theorem test_witness_PlanSwitches :
    (let s := optic []
     s.sees .mgmt R.OPT_PLAN_CMD.adr true = true ∧ s.opt.lock = none ∧ s.timeState ≠ tsLOST ∧ s.planValid 3 = true ∧
       s.planValid 4 = false ∧ s.opt.wins = [] ∧ s.tick / 2 ^ 56 * 2 ^ 56 + (1002 : BitVec 56).toNat = s.tick + 2 ∧
       s.tick / 2 ^ 56 * 2 ^ 56 + (1049576 : BitVec 56).toNat = s.tick + 2 ^ 20 ∧
       (optic [(R.GLB_TIME_STATUS.STATE, 4)]).timeState = tsLOST) ∧
    (let s := optic [] { sw := some (sw3 1000 0) }
     s.opt.sw = some (sw3 1000 0) ∧ (sw3 1000 0).tick ≤ s.tick ∧ s.opt.force = false ∧ s.changedLanes 3 = [] ∧ s.opt.restore = none ∧
       s.timeState ≠ tsLOST ∧ (optic [(R.GLB_TICK.TICK, 999)]).tick < (sw3 1000 0).tick ∧
       (sw3 988 1).tick + 12 ≤ s.tick ∧ (sw3 988 1).changed = [] ∧ s.tick < (sw3 989 1).tick + 12 ∧ (sw3 982 3).tick + 18 ≤ s.tick ∧
       s.col.entries = []) ∧
    (let s := optic [(R.OPT_LANE_STATUS.STATE 255, lsRETUNE)] { sw := some (sw3 984 2) }
     (sw3 984 2).tick + 16 ≤ s.tick ∧ s.laneState 255 = lsRETUNE ∧ 32 * (255 / 16) + 255 % 16 = 495 ∧
       ((4 : Fin 9).val : Int) * 16 - 64 = 0 ∧ (optic []).laneState 255 ≠ lsRETUNE ∧ (sw3 975 4).tick + 25 ≤ s.tick ∧ s.tick < (sw3 976 4).tick + 25) := by decide +kernel

/-- R260, R261: a request at its boundaries and its refusals; the fine search of one ring. -/
theorem test_planSwitch : let s := optic []
    ends (.planSwitchRequest .mgmt 3 1002) s (fun u => u.opt.sw == some (sw3 1002 0) && u.opt.lock == some .cmd &&
      u.flag R.OPT_PLAN_STATUS.PENDING && u.fld R.OPT_PLAN_STATUS.NEXT == 3) = true ∧
    ends (.planSwitchRequest .mgmt 3 1001) s (fun u => u.opt == s.opt && u.fld R.OPT_PLAN_STATUS.RESULT == sCHECK) = true ∧
    ends (.planSwitchRequest .mgmt 4 1002) s (fun u => u.opt == s.opt && u.fld R.OPT_PLAN_STATUS.RESULT == sCHECK) = true ∧
    ends (.planSwitchRequest .mgmt 3 1002) (optic [] { lock := some .cmd }) (fun u =>
      u.opt.sw == none && u.fld R.OPT_PLAN_STATUS.RESULT == sNORES) = true ∧
    ends .planSwitchStart (optic [] { sw := some (sw3 1001 0) }) (fun u => u.opt.sw == some (sw3 1001 0)) = true ∧
    ends (.switchFineSearch [(495, 3)]) (optic [(R.OPT_LANE_STATUS.STATE 255, lsRETUNE), (R.OPT_LANE_STATUS.TX_CODE 255, 100)]
      { sw := some (sw3 984 2) }) (fun u => u.fld (R.OPT_LANE_STATUS.TX_CODE 255) == 84) = true ∧
    ends .switchRetune (optic [] { sw := some (sw3 988 1) }) (fun u => u.opt.sw == some (sw3 988 2) && u.opt.force &&
      u.fld R.OPT_PLAN_STATUS.CUR == 3) = true ∧
    ends .switchRetune (optic [] { sw := some (sw3 989 1) }) (fun u => u.opt.sw == some (sw3 989 1)) = true ∧
    ends .switchAcquire (optic [] { sw := some (sw3 982 3) }) (fun u => u.opt.sw == some (sw3 982 4)) = true ∧
    ends .switchComplete (optic [] { sw := some (sw3 976 4) }) (fun u => u.opt.sw == some (sw3 976 4)) = true := by decide +kernel

/-- Lightlane 17 UP in a plan in force: to FEID 9, engine port 8, lane 2, on lines 6 (modulator) and 7 (drop). -/
def lane17 (l : List (Field × Nat)) : State :=
  let w := packBits [(0, 6), (5, 1), (6, 7), (16, 9), (32, 8), (40, 2)]
  let s := optic ([(R.OPT_LANE_STATUS.STATE 17, lsUP), (R.OPT_PLAN_STATUS.CUR, 3), (R.SWC_CH_STATUS.STATE 17, chUP),
    (R.OPT_RING_CTL.GAIN, 2), (R.OPT_LANE_STATUS.TX_CODE 17, 100), (R.GLB_TICK.TICK, 1024), (R.OPT_RING_CTL.SWEEP_TICKS, 24),
    (R.OPT_RING_CTL.VERIFY_TICKS, 24)] ++ l)
  let o : OptState := { s.opt with force := true, plans := [(257 * 3 + 17, BitVec.ofNat 64 w), (257 * 3 + 256, 0x301)] }
  { s with opt := o }

theorem test_witness_Lightlanes : let s := lane17 []
    let b : IdentBlock := { feid := 9, port := 8, lane := 2, comb := 7, plan := 3, tstate := 0, thops := 0, master := 9, serial := 1 }
    (s.ring (17 / 16) (ringNo 17 false)).winAt + 1024 ≤ s.tick ∧ (0xFFF8 : BitVec 16).toInt ≠ 0 ∧ (s.lane 17).pilotAt + 4 ≤ s.tick ∧
    (lane17 [(R.GLB_TICK.TICK, 3)]).tick < (s.lane 17).pilotAt + 4 ∧ s.inTest 17 = false ∧ s.failing 17 = false ∧ s.mgtAway = false ∧ s.underLock 17 false = true ∧ (s.ring (17 / 16) (ringNo 17 false)).locked = false ∧
    (s.ring (17 / 16) (ringNo 17 false)).good = 0 ∧ (s.ring (17 / 16) (ringNo 17 false)).acq = 0 ∧
    ((0xFFF8 : BitVec 16).toInt = -2 * (2 ^ s.fld R.OPT_RING_CTL.GAIN : Nat)) ∧
    s.laneState 17 = lsUP ∧ passA (lwTx (s.laneWord 17)) 6 120 = true ∧ passA (lwRx (s.laneWord 17)) 7 120 = true ∧
    passA (lwRx (s.laneWord 17)) 7 119 = false ∧ (s.lane 17).test = 0 ∧ s.checkB 17 b = true ∧ s.chState 17 = chUP ∧
    (lane17 [(R.GLB_TIME_CTL.TT_DISABLE_OE, 0xFFFF)]).ttOff (portCode 17) = true ∧
    (let s := (lane17 [(R.OPT_LANE_STATUS.STATE 17, lsOFF)]).setLane 17 { sweepD := true, sweepAt := 1000 }
     s.laneState 17 = lsOFF ∧ (s.lane 17).sweepD = true ∧ (s.lane 17).sweepAt + s.fld R.OPT_RING_CTL.SWEEP_TICKS ≤ s.tick) ∧
    s.fld R.GLB_CRUISE_STATUS.PHASE < 4 ∧
    (let s := (lane17 [(R.OPT_LANE_STATUS.STATE 17, lsVERIFY), (R.GLB_CRUISE_STATUS.PHASE, 4)]).setLane 17 { at_ := 1000 }
     s.laneState 17 = lsVERIFY ∧ s.inTest 17 = false ∧ (s.lane 17).okB = false ∧ 4 ≤ s.fld R.GLB_CRUISE_STATUS.PHASE ∧
       max (s.lane 17).at_ s.cru.c4At + s.fld R.OPT_RING_CTL.VERIFY_TICKS ≤ s.tick ∧
       1023 < max (s.lane 17).at_ s.cru.c4At + s.fld R.OPT_RING_CTL.VERIFY_TICKS) ∧
    (let s := lane17 [(R.OPT_RING_CTL.LOS_LEVEL, 2000), (R.OPT_LANE_STATUS.STATE 17, lsFAILED), (R.OPT_LANE_STATUS.CAUSE 17, 5)]
     s.dim (BitVec.ofInt 16 (-2001)) = true ∧ s.dim (BitVec.ofInt 16 (-2000)) = false ∧
       (BitVec.ofInt 16 (-2000)).toInt ≤ -(s.fld R.OPT_RING_CTL.LOS_LEVEL : Int) ∧
       -(s.fld R.OPT_RING_CTL.LOS_LEVEL : Int) < (BitVec.ofInt 16 (-1999)).toInt ∧ s.chState 17 ≠ chDARK ∧
       s.laneState 17 = lsFAILED ∧ s.fld (R.OPT_LANE_STATUS.CAUSE 17) = 5 ∧ s.sees .mgmt R.OPT_LANE_CMD.adr true = true ∧
       (s.setFld (R.SWC_CH_STATUS.STATE 17) chDOWN).chUp 17 = false) := by decide +kernel

theorem test_lightlanes :
    ends (.ringLockWindow 17 false 0xFFF8 5) (lane17 []) (fun u => u.fld (R.OPT_LANE_STATUS.TX_CODE 17) == 98) = true ∧
    ends (.pilotCheck 17 6 120 7 120) (lane17 []) (fun u => u.flag (R.OPT_LANE_STATUS.CHK_A 17)) = true ∧
    ends (.pilotCheck 17 6 120 7 119) (lane17 []) (fun u => !u.flag (R.OPT_LANE_STATUS.CHK_A 17) && (u.lane 17).failD == 1) = true ∧
    (let b : IdentBlock := { feid := 9, port := 8, lane := 2, comb := 7, plan := 3, tstate := 0, thops := 0, master := 9, serial := 1 }
     ends (.identBlock 17 b) (lane17 [(R.GLB_TIME_CTL.TT_DISABLE_OE, 0xFFFF)]) (fun u => u.flag (R.OPT_LANE_STATUS.CHK_B 17) &&
       u.fld (R.SWC_CH_STATUS.PEER 17) == 9) = true) ∧
    (let s := (lane17 [(R.OPT_LANE_STATUS.STATE 17, lsOFF)]).setLane 17 { sweepD := true, sweepAt := 1000 }
     ends (.ringSweepDone 17 true (BitVec.ofNat 512 (3 * 2 ^ 16 + 4)) true 0) s (fun u => u.calCode 1 17 1 == 3 && u.calCode 1 17 0 == 4 &&
       !(u.lane 17).sweepD) = true) := by decide +kernel

/-- Light lost on a lightlane that is not UP, light back, RELOCK denied, FAIL. -/
theorem test_lightlaneCommands :
    (let s := lane17 [(R.OPT_RING_CTL.LOS_LEVEL, 2000), (R.OPT_LANE_STATUS.STATE 17, lsSWEEP), (R.SWC_CH_STATUS.STATE 17, chDOWN)]
     ends (.opticalLos 17 (BitVec.ofInt 16 (-2001)) (BitVec.ofInt 16 (-2001))) s (fun u => (u.lane 17).los) = true ∧
     ends (.opticalLos 17 (BitVec.ofInt 16 (-2001)) (BitVec.ofInt 16 (-2000))) s (fun u => !(u.lane 17).los) = true ∧
     ends (.laneRelock .mgmt 17) s (fun u => u.laneState 17 == lsSWEEP && u.flag R.OPT_EVENTS.CMD_DENY) = true ∧
     ends (.laneFail .mgmt 17) s (fun u => u.laneState 17 == lsFAILED && u.fld (R.OPT_LANE_STATUS.CAUSE 17) == 9) = true) := by
  decide +kernel

theorem test_witness_LasersAndDarkWindows :
    (let s := optic [(R.OPT_LASER_STATUS.STATE 3 4, 1), (R.OPT_LASER_BASE.BASE 3 4, 1000)]
     s.mgtAway = false ∧ s.unmonitored (s.fld (R.OPT_LASER_STATUS.FEEDS 3 4)) = false ∧ s.fld (R.OPT_LASER_STATUS.STATE 3 4) = 1 ∧
       (-((850 : BitVec 16).toInt - signedOf 16 (s.fld (R.OPT_LASER_BASE.BASE 3 4))) ≤ 150) ∧
       ¬ (-((849 : BitVec 16).toInt - signedOf 16 (s.fld (R.OPT_LASER_BASE.BASE 3 4))) ≤ 150)) ∧
    (let s := optic [(R.OPT_LASER_STATUS.STATE 3 4, 2), (R.GLB_TICK.TICK, 2 ^ 18 + 5)] { spare := [(3, (2, 5, false))] }
     FMap.find s.opt.spare 3 = some (2, 5, false) ∧ s.fld (R.OPT_LASER_STATUS.STATE 3 4) = 2 ∧ 5 + 2 ^ 18 ≤ s.tick ∧
       FMap.find (optic [] { spare := [(3, (2, 5, true))] }).opt.spare 3 = some (2, 5, true)) ∧
    (let n := State.reset.mgmtPacket 9 (darkPayload 0x21 8 3 7 5000)
     let a := State.reset.mgmtPacket 9 (darkPayload 0x22 8 3 7 5000)
     let x : DarkWin := { bank := 0, engine := 1, tick := 1016, notices := [(0, 7, false)] }
     let y : DarkWin := { x with tick := 1000, confirmed := true, notices := [(0, 7, true)] }
     (optic []).intact n = true ∧ (optic []).intact a = true ∧ n.op = opMGMT ∧ n.payload.toNat % 256 = 0x21 ∧ ((optic []).takeLocal n).swc.chans = [] ∧ a.payload.toNat % 256 = 0x22 ∧
       getBits a.payload.toNat 32 32 = 7 ∧ ((optic [] { wins := [x] }).takeLocal a).opt.wins = [x] ∧
       x.notices = [(a.src.toNat, 7, false)] ∧ x.tick ≤ (optic []).tick + 16 ∧ x.notices.all (fun e => e.2.2) = false ∧
       y.notices.all (fun e => e.2.2) = true ∧ y.tick = (optic []).tick ∧ (∀ c < 16, (optic []).chUp (16 * y.engine + c) = false) ∧
       (998 = (optic []).tick - 2)) := by decide +kernel

theorem test_lasersAndDark :
    ends (.laserPowerWindow 3 4 850) (optic [(R.OPT_LASER_STATUS.STATE 3 4, 1), (R.OPT_LASER_BASE.BASE 3 4, 1000)]) (fun u =>
      u.fld (R.OPT_LASER_STATUS.POWER 3 4) == 850 && u.fld (R.OPT_LASER_STATUS.DELTA 3 4) == 65536 - 150) = true ∧
    (let s := optic [(R.OPT_LASER_STATUS.STATE 3 4, 2), (R.GLB_TICK.TICK, 2 ^ 18 + 5)] { spare := [(3, (2, 5, false))] }
     ends (.spareWarmTimeout 3) s (fun u => u.fld (R.OPT_LASER_STATUS.STATE 3 4) == 4 && u.opt.spare == []) = true ∧
     ends (.spareWarmTimeout 3) (s.setFld R.GLB_TICK.TICK (2 ^ 18 + 4)) (fun u => u.fld (R.OPT_LASER_STATUS.STATE 3 4) == 2) = true) ∧
    (let a := State.reset.mgmtPacket 9 (darkPayload 0x22 8 3 7 5000)
     let x : DarkWin := { bank := 0, engine := 1, tick := 1016, notices := [(0, 7, false)] }
     ends (.darkAck a) (optic [] { wins := [x] }) (fun u => u.opt.wins == [{ x with notices := [(0, 7, true)] }]) = true ∧
     ends .darkAckDeadline (optic [] { wins := [{ x with notices := [(0, 7, true)] }] }) (fun u =>
       u.opt.wins.all (fun y => y.confirmed)) = true ∧
     ends .darkAckDeadline (optic [] { wins := [{ x with tick := 1017, notices := [(0, 7, true)] }] }) (fun u =>
       u.opt.wins.all (fun y => !y.confirmed)) = true) := by decide +kernel

theorem test_witness_MarginTests : let s := optic []
    s.sees .mgmt R.OPT_MARGIN_CMD.adr true = true ∧ s.marginRuns = false ∧ (optic [] { margin := some { lanes := [0], start := 7 } }).marginRuns = true ∧
    (let m := optic [(R.GLB_TICK.TICK, 2 ^ 16 + 7)] { margin := some { lanes := [0], start := 7 } }
     ({ lanes := [0], start := 7 } : Margin).begun = none ∧ m.opt.margin = some { lanes := [0], start := 7 } ∧ m.tick % 2 ^ 16 = 7) ∧
    (let t := (optic [(R.OPT_MARGIN_CTL.SER_FAIL, 60)]).setLane 255 { test := 1 }
     (t.lane 255).test = 1 ∧ t.opt.margin = none ∧ t.acquiring 15 = false ∧ t.cru.on = false ∧ t.verdict 255 5 60 0 = 1 ∧ t.verdict 255 5 59 0 = 3 ∧ t.laneState 255 = lsOFF ∧ (s.lane 255).test ≠ 1) ∧
    (optic [(R.OPT_MARGIN.VERDICT 255, 1)]).fld (R.OPT_MARGIN.VERDICT 255) = 1 ∧
    s.sees .mgmt (R.OPT_LANE_TEST.adr 255) true = true ∧ s.reg (R.OPT_LANE_TEST.adr 255) = 0 ∧ (s.lane 255).test = 0 ∧
    s.sees .mgmt (R.OPT_CNT_SRC.adr 3) true = true ∧ s.reg (R.OPT_CNT_SRC.adr 3) = 0 ∧
    ((optic [(R.OPT_LANE_TEST.TEST 255, 1)]).lane 255).test = 0 ∧ (optic [(R.OPT_LANE_TEST.TEST 255, 1)]).flag (R.OPT_LANE_TEST.TEST 255) = true ∧
    goodInject 1 2 1 9 = true ∧ goodInject 3 2 1 9 = false ∧ s.sees .mgmt (R.OPT_INJECT.adr 255) true = true ∧
    FMap.find s.elk.inject 255 = none ∧
    (let i : State := { s with elk := { s.elk with inject := [(255, { kind := 1, len := 2, left := 2, interval := 5, next := 1000 })] } }
     FMap.find i.elk.inject 255 = some { kind := 1, len := 2, left := 2, interval := 5, next := 1000 } ∧ 1000 ≤ i.tick) := by
  decide +kernel

theorem test_marginTests : let s := optic []
    ends (.marginTestGo .mgmt 0x8000 0x8001 7) s (fun u => u.opt.margin == some { lanes := [240, 255], start := 7, asked := 1000 }) = true ∧
    ends (.marginTestDone 255 (some (5, 60, 0))) ((optic [(R.OPT_MARGIN_CTL.SER_FAIL, 60)]).setLane 255 { test := 1 }) (fun u =>
      u.fld (R.OPT_MARGIN.VERDICT 255) == 1 && (u.lane 255).test == 0 && u.fld (R.OPT_MARGIN.SER_E 255) == 60) = true ∧
    ends (.optCntSrcWrite .mgmt 3 (BitVec.ofNat 64 (2 ^ 63))) (optic [(R.OPT_LANE_TEST.TEST 255, 1)]) (fun u =>
      u.flag ⟨R.OPT_CNT_SRC.adr 3, 63, 1⟩) = true ∧
    ends (.optInjectGo .mgmt 255 1 2 1 9) s (fun u => u.out == [.inject 255 1 2]) = true ∧
    (let i : State := { s with elk := { s.elk with inject := [(255, { kind := 1, len := 2, left := 2, interval := 5, next := 1000 })] } }
     ends (.injectRepeat 255) i (fun u => u.out == [.inject 255 1 2] &&
       u.elk.inject == [(255, { kind := 1, len := 2, left := 1, interval := 5, next := 1005 })]) = true) := by decide +kernel

/-! ## Skidders and Ladles -/

/-- A FILL of 8 bytes at FVA 8 with pattern 7, without a completion record; and a descriptor of no kind. -/
def fillBytes : BitVec 512 := BitVec.ofNat 512 (packBits [(0, 2), (64, 7), (128, 8), (192, 8)])
/-- A COPY of 8 bytes from FVA 0 to FVA 128. -/
def copyBytes : BitVec 512 := BitVec.ofNat 512 (packBits [(0, 1), (64, 0), (128, 128), (192, 8)])
def desc (b : BitVec 512) : SkdDesc := { thread := 3, op := 1, tag := 0, bytes := b }
def skid4 (x : Skid) : State := (mapped).setSkid 4 x
def runOf (b : BitVec 512) : SkdRun := { desc := desc b }

theorem test_witness_BlockTransfers :
    (let s := skid4 { queue := [desc fillBytes, desc copyBytes] }
     (s.skid 4).queue = desc fillBytes :: [desc copyBytes] ∧ (s.skid 4).run = [] ∧ skdBad fillBytes.toNat = false ∧ skdBad 0 = true ∧
       s.threads = []) ∧
    (let s := skid4 { queue := [desc fillBytes], run := [runOf copyBytes] }
     (s.skid 4).run = [runOf copyBytes] ∧ (runOf copyBytes).issued = false) ∧
    (let r := runOf fillBytes
     r.lines = [] ∧ r.stopped = false ∧ r.suspended = none ∧ r.next < skdLines r.desc.bytes.toNat ∧ skKind r.desc.bytes.toNat = 2 ∧
       skKind copyBytes.toNat ≠ 2 ∧ r.recording = false ∧ r.finished = false ∧ skCompl r.desc.bytes.toNat = 0) ∧
    ({ runOf fillBytes with next := 1, lines := [(0, { done := true, ok := true })] } : SkdRun).finished = true ∧
    (let s := skid4 { run := [runOf fillBytes] }
     let r := runOf fillBytes
     let q := { s.skdReq 4 r 0 0 opBWRITE (skdSpan fillBytes.toNat 0).1 with
       bmc := (skdSpan fillBytes.toNat 0).1 % 64 + 64 * ((skdSpan fillBytes.toNat 0).2 - (skdSpan fillBytes.toNat 0).1),
       payload := skdData fillBytes.toNat 0 {}, last := true, pz := false }
     (match s.translate q.tag q.fva .store with
      | (s1, .ok x) => decide (skdData fillBytes.toNat 0 {} = 7 * 2 ^ 64) && x.line == 0x0 && s1.hbm == s.hbm
      | _ => false) = true) := by decide +kernel

/-- R244 to R246: a descriptor starts, or waits for the one before; a bad one is stopped; a COPY's first read. -/
theorem test_blockTransfers :
    ends (.skidderDescriptorStart 4) (skid4 { queue := [desc fillBytes, desc copyBytes] }) (fun u => (u.skid 4).queue.length == 1 &&
      (u.skid 4).run.map (·.desc) == [desc fillBytes]) = true ∧
    ends (.skidderDescriptorStart 4) (skid4 { queue := [desc 0] }) (fun u => (u.skid 4).run.map (fun r => (r.status, r.detail, r.stopped))
      == [(sCHECK, 1, true)]) = true ∧
    ends (.skidderDescriptorStart 4) (skid4 { queue := [desc fillBytes], run := [runOf copyBytes] }) (fun u =>
      (u.skid 4).queue.length == 1) = true ∧
    ends (.blockTransferComplete 4) (skid4 { run := [{ runOf fillBytes with next := 1, lines := [(0, { done := true, ok := true })] }] })
      (fun u => (u.skid 4).run == []) = true ∧
    skdLines copyBytes.toNat = 1 ∧ skdSources copyBytes.toNat 0 = (0, 0) ∧ skdSpan copyBytes.toNat 0 = (128, 136) := by decide +kernel

/-- An LRA of 32 inputs, 32 outputs, rank 8 and one token in the 8-bit formats, and a bad descriptor. -/
def lraBytes : BitVec 1024 := BitVec.ofNat 1024 (packBits [(0, 1), (256, 0), (320, 512), (384, 1024), (448, 2048), (640, 1), (656, 1), (672, 1),
  (680, 1), (688, 3), (692, 3), (696, 3), (700, 3)])
def kern : Kernel := { thread := 3, op := 1, tag := 0, fva := 0, bytes := lraBytes, chk := 0, pc := 0 }
def ladle (x : LdlPos) (l : List (Field × Nat) := []) : State :=
  (withFields ([(R.LDL_POS_STATUS.KSLOTS 15, 6), (R.LDL_STATUS.SPARE_PHYS, 16), (R.LDL_POS_STATUS.PHYS 15, 15), (R.LDL_STORE_SPLIT.KERNEL_SLOTS, 7),
    (R.LDL_POS_STATUS.CRES 15, 89), (R.LDL_ARB.KMIN, 4)] ++ l) (mapped)).setLpos 15 x
def krun : KernelRun := { k := kern, startTick := 0 }

theorem test_witness_Kernels :
    kernelBad lraBytes.toNat = false ∧ kernelBad 0 = true ∧
    (let s := ladle { queue := [kern] }
     (s.lpos 15).queue = kern :: [] ∧ (s.lpos 15).running = none ∧ s.posState 15 = 0 ∧ 6 ≤ s.fld (R.LDL_POS_STATUS.KSLOTS 15) ∧
       s.fld R.GLB_POWER_STATUS.LEVEL ≠ 7 ∧ s.reductionWaits 15 = false ∧
       s.fld (R.LDL_POS_STATUS.KSLOTS 15) < s.fld R.LDL_STORE_SPLIT.KERNEL_SLOTS ∧
       s.fld (R.LDL_POS_STATUS.CRES 15) + s.fld (R.LDL_POS_STATUS.KSLOTS 15) + 1 ≤ 96 ∧
       s.sees .mgmt (R.LDL_CELL_RETIRE.adr 16) true = true ∧ s.sees .mgmt R.LDL_SPARE_CTL.adr true = true) ∧
    (let s := ladle { running := some krun }
     (s.lpos 15).running = some krun ∧ krun.finished = false ∧ s.isRetired (s.fld (R.LDL_POS_STATUS.PHYS 15)) 63 = false ∧
       s.posState 15 = 0 ∧ (s.lpos 15).quantum ≠ 4 ∧ s.reductionWaits 15 = false ∧ s.engineWaits (krun.k.op + 1) = false ∧
       (let p := (s.eng 0 [] 1).tile krun
        p.1.fail.isNone && p.1.poison.isNone && p.2.writes.isEmpty && p.2.temp == some (List.replicate 8 0) &&
          p.2.accs.all LAcc.resOk && max p.1.level kern.chk.toNat == 0 &&
          (let q := p.1.s.checkItem 15 0 (ItemRun.judged { cell := 63 } true) (Config.itemCrc true 0 0)
           q.2.usable && (q.1.lpos 15).running.isSome) &&
          !(p.1.s.checkItem 15 0 (ItemRun.judged { cell := 63, checks := .residue .same false } true) (Config.itemCrc true 0 0)).2.usable)
         = true ∧
       (((s.setPoison (2 ^ 18) true).eng 0 [] 1).tile krun).1.poison.isSome = true) ∧
    (let s := ladle { running := some krun, quantum := 4 }
     (s.lpos 15).quantum = 4 ∧ (ladle {} [(R.LDL_CELL_RETIRE.RETIRED 15, 2 ^ 63)]).isRetired 15 63 = true) ∧
    (let s := ladle { turn := 14 } [(R.GLB_POWER_STATUS.LEVEL, 1)]
     ladleDuty (s.fld R.GLB_POWER_STATUS.LEVEL) ≤ ((s.lpos 15).turn + 1) % 16 ∧ s.kernelRuns 15 = false ∧ s.reductionWaits 15 = false ∧
       (ladle { running := some krun }).kernelRuns 15 = true ∧ 0 < ladleDuty 6) ∧
    (let s : State := { ladle {} with ldl := { State.reset.ldl with ended := [kern], repl := some (15, 0) } }
     s.ldl.ended = kern :: [] ∧ s.ldl.repl = some (15, 0)) ∧
    (let r : KernelRun := { krun with finished := true, lastY := some 9 }
     r.k.status = sOK ∧ r.lastY = some 9 ∧ r.ports = [] ∧ ((ladle { running := some r }).eng 0 [] 1 r.ports).flush.fail = none ∧
       (let m : MirrorOp := { kind := .engine 2, hline := 0, req := {}, mirror := 9, start := 0, limit := 20 }
        let h : HomeState := { mirror := [m] }
        ({ ladle {} with home := h } : State).engineWaits (r.k.op + 1) = true)) := by
  decide +kernel

theorem test_kernels :
    ends (.kernelStart 15) (ladle { queue := [kern] }) (fun u => (u.lpos 15).queue == [] && (u.lpos 15).running == some krun) = true ∧
    ends (.kernelStart 15) (ladle { queue := [kern] } [(R.LDL_POS_STATUS.KSLOTS 15, 5)]) (fun u => (u.lpos 15).running == none) = true ∧
    ends (.kernelComplete (some 15) []) (ladle { running := some krun }) (fun u => (u.lpos 15).running == some krun) = true ∧
    ends (.kernelSlotMove 15) (ladle {}) (fun u => u.fld (R.LDL_POS_STATUS.KSLOTS 15) == 7) = true ∧
    ends (.kernelSlotMove 15) (ladle {} [(R.LDL_POS_STATUS.CRES 15, 90)]) (fun u => u.fld (R.LDL_POS_STATUS.KSLOTS 15) == 6) = true ∧
    ends (.ladleQuantum 15) (ladle { running := some krun }) (fun u => (u.lpos 15).quantum == 3 && (u.lpos 15).turn == 1) = true ∧
    ends (.ladleQuantum 15) (ladle { turn := 11 } [(R.GLB_POWER_STATUS.LEVEL, 1)]) (fun u => (u.lpos 15).quantum == 4) = true ∧
    ends (.workItemDone 15 { cell := 63 } []) ((ladle { running := some krun }).setPoison (2 ^ 18) true) (fun u =>
      (u.lpos 15).running.any (fun r => r.k.status == sPOISON && r.k.detail == 6 && r.finished)) = true ∧
    ends (.spareReplaceGo .mgmt 15) (ladle {}) (fun u => u.ldl.repl == some (15, 0) && u.posState 15 == 1) = true ∧
    (let s : State := { ladle {} with ldl := { State.reset.ldl with repl := some (15, 0) } }
     ends .spareReplacementDone s (fun u => u.fld (R.LDL_POS_STATUS.PHYS 15) == 16 && u.fld R.LDL_STATUS.SPARE_PHYS == 0x1F &&
       u.ldl.repl == none) = true) ∧
    ends (.cellRetireWrite .mgmt 16 (BitVec.ofNat 64 (2 ^ 63))) (ladle {}) (fun u => u.isRetired 16 63 && u.flag R.LDL_EVENTS.CELL_RETIRED)
      = true := by decide +kernel

/-! ## Collectives -/

/-- An ALL_REDUCE (op 1) of CID 7 over two members on axis 0, in fp32, of 16 elements; COMPL 0, no plans. -/
def colDesc (op : Nat := 1) : BitVec 1024 := BitVec.ofNat 1024 (packBits [(0, op), (32, 7), (280, 0x24), (384, 2), (400, 1), (416, 1), (768, 16),
  (832, 1), (840, 0xFF), (848, 0xFF), (856, 0xFF), (864, 0xFF)])
def col0 : ColEntry := { part := 0, cid := 7, rank := 0, members := [5, 9], descs := [colDesc], positions := [0] }
/-- Entry 3 of FEID 5 at tick 1000. -/
def coll (e : ColEntry) (l : List (Field × Nat) := []) (x : ColState := {}) : State :=
  let s := withFields ([(R.GLB_TICK.TICK, 1000), (R.COL_CTL.JOIN_TICKS, 100), (R.COL_CTL.STALL_TICKS, 100), (R.COL_CTL.QUAR_TICKS, 100),
    (R.LDL_STATUS.POS_ACTIVE, 1)] ++ l) (mapped)
  { s with col := { x with entries := [(3, e)] } }
def ctl (type : Nat) (value : Nat := 0) (step : Nat := 0) (cid : Nat := 7) : Packet :=
  { dst := 5, src := 9, opcode := opcodeOf false opCOLLCTL 0, vc := 7,
    payload := BitVec.ofNat 640 (packBits [(0, type), (8, step), (16, 1), (32, cid), (64, value)]) }

theorem test_witness_CollectiveMessages :
    (let s := coll { col0 with res := 0, reqAt := 936 }
     s.colOf 0 7 = some (3, { col0 with res := 0, reqAt := 936 }) ∧ col0.abort = none ∧ s.grantable 0 7 col0.slots = true ∧
       936 + 64 ≤ s.tick ∧ s.tick < 937 + 64 ∧
       (coll { col0 with slots := 200 }).grantable 0 7 200 = false) ∧
    (let r : ColRsv := { part := 0, cid := 8, slots := 1, reqAt := 900 }
     let s := coll { col0 with res := 1 } [(R.LDL_POS_STATUS.CRES 0, 90)] { rsvs := [r] }
     s.colOf 0 8 = none ∧ s.rsvOf 0 8 = some r ∧ r.res = 0 ∧ s.grantable 0 8 r.slots = true ∧ r.reqAt + 64 ≤ s.tick ∧
       r.reqAt + s.fld R.COL_CTL.JOIN_TICKS ≤ s.tick) := by decide +kernel

theorem test_witness_ColMessages :
    (let s := coll { col0 with res := 1, running := true, issuedAt := 900, waitAt := 900 }
     let e : ColEntry := { col0 with res := 1, running := true, issuedAt := 900, waitAt := 900 }
     (ctl 1).op = opCOLLCTL ∧ (ctl 1).tag = (s.takeLocal (ctl 1)).tagOf (partOf (ctl 1).tag) ∧
       (s.takeLocal (ctl 1)).colOf (partOf (ctl 1).tag) (BitVec.ofNat 32 (ccCid (ctl 1))) = some (3, e) ∧ e.abort = none ∧
       ccType (ctl 1) = 1 ∧ ccType (ctl 2) = 2 ∧ ccType (ctl 4) = 4 ∧ e.joined.contains (ctl 1).src.toNat = false ∧
       e.members.findIdx? (· == (ctl 4).src.toNat) = some 1 ∧ e.missing = true ∧ e.issuedAt + s.fld R.COL_CTL.JOIN_TICKS ≤ s.tick ∧
       e.running = true ∧ e.owed = [9] ∧
       max e.waitAt ((FMap.find e.rx 9).getD 0) + s.fld R.COL_CTL.STALL_TICKS ≤ s.tick ∧
       s.tick < max e.waitAt ((FMap.find (e.heardFrom 9 901).rx 9).getD 0) + s.fld R.COL_CTL.STALL_TICKS ∧
       s.intact (ctl 1) = true ∧ s.intact (ctl 1 0 0 8) = true ∧ s.intact (ctl 2) = true ∧ s.intact (ctl 3 808) = true ∧
       (let q : QPkt := { pkt := ctl 1, point := .loc 0, link := 32, tick := 0, hash := 0, trailer := some ((ctl 1).trailer + 1) }
        ({ s with swc := { s.swc with localq := [q] } } : State).intact (ctl 1) = false) ∧
       e.heard = none ∧ 808 + 192 ≤ s.tick ∧
       (s.takeLocal (ctl 1 0 0 8)).colOf (partOf (ctl 1).tag) (BitVec.ofNat 32 (ccCid (ctl 1 0 0 8))) = none ∧
       ((s.takeLocal (ctl 1 0 0 8)).abortRecord (partOf (ctl 1).tag) 8) = none ∧
       ccType (ctl 3 808) = 3 ∧ s.tick ≤ ccValue (ctl 3 808) + 192 ∧
       ((s.takeLocal (ctl 3 808)).raise R.COL_EVENTS.ABORT_RX).colOf (partOf (ctl 3).tag) (BitVec.ofNat 32 (ccCid (ctl 3 808))) = some (3, e)) := by decide +kernel

theorem test_witness_ColAborts :
    (let a : ColAbort := { part := 0, cid := 8, epoch := 800, at_ := 900 }
     let s := coll { col0 with abort := some (808, 0x12) } [] { aborts := [a] }
     let u := coll { col0 with abort := some (808, 0x12), reqAt := 936 }
     let v : ColEntry := { col0 with abort := some (807, 0x11), heard := some 807 }
     let w : ColEntry := { col0 with abort := some (807, 0x12) }
     u.colOf 0 7 = some (3, { col0 with abort := some (808, 0x12), reqAt := 936 }) ∧ 936 + 64 ≤ u.tick ∧
       (((coll v).takeLocal (ctl 3 808)).raise R.COL_EVENTS.ABORT_RX).colOf (partOf (ctl 3).tag) (BitVec.ofNat 32 (ccCid (ctl 3 808))) = some (3, v) ∧
       807 ≤ ccValue (ctl 3 808) ∧ w.heard = none ∧
       (((coll w).takeLocal (ctl 3 808)).raise R.COL_EVENTS.ABORT_RX).colOf (partOf (ctl 3).tag) (BitVec.ofNat 32 (ccCid (ctl 3 808))) = some (3, w) ∧
     s.colOf 0 7 = some (3, { col0 with abort := some (808, 0x12) }) ∧ 808 + 192 ≤ s.tick ∧ s.abortRecord 0 8 = some a ∧
       a.at_ + s.fld R.COL_CTL.QUAR_TICKS ≤ s.tick ∧ ((s.takeLocal (ctl 1 0 0 8)).abortRecord 0 (ccCid (ctl 1 0 0 8))) = some a) := by
  decide +kernel

/-- R206, R212, R219, R221: a grant, a refusal of one, a withdrawal; JOIN and an early one; an ABORT of an earlier epoch. -/
theorem test_collectiveMessages :
    (let s := coll { col0 with res := 0, reqAt := 936, slots := 2 } [(R.LDL_POS_STATUS.CRES 0, 90)]
     ends (.reservationGrant 0 7) s (fun u => u.col.entries.map (fun e => (e.2.res, e.2.held, e.2.positions)) == [(1, [0], [0])]) = true ∧
     ends (.reservationWithdraw 0 7) s (fun u => u.col.entries.map (fun e => (e.2.res, e.2.flags)) == [(2, 1)] &&
       u.flag R.COL_EVENTS.SPILL) = true ∧
     ends (.reservationWithdraw 0 7) (s.setFld R.GLB_TICK.TICK 999) (fun u => u.col.entries.map (fun e => e.2.res) == [0]) = true) ∧
    (let s := coll { col0 with res := 1, phase := 9 }
     ends (.joinMessage (ctl 1)) s (fun u => u.col.entries.map (fun e => e.2.joined) == [[9]]) = true ∧
     ends (.joinMessage (ctl 1 0 0 8)) s (fun u => u.col.early == [ctl 1 0 0 8] && u.col.entries == s.col.entries) = true ∧
     ends (.readyMessage (ctl 2 77 1)) s (fun u => (u.col.entries.map (fun e => e.2.ready)).length == 1) = true) ∧
    ends (.abortRecordExpire 0 8) (coll col0 [] { aborts := [{ part := 0, cid := 8, epoch := 800, at_ := 900 }] }) (fun u =>
      u.col.aborts == []) = true ∧
    ends (.abortRecordExpire 0 8) (coll col0 [] { aborts := [{ part := 0, cid := 8, epoch := 800, at_ := 901 }] }) (fun u =>
      u.col.aborts.length == 1) = true := by decide +kernel

/-- A COLL packet of segment 0, line 0 of phase 0 from FEID 9; an XCHG packet. -/
def collPkt : Packet := { dst := 5, src := 9, opcode := opcodeOf false opCOLL 0, line := BitVec.ofNat 46 (7 * 2 ^ 40) }
def xchgPkt : Packet := { dst := 5, src := 9, opcode := opcodeOf false opXCHG 0, line := BitVec.ofNat 46 (7 * 2 ^ 40) }

theorem test_witness_CollectiveData :
    (let e : ColEntry := { col0 with res := 1, agreed := some (1000, false), joined := [9] }
     let s := coll e
     s.colOf 0 7 = some (3, e) ∧ e.agreed = some (1000, false) ∧ e.asked = false ∧ e.abort = none ∧ 1000 + s.fld R.COL_CTL.LEAD_PLAN ≤ s.tick ∧
       (e.phaseNow.map (·.kind)) = some 0 ∧ e.running = false ∧ e.res ≠ 0 ∧ e.missing = false ∧ e.byAgreement = false ∧
       ({ col0 with descs := [colDesc 8] } : ColEntry).phaseNow.map (·.kind) = some 3 ∧
       ({ col0 with phase := 2 } : ColEntry).phaseNow = none ∧ col0.missing = true) := by decide +kernel

theorem test_witness_CollPackets :
    (let e : ColEntry := { col0 with rank := 0, res := 1, running := true, joined := [9] }
     let s := coll e
     (collPkt).op = opCOLL ∧ s.colTarget collPkt opCOLL = some (3, e) ∧
       ((upFrom 0 e.phases.length).find? fun i =>
         (e.phases.getD i ⟨0, 0, false, 0⟩).num == getBits collPkt.line.toNat 28 4) = some e.phase ∧
       s.intact collPkt = true ∧ s.posState 0 ≠ 1 ∧ (s.setFld (R.LDL_POS_STATUS.STATE 0) 1).posState 0 = 1 ∧ s.cellsBusy 0 = false ∧
       (s.setLpos 0 { quantum := 4 }).cellsBusy 0 = true ∧ s.isRetired (s.fld (R.LDL_POS_STATUS.PHYS 0)) 0 = false ∧
       ({ e with res := 1, slots := 1 } : ColEntry).slotFor 0 0 = true ∧ ({ e with slots := 0 } : ColEntry).slotFor 0 0 = false ∧
       (let ph := e.phases.getD e.phase ⟨0, 0, false, 0⟩
        ph.kind = 0 ∧ (match (e.segs ph).find? fun y => y.num == getBits collPkt.line.toNat 10 18 with
          | some x => decide (getBits collPkt.line.toNat 0 10 < x.count) &&
              x.start (cdDim e.desc (ph.axis e.desc)) ph.kind != coord e.desc e.rank (ph.axis e.desc) && s.segPosition e x.num == some 0 && x.num == 0
          | none => false) = true) ∧
       (State.reset).colTarget collPkt opCOLL = none ∧ (coll { col0 with res := 0 }).colTarget collPkt opCOLL = some (3, { col0 with res := 0 }) ∧
       State.reset.colTarget xchgPkt opXCHG = none) := by decide +kernel

/-- A packet whose trailer is not its own is not intact. -/
theorem test_witness_notIntact (p : Packet) :
    let q : QPkt := { pkt := p, point := .loc 0, link := 32, tick := 0, hash := 0, trailer := some (p.trailer + 1) }
    let c : SwcState := { localq := [q] }
    ({ State.reset with swc := c } : State).intact p = false := by
  simp [State.intact]

/-- Reduction work and a kernel wait at position 0. -/
theorem test_witness_LadleQuantum :
    (let e : ColEntry := { col0 with rank := 0, res := 1, running := true, joined := [9] }
     let s := coll e
     (let q : QPkt := { pkt := collPkt, point := .loc 0, link := 32, tick := 0, hash := 0 }
        let t : State := { s.setLpos 0 { running := some { k := kern, startTick := 0 }, both := 15, kernelQuanta := 3 } with
          swc := { s.swc with localq := [q] } }
        (t.setCol 3 { e with slots := 1 }).reductionWaits 0 = true ∧
          t.kernelRuns 0 = true ∧ (t.lpos 0).both < 16 ∧ (t.lpos 0).kernelQuanta + 16 ≤ t.fld R.LDL_ARB.KMIN + (t.lpos 0).both ∧
          (t.setFld R.LDL_ARB.KMIN 3).fld R.LDL_ARB.KMIN + (t.lpos 0).both < (t.lpos 0).kernelQuanta + 16 ∧ (t.setCol 3 { e with slots := 1 }).kernelRuns 0 = true)) := by decide +kernel

theorem test_witness_XchgPackets :
    (let e : ColEntry := { col0 with res := 1, descs := [colDesc 8] }
     (coll e).colTarget xchgPkt opXCHG = some (3, e) ∧ e.members.findIdx? (· == xchgPkt.src.toNat) = some 1 ∧ cdExchange e.desc = true ∧ (coll e).intact xchgPkt = true ∧
       (let s1 := (coll e).takeLocal xchgPkt
        (({ g := s1.eng e.tag [] e.op, e := e.heardFrom 9 s1.tick } : ColRun).xLine 1 0 0 false).g.fail = none) ∧
       e.waits = false ∧ (coll { e with waits := true }).col.entries = [(3, { e with waits := true })]) ∧
    (let s := coll col0 [] { ended := [{ col0 with cid := 8 }] }
     let m : MirrorOp := { kind := .engine 1, hline := 0, req := {}, mirror := 9, start := 0, limit := 20 }
     s.engineWaits (col0.op + 1) = false ∧ ({ s with home := { s.home with mirror := [m] } } : State).engineWaits (col0.op + 1) = true ∧
       ({ col0 with done := true } : ColEntry).poison = none ∧ s.tim.credits = false ∧
     (s.col.ended.find? fun e => e.part == (0 : PartNo).val && e.cid == (8 : BitVec 32).toNat) = some { col0 with cid := 8 } ∧
       (s.col.ended.find? fun e => e.part == (0 : PartNo).val && e.cid == (7 : BitVec 32).toNat) = none ∧ col0.status = sOK ∧
       col0.done = false ∧ (s.eng col0.tag [] col0.op col0.ports).flush.fail = none) := by decide +kernel

theorem test_collectiveData :
    ends (.agreedStepStart 0 7 {}) (coll { col0 with res := 1, agreed := some (1001, false) }) (fun u =>
      u.col.entries.map (fun e => e.2.asked) == [false]) = true ∧
    ends (.agreedStepStart 0 7 {}) (coll { col0 with res := 1, phase := 2, agreed := some (1000, false) }) (fun u =>
      u.col.entries.map (fun e => (e.2.asked, e.2.done)) == [(true, true)]) = true ∧
    ends (.collPacket collPkt {} []) State.reset (fun u => u.fld R.COL_COUNTS1.LATE == 1) = true ∧
    ends (.collPacket collPkt {} []) (coll { col0 with res := 0 }) (fun u => u.col.entries.map (fun e => e.2.abort) == [some (1000, 0x19)])
      = true ∧
    ends (.xchgPacket xchgPkt []) State.reset (fun u => u.fld R.COL_COUNTS1.LATE == 1) = true ∧
    ends (.phaseStart 0 7 {}) (coll { col0 with res := 1 }) (fun u => u.col.entries == [(3, { col0 with res := 1 })]) = true ∧
    ends (.collectiveComplete 0 7 []) (coll col0) (fun u => u.col.entries.length == 1) = true ∧
    ends .xchgFamilyChange (coll { col0 with res := 1, descs := [colDesc 9], waits := true }) (fun u => u.fld R.COL_XCHG_MODE.FAMILY == 1 &&
      u.col.entries.map (fun e => e.2.waits) == [false]) = true := by decide +kernel

/-! ## Host ports -/

/-- Port 0 up, with CXL.mem enabled; decoder 0 at 0 and decoder 1 at 2^40, of 256 MiB each; Skidder 0 bound to it. -/
def hostUp (l : List (Field × Nat) := []) : State :=
  let s := withFields ([(R.HST_PORT_CFG.EN 0, 1), (R.HST_PORT_CFG.MM_EN 0, 1), (R.HST_PORT_CFG.FW_EN 0, 1), (R.HST_PORT_CFG.DEF_EN 0, 1),
    (R.HST_PORT_STATUS.LINK 0, 2), (R.HST_FW.SIZE_G 0, 1), (R.SEQ_SKID_CFG.ASSIGNED 0, 1), (R.GLB_CRUISE_STATUS.PHASE, 2),
    (R.GLB_FEID.STEPPING, 3), (R.SEC_PART_STATUS.STATE 0, psOpen)] ++ l) (mapped)
  let s := s.setReg (R.HST_SKID_LO.adr 0) 1
  let d (b : Nat) : Decoder := { base := b, size := 2 ^ 28, iw := 0, ig := 0 }
  let x : HstState := { s.hst with conf := [(0, { mem := true })], decoders := [(0, d 0), (1, d (2 ^ 40))] }
  { s with hst := x }

/-- Line 0x40000 of HBM holds bytes at the Module Memory offset 2^24, to which Sieve entry 0 leads sub-ID 0 line 0. -/
def mmLands (s : State) (op bmc o : Nat) : Bool :=
  match ((s.carried 0).judgeAt ((s.carried 0).mmPacket 0 o op bmc 0 false)).2 with
  | .inr (.hbm ..) => true
  | _ => false

theorem test_witness_HostPorts : let s := hostUp
    s.memUp 0 = true ∧ s.window 0 0 0 = some 0 ∧ s.window 0 0 (2 ^ 28 - 1) = some (2 ^ 28 - 1) ∧ s.window 0 0 (2 ^ 28) = none ∧
    mmLands s opREAD 0 0 = true ∧ mmLands s opWRITE (64 * 64) 0 = true ∧ mmLands s opWRITE (64 * 64) (2 ^ 28 - 64) = false ∧
    (match (s.carried 0).judgeAt ((s.carried 0).mmPacket 0 0 opREAD 0 0 false) with
      | (s1, .inr (.hbm a _)) => !(s1.hbmRead a .clean (some (0, 0))).isPoison a
      | _ => false) = true ∧
    s.window 0 1 (2 ^ 40) = some 0 ∧ s.behindHeld 0 ((s.carried 0).fwFva 0 0) = false ∧
    (match (s.carried 0).translate ((s.carried 0).defTag 0) ((s.carried 0).fwFva 0 0) .load with
      | (s1, .ok x) => (match s1.hostSkid 0 (partOf ((s.carried 0).defTag 0)) x.line with
          | (some k, _) => k == 0
          | _ => false)
      | _ => false) = true ∧
    s.sees .mgmt (R.HST_FENCE.adr 0) true = true ∧ (s.fence (s.portSet 0)).busy = false ∧
    ((s.setFence (s.portSet 0) { busy := true }).fence ((s.setFence (s.portSet 0) { busy := true }).portSet 0)).busy = true ∧
    s.settled = true ∧ State.reset.settled = false ∧ s.configWord (0 : BitVec 12).toNat = some 0x40961F6B ∧
    ((s.setMsix 0 { enabled := true, pending := [(2047, true)] }).msixOf 0).pending = [((2047 : Fin 2048).val, true)] ∧
    s.flag (R.HST_PORT_CFG.EN 0) = true := by decide +kernel

/-- How port 0's first line read through the Fabric Window issues. -/
def fwIssue (s : State) (op : Nat) (bmc : Nat) (a : Acc) : Option Issue :=
  match (s.carried 0).translate ((s.carried 0).defTag 0) ((s.carried 0).fwFva 0 0) a with
  | (s1, .ok x) => (match s1.hostSkid 0 (partOf ((s.carried 0).defTag 0)) x.line with
      | (some k, s2) => some (s2.request (s2.fwReq 0 k op ((s.carried 0).fwFva 0 0) bmc 0 false) x).2
      | _ => none)
  | _ => none

/-- Host port 0 with one line in the Remote Line Cache. -/
def hostLine (pz : Bool) : State :=
  let s := hostUp
  s.setRlc [{ home := 5, sub := 0, line := 0, tag := s.defTag 0, mode := 1, dirty := false, pz := pz, data := 7 }]

theorem test_witness_FabricWindow :
    fwIssue hostUp opREAD 0 .load = some .sent ∧ fwIssue hostUp opWRITE (64 * 64) .store = some .sent ∧
    fwIssue (hostUp [(R.REL_TRAY.STATE, 1)]) opREAD 0 .load = some (.wait .tray) ∧
    fwIssue (hostLine false) opREAD 0 .load = some (.hit sOK 7) ∧ fwIssue (hostLine true) opREAD 0 .load = some (.hit sPOISON 7) ∧
    (let m : MirrorOp := { kind := .store, hline := 0, req := {}, mirror := 9, port := some 0, start := 0, limit := 20 }
     let h : HomeState := { mirror := [m] }
     ({ hostUp with home := h } : State).behindStore 0 (some 0) {} = true) := by decide +kernel

/-- R305, R308: out of the window; R313, R302, R319, R304, R301. -/
theorem test_hostPorts : let s := hostUp
    ends (.mmWindowWrite 0 (BitVec.ofNat 64 (2 ^ 28)) 0 64 5 false) s (fun u => u.out == [.cxlCmp 0] &&
      u.fld (R.HST_COUNTS0.OUT_OF_WINDOW 0) == 1 && u.hbm == s.hbm) = true ∧
    ends (.mmWindowWrite 0 8 8 2 (BitVec.ofNat 512 (0x1234 * 2 ^ 64)) false) s (fun u => u.out == [.cxlCmp 0] &&
      u.byte (64 * 0x40000 + 8) == 0x34 && u.byte (64 * 0x40000 + 9) == 0x12 && u.hbm.length == 2) = true ∧
    ends (.mmWindowRead 0 0 .clean) (s.putBytes (64 * 0x40000) [7]) (fun u => u.out == [.cxlData 0 7 false]) = true ∧
    ends (.hostFence .mgmt 0 77 true) s (fun u => u.fld (R.HST_FENCE_STATUS.TOKEN 0) == 77 && !u.flag (R.HST_FENCE_STATUS.BUSY 0)) = true ∧
    ends (.configRequest 0 (.read 8)) s (fun u => u.out == [.config 0 false 0x12000003]) = true ∧
    ends (.configRequest 0 (.read 8)) State.reset (fun u => u.out == [.config 0 true 0]) = true ∧
    ends (.msixVectorUnmask 0 (some 2047)) (s.setMsix 0 { enabled := true, pending := [(2047, true)] }) (fun u => u.out == [.msix 0 2047])
      = true ∧
    ends (.hdmDecoderCommit 0 1 0 (BitVec.ofNat 64 (2 ^ 30)) 2 6) s (fun u => (u.decoder 0 1).map (·.size) == some (2 ^ 30)) = true ∧
    ends (.hdmDecoderCommit 0 1 0 (BitVec.ofNat 64 (2 ^ 31)) 3 6) s (fun u => u == s) = true ∧
    ends (.hostLinkTrain 0 1 0) s (fun u => u.fld (R.HST_PORT_STATUS.RATE 0) == 1 && u.fld (R.HST_PORT_STATUS.LINK 0) == 2) = true := by
  decide +kernel

theorem test_hostPortReset :
    ends (.hostPortReset 0 .perst) hostUp (fun u => u.flag (R.HST_PORT_STATUS.PERST 0) && u.fld (R.HST_PORT_STATUS.LINK 0) == 0 &&
      u.hst.decoders == [] && !(u.conf 0).mem) = true ∧
    ends (.hostPortReset 0 .flr) hostUp (fun u => u.fld (R.HST_PORT_STATUS.LINK 0) == 2 && u.hst.decoders == []) = true := by decide +kernel

/-- The responder of port 0, with a key exchange done (`n` 1) or a session (`n` 2), and a large response waiting. -/
def spdm0 (n : Nat := 0) (l : List (Field × Nat) := [(R.SEC_STATUS.ID_OK, 1)]) : State :=
  let s := withFields l (hostUp)
  s.setSpdm { s.sec.spdm with session := [(0, n)] }

theorem test_witness_SpdmResponses :
    (spdm0).spdmReady 0 = true ∧ (spdm0).mgtAway = false ∧ State.reset.spdmReady 0 = false ∧
    (spdm0).flag R.SEC_STATUS.ID_OK = true ∧ (spdm0 0 []).flag R.SEC_STATUS.ID_OK = false ∧
    FMap.get (fun _ => 0) (spdm0 1).sec.spdm.session 0 = 1 ∧ FMap.get (fun _ => 0) (spdm0 2).sec.spdm.session 0 = 2 ∧
    (0 : BitVec 16).toNat = FMap.get (fun _ => 0) (spdm0).sec.spdm.taken 0 ∧
    (let s := ((spdm0).setReg (R.HST_PART_MAP.adr 0) (BitVec.ofNat 64 (2 ^ 63))).setFld (R.SEC_PART_CFG.SPDM_PORTS 63) 1
     (63 : BitVec 8).toNat < 64 ∧ s.mapped 0 63 = true ∧ bitOf (s.fld (R.SEC_PART_CFG.SPDM_PORTS 63)) 0 = true) := by decide +kernel

/-- A large response that is longer than a piece, whatever the size of a piece. -/
theorem test_witness_chunkGet : ∃ r : List Byte, ((0 : BitVec 16).toNat + 1) * spdmPiece < r.length :=
  ⟨List.replicate (spdmPiece + 1) 0, by simp⟩

theorem test_spdm :
    ends (.getVersion 0) (spdm0 2) (fun u => u.out == [.spdm 0 (.version 0x14)] && u.sec.spdm.session == []) = true ∧
    ends (.negotiateAlgorithms 0 true true false true) (spdm0) (fun u => u.out == [.spdm 0 (.error .other)]) = true ∧
    ends (.getCertificate 0 1 0 9) (spdm0) (fun u => u.out == [.spdm 0 (.error .invalidRequest)]) = true ∧
    ends (.getMeasurements 0 4 false) (spdm0 0 [(R.SEC_DEBUG_EPOCH.EPOCH, 3)]) (fun u =>
      u.out == [.spdm 0 (.measurements [(4, [3, 0, 0, 0, 0, 0, 0, 0])] none)]) = true ∧
    ends (.finish 0) (spdm0 1) (fun u => u.out == [.spdm 0 .finish] && u.sec.spdm.session == [(0, 2)]) = true ∧
    ends (.heartbeat 0) (spdm0 1) (fun u => u.out == [.spdm 0 (.error .invalidRequest)]) = true ∧
    ends (.vendorDefinedRequest 0 3 0x1F6C 1 0 0) (spdm0) (fun u => u.out == [.spdm 0 (.error .unsupportedRequest)]) = true ∧
    ends (.heartbeat 0) State.reset (fun u => u == State.reset) = true := by decide +kernel

/-! ## Partitions, ranges, keys, quotes and loads -/

/-- Partition 63 in a state, at tick 1000, with range 255 a SEALED one of 64 KiB at unit 300 in a state. -/
def part63 (st rst : Nat) (l : List (Field × Nat) := []) : State :=
  withFields ([(R.GLB_TICK.TICK, 1000), (R.SEC_PART_STATUS.STATE 63, st), (R.SEC_STATUS.ID_OK, 1), (R.SEC_RANGE.STATE 255, rst),
    (R.SEC_RANGE.PART 255, 63), (R.SEC_RANGE.KIND 255, 1), (R.SEC_RANGE.BASE 255, 300), (R.SEC_RANGE.SIZE 255, 1)] ++ l)
def withSec (s : State) (x : SecState) : State := { s with sec := x }

theorem test_witness_Partitions :
    (let s := part63 psDisabled 0
     s.sees .mgmt R.SEC_PART_CMD.adr true = true ∧ s.sees .mgmt R.SEC_RANGE_CMD.adr true = true ∧ s.pstate 63 = psDisabled ∧
       s.sealStatus 63 ≠ sOK) ∧
    (let s := part63 psOpen 1
     s.pstate 63 ≠ psDisabled ∧ s.sealStatus 63 = sCHECK ∧ s.mayReset 63 (s.fullTick 1002) = true ∧
       s.mayReset 63 (s.fullTick 1001) = false ∧
       s.mayAdd 0 1 63 301 1 = true ∧ s.mayAdd 0 1 63 300 1 = false ∧ s.mayAdd 0 0 63 301 1024 = true ∧ s.mayAdd 0 0 63 301 1025 = false ∧
       s.removeStatus 255 = sOK ∧ s.flag (R.SEC_RANGE.KIND 255) = true ∧ s.removeStatus 0 = sCHECK ∧
       (s.setFld (R.SEC_RANGE.KIND 255) 0).removeStatus 255 = sOK ∧ (s.setFld (R.SEC_RANGE.KIND 255) 0).flag (R.SEC_RANGE.KIND 255) = false) ∧
    FMap.find (withSec (part63 psOpen 1) { sealing := [(63, 5)] }).sec.sealing 63 = some 5 ∧
    (let s := withSec (part63 psOpen 1) { resetAt := [(63, 1000)] }
     FMap.find s.sec.resetAt 63 = some 1000 ∧ 1000 ≤ s.tick ∧ s.earliest 63 ≤ s.tick ∧
       (s.setFld R.GLB_TICK.TICK 999).tick < 1000) ∧
    (part63 3 0).resetOver 63 = true ∧ (part63 3 2).resetOver 63 = false ∧
    (let s := (part63 psSealed 2).putBytes (65536 * 301 - 1) [1, 2]
     FMap.find s.sec.oldScrubs 255 = none ∧ Memory.wf s.hbm = true ∧ s.fld (R.SEC_RANGE.STATE 255) = 2) := by decide +kernel

/-- A PART_SEAL that Table 14.2 allows: the partition measures, and its status is OK. -/
theorem test_witness_sealStatus :
    (part63 psOpen 0 [(R.SEC_RANGE.STATE 254, 1), (R.SEC_RANGE.PART 254, 63), (R.SEC_RANGE.BASE 254, 5), (R.SEC_RANGE.SIZE 254, 1)]).sealStatus 63
      = sOK := by decide +kernel

theorem test_partitions :
    ends (.partEnable .mgmt 63) (part63 psDisabled 0) (fun u => u.pstate 63 == psOpen && u.flag (R.PRT_STATUS.ENABLED 63)) = true ∧
    ends (.partEnable .mgmt 63) (part63 psOpen 0) (fun u => u.fld (R.SEC_PART_STATUS.RESULT 63) == sCHECK && u.flag R.SEC_EVENTS.CMD_DENY)
      = true ∧
    ends (.partReset .mgmt 63 1002) (part63 psOpen 0) (fun u => u.sec.resetAt == [(63, 1002)] && u.flag (R.SEC_PART_STATUS.PENDING 63))
      = true ∧
    ends (.partReset .mgmt 63 1001) (part63 psOpen 0) (fun u => u.sec.resetAt == [] && u.fld (R.SEC_PART_STATUS.RESULT 63) == sCHECK)
      = true ∧
    ends (.rangeAdd .mgmt 0 true 63 301 1) (part63 psOpen 1) (fun u => u.fld (R.SEC_RANGE.STATE 0) == 1 &&
      u.fld (R.SEC_RANGE.BASE 0) == 301) = true ∧
    ends (.rangeAdd .mgmt 0 true 63 300 1) (part63 psOpen 1) (fun u => u.fld (R.SEC_RANGE.STATE 0) == 0 && u.flag R.SEC_EVENTS.CMD_DENY)
      = true ∧
    ends (.rangeRemove .mgmt 255) (part63 psOpen 1) (fun u => u.fld (R.SEC_RANGE.STATE 255) == 2) = true ∧
    ends (.scrubDone 255) ((part63 psSealed 2).putBytes (65536 * 301 - 1) [1, 2]) (fun u => u.byte (65536 * 301 - 1) == 0 &&
      u.byte (65536 * 301) == 2 && u.fld (R.SEC_RANGE.STATE 255) == 0) = true ∧
    ends (.partitionResetDone 63) (part63 3 0) (fun u => u.pstate 63 == psOpen && u.flag (R.PRT_STATUS.ENABLED 63)) = true := by
  decide +kernel

def key0 : KeySlot := { key := 5, id := 9 }
/-- A chunk whose record is all zero (no magic number), of a load of one chunk. -/
def load0 : Load := { range := 255, slot := 15, first := 0, count := 1, token := 77, src := 0, next := 1 }
def loading (l : List (Field × Nat) := []) : State :=
  withSec (part63 psSealed 1 l) { keys := [(16 * 63 + 15, key0)], loads := [load0], engines := [(3, { j := 0, key := key0 })] }

theorem test_witness_KeysQuotesLoads :
    (let s := part63 psSealed 1
     s.sees .mgmt R.SEC_KEY_CMD.adr true = true ∧ s.sees .mgmt R.SEC_QUOTE_CMD.adr true = true ∧ s.sees .mgmt R.SEC_LOAD_CMD.adr true = true ∧
       s.sees .mgmt R.SEC_DEBUG_CTL.adr true = true ∧ s.flag R.SEC_KEY_STATUS.BUSY = false ∧ s.flag R.SEC_QUOTE_STATUS.BUSY = false ∧
       s.flag R.SEC_STATUS.ID_OK = true ∧ s.quoteDst (64 * (1 : BitVec 46).toNat) = true ∧ s.quoteDst (64 * (2 ^ 45 : BitVec 46).toNat) = false ∧
       s.flag R.SEC_DEBUG_CTL.SESSION = false ∧ s.sec.loads.length < 16 ∧ s.loadRefusal 255 15 0 1 0 = sNORES ∧
       (part63 psSealed 1 [(R.SEC_KEY_STATUS.BUSY, 1), (R.SEC_DEBUG_CTL.SESSION, 1)]).flag R.SEC_KEY_STATUS.BUSY = true) ∧
    (let u : Unwrap := { part := 63, slot := 15, src := 0, nonce := none, start := 0 }
     let s := withSec (part63 psSealed 1) { unwrap := some u }
     s.sec.unwrap = some u ∧ s.unwrapEnd u = (sCHECK, false, none)) ∧
    (let q : Quote := { part := 63, nonce := 0, dst := some 64, port := 0, start := 0 }
     (withSec (part63 psSealed 1) { quote := some q }).sec.quote = some q ∧ (part63 psSealed 1).quoteDst 64 = true) ∧
    (loading).loadRefusal 255 15 0 1 0 = sOK ∧ FMap.find (loading).sec.engines 3 = some { j := 0, key := key0 } ∧
    (loading).sec.loads = load0 :: [] ∧ (loading).openChunk load0 { j := 0, key := key0 } = .bad sCHECK false ∧ load0.fail = none := by
  decide +kernel

/-- What the functions of the standards answer is free: for each answer, the clause that it falls under. -/
theorem test_witness_crypto (s : State) (l : Load) (c : Chunk) :
    (∃ plain, s.openChunk l c = .good plain) ∨ ∃ st tag, s.openChunk l c = .bad st tag := by
  cases s.openChunk l c with
  | good p => exact .inl ⟨p, rfl⟩
  | bad st tag => exact .inr ⟨st, tag, rfl⟩

theorem test_keysQuotesLoads :
    ends (.keyUnwrap .mgmt 63 15 3) (part63 psSealed 1) (fun u => u.flag R.SEC_KEY_STATUS.BUSY && (u.sec.unwrap.map (·.src)) == some 192)
      = true ∧
    ends (.keyUnwrap .mgmt 63 15 3) (part63 psSealed 1 [(R.SEC_KEY_STATUS.BUSY, 1)]) (fun u => u.sec.unwrap == none &&
      u.flag R.SEC_EVENTS.CMD_DENY) = true ∧
    ends .unwrapDone (withSec (part63 psSealed 1) { unwrap := some { part := 63, slot := 15, src := 0, nonce := none, start := 0 } }) (fun u =>
      u.fld R.SEC_KEY_STATUS.RESULT == sCHECK && u.sec.keys == [] && u.fld R.SEC_COUNTS.UNWRAPS_FAILED == 1) = true ∧
    ends (.quoteGo .mgmt 63 (2 ^ 45)) (part63 psSealed 1) (fun u => u.fld R.SEC_QUOTE_STATUS.RESULT == sCHECK) = true ∧
    ends (.loadGo .mgmt 255 15 0 1 77) (withSec (part63 psSealed 1) { keys := [(16 * 63 + 15, key0)] }) (fun u =>
      u.sec.engines == [(0, { j := 0, key := key0 })] && u.fld R.SEC_LOAD_STATUS.QUEUED == 1) = true ∧
    ends (.chunkDone 3) (loading) (fun u => u.sec.loads == [] && u.fld R.SEC_LOAD_STATUS.RESULT == sCHECK &&
      u.fld R.SEC_LOAD_STATUS.DONE_TOKEN == 77 && u.fld R.SEC_COUNTS.CHUNKS_FAILED == 1) = true ∧
    ends (.debugOpen .mgmt) (part63 psSealed 1) (fun u => u.flag R.SEC_DEBUG_CTL.SESSION) = true ∧
    ends (.debugClose .mgmt) (part63 psSealed 1 [(R.SEC_DEBUG_CTL.SESSION, 1), (R.SEC_DEBUG_CTL.COUNTED, 1)]) (fun u =>
      !u.flag R.SEC_DEBUG_CTL.SESSION && !u.flag R.SEC_DEBUG_CTL.COUNTED) = true := by decide +kernel

/-! ## Reliability, power and management -/

theorem test_witness_Reliability :
    (let s := withFields [(R.REL_SCRUB.PERIOD_H, 1), (R.GLB_POWER_STATUS.LEVEL, 1)]
     s.fld R.REL_SCRUB.PERIOD_H ≠ 0 ∧ s.fld R.GLB_POWER_STATUS.LEVEL < 2 ∧ State.reset.fld R.REL_SCRUB.PERIOD_H = 0 ∧
       s.rel.patrol = 0 ∧ s.rel.patrolAt = 0 ∧ (7 : Nat) ≠ 0 ∧ (s.setFld R.GLB_TICK.TICK 22500003).tick < 4 + 22500000 * 1 ∧
       (Storage.tlb 7).row.1 ≠ 0) ∧
    (let s : State := { withFields [(R.GLB_TICK.TICK, 8192)] with home := { State.reset.home with lostSets := [(1048575, 0)] } }
     FMap.find s.home.lostSets (1048575 : Fin 1048576) = some 0 ∧ 0 + 8192 ≤ s.tick ∧ (s.setFld R.GLB_TICK.TICK 8191).tick < 0 + 8192) ∧
    (State.reset.mgt.restart = none ∧ State.reset.mgt.prog = none ∧ State.reset.sec.quote = none) ∧
    (let s := withFields [(R.REL_TRAY.EN, 1)]
     let d := withFields [(R.REL_TRAY.STATE, 1), (R.REL_TRAY.DRAIN_TICKS, 5)]
     let w : State := { d with slots := [(0, { owner := .thread 0, pkt := {}, fva := 0, first := 0, lastSend := 0, limit := 0, seq := 0 })] }
     s.flag R.REL_TRAY.EN = true ∧ s.fld R.REL_TRAY.STATE = 0 ∧ d.fld R.REL_TRAY.STATE = 1 ∧ d.drained357 = true ∧ w.drained357 = false ∧
       w.tick - w.rel.trayAt < w.fld R.REL_TRAY.DRAIN_TICKS) ∧
    State.reset.sees .mgmt R.REL_LOG_ACC_CMD.adr true = true ∧
    (let s := withFields [(R.LDL_STATUS.SPARE_PHYS, 16)]
     s.posState 15 = 0 ∧ s.fld R.LDL_STATUS.SPARE_PHYS ≠ 0x1F ∧ s.ldl.repl = none ∧
       (s.setFld R.LDL_STATUS.SPARE_PHYS 0x1F).fld R.LDL_STATUS.SPARE_PHYS = 0x1F) := by decide +kernel

theorem test_reliability :
    ends (.patrolScrub .corrected) (withFields [(R.REL_SCRUB.PERIOD_H, 1)]) (fun u => u.rel.patrol == 1024 && u.fld R.REL_COUNTS.HBM_CE == 0)
      = true ∧
    ends (.patrolScrub .uncorrectable) { withFields [(R.REL_SCRUB.PERIOD_H, 1)] with units := [(0, true)] } (fun u =>
      u.rel.patrol == 1 && u.isPoison 0 && u.fld R.REL_COUNTS.HBM_UE == 1) = true ∧
    (let s : State := { withFields [(R.REL_SCRUB.PERIOD_H, 1), (R.GLB_TICK.TICK, 22500003)] with
       units := [(0, true)], rel := { State.reset.rel with patrol := 7, patrolAt := 4 } }
     let z : State := { s with rel := { s.rel with patrol := 0 } }
     ends (.patrolScrub .corrected) s (fun u => u.rel.patrol == 8 && u.rel.patrolAt == 4) = true ∧
     ends (.patrolScrub .corrected) z (fun u => u == z) = true) ∧
    ends (.sramUncorrectable (.tlb 7)) State.reset (fun u => u.flag R.REL_EVENTS.SRAM_UE && u.fld R.REL_COUNTS.SRAM_UE == 1 &&
      u.rel.faultLog.length == 1) = true ∧
    ends .iddaumLockstepRestart State.reset (fun u => u.mgt.restart == some 0) = true ∧
    ends .iddaumRestartDone State.reset (fun u => u == State.reset) = true ∧
    ends .trayPresentDeassert (withFields [(R.REL_TRAY.EN, 1)]) (fun u => u.fld R.REL_TRAY.STATE == 1 && u.flag R.REL_EVENTS.TRAY_DRAIN)
      = true ∧
    (let s : State := { State.reset with rel := { State.reset.rel with poisonLog := [(262143, 7 + 2 ^ 192 * 9)] } }
     ends (.logRead .mgmt true 262143) s (fun u => u.reg (R.REL_LOG_ACC_DATA.adr 0) == 7 && u.reg (R.REL_LOG_ACC_DATA.adr 3) == 9) = true) ∧
    ends (.schedulerBankFault 15) (withFields [(R.LDL_STATUS.SPARE_PHYS, 0x1F)]) (fun u => u.posState 15 == 2) = true := by decide +kernel

theorem test_witness_PowerAndSense :
    (let s := withFields [(R.GLB_POWER_STATUS.EMERG, 1), (R.GLB_CRUISE_STATUS.PHASE, 2)]
     s.flag R.GLB_POWER_STATUS.EMERG = true ∧ s.settled = true ∧ State.reset.flag R.GLB_POWER_STATUS.EMERG = false ∧ State.reset.settled = false ∧
       300 ≤ (300 : BitVec 16).toNat ∧ (2047 : BitVec 16).toNat < 2048 ∧ (299 : BitVec 16).toNat < 300 ∧
       ({ s with mgt := { s.mgt with i3c := some 9 } } : State).mgt.i3c.isSome = true) := by decide +kernel

theorem test_powerAndSense :
    ends .inputUndervoltage State.reset (fun u => u.pwr.uv && u.flag R.GLB_POWER_EVENTS.UV) = true ∧
    ends .emergencyShedEnd (withFields [(R.GLB_POWER_STATUS.EMERG, 1)]) (fun u => u.pwr.demand == 7 && !u.flag R.GLB_POWER_STATUS.EMERG)
      = true ∧
    ends .inputPowerLoss (withFields [(R.GLB_POWER_CAP.CAP, 400)] (State.reset.putBytes 5 [1])) (fun u => u.hbm == [] &&
      u.fld R.GLB_RESET_STATUS.LAST == 3 && u.fld R.GLB_POWER_CAP.CAP == 0) = true ∧
    (let s := withFields [(R.GLB_CRUISE_STATUS.PHASE, 2)]
     let a : State := { s with mgt := { s.mgt with i3c := some 9 } }
     ends (.i3cCapWrite 2047) a (fun u => u.fld R.GLB_POWER_CAP.CAP == 2047) = true ∧
     ends (.i3cCapWrite 299) a (fun u => u == a) = true) := by decide +kernel

theorem test_witness_ResetsAndUpdates :
    State.reset.cru.on = false ∧ State.reset.sees .mgmt R.GLB_RESET_CMD.adr true = true ∧ (0x5753 : BitVec 16) ≠ 0x5752 ∧
    ((skid4 {}).skid 4).run = [] ∧ ((skid4 { run := [runOf fillBytes] }).skid 4).run = [runOf fillBytes] ∧ (runOf fillBytes).finished = false ∧
    State.reset.sees .mgmt R.MGT_SET_CMD.adr true = true ∧ State.reset.mgt.prog = none ∧ State.reset.mgt.swap = none ∧
    State.reset.mgt.restart = none ∧ State.reset.imageTaken 64 = false ∧
    (let x : Prog := { src := 64, bank := 0, start := 0 }
     ({ State.reset with mgt := { State.reset.mgt with prog := some x } } : State).mgt.prog = some x) ∧
    State.reset.sees .mgmt R.MGT_FW_CMD.adr true = true ∧ State.reset.mgtAway = false ∧ (State.reset.bank State.reset.olderBank).isNone = true ∧
    ({ State.reset with mgt := { State.reset.mgt with swap := some 5 } } : State).mgtAway = true := by decide +kernel

theorem test_resetsAndUpdates :
    ends .powerGood (State.reset.putBytes 5 [1]) (fun u => u.cru.on && u.hbm == []) = true ∧
    ends (.resetNAssert 16) (State.reset.putBytes 5 [1]) (fun u => u.cru.resetN && u.hbm == [] && u.fld R.GLB_RESET_STATUS.LAST == 1)
      = true ∧
    ends (.resetNAssert 15) State.reset (fun u => u == State.reset) = true ∧
    ends (.warmReset .mgmt 0x5753) State.reset (fun u => u == State.reset) = true ∧
    ends (.settingsProgram .mgmt 1) State.reset (fun u => u.fld R.MGT_SET_STATUS.RESULT == sCHECK && u.flag R.MGT_SET_STATUS.DONE) = true ∧
    ends (.fwSwap .mgmt) State.reset (fun u => u.fld R.MGT_FW_CMD.RESULT == sCHECK && u.mgt.swap == none) = true ∧
    ends .fwSwapDone { State.reset with mgt := { State.reset.mgt with swap := some 5 } } (fun u => u.mgt.swap == none &&
      u.fld R.MGT_FW_CMD.RESULT == sOK) = true := by decide +kernel

/-- R373: a warm reset keeps memory, the tick and the time state, and clears settings. -/
theorem test_warmReset :
    ends (.warmReset .mgmt 0x5752) (withFields [(R.GLB_TICK.TICK, 77), (R.GLB_POWER_CAP.CAP, 400)] (State.reset.putBytes 5 [1])) (fun u =>
      u.byte 5 == 1 && u.tick == 77 && u.fld R.GLB_POWER_CAP.CAP == 0 && u.fld R.GLB_RESET_STATUS.LAST == 2 &&
        u.fld R.GLB_RESET_STATUS.WARMS == 1 && u.fld R.GLB_CRUISE_STATUS.PHASE == 1) = true := by decide +kernel

/-! ## Cruise -/

/-- Cruise in phase `n`, its work begun or not, at tick 50,000. -/
def cruise (n : Nat) (begun : Bool := false) (l : List (Field × Nat) := []) (c : CruState := {}) : State :=
  let s := withFields ([(R.GLB_TICK.TICK, 50000), (R.GLB_CRUISE_STATUS.PHASE, n), (R.GLB_FEID.FEID, 5)] ++ l)
  { s with cru := { c with on := true, begun := begun } }
def mapMsg (type seq : Nat) : Packet :=
  { dst := 0xFFFF, src := 9, opcode := opcodeOf false opMGMT 0, vc := 7, payload := BitVec.ofNat 640 (packBits [(0, type), (16, 1), (32, seq)]) }

theorem test_witness_Cruise :
    (∀ n ∈ [0, 1, 2, 3, 4, 5, 6, 7, 8], (cruise n).inPhase n = true) ∧ State.reset.inPhase 0 = false ∧
    (cruise 1).showBanks.chooseBank = none ∧ (cruise 2).cru.begun = false ∧ (cruise 2 true).cru.begun = true ∧
    (let s := cruise 2 true [(R.ELK_PORT_CTL.EN 5, 1), (R.ELK_PORT_STATUS.STATE 5, 2)]
     s.enabledPorts = [5] ∧ (∀ m ∈ s.enabledPorts, s.fld (R.ELK_PORT_STATUS.STATE m) = 2) ∧
       (s.setFld (R.ELK_PORT_STATUS.STATE 5) 1).fld (R.ELK_PORT_STATUS.STATE 5) ≠ 2) ∧
    (cruise 3 true).allJudged = true ∧ (cruise 4 true).allIdents = true ∧
    (cruise 5 true [(R.GLB_TIME_STATUS.STATE, tsLOST)]).timeState = tsLOST ∧
    (let s := cruise 6 true [] { changedAt := 37500 }
     s.cru.changedAt + max 2 (s.fld R.GLB_CRUISE_STATUS.DIAMETER) * 6250 ≤ s.tick ∧
       (s.setFld R.GLB_TICK.TICK 49999).tick < s.cru.changedAt + max 2 (s.fld R.GLB_CRUISE_STATUS.DIAMETER) * 6250) ∧
    (let s := cruise 8 true [(R.GLB_CRUISE_CTL.AUTOROUTE, 1)] { stale := true, changedAt := 37500 }
     s.cru.stale = true ∧ s.cru.changedAt + 2 * 6250 ≤ s.tick ∧ s.flag R.GLB_CRUISE_CTL.AUTOROUTE = true) ∧
    (let s := cruise 0 false [(R.GLB_TICK.TICK, 50 * 6250)]
     s.cru.phaseAt + s.phaseLimit ≤ s.tick ∧ ¬ (s.setFld R.GLB_TICK.TICK (50 * 6250 - 1)).cru.phaseAt + 50 * 6250 ≤ 50 * 6250 - 1) ∧
    (cruise 8).cru.begun = false ∧ (cruise 8).intact (mapMsg 1 7) = true ∧ (cruise 8).intact (mapMsg 2 7) = true ∧
    (mapMsg 1 7).op = opMGMT ∧ (mapMsg 1 7).payload.toNat % 256 = 1 ∧ (mapMsg 2 7).payload.toNat % 256 = 2 ∧
    (let f : MapFrag := { mseq := 7, nfrag := 1, master := 0, links := [] }
     let s := cruise 8 true [] { frags := [(36, f)], ready := [(9, 8)] }
     FMap.find (s.takeLocal (mapMsg 1 7)).cru.frags (4 * (mapMsg 1 7).src.toNat + getBits (mapMsg 1 7).payload.toNat 8 8 % 4) = some f ∧
       newer (mapFragOf (mapMsg 1 7).payload.toNat).mseq f.mseq = false ∧ newer (mapFragOf (mapMsg 1 8).payload.toNat).mseq f.mseq = true ∧
       FMap.find (s.takeLocal (mapMsg 2 7)).cru.ready (mapMsg 2 7).src.toNat = some 8 ∧
       newer (getBits (mapMsg 2 7).payload.toNat 32 32) (8 - 1) = false ∧ FMap.find (cruise 8).cru.ready 9 = none) := by decide +kernel

theorem test_cruise :
    ends .cruiseC0Regulators (cruise 0) (fun u => u.fld R.GLB_CRUISE_STATUS.PHASE == 1 && u.cru.phaseAt == 50000) = true ∧
    ends .cruiseC1SettingsLoad (cruise 1) (fun u => u.fld R.GLB_CRUISE_STATUS.PHASE == 1 && u.flag R.MGT_SET_STATUS.NONE && u.cru.begun)
      = true ∧
    ends .cruiseC2Training (cruise 2 true [(R.ELK_PORT_CTL.EN 5, 1), (R.ELK_PORT_STATUS.STATE 5, 2)]) (fun u =>
      u.fld R.GLB_CRUISE_STATUS.PHASE == 3) = true ∧
    ends .cruiseC2Training (cruise 2 true [(R.ELK_PORT_CTL.EN 5, 1), (R.ELK_PORT_STATUS.STATE 5, 1)]) (fun u =>
      u.fld R.GLB_CRUISE_STATUS.PHASE == 2) = true ∧
    ends .mapQuiet (cruise 6 true [] { changedAt := 37500 }) (fun u => u.fld R.GLB_CRUISE_STATUS.PHASE == 7) = true ∧
    ends .mapQuiet (cruise 6 true [] { changedAt := 37501 }) (fun u => u.fld R.GLB_CRUISE_STATUS.PHASE == 6) = true ∧
    ends .cruisePhaseLimit (cruise 0 false [(R.GLB_TICK.TICK, 50 * 6250)]) (fun u => u.fld R.GLB_CRUISE_STATUS.PHASE == 1 &&
      u.flag ⟨R.GLB_CRUISE_STATUS.adr, 4, 1⟩) = true ∧
    ends (.mapMessage (mapMsg 1 7)) (cruise 8 true) (fun u => (FMap.find u.cru.frags 36).isSome) = true ∧
    ends (.mgmtReady (mapMsg 2 7)) (cruise 8 true) (fun u => FMap.find u.cru.ready 9 == some 8) = true := by decide +kernel

/-! ## Telemetry, debug access and JTAG -/

theorem test_witness_Telemetry :
    (let s := withFields [(R.TEL_SNAP_CTL.EN, 1), (R.TEL_SNAP_CTL.LOG2_INT, 12), (R.GLB_TICK.TICK, 4096)]
     s.blockDue = true ∧ (s.setFld R.GLB_TICK.TICK 4097).blockDue = false) ∧
    (let s := withFields [(R.TEL_TRACE_CTL.RUN, 1), (R.TEL_TRACE_CTL.ARM, 1), (R.TEL_TRACE_CTL.START, 9), (R.GLB_TICK.TICK, 65545)]
     s.flag R.TEL_TRACE_CTL.RUN = true ∧ s.flag R.TEL_TRACE_CTL.ARM = true ∧ s.flag R.TEL_TRACE_STATUS.RUNNING = false ∧
       s.tick % 2 ^ 16 = s.fld R.TEL_TRACE_CTL.START ∧ s.sees .mgmt R.TEL_TRACE_SPLIT.adr true = true) ∧
    (let s : State := { State.reset with sec := { State.reset.sec with raising := some 5 } }
     s.sec.raising = some 5 ∧ s.mgtAway = false ∧ s.mgt.swap = none ∧ ({ s with mgt := { s.mgt with restart := some 1 } } : State).mgt.restart.isSome = true ∧ ({ s with mgt := { s.mgt with swap := some 1 } } : State).mgt.swap.isSome = true ∧ s.tel.dbg = none ∧ s.session = false) ∧
    (let s := withFields [(R.TEL_DBG_ADDR.LINE, 4499999999)]
     s.sees .mgmt R.TEL_SNAP_CMD.adr true = true ∧ s.sees .mgmt R.TEL_TRACE_CTL.adr true = true ∧ goodPoint 261 = true ∧ goodPoint 262 = false ∧
       goodPoint 527 = true ∧ s.sees .mgmt R.TEL_DBG_CMD.adr true = true ∧ s.flag R.TEL_DBG_CMD.BUSY = false ∧ s.dbgAddr < 4500000000 ∧
       s.isSealedLine s.dbgAddr = false ∧ s.isSealedCode s.dbgAddr = false ∧ s.visible (64 * s.dbgAddr) 64 = false ∧
       (withFields [(R.TEL_DBG_ADDR.LINE, 5)]).visible (64 * 5) 64 = true ∧
       4500000000 ≤ (withFields [(R.TEL_DBG_ADDR.LINE, 4500000000)]).dbgAddr) ∧
    (let s := part63 psSealed 1 [(R.TEL_DBG_ADDR.LINE, 307200), (R.SEC_DEBUG_CTL.COUNTED, 1)]
     s.isSealedLine s.dbgAddr = true ∧ s.session = false ∧ (s.setFld R.SEC_DEBUG_CTL.SESSION 1).session = true ∧
       s.flag R.SEC_DEBUG_CTL.COUNTED = true ∧ (s.setFld R.TEL_DBG_ADDR.LINE 307199).isSealedLine 307199 = false) ∧
    (let s := ladle { running := some krun, isSealed := true }
     s.sees .mgmt (accOffset 15 63 7 5) false = true ∧ s.isRetired (s.fld (R.LDL_POS_STATUS.PHYS 15)) 63 = false ∧
       (s.lpos 15).running.isSome = true ∧ (s.lpos 15).isSealed = true ∧ s.kernelRuns 15 = true ∧
       ((ladle { running := some krun }).lpos 15).isSealed = false ∧ s.flag R.SEC_DEBUG_CTL.COUNTED = false ∧
       ((ladle {}).lpos 15).running = none ∧ (ladle {} [(⟨R.LDL_CELL_RETIRE.adr 15, 63, 1⟩, 1)]).isRetired 15 63 = true ∧
       s.sees (.bar0 0 none) (accOffset 15 63 7 5) false = false) := by decide +kernel

theorem test_telemetry :
    ends .traceArmedStart (withFields [(R.TEL_TRACE_CTL.RUN, 1), (R.TEL_TRACE_CTL.ARM, 1), (R.TEL_TRACE_CTL.START, 9), (R.GLB_TICK.TICK, 65545)])
      (fun u => u.flag R.TEL_TRACE_STATUS.RUNNING) = true ∧
    (let s : State := { State.reset with sec := { State.reset.sec with raising := some 5 } }
     ends (.debugEpochWriteDone true) s (fun u => u.fld R.SEC_DEBUG_EPOCH.EPOCH == 1 && u.flag R.SEC_EVENTS.DEBUG_READ && u.sec.dbgBoot)
       = true ∧
     ends (.debugEpochWriteDone false) s (fun u => u.fld R.SEC_DEBUG_EPOCH.EPOCH == 0 && u.sec.raising == none) = true) ∧
    ends (.traceSplitWrite .mgmt 64) State.reset (fun u => u.tel.split == some State.reset.histUnits &&
      u.fld R.TEL_TRACE_SPLIT.HIST_UNITS == 64) = true ∧
    ends (.traceRun .mgmt (BitVec.ofNat 64 (1 + 64 * 261))) State.reset (fun u => u.flag R.TEL_TRACE_CTL.RUN &&
      u.fld R.TEL_TRACE_CTL.POINT == 261 && u.flag R.TEL_TRACE_STATUS.RUNNING) = true ∧
    ends (.debugLineRead .mgmt) (withFields [(R.TEL_DBG_ADDR.LINE, 5)] (State.reset.putBytes 320 [7])) (fun u => u.tel.line == 7 &&
      u.fld R.TEL_DBG_CMD.RESULT == sOK) = true ∧
    ends (.debugLineRead .mgmt) (part63 psSealed 1 [(R.TEL_DBG_ADDR.LINE, 307200)]) (fun u => u.fld R.TEL_DBG_CMD.RESULT == sSEALED) = true ∧
    ends (.debugLineWrite .mgmt) (withFields [(R.TEL_DBG_ADDR.LINE, 4500000000)]) (fun u => u.fld R.TEL_DBG_CMD.RESULT == sCHECK) = true ∧
    (let s := withFields [(R.TEL_DBG_ADDR.LINE, 5)]
     ends (.debugLineWrite .mgmt) { s with tel := { s.tel with line := 9 } } (fun u => u.byte 320 == 9 && u.hbm.length == 1) = true) ∧
    ends (.accumulatorRead .mgmt 15 63 7 5) (ladle { running := some krun, isSealed := true }) (fun u => u.flag R.TEL_EVENTS.SEALED_ZERO)
      = true := by decide +kernel

theorem test_witness_JtagInstructions :
    ({ State.reset with cru := { State.reset.cru with resetN := true } } : State).cru.resetN = true ∧ State.reset.cru.resetN = false ∧
    (withFields [(R.SEC_DEBUG_CTL.JTAG, 1), (R.SEC_DEBUG_CTL.COUNTED, 1)]).flag R.SEC_DEBUG_CTL.JTAG = true ∧
    State.reset.flag R.SEC_DEBUG_CTL.JTAG = false ∧ State.reset.flag R.SEC_DEBUG_CTL.SESSION = false := by decide +kernel

/-- R401, R402: EXTEST while RESET_N is asserted and while it is not; IDCODE; the debug session of the TAP. -/
theorem test_jtag :
    ends .extest { State.reset with cru := { State.reset.cru with resetN := true } } (fun u => u.jtag.ir == 0x00 && u.jtag.drive == .scan)
      = true ∧
    ends .extest State.reset (fun u => u.jtag.ir == 0xFF && u.jtag.drive == .none) = true ∧
    ends .idcode (withFields [(R.GLB_FEID.STEPPING, 2)]) (fun u => u.jtag.dr == 0x24096000 + 2 * 0x4D5 + 1) = true ∧
    ends .secDebug (withFields [(R.SEC_DEBUG_CTL.COUNTED, 1)]) (fun u => u.flag R.SEC_DEBUG_CTL.JTAG && !u.flag R.SEC_DEBUG_CTL.COUNTED)
      = true ∧
    ends .jtagTapReset (withFields [(R.SEC_DEBUG_CTL.JTAG, 1), (R.SEC_DEBUG_CTL.COUNTED, 1)]) (fun u => !u.flag R.SEC_DEBUG_CTL.JTAG &&
      !u.flag R.SEC_DEBUG_CTL.COUNTED) = true := by decide +kernel

/-! ## Steps -/

/-- A step runs the front command and leaves the rest waiting; with none waiting it leaves the state as it is. -/
theorem test_step :
    (match step { State.reset with pending := [.i3cEntdaa 9, .powerGood] } with
      | .next t => t.mgt.i3c == some 9 && t.pending == [.powerGood]
      | _ => false) = true ∧
    (match step State.reset with
      | .next t => t == State.reset
      | _ => false) = true := by decide +kernel

/-- A state that meets the invariants' hypotheses, and whose step answers a state. -/
theorem test_witness_StepsKeepCanonicalForm :
    (let s : State := { withFields [(R.GLB_TICK.TICK, 1)] (State.reset.putBytes 5 [1, 0, 2]) with pending := [.powerGood] }
     Memory.wf s.hbm = true ∧ Registers.wf s.regs = true ∧ s.hbm.length = 2 ∧ s.pending ≠ [] ∧ State.reset.pending = []) := by
  decide +kernel

end Sys2Proof.Tests
end

section
/-! ## Register fields as numbers: disjoint fields, and folds that touch one field at a time (R3, Table 0.3) -/

namespace Sys2Proof.Machine

open Sys2Proof

/-- A field keeps its value when a field that shares no bit with it is set. -/
theorem getBits_putBits_apart (n v : Nat) {lo w l m : Nat} (h : l + m ≤ lo ∨ lo + w ≤ l) :
    getBits (putBits n lo w v) l m = getBits n l m :=
  h.elim (getBits_putBits_below n lo w v l m) (getBits_putBits_above n lo w v l m)

/-- Cutting a number to `k` bits keeps the fields that lie below bit `k`. -/
theorem getBits_mod_two_pow (n : Nat) {lo w k : Nat} (h : lo + w ≤ k) : getBits (n % 2 ^ k) lo w = getBits n lo w := by
  refine Nat.eq_of_testBit_eq fun i => ?_
  by_cases hi : i < w
  · have hk : i + lo < k := by omega
    simp [getBits, Nat.testBit_mod_two_pow, Nat.testBit_div_two_pow, hi, hk]
  · simp [getBits, Nat.testBit_mod_two_pow, hi]

/-- The field of a 64-bit word made from a number. -/
theorem getBits_toNat_ofNat (n : Nat) {lo w : Nat} (h : lo + w ≤ 64) :
    getBits (BitVec.ofNat 64 n).toNat lo w = getBits n lo w := by
  rw [BitVec.toNat_ofNat, getBits_mod_two_pow n h]

/-- Adding a value at the place of a field that is 0 sets the field. -/
theorem add_eq_putBits {n lo w v : Nat} (hn : getBits n lo w = 0) (hv : v < 2 ^ w) : n + v * 2 ^ lo = putBits n lo w v := by
  have hdiv : n / 2 ^ lo = 2 ^ w * (n / 2 ^ (lo + w)) := by
    have := Nat.div_add_mod (n / 2 ^ lo) (2 ^ w)
    rw [Nat.div_div_eq_div_mul, ← Nat.pow_add] at this
    unfold getBits at hn
    omega
  have hsplit := Nat.mod_add_div n (2 ^ lo)
  rw [hdiv] at hsplit
  rw [putBits_eq, Nat.mod_eq_of_lt hv]
  linarith

/-- Two fields of one register share no bit. -/
abbrev FieldSpec.Apart (f g : FieldSpec) : Prop := f.lo + f.w ≤ g.lo ∨ g.lo + g.w ≤ f.lo

/-! Folds over the fields of a register: `step` leaves every field apart from the one it works on, as long as that one holds a
value that is `ok`. -/

section
variable {step : Nat → FieldSpec → Nat} {ok : Nat → Prop}
  (hstep : ∀ (n : Nat) (f g : FieldSpec), ok (getBits n f.lo f.w) → f.Apart g → getBits (step n f) g.lo g.w = getBits n g.lo g.w)
include hstep

/-- The fold leaves a field that is apart from all those it works on. -/
theorem getBits_foldl_apart (g : FieldSpec) : ∀ (l : List FieldSpec) (n : Nat), l.Pairwise FieldSpec.Apart →
    (∀ f ∈ l, ok (getBits n f.lo f.w)) → (∀ f ∈ l, f.Apart g) → getBits (l.foldl step n) g.lo g.w = getBits n g.lo g.w
  | [], _, _, _, _ => rfl
  | f :: l, n, hp, hok, hg => by
    obtain ⟨hf, hl⟩ := List.pairwise_cons.mp hp
    have hn := hok f List.mem_cons_self
    have hok' : ∀ e ∈ l, ok (getBits (step n f) e.lo e.w) := fun e he => by
      rw [hstep n f e hn (hf e he)]
      exact hok e (List.mem_cons_of_mem _ he)
    rw [List.foldl_cons, getBits_foldl_apart g l _ hl hok' fun e he => hg e (List.mem_cons_of_mem _ he),
      hstep n f g hn (hg f List.mem_cons_self)]

/-- After the fold each field is as its own step makes it from the value it had. -/
theorem getBits_foldl_mem (f : FieldSpec) : ∀ (l : List FieldSpec) (n : Nat), l.Pairwise FieldSpec.Apart →
    (∀ e ∈ l, ok (getBits n e.lo e.w)) → f ∈ l →
    ∃ m, getBits m f.lo f.w = getBits n f.lo f.w ∧ getBits (l.foldl step n) f.lo f.w = getBits (step m f) f.lo f.w
  | e :: l, n, hp, hok, hm => by
    obtain ⟨he, hl⟩ := List.pairwise_cons.mp hp
    have hn := hok e List.mem_cons_self
    have hok' : ∀ d ∈ l, ok (getBits (step n e) d.lo d.w) := fun d hd => by
      rw [hstep n e d hn (he d hd)]
      exact hok d (List.mem_cons_of_mem _ hd)
    rcases List.mem_cons.mp hm with rfl | hm
    · exact ⟨n, rfl, getBits_foldl_apart hstep f l _ hl hok' fun d hd => (he d hd).symm⟩
    · obtain ⟨m, hsame, hfold⟩ := getBits_foldl_mem f l (step n e) hl hok' hm
      exact ⟨m, hsame.trans (hstep n e f hn (he f hm)), hfold⟩

end

/-! ## The register map -/

theorem regMap_fields_sound : ∀ r ∈ regMap, r.fields.Pairwise FieldSpec.Apart ∧ ∀ f ∈ r.fields, f.lo + f.w ≤ 64 := by
  decide +kernel

/-- The fields at an offset share no bit and lie in the register. -/
theorem fieldsAt_sound (off : Nat) :
    (fieldsAt off).Pairwise FieldSpec.Apart ∧ ∀ f ∈ fieldsAt off, f.lo + f.w ≤ 64 := by
  unfold fieldsAt
  split
  next r h => exact regMap_fields_sound r (List.mem_of_find?_eq_some h)
  next => simp

/-! ## Access codes (Table 0.3) -/

/-- Writing a field leaves the fields apart from it. -/
theorem getBits_write_apart (isLocked : Bool) (v old : Nat) {f g : FieldSpec} (h : f.Apart g) :
    getBits (f.write isLocked v old) g.lo g.w = getBits old g.lo g.w := by
  have hput (x : Nat) : getBits (putBits old f.lo f.w x) g.lo g.w = getBits old g.lo g.w := getBits_putBits_apart old x h.symm
  unfold FieldSpec.write
  cases f.acc <;> dsimp only
  case rw | rwl => split <;> simp [hput]
  case w1c | w1s => exact hput _

/-- An RW field takes what is written unless the value is reserved (R9). -/
theorem getBits_write_rw {f : FieldSpec} (hf : f.acc = .rw) (isLocked : Bool) (v old : Nat) :
    getBits (f.write isLocked v old) f.lo f.w =
      if f.allows (getBits v f.lo f.w) then getBits v f.lo f.w else getBits old f.lo f.w := by
  simp only [FieldSpec.write, hf]
  split
  · rw [getBits_putBits_same, Nat.mod_eq_of_lt (getBits_lt _ _ _)]
  · rfl

/-- A W1C field keeps the bits that are written 0. -/
theorem getBits_write_w1c {f : FieldSpec} (hf : f.acc = .w1c) (isLocked : Bool) (v old : Nat) :
    getBits (f.write isLocked v old) f.lo f.w = getBits old f.lo f.w &&& (2 ^ f.w - 1 - getBits v f.lo f.w) := by
  simp only [FieldSpec.write, hf]
  rw [getBits_putBits_same, Nat.mod_eq_of_lt (lt_of_le_of_lt Nat.and_le_left (getBits_lt _ _ _))]

/-- A field that software may not write keeps its value. -/
theorem write_of_readOnly {f : FieldSpec} (hf : f.acc = .ro) (isLocked : Bool) (v old : Nat) : f.write isLocked v old = old := by
  simp only [FieldSpec.write, hf]

/-! ## Plain writes and register reads -/

/-- After a plain write each field of the register is as its access code makes it. -/
theorem State.fld_plainWrite (s : State) (off : Nat) (v : Word) {f : FieldSpec} (hf : f ∈ fieldsAt off) :
    ∃ old, getBits old f.lo f.w = s.fld ⟨off, f.lo, f.w⟩ ∧
      (s.plainWrite off v).fld ⟨off, f.lo, f.w⟩ = getBits (f.write false v.toNat old) f.lo f.w := by
  obtain ⟨hp, hw⟩ := fieldsAt_sound off
  obtain ⟨old, hold, hfold⟩ := getBits_foldl_mem (step := fun n f => f.write false v.toNat n) (ok := fun _ => True)
    (fun n f g _ h => getBits_write_apart false v.toNat n h) f _ (s.reg off).toNat hp (fun _ _ => trivial) hf
  refine ⟨old, hold, ?_⟩
  rw [State.fld, State.plainWrite, State.reg_setReg_same, getBits_toNat_ofNat _ (hw f hf), hfold]

/-- What the register `r` shows of a field, added to `n`: WO fields show nothing (Table 0.3). -/
def viewField (r n : Nat) (f : FieldSpec) : Nat := if f.acc = Access.wo then n else n + getBits r f.lo f.w * 2 ^ f.lo

theorem State.regView_eq (s : State) {off : Nat} (ha : off ≠ R.GLB_ALERT_CAUSE.adr) (hp : off / 2 ^ 20 ≠ 2) :
    s.regView off = (fieldsAt off).foldl (viewField (s.reg off).toNat) 0 := by
  simp only [State.regView, if_neg ha, if_neg hp]
  rfl

theorem viewField_of_ne_wo (r : Nat) {n : Nat} {f : FieldSpec} (h0 : getBits n f.lo f.w = 0) (h : f.acc ≠ .wo) :
    viewField r n f = putBits n f.lo f.w (getBits r f.lo f.w) := by
  rw [viewField, if_neg h, add_eq_putBits h0 (getBits_lt _ _ _)]

theorem getBits_viewField_apart (r : Nat) {n : Nat} {f g : FieldSpec} (h0 : getBits n f.lo f.w = 0) (h : f.Apart g) :
    getBits (viewField r n f) g.lo g.w = getBits n g.lo g.w := by
  by_cases hw : f.acc = .wo
  · rw [viewField, if_pos hw]
  · rw [viewField_of_ne_wo r h0 hw, getBits_putBits_apart _ _ h.symm]

/-- In an ordinary register a field that is not WO reads as it stands. -/
theorem State.getBits_regView (s : State) {off : Nat} (ha : off ≠ R.GLB_ALERT_CAUSE.adr) (hp : off / 2 ^ 20 ≠ 2)
    {f : FieldSpec} (hf : f ∈ fieldsAt off) (hwo : f.acc ≠ .wo) :
    getBits (s.regView off) f.lo f.w = s.fld ⟨off, f.lo, f.w⟩ := by
  have hzero (f : FieldSpec) : getBits 0 f.lo f.w = 0 := by simp [getBits]
  obtain ⟨m, hm, hfold⟩ := getBits_foldl_mem (ok := (· = 0)) (fun _ _ _ => getBits_viewField_apart (s.reg off).toNat) f _ 0
    (fieldsAt_sound off).1 (fun e _ => hzero e) hf
  rw [s.regView_eq ha hp, hfold, viewField_of_ne_wo _ (hm.trans (hzero f)) hwo, getBits_putBits_same,
    Nat.mod_eq_of_lt (getBits_lt _ _ _), State.fld]

/-- A register without RC fields is not changed by a read. -/
theorem State.clearRc_of_noRc (s : State) {off : Nat} (h : ∀ f ∈ fieldsAt off, f.acc ≠ .rc) (lo hi : Nat) :
    s.clearRc off lo hi = s := by
  unfold State.clearRc
  generalize fieldsAt off = l at h
  induction l with
  | nil => rfl
  | cons f l ih =>
    rw [List.foldl_cons, if_neg fun hc => h f List.mem_cons_self hc.1]
    exact ih fun g hg => h g (List.mem_cons_of_mem _ hg)

/-! ## Shared operations -/

/-- A field of a register that is 0 is 0. -/
theorem State.fld_of_reg_eq_zero {s : State} {f : Field} (h : s.reg f.off = 0) : s.fld f = 0 := by
  simp [State.fld, h, getBits]

/-- A write that the requester may make acts. -/
theorem State.gate_seen {s : State} {via : Via} {off : Nat} (h : s.sees via off true = true) (f : State → State) :
    s.gate via off f = f s := by
  rw [State.gate, if_pos h]

/-- Adding to a field counts modulo its width and changes nothing else. -/
theorem State.onlyRegisters_addFld (s : State) (f : Field) (n : Nat) (h : f.lo + f.w ≤ 64) :
    (s.addFld f n).fld f = (s.fld f + n) % 2 ^ f.w ∧ OnlyRegisters [f] s (s.addFld f n) := by
  refine ⟨s.fld_setFld_same f _ h, rfl, fun g hg => s.fld_setFld_apart f g _ h ?_⟩
  have hapart := hg f (by simp)
  unfold Field.Apart at hapart
  omega

/-! A fold over `lo, …, lo + n - 1` that acts at one place. -/

theorem foldl_upFrom_of_fixed {α : Type} {step : α → Nat → α} {s : α} : ∀ (n lo : Nat),
    (∀ k, lo ≤ k → k < lo + n → step s k = s) → (upFrom lo n).foldl step s = s
  | 0, _, _ => rfl
  | n + 1, lo, h => by
    rw [upFrom, List.foldl_cons, h lo (Nat.le_refl lo) (by omega)]
    exact foldl_upFrom_of_fixed n (lo + 1) fun k hlo hhi => h k (by omega) (by omega)

theorem foldl_upFrom_single {α : Type} {step : α → Nat → α} {s t : α} {l : Nat} (hs : ∀ k, k ≠ l → step s k = s)
    (hl : step s l = t) (ht : ∀ k, k ≠ l → step t k = t) :
    ∀ (n lo : Nat), lo ≤ l → l < lo + n → (upFrom lo n).foldl step s = t
  | 0, lo, hlo, hhi => by omega
  | n + 1, lo, hlo, hhi => by
    rw [upFrom, List.foldl_cons]
    by_cases h : lo = l
    · subst h
      rw [hl]
      exact foldl_upFrom_of_fixed n (lo + 1) fun k hk _ => ht k (by omega)
    · rw [hs lo h]
      exact foldl_upFrom_single hs hl ht n (lo + 1) (by omega) (by omega)

end Sys2Proof.Machine
end

section
/-! ## Control space (R6, R7, R9) -/

namespace Sys2Proof.Machine

open Sys2Proof

/-! Writes of registers that have no branch of their own in their block. -/

theorem State.writeSeq_high (s : State) (via : Via) {off : Nat} (v : Word) (h : 0x18000 < off % 2 ^ 20) :
    s.writeSeq via off v = s.plainWrite off v := by
  unfold State.writeSeq
  iterate 7 rw [if_neg (by omega)]

theorem State.writeXlt_plain (s : State) (via : Via) {off : Nat} (v : Word) (hi : off ≠ R.XLT_TLB_INV.adr)
    (hf : off ≠ R.XLT_FAULT_CMD.adr) : s.writeXlt via off v = s.plainWrite off v := by
  unfold State.writeXlt
  dsimp only
  rw [if_neg hi, if_neg hf]

theorem State.writeSiv_plain (s : State) (via : Via) {off : Nat} (v : Word) (hd : 0x500200 ≤ off)
    (hc : off ≠ R.SIV_ACC_CMD.adr) (hk : off ≠ R.SIV_PROBE_KEY.adr) : s.writeSiv via off v = s.plainWrite off v := by
  have hp : ¬ off - R.SIV_PART.adr 0 < 0x200 := by simp only [R.SIV_PART.adr] at *; omega
  unfold State.writeSiv
  dsimp only
  rw [if_neg hp, if_neg hc, if_neg hk]

theorem State.writeSwc_plain (s : State) {off : Nat} (v : Word) (hl : ¬ (0x600100 ≤ off ∧ off < 0x600200))
    (hg : off ≠ R.SWC_GW_CTL.adr) : s.writeSwc off v = s.plainWrite off v := by
  unfold State.writeSwc
  rw [if_neg hl, if_neg hg]

theorem State.writeOpt_low (s : State) (via : Via) {off : Nat} (v : Word) (hp : off ≠ R.OPT_PLAN_CMD.adr)
    (hm : off ≠ R.OPT_MARGIN_CMD.adr) (hl : off ≠ R.OPT_LANE_CMD.adr) (hd : off % 2 ^ 20 < 0x4000) :
    s.writeOpt via off v = s.plainWrite off v := by
  unfold State.writeOpt
  dsimp only
  rw [if_neg hp, if_neg hm, if_neg hl]
  iterate 3 rw [if_neg (by omega)]

theorem State.writeLdl_plain (s : State) (via : Via) {off : Nat} (v : Word)
    (hr : ¬ (0x200 ≤ off % 2 ^ 20 ∧ off % 2 ^ 20 < 0x288)) (hs : off ≠ R.LDL_SPARE_CTL.adr) :
    s.writeLdl via off v = s.plainWrite off v := by
  unfold State.writeLdl
  simp only [if_neg hr, hs, false_and, if_false]

theorem State.writeCol_plain (s : State) {off : Nat} (v : Word) (hx : off ≠ R.COL_XCHG_MODE.adr)
    (hp : ¬ (0xA00100 ≤ off ∧ off < 0xA00300)) : s.writeCol off v = s.plainWrite off v := by
  unfold State.writeCol
  rw [if_neg fun h => hx h.1, if_neg fun h => hp ⟨h.1, h.2.1⟩]

theorem State.writeElk_status (s : State) (via : Via) {off : Nat} (v : Word) (hlo : 0x30 ≤ off % 2 ^ 20)
    (hhi : off % 2 ^ 20 < 0x100) (hc : off ≠ R.ELK_CNT_SRC.adr) : s.writeElk via off v = s.plainWrite off v := by
  unfold State.writeElk
  dsimp only
  rw [if_neg (by omega), if_neg hc]
  iterate 2 rw [if_neg (by omega)]

theorem State.writeSec_plain (s : State) (via : Via) {off : Nat} (v : Word)
    (hcmd : ∀ o ∈ [R.SEC_DEBUG_CTL.adr, R.SEC_QUOTE_CMD.adr, R.SEC_KEY_CMD.adr, R.SEC_RANGE_CMD.adr, R.SEC_LOAD_CMD.adr,
      R.SEC_PART_CMD.adr], off ≠ o) (hpart : ¬ (R.SEC_PART_CFG.adr 0 ≤ off ∧ off < R.SEC_PART_CFG.adr 64)) :
    s.writeSec via off v = s.plainWrite off v := by
  simp only [List.forall_mem_cons] at hcmd
  obtain ⟨hdebug, hquote, hkey, hrange, hload, hstate, -⟩ := hcmd
  unfold State.writeSec
  rw [if_neg hdebug, if_neg hquote, if_neg hkey, if_neg hrange, if_neg hload, if_neg hstate, if_neg fun h => hpart ⟨h.1, h.2.1⟩]

/-- Offsets at which a write takes no branch of its block (Table 1.8, by the block's number) but the plain write. -/
def defaultBranch (off : Nat) : Nat → Bool
  | 0 => decide (off ≠ R.GLB_RESET_CMD.adr ∧ off ≠ R.GLB_TIME_CTL.adr)
  | 3 => decide (0x18000 < off % 2 ^ 20)
  | 4 => decide (off ≠ R.XLT_TLB_INV.adr ∧ off ≠ R.XLT_FAULT_CMD.adr)
  | 5 => decide (0x500200 ≤ off ∧ off ≠ R.SIV_ACC_CMD.adr ∧ off ≠ R.SIV_PROBE_KEY.adr)
  | 6 => decide (¬ (0x600100 ≤ off ∧ off < 0x600200) ∧ off ≠ R.SWC_GW_CTL.adr)
  | 7 => decide (0x30 ≤ off % 2 ^ 20 ∧ off % 2 ^ 20 < 0x100 ∧ off ≠ R.ELK_CNT_SRC.adr)
  | 8 => decide (off ≠ R.OPT_PLAN_CMD.adr ∧ off ≠ R.OPT_MARGIN_CMD.adr ∧ off ≠ R.OPT_LANE_CMD.adr ∧ off % 2 ^ 20 < 0x4000)
  | 9 => decide (¬ (0x200 ≤ off % 2 ^ 20 ∧ off % 2 ^ 20 < 0x288) ∧ off ≠ R.LDL_SPARE_CTL.adr)
  | 10 => decide (off ≠ R.COL_XCHG_MODE.adr ∧ ¬ (0xA00100 ≤ off ∧ off < 0xA00300))
  | 11 => decide (off ≠ R.HOM_LEDGER_ACC_CMD.adr)
  | 12 => decide (off ≠ R.REL_LOG_ACC_CMD.adr)
  | 13 => decide ((∀ o ∈ [R.SEC_DEBUG_CTL.adr, R.SEC_QUOTE_CMD.adr, R.SEC_KEY_CMD.adr, R.SEC_RANGE_CMD.adr, R.SEC_LOAD_CMD.adr,
      R.SEC_PART_CMD.adr], off ≠ o) ∧ ¬ (R.SEC_PART_CFG.adr 0 ≤ off ∧ off < R.SEC_PART_CFG.adr 64))
  | 14 => decide (off ≠ R.TEL_SNAP_CMD.adr ∧ off ≠ R.TEL_TRACE_SPLIT.adr ∧ off ≠ R.TEL_TRACE_CTL.adr ∧ off ≠ R.TEL_DBG_CMD.adr)
  | _ => false

theorem lt_of_defaultBranch {off b : Nat} (h : defaultBranch off b = true) : b < 15 := by
  by_contra hb
  obtain ⟨k, rfl⟩ := Nat.exists_eq_add_of_le' (Nat.not_lt.mp hb)
  exact absurd h Bool.false_ne_true

/-- A write of a register at such an offset is the plain write. -/
theorem State.writeWord_of_defaultBranch (s : State) (via : Via) {off : Nat} (v : Word) (hlt : off < 0x1000000)
    (hreg : (fieldsAt off).isEmpty = false) (h : defaultBranch off (off / 2 ^ 20) = true) :
    s.writeWord via off v = s.plainWrite off v := by
  rw [State.writeWord, if_neg (Nat.not_le.mpr hlt), if_neg (by simp [hreg])]
  split
  next hb =>
    rw [hb] at h
    obtain ⟨hr, ht⟩ := of_decide_eq_true h
    rw [State.writeGlb, if_neg hr, if_neg ht]
  next hb =>
    rw [hb] at h
    exact absurd h Bool.false_ne_true
  next hb =>
    rw [hb] at h
    exact absurd h Bool.false_ne_true
  next hb =>
    rw [hb] at h
    exact s.writeSeq_high via v (of_decide_eq_true h)
  next hb =>
    rw [hb] at h
    obtain ⟨hi, hf⟩ := of_decide_eq_true h
    exact s.writeXlt_plain via v hi hf
  next hb =>
    rw [hb] at h
    obtain ⟨hd, hc, hk⟩ := of_decide_eq_true h
    exact s.writeSiv_plain via v hd hc hk
  next hb =>
    rw [hb] at h
    obtain ⟨hl, hg⟩ := of_decide_eq_true h
    exact s.writeSwc_plain v hl hg
  next hb =>
    rw [hb] at h
    obtain ⟨hlo, hhi, hc⟩ := of_decide_eq_true h
    exact s.writeElk_status via v hlo hhi hc
  next hb =>
    rw [hb] at h
    obtain ⟨hp, hm, hl, hd⟩ := of_decide_eq_true h
    exact s.writeOpt_low via v hp hm hl hd
  next hb =>
    rw [hb] at h
    obtain ⟨hr, hs⟩ := of_decide_eq_true h
    exact s.writeLdl_plain via v hr hs
  next hb =>
    rw [hb] at h
    obtain ⟨hx, hp⟩ := of_decide_eq_true h
    exact s.writeCol_plain v hx hp
  next hb =>
    rw [hb] at h
    rw [State.writeHom, if_neg (of_decide_eq_true h)]
  next hb =>
    rw [hb] at h
    rw [State.writeRel, if_neg (of_decide_eq_true h)]
  next hb =>
    rw [hb] at h
    obtain ⟨hcmd, hpart⟩ := of_decide_eq_true h
    exact s.writeSec_plain via v hcmd hpart
  next hb =>
    rw [hb] at h
    obtain ⟨hs, ht, hc, hd⟩ := of_decide_eq_true h
    rw [State.writeTel, if_neg hs, if_neg ht, if_neg hc, if_neg hd]
  next =>
    have hb := lt_of_defaultBranch h
    simp only [imp_false] at *
    omega

/-! The plain registers. -/

theorem plainRegs_inBlock : ∀ o ∈ plainRegs, o < 0x1000000 ∧ o % 8 = 0 ∧ o ≠ R.GLB_ALERT_CAUSE.adr ∧ o / 2 ^ 20 ≠ 2 ∧
    (fieldsAt o).isEmpty = false ∧ defaultBranch o (o / 2 ^ 20) = true := by decide +kernel

theorem plainRegs_access : ∀ o ∈ plainRegs, ∀ f ∈ fieldsAt o, f.acc = .rw ∨ f.acc = .w1c ∨ f.acc = .ro := by decide +kernel

theorem plainRegs_ofNat {o : Nat} (ho : o ∈ plainRegs) : (BitVec.ofNat 26 o).toNat = o := by
  obtain ⟨hlt, -⟩ := plainRegs_inBlock o ho
  rw [BitVec.toNat_ofNat, Nat.mod_eq_of_lt (by omega)]

/-- A write of a plain register acts on each of its fields as the field's access code has it. -/
theorem State.plainWritten_writeWord (s : State) (via : Via) (v : Word) {o : Nat} (ho : o ∈ plainRegs) :
    PlainWritten s o v (s.writeWord via o v) := by
  obtain ⟨hlt, -, -, -, hreg, hbranch⟩ := plainRegs_inBlock o ho
  rw [s.writeWord_of_defaultBranch via v hlt hreg hbranch]
  refine ⟨rfl, fun p hp => s.reg_setReg_ne _ hp, fun f hf => ?_⟩
  obtain ⟨old, hold, hnew⟩ := s.fld_plainWrite o v hf
  rw [hnew, ← hold]
  rcases plainRegs_access o ho f hf with hacc | hacc | hacc
  · simp only [getBits_write_rw hacc, hacc]
  · simp only [getBits_write_w1c hacc, hacc]
  · simp only [write_of_readOnly hacc, hacc]

/-! Accesses that the requester may make. -/

theorem execControlSpaceWrite_seen {s : State} {via : Via} {off : BitVec 26} (hs : s.sees via off.toNat true = true)
    (size : Nat) (v : Word) : execControlSpaceWrite via off size v s =
      .next (if size = 8 ∧ off.toNat % 8 = 0 then s.writeWord via off.toNat v else s) := by
  rw [execControlSpaceWrite, State.gate_seen hs]

theorem execClearingRead_seen {s : State} {via : Via} {off : BitVec 26} (hs : s.sees via off.toNat false = true) (size : Nat) :
    execClearingRead via off size s =
      .next ((s.readSpace off.toNat size).2.send (.readData via off.toNat (s.readSpace off.toNat size).1)) := by
  simp only [execClearingRead, hs, not_true_eq_false, if_false]

theorem State.readSpace_word (s : State) {off : Nat} (h : off % 8 = 0) :
    s.readSpace off 8 = (BitVec.ofNat 64 (s.readWord off).1, (s.readWord off).2.clearRc off 0 64) := by
  simp only [State.readSpace, h, and_self, if_true]

theorem State.readSpace_lowHalf (s : State) {off : Nat} (h : off % 8 = 0) :
    s.readSpace off 4 = (BitVec.ofNat 64 (getBits (s.readWord off).1 0 32), (s.readWord off).2.clearRc off 0 32) := by
  have h4 : off % 4 = 0 := by omega
  simp [State.readSpace, h, h4]

theorem State.readSpace_highHalf (s : State) {off : Nat} (h : off % 8 = 4) :
    s.readSpace off 4 =
      (BitVec.ofNat 64 (getBits (s.readWord (off - 4)).1 32 32), (s.readWord (off - 4)).2.clearRc (off - 4) 32 64) := by
  have h4 : off % 4 = 0 := by omega
  simp [State.readSpace, h, h4]

theorem State.readSpace_other (s : State) {off size : Nat} (h8 : size = 8 → off % 8 ≠ 0) (h4 : size = 4 → off % 4 ≠ 0) :
    s.readSpace off size = (0, s) := by
  rw [State.readSpace, if_neg fun h => h8 h.1 h.2, if_neg fun h => h4 h.1 h.2]

/-- A read of a plain register shows its fields and changes nothing. -/
theorem State.readSpace_plain (s : State) {o : Nat} (ho : o ∈ plainRegs) :
    s.readSpace o 8 = (BitVec.ofNat 64 (s.regView o), s) := by
  obtain ⟨hlt, halign, -⟩ := plainRegs_inBlock o ho
  have hrc : ∀ f ∈ fieldsAt o, f.acc ≠ .rc := fun f hf => by
    rcases plainRegs_access o ho f hf with hacc | hacc | hacc <;> simp [hacc]
  have hword : s.readWord o = (s.regView o, s) := by simp only [State.readWord, if_pos hlt]
  rw [s.readSpace_word halign, hword, s.clearRc_of_noRc hrc]

/-- Every field of a plain register reads as it stands. -/
theorem State.getBits_regView_plain (s : State) {o : Nat} (ho : o ∈ plainRegs) {f : FieldSpec} (hf : f ∈ fieldsAt o) :
    getBits (BitVec.ofNat 64 (s.regView o)).toNat f.lo f.w = s.fld ⟨o, f.lo, f.w⟩ := by
  obtain ⟨-, -, ha, hp, -⟩ := plainRegs_inBlock o ho
  have hwo : f.acc ≠ .wo := by
    rcases plainRegs_access o ho f hf with hacc | hacc | hacc <;> simp [hacc]
  rw [getBits_toNat_ofNat _ ((fieldsAt_sound o).2 f hf), s.getBits_regView ha hp hf hwo]

theorem completes_plainWrite {s : State} {via : Via} {o : Nat} (ho : o ∈ plainRegs) (v : Word) (hs : s.sees via o true = true) :
    Completes (.controlSpaceWrite via (BitVec.ofNat 26 o) 8 v) s (PlainWritten s o v) := by
  obtain ⟨-, halign, -⟩ := plainRegs_inBlock o ho
  have hoff := plainRegs_ofNat ho
  refine ⟨s.writeWord via o v, ?_, s.plainWritten_writeWord via v ho⟩
  rw [exec_controlSpaceWrite, execControlSpaceWrite_seen (by rw [hoff]; exact hs), hoff, if_pos ⟨rfl, halign⟩]

theorem completes_plainRead {s : State} {via : Via} {o : Nat} (ho : o ∈ plainRegs) (hs : s.sees via o false = true) :
    Completes (.clearingRead via (BitVec.ofNat 26 o) 8) s fun u => ∃ w : Word,
      u = { s with out := .readData via o w :: s.out } ∧ ∀ f ∈ fieldsAt o, getBits w.toNat f.lo f.w = s.fld ⟨o, f.lo, f.w⟩ := by
  have hoff := plainRegs_ofNat ho
  refine ⟨s.send (.readData via o (BitVec.ofNat 64 (s.regView o))), ?_, _, rfl, fun f hf => s.getBits_regView_plain ho hf⟩
  rw [exec_clearingRead, execClearingRead_seen (by rw [hoff]; exact hs), hoff, s.readSpace_plain ho]

/-- Settles O17: a plain register's write is the fold of its fields' access codes, and its read the sum of its fields, which share
no bit. -/
theorem controlSpace : Obligations.ControlSpace := by
  refine ⟨fun via off size v s hs => ?_, fun o ho via v s hs => completes_plainWrite ho v hs,
    fun o ho via s hs => completes_plainRead ho hs, fun v s hnone => ?_, fun via off s hs => ?_⟩
  · rw [exec_controlSpaceWrite, execControlSpaceWrite_seen hs]
    exact ⟨fun h8 ha => by rw [if_pos ⟨h8, ha⟩], fun h => by rw [if_neg (by omega)]⟩
  · have hsees : s.sees .mgmt R.GLB_REF_CTL.adr true = true := by simp [State.sees, hnone]
    obtain ⟨u, hexec, -, hframe, hfields⟩ := completes_plainWrite (by decide) v hsees
    have hprefer := hfields ⟨0, 1, .rw, 0, false, 0, []⟩ (by decide +kernel)
    have hrevert := hfields ⟨1, 1, .rw, 1, false, 0, []⟩ (by decide +kernel)
    exact ⟨u, hexec, hprefer, hrevert, hframe⟩
  · simp only [exec_clearingRead, execClearingRead_seen hs]
    refine ⟨fun h => by rw [s.readSpace_word h], fun h => by rw [s.readSpace_lowHalf h], fun h => by rw [s.readSpace_highHalf h],
      fun size h8 h4 => by rw [s.readSpace_other h8 h4]⟩

end Sys2Proof.Machine
end

section
/-! ## Electrical lane tests (R297 to R299) -/

namespace Sys2Proof.Machine

open Sys2Proof

/-! Lane records and fields. -/

@[simp] theorem State.fld_setElkLane (s : State) (l : Nat) (x : ElkLane) (g : Field) : (s.setElkLane l x).fld g = s.fld g := rfl
@[simp] theorem State.byte_setElkLane (s : State) (l : Nat) (x : ElkLane) (a : Nat) : (s.setElkLane l x).byte a = s.byte a := rfl
@[simp] theorem State.elkLane_setFld (s : State) (f : Field) (v l : Nat) : (s.setFld f v).elkLane l = s.elkLane l := rfl
@[simp] theorem State.elkLane_setElkLane_same (s : State) (l : Nat) (x : ElkLane) : (s.setElkLane l x).elkLane l = x :=
  FMap.get_set_same ..

/-! ELK_LANE_CTL (R297). -/

/-- The lane's test control is cleared and TEST set: the part of a write of TEST that comes before the lane leaves its port. -/
def State.setLaneTest (s : State) (l : Nat) : State :=
  (((s.setFld (R.ELK_LANE_CTL.GEN_EN l) 0).setFld (R.ELK_LANE_CTL.CHK_EN l) 0).setFld (R.ELK_LANE_STATUS.CHK_LOCK l) 0).setFld
    (R.ELK_LANE_CTL.TEST l) 1

/-- A lane that no port uses goes into test, with generator and checker off. -/
def State.enterLaneTest (s : State) (l : Nat) : State :=
  ((s.setLaneTest l).setElkLane l {}).setFld (R.ELK_LANE_STATUS.STATE l) 5

/-- Setting a lane's test control leaves fields of registers other than the lane's own two. -/
theorem State.fld_setLaneTest (s : State) (l : Nat) (g : Field) (hc : g.off ≠ R.ELK_LANE_CTL.adr l)
    (hst : g.off ≠ R.ELK_LANE_STATUS.adr l) : (s.setLaneTest l).fld g = s.fld g := by
  rw [State.setLaneTest, State.fld_setFld_apart _ (R.ELK_LANE_CTL.TEST l) _ _ (by simp [R.ELK_LANE_CTL.TEST]) (.inl hc),
    State.fld_setFld_apart _ (R.ELK_LANE_STATUS.CHK_LOCK l) _ _ (by simp [R.ELK_LANE_STATUS.CHK_LOCK]) (.inl hst),
    State.fld_setFld_apart _ (R.ELK_LANE_CTL.CHK_EN l) _ _ (by simp [R.ELK_LANE_CTL.CHK_EN]) (.inl hc),
    State.fld_setFld_apart _ (R.ELK_LANE_CTL.GEN_EN l) _ _ (by simp [R.ELK_LANE_CTL.GEN_EN]) (.inl hc)]

theorem State.laneActive_setLaneTest (s : State) (l : ElkLaneNo) : (s.setLaneTest l).laneActive l = s.laneActive l := by
  rw [State.laneActive, State.fld_setLaneTest, State.laneActive] <;>
    simp only [R.ELK_PORT_STATUS.ACTIVE, R.ELK_PORT_STATUS.adr, R.ELK_LANE_CTL.adr, R.ELK_LANE_STATUS.adr] <;> omega

/-- Writing TEST alone to a clear ELK_LANE_CTL of an inactive lane puts it in test. -/
theorem execElkLaneTestWrite_enter {via : Via} {l : ElkLaneNo} {v : Word} {s : State}
    (hs : s.sees via (R.ELK_LANE_CTL.adr l) true = true) (hreg : s.reg (R.ELK_LANE_CTL.adr l) = 0)
    (hactive : s.laneActive l = false) (hv : v.toNat % 32 = 1) : execElkLaneTestWrite via l v s = .next (s.enterLaneTest l) := by
  have hpattern : getBits v.toNat 1 2 = s.fld (R.ELK_LANE_CTL.PATTERN l) := by
    rw [State.fld_of_reg_eq_zero hreg, getBits]; omega
  have hgen : getBits v.toNat 3 1 = 0 := by rw [getBits]; omega
  have hchk : getBits v.toNat 4 1 = 0 := by rw [getBits]; omega
  have hbit4 : bitOf v.toNat 4 = false := by simp only [bitOf, beq_eq_false_iff_ne]; omega
  have hbit0 : bitOf v.toNat 0 = true := by simp only [bitOf, beq_iff_eq]; omega
  have htest : v.toNat % 2 = 1 := by omega
  have hwas : (((s.setFld (R.ELK_LANE_CTL.GEN_EN l) 0).setFld (R.ELK_LANE_CTL.CHK_EN l) 0).setFld
      (R.ELK_LANE_STATUS.CHK_LOCK l) 0).flag (R.ELK_LANE_CTL.TEST l) = false := by
    have h0 : s.fld (R.ELK_LANE_CTL.TEST l) = 0 := State.fld_of_reg_eq_zero hreg
    rw [State.flag, State.fld_setFld_apart, State.fld_setFld_apart, State.fld_setFld_apart, h0] <;>
      simp [R.ELK_LANE_CTL.TEST, R.ELK_LANE_CTL.GEN_EN, R.ELK_LANE_CTL.CHK_EN, R.ELK_LANE_STATUS.CHK_LOCK]
  have hpart : (s.setLaneTest l).laneActive l = false := (s.laneActive_setLaneTest l).trans hactive
  rw [execElkLaneTestWrite, State.gate_seen hs]
  simp only [if_pos hpattern, hgen, hchk, hbit4, hbit0, htest, hwas, Bool.false_eq_true, if_false, not_false_eq_true, and_self,
    if_true]
  unfold State.setLaneTest at hpart
  rw [hpart]
  rfl

theorem State.flag_test_enterLaneTest (s : State) (l : ElkLaneNo) : (s.enterLaneTest l).flag (R.ELK_LANE_CTL.TEST l) = true := by
  have hapart : (R.ELK_LANE_CTL.TEST l).off ≠ (R.ELK_LANE_STATUS.STATE l).off := by
    simp only [R.ELK_LANE_CTL.TEST, R.ELK_LANE_STATUS.STATE, R.ELK_LANE_CTL.adr, R.ELK_LANE_STATUS.adr]; omega
  rw [State.flag, State.enterLaneTest, State.fld_setFld_apart _ _ _ _ (by simp [R.ELK_LANE_STATUS.STATE]) (.inl hapart),
    State.fld_setElkLane, State.setLaneTest, State.fld_setFld_same _ _ _ (by simp [R.ELK_LANE_CTL.TEST])]
  rfl

theorem State.elkState_enterLaneTest (s : State) (l : Nat) : (s.enterLaneTest l).elkState l = 5 :=
  State.fld_setFld_same _ _ _ (by simp [R.ELK_LANE_STATUS.STATE])

theorem State.elkLane_enterLaneTest (s : State) (l : Nat) : (s.enterLaneTest l).elkLane l = {} :=
  State.elkLane_setElkLane_same ..

theorem State.chkLock_enterLaneTest (s : State) (l : ElkLaneNo) : (s.enterLaneTest l).fld (R.ELK_LANE_STATUS.CHK_LOCK l) = 0 := by
  have hapart : (R.ELK_LANE_STATUS.CHK_LOCK l).off ≠ (R.ELK_LANE_CTL.TEST l).off := by
    simp only [R.ELK_LANE_CTL.TEST, R.ELK_LANE_STATUS.CHK_LOCK, R.ELK_LANE_CTL.adr, R.ELK_LANE_STATUS.adr]; omega
  rw [State.enterLaneTest, State.fld_setFld_apart _ _ _ _ (by simp [R.ELK_LANE_STATUS.STATE])
      (.inr (by simp [R.ELK_LANE_STATUS.CHK_LOCK, R.ELK_LANE_STATUS.STATE])), State.fld_setElkLane, State.setLaneTest,
    State.fld_setFld_apart _ _ _ _ (by simp [R.ELK_LANE_CTL.TEST]) (.inl hapart),
    State.fld_setFld_same _ _ _ (by simp [R.ELK_LANE_STATUS.CHK_LOCK]), Nat.zero_mod]

/-! ELK_CNT_SRC (R298). -/

/-- The bit of ELK_CNT_SRC of a lane. -/
abbrev cntSrcBit (l : Nat) : Field := ⟨R.ELK_CNT_SRC.adr, l, 1⟩

/-- A lane's four counters are cleared. -/
def State.clearLaneCounters (s : State) (l : Nat) : State :=
  (upFrom 0 4).foldl (fun s k => s.setFld (R.ELK_LANE_CNT.CNT l k) 0) s

/-- What a write of ELK_CNT_SRC does to the lane `l`. -/
def State.writeCntSrcBit (v : Word) (s : State) (l : Nat) : State :=
  if s.flag (cntSrcBit l) == v.getLsbD l then s
  else if s.flag (R.ELK_LANE_CTL.TEST l) then (s.setFld (cntSrcBit l) (b2n (v.getLsbD l))).clearLaneCounters l
  else s.linkEvent R.ELK_EVENTS.CFG_BUSY

theorem execElkCntSrcWrite_seen {via : Via} {s : State} (hs : s.sees via R.ELK_CNT_SRC.adr true = true) (v : Word) :
    execElkCntSrcWrite via v s = .next ((upFrom 0 48).foldl (State.writeCntSrcBit v) s) := by
  rw [execElkCntSrcWrite, State.gate_seen hs]
  rfl

/-- A bit that is written as it stands changes nothing. -/
theorem State.writeCntSrcBit_same {v : Word} {s : State} {l : Nat} (h : s.flag (cntSrcBit l) = v.getLsbD l) :
    s.writeCntSrcBit v l = s := by
  rw [State.writeCntSrcBit, if_pos (beq_iff_eq.mpr h)]

/-- A bit that changes on a lane in test takes its value and clears the lane's counters. -/
theorem State.writeCntSrcBit_change {v : Word} {s : State} {l : Nat} (h : s.flag (cntSrcBit l) ≠ v.getLsbD l)
    (ht : s.flag (R.ELK_LANE_CTL.TEST l) = true) :
    s.writeCntSrcBit v l = (s.setFld (cntSrcBit l) (b2n (v.getLsbD l))).clearLaneCounters l := by
  rw [State.writeCntSrcBit, if_neg (by simpa using h), if_pos ht]

@[simp] theorem State.byte_clearLaneCounters (s : State) (l a : Nat) : (s.clearLaneCounters l).byte a = s.byte a := rfl

theorem State.fld_setFld_cnt (s : State) (l j k : Nat) : (s.setFld (R.ELK_LANE_CNT.CNT l j) 0).fld (R.ELK_LANE_CNT.CNT l k) =
    if k = j then 0 else s.fld (R.ELK_LANE_CNT.CNT l k) := by
  have hw : (R.ELK_LANE_CNT.CNT l j).lo + (R.ELK_LANE_CNT.CNT l j).w ≤ 64 := by simp [R.ELK_LANE_CNT.CNT]
  split
  next h => rw [h, State.fld_setFld_same _ _ _ hw, Nat.zero_mod]
  next h =>
    refine State.fld_setFld_apart _ _ _ _ hw (.inl ?_)
    simp only [R.ELK_LANE_CNT.CNT, R.ELK_LANE_CNT.adr]
    omega

theorem State.fld_clearLaneCounters_cnt (s : State) (l : Nat) {k : Nat} (h : k < 4) :
    (s.clearLaneCounters l).fld (R.ELK_LANE_CNT.CNT l k) = 0 := by
  simp only [State.clearLaneCounters, upFrom, List.foldl, State.fld_setFld_cnt]
  interval_cases k <;> rfl

theorem State.fld_clearLaneCounters_cntSrc (s : State) (l k : Nat) :
    (s.clearLaneCounters l).fld (cntSrcBit k) = s.fld (cntSrcBit k) := by
  have hoff (j : Nat) : (cntSrcBit k).off ≠ (R.ELK_LANE_CNT.CNT l j).off := by
    simp only [R.ELK_CNT_SRC.adr, R.ELK_LANE_CNT.CNT, R.ELK_LANE_CNT.adr]; omega
  simp only [State.clearLaneCounters, upFrom, List.foldl]
  iterate 4 rw [State.fld_setFld_apart _ _ _ _ (by simp [R.ELK_LANE_CNT.CNT]) (.inl (hoff _))]

/-- One lane in test is written to ELK_CNT_SRC where all bits are 0: its bit is set and its counters are cleared. -/
theorem execElkCntSrcWrite_one {via : Via} {l : ElkLaneNo} {s : State} (hs : s.sees via R.ELK_CNT_SRC.adr true = true)
    (ht : s.flag (R.ELK_LANE_CTL.TEST l) = true) (hreg : s.reg R.ELK_CNT_SRC.adr = 0) :
    execElkCntSrcWrite via (BitVec.ofNat 64 (2 ^ l.val)) s = .next ((s.setFld (cntSrcBit l) 1).clearLaneCounters l) := by
  have hl : l.val < 64 := by omega
  have hbit (k : Nat) : (BitVec.ofNat 64 (2 ^ l.val)).getLsbD k = decide (k = l.val) := by
    rw [BitVec.getLsbD_ofNat, Nat.testBit_two_pow]
    by_cases h : k = l.val
    · simp [h, hl]
    · simp [h, Ne.symm h]
  have hzero (k : Nat) : s.flag (cntSrcBit k) = false := by
    have h0 : s.fld (cntSrcBit k) = 0 := State.fld_of_reg_eq_zero hreg
    simp [State.flag, h0]
  have hkeeps (k : Nat) (hk : k ≠ l.val) : ((s.setFld (cntSrcBit l) 1).clearLaneCounters l).flag (cntSrcBit k) = false := by
    rw [State.flag, State.fld_clearLaneCounters_cntSrc, State.fld_setFld_apart _ _ _ _ (by simp; omega) (by simp; omega)]
    exact hzero k
  rw [execElkCntSrcWrite_seen hs]
  congr 1
  refine foldl_upFrom_single (l := l.val) (fun k hk => ?_) ?_ (fun k hk => ?_) 48 0 (Nat.zero_le _) (by omega)
  · exact State.writeCntSrcBit_same (by rw [hzero, hbit, decide_eq_false hk])
  · rw [State.writeCntSrcBit_change (by rw [hzero, hbit, decide_eq_true rfl]; exact Bool.false_ne_true) ht, hbit, decide_eq_true rfl]
    rfl
  · exact State.writeCntSrcBit_same (by rw [hkeeps k hk, hbit, decide_eq_false hk])

theorem State.flag_cntSrc_change (s : State) (l : ElkLaneNo) :
    ((s.setFld (cntSrcBit l) 1).clearLaneCounters l).flag (cntSrcBit l) = true := by
  rw [State.flag, State.fld_clearLaneCounters_cntSrc, State.fld_setFld_same _ _ _ (by simp; omega)]
  rfl

/-! The pattern checker (R297, R298). -/

/-- The checker of an electrical lane that is locked, and that its counters count from, counts a relock. -/
theorem execPatternCheckerRelock_counts {l : ElkLaneNo} {key : LaneKey} {s : State} (hkey : key.val = 256 + l.val)
    (hc : s.checking key = true) (hlock : s.flag (chkLock key) = true) (hsrc : s.flag (cntSrcBit l) = true) :
    execPatternCheckerRelock key s = .next (s.addFld (R.ELK_LANE_CNT.CNT l 3) 1) := by
  have hhigh : ¬ key.val < 256 := by omega
  have hlane : key.val - 256 = l.val := by omega
  have hfrom : s.fromChecker key = true := by rw [State.fromChecker, if_neg hhigh, hlane]; exact hsrc
  simp only [execPatternCheckerRelock, hc, hlock, hfrom, not_true_eq_false, or_self, if_false, if_true, State.laneCnt, if_neg hhigh,
    hlane]

/-! ELK_INJECT (R299). -/

theorem execElkInjectGo_start {via : Via} {l : ElkLaneNo} {kind : BitVec 2} {len : BitVec 8} {count interval : BitVec 16} {s : State}
    (hs : s.sees via (R.ELK_INJECT.adr l) true = true) (hnone : FMap.find s.elk.inject (256 + l.val) = none)
    (hgood : goodInject kind.toNat len.toNat count.toNat interval.toNat = true) (hquiet : s.elkState l ≠ 4) :
    execElkInjectGo via l kind len count interval s =
      .next (s.startInject (256 + l.val) kind.toNat len.toNat count.toNat interval.toNat (R.ELK_INJECT.BUSY l)) := by
  rw [execElkInjectGo, State.gate_seen hs]
  simp only [hnone, hgood, hquiet, Option.isSome_none, Bool.false_eq_true, not_true_eq_false, or_self, if_false]

theorem execElkInjectGo_reserved {via : Via} {l : ElkLaneNo} {kind : BitVec 2} {len : BitVec 8} {count interval : BitVec 16}
    {s : State} (hs : s.sees via (R.ELK_INJECT.adr l) true = true)
    (hbad : goodInject kind.toNat len.toNat count.toNat interval.toNat = false) :
    execElkInjectGo via l kind len count interval s = .next (s.linkEvent R.ELK_EVENTS.CFG_BUSY) := by
  rw [execElkInjectGo, State.gate_seen hs]
  simp only [hbad, Bool.false_eq_true, not_false_eq_true, or_true, if_true]

/-- Settles O40: each command of the lane tests is its one branch, and a write of ELK_CNT_SRC acts at the one lane whose bit
changes. -/
theorem laneTests : Obligations.LaneTests := by
  refine ⟨fun via l v s hs hreg hactive hv => ?_, fun via v s hs hsame => ?_, fun via l s hs ht hreg => ?_,
    fun via l kind len count interval s hs => ⟨fun hnone hgood hquiet => ?_, fun hbad => ?_⟩, fun key s hc => ?_,
    fun l key s hkey hc hlock hsrc => ?_⟩
  · exact ⟨s.enterLaneTest l, execElkLaneTestWrite_enter hs hreg hactive hv, s.flag_test_enterLaneTest l, s.elkState_enterLaneTest l,
      s.elkLane_enterLaneTest l, s.chkLock_enterLaneTest l, fun _ => rfl⟩
  · rw [exec_elkCntSrcWrite, execElkCntSrcWrite_seen hs,
      foldl_upFrom_of_fixed 48 0 fun k _ hk => State.writeCntSrcBit_same (hsame k (by omega))]
  · exact ⟨_, execElkCntSrcWrite_one hs ht hreg, s.flag_cntSrc_change l, fun _ hk => State.fld_clearLaneCounters_cnt _ _ hk,
      fun _ => rfl⟩
  · exact execElkInjectGo_start hs hnone hgood hquiet
  · exact execElkInjectGo_reserved hs hbad
  · rw [exec_patternCheckerLock, execPatternCheckerLock, if_pos hc]
  · exact ⟨_, execPatternCheckerRelock_counts hkey hc hlock hsrc,
      s.onlyRegisters_addFld _ _ (by simp [R.ELK_LANE_CNT.CNT])⟩

end Sys2Proof.Machine
end

section
/-! ## Denied accesses (R25, R394) -/

namespace Sys2Proof.Machine

open Sys2Proof

/-! Counter fields. -/

/-- Counting adds to the counter modulo its width and changes no other field. -/
theorem State.count_onlyFields (s : State) (f : Field) (n : Nat) (h : f.lo + f.w ≤ 64) :
    (s.count f n).fld f = (s.fld f + n) % 2 ^ f.w ∧ OnlyFields [f] s (s.count f n) := by
  obtain ⟨hsame, -, honly⟩ := s.onlyRegisters_addFld f n h
  exact ⟨hsame, honly⟩

/-! Accesses that the requester may not make. -/

/-- A write that the requester may not make is counted and does nothing else. -/
theorem State.gate_denied {s : State} {via : Via} {off : Nat} (h : s.sees via off true = false) (f : State → State) :
    s.gate via off f = s.denied via := by
  rw [State.gate, if_neg (by simp [h])]

theorem execControlSpaceWrite_denied {s : State} {via : Via} {off : BitVec 26} (h : s.sees via off.toNat true = false)
    (size : Nat) (v : Word) : execControlSpaceWrite via off size v s = .next (s.denied via) := by
  rw [execControlSpaceWrite, State.gate_denied h]

theorem execClearingRead_denied {s : State} {via : Via} {off : BitVec 26} (h : s.sees via off.toNat false = false) (size : Nat) :
    execClearingRead via off size s = .next ((s.denied via).send (.readData via off.toNat 0)) := by
  simp only [execClearingRead, h, Bool.false_eq_true, not_false_eq_true, if_true]

/-- Settles O16: a denied access is the count of its port's DENIED, a read besides answering 0. It holds of every size and alignment,
and of all that `State.sees` denies, BAR0 before the end of Cruise C1 included (log entries 9 and 69, the model's choice). -/
theorem deniedAccess : Obligations.DeniedAccess := by
  intro h pasid off size v s
  obtain ⟨hcount, honly⟩ := s.count_onlyFields (R.HST_COUNTS0.DENIED h) 1 (by simp [R.HST_COUNTS0.DENIED])
  refine ⟨fun hread => ?_, fun hwrite => ?_⟩
  · exact ⟨_, execClearingRead_denied hread size, rfl, honly, hcount, rfl⟩
  · exact ⟨_, execControlSpaceWrite_denied hwrite size v, honly, hcount, rfl⟩

end Sys2Proof.Machine
end

section
/-! ## Table entries: staged words and commits (R27, R73, R154, R257) -/

namespace Sys2Proof.Machine

open Sys2Proof

/-! Words staged (R27). -/

theorem staged_same (k : Nat) (m : FMap Word) : staged (some (k, m)) k = m := if_pos rfl

theorem stagedAfter_same {α : Type} (k : Nat) (m : α) : stagedAfter (some (k, m)) k = none := if_pos rfl

/-- Words staged for another entry stay staged. -/
theorem stagedAfter_other {α : Type} {j k : Nat} (m : α) (h : j ≠ k) : stagedAfter (some (j, m)) k = some (j, m) := if_neg h

/-- A word of an entry whose words lie from key `b` on, after one of them has been written. -/
theorem FMap.get_set_add {α : Type} [DecidableEq α] (d : Nat → α) (m : FMap α) (b i k : Nat) (v : α) :
    FMap.get d (FMap.set d m (b + i) v) (b + k) = if k = i then v else FMap.get d m (b + k) := by
  split
  next h => rw [h, FMap.get_set_same]
  next h => rw [FMap.get_set_ne d v (by omega)]

/-! Staging. -/

theorem execTableWordStage_route {via : Via} {f : BitVec 16} {s : State} (hs : s.sees via (Wide.route f).off true = true) (v : Word) :
    execTableWordStage via (.route f) v s = .next { s with swc := { s.swc with routeStage := some (f.toNat, v) } } := by
  rw [execTableWordStage, State.gate_seen hs]

theorem execTableWordStage_group {via : Via} {g : BitVec 12} {w : BitVec 7} {s : State}
    (hs : s.sees via (Wide.group g w).off true = true) (hw : w ≠ 127) (v : Word) :
    execTableWordStage via (.group g w) v s =
      .next { s with swc := { s.swc with groupStage := some (g.toNat, (staged s.swc.groupStage g.toNat).put w.toNat v) } } := by
  rw [execTableWordStage, State.gate_seen hs]
  exact congrArg Host.Outcome.next (if_neg hw)

theorem execTableWordStage_plan {via : Via} {p : BitVec 4} {c : BitVec 8} {s : State}
    (hs : s.sees via (Wide.plan p c).off true = true) (v : Word) :
    execTableWordStage via (.plan p c) v s =
      .next { s with opt := { s.opt with stage := some (p.toNat, (staged s.opt.stage p.toNat).put c.toNat v) } } := by
  rw [execTableWordStage, State.gate_seen hs]

/-! Route entries (R154). -/

/-- An entry reads back as it was put; the others keep theirs. -/
theorem State.route_putRoute (s : State) (f : Nat) (v : BitVec 128) (g : Nat) :
    (s.putRoute f v).route g = if g = f then v.toNat else s.route g := by
  have hset : (FMap.get (fun _ => 0) (FMap.set (fun _ => 0) s.swc.routes f v) g).toNat = if g = f then v.toNat else s.route g := by
    split
    next h => rw [h, FMap.get_set_same]
    next h => rw [FMap.get_set_ne _ _ h, State.route]
  unfold State.putRoute
  dsimp only
  split <;> exact hset

theorem State.putRoute_frame (s : State) (f : Nat) (v : BitVec 128) :
    (s.putRoute f v).regs = s.regs ∧ (s.putRoute f v).hbm = s.hbm ∧ (s.putRoute f v).swc.routeStage = s.swc.routeStage := by
  unfold State.putRoute
  dsimp only
  split <;> exact ⟨rfl, rfl, rfl⟩

/-- In `u` the route entry of `f` is `v`, and `st` is staged; other entries, registers and HBM are as in `s`. -/
def RouteCommitted (s : State) (f v : Nat) (st : Option (Nat × Word)) (u : State) : Prop :=
  u.route f = v ∧ u.swc.routeStage = st ∧ (∀ g, g ≠ f → u.route g = s.route g) ∧ u.regs = s.regs ∧ u.hbm = s.hbm

/-- A route entry takes effect with its two words, and what was staged for it is used up. -/
def State.commitRoute (s : State) (f low high : Nat) : State :=
  let t := s.putRoute f (BitVec.ofNat 128 (low + high * 2 ^ 64))
  { t with swc := { t.swc with routeStage := stagedAfter t.swc.routeStage f } }

theorem State.routeCommitted_commitRoute (s : State) (f : Nat) {low : Nat} (hlow : low < 2 ^ 64) (v : Word) :
    RouteCommitted s f (low + v.toNat * 2 ^ 64) (stagedAfter s.swc.routeStage f) (s.commitRoute f low v.toNat) := by
  obtain ⟨hregs, hhbm, hstage⟩ := s.putRoute_frame f (BitVec.ofNat 128 (low + v.toNat * 2 ^ 64))
  have hroute (g : Nat) : (s.commitRoute f low v.toNat).route g = if g = f then low + v.toNat * 2 ^ 64 else s.route g := by
    have hentry : (BitVec.ofNat 128 (low + v.toNat * 2 ^ 64)).toNat = low + v.toNat * 2 ^ 64 := by
      rw [BitVec.toNat_ofNat]
      exact Nat.mod_eq_of_lt (by omega)
    rw [← hentry]
    exact s.route_putRoute f _ g
  refine ⟨(hroute f).trans (if_pos rfl), ?_, fun g hg => (hroute g).trans (if_neg hg), hregs, hhbm⟩
  rw [← hstage]
  rfl

theorem toNat_append_words (v w : Word) : (v ++ w).toNat = w.toNat + v.toNat * 2 ^ 64 := by
  rw [BitVec.toNat_append, ← Nat.shiftLeft_add_eq_or_of_lt w.isLt, Nat.shiftLeft_eq, Nat.add_comm]

/-- The highest word commits the entry with the low word that is staged for it. -/
theorem completes_routeEntryCommit_staged {via : Via} {f : BitVec 16} {w : Word} {s : State} (v : Word)
    (hs : s.sees via (0x1000000 + 16 * f.toNat + 8) true = true) (hst : s.swc.routeStage = some (f.toNat, w)) :
    Completes (.routeEntryCommit via f v) s (RouteCommitted s f.toNat (v ++ w).toNat none) := by
  have hcommit := s.routeCommitted_commitRoute f.toNat w.isLt v
  rw [← toNat_append_words, hst, stagedAfter_same] at hcommit
  refine ⟨s.commitRoute f.toNat w.toNat v.toNat, ?_, hcommit⟩
  rw [exec_routeEntryCommit, execRouteEntryCommit, State.gate_seen hs]
  simp only [hst, if_true, State.commitRoute]

/-- With a word staged for another entry the low word stays, and so does what is staged. -/
theorem completes_routeEntryCommit_other {via : Via} {f : BitVec 16} {w : Word} {k : Nat} {s : State} (v : Word)
    (hs : s.sees via (0x1000000 + 16 * f.toNat + 8) true = true) (hst : s.swc.routeStage = some (k, w)) (hk : k ≠ f.toNat) :
    Completes (.routeEntryCommit via f v) s
      (RouteCommitted s f.toNat (s.route f.toNat % 2 ^ 64 + v.toNat * 2 ^ 64) (some (k, w))) := by
  have hcommit := s.routeCommitted_commitRoute f.toNat (Nat.mod_lt (s.route f.toNat) (Nat.two_pow_pos 64)) v
  rw [hst, stagedAfter_other w hk] at hcommit
  refine ⟨s.commitRoute f.toNat (s.route f.toNat % 2 ^ 64) v.toNat, ?_, hcommit⟩
  rw [exec_routeEntryCommit, execRouteEntryCommit, State.gate_seen hs]
  simp only [hst, if_neg hk, State.commitRoute]

/-! Group entries (R73, R80, R81). -/

/-- A commit puts the staged words and the highest word in effect; holds of its buckets leave the table as it is. -/
theorem execGroupEntryCommit_seen {via : Via} {g : BitVec 12} {s : State} (v : Word)
    (hs : s.sees via (0x2000000 + 0x400 * g.toNat + 8 * 127) true = true) :
    ∃ u, execGroupEntryCommit via g v s = .next u ∧ u.swc.groupStage = stagedAfter s.swc.groupStage g.toNat ∧
      u.swc.groups = (s.putGroup g.toNat ((staged s.swc.groupStage g.toNat).put 127 v)).swc.groups ∧ u.hbm = s.hbm := by
  rw [execGroupEntryCommit, State.gate_seen hs]
  refine ⟨_, rfl, ?_⟩
  dsimp only
  split
  · exact ⟨rfl, rfl, rfl⟩
  split
  · exact ⟨rfl, rfl, rfl⟩
  split <;> exact ⟨rfl, rfl, rfl⟩

/-- A group word by the table that holds it. -/
theorem State.groupWord_of_groups {s u : State} (h : u.swc.groups = s.swc.groups) (g k : Nat) :
    u.groupWord g k = s.groupWord g k := by
  rw [State.groupWord, h, State.groupWord]

/-- Words of an entry are put one after the other. -/
theorem State.groupWord_putGroup_append (s : State) (g i k : Nat) (m : FMap Word) (v : Word) :
    (s.putGroup g (m ++ [(i, v)])).groupWord g k = if k = i then v.toNat else (s.putGroup g m).groupWord g k := by
  simp only [State.groupWord, State.putGroup, List.foldl_append, List.foldl_cons, List.foldl_nil, FMap.get_set_add]
  exact apply_ite ..

/-- With nothing staged a commit writes the highest word alone. -/
theorem completes_groupEntryCommit_alone {via : Via} {g : BitVec 12} {s : State} (v : Word)
    (hs : s.sees via (0x2000000 + 0x400 * g.toNat + 8 * 127) true = true) (hst : s.swc.groupStage = none) :
    Completes (.groupEntryCommit via g v) s fun u => u.swc.groupStage = none
      ∧ u.groupWord g.toNat 127 = v.toNat ∧ (∀ k < 127, u.groupWord g.toNat k = s.groupWord g.toNat k) ∧ u.hbm = s.hbm := by
  obtain ⟨u, hexec, hstage, hgroups, hhbm⟩ := execGroupEntryCommit_seen v hs
  rw [hst] at hstage hgroups
  have hword (k : Nat) : u.groupWord g.toNat k = if k = 127 then v.toNat else s.groupWord g.toNat k := by
    rw [State.groupWord_of_groups hgroups]
    exact s.groupWord_putGroup_append g.toNat 127 k [] v
  refine ⟨u, hexec, hstage, (hword 127).trans (if_pos rfl), fun k hk => ?_, hhbm⟩
  rw [hword, if_neg (by omega)]

/-- With a lower word staged a commit writes both. -/
theorem completes_groupEntryCommit_staged {via : Via} {g : BitVec 12} {s : State} {j : BitVec 7} {w : Word} (v : Word)
    (hs : s.sees via (0x2000000 + 0x400 * g.toNat + 8 * 127) true = true) (hj : j ≠ 127)
    (hst : s.swc.groupStage = some (g.toNat, [(j.toNat, w)])) :
    Completes (.groupEntryCommit via g v) s fun u => u.swc.groupStage = none ∧ u.groupWord g.toNat 127 = v.toNat
      ∧ (∀ k < 127, u.groupWord g.toNat k = if k = j.toNat then w.toNat else s.groupWord g.toNat k) ∧ u.hbm = s.hbm := by
  obtain ⟨u, hexec, hstage, hgroups, hhbm⟩ := execGroupEntryCommit_seen v hs
  have hlt : j.toNat < 127 := by bv_omega
  have hput : FMap.put [(j.toNat, w)] 127 v = [(j.toNat, w)] ++ [(127, v)] := by
    simp only [FMap.put, if_neg (Nat.not_lt.mpr hlt.le), if_neg hlt.ne', List.cons_append, List.nil_append]
  rw [hst, stagedAfter_same] at hstage
  rw [hst, staged_same, hput] at hgroups
  have hword (k : Nat) : u.groupWord g.toNat k =
      if k = 127 then v.toNat else if k = j.toNat then w.toNat else s.groupWord g.toNat k := by
    rw [State.groupWord_of_groups hgroups, State.groupWord_putGroup_append]
    congr 1
    exact s.groupWord_putGroup_append g.toNat j.toNat k [] w
  refine ⟨u, hexec, hstage, (hword 127).trans (if_pos rfl), fun k hk => ?_, hhbm⟩
  rw [hword, if_neg (by omega)]

/-! What an event leaves of the rest (R319, R360, R361). -/

theorem State.msix_frame (s : State) (n v : Nat) : s.msix n v = { s with hst := (s.msix n v).hst, out := (s.msix n v).out } := by
  unfold State.msix
  dsimp only
  split
  · rfl
  split <;> rfl

/-- Signalling the alert vectors changes MSI-X and what is sent. -/
theorem State.alertVectors_frame (s : State) :
    ∃ hst out, s.alertVectors = { s with hst := hst, out := out } := by
  unfold State.alertVectors
  generalize upFrom 0 4 = ports
  induction ports generalizing s with
  | nil => exact ⟨s.hst, s.out, rfl⟩
  | cons n ports ih =>
    rw [List.foldl_cons]
    split
    · obtain ⟨hst, out, h⟩ := ih (s.msix n (s.fld (R.REL_ALERT_VEC.VECTOR n)))
      rw [h, State.msix_frame]
      exact ⟨hst, out, rfl⟩
    · exact ih s

/-- An alarm sets its cause bit, and may signal. -/
theorem State.alarm_frame (s : State) (i : Nat) :
    ∃ hst out, s.alarm i = { s.setFld ⟨R.REL_ALERT_CAUSE.adr, i, 1⟩ 1 with hst := hst, out := out } := by
  unfold State.alarm
  dsimp only
  split
  · exact State.alertVectors_frame _
  · exact ⟨s.hst, s.out, rfl⟩

@[simp] theorem State.opt_event (s : State) (f : Field) (i : Nat) : (s.event f i).opt = s.opt := by
  obtain ⟨hst, out, h⟩ := (s.raise f).alarm_frame i
  rw [State.event, h]
  rfl

/-- An event changes no field outside REL_ALERT_CAUSE but its own. -/
theorem State.fld_event (s : State) (f : Field) {g : Field} {i : Nat} (hi : i < 64) (hg : g.off ≠ R.REL_ALERT_CAUSE.adr) :
    (s.event f i).fld g = (s.raise f).fld g := by
  obtain ⟨hst, out, h⟩ := (s.raise f).alarm_frame i
  rw [State.event, h]
  exact State.fld_setFld_apart _ _ _ _ (by simp only; omega) (.inl hg)

/-! Light plans (R257, R258). -/

theorem State.planReject_lt (s : State) (p : Nat) (word : Nat → Nat) (header : Nat) : s.planReject p word header < 2 ^ 3 := by
  unfold State.planReject
  dsimp only
  split_ifs <;> decide

/-- With nothing staged a commit is judged, and put in effect, with the words as they are. -/
theorem State.commitPlan_nil (s : State) (p : Nat) (header : Word) :
    s.commitPlan p [] header =
      let r := s.planReject p (s.planWord p) header.toNat
      let t := s.setOpt { s.opt with stage := stagedAfter s.opt.stage p }
      if r ≠ 0 then (t.setFld R.OPT_PLAN_STATUS.REJECT r).optEvent R.OPT_EVENTS.PLAN_REJECT
      else t.setOpt { t.opt with plans := FMap.set (fun _ => 0) t.opt.plans (257 * p + 256) header } := rfl

theorem execPlanCommit_unstaged {via : Via} {p : BitVec 4} {s : State} (v : Word)
    (hs : s.sees via (0x3000000 + 0x1000 * p.toNat + 0x800) true = true) (hst : s.opt.stage = none) :
    execPlanCommit via p v s = .next (s.commitPlan p.toNat [] v) := by
  rw [execPlanCommit, State.gate_seen hs, hst]
  rfl

/-- An accepted plan has its header, and the words that it had. -/
theorem completes_planCommit_accepted {via : Via} {p : BitVec 4} {s : State} (v : Word)
    (hs : s.sees via (0x3000000 + 0x1000 * p.toNat + 0x800) true = true) (hst : s.opt.stage = none)
    (hok : s.planReject p.toNat (s.planWord p.toNat) v.toNat = 0) :
    Completes (.planCommit via p v) s fun u => u.planWord p.toNat 256 = v.toNat
      ∧ (∀ c < 256, u.planWord p.toNat c = s.planWord p.toNat c) ∧ u.opt.stage = none ∧ u.regs = s.regs ∧ u.hbm = s.hbm := by
  refine ⟨_, (exec_planCommit ..).trans (execPlanCommit_unstaged v hs hst), ?_⟩
  rw [State.commitPlan_nil]
  simp only [hok, hst, ne_eq, not_true_eq_false, if_false]
  refine ⟨?_, fun c hc => ?_, rfl, rfl, rfl⟩
  · exact congrArg BitVec.toNat (FMap.get_set_same ..)
  · exact congrArg BitVec.toNat (FMap.get_set_ne _ _ (by omega) _)

/-- A refused plan stays as it was, and the cause is shown. -/
theorem completes_planCommit_refused {via : Via} {p : BitVec 4} {s : State} (v : Word)
    (hs : s.sees via (0x3000000 + 0x1000 * p.toNat + 0x800) true = true) (hst : s.opt.stage = none)
    (hbad : s.planReject p.toNat (s.planWord p.toNat) v.toNat ≠ 0) :
    Completes (.planCommit via p v) s fun u => u.opt.plans = s.opt.plans ∧ u.flag R.OPT_EVENTS.PLAN_REJECT = true
      ∧ u.fld R.OPT_PLAN_STATUS.REJECT = s.planReject p.toNat (s.planWord p.toNat) v.toNat := by
  refine ⟨_, (exec_planCommit ..).trans (execPlanCommit_unstaged v hs hst), ?_⟩
  rw [State.commitPlan_nil]
  simp only [if_pos hbad, State.optEvent]
  refine ⟨by rw [State.opt_event]; rfl, ?_, ?_⟩
  · rw [State.flag, State.fld_event _ _ (by decide) (by decide), State.raise, State.fld_setFld_same _ _ _ (by decide)]
    rfl
  · rw [State.fld_event _ _ (by decide) (by decide), State.raise, State.fld_setFld_apart _ _ _ _ (by decide) (by decide),
      State.fld_setFld_same _ _ _ (by decide)]
    exact Nat.mod_eq_of_lt (s.planReject_lt ..)

/-- Settles O19: a staged word waits beside the table, and the highest word puts it in effect where it was staged for the same
entry. -/
theorem tableWrites : Obligations.TableWrites := by
  refine ⟨fun via x v s hs => ?_, fun via f w v s hs hst => completes_routeEntryCommit_staged v hs hst,
    fun via f w v k s hs hst hk => completes_routeEntryCommit_other v hs hst hk,
    fun via g v s hs => ⟨completes_groupEntryCommit_alone v hs, fun j w hj hst => completes_groupEntryCommit_staged v hs hj hst⟩,
    fun via p v s hs hst => ⟨completes_planCommit_accepted v hs hst, completes_planCommit_refused v hs hst⟩⟩
  cases x with
  | route f => exact execTableWordStage_route hs v
  | group g w => exact fun hw => execTableWordStage_group hs hw v
  | plan p c => exact execTableWordStage_plan hs v

end Sys2Proof.Machine
end

section
/-! ## Responses, timeouts and retransmissions at the issuer (R23, R117, R122, R138, R139, R353) -/

namespace Sys2Proof.Machine

open Sys2Proof

/-! Responses (R138, R139). -/

theorem execRsp_of_op {p : Packet} (h : p.op = opRSP) (s : State) :
    execRsp p s = .next (s.response p { status := p.status.toNat } false) := by
  rw [execRsp, if_pos h]

theorem execRspData_of_op {p : Packet} (h : p.op = opRSPDATA) (s : State) :
    execRspData p p.cacheable s =
      .next (s.response p { status := p.answerStatus, data := p.data, pz := p.pz } p.cacheable) := by
  rw [execRspData]
  exact congrArg Host.Outcome.next (if_pos h)

theorem execRspAtom_of_op {p : Packet} (h : p.op = opRSPATOM) (s : State) :
    execRspAtom p s =
      .next (s.response p { status := p.answerStatus, result := some (p.payload.toNat % 2 ^ 64) } false) := by
  rw [execRspAtom, if_pos h]

/-- An intact response that matches no slot is discarded and counted. -/
theorem State.response_unmatched {s : State} {p : Packet} (hi : s.intact p = true) (hx : (s.takeLocal p).slotFor p = none)
    (a : Answer) (cacheable : Bool) : s.response p a cacheable = (s.takeLocal p).count R.SWC_DISCARDS.BAD_ENC := by
  simp only [State.response, hi, hx, Bool.not_true, Bool.false_eq_true, if_false]

/-- An intact response that matches a slot completes its request, unless it may be UNREACHABLE to a retransmission (R117). -/
theorem State.response_matched {s : State} {p : Packet} {x : Slot} (hi : s.intact p = true)
    (hx : (s.takeLocal p).slotFor p = some x) (hform : isAtomicClass x.pkt.op = false ∨ p.form ≠ 1) (a : Answer)
    (cacheable : Bool) : s.response p a cacheable = (s.takeLocal p).complete p.slotKey a cacheable := by
  have hkeep : ¬ (isAtomicClass x.pkt.op = true ∧ p.form = 1 ∧ a.status = sUNREACH) := by
    rintro ⟨hop, hretry, -⟩
    exact hform.elim (fun h => absurd hop (by simp [h])) (absurd hretry)
  simp only [State.response, hi, hx, Bool.not_true, Bool.false_eq_true, if_false, if_neg hkeep]

/-! Timeouts (R23, R122, R353). -/

theorem execRequestTimeout_slot {s : State} {key : Fin 32768} {x : Slot} (hx : s.slot key = some x) (hhold : x.hold = false) :
    execRequestTimeout (.slot key) s =
      .next (if x.first + 2 ^ x.limit ≤ s.tick then s.complete key { status := sTIMEOUT } else s) := by
  simp only [execRequestTimeout, hx, hhold, Bool.false_eq_true, not_false_eq_true, and_true]

theorem execRequestTimeout_mirror {s : State} {i : Nat} {m : MirrorOp} (hm : s.home.mirror[i]? = some m) :
    execRequestTimeout (.mirror i) s = .next (if m.start + 2 ^ m.limit ≤ s.tick then s.mirrorTimeout m else s) := by
  simp only [execRequestTimeout, hm]

theorem execRequestTimeout_invl {s : State} {i : Nat} {k : Track} (hk : s.home.tracker[i]? = some k) :
    execRequestTimeout (.invl i) s = .next (if k.start + 2 ^ k.limit ≤ s.tick then
      ((s.untrack k).raise R.HOM_EVENTS.INVL_FAIL).respond k.req sTIMEOUT 0 else s) := by
  simp only [execRequestTimeout, hk, State.untrack]

/-- A synchronously mirrored store ends with TIMEOUT (R353). -/
theorem State.mirrorTimeout_store (s : State) {m : MirrorOp} (h : m.kind = .store) :
    s.mirrorTimeout m = (s.mirrorGone m).finish m.port m.req sTIMEOUT := by
  simp only [State.mirrorTimeout, h]

/-- An asynchronous copy stays unacknowledged (R128). -/
theorem State.mirrorTimeout_async (s : State) {m : MirrorOp} (h : m.kind = .async) : s.mirrorTimeout m = s := by
  simp only [State.mirrorTimeout, h]

/-! Retransmissions (R117). -/

/-- An atomic-class request that is due for a retransmission, and whose address translates, is sent again. -/
theorem execAtomicRetransmit_due {s s1 : State} {key : Fin 32768} {x : Slot} {y : Xlat} (hx : s.slot key = some x)
    (hop : isAtomicClass x.pkt.op = true) (hres : x.resolve = false) (hmax : x.retries < s.fld R.HOM_ATOM_CTL.RETRY_MAX)
    (hdue : x.lastSend + s.fld R.HOM_ATOM_CTL.RETRY_TICKS ≤ s.tick)
    (hy : s.translate x.pkt.tag x.fva (accOf x.pkt.op) = (s1, .ok y)) :
    execAtomicRetransmit key s = .next (s1.resend key x y) := by
  simp only [execAtomicRetransmit, hx, hop, hres, hmax, hdue, hy, Bool.false_eq_true, not_false_eq_true, and_self, if_true]

/-- Settles O33: each command is the one branch of it that the slot, the tracker or the mirror list selects. RSPDATA's cacheable bit
and the mirror copies' timeout are the model's choice (log entry 67). -/
theorem responses : Obligations.Responses := by
  refine ⟨fun p b s => ?_, fun p s hi hx => ⟨fun hop => ?_, fun hop => ?_, fun hop => ?_⟩,
    fun p s x hi hx hform => ⟨fun hop => ?_, fun hop => ?_, fun hop => ?_⟩,
    fun key s x hx hhold => ⟨fun hdue => ?_, fun hearly => ?_⟩,
    fun i s m hm => ⟨fun hdue hkind => ?_, fun hdue hkind => ?_, fun hearly => ?_⟩,
    fun i s k hk => ⟨fun hdue => ?_, fun hearly => ?_⟩, fun key s s1 x y hx hop hres hmax hdue hy => ?_⟩
  · rfl
  · rw [exec_rsp, execRsp_of_op hop, State.response_unmatched hi hx]
  · rw [exec_rspData, execRspData_of_op hop, State.response_unmatched hi hx]
  · rw [exec_rspAtom, execRspAtom_of_op hop, State.response_unmatched hi hx]
  · rw [exec_rsp, execRsp_of_op hop, State.response_matched hi hx hform]
  · rw [exec_rspData, execRspData_of_op hop, State.response_matched hi hx hform]
  · rw [exec_rspAtom, execRspAtom_of_op hop, State.response_matched hi hx hform]
  · rw [exec_requestTimeout, execRequestTimeout_slot hx hhold, if_pos hdue]
  · rw [exec_requestTimeout, execRequestTimeout_slot hx hhold, if_neg (Nat.not_le.mpr hearly)]
  · rw [exec_requestTimeout, execRequestTimeout_mirror hm, if_pos hdue, s.mirrorTimeout_store hkind]
  · rw [exec_requestTimeout, execRequestTimeout_mirror hm, if_pos hdue, s.mirrorTimeout_async hkind]
  · rw [exec_requestTimeout, execRequestTimeout_mirror hm, if_neg (Nat.not_le.mpr hearly)]
  · rw [exec_requestTimeout, execRequestTimeout_invl hk, if_pos hdue]
  · rw [exec_requestTimeout, execRequestTimeout_invl hk, if_neg (Nat.not_le.mpr hearly)]
  · rw [exec_atomicRetransmit, execAtomicRetransmit_due hx hop hres hmax hdue hy]

end Sys2Proof.Machine
end

section
/-! ## The tick boundary (R35, R45, R385) -/

namespace Sys2Proof.Machine

open Sys2Proof

/-- What a boundary leaves of a powered module, its parts in the order of Table 2.4. -/
def State.afterBoundary (s : State) (m : Measured) : State :=
  (((s.lateCredits.clockTick.measured m).snapshotPoint).powerStep).creditStep

theorem execTickBoundary_powered {s : State} (h : s.cru.on = true) (m : Measured) :
    execTickBoundary m s = .next (s.afterBoundary m) := by
  rw [execTickBoundary, if_neg (not_not_intro h), State.afterBoundary]

/-- With no channel up a boundary sends no CREDIT block and fills no bucket. -/
theorem State.linkTick_of_down {s : State} (h : ∀ c < 262, s.chUp c = false) : s.linkTick = s := by
  refine foldl_upFrom_of_fixed 262 0 fun c _ hc => ?_
  have hdown := h c (by omega)
  have hbeats : s.beats c = false := by
    simp only [State.chUp, Bool.or_eq_false_iff] at hdown
    rw [State.beats, hdown.1, Bool.false_and]
  simp only [hbeats, hdown, Bool.false_eq_true, if_false]

theorem State.fld_settleCredits_of_down {s : State} (h : ∀ c < 262, s.chUp c = false) (g : Field) :
    s.settleCredits.fld g = s.fld g := by
  have hdown : ∀ c < 262, (s.setTim { s.tim with credits := false }).chUp c = false := h
  have hkeep : (s.setTim { s.tim with credits := false }).linkTick.fld g = s.fld g := by
    rw [State.linkTick_of_down hdown]
    rfl
  unfold State.settleCredits
  split
  · exact hkeep
  · rfl

theorem State.fld_creditStep_of_down {s : State} (h : ∀ c < 262, s.chUp c = false) (g : Field) : s.creditStep.fld g = s.fld g :=
  State.fld_settleCredits_of_down (s := s.setTim { s.tim with credits := true }) h g

/-- Powered and past Cruise, with a firmware swap that began at tick 0 and that reaches its limit of 500 ms at the next boundary
(R34, R385). -/
def swapAtLimit : State :=
  let s := [(R.GLB_TICK.TICK, 3124999), (R.GLB_POWER_CAP.CAP, 1000), (R.GLB_CRUISE_STATUS.PHASE, 8),
    (R.GLB_POWER_STATUS.LEVEL, 0), (R.MGT_FW_CMD.BUSY, 1)].foldl (fun (s : State) e => s.setFld e.1 e.2) State.reset
  { s with cru := { s.cru with on := true }, mgt := { s.mgt with swap := some 0 } }

/-- `QuietTick` does not speak of a swap. -/
theorem quietTick_swapAtLimit : QuietTick swapAtLimit := by decide +kernel

/-- The state at the end of the boundary's power step: no channel is up, and the swap has ended. -/
theorem swapAtLimit_powerStep :
    let t := ((swapAtLimit.lateCredits.clockTick.measured {}).snapshotPoint).powerStep
    (∀ c < 262, t.chUp c = false) ∧ t.fld R.MGT_FW_CMD.DONE = 1 := by
  decide +kernel

/-- The boundary sets MGT_FW_CMD.DONE. -/
theorem done_afterBoundary_swapAtLimit : (swapAtLimit.afterBoundary {}).fld R.MGT_FW_CMD.DONE = 1 := by
  obtain ⟨hdown, hdone⟩ := swapAtLimit_powerStep
  rw [State.afterBoundary, State.fld_creditStep_of_down hdown, hdone]

/-- Refutes O20: its second clause says that a quiet boundary changes no field but the tick count, TARGET and the readings, but
`QuietTick` admits a firmware swap (R385) at its limit; the boundary then ends the swap and sets MGT_FW_CMD.DONE. -/
theorem not_tickCounts : ¬ Obligations.TickCounts := by
  rintro ⟨-, hquiet, -⟩
  obtain ⟨u, hexec, -, -, -, -, -, honly, -⟩ := hquiet {} swapAtLimit rfl quietTick_swapAtLimit rfl
  obtain rfl : swapAtLimit.afterBoundary {} = u := Host.Outcome.next.inj ((execTickBoundary_powered rfl {}).symm.trans hexec)
  have hkeeps := honly R.MGT_FW_CMD.DONE fun f hf => .inl ((show ∀ f ∈ _, R.MGT_FW_CMD.DONE.off ≠ f.off by decide) f hf)
  rw [done_afterBoundary_swapAtLimit] at hkeeps
  exact absurd hkeeps (by decide)

end Sys2Proof.Machine
end

section
/-! ## What events leave (R361 to R363, Table 2.10) -/

namespace Sys2Proof.Machine

open Sys2Proof

/-- The registers in which time events are shown: the events themselves, the alert causes and the fault log's index. -/
def timeEventRegs : List Nat := [R.GLB_TIME_EVENTS.adr, R.REL_ALERT_CAUSE.adr, R.REL_LOG_IDX.adr 0]

/-- Time and memory stand in `t` as in `s`, and so does every register but those in which time events are shown. -/
def KeepsTime (s t : State) : Prop :=
  t.tim = s.tim ∧ t.hbm = s.hbm ∧ ∀ g : Field, g.off ∉ timeEventRegs → t.fld g = s.fld g

theorem KeepsTime.refl (s : State) : KeepsTime s s := ⟨rfl, rfl, fun _ _ => rfl⟩

theorem KeepsTime.trans {s t u : State} (h : KeepsTime s t) (h' : KeepsTime t u) : KeepsTime s u := by
  obtain ⟨htim, hhbm, hfld⟩ := h
  obtain ⟨htim', hhbm', hfld'⟩ := h'
  exact ⟨htim'.trans htim, hhbm'.trans hhbm, fun g hg => (hfld' g hg).trans (hfld g hg)⟩

/-- A register apart from the one set keeps its fields. -/
theorem State.fld_setReg_ne (s : State) {o : Nat} (v : Word) {g : Field} (h : g.off ≠ o) : (s.setReg o v).fld g = s.fld g := by
  rw [State.fld, State.reg_setReg_ne _ _ h, State.fld]

theorem State.keepsTime_setReg (s : State) {o : Nat} (v : Word) (h : o ∈ timeEventRegs) : KeepsTime s (s.setReg o v) :=
  ⟨rfl, rfl, fun _ hg => s.fld_setReg_ne v fun he => hg (he ▸ h)⟩

theorem State.keepsTime_setFld (s : State) {f : Field} (v : Nat) (h : f.off ∈ timeEventRegs) : KeepsTime s (s.setFld f v) :=
  s.keepsTime_setReg _ h

theorem State.keepsTime_alarm (s : State) (i : Nat) : KeepsTime s (s.alarm i) := by
  obtain ⟨hst, out, h⟩ := s.alarm_frame i
  rw [h]
  exact s.keepsTime_setFld 1 (f := ⟨R.REL_ALERT_CAUSE.adr, i, 1⟩) (by simp [timeEventRegs])

theorem State.keepsTime_count (s : State) {f : Field} (n : Nat) (h : f.off ∈ timeEventRegs) : KeepsTime s (s.count f n) :=
  s.keepsTime_setFld _ h

theorem State.keepsTime_logAdvance (s : State) : KeepsTime s (s.logAdvance 0) := by
  have hprod (v : Nat) : KeepsTime s (s.setFld (R.REL_LOG_IDX.PROD 0) v) := s.keepsTime_setFld v (by decide)
  unfold State.logAdvance
  dsimp only
  split
  · exact (hprod _).trans <| (State.keepsTime_setFld _ _ (by decide)).trans <|
      (State.keepsTime_count _ 1 (by decide)).trans (State.keepsTime_alarm _ 10)
  · exact hprod _

/-- A fault record changes the fault log and its index, with the alert that a full log raises. -/
theorem State.keepsTime_faultLog (s : State) (code tag kind number info0 info1 : Nat) :
    KeepsTime s (s.faultLog code tag kind number info0 info1) := by
  unfold State.faultLog
  exact .trans ⟨rfl, rfl, fun _ _ => rfl⟩ (State.keepsTime_logAdvance _)

/-- Setting time events leaves time and memory as they are. -/
theorem State.keepsTime_timeEvents (s : State) (mask : Nat) : KeepsTime s (s.timeEvents mask) := by
  have halarm (v : Word) : KeepsTime s ((s.setReg R.GLB_TIME_EVENTS.adr v).alarm 1) :=
    (s.keepsTime_setReg v (by decide)).trans (State.keepsTime_alarm _ 1)
  unfold State.timeEvents
  dsimp only
  split
  · exact halarm _
  · exact (halarm _).trans (State.keepsTime_faultLog ..)

@[simp] theorem State.tim_timeEvents (s : State) (mask : Nat) : (s.timeEvents mask).tim = s.tim :=
  (s.keepsTime_timeEvents mask).1

/-- Sending IDENT adds to the channels' streams and to what is sent. -/
theorem State.keepsTime_sendIdents (s : State) : KeepsTime s s.sendIdents := by
  unfold State.sendIdents
  generalize upFrom 0 262 = chans
  induction chans generalizing s with
  | nil => exact .refl s
  | cons c chans ih =>
    rw [List.foldl_cons]
    split
    · exact .trans ⟨rfl, rfl, fun _ _ => rfl⟩ (ih (s.sendIdent c))
    · exact ih s

end Sys2Proof.Machine
end

section
/-! ## Reference inputs (R31 to R33) -/

namespace Sys2Proof.Machine

open Sys2Proof

theorem refOk_fits (inp : Bool) : (refOk inp).lo + (refOk inp).w ≤ 64 := by cases inp <;> decide

theorem refOk_off (inp : Bool) : (refOk inp).off ∉ timeEventRegs := by cases inp <;> decide

theorem refOk_apart (inp : Bool) : Field.Apart (refOk (!inp)) (refOk inp) := by
  unfold Field.Apart
  cases inp <;> decide

theorem refSel_apart (inp : Bool) : Field.Apart R.GLB_TIME_STATUS.REF_SEL (refOk inp) := by
  unfold Field.Apart
  cases inp <;> decide

/-- A change of an input's valid bit leaves the other fields of GLB_TIME_STATUS and of other registers. -/
theorem State.flag_setFld_refOk (s : State) (inp : Bool) (v : Nat) {g : Field} (h : Field.Apart g (refOk inp)) :
    (s.setFld (refOk inp) v).flag g = s.flag g := by
  rw [State.flag, State.fld_setFld_apart s _ g v (refOk_fits inp) h, State.flag]

theorem State.timeState_setFld_refOk (s : State) (inp : Bool) (v : Nat) :
    (s.setFld (refOk inp) v).timeState = s.timeState := by
  refine State.fld_setFld_apart s _ _ v (refOk_fits inp) ?_
  cases inp <;> decide

theorem State.refValid_of_refOk {s : State} {inp : Bool} (h : s.flag (refOk inp) = true) : s.refValid = true := by
  cases inp with
  | false => exact Bool.or_eq_true_iff.mpr (.inl h)
  | true => exact Bool.or_eq_true_iff.mpr (.inr h)

/-- Bringing the advertised value up to date leaves registers, memory and a reference switch that is due as they are. -/
theorem State.refreshAdv_frame (s : State) :
    s.refreshAdv.tim.sel = s.tim.sel ∧ s.refreshAdv.hbm = s.hbm ∧
      ∀ g : Field, g.off ∉ timeEventRegs → s.refreshAdv.fld g = s.fld g := by
  unfold State.refreshAdv
  dsimp only
  split
  · exact ⟨rfl, rfl, fun _ _ => rfl⟩
  · obtain ⟨htim, hhbm, hfld⟩ := State.keepsTime_sendIdents
      (s.setTim { s.tim with adv := s.advNow, advSince := s.tick, electing := true })
    exact ⟨by rw [htim]; rfl, hhbm, hfld⟩

/-- An input is shown as lost, and its loss as an event. -/
def State.loseRef (s : State) (inp : Bool) : State := (s.setFld (refOk inp) 0).timeEvents (if inp then 2 else 1)

theorem State.keepsTime_loseRef (s : State) (inp : Bool) : KeepsTime (s.setFld (refOk inp) 0) (s.loseRef inp) :=
  State.keepsTime_timeEvents _ _

theorem State.flag_loseRef_apart (s : State) (inp : Bool) {g : Field} (h : g.off ∉ timeEventRegs)
    (ha : Field.Apart g (refOk inp)) : (s.loseRef inp).flag g = s.flag g := by
  obtain ⟨-, -, hfld⟩ := s.keepsTime_loseRef inp
  rw [State.flag, hfld g h]
  exact s.flag_setFld_refOk inp 0 ha

theorem State.flag_loseRef_same (s : State) (inp : Bool) : (s.loseRef inp).flag (refOk inp) = false := by
  obtain ⟨-, -, hfld⟩ := s.keepsTime_loseRef inp
  rw [State.flag, hfld _ (refOk_off inp), State.fld_setFld_same _ _ _ (refOk_fits inp), Nat.zero_mod]
  rfl

/-- A switch to an input is due at the next boundary (R32). -/
def State.switchDue (s : State) (inp : Bool) : State := s.setTim { s.tim with sel := some inp }

theorem execRefInputLoss_lost {inp : Bool} {e1 e2 : Nat} {s : State} (he1 : goodTick e1 = false) (he2 : goodTick e2 = false)
    (hok : s.flag (refOk inp) = true) :
    execRefInputLoss inp e1 e2 s =
      let t := s.loseRef inp
      let t := if t.selected inp ∧ t.flag (refOk (!inp)) then t.switchDue (!inp) else t
      .next (if ¬ t.refValid ∧ t.timeState = tsLOCKED then t.timeNext tsHOLDOVER 8 else t.refreshAdv) := by
  rw [execRefInputLoss, if_neg (by simp [he1, he2, hok])]
  rfl

/-- Where the selected input is lost while the other one is valid, the switch is due at the next boundary (R32). -/
theorem execRefInputLoss_switch {inp : Bool} {e1 e2 : Nat} {s : State} (he1 : goodTick e1 = false) (he2 : goodTick e2 = false)
    (hok : s.flag (refOk inp) = true) (hother : s.flag (refOk (!inp)) = true) (hsel : s.selected inp = true) :
    execRefInputLoss inp e1 e2 s = .next ((s.loseRef inp).switchDue (!inp)).refreshAdv := by
  have hother' : (s.loseRef inp).flag (refOk (!inp)) = true :=
    (s.flag_loseRef_apart inp (refOk_off _) (refOk_apart inp)).trans hother
  have hsel' : (s.loseRef inp).selected inp = true := by
    rw [State.selected, s.flag_loseRef_apart inp (by decide) (refSel_apart inp)]
    exact hsel
  have hvalid : ((s.loseRef inp).switchDue (!inp)).refValid = true := State.refValid_of_refOk hother'
  simp only [execRefInputLoss_lost he1 he2 hok, hsel', hother', and_self, if_true, hvalid, not_true_eq_false, false_and, if_false]

/-- An input becomes valid while the other one is valid and the module is LOCKED: no switch is due, and no change of the time
state but out of LOST. -/
theorem execRefInputValid_locked {inp : Bool} {epochs : Nat} {s : State} (hhold : s.fld R.GLB_REF_CTL.REVERT_HOLD ≤ epochs)
    (hlost : s.flag (refOk inp) = false) (hother : s.flag (refOk (!inp)) = true) (hlocked : s.timeState = tsLOCKED) :
    execRefInputValid inp epochs s = .next (s.setFld (refOk inp) 1).refreshAdv.leaveLost := by
  have hother' : (s.setFld (refOk inp) 1).flag (refOk (!inp)) = true :=
    (s.flag_setFld_refOk inp 1 (refOk_apart inp)).trans hother
  have hstate : (s.setFld (refOk inp) 1).timeState ≠ tsHOLDOVER := by
    rw [s.timeState_setFld_refOk, hlocked]
    decide
  rw [execRefInputValid, if_neg (by simp [hlost, hhold])]
  simp only [hother', hstate, not_true_eq_false, and_false, false_and, if_false]

/-- A field of one bit is the number of its flag. -/
theorem State.b2n_flag (s : State) {f : Field} (h : f.w = 1) : b2n (s.flag f) = s.fld f := by
  have hlt := s.fld_lt f
  rw [h] at hlt
  unfold State.flag b2n
  split
  next hne => rw [bne_iff_ne] at hne; omega
  next heq => rw [bne_iff_ne] at heq; omega

/-- Settles O21: each command is the one branch of it that the valid bits select. -/
theorem references : Obligations.References := by
  refine ⟨fun inp e1 e2 s he1 he2 hok hother hsel _ => ?_, fun inp epochs s hhold hlost hother hlocked => ?_,
    fun s hepoch hrevert hok hsel => ?_, fun s hrevert => ?_⟩
  · obtain ⟨hswitch, hhbm, hfld⟩ := ((s.loseRef inp).switchDue (!inp)).refreshAdv_frame
    obtain ⟨-, hhbm', -⟩ := s.keepsTime_loseRef inp
    refine ⟨_, execRefInputLoss_switch he1 he2 hok hother hsel, ?_, hswitch, ?_, fun a => ?_⟩
    · rw [State.flag, hfld _ (refOk_off inp)]
      exact s.flag_loseRef_same inp
    · rw [State.flag, hfld _ (by decide)]
      exact s.flag_loseRef_apart inp (by decide) (refSel_apart inp)
    · exact congrArg (FMap.get byteDefault · a) (hhbm.trans hhbm')
  · exact execRefInputValid_locked hhold hlost hother hlocked
  · rw [exec_refRevert, execRefRevert, if_pos ⟨hepoch, hrevert, hok, by simp [hsel]⟩, State.b2n_flag s rfl]
  · rw [exec_refRevert, execRefRevert, if_neg (by simp [hrevert])]

end Sys2Proof.Machine
end

section
/-! ## Time transfer, holdover, the epoch input and the election (R39, R41, R43, R388) -/

namespace Sys2Proof.Machine

open Sys2Proof

/-! Time transfer (R39). -/

/-- A block that returns no T4 goes out every 2^12 ticks. -/
theorem execTimeExchange_first {c : Channel} {phase : BitVec 8} {s : State} (hon : s.timeOn c = true) (htick : s.tick % 2 ^ 12 = 0)
    (ht4 : (s.exch (portCode c)).t4 = none) :
    execTimeExchange c phase s =
      let x := s.exch (portCode c)
      .next ((s.setExch (portCode c) { x with num := (x.num + 1) % 256 }).sendCtrl c (.time
        { dir := false, exch := BitVec.ofNat 8 x.num, phase := phase, tick := BitVec.ofNat 64 s.tick, prevExch := 0,
          prevValid := false, prevPhase := 0, prevTick := 0 })) := by
  rw [execTimeExchange, if_neg fun h => h.elim (absurd hon) (absurd (.inl htick))]
  simp only [ht4, Option.getD_none, Option.isSome_none, Nat.zero_div, BitVec.ofNat_eq_ofNat]

/-- A reply gives T4. -/
theorem execTimeBlock_reply {c : Channel} {b : TimeBlock} {rx : BitVec 8} {wait : BitVec 16} {s : State} (hon : s.timeOn c = true)
    (hdir : b.dir = true) :
    execTimeBlock c b rx wait s = .next (s.setExch (portCode c)
      { s.exch (portCode c) with t4 := some (b.exch.toNat, 256 * s.tick + rx.toNat) }) := by
  simp only [execTimeBlock, hon, hdir, not_true_eq_false, if_false, if_true]

/-- A parent's block that returns no T4 opens an exchange and is answered. -/
theorem execTimeBlock_request {c : Channel} {b : TimeBlock} {rx : BitVec 8} {wait : BitVec 16} {s : State}
    (hon : s.timeOn c = true) (hdir : b.dir = false) (hprev : b.prevValid = false) :
    execTimeBlock c b rx wait s =
      let t2 := 256 * s.tick + rx.toNat
      let t3 := t2 + wait.toNat
      let x := s.exch (portCode c)
      .next ((s.setExch (portCode c) { x with open_ := x.open_.put b.exch.toNat (256 * b.tick.toNat + b.phase.toNat, t2, t3) }).sendCtrl
        c (.time { dir := true, exch := b.exch, phase := BitVec.ofNat 8 t3, tick := BitVec.ofNat 64 (t3 / 256), prevExch := 0,
                   prevValid := false, prevPhase := 0, prevTick := 0 })) := by
  simp only [execTimeBlock, hon, hdir, hprev, not_true_eq_false, Bool.false_eq_true, if_false]

/-! Holdover (R43). -/

theorem execHoldoverExpire_due {s : State} {t : Nat} (halone : s.tim.alone = some t) (hstate : s.timeState = tsHOLDOVER)
    (hdue : t + s.fld R.GLB_TIME_CTL.HOLDOVER_EPOCHS * 2 ^ 20 ≤ s.tick) :
    execHoldoverExpire s = .next (s.timeNext tsLOST 16) := by
  simp only [execHoldoverExpire, halone]
  rw [if_pos ⟨hstate, hdue⟩]

/-! The epoch input (R41). -/

/-- The phase units from the epoch boundary last past, which an edge marks at `phase` of the tick, to the edge. -/
def State.epochPhase (s : State) (phase : BitVec 8) : Int :=
  ((256 * s.tick + phase.toNat : Int) - s.fld R.GLB_EPOCH_IN_DELAY.DELAY) % (2 ^ 28 : Nat)

theorem State.epochPhase_bounds (s : State) (phase : BitVec 8) : 0 ≤ s.epochPhase phase ∧ s.epochPhase phase < 2 ^ 28 :=
  ⟨Int.emod_nonneg _ (by decide), Int.emod_lt_of_pos _ (by decide)⟩

/-- Whether a pulse makes its epoch mismatched: it is off its place, or not the first one. -/
def State.pulseBad (s : State) (phase : BitVec 8) : Bool :=
  decide (16 < min (s.epochPhase phase) ((2 ^ 28 : Nat) - s.epochPhase phase)) || decide (0 < s.tim.pulses)

theorem execEpochInPulse_on {phase : BitVec 8} {s : State} (hsrc : s.flag R.GLB_TIME_CTL.EPOCH_SRC = true)
    (hon : s.tim.ignoreEpoch = false) :
    execEpochInPulse phase s =
      let bad := s.pulseBad phase
      let t := s.setTim { s.tim with pulses := s.tim.pulses + 1, badPulse := s.tim.badPulse || bad }
      .next (if bad then t.timeEvents 32 else t) := by
  rw [execEpochInPulse, if_neg (by simp [hsrc, hon])]
  rfl

theorem State.pulseBad_eq_true {s : State} {phase : BitVec 8} :
    s.pulseBad phase = true ↔ 0 < s.tim.pulses ∨ (16 < s.epochPhase phase ∧ s.epochPhase phase < (2 ^ 28 : Int) - 16) := by
  simp only [State.pulseBad, Bool.or_eq_true, decide_eq_true_eq]
  omega

/-- The first pulse of an epoch, in its place. -/
theorem execEpochInPulse_good {phase : BitVec 8} {s : State} (hsrc : s.flag R.GLB_TIME_CTL.EPOCH_SRC = true)
    (hon : s.tim.ignoreEpoch = false) (hfirst : s.tim.pulses = 0)
    (hplace : s.epochPhase phase ≤ 16 ∨ (2 ^ 28 : Int) - 16 ≤ s.epochPhase phase) :
    execEpochInPulse phase s = .next { s with tim := { s.tim with pulses := 1 } } := by
  have hgood : s.pulseBad phase = false := by
    rw [← Bool.not_eq_true, State.pulseBad_eq_true]
    omega
  simp only [execEpochInPulse_on hsrc hon, hgood, hfirst, Bool.or_false, Bool.false_eq_true, if_false, State.setTim]

/-- A pulse off its place, or one that is not the first of its epoch. -/
theorem execEpochInPulse_bad {phase : BitVec 8} {s : State} (hsrc : s.flag R.GLB_TIME_CTL.EPOCH_SRC = true)
    (hon : s.tim.ignoreEpoch = false)
    (hbad : 0 < s.tim.pulses ∨ (16 < s.epochPhase phase ∧ s.epochPhase phase < (2 ^ 28 : Int) - 16)) :
    execEpochInPulse phase s =
      .next ({ s with tim := { s.tim with pulses := s.tim.pulses + 1, badPulse := true } }.timeEvents 32) := by
  simp only [execEpochInPulse_on hsrc hon, State.pulseBad_eq_true.mpr hbad, Bool.or_true, if_true, State.setTim]

/-- The pulses of an epoch have been judged, and it is the `n`th mismatched one in a row. -/
def State.epochJudged (s : State) (n : Nat) : State :=
  s.setTim { s.tim with pulses := 0, badPulse := false, mismatch := n, ignoreEpoch := decide (4 ≤ n) }

/-- The epoch's pulses are judged in the middle of the epoch. -/
theorem State.judgeEpoch_due {s : State} (htick : s.tick % 2 ^ 20 = 2 ^ 19) (hsrc : s.flag R.GLB_TIME_CTL.EPOCH_SRC = true)
    (hon : s.tim.ignoreEpoch = false) (hwatch : s.tim.watching = true) :
    s.judgeEpoch =
      let t := s.epochJudged (if s.tim.badPulse || s.tim.pulses == 0 then s.tim.mismatch + 1 else 0)
      if s.tim.pulses == 0 then t.timeEvents 32 else t := by
  unfold State.judgeEpoch
  dsimp only
  rw [if_neg fun h => h.elim (absurd htick) (by simp [hon]), if_neg (by simp [hsrc, hwatch])]
  rfl

/-- One pulse in its place ends a run of mismatched epochs. -/
theorem State.judgeEpoch_good {s : State} (htick : s.tick % 2 ^ 20 = 2 ^ 19) (hsrc : s.flag R.GLB_TIME_CTL.EPOCH_SRC = true)
    (hon : s.tim.ignoreEpoch = false) (hwatch : s.tim.watching = true) (hone : s.tim.pulses = 1) (hplace : s.tim.badPulse = false) :
    s.judgeEpoch = { s with tim := { s.tim with pulses := 0, badPulse := false, mismatch := 0, ignoreEpoch := false } } := by
  rw [State.judgeEpoch_due htick hsrc hon hwatch, hone, hplace]
  rfl

/-- A mismatched epoch is counted; the fourth in a row has EPOCH_IN ignored. -/
theorem State.judgeEpoch_bad {s : State} (htick : s.tick % 2 ^ 20 = 2 ^ 19) (hsrc : s.flag R.GLB_TIME_CTL.EPOCH_SRC = true)
    (hon : s.tim.ignoreEpoch = false) (hwatch : s.tim.watching = true) (hbad : s.tim.pulses = 0 ∨ s.tim.badPulse = true) :
    s.judgeEpoch.tim.mismatch = s.tim.mismatch + 1 ∧ (s.judgeEpoch.tim.ignoreEpoch = true ↔ 3 ≤ s.tim.mismatch) := by
  have hor : (s.tim.badPulse || s.tim.pulses == 0) = true := by simpa using hbad.symm
  have htim : s.judgeEpoch.tim = (s.epochJudged (s.tim.mismatch + 1)).tim := by
    rw [State.judgeEpoch_due htick hsrc hon hwatch, if_pos hor]
    dsimp only
    split
    · exact State.tim_timeEvents _ 32
    · rfl
  simp [htim, State.epochJudged, State.setTim]

/-! The election (R388). -/

theorem execElectionSettle_master {s : State} (helect : s.tim.electing = true) (hsettled : s.tim.advSince + 2 ^ 16 ≤ s.tick)
    (hadv : s.tim.adv = s.feid) (hfeid : s.feid ≠ 0xFFFF) (hcand : s.candidate = true)
    (hnew : s.flag R.GLB_TIME_STATUS.MASTER = false) :
    execElectionSettle s = .next (s.setTim { s.tim with electing := false }).becomeMaster := by
  have hcand' : (s.setTim { s.tim with electing := false }).candidate = true := hcand
  have hnew' : ¬ (s.setTim { s.tim with electing := false }).flag R.GLB_TIME_STATUS.MASTER = true := by
    rw [Bool.not_eq_true]
    exact hnew
  rw [execElectionSettle, if_neg fun h => h.elim (absurd helect) (Nat.not_lt.mpr hsettled)]
  dsimp only
  rw [if_neg (by rw [← hadv] at hfeid; exact hfeid), if_pos (by exact hadv), if_pos ⟨hcand', hnew'⟩]

/-- GLB_TIME_STATUS as a new master shows it. -/
def State.showMaster (s : State) : State :=
  ((((s.setFld R.GLB_TIME_STATUS.MASTER 1).setFld R.GLB_TIME_STATUS.PARENT_FEID 0xFFFF).setFld
    R.GLB_TIME_STATUS.PARENT_LINK 0xFF).setFld R.GLB_TIME_STATUS.HOPS 0).setFld R.GLB_TIME_STATUS.OFFSET 0

theorem State.becomeMaster_eq (s : State) : s.becomeMaster = s.showMaster.timeNext tsLOCKED 0 := rfl

theorem State.fld_timeNext (s : State) (st events : Nat) (g : Field) : (s.timeNext st events).fld g = s.fld g := rfl

theorem State.fld_becomeMaster (s : State) (g : Field) : s.becomeMaster.fld g = s.showMaster.fld g := by
  rw [State.becomeMaster_eq, State.fld_timeNext]

theorem State.onlyFields_becomeMaster (s : State) :
    OnlyFields [R.GLB_TIME_STATUS.MASTER, R.GLB_TIME_STATUS.PARENT_FEID, R.GLB_TIME_STATUS.PARENT_LINK, R.GLB_TIME_STATUS.HOPS,
      R.GLB_TIME_STATUS.OFFSET] s s.becomeMaster := by
  intro g hg
  simp only [List.forall_mem_cons] at hg
  obtain ⟨hmaster, hfeid, hlink, hhops, hoffset, -⟩ := hg
  rw [State.fld_becomeMaster, State.showMaster, State.fld_setFld_apart _ _ _ _ (by decide) hoffset,
    State.fld_setFld_apart _ _ _ _ (by decide) hhops, State.fld_setFld_apart _ _ _ _ (by decide) hlink,
    State.fld_setFld_apart _ _ _ _ (by decide) hfeid, State.fld_setFld_apart _ _ _ _ (by decide) hmaster]

theorem State.hops_becomeMaster (s : State) : s.becomeMaster.fld R.GLB_TIME_STATUS.HOPS = 0 := by
  rw [State.fld_becomeMaster, State.showMaster, State.fld_setFld_apart _ _ _ _ (by decide) (by decide),
    State.fld_setFld_same _ _ _ (by decide)]
  rfl

theorem State.parentFeid_becomeMaster (s : State) : s.becomeMaster.fld R.GLB_TIME_STATUS.PARENT_FEID = 0xFFFF := by
  rw [State.fld_becomeMaster, State.showMaster]
  iterate 3 rw [State.fld_setFld_apart _ _ _ _ (by decide) (by decide)]
  rw [State.fld_setFld_same _ _ _ (by decide)]
  rfl

theorem State.master_becomeMaster (s : State) : s.becomeMaster.flag R.GLB_TIME_STATUS.MASTER = true := by
  rw [State.flag, State.fld_becomeMaster, State.showMaster]
  iterate 4 rw [State.fld_setFld_apart _ _ _ _ (by decide) (by decide)]
  rw [State.fld_setFld_same _ _ _ (by decide)]
  rfl

/-- Settles O22: each command is the one branch of it that the state selects, and the epoch's judgement counts by one case of its
pulses. -/
theorem timeTransfer : Obligations.TimeTransfer := by
  refine ⟨fun c phase s hon htick ht4 => execTimeExchange_first hon htick ht4,
    fun c b rx wait s hon hdir => execTimeBlock_reply hon hdir,
    fun c b rx wait s hon hdir hprev => execTimeBlock_request hon hdir hprev,
    fun s t halone hstate hdue => execHoldoverExpire_due halone hstate hdue,
    fun phase s hsrc hon => ⟨execEpochInPulse_good hsrc hon, execEpochInPulse_bad hsrc hon⟩,
    fun s htick hsrc hon hwatch => ⟨State.judgeEpoch_good htick hsrc hon hwatch, State.judgeEpoch_bad htick hsrc hon hwatch⟩,
    fun s helect hsettled hadv hfeid hcand hnew => ?_⟩
  let t := s.setTim { s.tim with electing := false }
  exact ⟨t.becomeMaster, execElectionSettle_master helect hsettled hadv hfeid hcand hnew, t.master_becomeMaster,
    t.hops_becomeMaster, t.parentFeid_becomeMaster, rfl, rfl, t.onlyFields_becomeMaster⟩

end Sys2Proof.Machine
end

section
/-! ## Threads: making one RUNNABLE, halting and clearing it (R50, R51, R248) -/

namespace Sys2Proof.Machine

open Sys2Proof

/-- A field of a register that has not changed keeps its value. -/
theorem State.fld_of_reg_eq {s u : State} {f : Field} (h : u.reg f.off = s.reg f.off) : u.fld f = s.fld f := by
  rw [State.fld, State.fld, h]

theorem State.pc_of_reg_eq {s u : State} {t : Nat} (h : u.reg (R.SEQ_THREAD_PC.adr t) = s.reg (R.SEQ_THREAD_PC.adr t)) :
    u.pc t = s.pc t :=
  congrArg (8 * ·) (State.fld_of_reg_eq (f := R.SEQ_THREAD_PC.PC t) h)

/-- Setting a field leaves every other register. -/
theorem State.reg_setFld_ne (s : State) {f : Field} {o : Nat} (v : Nat) (h : o ≠ f.off) : (s.setFld f v).reg o = s.reg o :=
  State.reg_setReg_ne _ _ h

/-! Registers of a thread other than its status. -/

theorem threadCfg_ne_status (t : Nat) (th : ThreadNo) : R.SEQ_THREAD_CFG.adr th ≠ R.SEQ_THREAD_STATUS.adr t := by
  simp only [R.SEQ_THREAD_CFG.adr, R.SEQ_THREAD_STATUS.adr]; omega

theorem threadPc_ne_status (t : Nat) (th : ThreadNo) : R.SEQ_THREAD_PC.adr th ≠ R.SEQ_THREAD_STATUS.adr t := by
  simp only [R.SEQ_THREAD_PC.adr, R.SEQ_THREAD_STATUS.adr]; omega

theorem threadTrapvec_ne_status (t : Nat) (th : ThreadNo) : R.SEQ_THREAD_TRAPVEC.adr th ≠ R.SEQ_THREAD_STATUS.adr t := by
  simp only [R.SEQ_THREAD_TRAPVEC.adr, R.SEQ_THREAD_STATUS.adr]; omega

/-! ### STATE and REASON -/

theorem State.reg_setTState_ne (s : State) {t o : Nat} (st reason : Nat) (h : o ≠ R.SEQ_THREAD_STATUS.adr t) :
    (s.setTState t st reason).reg o = s.reg o :=
  (State.reg_setFld_ne _ _ h).trans (State.reg_setFld_ne _ _ h)

theorem State.fld_setTState_apart (s : State) {t : Nat} (st reason : Nat) {g : Field}
    (hstate : Field.Apart g (R.SEQ_THREAD_STATUS.STATE t)) (hreason : Field.Apart g (R.SEQ_THREAD_STATUS.REASON t)) :
    (s.setTState t st reason).fld g = s.fld g :=
  (State.fld_setFld_apart _ _ _ _ (by simp [R.SEQ_THREAD_STATUS.REASON]) hreason).trans
    (State.fld_setFld_apart _ _ _ _ (by simp [R.SEQ_THREAD_STATUS.STATE]) hstate)

theorem State.tstate_setTState (s : State) (t st reason : Nat) : (s.setTState t st reason).tstate t = st % 8 :=
  (State.fld_setFld_apart _ _ _ _ (by simp [R.SEQ_THREAD_STATUS.REASON])
    (by simp [R.SEQ_THREAD_STATUS.STATE, R.SEQ_THREAD_STATUS.REASON])).trans
    (State.fld_setFld_same _ _ _ (by simp [R.SEQ_THREAD_STATUS.STATE]))

theorem State.reason_setTState (s : State) (t st reason : Nat) :
    (s.setTState t st reason).fld (R.SEQ_THREAD_STATUS.REASON t) = reason % 16 :=
  State.fld_setFld_same _ _ _ (by simp [R.SEQ_THREAD_STATUS.REASON])

/-- Setting the PC leaves the thread's state. -/
theorem State.tstate_setPc (s : State) (th : ThreadNo) (n : Nat) : (s.setPc th n).tstate th = s.tstate th :=
  State.fld_of_reg_eq (State.reg_setFld_ne _ _ (threadPc_ne_status th th).symm)

/-- The PC past an instruction. -/
theorem State.pc_setPc_next (s u : State) (t : Nat) : (u.setPc t (s.pc t + 8)).pc t = (s.pc t + 8) % 2 ^ 57 := by
  rw [State.pc_setPc, State.pc]; omega

/-! ### RUNNABLE -/

/-- A thread of which no submission waits becomes RUNNABLE (R248). -/
theorem State.runnable_of_stuck_none {s : State} {t : Nat} (h : s.stuck t = none) :
    s.runnable t = (s.setThr t { s.thr t with wait := .idle }).setTState t stRunnable 0 := by
  rw [State.runnable, h]

/-- With no status trap held there is none to take (R232). -/
theorem State.takeHeld_of_held_none {s : State} {t : Nat} (h : (s.thr t).held = none) : s.takeHeld t = s := by
  simp only [State.takeHeld, h]

section
variable {s : State} {t : Nat} (hstuck : s.stuck t = none)
include hstuck

theorem State.thr_runnable : (s.runnable t).thr t = { s.thr t with wait := .idle } := by
  rw [State.runnable_of_stuck_none hstuck]
  exact State.thr_setThr_same ..

theorem State.tstate_runnable : (s.runnable t).tstate t = stRunnable := by
  rw [State.runnable_of_stuck_none hstuck, State.tstate_setTState]
  rfl

theorem State.reason_runnable : (s.runnable t).fld (R.SEQ_THREAD_STATUS.REASON t) = 0 := by
  rw [State.runnable_of_stuck_none hstuck, State.reason_setTState]

theorem State.reg_runnable_ne {o : Nat} (h : o ≠ R.SEQ_THREAD_STATUS.adr t) : (s.runnable t).reg o = s.reg o := by
  rw [State.runnable_of_stuck_none hstuck, State.reg_setTState_ne _ _ _ h]
  rfl

theorem State.runnable_takeHeld (hheld : (s.thr t).held = none) : (s.runnable t).takeHeld t = s.runnable t :=
  State.takeHeld_of_held_none (by rw [State.thr_runnable hstuck]; exact hheld)

theorem State.onlyThread_runnable :
    OnlyThread t [R.SEQ_THREAD_STATUS.STATE t, R.SEQ_THREAD_STATUS.REASON t] s (s.runnable t) := by
  rw [State.runnable_of_stuck_none hstuck]
  refine ⟨rfl, fun u hu => State.thr_setThr_ne _ _ hu, fun g hg => ?_, fun _ => rfl⟩
  exact State.fld_setTState_apart _ _ _ (hg _ (by simp)) (hg _ (by simp))

end

/-- Setting the PC of a thread adds that field to those that have changed. -/
theorem OnlyThread.setPc {t : Nat} {fs : List Field} {s u : State} (h : OnlyThread t fs s u) (n : Nat) :
    OnlyThread t (fs ++ [R.SEQ_THREAD_PC.PC t]) s (u.setPc t n) := by
  obtain ⟨hrest, hthreads, hfields, hmem⟩ := h
  refine ⟨?_, hthreads, fun g hg => ?_, hmem⟩
  · rw [hrest]; rfl
  · exact (State.fld_setFld_apart _ _ _ _ (by simp [R.SEQ_THREAD_PC.PC]) (hg _ (by simp))).trans
      (hfields g fun f hf => hg f (List.mem_append_left _ hf))

/-! ### HALTED (R50) -/

theorem State.unpark_frame (s : State) (t : Nat) : s.unpark t = { s with watch := (s.unpark t).watch } := by
  unfold State.unpark; dsimp only; split <;> rfl

/-- A parked thread's watch line goes from PARKED to IDLE. -/
theorem State.wl_unpark {s : State} {t w : Nat} (hparked : s.tstate t = stParked)
    (hw : s.fld (R.SEQ_THREAD_STATUS.WATCH t) = w) (hstate : (s.wl w).state = 4) (hthread : (s.wl w).thread = t) :
    (s.unpark t).wl w = { s.wl w with state := 2, thread := 0, deadline := 0 } := by
  subst hw
  rw [State.unpark, if_pos ⟨hparked, hstate, hthread⟩]
  exact State.wl_setWl_same ..

/-- The state at which HALT sets STATE and DRAINING: the thread is off its watch line, with nothing to wait for. -/
def State.stopped (s : State) (t : Nat) : State :=
  let s := (s.unpark t).killRequests t
  s.setThr t { s.thr t with wait := .idle, pend := s.lpReg t, wbFail := 0 }

theorem State.fld_stopped (s : State) (t : Nat) (g : Field) : (s.stopped t).fld g = s.fld g := by
  rw [State.stopped, State.unpark_frame]; rfl

theorem State.haltThread_eq (s : State) (t : Nat) : s.haltThread t = ((s.stopped t).setTState t stHalted 0).setFld
    (R.SEQ_THREAD_STATUS.DRAINING t) (b2n (((s.stopped t).setTState t stHalted 0).flag (R.SEQ_THREAD_STATUS.OUTSTANDING t))) := rfl

theorem State.reg_haltThread_ne (s : State) {t o : Nat} (h : o ≠ R.SEQ_THREAD_STATUS.adr t) : (s.haltThread t).reg o = s.reg o := by
  rw [State.haltThread_eq, State.reg_setFld_ne _ _ h, State.reg_setTState_ne _ _ _ h, State.stopped, State.unpark_frame]
  rfl

theorem State.tstate_haltThread (s : State) (t : Nat) : (s.haltThread t).tstate t = stHalted := by
  rw [State.haltThread_eq, State.tstate, State.fld_setFld_apart _ _ _ _ (by simp [R.SEQ_THREAD_STATUS.DRAINING])
    (by simp [R.SEQ_THREAD_STATUS.STATE, R.SEQ_THREAD_STATUS.DRAINING]), ← State.tstate, State.tstate_setTState]
  rfl

theorem State.draining_haltThread (s : State) (t : Nat) : (s.haltThread t).fld (R.SEQ_THREAD_STATUS.DRAINING t) =
    if s.fld (R.SEQ_THREAD_STATUS.OUTSTANDING t) = 0 then 0 else 1 := by
  have hflag : ((s.stopped t).setTState t stHalted 0).fld (R.SEQ_THREAD_STATUS.OUTSTANDING t) =
      s.fld (R.SEQ_THREAD_STATUS.OUTSTANDING t) := by
    rw [State.fld_setTState_apart, State.fld_stopped] <;>
      simp [Field.Apart, R.SEQ_THREAD_STATUS.OUTSTANDING, R.SEQ_THREAD_STATUS.STATE, R.SEQ_THREAD_STATUS.REASON]
  rw [State.haltThread_eq, State.fld_setFld_same _ _ _ (by simp [R.SEQ_THREAD_STATUS.DRAINING]), State.flag, hflag]
  split
  next h => simp [h, b2n]
  next h => simp [h, b2n, R.SEQ_THREAD_STATUS.DRAINING]

theorem State.thr_haltThread (s : State) (t : Nat) :
    (s.haltThread t).thr t = { s.thr t with wait := .idle, pend := s.lpReg t, wbFail := 0 } := by
  rw [State.haltThread_eq, State.stopped, State.unpark_frame]
  exact State.thr_setThr_same ..

theorem State.byte_haltThread (s : State) (t a : Nat) : (s.haltThread t).byte a = s.byte a := by
  rw [State.haltThread_eq, State.stopped, State.unpark_frame]; rfl

theorem State.wl_haltThread (s : State) (t w : Nat) : (s.haltThread t).wl w = (s.unpark t).wl w := rfl

/-! ### Cleared registers (R224) -/

theorem State.dropLp_frame (s : State) (t : Nat) : s.dropLp t = { s with opt := (s.dropLp t).opt } := by
  unfold State.dropLp
  split
  · split
    · split <;> rfl
    · rfl
  · rfl

theorem State.thr_clearThread (s : State) (t : Nat) :
    (s.clearThread t).thr t = { ops := (s.thr t).ops, reads := (s.thr t).reads, opsFrom := (s.thr t).opsFrom } := by
  rw [State.clearThread, State.dropLp_frame]
  exact State.thr_setThr_same ..

theorem State.handler_clearThread (s : State) (t : Nat) :
    (s.clearThread t).flag (R.SEQ_THREAD_STATUS.HANDLER t) = false := by
  rw [State.flag, State.clearThread, State.fld_setFld_same _ _ _ (by simp [R.SEQ_THREAD_STATUS.HANDLER])]
  rfl

theorem State.reg_clearThread_ne (s : State) {t o : Nat} (h : o ≠ R.SEQ_THREAD_STATUS.adr t) :
    (s.clearThread t).reg o = s.reg o := by
  rw [State.clearThread, State.reg_setFld_ne _ _ h, State.dropLp_frame]
  rfl

theorem State.tstate_clearThread (s : State) (t : Nat) : (s.clearThread t).tstate t = s.tstate t := by
  rw [State.tstate, State.clearThread, State.fld_setFld_apart _ _ _ _ (by simp [R.SEQ_THREAD_STATUS.HANDLER])
    (by simp [R.SEQ_THREAD_STATUS.STATE, R.SEQ_THREAD_STATUS.HANDLER]), State.dropLp_frame]
  rfl

end Sys2Proof.Machine
end

section
/-! ## Thread commands (R50, R51, Table 3.3) -/

namespace Sys2Proof.Machine

open Sys2Proof

section
variable {s : State} {via : Via} {page : Option PartNo} {th : ThreadNo} (hsees : s.sees via (cmdOffset page th) true = true)
include hsees

theorem State.threadCmd_accepted {ok : State → Bool} (hown : s.ownPage page th = true) (hok : ok s = true) (f : State → State) :
    s.threadCmd via page th ok f = f s := by
  rw [State.threadCmd, State.gate_seen hsees, hown, hok]
  rfl

theorem State.threadCmd_refused {ok : State → Bool} (h : s.ownPage page th = false ∨ ok s = false) (f : State → State) :
    s.threadCmd via page th ok f = s.cmdDeny page := by
  rw [State.threadCmd, State.gate_seen hsees]
  rcases h with h | h <;> simp [h]

theorem execThreadStart_accepted (hown : s.ownPage page th = true) (hstart : s.canStart th = true) (hstuck : s.stuck th = none)
    (hheld : (s.thr th).held = none) : execThreadStart via page th s = .next (s.runnable th) := by
  rw [execThreadStart, State.threadCmd_accepted hsees hown hstart, State.runnable_takeHeld hstuck hheld]

theorem execThreadHalt_accepted (hown : s.ownPage page th = true) : execThreadHalt via page th s = .next (s.haltThread th) := by
  rw [execThreadHalt, State.threadCmd_accepted hsees hown rfl]

theorem execThreadReset_accepted (hown : s.ownPage page th = true) :
    execThreadReset via page th s = .next ((s.haltThread th).clearThread th) := by
  rw [execThreadReset, State.threadCmd_accepted hsees hown rfl]

section
variable (hown : s.ownPage page th = true) (hfaulted : s.tstate th = stFaulted) (hheld : (s.thr th).held = none)
  (hstuck : s.stuck th = none)
include hown hfaulted hheld hstuck

theorem execThreadResume_accepted : execThreadResume via page th s = .next (s.runnable th) := by
  rw [execThreadResume, State.threadCmd_accepted (ok := fun s => s.tstate th == stFaulted) hsees hown
      (beq_iff_eq.mpr hfaulted), State.runnable_takeHeld hstuck hheld]

theorem execThreadSkip_accepted :
    execThreadSkip via page th s = .next ((s.runnable th).setPc th (s.pc th + 8)) := by
  have hheld' : (((s.runnable th).setPc th (s.pc th + 8)).thr th).held = none := by
    rw [State.setPc, State.thr_setFld, State.thr_runnable hstuck]
    exact hheld
  rw [execThreadSkip, State.threadCmd_accepted (ok := fun s => s.tstate th == stFaulted) hsees hown
      (beq_iff_eq.mpr hfaulted), State.takeHeld_of_held_none hheld']

end

end

/-- Settles O12: an accepted command is `runnable`, `haltThread` or `clearThread` of the thread, a refused one is `cmdDeny`. -/
theorem threadCommands : Obligations.ThreadCommands := by
  intro via page th s hsees
  have hpc : R.SEQ_THREAD_PC.adr th ≠ R.SEQ_THREAD_STATUS.adr th := threadPc_ne_status th th
  refine ⟨fun hown hstart hstuck hheld => ?start, fun hown => ?halt, fun hown hfaulted hheld hstuck => ?resume,
    fun hown hfaulted hheld hstuck => ?skip, fun hown => ?reset, fun hrefused => ?startDenied, fun hrefused => ?faultedDenied⟩
  case start =>
    exact ⟨_, execThreadStart_accepted hsees hown hstart hstuck hheld, State.onlyThread_runnable hstuck,
      State.tstate_runnable hstuck, State.reason_runnable hstuck, State.thr_runnable hstuck⟩
  case halt =>
    refine ⟨_, execThreadHalt_accepted hsees hown, s.tstate_haltThread th, s.draining_haltThread th,
      State.pc_of_reg_eq (s.reg_haltThread_ne hpc), ?_, ?_, ?_, s.byte_haltThread th,
      fun hparked w hw hstate hthread => (s.wl_haltThread th w).trans (State.wl_unpark hparked hw hstate hthread)⟩
    all_goals rw [State.thr_haltThread]
  case resume =>
    exact ⟨_, execThreadResume_accepted hsees hown hfaulted hheld hstuck, State.onlyThread_runnable hstuck,
      State.tstate_runnable hstuck, State.pc_of_reg_eq (State.reg_runnable_ne hstuck hpc), State.thr_runnable hstuck⟩
  case skip =>
    exact ⟨_, execThreadSkip_accepted hsees hown hfaulted hheld hstuck, (State.onlyThread_runnable hstuck).setPc _,
      (State.tstate_setPc ..).trans (State.tstate_runnable hstuck), State.pc_setPc_next .., State.thr_runnable hstuck⟩
  case reset =>
    have hreg {o : Nat} (h : o ≠ R.SEQ_THREAD_STATUS.adr th) : ((s.haltThread th).clearThread th).reg o = s.reg o :=
      (State.reg_clearThread_ne _ h).trans (s.reg_haltThread_ne h)
    have hthr := (s.haltThread th).thr_clearThread th
    refine ⟨_, execThreadReset_accepted hsees hown, (State.tstate_clearThread ..).trans (s.tstate_haltThread th),
      fun r => ?_, fun i hi _ => ?_, ?_, ?_, ?_, ?_, State.handler_clearThread .., State.pc_of_reg_eq (hreg hpc),
      hreg (threadCfg_ne_status th th), hreg (threadTrapvec_ne_status th th)⟩
    · simp [State.greg, hthr, Thread.reg, FMap.get]
    · simp [hthr, Thread.pred]; omega
    all_goals rw [hthr]
  case startDenied =>
    rw [exec_threadStart, execThreadStart, State.threadCmd_refused hsees hrefused]
  case faultedDenied =>
    have hrefused' : s.ownPage page th = false ∨ (s.tstate th == stFaulted) = false := hrefused.imp_right beq_false_of_ne
    rw [exec_threadResume, exec_threadSkip, execThreadResume, execThreadSkip]
    exact ⟨congrArg _ (State.threadCmd_refused hsees hrefused' _), congrArg _ (State.threadCmd_refused hsees hrefused' _)⟩

end Sys2Proof.Machine
end

section
/-! ## Instruction caches (R61 to R63) -/

namespace Sys2Proof.Machine

open Sys2Proof

theorem execIcacheInvalidate_seen {via : Via} {s : State} (hsees : s.sees via R.SEQ_ICACHE_INV.adr true = true) (p : PartNo) :
    execIcacheInvalidate via p s = .next (s.icDrop p) := by
  rw [execIcacheInvalidate, State.gate_seen hsees]

section
variable {th : ThreadNo} {s s1 : State} {fva : Nat} (hwait : (s.thr th).wait = .fetch fva) (hstate : s.tstate th = stWaiting)
include hwait hstate

theorem execIcacheFill_hit {h : Nat} (hfetch : s.fetchLine th fva = (s1, some h)) : execIcacheFill th s =
    .next (((s1.icFill (th / 16) (fva / 64) (s1.ttag th) (s1.readLine h)).runnable th).takeHeld th) := by
  simp [execIcacheFill, hwait, hstate, hfetch]

theorem execIcacheFill_fault (hfetch : s.fetchLine th fva = (s1, none)) :
    execIcacheFill th s = .next (s1.threadFault th 0x02 fva) := by
  simp [execIcacheFill, hwait, hstate, hfetch]

end

/-- Settles O13: the fetch translation selects the branch of the fill. -/
theorem instructionCaches : Obligations.InstructionCaches :=
  ⟨fun _ p _ hsees => execIcacheInvalidate_seen hsees p,
    fun _ _ _ _ _ hwait hstate hfetch => execIcacheFill_hit hwait hstate hfetch,
    fun _ _ _ _ hwait hstate hfetch => execIcacheFill_fault hwait hstate hfetch⟩

end Sys2Proof.Machine
end

section
/-! ## Watch lines: evaluation, delivery and the wake of a parked thread (R55 to R59, R252) -/

namespace Sys2Proof.Machine

open Sys2Proof

/-- A second write at a key replaces the first, where both list the key. -/
theorem FMap.set_set_of_ne {α : Type} [DecidableEq α] (d : Nat → α) {k : Nat} {x y : α} (hx : x ≠ d k) (hy : y ≠ d k) :
    ∀ m : FMap α, FMap.set d (FMap.set d m k x) k y = FMap.set d m k y
  | [] => by simp [FMap.set, hx, hy]
  | (k', v) :: r => by
    rcases Nat.lt_trichotomy k k' with hlt | rfl | hgt
    · simp [FMap.set, hlt, hx, hy]
    · simp [FMap.set, hx, hy]
    · simp [FMap.set, Nat.lt_asymm hgt, Nat.ne_of_gt hgt, FMap.set_set_of_ne d hx hy r]

theorem State.setWl_setWl {x y : Watch} (hx : x.state ≠ 0) (hy : y.state ≠ 0) (s : State) (w : Nat) :
    (s.setWl w x).setWl w y = s.setWl w y :=
  congrArg (fun m => { s with watch := m }) (FMap.set_set_of_ne _ (fun h => hx (congrArg Watch.state h))
    (fun h => hy (congrArg Watch.state h)) s.watch)

/-! ### The wake of a parked thread -/

theorem Thread.wake_setReg (x : Thread) (d : BitVec 5) (v : Word) : (x.setReg d v).wake = x.wake := by
  rw [Thread.setReg_with]

theorem Thread.held_setReg (x : Thread) (d : BitVec 5) (v : Word) : (x.setReg d v).held = x.held := by
  rw [Thread.setReg_with]

/-- What a status word leaves of the thread's record: the register, and perhaps a status trap (R232). -/
theorem State.thr_writeStatus (s : State) (t : Nat) (r : BitVec 5) (v : Word) :
    ∃ held, (s.writeStatus t r v).thr t = { (s.thr t).setReg r v with held := held } :=
  ⟨_, State.thr_setThr_same ..⟩

theorem State.greg_writeStatus (s : State) (t : Nat) (r q : BitVec 5) (v : Word) :
    (s.writeStatus t r v).greg t q = if q = r ∧ q ≠ 0 then v else s.greg t q := by
  obtain ⟨held, h⟩ := s.thr_writeStatus t r v
  rw [State.greg, h]
  exact Thread.reg_setReg ..

theorem State.wake_writeStatus (s : State) (t : Nat) (r : BitVec 5) (v : Word) :
    ((s.writeStatus t r v).thr t).wake = (s.thr t).wake := by
  obtain ⟨held, h⟩ := s.thr_writeStatus t r v
  rw [h]
  exact Thread.wake_setReg ..

/-- No status trap arises where the thread takes none, or where the status is OK (R232). -/
theorem State.held_writeStatus {s : State} {t : Nat} {v : Word}
    (hquiet : s.flag (R.SEQ_THREAD_CFG.TRAP_STATUS t) = false ∨ BitVec.ofNat 4 v.toNat = 0) (r : BitVec 5) :
    ((s.writeStatus t r v).thr t).held = (s.thr t).held := by
  rw [State.writeStatus, State.thr_setThr_same]
  rcases hquiet with h | h <;> simp [h, Thread.held_setReg]

/-- In `u` parked thread `th` of `s` is past its WAIT.W, which wrote the status word `v` (R252); the watch lines and the memory are
those of `s`. -/
structure Woken (s : State) (th : ThreadNo) (v : Word) (u : State) : Prop where
  tstate : u.tstate th = stRunnable
  pc : u.pc th = (s.pc th + 8) % 2 ^ 57
  greg : ∀ r, u.greg th r = if r = (s.thr th).waitReg ∧ r ≠ 0 then v else s.greg th r
  wake : (u.thr th).wake = (s.thr th).wake
  watch : u.watch = s.watch
  memory : SameMemory s u

theorem State.woken_wakeParked {s : State} {th : ThreadNo} {status : Nat} (hstuck : s.stuck th = none)
    (hheld : (s.thr th).held = none)
    (hquiet : s.flag (R.SEQ_THREAD_CFG.TRAP_STATUS th) = false ∨ BitVec.ofNat 4 (statusWord status).toNat = 0) :
    Woken s th (statusWord status) (s.wakeParked th status) := by
  let p := (s.runnable th).setPc th (s.pc th + 8)
  have hthr : p.thr th = { s.thr th with wait := .idle } := State.thr_runnable hstuck
  have hne : R.SEQ_THREAD_CFG.adr th ≠ R.SEQ_THREAD_PC.adr th := by
    simp only [R.SEQ_THREAD_CFG.adr, R.SEQ_THREAD_PC.adr]; omega
  have hcfg : p.reg (R.SEQ_THREAD_CFG.adr th) = s.reg (R.SEQ_THREAD_CFG.adr th) :=
    (State.reg_setFld_ne _ _ hne).trans (State.reg_runnable_ne hstuck (threadCfg_ne_status th th))
  have hquiet' : p.flag (R.SEQ_THREAD_CFG.TRAP_STATUS th) = false ∨ BitVec.ofNat 4 (statusWord status).toNat = 0 :=
    hquiet.imp_left ((congrArg (· != 0) (State.fld_of_reg_eq (f := R.SEQ_THREAD_CFG.TRAP_STATUS th) hcfg)).trans ·)
  have hwake : s.wakeParked th status = p.writeStatus th (s.thr th).waitReg (statusWord status) := by
    have hheld' : ((p.writeStatus th (p.thr th).waitReg (statusWord status)).thr th).held = none := by
      rw [State.held_writeStatus hquiet', hthr]
      exact hheld
    exact (State.takeHeld_of_held_none hheld').trans (by rw [hthr])
  rw [hwake]
  obtain ⟨hrest, -, -, hmem⟩ := State.onlyThread_runnable hstuck
  exact {
    tstate := (State.tstate_setPc _ _ _).trans (State.tstate_runnable hstuck)
    pc := State.pc_setPc_next ..
    greg := fun r => by
      rw [State.greg_writeStatus, State.greg, hthr]
      rfl
    wake := by rw [State.wake_writeStatus, hthr]
    watch := (congrArg State.watch hrest :)
    memory := hmem }

/-! ### Evaluation in LINE mode (R58) -/

/-- In LINE mode every evaluation finds work. -/
theorem State.evaluate_line {s : State} {w : Nat} (hstate : (s.wl w).state = 2 ∨ (s.wl w).state = 3 ∨ (s.wl w).state = 4)
    (hmode : s.flag (R.SEQ_WATCH_CFG.MODE w) = false) (l : Line) : s.evaluate w l = s.watchWork w l := by
  rcases hstate with h | h | h <;> simp [State.evaluate, h, hmode]

/-- Work on a line on which no thread is parked makes it PENDING. -/
theorem State.watchWork_idle {s : State} {w : Nat} (hstate : (s.wl w).state ≠ 4) (l : Line) :
    s.watchWork w l = s.setWl w { s.wl w with state := 3, snap := l } :=
  if_neg hstate

/-- A line's delivery to the thread parked on it, before the thread wakes (R59). -/
def State.delivery (s : State) (w t : Nat) (l : Line) : State :=
  (s.deliverSnap w t l).setWl w { (s.deliverSnap w t l).wl w with state := 2, thread := 0, deadline := 0 }

theorem State.watchWork_parked {s : State} {w t : Nat} (hstate : (s.wl w).state = 4) (hthread : (s.wl w).thread = t) (l : Line) :
    s.watchWork w l = (s.delivery w t l).wakeParked t 0 := by
  subst hthread
  exact if_pos hstate

theorem State.thr_delivery (s : State) (w t : Nat) (l : Line) : (s.delivery w t l).thr t = { s.thr t with wake := l } :=
  State.thr_setThr_same ..

theorem State.wl_delivery (s : State) (w t : Nat) (l : Line) :
    ((s.delivery w t l).wl w).state = 2 ∧ ((s.delivery w t l).wl w).wakes = (s.wl w).wakes + 1 := by
  rw [State.delivery, State.wl_setWl_same, State.deliverSnap, State.delivered, State.wl_setWl_same]
  exact ⟨rfl, rfl⟩

/-! ### Commands -/

theorem execWatchArmed_local {w : Fin 4096} {s : State} (hstate : (s.wl w).state = 1)
    (htarget : s.fld (R.SEQ_WATCH_ADDR.TARGET w) = 0) (hmode : s.flag (R.SEQ_WATCH_CFG.MODE w) = false) :
    execWatchArmed w none s = .next (s.setWl w { s.wl w with state := 2, reading := false }) := by
  simp [execWatchArmed, hstate, htarget, State.watchFirst, hmode]

theorem execWatchArmed_record {w : Fin 4096} {l : Line} {s : State} (hstate : (s.wl w).state = 1)
    (htarget : s.fld (R.SEQ_WATCH_ADDR.TARGET w) ≠ 0) (hmode : s.flag (R.SEQ_WATCH_CFG.MODE w) = true)
    (hvalid : recValid l = true) : execWatchArmed w (some l) s =
      .next (s.setWl w { s.wl w with state := 2, reading := false, lastSeq := l.setWidth 32 }) := by
  simp [execWatchArmed, hstate, htarget, State.watchFirst, hmode, hvalid, recSeq, BitVec.ofNat_toNat]

/-- The report of a write on a line leaves the queue (R55). -/
def State.takeReport (s : State) (w : Nat) : State := { s with reports := s.reports.erase w }

theorem execWatchEvaluate_reported {w : Fin 4096} {s : State} (h : w.val ∈ s.reports) : execWatchEvaluate w s =
    .next ((s.takeReport w).evaluate w (s.readLine (s.fld (R.SEQ_WATCH_ADDR.LINE w)))) := by
  rw [execWatchEvaluate, if_pos (List.contains_iff_mem.mpr h)]
  rfl

theorem execWatchDeadline_passed {w : Fin 4096} {s : State} {t : Nat} (hstate : (s.wl w).state = 4) (hthread : (s.wl w).thread = t)
    (hset : (s.wl w).deadline ≠ 0) (hpassed : (s.wl w).deadline ≤ s.tick) : execWatchDeadline w s =
      .next ((s.setWl w { s.wl w with state := 2, thread := 0, deadline := 0 }).wakeParked t 5) := by
  subst hthread
  simp only [execWatchDeadline]
  rw [if_pos ⟨hstate, hset, hpassed⟩]

theorem execWatchRereadData_line {w : Fin 4096} {s : State} (hreading : (s.wl w).reading = true) (hstate : (s.wl w).state = 2)
    (hmode : s.flag (R.SEQ_WATCH_CFG.MODE w) = false) (l : Line) : execWatchRereadData w (some l) s =
      .next (s.setWl w { s.wl w with reading := false, state := 3, snap := l }) := by
  have hwl : (s.setWl w { s.wl w with reading := false }).wl w = { s.wl w with reading := false } := State.wl_setWl_same ..
  have hidle : ((s.setWl w { s.wl w with reading := false }).wl w).state = 2 := by rw [hwl]; exact hstate
  simp only [execWatchRereadData]
  rw [if_pos ⟨hreading, by omega, by omega⟩, State.evaluate_line (.inl hidle) hmode,
    State.watchWork_idle (by rw [hidle]; decide), hwl, State.setWl_setWl (by simp [hstate]) (by simp)]

theorem execWatchRereadData_error {w : Fin 4096} {s : State} (hreading : (s.wl w).reading = true) (hlo : 2 ≤ (s.wl w).state)
    (hhi : (s.wl w).state ≤ 4) : execWatchRereadData w none s = .next (s.watchError w) := by
  simp only [execWatchRereadData]
  rw [if_pos ⟨hreading, hlo, hhi⟩]

theorem execSnpInv_miss {h : PortNo} {line : BitVec 46} {s : State} (hshared : s.sharedBy h line.toNat = []) :
    execSnpInv h line s = .next (s.send (.snoopRsp h line.toNat false)) := by
  simp [execSnpInv, hshared]

theorem execSnpInv_hit {h : PortNo} {line : BitVec 46} {s : State} {w : Nat} (hshared : s.sharedBy h line.toNat = [w]) :
    execSnpInv h line s = .next
      (((s.send (.snoopRsp h line.toNat true)).setWl w { s.wl w with reading := true }).send (.rdShared h line.toNat)) := by
  simp only [execSnpInv, hshared]
  rfl

/-- Settles O15: each command is the one branch of it that the watch line's state selects; a parked thread wakes as `Woken` says. The
PC that moves on by 8 is the model's reading (log entry 14). -/
theorem watchEventsAndSnoops : Obligations.WatchEventsAndSnoops := by
  refine ⟨fun w s hstate htarget hmode => execWatchArmed_local hstate htarget hmode,
    fun w l s hstate htarget hmode hvalid => execWatchArmed_record hstate htarget hmode hvalid,
    fun w s hreport hstate hmode => ?pending, fun w th s hreport hstate hthread hmode hheld hstuck => ?wakes,
    fun w th s hstate hthread hset hpassed htrap hheld hstuck => ?timeout,
    fun w l s hreading hstate hmode => execWatchRereadData_line hreading hstate hmode l,
    fun w s hreading hlo hhi => execWatchRereadData_error hreading hlo hhi,
    fun h line s => ⟨rfl, rfl, execSnpInv_miss, fun w => execSnpInv_hit⟩⟩
  case pending =>
    have hidle : ((s.takeReport w).wl w).state = 2 := hstate
    refine ⟨(s.takeReport w).setWl w { s.wl w with state := 3, snap := _ }, ?_, rfl, State.wl_setWl_same .., rfl, rfl, rfl⟩
    rw [exec_watchEvaluate, execWatchEvaluate_reported hreport, State.evaluate_line (.inl hidle) hmode,
      State.watchWork_idle (by omega)]
    rfl
  case wakes =>
    let line := s.readLine (s.fld (R.SEQ_WATCH_ADDR.LINE w))
    let s' := s.takeReport w
    let d := s'.delivery w th line
    have hparked : (s'.wl w).state = 4 := hstate
    have hthr : d.thr th = { s.thr th with wake := line } := s'.thr_delivery ..
    obtain ⟨hidle, hwakes⟩ := s'.wl_delivery w th line
    have hwoken : Woken d th (statusWord 0) (d.wakeParked th 0) :=
      State.woken_wakeParked hstuck (by rw [hthr]; exact hheld) (.inr rfl)
    have hwl : (d.wakeParked th 0).wl w = d.wl w := congrArg (FMap.get _ · w) hwoken.watch
    refine ⟨d.wakeParked th 0, ?_, hwoken.wake.trans (by rw [hthr]), hwoken.tstate, hwoken.pc, ?_, by rw [hwl, hidle],
      by rw [hwl, hwakes]; rfl, hwoken.memory⟩
    · rw [exec_watchEvaluate, execWatchEvaluate_reported hreport, State.evaluate_line (.inr (.inr hparked)) hmode,
        State.watchWork_parked hparked hthread]
    · rw [hwoken.greg, hthr]
      split
      next => rfl
      next h => rw [State.greg, Thread.reg, if_pos (by simpa using h)]
  case timeout =>
    let d := s.setWl w { s.wl w with state := 2, thread := 0, deadline := 0 }
    have hwoken : Woken d th (statusWord 5) (d.wakeParked th 5) := State.woken_wakeParked hstuck hheld (.inl htrap)
    have hwl : (d.wakeParked th 5).wl w = d.wl w := congrArg (FMap.get _ · w) hwoken.watch
    refine ⟨d.wakeParked th 5, (exec_watchDeadline ..).trans (execWatchDeadline_passed hstate hthread hset hpassed), ?_,
      hwoken.tstate, hwoken.pc, hwoken.greg, hwoken.wake, hwoken.memory⟩
    rw [hwl, State.wl_setWl_same]

end Sys2Proof.Machine
end

section
/-! ## The limit of watch lines on a host port (R56) -/

namespace Sys2Proof.Machine

open Sys2Proof

/-- In a table that lists a run of numbers under rising keys, each of them is read. -/
theorem FMap.get_map_upFrom {α : Type} (d : Nat → α) {key : Nat → Nat} (hkey : StrictMono key) (v : α) (rest : FMap α) (k : Nat) :
    ∀ n lo, lo ≤ k → k < lo + n → FMap.get d ((upFrom lo n).map (fun i => (key i, v)) ++ rest) (key k) = v
  | 0, lo, hlo, hhi => by omega
  | n + 1, lo, hlo, hhi => by
    rw [upFrom, List.map_cons, List.cons_append, FMap.get, if_neg (Nat.not_lt.mpr (hkey.monotone hlo))]
    split
    next => rfl
    next h =>
      have hne : k ≠ lo := fun e => h (congrArg key e)
      exact FMap.get_map_upFrom d hkey v rest k n (lo + 1) (by omega) (by omega)

theorem length_upFrom : ∀ lo n, (upFrom lo n).length = n
  | _, 0 => rfl
  | lo, n + 1 => congrArg (· + 1) (length_upFrom (lo + 1) n)

/-- What a write of SEQ_WATCH_CFG with ENABLE = 1 does to the register (R57). -/
def State.enableWatch (s : State) (w mode part : Nat) : State :=
  ((s.setFld (R.SEQ_WATCH_CFG.MODE w) mode).setFld (R.SEQ_WATCH_CFG.PART w) part).setFld (R.SEQ_WATCH_CFG.ENABLE w) 1

theorem State.reg_enableWatch_ne (s : State) {w o : Nat} (mode part : Nat) (h : o ≠ R.SEQ_WATCH_CFG.adr w) :
    (s.enableWatch w mode part).reg o = s.reg o := by
  rw [State.enableWatch, State.reg_setFld_ne _ _ h, State.reg_setFld_ne _ _ h, State.reg_setFld_ne _ _ h]

/-- A host line enters ERROR where its port holds 1,024 lines once the register is written. -/
theorem execWatchEnable_full {via : Via} {w : Fin 4096} {mode : Bool} {part : PartNo} {s : State}
    (hsees : s.sees via (R.SEQ_WATCH_CFG.adr w) true = true) (henable : s.flag (R.SEQ_WATCH_CFG.ENABLE w) = false)
    (htarget : s.fld (R.SEQ_WATCH_ADDR.TARGET w) ≠ 0)
    (hfull : 1024 ≤ (s.enableWatch w (b2n mode) part).watchCount (s.fld (R.SEQ_WATCH_ADDR.TARGET w) - 1)) :
    execWatchEnable via w mode part s = .next (((s.enableWatch w (b2n mode) part).setWl w
      { state := 5, lastSeq := (s.wl w).lastSeq }).raise R.SEQ_EVENTS.WATCH_ERROR) := by
  rw [State.enableWatch] at hfull
  rw [execWatchEnable, State.gate_seen hsees]
  simp only [henable, Bool.false_eq_true, ↓reduceIte, htarget, hfull, decide_true, Bool.true_or, Bool.not_true, Bool.and_false]
  rfl

/-- Host port 0 up with the 1,023 watch lines 1 to 1,023, line 0 not enabled, and an entry in the table of watch lines for the number
4,096, which no watch line has. -/
def nearLimit : State :=
  { State.reset with
    regs := (upFrom 0 1024).map (fun w => (R.SEQ_WATCH_ADDR.adr w, 1#64)) ++
      [(R.HST_PORT_CFG.adr 0, 0x800#64), (R.HST_PORT_STATUS.adr 0, 0x82#64)]
    watch := (upFrom 1 1023).map (fun w => (w, { state := 1 })) ++ [(4096, { state := 1 })] }

theorem nearLimit_target {w : Nat} (h : w < 1024) : nearLimit.fld (R.SEQ_WATCH_ADDR.TARGET w) = 1 := by
  have hreg : nearLimit.reg (R.SEQ_WATCH_ADDR.adr w) = 1#64 :=
    FMap.get_map_upFrom regDefault (key := R.SEQ_WATCH_ADDR.adr)
      (fun a b hab => by simp only [R.SEQ_WATCH_ADDR.adr]; omega) 1#64 _ w 1024 0 (Nat.zero_le w) (by omega)
  simp [State.fld, R.SEQ_WATCH_ADDR.TARGET, hreg, getBits]

/-- Line 0 is not enabled, the port can hold it, and the register of number 4,096 shows target 0. -/
theorem nearLimit_port : nearLimit.flag (R.SEQ_WATCH_CFG.ENABLE 0) = false ∧ nearLimit.cacheUp 0 = true ∧
    nearLimit.fld (R.SEQ_WATCH_ADDR.TARGET 4096) = 0 := by
  decide +kernel

theorem nearLimit_enabled_past : (nearLimit.enableWatch 0 0 0).fld (R.SEQ_WATCH_ADDR.TARGET 4096) = 1 := by
  decide +kernel

theorem length_watch_nearLimit : nearLimit.watch.length = 1024 := by
  rw [nearLimit, List.length_append, List.length_map, length_upFrom]
  rfl

theorem watchCount_nearLimit : nearLimit.watchCount 0 < 1024 := by
  rw [← length_watch_nearLimit]
  refine List.length_filter_lt_length_iff_exists.mpr ⟨(4096, { state := 1 }), by simp [nearLimit], ?_⟩
  simp [nearLimit_port.2.2]

/-- With line 0 enabled, number 4,096 counts as well. -/
theorem watchCount_nearLimit_enabled : (nearLimit.enableWatch 0 0 0).watchCount 0 = 1024 := by
  rw [← length_watch_nearLimit]
  refine congrArg List.length (List.filter_eq_self.mpr fun e he => ?_)
  rcases List.mem_append.mp he with he | he
  · obtain ⟨w, hw, rfl⟩ := List.mem_map.mp he
    have hlt := mem_upFrom 1 1023 w hw
    have hreg : (nearLimit.enableWatch 0 0 0).reg (R.SEQ_WATCH_ADDR.adr w) = nearLimit.reg (R.SEQ_WATCH_ADDR.adr w) :=
      State.reg_enableWatch_ne _ _ _ (by simp only [R.SEQ_WATCH_ADDR.adr, R.SEQ_WATCH_CFG.adr]; omega)
    have htarget := (State.fld_of_reg_eq (f := R.SEQ_WATCH_ADDR.TARGET w) hreg).trans (nearLimit_target (by omega))
    simp [htarget]
  · obtain rfl := List.mem_singleton.mp he
    simp [nearLimit_enabled_past]

/-- Refutes O14: its second clause counts the port's lines before the write and lets the table of watch lines list any number. In
`nearLimit`, 1,023 lines count, and the entry of number 4,096 comes to count with the write itself, since the model reads its
target in SEQ_WATCH_CFG of line 0: line 0 enters ERROR instead of ARMING. A table that lists watch lines alone (below 4,096) has no
such entry. -/
theorem not_watchConfiguration : ¬ Obligations.WatchConfiguration := by
  intro h
  obtain ⟨hdisabled, hup, -⟩ := nearLimit_port
  have htarget : nearLimit.fld (R.SEQ_WATCH_ADDR.TARGET 0) = 1 := nearLimit_target (by omega)
  obtain ⟨-, hhost, -⟩ := h .jtag 0 false 0 nearLimit rfl
  obtain ⟨u, hexec, hwl, -⟩ := hhost hdisabled (by simp [htarget]) (by simp [htarget])
    (by simpa [htarget] using watchCount_nearLimit) (by simpa [htarget] using hup)
  have hfull := execWatchEnable_full (via := .jtag) (w := 0) (mode := false) (part := 0) (s := nearLimit) rfl hdisabled
    (by simp [htarget]) (by simpa [htarget, b2n] using watchCount_nearLimit_enabled.ge)
  obtain rfl := Host.Outcome.next.inj (hfull.symm.trans hexec)
  rw [State.raise, State.wl, State.watch_setFld, ← State.wl, State.wl_setWl_same] at hwl
  exact absurd (congrArg Watch.state hwl) (by decide)

end Sys2Proof.Machine
end

section
/-! ## Translations (R85, R88, R89, R98, R99) -/

namespace Sys2Proof.Machine

open Sys2Proof

/-! Sparse tables and fields. -/

theorem FMap.mem_drop {α : Type} {q : Nat → Bool} {m : FMap α} {e : Nat × α} :
    e ∈ FMap.drop q m ↔ e ∈ m ∧ q e.1 = false := by
  simp [FMap.drop]

theorem FMap.not_mem_keys_drop {α : Type} {q : Nat → Bool} {k : Nat} (h : q k = true) (m : FMap α) :
    k ∉ FMap.keys (FMap.drop q m) := by
  intro hk
  obtain ⟨e, he, rfl⟩ := List.mem_map.mp hk
  exact absurd ((FMap.mem_drop.mp he).2.symm.trans h) (by decide)

/-- Setting a listed field changes no other. -/
theorem OnlyFields.setFld {fs : List Field} {s u : State} (h : OnlyFields fs s u) {f : Field} (hmem : f ∈ fs)
    (hfits : f.lo + f.w ≤ 64) (v : Nat) : OnlyFields fs s (u.setFld f v) :=
  fun g hg => (u.fld_setFld_apart f g v hfits (hg f hmem)).trans (h g hg)

/-! Invalidation (R88). -/

/-- The scope of an invalidation of a whole partition is every key of its tags. -/
theorem inScope_none (k p : Nat) : inScope k p none = true ↔ k / 2 ^ 44 / 1024 = p := by
  simp [inScope]

/-- The translations in the scope of an invalidation are dropped, and no drain is under way. -/
def State.dropXlt (s : State) (p : Nat) (fva : Option Nat) : State :=
  { s with xlt := { s.xlt with late := false, tlb := FMap.drop (fun k => inScope k p fva) s.xlt.tlb,
                               walk := FMap.drop (fun k => inScope k p fva) s.xlt.walk } }

/-- No key of the partition is left in the TLB or the walk cache. -/
theorem State.not_mem_keys_dropXlt (s : State) {k p : Nat} (h : k / 2 ^ 44 / 1024 = p) :
    k ∉ FMap.keys (s.dropXlt p none).xlt.tlb ∧ k ∉ FMap.keys (s.dropXlt p none).xlt.walk := by
  have hscope := (inScope_none k p).mpr h
  exact ⟨FMap.not_mem_keys_drop (q := fun k => inScope k p none) hscope _,
    FMap.not_mem_keys_drop (q := fun k => inScope k p none) hscope _⟩

/-- The TLB's entries of other partitions stay. -/
theorem State.mem_tlb_dropXlt (s : State) {e : Nat × BitVec 128} {p : Nat} (h : e.1 / 2 ^ 44 / 1024 ≠ p) :
    e ∈ (s.dropXlt p none).xlt.tlb ↔ e ∈ s.xlt.tlb := by
  have hscope : inScope e.1 p none = false := Bool.eq_false_iff.mpr fun hin => h ((inScope_none e.1 p).mp hin)
  exact (FMap.mem_drop (q := fun k => inScope k p none)).trans (and_iff_left hscope)

/-- XLT_TLB_INV_STATUS shows an invalidation that has ended, in time. -/
def State.showInvDone (s : State) : State :=
  ((s.setFld R.XLT_TLB_INV_STATUS.DONE 0).setFld R.XLT_TLB_INV_STATUS.LATE 0).raise R.XLT_TLB_INV_STATUS.DONE

theorem State.onlyFields_showInvDone (s : State) :
    OnlyFields [R.XLT_TLB_INV_STATUS.DONE, R.XLT_TLB_INV_STATUS.LATE] s s.showInvDone := by
  have h0 : OnlyFields [R.XLT_TLB_INV_STATUS.DONE, R.XLT_TLB_INV_STATUS.LATE] s s := fun _ _ => rfl
  exact ((h0.setFld (by simp) (by decide) 0).setFld (by simp) (by decide) 0).setFld (by simp) (by decide) 1

theorem State.done_showInvDone (s : State) : s.showInvDone.flag R.XLT_TLB_INV_STATUS.DONE = true := by
  rw [State.flag, State.showInvDone, State.raise, State.fld_setFld_same _ _ _ (by decide)]
  rfl

theorem State.late_showInvDone (s : State) : s.showInvDone.flag R.XLT_TLB_INV_STATUS.LATE = false := by
  rw [State.flag, State.showInvDone, State.raise, State.fld_setFld_apart _ _ _ _ (by decide) (by decide),
    State.fld_setFld_same _ _ _ (by decide)]
  rfl

/-- With no host write held there is none to translate again (R99). -/
theorem State.retryCovered_of_held_nil {s : State} (h : s.xlt.held = []) (p : Nat) (fva : Option Nat) :
    s.retryCovered p fva = s := by
  rw [State.retryCovered, h, List.foldl_nil]

/-- An invalidation without a drain, where no host write is held. -/
theorem State.tlbInvalidate_idle {s : State} (hbusy : s.flag R.XLT_TLB_INV_STATUS.BUSY = false) (hheld : s.xlt.held = [])
    (p : Nat) (fva : Option Nat) : s.tlbInvalidate p fva false = (s.dropXlt p fva).showInvDone := by
  have hidle : (((s.dropXlt p fva).setFld R.XLT_TLB_INV_STATUS.DONE 0).setFld R.XLT_TLB_INV_STATUS.LATE 0).flag
      R.XLT_TLB_INV_STATUS.BUSY = false := by
    rw [State.flag, State.fld_setFld_apart _ _ _ _ (by decide) (by decide),
      State.fld_setFld_apart _ _ _ _ (by decide) (by decide)]
    exact hbusy
  rw [State.dropXlt] at hidle
  simp only [State.tlbInvalidate, Bool.false_eq_true, if_false, hidle]
  exact State.retryCovered_of_held_nil (s := (s.dropXlt p fva).showInvDone) hheld p fva

section
variable {via : Via} {s : State}

theorem execTlbInvalidate_idle (hsees : s.sees via R.XLT_TLB_INV.adr true = true)
    (hbusy : s.flag R.XLT_TLB_INV_STATUS.BUSY = false) (hheld : s.xlt.held = []) (p : PartNo) :
    execTlbInvalidate via p false false s = .next (s.dropXlt p none).showInvDone := by
  rw [execTlbInvalidate, State.gate_seen hsees]
  simp only [hbusy, Bool.false_eq_true, if_false, State.tlbInvalidate_idle hbusy hheld]

theorem execTlbInvalidate_busy (hsees : s.sees via R.XLT_TLB_INV.adr true = true)
    (hbusy : s.flag R.XLT_TLB_INV_STATUS.BUSY = true) (p : PartNo) (scope drain : Bool) :
    execTlbInvalidate via p scope drain s = .next (s.raise R.XLT_EVENTS.INV_BUSY) := by
  rw [execTlbInvalidate, State.gate_seen hsees, if_pos hbusy]

/-! Commands to a suspended descriptor (R98). -/

/-- The descriptor started last is suspended: the command changes it. -/
theorem State.faultCmd_suspended (hsees : s.sees via R.XLT_FAULT_CMD.adr true = true) {k : Nat} {pre : List SkdRun} {r : SkdRun}
    (hrun : (s.skid k).run = pre ++ [r]) (hsuspended : r.suspended.isSome = true) (f : SkdRun → SkdRun) :
    s.faultCmd via k f = s.setSkid k { s.skid k with run := pre ++ [f r] } := by
  have hsus : s.isSuspended k = true := by rw [State.isSuspended, hrun, List.getLast?_concat]; exact hsuspended
  have hrev : (s.skid k).run.reverse = r :: pre.reverse := by rw [hrun, List.reverse_concat]
  rw [State.faultCmd, State.gate_seen hsees, if_pos hsus]
  simp only [State.updRun, hrev, List.reverse_cons, List.reverse_reverse]

/-- No descriptor is started: the command is discarded. -/
theorem State.faultCmd_none (hsees : s.sees via R.XLT_FAULT_CMD.adr true = true) {k : Nat} (hrun : (s.skid k).run = [])
    (f : SkdRun → SkdRun) : s.faultCmd via k f = s.raise R.XLT_EVENTS.CMD_DENY := by
  have hsus : s.isSuspended k = false := by rw [State.isSuspended, hrun]; rfl
  rw [State.faultCmd, State.gate_seen hsees, if_neg (by simp [hsus])]

end

/-! Walks (R85) and the end of a hold (R99). -/

section
variable {th : ThreadNo} {fva : BitVec 64} {s s1 : State}

theorem execPageWalk_leaf {l : Leaf} (hrun : s.tstate th = stRunnable) (hleaf : s.leafOf (s.ttag th) fva.toNat = (s1, .inr l))
    (acc : Acc) : execPageWalk th fva acc s = .next s1 := by
  rw [execPageWalk, if_neg (not_not_intro (.inl hrun)), hleaf]

theorem execPageWalk_fault {x : XFault} (hrun : s.tstate th = stRunnable)
    (hleaf : s.leafOf (s.ttag th) fva.toNat = (s1, .inl x)) (acc : Acc) :
    execPageWalk th fva acc s = .next (s1.threadXlateFault th x acc fva.toNat) := by
  rw [execPageWalk, if_neg (not_not_intro (.inl hrun)), hleaf]

end

/-- The oldest held write, at the end of its hold, is translated a last time. -/
theorem execMigHoldExpire_due {key : Fin 32768} {t : Nat} {rest : List (Nat × Nat)} {s : State}
    (hheld : s.xlt.held = (key.val, t) :: rest) (hdue : t + s.fld R.XLT_CTL.MIG_HOLD ≤ s.tick) :
    execMigHoldExpire key s = .next (s.retryHeld key true) := by
  simp only [execMigHoldExpire, hheld, List.find?_cons, beq_self_eq_true, if_pos hdue]

/-- Settles O23, a clause at a time: the walk, the invalidation, the commands to a suspended descriptor, the end of a hold. -/
theorem translations : Obligations.Translations := by
  refine ⟨fun th fva acc s s1 l hrun hleaf => execPageWalk_leaf hrun hleaf acc,
    fun th fva acc s s1 x hrun hleaf => execPageWalk_fault hrun hleaf acc, fun via p s hsees hbusy hheld => ?_,
    fun via p scope drain s hsees hbusy => execTlbInvalidate_busy hsees hbusy p scope drain,
    fun via k s pre r hsees hrun hsus => ?_, fun via k s hsees hrun => ?_,
    fun key t rest s hheld hdue => execMigHoldExpire_due hheld hdue⟩
  · exact ⟨_, execTlbInvalidate_idle hsees hbusy hheld p, fun k hk => s.not_mem_keys_dropXlt hk,
      fun e he => s.mem_tlb_dropXlt he, State.done_showInvDone _, State.late_showInvDone _, fun _ => rfl,
      (s.dropXlt p none).onlyFields_showInvDone⟩
  · exact ⟨congrArg Host.Outcome.next (State.faultCmd_suspended hsees hrun hsus _),
      congrArg Host.Outcome.next (State.faultCmd_suspended hsees hrun hsus _)⟩
  · exact ⟨congrArg Host.Outcome.next (State.faultCmd_none hsees hrun _),
      congrArg Host.Outcome.next (State.faultCmd_none hsees hrun _)⟩

end Sys2Proof.Machine
end

section
/-! ## Fabric instructions (R64, R98, R233, R235, R239) -/

namespace Sys2Proof.Machine

open Sys2Proof

/-! Traps leave no thread waiting. -/

/-- A fault record changes registers of the partition's page alone: its ring's index, or its overflow flag. -/
theorem State.fld_ringRecord (s : State) {p : Nat} (rec : Nat) {g : Field} (hidx : g.off ≠ R.PRT_FAULT_IDX.adr p)
    (hstatus : g.off ≠ R.PRT_STATUS.adr p) : (s.ringRecord p rec).fld g = s.fld g := by
  unfold State.ringRecord
  dsimp only
  split
  · exact State.fld_of_reg_eq (State.reg_setFld_ne _ _ hstatus)
  · refine List.foldlRecOn (motive := fun u : State => u.fld g = s.fld g) _ _ ?_ fun u hu n _ => ?_
    · refine (State.fld_of_reg_eq (State.reg_setFld_ne _ _ hidx)).trans ?_
      rw [State.fld_report, State.fld_putBytes]
    · split
      · rw [State.msix_frame]; exact hu
      · exact hu

/-- A fault record leaves the states of threads. -/
theorem State.tstate_ringRecord (s : State) (p : PartNo) (rec : Nat) (th : ThreadNo) :
    (s.ringRecord p rec).tstate th = s.tstate th :=
  s.fld_ringRecord rec
    (by simp only [R.SEQ_THREAD_STATUS.STATE, R.SEQ_THREAD_STATUS.adr, R.PRT_FAULT_IDX.adr]; omega)
    (by simp only [R.SEQ_THREAD_STATUS.STATE, R.SEQ_THREAD_STATUS.adr, R.PRT_STATUS.adr]; omega)

theorem State.tstate_enterFaulted (s : State) (t cause : Nat) : (s.enterFaulted t cause).tstate t = stFaulted :=
  (State.fld_setFld_apart _ _ _ _ (by simp [R.SEQ_THREAD_STATUS.CAUSE])
    (by simp [R.SEQ_THREAD_STATUS.STATE, R.SEQ_THREAD_STATUS.CAUSE])).trans (State.tstate_setTState ..)

theorem State.tstate_threadFault (s : State) (th : ThreadNo) (cause info : Nat) :
    (s.threadFault th cause info).tstate th = stFaulted :=
  (State.tstate_ringRecord _ ⟨s.tpart th, s.fld_lt _⟩ _ th).trans (s.tstate_enterFaulted th cause)

/-- A trap ends in the handler, where the thread is RUNNABLE, or in FAULTED (R64). -/
theorem State.tstate_trap (s : State) (th : ThreadNo) (cause info : Nat) :
    (s.trap th cause info).tstate th = stRunnable ∨ (s.trap th cause info).tstate th = stFaulted := by
  unfold State.trap
  dsimp only
  split
  · exact .inr (s.tstate_threadFault th _ _)
  split
  · exact .inr (s.tstate_threadFault th _ _)
  · exact .inl ((State.tstate_setPc ..).trans (State.tstate_setTState ..))

/-- An instruction that traps counts as issued (Table 17.1). -/
theorem State.countIssued_trap (s0 s : State) (th : ThreadNo) (cause info : Nat) :
    s0.countIssued (s.trap th cause info) th = (s.trap th cause info).tally 1880 :=
  s0.countIssued_of_state _ th (by rcases s.tstate_trap th cause info with h | h <;> rw [h] <;> decide)

/-! A request's ways (R98, R106). -/

/-- A request that is sent leaves its result registers pending and the PC past the instruction. -/
theorem State.fabricOp_of_sends {s t : State} {th : ThreadNo} {r : Req} {acc : Acc} (h : Sends s r acc t) :
    s.fabricOp th r acc = (t.setThr th ((t.thr th).addPend (r.dest.mask ||| regMask r.st))).advance th := by
  obtain ⟨x, s1, hxlate, hsent⟩ := h
  simp only [State.fabricOp, hxlate, hsent]

/-- A request whose translation fails faults its thread. -/
theorem State.fabricOp_of_fault {s t : State} {th : ThreadNo} {r : Req} {acc : Acc} {x : XFault}
    (h : s.translate r.tag r.fva acc = (t, .fault x)) : s.fabricOp th r acc = t.threadXlateFault th x acc r.fva := by
  simp only [State.fabricOp, h]

/-! The rows. -/

/-- What a fabric instruction does once it issues: a trap where its FVA is misaligned, else its request. -/
def FabricRow.work (e : FabricRow) (th : ThreadNo) (f : Insn) (s : State) : State :=
  if e.fva s th f % e.align f ≠ 0 then s.trap th 0x03 (e.fva s th f) else s.fabricOp th (e.req s th f) e.acc

/-- Each fabric instruction is an instruction of its row's opcode, checks and registers, which does its row's work; its request is
under the thread's tag, for the row's FVA. -/
theorem exec_fabricRow {e : FabricRow} (he : e ∈ fabricRows) (th : ThreadNo) (f : Insn) (s : State) :
    exec (e.make th f) s = .next (s.insn th e.opc f (e.bad f) (e.need f) (e.work th f)) ∧
      (e.req s th f).tag = s.ttag th ∧ (e.req s th f).fva = e.fva s th f := by
  simp only [fabricRows, List.mem_cons, List.not_mem_nil, or_false] at he
  obtain rfl | rfl | rfl | rfl | rfl | rfl | rfl | rfl := he
  case inl | inr.inl | inr.inr.inl | inr.inr.inr.inl | inr.inr.inr.inr.inl => exact ⟨rfl, rfl, rfl⟩
  -- INVL, OWN.ACQ and OWN.REL take any FVA: an alignment of one byte.
  all_goals
    refine ⟨?_, rfl, rfl⟩
    unfold FabricRow.work
    simp only [Nat.mod_one, ne_eq, not_true, if_false]
    rfl

/-- Settles O25: an instruction that issues does its row's work, which is one of a trap, a request sent, and a fault. -/
theorem fabricInstructions : Obligations.FabricInstructions := by
  intro e he th f s hissues hgood
  obtain ⟨hexec, htag, hfva⟩ := exec_fabricRow he th f s
  rw [State.insn_issues s th e.opc f _ _ _ hissues hgood, FabricRow.work] at hexec
  refine ⟨fun t haligned hsends => ?_, fun hmis => ?_, fun t x haligned hfault => ?_⟩
  · rw [hexec, if_neg (not_not_intro haligned), State.fabricOp_of_sends hsends, sentOn]
  · rw [hexec, if_pos hmis, State.countIssued_trap]
  · rw [← htag, ← hfva] at hfault
    rw [hexec, if_neg (not_not_intro haligned), State.fabricOp_of_fault hfault, hfva]

end Sys2Proof.Machine
end

section
/-! ## What sending a packet leaves of module memory (R66, R141, R361, R362, R397) -/

namespace Sys2Proof.Machine

open Sys2Proof

/-- HBM and its poison marks stand in `t` as in `s`. -/
def KeepsLines (s t : State) : Prop := t.hbm = s.hbm ∧ t.poison = s.poison

theorem KeepsLines.refl (s : State) : KeepsLines s s := ⟨rfl, rfl⟩

theorem KeepsLines.trans {s t u : State} (h : KeepsLines s t) (h' : KeepsLines t u) : KeepsLines s u :=
  ⟨h'.1.trans h.1, h'.2.trans h.2⟩

theorem KeepsLines.ite {c : Prop} [Decidable c] {s t u : State} (ht : KeepsLines s t) (hu : KeepsLines s u) :
    KeepsLines s (if c then t else u) := by
  split
  · exact ht
  · exact hu

theorem KeepsLines.byte {s t : State} (h : KeepsLines s t) (a : Nat) : t.byte a = s.byte a := by
  rw [State.byte, h.1, State.byte]

theorem KeepsLines.isPoison {s t : State} (h : KeepsLines s t) (k : Nat) : t.isPoison k = s.isPoison k := by
  rw [State.isPoison, h.2, State.isPoison]

theorem KeepsLines.readLine {s t : State} (h : KeepsLines s t) (k : Nat) : t.readLine k = s.readLine k := by
  rw [State.readLine, State.bytes, funext h.byte, State.readLine, State.bytes]

/-! Alerts and logs. -/

theorem State.keepsLines_count (s : State) (f : Field) (n : Nat) : KeepsLines s (s.count f n) := ⟨rfl, rfl⟩

theorem State.keepsLines_alarm (s : State) (i : Nat) : KeepsLines s (s.alarm i) := by
  obtain ⟨hst, out, h⟩ := s.alarm_frame i
  rw [h]
  exact ⟨rfl, rfl⟩

theorem State.keepsLines_event (s : State) (f : Field) (i : Nat) : KeepsLines s (s.event f i) :=
  (s.raise f).keepsLines_alarm i

theorem State.keepsLines_faultLog (s : State) (code tag kind number info0 info1 : Nat) :
    KeepsLines s (s.faultLog code tag kind number info0 info1) := by
  unfold State.faultLog State.logAdvance
  dsimp only
  split
  · exact .trans ⟨rfl, rfl⟩ (State.keepsLines_alarm _ 10)
  · exact ⟨rfl, rfl⟩

/-! The trace. -/

theorem State.keepsLines_traceRecord (s : State) (r : Line) : KeepsLines s (s.traceRecord r) := by
  unfold State.traceRecord
  dsimp only
  exact .ite (.refl s) (.ite ⟨rfl, rfl⟩ ⟨rfl, rfl⟩)

theorem State.keepsLines_raiseEpoch (s : State) : KeepsLines s s.raiseEpoch := .ite (.refl s) ⟨rfl, rfl⟩

theorem State.keepsLines_capture (s : State) (point dir : Nat) (p : Packet) (marked : Bool) :
    KeepsLines s (s.capture point dir p marked) := by
  unfold State.capture
  refine .ite (.refl s) ?_
  have hfresh : KeepsLines s s.fresh.2 := ⟨rfl, rfl⟩
  have hrecord (c : Prop) [Decidable c] (r : Line) :
      KeepsLines s ((if c then s.fresh.2.raiseEpoch else s.fresh.2).traceRecord r) :=
    .trans (.ite (hfresh.trans (State.keepsLines_raiseEpoch _)) hfresh) (State.keepsLines_traceRecord ..)
  exact .ite ((hrecord _ _).trans (State.keepsLines_traceRecord ..)) (hrecord _ _)

/-! Queues. -/

theorem State.freePool_frame (s : State) (q : QPkt) : s.freePool q = { s with swc := (s.freePool q).swc } := by
  unfold State.freePool
  cases q.point with
  | loc => rfl
  | arr => rfl
  | chan => dsimp only; split <;> rfl

theorem State.keepsLines_freePool (s : State) (q : QPkt) : KeepsLines s (s.freePool q) := by
  rw [s.freePool_frame]
  exact ⟨rfl, rfl⟩

theorem State.keepsLines_holdPkt (s : State) (q : QPkt) : KeepsLines s (s.holdPkt q) := by
  unfold State.holdPkt
  exact .ite ⟨rfl, rfl⟩ ((s.keepsLines_freePool q).trans ⟨rfl, rfl⟩)

theorem State.keepsLines_enqueue (s : State) (q : QPkt) : KeepsLines s (s.enqueue q) := by
  unfold State.enqueue
  exact .ite (s.keepsLines_holdPkt q) ⟨rfl, rfl⟩

theorem State.keepsLines_toLocal (s : State) (q : QPkt) : KeepsLines s (s.toLocal q) := by
  unfold State.toLocal
  split
  · exact .trans ⟨rfl, rfl⟩ (State.keepsLines_freePool _ q)
  dsimp only
  split
  · exact ⟨rfl, rfl⟩
  · exact .trans (.trans (t := s.localPort.2) ⟨rfl, rfl⟩ (State.keepsLines_capture ..)) ⟨rfl, rfl⟩

theorem State.keepsLines_enterLocal (s : State) (p : Packet) (marked : Bool) (arr : Option Nat) :
    KeepsLines s (s.enterLocal p marked arr).2 := by
  cases arr with
  | some n => exact .refl s
  | none => exact .trans (t := s.localPort.2) ⟨rfl, rfl⟩ (State.keepsLines_capture ..)

/-! The Switch Core. -/

theorem State.keepsLines_carry (s : State) (q : QPkt) (x : Fate) : KeepsLines s (s.carry q x).1 := by
  cases x with
  | link p l dl0 => exact s.keepsLines_enqueue _
  | deliver p =>
    unfold State.carry
    dsimp only
    split
    · exact s.keepsLines_freePool q
    · split
      · exact s.keepsLines_freePool q
      · exact s.keepsLines_toLocal _
  | flood p =>
    unfold State.carry
    dsimp only
    split
    · exact s.keepsLines_freePool q
    · exact s.keepsLines_toLocal _
  | drop p st code ctr =>
    have hfree (f : Field) : KeepsLines s ((s.freePool q).count f) :=
      (s.keepsLines_freePool q).trans (State.keepsLines_count ..)
    have hcounted := KeepsLines.ite (c := ctr = 1) (hfree R.SWC_DISCARDS.HOPS) <|
      .ite (c := ctr = 3) (hfree R.SWC_DISCARDS.BAD_ENC) <|
      .ite (c := ctr = 4) (hfree R.SWC_DISCARDS.ROUTE) (s.keepsLines_freePool q)
    have hevent (t : State) (f : Field) (code tag kind number info0 info1 : Nat) :
        KeepsLines t ((t.linkEvent f).faultLog code tag kind number info0 info1) :=
      (t.keepsLines_event f 2).trans (State.keepsLines_faultLog ..)
    unfold State.carry
    exact hcounted.trans <| .ite (hevent ..) <| .ite (hevent ..) <| .ite (State.keepsLines_faultLog ..) (.refl _)

theorem State.keepsLines_refuse (s : State) (q : QPkt) (status : Nat) : KeepsLines s (s.refuse q status) := by
  unfold State.refuse
  refine .ite (.refl s) ?_
  dsimp only
  exact (s.keepsLines_enterLocal _ false none).trans (State.keepsLines_carry _ _ _)

theorem State.keepsLines_inject (s : State) (q : QPkt) : KeepsLines s (s.inject q) := by
  have hcarry := s.keepsLines_carry q (s.fate q.pkt q.point)
  have hheld (l : List QPkt) : KeepsLines s ({ s with swc := { s.swc with transq := l } }.freePool q) :=
    .trans ⟨rfl, rfl⟩ (State.keepsLines_freePool _ q)
  unfold State.inject
  split
  · exact s.keepsLines_freePool q
  split
  · exact ⟨rfl, rfl⟩
  split
  · exact (hheld _).trans (State.keepsLines_count ..)
  split
  next h => rw [h] at hcarry; exact hcarry
  next h => rw [h] at hcarry; exact hcarry.trans (State.keepsLines_refuse ..)

/-- Sending a packet changes no byte of module memory and no poison mark. -/
theorem State.keepsLines_sendPacket (s : State) (p : Packet) (marked : Bool) (arr : Option Nat) :
    KeepsLines s (s.sendPacket p marked arr) :=
  (s.keepsLines_enterLocal p marked arr).trans (State.keepsLines_inject ..)

theorem State.keepsLines_respond (s : State) (p : Packet) (status payload : Nat) (pz marked : Bool) :
    KeepsLines s (s.respond p status payload pz marked) :=
  s.keepsLines_sendPacket ..

theorem State.takeLocal_frame (s : State) (p : Packet) : s.takeLocal p = { s with swc := (s.takeLocal p).swc } := by
  unfold State.takeLocal
  split
  · rfl
  · rw [State.freePool_frame]

end Sys2Proof.Machine
end

section
/-! ## A request admitted at its home, and what it finds there (R94, R95, R328) -/

namespace Sys2Proof.Machine

open Sys2Proof

/-- In `t` as in `s` stand module memory, the Sieve Table, the ranges behind it, and every register but the Sieve's counts of cached
entries. -/
structure KeepsPlaces (s t : State) : Prop where
  lines : KeepsLines s t
  table : t.siv.table = s.siv.table
  sec : t.sec = s.sec
  fld : ∀ g : Field, (∀ k < 64, g.off ≠ R.SIV_PART_STATUS.adr k) → t.fld g = s.fld g

theorem KeepsPlaces.refl (s : State) : KeepsPlaces s s := ⟨.refl s, rfl, rfl, fun _ _ => rfl⟩

theorem KeepsPlaces.trans {s t u : State} (h : KeepsPlaces s t) (h' : KeepsPlaces t u) : KeepsPlaces s u :=
  ⟨h.lines.trans h'.lines, h'.table.trans h.table, h'.sec.trans h.sec, fun g hg => (h'.fld g hg).trans (h.fld g hg)⟩

theorem KeepsPlaces.sieveEntry {s t : State} (h : KeepsPlaces s t) (i : Nat) : t.sieveEntry i = s.sieveEntry i := by
  rw [State.sieveEntry, h.table, State.sieveEntry]

/-- A protected range is found where it was. -/
theorem KeepsPlaces.rangeAt {s t : State} (h : KeepsPlaces s t) (a : Nat) : t.rangeAt a = s.rangeAt a := by
  have hfield (i lo w : Nat) : t.fld ⟨R.SEC_RANGE.adr i, lo, w⟩ = s.fld ⟨R.SEC_RANGE.adr i, lo, w⟩ :=
    h.fld _ fun k hk => by simp only [R.SEC_RANGE.adr, R.SIV_PART_STATUS.adr]; omega
  simp only [State.rangeAt, R.SEC_RANGE.STATE, R.SEC_RANGE.BASE, R.SEC_RANGE.SIZE, hfield]
  rfl

theorem KeepsPlaces.isSealedLine {s t : State} (h : KeepsPlaces s t) (k : Nat) : t.isSealedLine k = s.isSealedLine k := by
  have hkind (i : Nat) : t.flag (R.SEC_RANGE.KIND i) = s.flag (R.SEC_RANGE.KIND i) := by
    rw [State.flag, State.flag, h.fld _ fun k hk => by
      simp only [R.SEC_RANGE.KIND, R.SEC_RANGE.adr, R.SIV_PART_STATUS.adr]; omega]
  simp only [State.isSealedLine, State.oldRange, h.sec, h.rangeAt, hkind]

/-! The Sieve's cache (R94). -/

theorem State.keepsPlaces_noteCached (s : State) {k : Nat} (hk : k < 64) : KeepsPlaces s (s.noteCached k) :=
  ⟨⟨rfl, rfl⟩, rfl, rfl, fun _ hg => s.fld_setReg_ne _ (hg k hk)⟩

theorem State.keepsPlaces_setCache (s : State) (c : List (Nat × Nat)) :
    KeepsPlaces s { s with siv := { s.siv with cache := c } } :=
  ⟨⟨rfl, rfl⟩, rfl, rfl, fun _ _ => rfl⟩

theorem State.keepsPlaces_cacheTouch (s : State) (key idx : Nat) : KeepsPlaces s (s.cacheTouch key idx) := by
  have hpart (k : Nat) : getBits k 41 6 < 64 := getBits_lt k 41 6
  unfold State.cacheTouch
  dsimp only
  split
  · exact s.keepsPlaces_setCache _
  split
  · split
    · exact s.keepsPlaces_setCache _
    · exact .refl s
  split
  · refine .trans ?_ (State.keepsPlaces_noteCached _ (hpart _))
    split
    next hq =>
      obtain ⟨e, -, rfl⟩ := Option.map_eq_some_iff.mp hq
      exact (s.keepsPlaces_setCache _).trans (State.keepsPlaces_noteCached _ (hpart _))
    next => exact s.keepsPlaces_setCache _
  · exact (s.keepsPlaces_setCache _).trans (State.keepsPlaces_noteCached _ (hpart _))

theorem State.keepsPlaces_sieveUse (s : State) (tag : BitVec 16) (sub line : Nat) : KeepsPlaces s (s.sieveUse tag sub line) := by
  unfold State.sieveUse
  dsimp only
  split
  · split
    · exact s.keepsPlaces_cacheTouch ..
    · exact .refl s
  · exact .refl s

/-! Admission. -/

/-- A request that is admitted has used the Sieve's cache, and done nothing else. -/
theorem State.judgeAt_admitted {s s1 : State} {p : Packet} {pl : Place} (hj : s.judgeAt p = (s1, .inr pl)) :
    s1 = s.sieveUse p.tag p.sub.toNat p.line.toNat := by
  unfold State.judgeAt at hj
  dsimp only at hj
  split at hj
  · simp at hj
  split at hj
  · simp at hj
  split at hj
  · simp at hj
  split at hj
  · split at hj
    · simp at hj
    · exact (congrArg Prod.fst hj).symm
  · exact (congrArg Prod.fst hj).symm

/-- A request that is admitted, and taken, meets its home as it was. -/
theorem State.keepsPlaces_admitted {s s1 : State} {p : Packet} {pl : Place} (hj : s.judgeAt p = (s1, .inr pl)) :
    KeepsPlaces s (s1.takeLocal p) := by
  rw [s1.takeLocal_frame, State.judgeAt_admitted hj]
  obtain ⟨⟨hhbm, hpoison⟩, htable, hsec, hfld⟩ := s.keepsPlaces_sieveUse p.tag p.sub.toNat p.line.toNat
  exact ⟨⟨hhbm, hpoison⟩, htable, hsec, hfld⟩

end Sys2Proof.Machine
end

section
/-! ## Loads of module memory (R102, R120, R131, R138) -/

namespace Sys2Proof.Machine

open Sys2Proof

theorem execReadRequest_of_op {p : Packet} (h : p.op = opREAD) (e : Ecc) (s : State) :
    execReadRequest p e s = .next (s.load p e) := by
  rw [execReadRequest, if_pos h]

theorem execBreadRequest_of_op {p : Packet} (h : p.op = opBREAD) (e : Ecc) (s : State) :
    execBreadRequest p e s = .next (s.load p e) := by
  rw [execBreadRequest, if_pos h]

/-- A load of module memory that is admitted, and behind no store, is performed. -/
theorem State.load_hbm {s s1 : State} {p : Packet} {h i : Nat} (hj : s.judgeAt p = (s1, .inr (.hbm h i)))
    (hbehind : s.behindStore h none p = false) (e : Ecc) : s.load p e = (s1.takeLocal p).loadAt p (.hbm h i) e := by
  simp only [State.load, hj, State.hostFull, State.loadBehind, hbehind, Bool.or_self, Bool.false_eq_true, if_false]

/-- A check that finds a line clean leaves no trace (R346). -/
theorem State.hbmRead_clean (s : State) (h : Nat) (lineNo : Option (Nat × Nat)) : s.hbmRead h .clean lineNo = s := by
  rw [State.hbmRead, ite_self]

theorem State.loadAt_poisoned {s : State} {h : Nat} (hp : s.isPoison h = true) (p : Packet) (i : Nat) :
    s.loadAt p (.hbm h i) .clean = s.respond p sPOISON (s.readLine h).toNat true (s.isSealedLine h) := by
  simp only [State.loadAt, s.hbmRead_clean, hp, if_true]

theorem State.loadAt_sound {s : State} {h : Nat} (hp : s.isPoison h = false) (p : Packet) (i : Nat) :
    s.loadAt p (.hbm h i) .clean =
      let t := (s.shareAt i p).1
      t.sendPacket { p.reply t.feid sOK (t.readLine h).toNat with cacheable := (s.shareAt i p).2 } (t.isSealedLine h) := by
  simp only [State.loadAt, s.hbmRead_clean, hp, Bool.false_eq_true, if_false]

/-- Outside a read-shared region a load is uncacheable. -/
theorem State.shareAt_unshared {s : State} {i : Nat} (hmode : seMode (s.sieveEntry i) ≠ 1) (p : Packet) :
    s.shareAt i p = (s, false) := if_neg hmode

/-- A load by a module of the roster sets its bit in the map that the entry has (R120). -/
theorem State.shareAt_listed {s : State} {i j : Nat} {m : BitVec 64} {p : Packet} (hmode : seMode (s.sieveEntry i) = 1)
    (hroster : s.rosterAt (partOf p.tag) p.src.toNat = some j)
    (hmap : FMap.find s.home.sharers (mapKey i (partOf p.tag)) = some m) :
    s.shareAt i p =
      (s.setSharers (s.home.sharers.put (mapKey i (partOf p.tag)) (m ||| BitVec.ofNat 64 (2 ^ j))), true) := by
  rw [State.shareAt, if_pos hmode, State.share, hroster]
  dsimp only
  rw [hmap]

section
variable {p : Packet} {s s1 : State} {h i : Nat} (hj : s.judgeAt p = (s1, .inr (.hbm h i)))
  (hbehind : s.behindStore h none p = false)
include hj hbehind

/-- A load of a read-shared line that is not poisoned, by a module of the roster. -/
theorem State.load_shared {j : Nat} {m : BitVec 64} (hp : s.isPoison h = false)
    (hmode : seMode ((s1.takeLocal p).sieveEntry i) = 1)
    (hroster : (s1.takeLocal p).rosterAt (partOf p.tag) p.src.toNat = some j)
    (hmap : FMap.find (s1.takeLocal p).home.sharers (mapKey i (partOf p.tag)) = some m) :
    s.load p .clean =
      let t := (s1.takeLocal p).setSharers
        ((s1.takeLocal p).home.sharers.put (mapKey i (partOf p.tag)) (m ||| BitVec.ofNat 64 (2 ^ j)))
      t.sendPacket { p.reply t.feid sOK (t.readLine h).toNat with cacheable := true } (t.isSealedLine h) := by
  have hp' := ((State.keepsPlaces_admitted hj).lines.isPoison h).trans hp
  rw [State.load_hbm hj hbehind, State.loadAt_sound hp', State.shareAt_listed hmode hroster hmap]

/-- A load of an unshared line that is not poisoned. -/
theorem State.load_sound (hmode : seMode (s.sieveEntry i) ≠ 1) (hp : s.isPoison h = false) :
    s.load p .clean = (s1.takeLocal p).respond p sOK (s.readLine h).toNat false (s.isSealedLine h) := by
  have hkeeps := State.keepsPlaces_admitted hj
  rw [State.load_hbm hj hbehind, State.loadAt_sound ((hkeeps.lines.isPoison h).trans hp),
    State.shareAt_unshared (by rwa [hkeeps.sieveEntry]), ← hkeeps.lines.readLine, ← hkeeps.isSealedLine]
  rfl

/-- A load of a poisoned line. -/
theorem State.load_poisoned (hp : s.isPoison h = true) :
    s.load p .clean = (s1.takeLocal p).respond p sPOISON (s.readLine h).toNat true (s.isSealedLine h) := by
  have hkeeps := State.keepsPlaces_admitted hj
  rw [State.load_hbm hj hbehind, State.loadAt_poisoned ((hkeeps.lines.isPoison h).trans hp), hkeeps.lines.readLine,
    hkeeps.isSealedLine]

end

/-- A request that is admitted and answered leaves memory as it was. -/
theorem State.sameMemory_answered {s s1 : State} {p : Packet} {pl : Place} (hj : s.judgeAt p = (s1, .inr pl))
    (status payload : Nat) (pz marked : Bool) : SameMemory s ((s1.takeLocal p).respond p status payload pz marked) :=
  ((State.keepsPlaces_admitted hj).lines.trans (State.keepsLines_respond ..)).byte

/-- READ and BREAD perform the same load. -/
theorem exec_load {p : Packet} {s u : State} (hload : s.load p .clean = u) :
    (p.op = opREAD → exec (.readRequest p .clean) s = .next u) ∧
      (p.op = opBREAD → exec (.breadRequest p .clean) s = .next u) :=
  ⟨fun hop => by rw [exec_readRequest, execReadRequest_of_op hop, hload],
    fun hop => by rw [exec_breadRequest, execBreadRequest_of_op hop, hload]⟩

/-- Settles O29: a load is `loadAt` of the line that the Sieve names, whose branches are the line's poison and the sharer map. That
the answer carries its cacheable bit is the model's choice (log entry 67). -/
theorem loads : Obligations.Loads := by
  refine ⟨fun p s s1 h i j m hj hbehind hp hmode hroster hmap => ?_,
    fun p s s1 h i hj hmode hbehind => ⟨fun hp => ?_, fun hp => ?_⟩⟩
  · exact exec_load (State.load_shared hj hbehind hp hmode hroster hmap)
  · exact ⟨State.sameMemory_answered hj _ _ _ _, exec_load (State.load_sound hj hbehind hmode hp)⟩
  · exact ⟨State.sameMemory_answered hj _ _ _ _, exec_load (State.load_poisoned hj hbehind hp)⟩

end Sys2Proof.Machine
end

section
/-! ## Stores to module memory (R102, R127, R131) -/

namespace Sys2Proof.Machine

open Sys2Proof

/-! Bytes of a line. -/

theorem length_leBytes : ∀ k n : Nat, (leBytes k n).length = k
  | 0, _ => rfl
  | k + 1, n => congrArg (· + 1) (length_leBytes k (n / 256))

theorem getElem?_leBytes : ∀ {k i : Nat} (n : Nat), i < k → (leBytes k n)[i]? = some (BitVec.ofNat 8 (n / 2 ^ (8 * i)))
  | k + 1, 0, n, _ => by simp [leBytes]
  | k + 1, i + 1, n, h => by
    rw [leBytes, List.getElem?_cons_succ, getElem?_leBytes _ (Nat.lt_of_succ_lt_succ h), Nat.div_div_eq_div_mul,
      Nat.mul_succ, Nat.pow_add, Nat.mul_comm 256]

theorem getElem?_lineBytes (l : Line) {i : Nat} (h : i < 64) : (lineBytes l)[i]? = some (lineByte l i) := by
  rw [lineBytes, getElem?_leBytes _ h, lineByte, getBits]
  exact congrArg some (BitVec.eq_of_toNat_eq (by simp only [BitVec.toNat_ofNat, Nat.mod_mod]))

/-! The Home Unit's write. -/

/-- A write of a line that lies in the device changes the bytes written and no others. -/
theorem State.byte_homeWrite (s : State) {h first count : Nat} (data : Line) (poison : Bool) (hline : first + count ≤ 64)
    (hdevice : h < 4500000000) (a : Nat) : (s.homeWrite h first count data poison).byte a =
      if 64 * h + first ≤ a ∧ a < 64 * h + first + count then lineByte data (a - 64 * h) else s.byte a := by
  change (s.putBytes (64 * h + first) (((lineBytes data).drop first).take count)).byte a = _
  have hlength : (((lineBytes data).drop first).take count).length = count := by
    rw [List.length_take, List.length_drop, lineBytes, length_leBytes]
    omega
  split
  next hin =>
    obtain ⟨i, rfl⟩ := Nat.exists_eq_add_of_le hin.1
    have hi : i < count := by omega
    rw [State.byte_putBytes_inside _ _ _ _ (by rw [hlength]; exact hi) (by rw [hlength, hbmBytes]; omega),
      ← Option.some_inj, ← List.getElem?_eq_getElem, List.getElem?_take_of_lt hi, List.getElem?_drop,
      getElem?_lineBytes _ (by omega)]
    congr 2
    omega
  next hout => exact State.byte_putBytes_outside _ _ _ _ (by rw [hlength]; omega)

/-- The written line's poison is as said. -/
theorem State.isPoison_homeWrite_same (s : State) (h first count : Nat) (data : Line) (poison : Bool) :
    (s.homeWrite h first count data poison).isPoison h = poison :=
  FMap.get_set_same ..

/-- Other lines keep their poison. -/
theorem State.isPoison_homeWrite_ne (s : State) {h k : Nat} (hk : k ≠ h) (first count : Nat) (data : Line) (poison : Bool) :
    (s.homeWrite h first count data poison).isPoison k = s.isPoison k := by
  change FMap.get _ (FMap.set _ (s.putBytes _ _).poison h poison) k = _
  rw [FMap.get_set_ne _ _ hk, State.poison_putBytes, State.isPoison]

/-! Stores. -/

/-- An admitted store to a line without a mirror is performed and answered. -/
theorem State.store_hbm {s s1 : State} {p : Packet} {h i : Nat} (hj : s.judgeAt p = (s1, .inr (.hbm h i)))
    (hmir : seMir (s.sieveEntry i) = 0) :
    s.store p = ((s1.takeLocal p).performStore p h).1.respond p ((s1.takeLocal p).performStore p h).2 0 := by
  have hmir' := (congrArg seMir ((State.keepsPlaces_admitted hj).sieveEntry i)).trans hmir
  have hwaits : s.storeWaits i = false := by simp only [State.storeWaits, hmir]; rfl
  rw [State.store, hj]
  dsimp only
  rw [hwaits, State.storeHbm]
  simp only [hmir', Bool.false_eq_true, if_false, OfNat.zero_ne_ofNat, zero_ne_one, State.finish]

/-- Settles O30: the store is `performStore`, one `homeWrite` of the line, and its answer leaves memory as it is. -/
theorem stores : Obligations.Stores := by
  intro p s s1 h i hj _ hmir hline hdevice bad done
  have hkeeps := (State.keepsPlaces_admitted hj).lines
  have hperformed : s.store p = (((s1.takeLocal p).homeWrite h p.first p.bytes p.data (p.pz || bad)).respond p
      (if bad then sPOISON else sOK) 0) := by
    rw [State.store_hbm hj hmir, State.performStore, hkeeps.isPoison]
  have hanswered (status : Nat) := State.keepsLines_respond
    ((s1.takeLocal p).homeWrite h p.first p.bytes p.data (p.pz || bad)) p status 0 false false
  have hdone (c : Instr) (hc : exec c s = .next (s.store p)) : done c := by
    refine ⟨_, hperformed ▸ hc, fun a => ?_, ?_, fun k hk => ?_, rfl⟩
    · rw [(hanswered _).byte, State.byte_homeWrite _ _ _ hline hdevice, hkeeps.byte]
    · rw [(hanswered _).isPoison, State.isPoison_homeWrite_same]
    · rw [(hanswered _).isPoison, State.isPoison_homeWrite_ne _ hk, hkeeps.isPoison]
  refine ⟨fun hop => hdone _ ?_, fun hop => hdone _ ?_, fun hop => hdone _ ?_⟩
  · rw [exec_writeRequest, execWriteRequest, if_pos hop]
  · rw [exec_bwriteRequest, execBwriteRequest, if_pos hop]
  · rw [exec_wbRequest, execWbRequest, if_pos hop]

end Sys2Proof.Machine
end

section
/-! ## Atomics, reductions and ownership (R111, R116, R123) -/

namespace Sys2Proof.Machine

open Sys2Proof

/-- A request that the ledger lets through is performed. -/
theorem State.ledgered_perform {s : State} {p : Packet} {w : Nat}
    (hlook : s.ledgerLook p.ledgerKey p.form p.line.toNat p.sub.toNat p.operandByte = .perform w) (f : State → Nat → State) :
    s.ledgered p f = f s w := by
  simp only [State.ledgered, hlook]

/-- Without a mirror the outcome is recorded and answered at once. -/
theorem State.atomDone_unmirrored {s : State} {p : Packet} {way i status result : Nat}
    (hmir : seMir ((s.record p way status result).sieveEntry i) = 0) (h : Nat) :
    s.atomDone p way h i status result = (s.record p way status result).respond p status result := by
  simp only [State.atomDone, hmir, if_true]

/-- An ATOM of a line that is not poisoned writes the new value, and its RESULT is the old one. -/
theorem State.atomHbm_sound {s : State} {h : Nat} (hp : s.isPoison h = false) (p : Packet) (way i : Nat) :
    s.atomHbm p way h i false =
      let b := p.bmc.toNat
      let ty := getBits b 6 3
      let old := getBits (s.readLine h).toNat (8 * (b % 64)) (8 * typeWidth ty)
      let new := atomNew (getBits b 9 4) ty (typeWidth ty) old (p.payload.toNat % 2 ^ 64) (getBits p.payload.toNat 64 64)
      ((s.touchAtomic h).homeWrite h (b % 64) (typeWidth ty) (BitVec.ofNat 512 (new * 2 ^ (8 * (b % 64)))) p.pz).atomDone
        p way h i sOK old := by
  have hp' : (s.touchAtomic h).isPoison h = false := hp
  simp only [State.atomHbm, hp', Bool.false_eq_true, if_false]
  rfl

/-- A reduction of a line that is not poisoned writes the new lanes. -/
theorem State.redHbm_sound {s : State} {h : Nat} (hp : s.isPoison h = false) (p : Packet) (way i : Nat) :
    s.redHbm p way h i false =
      let b := p.bmc.toNat
      let ty := b / 2 ^ 13
      let new := redLine (p.op - opREDADD) ty (typeWidth ty) (b % 64) (getBits b 6 7) (s.readLine h).toNat p.data.toNat
      ((s.touchAtomic h).homeWrite h (b % 64) (getBits b 6 7) (BitVec.ofNat 512 new) p.pz).atomDone p way h i sOK 0 := by
  have hp' : (s.touchAtomic h).isPoison h = false := hp
  simp only [State.redHbm, hp', Bool.false_eq_true, if_false]
  rfl

/-- An ownership request of an OW granule, by the judgement of Table 6.7. -/
theorem State.ownAt_judged {s : State} {p : Packet} {w i status result owner : Nat}
    (hlook : s.ledgerLook p.ledgerKey p.form p.line.toNat p.sub.toNat p.operandByte = .perform w)
    (hmode : seMode (s.sieveEntry i) = 2)
    (hjudge : ownJudge (p.op == opOWNACQ) (seOwner (s.sieveEntry i)) p.src.toNat = (status, result, owner))
    (done : State → Nat → Nat → Nat → State) :
    s.ownAt p i done = done (if owner = seOwner (s.sieveEntry i) then s else s.setOwner i owner) w status result := by
  simp only [State.ownAt, State.ledgered_perform hlook, hmode, hjudge, ne_eq, not_true, if_false]

/-! The judgement of Table 6.7. -/

theorem ownJudge_acq_free (feid : Nat) : ownJudge true 0xFFFF feid = (sOK, 0, feid) := by
  simp only [ownJudge, true_or, if_true]

theorem ownJudge_acq_held {owner feid : Nat} (hheld : owner ≠ 0xFFFF) (hother : owner ≠ feid) :
    ownJudge true owner feid = (sNORES, owner, owner) := by
  simp only [ownJudge, hheld, hother, or_self, if_true, if_false]

theorem ownJudge_rel_owner (feid : Nat) : ownJudge false feid feid = (sOK, 0, 0xFFFF) := by
  simp only [ownJudge, Bool.false_eq_true, if_true, if_false]

section
variable {p : Packet} {s s1 : State} {h i w : Nat} (hj : s.judgeAt p = (s1, .inr (.hbm h i)))
  (hbusy : s.mirrorBusy h = false)
  (hlook : (s1.takeLocal p).ledgerLook p.ledgerKey p.form p.line.toNat p.sub.toNat p.operandByte = .perform w)
include hj hbusy hlook

theorem State.atomic_hbm (fail : Bool) : s.atomic p fail =
    if p.op = opATOM then (s1.takeLocal p).atomHbm p w h i fail else (s1.takeLocal p).redHbm p w h i fail := by
  simp only [State.atomic, hj, hbusy, Bool.false_eq_true, if_false, State.ledgered_perform hlook]

/-- An ownership request that is judged, recorded and answered. -/
theorem State.ownership_judged {status result owner : Nat} {s3 : State}
    (hmode : seMode ((s1.takeLocal p).sieveEntry i) = 2)
    (hjudge : ownJudge (p.op == opOWNACQ) (seOwner ((s1.takeLocal p).sieveEntry i)) p.src.toNat = (status, result, owner))
    (hset : (if owner = seOwner ((s1.takeLocal p).sieveEntry i) then s1.takeLocal p else (s1.takeLocal p).setOwner i owner) = s3)
    (hmir : seMir ((s3.record p w status result).sieveEntry i) = 0) :
    s.ownership p = (s3.record p w status result).respond p status result := by
  rw [← State.atomDone_unmirrored hmir h, ← hset, State.ownership, hj]
  dsimp only
  rw [hbusy, if_neg Bool.false_ne_true, State.ownAt_judged hlook hmode hjudge]

end

/-- A module's FEID that is not the mark of no owner. -/
theorem src_ne_none {p : Packet} (h : p.src ≠ 0xFFFF) : p.src.toNat ≠ 0xFFFF :=
  fun he => h (BitVec.eq_of_toNat_eq he)

/-- Settles O31: the ledger lets the request through, so it is performed, recorded and, there being no mirror, answered. That an
operand with PZ poisons the line while the answer is OK is the model's reading (log entry 58). -/
theorem atomics : Obligations.Atomics := by
  intro p s s1 h i w hj hbusy hlook s2 s3 b
  refine ⟨fun s4 s5 hop hp hs4 hs5 hmir => ?_, fun s4 s5 hop hp hs4 hs5 hmir => ?_,
    fun s4 hop hmode hmir => ⟨fun hfree hsrc hs4 => ?_, fun hheld hother hs4 => ?_⟩,
    fun s4 hop hmode howner hsrc hs4 hmir => ?_⟩
  · rw [exec_atomRequest, execAtomRequest, if_pos hop, State.atomic_hbm hj hbusy hlook, if_pos hop, State.atomHbm_sound hp]
    subst hs5 hs4
    exact congrArg _ (State.atomDone_unmirrored hmir h)
  · have hred : p.op ≠ opATOM := by rcases hop with hop | hop | hop <;> rw [hop] <;> decide
    rw [exec_redRequest, execRedRequest, if_pos hop, State.atomic_hbm hj hbusy hlook, if_neg hred, State.redHbm_sound hp]
    subst hs5 hs4
    exact congrArg _ (State.atomDone_unmirrored hmir h)
  · subst hs4
    rw [exec_ownAcqRequest, execOwnAcqRequest, if_pos hop]
    refine congrArg _ (State.ownership_judged hj hbusy hlook hmode (owner := p.src.toNat) ?_ (if_neg ?_) hmir)
    · rw [hop, beq_self_eq_true, hfree, ownJudge_acq_free]
    · rw [hfree]; exact src_ne_none hsrc
  · subst hs4
    rw [exec_ownAcqRequest, execOwnAcqRequest, if_pos hop]
    refine congrArg _ (State.ownership_judged hj hbusy hlook hmode ?_ (if_pos rfl) hmir)
    rw [hop, beq_self_eq_true, ownJudge_acq_held hheld hother]
  · subst hs4
    rw [exec_ownRelRequest, execOwnRelRequest, if_pos hop]
    refine congrArg _ (State.ownership_judged hj hbusy hlook hmode (owner := 0xFFFF) ?_ (if_neg ?_) hmir)
    · rw [hop, howner, show (opOWNREL == opOWNACQ) = false from rfl, ownJudge_rel_owner]
    · rw [howner]; exact (src_ne_none hsrc).symm

end Sys2Proof.Machine
end

section
/-! ## Invalidations, mirrors and their copies (R122, R127 to R129) -/

namespace Sys2Proof.Machine

open Sys2Proof

/-! Invalidations (R122). -/

theorem State.sharersOf_zero (s : State) (k : Nat) : s.sharersOf 0 k = [] := by
  have hnone : (upFrom 0 64).filter (fun i => (0 : BitVec 64).getLsbD i) = [] := List.filter_eq_nil_iff.mpr fun i _ => by simp
  rw [State.sharersOf, hnone, List.map_nil]

section
variable {p : Packet} {s s1 : State} {h i : Nat} (hj : s.judgeAt p = (s1, .inr (.hbm h i)))
include hj

/-- An INVL of a line of no mode has nothing to invalidate. -/
theorem State.invl_plain (hmode : seMode ((s1.takeLocal p).sieveEntry i) = 0) :
    s.invl p = (s1.takeLocal p).respond p sOK 0 := by
  simp only [State.invl, hj, hmode, if_true]

/-- An INVL of a read-shared line that no module has loaded is done at once. -/
theorem State.invl_unshared (hmode : seMode ((s1.takeLocal p).sieveEntry i) = 1)
    (hroom : (s1.takeLocal p).home.tracker.length < 1024)
    (hmap : FMap.find (s1.takeLocal p).home.sharers (mapKey i (partOf p.tag)) = none) :
    s.invl p = (s1.takeLocal p).invlDone
      { req := p, entry := i, waiting := [],
        line := (p.inv (s1.takeLocal p).feid (seSize ((s1.takeLocal p).sieveEntry i)) 0 0).line,
        start := (s1.takeLocal p).tick, limit := (s1.takeLocal p).fld (R.SEQ_REQ_TIMEOUT.LOG2 (partOf p.tag)) } := by
  simp only [State.invl, hj, hmode, Nat.not_le.mpr hroom, hmap, Option.getD_none, State.sharersOf_zero, List.foldl_nil, if_true,
    if_false, one_ne_zero, ne_eq, not_true]

/-- An INVL of an owned line is refused. -/
theorem State.invl_owned (hmode : seMode ((s1.takeLocal p).sieveEntry i) = 2) :
    s.invl p = (s1.takeLocal p).respond p sDENY 0 := by
  simp only [State.invl, hj, hmode, if_true, if_false, OfNat.ofNat_ne_zero, OfNat.ofNat_ne_one, ne_eq, not_false_eq_true]

end

theorem execInvRequest_valid {p : Packet} {s : State} (hop : p.op = opINV) (hi : s.intact p = true)
    (hvalid : p.bmcValid = true) : execInvRequest p s =
      let t := (s.takeLocal p).rlcDrop fun l => !l.dirty && p.covers l.home.toNat l.sub.toNat l.line.toNat l.tag
      let meets (q : Packet) := p.covers (t.homeOf q.dst.toNat q.line.toNat) q.sub.toNat q.line.toNat q.tag
      let mark (e : Nat × Slot) := if meets e.2.pkt then (e.1, { e.2 with noFill := true }) else e
      .next (({ t with slots := t.slots.map mark }).respond p sOK 0) := by
  simp only [execInvRequest, hop, hi, hvalid, ne_eq, not_true, Bool.not_true, Bool.false_eq_true, if_false]

/-- A sharer that does not acknowledge with OK fails its INVL. -/
theorem execSharerAck_failed {p : Packet} {s : State} {k : Track} (hk : s.trackFor p = some k) (hi : s.intact p = true)
    (hst : p.status ≠ 0) : execSharerAck p s =
      .next ((((s.takeLocal p).untrack k).raise R.HOM_EVENTS.INVL_FAIL).respond k.req p.status.toNat 0) := by
  simp only [execSharerAck, hk, hi, hst, Bool.not_true, Bool.false_eq_true, if_false, if_true, ne_eq, not_false_eq_true]

/-- A packet answers the request that went to its source with its request tag. -/
theorem Packet.answers_self (p : Packet) : p.answers p.src p.rtag = true := by
  simp only [Packet.answers, beq_self_eq_true, Bool.true_or, Bool.and_self]

/-- The last acknowledgement completes the INVL. -/
theorem execSharerAck_last {p : Packet} {s : State} {k : Track} (hk : s.trackFor p = some k) (hi : s.intact p = true)
    (hst : p.status = 0) (hwaiting : k.waiting = [(p.src, p.rtag)]) :
    execSharerAck p s = .next (((s.takeLocal p).untrack k).invlDone { k with waiting := [] }) := by
  have hleft : k.waiting.filter (fun x => !p.answers x.1 x.2) = [] := by
    simp only [hwaiting, List.filter, p.answers_self, Bool.not_true]
  simp only [execSharerAck, hk, hi, hst, hleft, Bool.not_true, Bool.false_eq_true, if_false, if_true, ne_eq, not_true]

/-! Copies at the mirror (R127, R129). -/

theorem execMcopyRequest_hbm {p : Packet} {s s1 : State} {h i : Nat} (hop : p.op = opMCOPY)
    (hj : s.judgeAt p = (s1, .inr (.hbm h i))) : execMcopyRequest p s = .next
      (if (s1.takeLocal p).acceptsFrom i p.src then
        ((s1.takeLocal p).performStore p h).1.respond p ((s1.takeLocal p).performStore p h).2 0
      else (s1.takeLocal p).respond p sDENY 0) := by
  simp only [execMcopyRequest, hop, hj, ne_eq, not_true, if_false]

theorem execMatomRequest_accepted {p : Packet} {s s1 : State} {h i w : Nat} (hop : p.op = opMATOM)
    (hj : s.judgeAt p = (s1, .inr (.hbm h i))) (haccepts : (s1.takeLocal p).acceptsFrom i p.src = true)
    (hway : (s1.takeLocal p).ledgerWay p.ledgerKey.set = some w) : execMatomRequest p s = .next
      ((((s1.takeLocal p).homeWrite h 0 64 p.data p.pz).record p w (getBits p.payload.toNat 536 4)
        (getBits p.payload.toNat 576 64)).respond p sOK 0) := by
  simp only [execMatomRequest, hop, hj, haccepts, hway, Bool.not_true, Bool.false_eq_true, ne_eq, not_true, if_false]

/-! Acknowledgements at the primary (R127 to R129). -/

section
variable {p : Packet} {s : State} {m : MirrorOp} (hm : s.mirrorFor p = some m) (hi : s.intact p = true)
  (hst : p.status.toNat = sOK)
include hm hi hst

theorem execMirrorAck_store (hkind : m.kind = .store) : execMirrorAck p s = .next
    ((((s.takeLocal p).mirrorGone m).performStore m.req m.hline).1.finish m.port m.req
      (((s.takeLocal p).mirrorGone m).performStore m.req m.hline).2) := by
  simp only [execMirrorAck, hm, hi, hst, hkind, Bool.not_true, Bool.false_eq_true, if_false, true_or, if_true,
    show ¬ sOK = sDENY by decide]

theorem execMirrorAck_atomic {status result : Nat} (hkind : m.kind = .atomic status result) :
    execMirrorAck p s = .next (((s.takeLocal p).mirrorGone m).respond m.req status result) := by
  simp only [execMirrorAck, hm, hi, hst, hkind, Bool.not_true, Bool.false_eq_true, if_false, show ¬ sOK = sDENY by decide]

theorem execMirrorAck_async (hkind : m.kind = .async) :
    execMirrorAck p s = .next ((s.takeLocal p).mirrorGone m).settleWaits.settleClosing := by
  simp only [execMirrorAck, hm, hi, hst, hkind, Bool.not_true, Bool.false_eq_true, if_false, show ¬ sOK = sDENY by decide]

theorem execMirrorAck_engine {who : Nat} (hkind : m.kind = .engine who) : execMirrorAck p s =
    .next (((s.takeLocal p).mirrorGone m).performStore m.req m.hline).1.settleClosing := by
  simp only [execMirrorAck, hm, hi, hst, hkind, Bool.not_true, Bool.false_eq_true, if_false, true_or, if_true,
    show ¬ sOK = sDENY by decide]

end

/-- Settles O32: each command is the one branch of it that the entry's mode, the acknowledgement or the copy's kind selects. That
the stores of the module's own engines are held like a packet's, and their operations with them, is the model's reading (log entries
22 and 67). -/
theorem coherenceAndMirrors : Obligations.CoherenceAndMirrors := by
  refine ⟨fun p s s1 h i hop hj => ⟨fun hmode => ?_, fun hmode hroom hmap => ?_, fun hmode => ?_⟩,
    fun p s s2 hop hvalid hi hs2 => ?_,
    fun p s k hk hi => ⟨fun hst => ?_, fun hst hwaiting => ?_⟩,
    fun p s s1 h i hop hj => ⟨fun haccepts => ?_, fun hrefuses => ?_⟩,
    fun p s s1 h i w hop hj haccepts hway => ?_,
    fun p s m hm hi hst => ⟨fun hkind => ?_, fun st res hkind => ?_, fun hkind => ?_, fun who hkind => ?_⟩⟩
  · rw [exec_invlRequest, execInvlRequest, if_pos hop, State.invl_plain hj hmode]
  · rw [exec_invlRequest, execInvlRequest, if_pos hop, State.invl_unshared hj hmode hroom hmap]
  · rw [exec_invlRequest, execInvlRequest, if_pos hop, State.invl_owned hj hmode]
  · subst hs2
    rw [exec_invRequest, execInvRequest_valid hop hi hvalid]
  · rw [exec_sharerAck, execSharerAck_failed hk hi hst]
  · rw [exec_sharerAck, execSharerAck_last hk hi hst hwaiting]
  · rw [exec_mcopyRequest, execMcopyRequest_hbm hop hj, if_pos haccepts]
  · rw [exec_mcopyRequest, execMcopyRequest_hbm hop hj, if_neg (Bool.eq_false_iff.mp hrefuses)]
  · rw [exec_matomRequest, execMatomRequest_accepted hop hj haccepts hway]
  · rw [exec_mirrorAck, execMirrorAck_store hm hi hst hkind]
  · rw [exec_mirrorAck, execMirrorAck_atomic hm hi hst hkind]
  · rw [exec_mirrorAck, execMirrorAck_async hm hi hst hkind]
  · rw [exec_mirrorAck, execMirrorAck_engine hm hi hst hkind]

end Sys2Proof.Machine
end

section
/-! ## Host memory: flush reads, answers, silence (R102, R317) -/

namespace Sys2Proof.Machine

open Sys2Proof

/-! Flush reads (R102). -/

/-- A flush read of the one write that waits for one. -/
theorem completes_hostFlushRead_single {h : PortNo} {s : State} {w : HostWrite} (hw : s.home.hostWrites = [w])
    (hport : w.port = h) (hbatch : w.batch = 0) (hroom : s.nonPosted h < 1024) :
    Completes (.hostFlushRead h) s fun u => u.home.hostWrites = [{ w with batch := s.home.nextBatch }]
      ∧ u.home.flushes = s.home.flushes ++ [{ port := h, batch := s.home.nextBatch, start := s.tick }]
      ∧ u.home.nextBatch = s.home.nextBatch + 1 ∧ u.regs = s.regs ∧ u.hbm = s.hbm := by
  have hdue : (w.port == h.val && w.batch == 0) = true := by rw [hport, hbatch, beq_self_eq_true, beq_self_eq_true, Bool.and_self]
  refine ⟨_, rfl, ?_⟩
  simp only [hw, List.filter, hdue, List.take, Nat.not_le.mpr hroom, if_false, List.foldl, List.nil_append,
    Nat.zero_lt_succ, decide_true, Bool.and_self, if_true, State.home_send, State.tick_send, State.regs_send,
    State.hbm_send, and_self]

section
variable {h : PortNo} {s : State} {f : Flush} (hf : s.home.flushes.find? (fun f => f.port == h.val) = some f)
include hf

theorem execHostFlushCompletion_success (d : Line) :
    execHostFlushCompletion h (.success false d) s = .next (s.batchDone f sOK) := by
  simp only [execHostFlushCompletion, hf, State.poisonCame, Bool.false_eq_true, if_false]

theorem execHostFlushCompletion_unsupported : execHostFlushCompletion h .unsupported s = .next (s.batchDone f sHOST) := by
  simp only [execHostFlushCompletion, hf]

theorem execHostFlushCompletion_abort : execHostFlushCompletion h .abort s = .next (s.batchDone f sHOST) := by
  simp only [execHostFlushCompletion, hf]

theorem execHostCompletionTimeout_flush (hpast : s.ctoPast h f.start = true) (hpa : Nat) :
    execHostCompletionTimeout h true hpa s = .next ((s.raise (R.HST_EVENTS.HOST_CTO h)).batchDone f sHOST) := by
  simp only [execHostCompletionTimeout, hf, hpast, if_true]

end

/-! Requests (R317). -/

theorem execHostCompletion_success {h : PortNo} {hpa : Nat} {s : State} {r : HostReq} (hr : s.hostReqAt h hpa = some r)
    (bad : Bool) (d : Line) :
    execHostCompletion h hpa (.success bad d) s = .next (s.hostAnswer r (if bad then sPOISON else sOK) d) := by
  simp only [execHostCompletion, hr]

theorem execHostCompletion_unsupported {h : PortNo} {hpa : Nat} {s : State} {r : HostReq} (hr : s.hostReqAt h hpa = some r) :
    execHostCompletion h hpa .unsupported s = .next (s.hostAnswer r sHOST 0) := by
  simp only [execHostCompletion, hr]

theorem execHostCompletionTimeout_req {h : PortNo} {hpa : Nat} {s : State} {r : HostReq} (hr : s.hostReqAt h hpa = some r)
    (hpast : s.ctoPast h r.start = true) :
    execHostCompletionTimeout h false hpa s = .next ((s.raise (R.HST_EVENTS.HOST_CTO h)).hostAnswer r sHOST 0) := by
  simp only [execHostCompletionTimeout, hr, hpast, Bool.false_eq_true, if_false, if_true]

/-- A read that the host answers well is answered with its data. -/
theorem State.hostAnswer_read {r : HostReq} (hop : r.req.op = opREAD) (d : Line) (s : State) :
    s.hostAnswer r sOK d = ({ s with home := { s.home with hostReqs := s.home.hostReqs.erase r } }).sendPacket
      { r.req.reply s.feid sOK d.toNat with cacheable := r.cacheable } := by
  have hread : ¬ r.req.op = opATOM := by rw [hop]; decide
  have hok : ¬ sOK = sPOISON := by decide
  simp only [State.hostAnswer, State.poisonCame, hread, hok, true_or, if_true, if_false, beq_self_eq_true, Bool.and_true,
    show (sOK == sPOISON) = false from rfl, Bool.false_eq_true]
  rfl

/-- Settles O34: each command is the one branch of it that the host's answer or its silence selects. When the host has been silent
for long enough is the presumed code of `ctoLeast` (log entry 34), and the cacheable bit is the model's choice (log entry 67). -/
theorem hostMemory : Obligations.HostMemory := by
  refine ⟨fun h s w hw hport hbatch hroom => completes_hostFlushRead_single hw hport hbatch hroom,
    fun h s f d hf => ⟨?_, ?_, ?_, fun hpast => ?_⟩, fun h hpa s r d hr => ⟨?_, ?_, ?_, fun hpast => ?_⟩,
    fun r d s hop => State.hostAnswer_read hop d s⟩
  · rw [exec_hostFlushCompletion, execHostFlushCompletion_success hf]
  · rw [exec_hostFlushCompletion, execHostFlushCompletion_unsupported hf]
  · rw [exec_hostFlushCompletion, execHostFlushCompletion_abort hf]
  · rw [exec_hostCompletionTimeout, execHostCompletionTimeout_flush hf hpast]
  · rw [exec_hostCompletion, execHostCompletion_success hr, if_neg Bool.false_ne_true]
  · rw [exec_hostCompletion, execHostCompletion_success hr, if_pos rfl]
  · rw [exec_hostCompletion, execHostCompletion_unsupported hr]
  · rw [exec_hostCompletionTimeout, execHostCompletionTimeout_req hr hpast]

end Sys2Proof.Machine
end

section
/-! ## Electrical idle and Skois sleep (R150, R292, R293, R296) -/

namespace Sys2Proof.Machine

open Sys2Proof

/-! Records of channels and ports. -/

@[simp] theorem State.fld_setChan (s : State) (c : Nat) (x : Chan) (g : Field) : (s.setChan c x).fld g = s.fld g := rfl
@[simp] theorem State.chan_setChan_same (s : State) (c : Nat) (x : Chan) : (s.setChan c x).chan c = x := FMap.get_set_same ..
@[simp] theorem State.chan_setChan_ne (s : State) {c d : Nat} (x : Chan) (h : d ≠ c) : (s.setChan c x).chan d = s.chan d :=
  FMap.get_set_ne _ _ h _
@[simp] theorem State.fld_setElkPort (s : State) (m : Nat) (x : ElkPort) (g : Field) : (s.setElkPort m x).fld g = s.fld g := rfl
@[simp] theorem State.elkPort_setElkPort_same (s : State) (m : Nat) (x : ElkPort) : (s.setElkPort m x).elkPort m = x :=
  FMap.get_set_same ..

/-! Lanes going quiet and leaving idle. -/

/-- Setting the states of a port's lanes changes ELK_LANE_STATUS only. -/
theorem State.setLanes_frame (s : State) (m st : Nat) :
    s.setLanes m st = { s with regs := (s.setLanes m st).regs } ∧
      ∀ g : Field, g.off < R.ELK_LANE_STATUS.adr 0 → (s.setLanes m st).fld g = s.fld g := by
  refine List.foldlRecOn (motive := fun (u : State) => u = { s with regs := u.regs } ∧
    ∀ g : Field, g.off < R.ELK_LANE_STATUS.adr 0 → u.fld g = s.fld g) _ _ ⟨rfl, fun _ _ => rfl⟩ ?_
  rintro u ⟨hu, hfld⟩ l -
  split
  · refine ⟨by rw [hu]; rfl, fun g hg => (State.fld_setFld_apart _ _ _ _ (by simp [R.ELK_LANE_STATUS.STATE]) (.inl ?_)).trans
      (hfld g hg)⟩
    simp only [R.ELK_LANE_STATUS.STATE, R.ELK_LANE_STATUS.adr] at hg ⊢
    omega
  · exact ⟨hu, hfld⟩

/-- Leaving idle counts the runs of the port's lanes anew, and changes nothing else (R287). -/
theorem State.lineResume_frame (s : State) (c : Nat) :
    s.lineResume c = { s with elk := { s.elk with codes := (s.lineResume c).elk.codes } } := by
  refine List.foldlRecOn (motive := fun (u : State) => u = { s with elk := { s.elk with codes := u.elk.codes } }) _ _ rfl ?_
  intro u hu k _
  rw [hu]
  rfl

/-- The port's transmitter leaves idle: what IDLE_EXIT does before it looks at the receiver. -/
def State.wakePort (s : State) (m : Nat) : State :=
  let s := s.setElkPort m { s.elkPort m with sentEi := false, busyAt := s.tick + 1 }
  ((s.setFld (R.SWC_CH_STATUS.STATE (256 + m)) chUP).setLanes m 3).lineResume (256 + m)

theorem State.byte_wakePort (s : State) (m a : Nat) : (s.wakePort m).byte a = s.byte a := by
  rw [State.wakePort, State.lineResume_frame, (State.setLanes_frame ..).1]
  rfl

theorem State.sentEi_wakePort (s : State) (m : Nat) : ((s.wakePort m).elkPort m).sentEi = false := by
  have hport : ((s.setElkPort m { s.elkPort m with sentEi := false, busyAt := s.tick + 1 }).elkPort m).sentEi = false := by
    rw [State.elkPort_setElkPort_same]
  rw [State.wakePort, State.lineResume_frame, (State.setLanes_frame ..).1]
  exact hport

theorem State.fld_wakePort (s : State) (m : Nat) {g : Field} (hg : g.off < R.ELK_LANE_STATUS.adr 0) :
    (s.wakePort m).fld g = (s.setFld (R.SWC_CH_STATUS.STATE (256 + m)) chUP).fld g := by
  rw [State.wakePort, State.lineResume_frame]
  exact (State.setLanes_frame _ m 3).2 g hg

theorem State.fld_wakePort_apart (s : State) (m : Nat) {g : Field} (hg : g.off < R.ELK_LANE_STATUS.adr 0)
    (hch : g.off ≠ R.SWC_CH_STATUS.adr (256 + m)) : (s.wakePort m).fld g = s.fld g := by
  rw [s.fld_wakePort m hg, State.fld_setFld_apart _ _ _ _ (by simp [R.SWC_CH_STATUS.STATE]) (.inl hch)]

theorem State.chState_wakePort (s : State) (m : ElkPortNo) : (s.wakePort m).fld (R.SWC_CH_STATUS.STATE (256 + m)) = chUP := by
  have hoff : (R.SWC_CH_STATUS.STATE (256 + m)).off < R.ELK_LANE_STATUS.adr 0 := by
    simp only [R.SWC_CH_STATUS.STATE, R.SWC_CH_STATUS.adr, R.ELK_LANE_STATUS.adr]; omega
  rw [s.fld_wakePort m hoff, State.fld_setFld_same _ _ _ (by simp [R.SWC_CH_STATUS.STATE])]
  rfl

theorem State.tick_wakePort (s : State) (m : Nat) : (s.wakePort m).tick = s.tick :=
  s.fld_wakePort_apart m (by decide) (by simp only [R.GLB_TICK.TICK, R.GLB_TICK.adr, R.SWC_CH_STATUS.adr]; omega)

theorem State.skois_wakePort (s : State) (m : ElkPortNo) : (s.wakePort m).skois (256 + m) = s.skois (256 + m) := by
  rw [State.skois, State.flag, State.fld_wakePort_apart, State.skois, State.flag] <;>
    simp only [R.ELK_PORT_STATUS.SKOIS, R.ELK_PORT_STATUS.adr, R.ELK_LANE_STATUS.adr, R.SWC_CH_STATUS.adr] <;> omega

/-! Commands. -/

section
variable {m : ElkPortNo} {s : State}

theorem execIdleEnter_sends (hen : s.flag (R.ELK_PORT_CTL.IDLE_EN m) = true) (hskois : s.skois (256 + m) = false)
    (hport : s.fld (R.ELK_PORT_STATUS.STATE m) = 2) (hup : s.chState (256 + m) = chUP)
    (hnothing : s.nothingToSend (256 + m) = true) (hsent : (s.elkPort m).sentEi = false) :
    execIdleEnter m s =
      let s1 := (s.sendEi (256 + m)).setElkPort m { s.elkPort m with sentEi := true }
      .next (if (s.chan (256 + m)).ei then s1.goQuiet m else s1) := by
  rw [execIdleEnter, if_neg (by simp [hen, hskois, hport, hup, hnothing, hsent])]
  rfl

/-- An EI block on a port that is not in Skois mode makes the port quiet where it has sent EI itself. -/
theorem execEiBlock_port {c : Channel} (hc : 256 ≤ c.val) (hskois : s.skois c = false) : execEiBlock c s =
    let s1 := s.setChan c { s.chan c with ei := true }
    .next (if (s.elkPort (c - 256)).sentEi then s1.goQuiet (c - 256) else s1) := by
  have hskois' : (s.setChan c { s.chan c with ei := true }).skois c = false := hskois
  simp only [execEiBlock, if_neg (Nat.not_lt.mpr hc), hskois', Bool.false_eq_true, if_false]
  rfl

theorem execIdleExit_quiet (hport : s.fld (R.ELK_PORT_STATUS.STATE m) = 3) (hmust : s.mustExit m = true)
    (hskois : s.skois (256 + m) = false) : execIdleExit m s =
      let s1 := s.wakePort m
      .next ((s1.setChan (256 + m) { s1.chan (256 + m) with ei := false, lastCredit := s1.tick }).setFld
        (R.ELK_PORT_STATUS.STATE m) 2) := by
  have hskois' : ¬ (s.wakePort m).skois (256 + m) = true := by rw [s.skois_wakePort m, hskois]; exact Bool.false_ne_true
  rw [execIdleExit, if_neg (by simp [hport, hmust])]
  exact congrArg Host.Outcome.next (if_neg hskois')

theorem execSkoisSleep_due (hskois : s.skois (256 + m) = true) (hport : s.fld (R.ELK_PORT_STATUS.STATE m) = 2)
    (hnothing : s.nothingToSend (256 + m) = true) (hdue : (s.elkPort m).busyAt + s.sleepTicks m ≤ s.tick) :
    execSkoisSleep m s = .next ((((s.sendEi (256 + m)).setFld (R.ELK_PORT_STATUS.STATE m) 4).setFld
      (R.SWC_CH_STATUS.STATE (256 + m)) chIDLE).setLanes m 4) := by
  rw [execSkoisSleep, if_neg (by simp [hskois, hport, hnothing, hdue])]
  simp only [hport, Nat.reduceEqDiff, if_false]

end

theorem State.goSleep_fields (s : State) (m : ElkPortNo) :
    let u := ((s.setFld (R.ELK_PORT_STATUS.STATE m) 4).setFld (R.SWC_CH_STATUS.STATE (256 + m)) chIDLE).setLanes m 4
    u.fld (R.ELK_PORT_STATUS.STATE m) = 4 ∧ u.fld (R.SWC_CH_STATUS.STATE (256 + m)) = chIDLE := by
  have hlow (g : Field) (hg : g.off < R.ELK_LANE_STATUS.adr 0) := (State.setLanes_frame
    ((s.setFld (R.ELK_PORT_STATUS.STATE m) 4).setFld (R.SWC_CH_STATUS.STATE (256 + m)) chIDLE) m 4).2 g hg
  constructor
  · rw [hlow, State.fld_setFld_apart, State.fld_setFld_same] <;>
      simp [R.ELK_PORT_STATUS.STATE, R.SWC_CH_STATUS.STATE, R.ELK_PORT_STATUS.adr, R.SWC_CH_STATUS.adr, R.ELK_LANE_STATUS.adr] <;>
      omega
  · rw [hlow, State.fld_setFld_same] <;>
      simp [R.SWC_CH_STATUS.STATE, R.SWC_CH_STATUS.adr, R.ELK_LANE_STATUS.adr, chIDLE]
    omega

/-- Settles O39: each command is the one branch of it that the states of port and channel select; lane states and line codes lie
apart from the fields that the statement names. -/
theorem electricalIdle : Obligations.ElectricalIdle := by
  refine ⟨fun m s hen hskois hport hup hnothing hsent => ⟨fun hei => ?_, fun hei => ?_⟩,
    fun c s => ⟨fun hc => ?_, fun hc hskois hsent => ?_, fun hc hskois hsent => ?_⟩,
    fun m s hport hmust hskois => ?_, fun m s hskois hport hnothing hdue => ?_⟩
  · rw [exec_idleEnter, execIdleEnter_sends hen hskois hport hup hnothing hsent, hei]
    rfl
  · rw [exec_idleEnter, execIdleEnter_sends hen hskois hport hup hnothing hsent, hei]
    rfl
  · rw [exec_eiBlock, execEiBlock, if_pos hc]
  · rw [exec_eiBlock, execEiBlock_port hc hskois, hsent]
    rfl
  · rw [exec_eiBlock, execEiBlock_port hc hskois, hsent]
    rfl
  · refine ⟨_, execIdleExit_quiet hport hmust hskois, ?_, ?_, ?_, ?_, ?_, fun a => ?_⟩
    · exact State.fld_setFld_same _ _ _ (by simp [R.ELK_PORT_STATUS.STATE])
    · rw [State.fld_setFld_apart, State.fld_setChan, s.chState_wakePort] <;>
        simp [R.ELK_PORT_STATUS.STATE, R.SWC_CH_STATUS.STATE, R.ELK_PORT_STATUS.adr, R.SWC_CH_STATUS.adr]
      omega
    · exact s.sentEi_wakePort m
    · exact congrArg Chan.ei (State.chan_setChan_same ..)
    · exact (congrArg Chan.lastCredit (State.chan_setChan_same ..)).trans (s.tick_wakePort m)
    · exact s.byte_wakePort m a
  · obtain ⟨hstate, hch⟩ := (s.sendEi (256 + m)).goSleep_fields m
    refine ⟨_, execSkoisSleep_due hskois hport hnothing hdue, hstate, hch, ?_, fun a => ?_⟩
    · rw [(State.setLanes_frame ..).1]
      rfl
    · rw [(State.setLanes_frame ..).1]
      rfl

end Sys2Proof.Machine
end

section
/-! ## Control blocks on a line (R145, Tables 7.5 to 7.10) -/

namespace Sys2Proof.Machine

open Sys2Proof

/-! Numbers packed from fields. -/

/-- Fields (lowest bit, width, value) that lie one above the other from bit `e` on, below bit `top`, each value in its width. -/
def Stacked : Nat → List (Nat × Nat × Nat) → Nat → Prop
  | e, [], top => e ≤ top
  | e, (lo, w, v) :: r, top => e ≤ lo ∧ v < 2 ^ w ∧ Stacked (lo + w) r top

/-- The number that fields spell. -/
def packFields (l : List (Nat × Nat × Nat)) (n : Nat) : Nat := l.foldl (fun n p => n + p.2.2 * 2 ^ p.1) n

theorem packBits_map (l : List (Nat × Nat × Nat)) : packBits (l.map fun p => (p.1, p.2.2)) = packFields l 0 := by
  rw [packBits, List.foldl_map, packFields]

theorem packFields_concat (l : List (Nat × Nat × Nat)) (lo w v n : Nat) :
    packFields (l ++ [(lo, w, v)]) n = packFields l n + v * 2 ^ lo := by
  rw [packFields, List.foldl_append, List.foldl_cons, List.foldl_nil, packFields]

/-- Fields packed above a number: within their bound, the number's own fields as they were, and each field reads back. -/
theorem packFields_stacked {top : Nat} : ∀ {l : List (Nat × Nat × Nat)} {e n : Nat}, Stacked e l top → n < 2 ^ e →
    packFields l n < 2 ^ top ∧ (∀ lo w, lo + w ≤ e → getBits (packFields l n) lo w = getBits n lo w) ∧
      ∀ p ∈ l, getBits (packFields l n) p.1 p.2.1 = p.2.2
  | [], e, n, h, hn => ⟨hn.trans_le (Nat.pow_le_pow_right (by decide) h), fun _ _ _ => rfl, by simp⟩
  | (lo, w, v) :: r, e, n, ⟨he, hv, hr⟩, hn => by
    have hlo : n < 2 ^ lo := hn.trans_le (Nat.pow_le_pow_right (by decide) he)
    have hput : n + v * 2 ^ lo = putBits n lo w v :=
      add_eq_putBits (by rw [getBits, Nat.div_eq_of_lt hlo, Nat.zero_mod]) hv
    have hlt : n + v * 2 ^ lo < 2 ^ (lo + w) :=
      hput ▸ putBits_lt (hlo.trans_le (Nat.pow_le_pow_right (by decide) (Nat.le_add_right lo w))) (Nat.le_refl _)
    obtain ⟨hbound, hbelow, hfields⟩ := packFields_stacked hr hlt
    refine ⟨hbound, fun l m hl => ?_, List.forall_mem_cons.mpr ⟨?_, hfields⟩⟩
    · exact (hbelow l m (by omega)).trans (hput ▸ getBits_putBits_below n lo w v l m (by omega))
    · refine (hbelow lo w (Nat.le_refl _)).trans ?_
      rw [hput, getBits_putBits_same, Nat.mod_eq_of_lt hv]

/-- The lowest `k` bytes of a number do not depend on what lies above them. -/
theorem leBytes_add_mul (x : Nat) : ∀ k n : Nat, leBytes k (n + 256 ^ k * x) = leBytes k n
  | 0, _ => rfl
  | k + 1, n => by
    have hpow : 256 ^ (k + 1) * x = 256 * (256 ^ k * x) := by rw [Nat.pow_succ]; ring
    have hbyte : BitVec.ofNat 8 (n + 256 * (256 ^ k * x)) = BitVec.ofNat 8 n :=
      BitVec.eq_of_toNat_eq (by simp only [BitVec.toNat_ofNat]; omega)
    rw [leBytes, hpow, hbyte, Nat.add_mul_div_left _ _ (by decide), leBytes_add_mul x k, leBytes]

/-- A bit is the one-bit field there. -/
theorem bitOf_of_getBits {n i : Nat} {b : Bool} (h : getBits n i 1 = b2n b) : bitOf n i = b := by
  have hbit : bitOf n i = (getBits n i 1 == 1) := by rw [bitOf, getBits, Nat.pow_one]
  rw [hbit, h]
  cases b <;> rfl

/-! Control blocks. -/

/-- The fields of a control block with their widths, TYPE first and without the CRC (Tables 7.5 to 7.10). -/
def CtrlBlock.layout : CtrlBlock → List (Nat × Nat × Nat)
  | .credit ack next freed => [(0, 8, 1), (8, 12, ack.toNat), (20, 12, next.toNat), (32, 192, freed.toNat)]
  | .nak expect reason => [(0, 8, 2), (8, 12, expect.toNat), (20, 4, reason.toNat)]
  | .time b => [(0, 8, 3), (8, 1, b2n b.dir), (16, 8, b.exch.toNat), (24, 8, b.phase.toNat), (32, 64, b.tick.toNat),
      (96, 8, b.prevExch.toNat), (104, 1, b2n b.prevValid), (112, 8, b.prevPhase.toNat), (120, 64, b.prevTick.toNat)]
  | .ident b => [(0, 8, 4), (8, 16, b.feid.toNat), (24, 8, b.port.toNat), (32, 4, b.lane.toNat), (36, 5, b.comb.toNat),
      (48, 8, b.plan.toNat), (56, 3, b.tstate.toNat), (64, 8, b.thops.toNat), (72, 16, b.master.toNat), (88, 64, b.serial.toNat)]
  | .leave feid reason tick => [(0, 8, 5), (8, 16, feid.toNat), (24, 4, reason.toNat), (28, 64, tick.toNat)]
  | .idle => [(0, 8, 6)]
  | .ei => [(0, 8, 7)]
  | .replay seq => [(0, 8, 8), (8, 12, seq.toNat)]

theorem CtrlBlock.map_layout (b : CtrlBlock) : b.layout.map (fun p => (p.1, p.2.2)) = (0, b.type) :: b.fields := by
  cases b <;> rfl

theorem b2n_le_one (b : Bool) : b2n b ≤ 1 := by cases b <;> decide

/-- The fields share no bit, and leave room for a CRC in bytes 28 to 31. -/
theorem CtrlBlock.stacked_layout (b : CtrlBlock) {crc : Nat} (h : crc < 2 ^ 32) :
    Stacked 0 (b.layout ++ [(224, 32, crc)]) 256 := by
  have htype (k : Nat) (hk : k ≤ 8) : k < 2 ^ 8 := by omega
  cases b <;> simp [CtrlBlock.layout, Stacked, h, BitVec.isLt, b2n_le_one, htype, -Nat.reducePow]

/-- A number with the fields of a block spells it. -/
theorem ctrlOf_of_layout {b : CtrlBlock} {n : Nat} (h : ∀ p ∈ b.layout, getBits n p.1 p.2.1 = p.2.2) : ctrlOf n = some b := by
  have htype (k : Nat) (hk : getBits n 0 8 = k) : n % 256 = k := by simpa [getBits] using hk
  cases b <;> simp only [CtrlBlock.layout, List.forall_mem_cons, List.not_mem_nil, false_imp_iff, implies_true, and_true] at h
  case credit | nak | leave | replay => simp [ctrlOf, htype _ h.1, h]
  case idle | ei => simp [ctrlOf, htype _ h]
  case time x =>
    obtain ⟨h0, hdir, hexch, hphase, htick, hprevExch, hprevValid, hprev⟩ := h
    simp [ctrlOf, htype _ h0, bitOf_of_getBits hdir, bitOf_of_getBits hprevValid, *]
  case ident x => simp [ctrlOf, htype _ h.1, h]

/-- The bytes of a block are its fields with the CRC above them. -/
theorem CtrlBlock.bytes_eq (b : CtrlBlock) :
    b.bytes = packFields (b.layout ++ [(224, 32, blockCrc (packFields b.layout 0))]) 0 := by
  have hpack : packBits ((0, b.type) :: b.fields) = packFields b.layout 0 := by rw [← b.map_layout, packBits_map]
  rw [CtrlBlock.bytes, hpack, packFields_concat, Nat.mul_comm]

theorem blockCrc_lt (n : Nat) : blockCrc n < 2 ^ 32 := BitVec.isLt _

/-- A block's 32 bytes are read as the block. -/
theorem CtrlBlock.decode_bytes (b : CtrlBlock) :
    b.bytes < 2 ^ 256 ∧ ctrlDecode (BitVec.ofNat 256 b.bytes) = some b := by
  obtain ⟨hlt, -, hfields⟩ := packFields_stacked (b.stacked_layout (blockCrc_lt (packFields b.layout 0))) (Nat.two_pow_pos 0)
  rw [← b.bytes_eq] at hlt hfields
  obtain ⟨hlayout, hcrc⟩ := List.forall_mem_append.mp hfields
  have hsame : blockCrc b.bytes = blockCrc (packFields b.layout 0) := by
    have hbytes : b.bytes = packFields b.layout 0 + 256 ^ 28 * blockCrc (packFields b.layout 0) := by
      rw [CtrlBlock.bytes, ← b.map_layout, packBits_map, show (256 : Nat) ^ 28 = 2 ^ 224 by norm_num]
    rw [blockCrc, hbytes, leBytes_add_mul, ← blockCrc]
  have htop : b.bytes / 2 ^ 224 = blockCrc (packFields b.layout 0) := by
    have hquot : b.bytes / 2 ^ 224 < 2 ^ 32 := by
      rw [Nat.div_lt_iff_lt_mul (Nat.two_pow_pos _), ← Nat.pow_add]
      exact hlt
    have hfield := hcrc _ List.mem_cons_self
    rwa [getBits, Nat.mod_eq_of_lt hquot] at hfield
  refine ⟨hlt, ?_⟩
  rw [ctrlDecode, BitVec.toNat_ofNat, Nat.mod_eq_of_lt hlt, if_pos (htop.trans hsame.symm)]
  exact ctrlOf_of_layout hlayout

end Sys2Proof.Machine
end

section
/-! ## Link control blocks (R143, R145 to R148, R150, R151, R162) -/

namespace Sys2Proof.Machine

open Sys2Proof

section
variable {c : Channel} {s : State}

theorem execChannelJoin_unlinked (hup : s.chUp c = true) (hjoining : (s.chan c).joining = true)
    (hlink : s.linkOf (s.fld (R.SWC_CH_STATUS.PEER c)) = none) : execChannelJoin c s = .next (s.joinLink c) := by
  rw [execChannelJoin, if_neg (by simp [hup, hjoining]), hlink]

/-- What a CREDIT block tells: the peer is heard, packets are acknowledged, and credit has come back. -/
def State.takeCredit (s : State) (c : Nat) (ack : BitVec 12) (freed : BitVec 192) : State :=
  ((s.setChan c { s.chan c with lastCredit := s.tick, ei := false }).acknowledge c ack.toNat).takeFreed c freed

/-- While a NAK waits for its REPLAY, a CREDIT block on a channel outside its link sends no other NAK and lets no channel leave. -/
theorem execCreditBlock_told {ack next : BitVec 12} {freed : BitVec 192} (hup : s.chUp c = true)
    (hnak : ((s.takeCredit c ack freed).chan c).nak.isSome = true)
    (hmember : (s.takeCredit c ack freed).flag (R.SWC_CH_STATUS.MEMBER c) = false) :
    execCreditBlock c ack next freed s = .next (s.takeCredit c ack freed) := by
  have hnone : ((s.takeCredit c ack freed).chan c).nak.isNone = false := by rw [← Option.not_isSome, hnak]; rfl
  unfold State.takeCredit at hnone hmember
  simp only [execCreditBlock, hup, not_true_eq_false, hnone, Bool.false_and, Bool.false_eq_true, if_false, hmember]
  rfl

theorem execNakBlock_up (hup : s.chUp c = true) (expect : BitVec 12) (reason : BitVec 4) :
    execNakBlock c expect reason s =
      let s1 := s.addFld (R.SWC_CH_CNT.NAK_RX c) 1
      let i := (expect.toNat + 4096 - s1.oldest c) % 4096
      .next (if i < (s1.chan c).replay.length then s1.startReplay c i
        else (s1.linkEvent R.SWC_EVENTS.NAK_WINDOW).retrain c 0) := by
  rw [execNakBlock, if_neg (not_not_intro hup)]

theorem execReplayBlock_up (hup : s.chUp c = true) (seq : BitVec 12) :
    execReplayBlock c seq s =
      let back := (s.fld (R.SWC_CH_STATUS.RX_SEQ c) + 4096 - seq.toNat) % 4096
      .next (if back ≤ 2047 then s.setChan c { s.chan c with nak := none, dups := back } else s.sendNak c 3) := by
  rw [execReplayBlock, if_neg (not_not_intro hup)]

theorem execLeaveBlock_one (feid : BitVec 16) (tick : BitVec 64) :
    execLeaveBlock c feid 4 tick s = .next ((s.linkEvent R.SWC_EVENTS.LEAVE_RX).channelDown c 0) := by
  have hother : ¬ ((4 : BitVec 4) = 1 ∨ (4 : BitVec 4) = 2 ∨ (4 : BitVec 4) = 3) := by decide
  rw [execLeaveBlock, if_neg hother, if_pos rfl]

theorem execNakRepeat_waiting {t r : Nat} (hnak : (s.chan c).nak = some (t, r)) :
    execNakRepeat c s = .next (if t + 2 ≤ s.tick then s.sendNak c r else s) := by
  rw [execNakRepeat, hnak]

theorem execSilentPeerTimeout_up (hup : s.chUp c = true) (hei : (s.chan c).ei = false) :
    execSilentPeerTimeout c s = .next (if (s.chan c).lastCredit + 64 ≤ s.tick then
      (s.linkEvent R.SWC_EVENTS.SILENT_PEER).channelDown c 3 else s) := by
  have hafter : s.silentAfter c = some 64 := by rw [State.silentAfter, hei]; rfl
  simp only [execSilentPeerTimeout, hafter, hup, true_and]

end

/-- Settles O37: each command is the one branch of it that the statement's case selects, and a control block's bytes are read as the
block because its fields share no bit. -/
theorem controlBlocks : Obligations.ControlBlocks := by
  refine ⟨fun c s => execChannelJoin_unlinked, fun c ack next freed s hup _ _ => execCreditBlock_told hup,
    fun c expect reason s hup => ⟨fun hi => ?_, fun hi => ?_⟩, fun c seq s hup => ⟨fun hback => ?_, fun hback => ?_⟩,
    fun c feid tick s => execLeaveBlock_one feid tick, fun x s hnil => ?_, fun x s hsome hlane => ?_, CtrlBlock.decode_bytes,
    fun c s t r hnak => ⟨fun hdue => ?_, fun hearly => ?_⟩, fun c s hup hei => ⟨fun hdue => ?_, fun hearly => ?_⟩,
    fun x s hgood hflag => ?_, fun x s hbad => ?_⟩
  · rw [exec_nakBlock, execNakBlock_up hup]
    exact congrArg Host.Outcome.next (if_pos hi)
  · rw [exec_nakBlock, execNakBlock_up hup]
    exact congrArg Host.Outcome.next (if_neg (Nat.not_lt.mpr hi))
  · rw [exec_replayBlock, execReplayBlock_up hup]
    exact congrArg Host.Outcome.next (if_pos hback)
  · rw [exec_replayBlock, execReplayBlock_up hup]
    exact congrArg Host.Outcome.next (if_neg (Nat.not_le.mpr hback))
  · rw [exec_idleBlock, execIdleBlock, if_pos (.inl hnil)]
  · rw [exec_idleBlock, execIdleBlock, if_neg (not_or.mpr ⟨hsome, not_not_intro hlane⟩)]
  · rw [exec_nakRepeat, execNakRepeat_waiting hnak, if_pos hdue]
  · rw [exec_nakRepeat, execNakRepeat_waiting hnak, if_neg (Nat.not_le.mpr hearly)]
  · rw [exec_silentPeerTimeout, execSilentPeerTimeout_up hup hei, if_pos hdue]
  · rw [exec_silentPeerTimeout, execSilentPeerTimeout_up hup hei, if_neg (Nat.not_le.mpr hearly)]
  · rw [exec_badControlBlock, execBadControlBlock, if_neg (by simp [hgood, hflag])]
  · refine ⟨_, (exec_badControlBlock x s).trans ?_, s.onlyRegisters_addFld _ 1 (by simp [R.SWC_CH_CNT.CTRL_ERR])⟩
    rw [execBadControlBlock, if_pos hbad]

end Sys2Proof.Machine
end

section
/-! ## What the trace leaves (R396 to R399) -/

namespace Sys2Proof.Machine

open Sys2Proof

/-- `t` is `s` but for what the trace records: its slots and registers, the raise of the Debug Epoch that it begins, free values. -/
def OnlyTrace (s t : State) : Prop :=
  (∃ regs tel sec free, t = { s with regs := regs, tel := tel, sec := sec, free := free }) ∧
    ∀ g : Field, g.off < R.TEL_TRACE_CTL.adr → t.fld g = s.fld g

theorem OnlyTrace.refl (s : State) : OnlyTrace s s := ⟨⟨s.regs, s.tel, s.sec, s.free, rfl⟩, fun _ _ => rfl⟩

theorem OnlyTrace.trans {s t u : State} (h : OnlyTrace s t) (h' : OnlyTrace t u) : OnlyTrace s u := by
  obtain ⟨⟨_, _, _, _, rfl⟩, hfld⟩ := h
  obtain ⟨⟨regs, tel, sec, free, rfl⟩, hfld'⟩ := h'
  exact ⟨⟨regs, tel, sec, free, rfl⟩, fun g hg => (hfld' g hg).trans (hfld g hg)⟩

theorem OnlyTrace.ite {c : Prop} [Decidable c] {s t u : State} (ht : OnlyTrace s t) (hu : OnlyTrace s u) :
    OnlyTrace s (if c then t else u) := by
  split
  · exact ht
  · exact hu

theorem State.onlyTrace_setFld (s : State) {f : Field} (v : Nat) (h : R.TEL_TRACE_CTL.adr ≤ f.off) : OnlyTrace s (s.setFld f v) :=
  ⟨⟨(s.setFld f v).regs, s.tel, s.sec, s.free, rfl⟩, fun _ hg => s.fld_setReg_ne _ (by omega)⟩

theorem State.onlyTrace_traceRecord (s : State) (r : Line) : OnlyTrace s (s.traceRecord r) := by
  have hslot (tel : TelState) : OnlyTrace s ({ s with tel := tel }.addFld R.TEL_TRACE_STATUS.WRITTEN 1) :=
    .trans ⟨⟨s.regs, tel, s.sec, s.free, rfl⟩, fun _ _ => rfl⟩ (State.onlyTrace_setFld _ _ (by decide))
  have hfull (t : State) :
      OnlyTrace t (((t.setFld R.TEL_TRACE_CTL.RUN 0).setFld R.TEL_TRACE_STATUS.RUNNING 0).raise R.TEL_EVENTS.TRACE_FULL) :=
    .trans (.trans (t.onlyTrace_setFld 0 (by decide)) (State.onlyTrace_setFld _ 0 (by decide)))
      (State.onlyTrace_setFld _ 1 (by decide))
  unfold State.traceRecord
  exact .ite (.refl s) (.ite ((hslot _).trans (hfull _)) (hslot _))

theorem State.onlyTrace_raiseEpoch (s : State) : OnlyTrace s s.raiseEpoch :=
  .ite (.refl s) ⟨⟨s.regs, s.tel, _, s.free, rfl⟩, fun _ _ => rfl⟩

/-- A packet that passes a point of the trace leaves everything but the trace. -/
theorem State.onlyTrace_capture (s : State) (point dir : Nat) (p : Packet) (marked : Bool) :
    OnlyTrace s (s.capture point dir p marked) := by
  have hfresh : OnlyTrace s s.fresh.2 := ⟨⟨s.regs, s.tel, s.sec, _, rfl⟩, fun _ _ => rfl⟩
  have hrecord (c : Prop) [Decidable c] (r : Line) :
      OnlyTrace s ((if c then s.fresh.2.raiseEpoch else s.fresh.2).traceRecord r) :=
    .trans (.ite (hfresh.trans (State.onlyTrace_raiseEpoch _)) hfresh) (State.onlyTrace_traceRecord ..)
  unfold State.capture
  exact .ite (.refl s) (.ite ((hrecord _ _).trans (State.onlyTrace_traceRecord ..)) (hrecord _ _))

/-- A trace that does not run captures nothing. -/
theorem State.capture_idle {s : State} (h : s.flag R.TEL_TRACE_STATUS.RUNNING = false) (point dir : Nat) (p : Packet)
    (marked : Bool) : s.capture point dir p marked = s := by
  rw [State.capture, if_pos (.inl (by simp [h]))]

end Sys2Proof.Machine
end

section
/-! ## What routing reads (R20, R66, R76 to R78, R136, R140 to R142, R154 to R156) -/

namespace Sys2Proof.Machine

open Sys2Proof

/-- `t` stands as `s` in all that routes a packet: the tables, the registers outside the channels' counters and status, and of a
channel's status the fields below its sequence numbers. -/
structure SameRouting (s t : State) : Prop where
  groups : t.swc.groups = s.swc.groups
  groupBad : t.swc.groupBad = s.swc.groupBad
  routes : t.swc.routes = s.swc.routes
  routeBad : t.swc.routeBad = s.swc.routeBad
  lost : t.swc.lost = s.swc.lost
  fld : ∀ g : Field, g.off < R.SWC_CH_STATUS.adr 0 ∨ R.SWC_LINK_Q.adr 0 0 ≤ g.off → t.fld g = s.fld g
  status : ∀ c < 262, ∀ g : Field, g.off = R.SWC_CH_STATUS.adr c → g.lo + g.w ≤ 25 → t.fld g = s.fld g

theorem any_congr_of_mem {α : Type} {p q : α → Bool} {l : List α} (h : ∀ x ∈ l, p x = q x) : l.any p = l.any q := by
  rw [Bool.eq_iff_iff, List.any_eq_true, List.any_eq_true]
  exact exists_congr fun x => and_congr_right fun hx => by rw [h x hx]

/-- Whether a channel is in a link depends on the links' peers and its own. -/
theorem State.inLink_congr {s t : State} {c : Nat} (hcfg : ∀ g : Field, g.off < R.SWC_CH_STATUS.adr 0 → t.fld g = s.fld g)
    (hpeer : t.fld (R.SWC_CH_STATUS.PEER c) = s.fld (R.SWC_CH_STATUS.PEER c)) : t.inLink c = s.inLink c := by
  have hlink (peer : Nat) : t.linkOf peer = s.linkOf peer := by
    refine List.find?_congr fun l hl => ?_
    have hlt := (mem_upFrom 0 32 l hl).2
    rw [State.flag, hcfg, hcfg, State.flag] <;>
      simp only [R.SWC_LINK_CFG.EN, R.SWC_LINK_CFG.PEER, R.SWC_LINK_CFG.adr, R.SWC_CH_STATUS.adr] <;> omega
  rw [State.inLink, hpeer, hlink, State.inLink]

namespace SameRouting

variable {s t : State} (h : SameRouting s t)
include h

/-! Links. -/

theorem flag {g : Field} (hg : g.off < R.SWC_CH_STATUS.adr 0 ∨ R.SWC_LINK_Q.adr 0 0 ≤ g.off) : t.flag g = s.flag g := by
  rw [State.flag, h.fld g hg, State.flag]

theorem gatewayOn : t.flag R.SWC_GW_CTL.EN = s.flag R.SWC_GW_CTL.EN := h.flag (by decide)

theorem inLink (c : Channel) : t.inLink c = s.inLink c :=
  State.inLink_congr (fun g hg => h.fld g (.inl hg)) (h.status c c.isLt _ rfl (by simp [R.SWC_CH_STATUS.PEER]))

theorem linkUsable_slot (e k : Nat) : t.linkUsable (slotLink e k) = s.linkUsable (slotLink e k) := by
  have hlt : slotLink e k < 32 := getBits_lt e _ 5
  exact h.flag (by simp only [R.SWC_LINK_STATUS.USABLE, R.SWC_LINK_STATUS.adr, R.SWC_CH_STATUS.adr]; omega)

theorem onFar : t.onFar = s.onFar := by
  funext pt
  cases pt with
  | loc => rfl
  | arr => rfl
  | chan c => rw [State.onFar, h.fld R.SWC_GW_CTL.FAR_E (by decide), h.fld R.SWC_GW_CTL.FAR_OE (by decide), State.onFar]

theorem linkFar : t.linkFar = s.linkFar := by
  funext l
  refine any_congr_of_mem fun c hc => ?_
  have hlt : c < 262 := by have := (mem_upFrom 0 262 c hc).2; omega
  have hmember : t.flag (R.SWC_CH_STATUS.MEMBER c) = s.flag (R.SWC_CH_STATUS.MEMBER c) := by
    rw [State.flag, h.status c hlt _ rfl (by simp [R.SWC_CH_STATUS.MEMBER]), State.flag]
  rw [hmember, h.status c hlt (R.SWC_CH_STATUS.LINK c) rfl (by simp [R.SWC_CH_STATUS.LINK]), h.onFar]

theorem feid : t.feid = s.feid := h.fld _ (by decide)

/-! Group Table. -/

theorem groupWord : t.groupWord = s.groupWord := by unfold State.groupWord; rw [h.groups]

theorem gKind : t.gKind = s.gKind := by unfold State.gKind; rw [h.groupWord]

theorem gNmem : t.gNmem = s.gNmem := by unfold State.gNmem; rw [h.groupWord]

theorem gMember : t.gMember = s.gMember := by unfold State.gMember; rw [h.groupWord]

theorem groupValidFor : t.groupValidFor = s.groupValidFor := by
  unfold State.groupValidFor State.gValid State.gGid State.gSlots
  rw [h.groupWord, h.gKind, h.gNmem, h.groupBad]

theorem isSpread : t.isSpread = s.isSpread := by unfold State.isSpread; rw [h.groupValidFor, h.gKind]

theorem isMember : t.isMember = s.isMember := by unfold State.isMember; rw [h.gNmem, h.gMember, h.feid]

/-! Route Table. -/

theorem route : t.route = s.route := by unfold State.route; rw [h.routes]

theorem routeValid : t.routeValid = s.routeValid := by
  unfold State.routeValid
  rw [h.route, h.routeBad, h.feid, h.groupValidFor, h.gKind, h.isMember]

theorem chooseLink : t.chooseLink = s.chooseLink := by
  unfold State.chooseLink State.ecmpSet
  simp only [h.lost, h.linkUsable_slot]

theorem pathHash : t.pathHash = s.pathHash := by
  unfold State.pathHash
  rw [h.fld R.SWC_WHISK_SEED.PATH (by decide)]

/-! Resolution. -/

theorem resolveOne : t.resolveOne = s.resolveOne := by
  unfold State.resolveOne State.gBucket State.gSeed State.gLevel
  rw [h.groupWord, h.gNmem, h.gMember, h.groupValidFor]

theorem resolve (line : Nat) : ∀ fuel f : Nat, t.resolve fuel f line = s.resolve fuel f line
  | 0, _ => rfl
  | fuel + 1, f => by
    rw [State.resolve, h.resolveOne, h.isSpread, h.routeValid, State.resolve]
    simp only [resolve line fuel]

theorem settle : t.settle = s.settle := by
  funext p
  rw [State.settle, h.isSpread, h.resolve, State.settle]

/-! The gateway. -/

theorem mapTag : t.mapTag = s.mapTag := by
  funext d tag
  have hmap (g : Field) (hg : g.off = R.SWC_GW_TAG.adr d (partOf tag)) : t.fld g = s.fld g :=
    h.fld g (.inr (by simp only [hg, R.SWC_GW_TAG.adr, R.SWC_LINK_Q.adr]; omega))
  unfold State.mapTag State.flag
  dsimp only
  rw [hmap (R.SWC_GW_TAG.VALID d (partOf tag)) rfl, hmap (R.SWC_GW_TAG.SRC_GEN d (partOf tag)) rfl,
    hmap (R.SWC_GW_TAG.FAR_PART d (partOf tag)) rfl, hmap (R.SWC_GW_TAG.FAR_GEN d (partOf tag)) rfl]

theorem mapSrc : t.mapSrc = s.mapSrc := by
  funext d src
  have hmap (g : Field) (hg : g.off = R.SWC_GW_SMAP.adr d) : t.fld g = s.fld g :=
    h.fld g (.inr (by simp only [hg, R.SWC_GW_SMAP.adr, R.SWC_LINK_Q.adr]; omega))
  unfold State.mapSrc State.flag
  dsimp only
  rw [hmap (R.SWC_GW_SMAP.VALID d (getBits src 12 3)) rfl, hmap (R.SWC_GW_SMAP.BLOCK d (getBits src 12 3)) rfl]

theorem cross : t.cross = s.cross := by
  unfold State.cross
  rw [h.mapSrc, h.mapTag]

theorem crossing : t.crossing = s.crossing := by
  funext f pt
  have hmap (g : Field) (hg : g.off = R.SWC_GW_DMAP.adr (b2n (s.onFar pt))) : t.fld g = s.fld g :=
    h.fld g (.inr (by simp only [hg, R.SWC_GW_DMAP.adr, R.SWC_LINK_Q.adr]; omega))
  have hvalid : t.flag (R.SWC_GW_DMAP.VALID (b2n (s.onFar pt)) (f / 4096))
      = s.flag (R.SWC_GW_DMAP.VALID (b2n (s.onFar pt)) (f / 4096)) := by
    rw [State.flag, hmap _ rfl, State.flag]
  unfold State.crossing State.gFarGid
  dsimp only
  rw [h.gatewayOn, h.onFar, hvalid, hmap (R.SWC_GW_DMAP.BLOCK (b2n (s.onFar pt)) (f / 4096)) rfl, h.groupWord, h.groupValidFor,
    h.gKind, h.isMember]

/-! Fates. -/

theorem byRoute : t.byRoute = s.byRoute := by
  unfold State.byRoute
  rw [h.routeValid, h.route, h.feid, h.gKind, h.chooseLink, h.pathHash, h.gatewayOn, h.linkFar]

theorem byGroup : t.byGroup = s.byGroup := by
  unfold State.byGroup
  rw [h.settle, h.byRoute]

theorem atGateway : t.atGateway = s.atGateway := by
  unfold State.atGateway
  rw [h.onFar, h.settle, h.crossing, h.cross, h.byGroup, h.byRoute, h.gatewayOn]

/-- What becomes of a packet is the same in both states. -/
theorem fate : t.fate = s.fate := by
  unfold State.fate
  rw [h.fld R.SWC_FWD_CTL.MAX_HOPS (by decide), h.gatewayOn, h.onFar, h.fld R.SWC_GW_CTL.FAR_FEID (by decide), h.feid,
    h.groupValidFor, h.gKind, h.isMember, h.routeValid, h.atGateway]

end SameRouting

end Sys2Proof.Machine
end

section
/-! ## Packets that arrive on a channel (R134, R135, R142, R147, R149) -/

namespace Sys2Proof.Machine

open Sys2Proof

/-! An accepted packet at its channel. -/

/-- The channel's account of an accepted packet: its bytes in the pool, its sequence number, and the counters. -/
def State.countArrival (s : State) (c : Nat) (p : Packet) : State :=
  (((s.setChan c { s.chan c with pool := (s.chan c).pool + p.len, failed := none }).addFld (R.SWC_CH_STATUS.RX_SEQ c) 1).addFld
    (R.SWC_CH_CNT.RX_PKTS c) 1).count (R.SWC_CH_CNT.RX_BYTES c) p.len

/-- The record with which an accepted packet enters the Switch Core. -/
def arrivedPkt (c : Channel) (p : Packet) (tick : Nat) : QPkt :=
  { pkt := p, point := .chan c, link := 0, tick := tick, hash := 0, dl0 := p.dl, pool := true, trailer := some p.trailer }

theorem State.acceptPacket_eq (s : State) (c : Channel) (p : Packet) : s.acceptPacket c p =
    let t := (s.countArrival c p).capture c 0 p false
    let q := arrivedPkt c p t.tick
    if t.inLink c then (if (t.fate p (.chan c)).lost then (t.inject q).colDropped p else t.inject q)
    else (t.freePool q).count R.SWC_DISCARDS.ROUTE := rfl

@[simp] theorem State.fld_count (s : State) (f : Field) (n : Nat) (g : Field) : (s.count f n).fld g = (s.addFld f n).fld g := rfl

theorem State.fld_addFld_same (s : State) (f : Field) (n : Nat) (h : f.lo + f.w ≤ 64) :
    (s.addFld f n).fld f = (s.fld f + n) % 2 ^ f.w := s.fld_setFld_same f _ h

theorem State.fld_addFld_ne (s : State) {f g : Field} (n : Nat) (h : g.off ≠ f.off) : (s.addFld f n).fld g = s.fld g :=
  s.fld_setReg_ne _ h

/-- The fields that an accepted packet changes at its channel. -/
def arrivalFields (c : Nat) : List Field := [R.SWC_CH_STATUS.RX_SEQ c, R.SWC_CH_CNT.RX_PKTS c, R.SWC_CH_CNT.RX_BYTES c]

theorem State.onlyFields_countArrival (s : State) (c : Nat) (p : Packet) :
    OnlyFields (arrivalFields c) s (s.countArrival c p) := by
  have hadd {u : State} (h : OnlyFields (arrivalFields c) s u) {f : Field} (hf : f ∈ arrivalFields c) (hw : f.lo + f.w ≤ 64)
      (n : Nat) : OnlyFields (arrivalFields c) s (u.addFld f n) := h.setFld hf hw _
  intro g hg
  rw [State.countArrival, State.fld_count]
  refine hadd (hadd (hadd (u := s.setChan c _) (fun _ _ => rfl) ?_ ?_ 1) ?_ ?_ 1) ?_ ?_ p.len g hg <;>
    simp [arrivalFields, R.SWC_CH_STATUS.RX_SEQ, R.SWC_CH_CNT.RX_PKTS, R.SWC_CH_CNT.RX_BYTES]

/-- Fields outside the channel's counters, and those of the channels' status below the sequence numbers, stay. -/
theorem State.fld_countArrival (s : State) (c : Nat) (p : Packet) {g : Field}
    (hstatus : g.off = R.SWC_CH_STATUS.adr c → g.lo + g.w ≤ 25) (hcnt : ∀ k < 8, g.off ≠ R.SWC_CH_CNT.adr c k) :
    (s.countArrival c p).fld g = s.fld g := by
  refine s.onlyFields_countArrival c p g fun f hf => ?_
  simp only [arrivalFields, List.mem_cons, List.not_mem_nil, or_false] at hf
  unfold Field.Apart
  rcases hf with rfl | rfl | rfl
  · simp only [R.SWC_CH_STATUS.RX_SEQ]; omega
  · exact .inl (hcnt 1 (by decide))
  · exact .inl (hcnt 3 (by decide))

theorem State.sameRouting_countArrival (s : State) (c : Channel) (p : Packet) : SameRouting s (s.countArrival c p) where
  groups := rfl
  groupBad := rfl
  routes := rfl
  routeBad := rfl
  lost := rfl
  fld g hg := by
    refine s.fld_countArrival c p (fun hoff => ?_) fun k hk hoff => ?_ <;>
      simp only [hoff, R.SWC_CH_STATUS.adr, R.SWC_CH_CNT.adr, R.SWC_LINK_Q.adr] at hg <;> omega
  status d hd g hoff hlow := by
    refine s.fld_countArrival c p (fun _ => hlow) fun k hk h => ?_
    simp only [hoff, R.SWC_CH_STATUS.adr, R.SWC_CH_CNT.adr] at h
    omega

theorem State.rxSeq_countArrival (s : State) (c : Channel) (p : Packet) :
    (s.countArrival c p).fld (R.SWC_CH_STATUS.RX_SEQ c) =
      (s.fld (R.SWC_CH_STATUS.RX_SEQ c) + 1) % 2 ^ (R.SWC_CH_STATUS.RX_SEQ c).w := by
  have hoff (k : Nat) : (R.SWC_CH_STATUS.RX_SEQ c).off ≠ R.SWC_CH_CNT.adr c k := by
    simp only [R.SWC_CH_STATUS.RX_SEQ, R.SWC_CH_STATUS.adr, R.SWC_CH_CNT.adr]; omega
  rw [State.countArrival, State.fld_count, State.fld_addFld_ne _ _ (hoff 3), State.fld_addFld_ne _ _ (hoff 1),
    State.fld_addFld_same _ _ _ (by simp [R.SWC_CH_STATUS.RX_SEQ]), State.fld_setChan]

theorem State.rxPkts_countArrival (s : State) (c : Channel) (p : Packet) :
    (s.countArrival c p).fld (R.SWC_CH_CNT.RX_PKTS c) =
      (s.fld (R.SWC_CH_CNT.RX_PKTS c) + 1) % 2 ^ (R.SWC_CH_CNT.RX_PKTS c).w := by
  have hbytes : (R.SWC_CH_CNT.RX_PKTS c).off ≠ (R.SWC_CH_CNT.RX_BYTES c).off := by
    simp [R.SWC_CH_CNT.RX_PKTS, R.SWC_CH_CNT.RX_BYTES, R.SWC_CH_CNT.adr]
  have hseq : (R.SWC_CH_CNT.RX_PKTS c).off ≠ (R.SWC_CH_STATUS.RX_SEQ c).off := by
    simp only [R.SWC_CH_CNT.RX_PKTS, R.SWC_CH_STATUS.RX_SEQ, R.SWC_CH_STATUS.adr, R.SWC_CH_CNT.adr]; omega
  rw [State.countArrival, State.fld_count, State.fld_addFld_ne _ _ hbytes,
    State.fld_addFld_same _ _ _ (by simp [R.SWC_CH_CNT.RX_PKTS]), State.fld_addFld_ne _ _ hseq, State.fld_setChan]

theorem State.chan_countArrival (s : State) (c : Nat) (p : Packet) :
    (s.countArrival c p).chan c = { s.chan c with pool := (s.chan c).pool + p.len, failed := none } :=
  s.chan_setChan_same c _

/-! A channel of no link. -/

/-- A packet's bytes leave the pool in which they lie. -/
theorem State.freePool_chan {q : QPkt} {c : Channel} (hpoint : q.point = .chan c) (hpool : q.pool = true) (s : State) :
    ∃ freedRx, s.freePool q = s.setChan c { s.chan c with pool := (s.chan c).pool - q.pkt.len, freedRx := freedRx } := by
  rw [State.freePool, hpoint]
  exact ⟨_, if_neg (not_not_intro hpool)⟩

/-- An accepted packet on a channel of no link is counted and leaves its pool again (R142). -/
theorem State.acceptPacket_unlinked {s : State} {c : Channel} (hlink : s.inLink c = false) (p : Packet) :
    ∃ t freedRx, OnlyTrace (s.countArrival c p) t ∧ s.acceptPacket c p =
      (t.setChan c { t.chan c with pool := (t.chan c).pool - p.len, freedRx := freedRx }).count R.SWC_DISCARDS.ROUTE := by
  have htrace := (s.countArrival c p).onlyTrace_capture c 0 p false
  have hout : ((s.countArrival c p).capture c 0 p false).inLink c = false := by
    refine Eq.trans ?_ (((s.sameRouting_countArrival c p).inLink c).trans hlink)
    refine State.inLink_congr (fun g hg => htrace.2 g (hg.trans (by decide))) (htrace.2 _ ?_)
    simp only [R.SWC_CH_STATUS.PEER, R.SWC_CH_STATUS.adr, R.TEL_TRACE_CTL.adr]
    omega
  obtain ⟨freedRx, hfree⟩ := State.freePool_chan (q := arrivedPkt c p ((s.countArrival c p).capture c 0 p false).tick) rfl rfl
    ((s.countArrival c p).capture c 0 p false)
  refine ⟨_, freedRx, htrace, ?_⟩
  rw [State.acceptPacket_eq]
  dsimp only
  rw [hout, if_neg Bool.false_ne_true, hfree]
  rfl

/-! A packet for this module. -/

/-- A packet for this module goes to its local packets, where nothing holds it on the way. -/
theorem State.inject_deliver {s : State} {q : QPkt} {p : Packet} (hleft : s.left = false) (hstalled : s.swc.stalled = [])
    (htransit : s.swc.transit = []) (hfate : s.fate q.pkt q.point = .deliver p) (hend : p.noEndpoint = false)
    (hstomp : q.stomp = false) : s.inject q = s.toLocal { q with pkt := p } := by
  have hinput : s.inputStalled q = false := by rw [State.inputStalled, hstalled]; rfl
  have hheld : s.heldHere q = false := by simp [State.heldHere, State.transitHeld, htransit]
  have hcarry : s.carry q (.deliver p) = (s.toLocal { q with pkt := p }, none) := by
    simp only [State.carry, hend, hstomp, Bool.false_eq_true, if_false]
  simp only [State.inject, hleft, hinput, hheld, hfate, hcarry, Bool.false_eq_true, if_false]

/-- A packet joins the local packets; `n` is the next free value. -/
def State.joinLocal (s : State) (n : Nat) (q : QPkt) : State :=
  { s with free := n, swc := { s.swc with localq := s.swc.localq ++ [q] } }

theorem State.fld_joinLocal (s : State) (n : Nat) (q : QPkt) (g : Field) : (s.joinLocal n q).fld g = s.fld g := rfl

theorem State.chan_joinLocal (s : State) (n : Nat) (q : QPkt) (c : Nat) : (s.joinLocal n q).chan c = s.chan c := rfl

/-- A packet of VC0 to VC6 joins the local packets; where no trace runs, nothing else changes but the free value of its port. -/
theorem State.toLocal_joins {s : State} {q : QPkt} (hvc : q.pkt.vc ≠ 7) (hidle : s.flag R.TEL_TRACE_STATUS.RUNNING = false) :
    ∃ n, s.toLocal q = s.joinLocal n { q with link := 32, hash := 0 } := by
  have hport : s.localPort.2.capture s.localPort.1 1 q.pkt q.isSealed = s.localPort.2 :=
    State.capture_idle (s := s.localPort.2) hidle ..
  rw [State.toLocal, if_neg fun h => hvc h.1]
  dsimp only
  rw [hport]
  split
  · exact ⟨s.free, rfl⟩
  · exact ⟨s.free + 1, rfl⟩

/-- An accepted packet that is for this module joins its local packets (R136, R140). -/
theorem State.acceptPacket_deliver {s : State} {c : Channel} {p p' : Packet} (hlink : s.inLink c = true)
    (hidle : s.flag R.TEL_TRACE_STATUS.RUNNING = false) (hleft : s.left = false) (hstalled : s.swc.stalled = [])
    (htransit : s.swc.transit = []) (hfate : s.fate p (.chan c) = .deliver p') (hend : p'.noEndpoint = false) (hvc : p'.vc ≠ 7) :
    ∃ n, s.acceptPacket c p = (s.countArrival c p).joinLocal n { arrivedPkt c p s.tick with pkt := p', link := 32 } := by
  have hsame := s.sameRouting_countArrival c p
  have hidle' : (s.countArrival c p).flag R.TEL_TRACE_STATUS.RUNNING = false := (hsame.flag (by decide)).trans hidle
  have hleft' : (s.countArrival c p).left = false := by rw [State.left, hsame.fld _ (by decide)]; exact hleft
  have htick : (s.countArrival c p).tick = s.tick := hsame.fld _ (by decide)
  have hfate' : (s.countArrival c p).fate p (.chan c) = .deliver p' := (congrFun₂ hsame.fate p (.chan c)).trans hfate
  obtain ⟨n, hlocal⟩ := State.toLocal_joins (q := { arrivedPkt c p s.tick with pkt := p' }) hvc hidle'
  refine ⟨n, ?_⟩
  rw [State.acceptPacket_eq, State.capture_idle hidle']
  dsimp only
  rw [hsame.inLink, hlink, if_pos rfl, hfate', if_neg (show ¬ Fate.lost (.deliver p') = true from Bool.false_ne_true), htick,
    State.inject_deliver (q := arrivedPkt c p s.tick) hleft' hstalled htransit hfate' hend rfl, hlocal]
  rfl

/-! PACKET_RECEIVE. -/

section
variable {c : Channel} {p : Packet} {s : State} (hup : s.chUp c = true) (hnak : (s.chan c).nak = none) (hdups : (s.chan c).dups = 0)
include hup hnak hdups

theorem execPacketReceive_badHeader {hcrc : BitVec 16} (hbad : hcrc ≠ p.hcrc) (trailer : BitVec 32) (flagged : Bool) :
    execPacketReceive c p hcrc trailer flagged s = .next ((s.count (R.SWC_CH_CNT.HCRC_ERR c) 1).sendNak c 1) := by
  rw [execPacketReceive, if_neg (not_not_intro hup), hnak, if_neg (by simp), if_neg (by omega), if_pos hbad]

/-- A packet whose header passes and that finds room in the pool is judged by its trailer. -/
theorem execPacketReceive_goodHeader (hroom : (s.chan c).pool + p.len ≤ poolBytes c) (trailer : BitVec 32) (flagged : Bool) :
    execPacketReceive c p p.hcrc trailer flagged s = .next (
      if ¬ flagged ∧ trailer = p.trailer then s.acceptPacket c p
      else if ¬ flagged ∧ trailer = ~~~p.trailer then s.stomped c p
      else s.trailerFailed c p) := by
  rw [execPacketReceive, if_neg (not_not_intro hup), hnak, if_neg (by simp), if_neg (by omega), if_neg (by simp),
    if_neg (Nat.not_lt.mpr hroom)]

theorem execPacketReceive_intact (hroom : (s.chan c).pool + p.len ≤ poolBytes c) :
    execPacketReceive c p p.hcrc p.trailer false s = .next (s.acceptPacket c p) := by
  rw [execPacketReceive_goodHeader hup hnak hdups hroom, if_pos ⟨Bool.false_ne_true, rfl⟩]

/-- An accepted packet on a channel of no link is counted and discarded (R142). -/
theorem completes_packetReceive_unlinked (hroom : (s.chan c).pool + p.len ≤ poolBytes c) (hlink : s.inLink c = false) :
    Completes (.packetReceive c p p.hcrc p.trailer false) s fun u =>
      u.fld (R.SWC_CH_STATUS.RX_SEQ c) = (s.fld (R.SWC_CH_STATUS.RX_SEQ c) + 1) % 2 ^ (R.SWC_CH_STATUS.RX_SEQ c).w
        ∧ u.fld (R.SWC_CH_CNT.RX_PKTS c) = (s.fld (R.SWC_CH_CNT.RX_PKTS c) + 1) % 2 ^ (R.SWC_CH_CNT.RX_PKTS c).w
        ∧ u.fld R.SWC_DISCARDS.ROUTE = (s.fld R.SWC_DISCARDS.ROUTE + 1) % 2 ^ R.SWC_DISCARDS.ROUTE.w
        ∧ (u.chan c).pool = (s.chan c).pool ∧ u.swc.localq = s.swc.localq ∧ u.swc.linkq = s.swc.linkq ∧ u.out = s.out
        ∧ SameMemory s u := by
  obtain ⟨t, freedRx, ⟨⟨regs, tel, sec, free, htrace⟩, hfld⟩, haccept⟩ := State.acceptPacket_unlinked hlink p
  have hseq : (R.SWC_CH_STATUS.RX_SEQ c).off ≠ R.SWC_DISCARDS.ROUTE.off ∧
      (R.SWC_CH_STATUS.RX_SEQ c).off < R.TEL_TRACE_CTL.adr := by
    simp only [R.SWC_CH_STATUS.RX_SEQ, R.SWC_CH_STATUS.adr, R.SWC_DISCARDS.ROUTE, R.SWC_DISCARDS.adr, R.TEL_TRACE_CTL.adr]; omega
  have hpkts : (R.SWC_CH_CNT.RX_PKTS c).off ≠ R.SWC_DISCARDS.ROUTE.off ∧
      (R.SWC_CH_CNT.RX_PKTS c).off < R.TEL_TRACE_CTL.adr := by
    simp only [R.SWC_CH_CNT.RX_PKTS, R.SWC_CH_CNT.adr, R.SWC_DISCARDS.ROUTE, R.SWC_DISCARDS.adr, R.TEL_TRACE_CTL.adr]; omega
  have hpool : (t.chan c).pool - p.len = (s.chan c).pool := by
    have hchan : t.chan c = (s.countArrival c p).chan c := by rw [htrace]; rfl
    rw [hchan, State.chan_countArrival, Nat.add_sub_cancel]
  refine ⟨_, (execPacketReceive_intact hup hnak hdups hroom).trans (congrArg _ haccept), ?_, ?_, ?_, ?_, ?_⟩
  · rw [State.fld_count, State.fld_addFld_ne _ _ hseq.1, State.fld_setChan, hfld _ hseq.2, State.rxSeq_countArrival]
  · rw [State.fld_count, State.fld_addFld_ne _ _ hpkts.1, State.fld_setChan, hfld _ hpkts.2, State.rxPkts_countArrival]
  · rw [State.fld_count, State.fld_addFld_same _ _ _ (by decide), State.fld_setChan, hfld _ (by decide),
      (s.sameRouting_countArrival c p).fld _ (by decide)]
  · exact (congrArg Chan.pool (State.chan_setChan_same ..)).trans hpool
  · rw [htrace]
    exact ⟨rfl, rfl, rfl, fun _ => rfl⟩

/-- An accepted packet that is for this module joins its local packets. -/
theorem completes_packetReceive_deliver (hroom : (s.chan c).pool + p.len ≤ poolBytes c) {p' : Packet} (hlink : s.inLink c = true)
    (hidle : s.flag R.TEL_TRACE_STATUS.RUNNING = false) (hleft : s.left = false) (hstalled : s.swc.stalled = [])
    (htransit : s.swc.transit = []) (hfate : s.fate p (.chan c) = .deliver p') (hend : p'.noEndpoint = false) (hvc : p'.vc ≠ 7) :
    Completes (.packetReceive c p p.hcrc p.trailer false) s fun u =>
      u.fld (R.SWC_CH_STATUS.RX_SEQ c) = (s.fld (R.SWC_CH_STATUS.RX_SEQ c) + 1) % 2 ^ (R.SWC_CH_STATUS.RX_SEQ c).w
        ∧ u.fld (R.SWC_CH_CNT.RX_PKTS c) = (s.fld (R.SWC_CH_CNT.RX_PKTS c) + 1) % 2 ^ (R.SWC_CH_CNT.RX_PKTS c).w
        ∧ u.swc.localq = s.swc.localq ++ [{ arrivedPkt c p s.tick with pkt := p', link := 32 }]
        ∧ (u.chan c).pool = (s.chan c).pool + p.len ∧ u.swc.linkq = s.swc.linkq ∧ u.out = s.out ∧ SameMemory s u := by
  obtain ⟨n, haccept⟩ := State.acceptPacket_deliver hlink hidle hleft hstalled htransit hfate hend hvc
  exact ⟨_, (execPacketReceive_intact hup hnak hdups hroom).trans (congrArg _ haccept),
    (State.fld_joinLocal ..).trans (s.rxSeq_countArrival c p), (State.fld_joinLocal ..).trans (s.rxPkts_countArrival c p), rfl,
    congrArg Chan.pool ((State.chan_joinLocal ..).trans (s.chan_countArrival c p)), rfl, rfl, fun _ => rfl⟩

end

end Sys2Proof.Machine
end

section
/-! ## The packet that a channel sends next (R146, R148, R159, R161) -/

namespace Sys2Proof.Machine

open Sys2Proof

/-! Arbitration over one packet. -/

section
variable {q : QPkt}

theorem headOf_single (x : Chan) {ok : QPkt → Bool} (hok : ok q = true) (k : Nat) :
    headOf x ok [q] k = if q.pkt.cls = k then some q else none := by
  by_cases h : q.pkt.cls = k <;> simp [headOf, inputHeads, h, hok]

/-- A packet that may go is the head of its own VC. -/
theorem State.vcHead_single {s : State} {c : Nat} (hmay : s.maySend c q = true) (v : Nat) :
    s.vcHead c [q] v = if q.pkt.vc.toNat = v then some q else none := by
  have hcls : q.pkt.cls = 2 * q.pkt.vc.toNat + q.pkt.dl.toNat % 2 := rfl
  rw [State.vcHead, headOf_single _ hmay, headOf_single _ hmay]
  by_cases h0 : q.pkt.cls = 2 * v
  · rw [if_pos h0, if_neg (by omega), if_pos (by omega)]
  by_cases h1 : q.pkt.cls = 2 * v + 1
  · rw [if_neg h0, if_pos h1, if_pos (by omega)]
  · rw [if_neg h0, if_neg h1, if_neg (by omega)]

/-- Deficit round robin chooses among the heads, and leaves the replay buffer as it is. -/
theorem drr_single {weight : Nat → Nat} {heads : Nat → Option QPkt} (hheads : ∀ v r, heads v = some r → r = q) {r : QPkt}
    {y : Chan} : ∀ {fuel : Nat} {x : Chan}, drr weight heads fuel x = some (r, y) → r = q ∧ y.replay = x.replay
  | 0, _, h => by simp [drr] at h
  | fuel + 1, x, h => by
    rw [drr] at h
    dsimp only at h
    split at h
    · obtain ⟨hr, hy⟩ := drr_single hheads h
      exact ⟨hr, hy⟩
    next q' hq =>
      split at h
      · obtain ⟨hr, hy⟩ := drr_single hheads h
        exact ⟨hr, hy⟩
      generalize FMap.get (fun _ => 0) x.deficit (x.turn % 7) + _ = d at h
      split at h
      · obtain ⟨rfl, rfl⟩ := Prod.mk.inj (Option.some.inj h)
        exact ⟨hheads _ _ hq, rfl⟩
      · obtain ⟨hr, hy⟩ := drr_single hheads h
        exact ⟨hr, hy⟩

/-- A packet that waits alone is chosen where credit, tokens and the shed level's limit let it go. -/
theorem State.arbitrate_single {s : State} {c : Nat} (hmay : s.maySend c q = true)
    (htokens : q.pkt.vc = 7 → q.pkt.len ≤ (s.chan c).tokens) (hegress : q.pkt.vc ≠ 7 → s.egressOk c q = true) :
    ∃ x n, s.arbitrate c [q] = (some (q, x), { s with free := n }) ∧ x.replay = (s.chan c).replay := by
  have hlt : q.pkt.vc.toNat < 8 := q.pkt.vc.isLt
  by_cases hvc : q.pkt.vc = 7
  · have hhead : s.vcHead c [q] 7 = some q := by rw [State.vcHead_single hmay, if_pos (by rw [hvc]; rfl)]
    refine ⟨{ s.chan c with tokens := (s.chan c).tokens - q.pkt.len }, s.free, ?_, rfl⟩
    simp only [State.arbitrate, hhead, Option.filter_some, htokens hvc, decide_true, if_true]
  · have hne : q.pkt.vc.toNat ≠ 7 := fun h => hvc (BitVec.eq_of_toNat_eq h)
    have hhead : s.vcHead c [q] 7 = none := by rw [State.vcHead_single hmay, if_neg hne]
    have hheads (v : Nat) : (s.vcHead c [q] v).filter (fun q => s.egressOk c q) = if q.pkt.vc.toNat = v then some q else none := by
      rw [State.vcHead_single hmay]
      split
      · rw [Option.filter_some, hegress hvc, if_pos rfl]
      · rfl
    simp only [State.arbitrate, hhead, Option.filter_none, hheads]
    split
    next r hdrr =>
      obtain ⟨hr, hx⟩ := drr_single (q := q) (fun v r hv => by split at hv <;> simp_all) hdrr
      exact ⟨r.2, s.free, by rw [← hr], hx⟩
    next =>
      have hvs : (upFrom 0 7).filter (fun v => (if q.pkt.vc.toNat = v then some q else none).isSome) = [q.pkt.vc.toNat] := by
        have : q.pkt.vc.toNat < 7 := by omega
        interval_cases q.pkt.vc.toNat <;> rfl
      refine ⟨s.chan c, s.free + 1, ?_, rfl⟩
      simp [hvs, State.fresh, Nat.mod_one]

end

/-! Transmission. -/

/-- The depth of a link's queue shows in SWC_LINK_Q and in the high-water marks. -/
theorem State.noteDepth_frame (s : State) (l v : Nat) : (∃ regs tel, s.noteDepth l v = { s with regs := regs, tel := tel }) ∧
    ∀ g : Field, g.off ≠ R.SWC_LINK_Q.adr l v → (s.noteDepth l v).fld g = s.fld g :=
  ⟨⟨_, _, rfl⟩, fun _ hg => (State.fld_setReg_ne _ _ hg).trans (s.fld_setReg_ne _ hg)⟩

/-- Freeing pool bytes changes channel records only, and no replay buffer. -/
theorem State.freePool_chans (s : State) (q : QPkt) :
    (∃ chans, s.freePool q = { s with swc := { s.swc with chans := chans } }) ∧
      ∀ c, ((s.freePool q).chan c).replay = (s.chan c).replay := by
  unfold State.freePool
  split
  · exact ⟨⟨s.swc.chans, rfl⟩, fun _ => rfl⟩
  · exact ⟨⟨s.swc.chans, rfl⟩, fun _ => rfl⟩
  next d _ =>
    split
    · exact ⟨⟨s.swc.chans, rfl⟩, fun _ => rfl⟩
    · refine ⟨⟨_, rfl⟩, fun c => ?_⟩
      by_cases h : c = d.val
      · rw [h, State.chan_setChan_same]
      · rw [s.chan_setChan_ne _ h]

/-- A channel's account of a packet that it sends for the first time: record, sequence number, counters. -/
def State.countSent (s : State) (c : Nat) (q : QPkt) (x : Chan) : State :=
  let k := q.pkt.cls
  let x := { x with replay := x.replay ++ [q], used := FMap.set (fun _ => 0) x.used k (x.usedOf k + q.pkt.len),
                    lastIn := FMap.set (fun _ => 0) x.lastIn k (q.point.code + 1),
                    egress := if q.pkt.vc = 7 then x.egress else x.egress - q.pkt.len }
  let s := (s.setChan c x).setFld (R.SWC_CH_STATUS.UNACK c) x.replay.length
  ((s.addFld (R.SWC_CH_STATUS.TX_SEQ c) 1).addFld (R.SWC_CH_CNT.TX_PKTS c) 1).count (R.SWC_CH_CNT.TX_BYTES c) q.pkt.len

/-- A packet that has been sent leaves its link's queue; a port notes that it has sent. -/
def State.leaveQueue (s : State) (c : Nat) (q : QPkt) : State :=
  let s := { s with swc := { s.swc with linkq := s.swc.linkq.erase q } }
  let s := if q.link < 32 then s.noteDepth q.link q.pkt.vc.toNat else s
  if c < 256 then s else s.setElkPort (c - 256) { s.elkPort (c - 256) with busyAt := s.tick }

theorem State.transmit_eq (s : State) (c : Nat) (q : QPkt) (x : Chan) : s.transmit c q x =
    ((((s.countSent c q x).leaveQueue c q).freePool q).capture c 1 q.pkt q.isSealed).sendWords c q.pkt q.stomp := rfl

theorem State.replay_countSent (s : State) (c : Nat) (q : QPkt) (x : Chan) :
    ((s.countSent c q x).chan c).replay = x.replay ++ [q] := congrArg Chan.replay (s.chan_setChan_same c _)

theorem State.byte_countSent (s : State) (c : Nat) (q : QPkt) (x : Chan) (a : Nat) : (s.countSent c q x).byte a = s.byte a := rfl

theorem State.txSeq_countSent (s : State) (c : Channel) (q : QPkt) (x : Chan) :
    (s.countSent c q x).fld (R.SWC_CH_STATUS.TX_SEQ c) =
      (s.fld (R.SWC_CH_STATUS.TX_SEQ c) + 1) % 2 ^ (R.SWC_CH_STATUS.TX_SEQ c).w := by
  have hoff (k : Nat) : (R.SWC_CH_STATUS.TX_SEQ c).off ≠ R.SWC_CH_CNT.adr c k := by
    simp only [R.SWC_CH_STATUS.TX_SEQ, R.SWC_CH_STATUS.adr, R.SWC_CH_CNT.adr]; omega
  rw [State.countSent, State.fld_count, State.fld_addFld_ne _ _ (hoff 2), State.fld_addFld_ne _ _ (hoff 0),
    State.fld_addFld_same _ _ _ (by simp [R.SWC_CH_STATUS.TX_SEQ]),
    State.fld_setFld_apart _ _ _ _ (by simp [R.SWC_CH_STATUS.UNACK])
      (.inr (by simp [R.SWC_CH_STATUS.TX_SEQ, R.SWC_CH_STATUS.UNACK])), State.fld_setChan]

theorem State.txPkts_countSent (s : State) (c : Channel) (q : QPkt) (x : Chan) :
    (s.countSent c q x).fld (R.SWC_CH_CNT.TX_PKTS c) = (s.fld (R.SWC_CH_CNT.TX_PKTS c) + 1) % 2 ^ (R.SWC_CH_CNT.TX_PKTS c).w := by
  have hbytes : (R.SWC_CH_CNT.TX_PKTS c).off ≠ (R.SWC_CH_CNT.TX_BYTES c).off := by
    simp [R.SWC_CH_CNT.TX_PKTS, R.SWC_CH_CNT.TX_BYTES, R.SWC_CH_CNT.adr]
  have hstatus : (R.SWC_CH_CNT.TX_PKTS c).off ≠ R.SWC_CH_STATUS.adr c := by
    simp only [R.SWC_CH_CNT.TX_PKTS, R.SWC_CH_STATUS.adr, R.SWC_CH_CNT.adr]; omega
  rw [State.countSent, State.fld_count, State.fld_addFld_ne _ _ hbytes,
    State.fld_addFld_same _ _ _ (by simp [R.SWC_CH_CNT.TX_PKTS]), State.fld_addFld_ne _ _ hstatus,
    State.fld_setFld_apart _ _ _ _ (by simp [R.SWC_CH_STATUS.UNACK]) (.inl hstatus), State.fld_setChan]

theorem State.leaveQueue_frame (s : State) (c : Nat) (q : QPkt) :
    (∃ regs tel elk, s.leaveQueue c q =
      { s with regs := regs, tel := tel, elk := elk, swc := { s.swc with linkq := s.swc.linkq.erase q } }) ∧
    ∀ g : Field, g.off < R.SWC_LINK_Q.adr 0 0 → (s.leaveQueue c q).fld g = s.fld g := by
  have hdepth := { s with swc := { s.swc with linkq := s.swc.linkq.erase q } }.noteDepth_frame q.link q.pkt.vc.toNat
  obtain ⟨⟨regs, tel, hframe⟩, hfld⟩ := hdepth
  have hlow (g : Field) (hg : g.off < R.SWC_LINK_Q.adr 0 0) := hfld g (by simp only [R.SWC_LINK_Q.adr] at hg ⊢; omega)
  rw [hframe] at hlow
  unfold State.leaveQueue
  dsimp only
  rw [hframe]
  split <;> split
  · exact ⟨⟨regs, tel, s.elk, rfl⟩, hlow⟩
  · exact ⟨⟨s.regs, s.tel, s.elk, rfl⟩, fun _ _ => rfl⟩
  · exact ⟨⟨regs, tel, _, rfl⟩, hlow⟩
  · exact ⟨⟨s.regs, s.tel, _, rfl⟩, fun _ _ => rfl⟩

@[simp] theorem State.fld_sendWords (s : State) (c : Nat) (p : Packet) (stomp : Bool) (g : Field) :
    (s.sendWords c p stomp).fld g = s.fld g := rfl
@[simp] theorem State.chan_sendWords (s : State) (c : Nat) (p : Packet) (stomp : Bool) (d : Nat) :
    (s.sendWords c p stomp).chan d = s.chan d := rfl
@[simp] theorem State.byte_sendWords (s : State) (c : Nat) (p : Packet) (stomp : Bool) (a : Nat) :
    (s.sendWords c p stomp).byte a = s.byte a := rfl
@[simp] theorem State.chan_count (s : State) (f : Field) (n c : Nat) : (s.count f n).chan c = s.chan c := rfl

/-- A packet on its way out leaves its queue and its pool and passes the trace. -/
theorem State.sendOff_frame (s : State) (c : Channel) (q : QPkt) :
    let u := ((s.leaveQueue c q).freePool q).capture c 1 q.pkt q.isSealed
    u.out = s.out ∧ u.swc.linkq = s.swc.linkq.erase q ∧ (u.chan c).replay = (s.chan c).replay ∧
      (∀ g : Field, g.off < R.SWC_LINK_Q.adr 0 0 → u.fld g = s.fld g) ∧ SameMemory s u := by
  obtain ⟨⟨regs, tel, elk, hqueue⟩, hqueueFld⟩ := s.leaveQueue_frame c q
  obtain ⟨⟨chans, hfree⟩, hreplay⟩ := (s.leaveQueue c q).freePool_chans q
  obtain ⟨⟨regs', tel', sec, free, htrace⟩, htraceFld⟩ :=
    ((s.leaveQueue c q).freePool q).onlyTrace_capture c 1 q.pkt q.isSealed
  have hreplay' : ((s.leaveQueue c q).chan c).replay = (s.chan c).replay := by rw [hqueue]; rfl
  refine ⟨?_, ?_, ?_, fun g hg => ?_, fun a => ?_⟩
  · rw [htrace, hfree, hqueue]
  · rw [htrace, hfree, hqueue]
  · rw [← hreplay', ← hreplay c, htrace]
    rfl
  · rw [htraceFld g (hg.trans (by decide)), ← hqueueFld g hg, hfree]
    rfl
  · rw [htrace, hfree, hqueue]
    rfl

/-- What a transmission leaves of the channel's account, of the link queues and of memory, and what it sends. -/
theorem State.transmit_frame (s : State) (c : Channel) (q : QPkt) (x : Chan) :
    let u := s.transmit c q x
    u.out = .packet c q.pkt q.stomp :: s.out ∧ u.swc.linkq = s.swc.linkq.erase q ∧ (u.chan c).replay = x.replay ++ [q] ∧
      (∀ g : Field, g.off < R.SWC_LINK_Q.adr 0 0 → u.fld g = (s.countSent c q x).fld g) ∧ SameMemory s u := by
  obtain ⟨hout, hqueue, hreplay, hfld, hbytes⟩ := (s.countSent c q x).sendOff_frame c q
  rw [State.transmit_eq]
  refine ⟨congrArg (Output.packet c q.pkt q.stomp :: ·) hout, hqueue, ?_, fun g hg => ?_, fun a => ?_⟩
  · rw [State.chan_sendWords, hreplay, State.replay_countSent]
  · rw [State.fld_sendWords, hfld g hg]
  · rw [State.byte_sendWords, hbytes a, State.byte_countSent]

/-! PACKET_SEND. -/

section
variable {c : Channel} {s : State} (hup : s.chState c = chUP) (hleft : s.left = false)
include hup hleft

theorem execPacketSend_replay {q : QPkt} {r : List QPkt} (hresend : (s.chan c).resend = q :: r) : execPacketSend c s = .next
    (((s.setChan c { s.chan c with resend := r }).count (R.SWC_CH_CNT.REPLAYED c) 1).sendWords c q.pkt q.stomp) := by
  simp only [execPacketSend, hup, hleft, ne_eq, not_true_eq_false, Bool.false_eq_true, or_self, if_false, hresend]

theorem execPacketSend_chosen (hresend : (s.chan c).resend = [])
    (hjoining : s.flag (R.SWC_LINK_STATUS.JOINING (s.fld (R.SWC_CH_STATUS.LINK c))) = false)
    (hroom : (s.chan c).replay.length < 2048) {q : QPkt} {x : Chan} {s1 : State}
    (hchosen : s.arbitrate c (s.swc.linkq.filter (s.isFor c)) = (some (q, x), s1)) :
    execPacketSend c s = .next (s1.transmit c q x) := by
  simp only [execPacketSend, hup, hleft, ne_eq, not_true_eq_false, Bool.false_eq_true, or_self, if_false, hresend, hjoining,
    Bool.and_false, Bool.not_false, false_or, if_neg (Nat.not_le.mpr hroom), hchosen]

/-- A replay's next packet goes out before all others (R148). -/
theorem completes_packetSend_replay {q : QPkt} {r : List QPkt} (hresend : (s.chan c).resend = q :: r) :
    Completes (.packetSend c) s fun u =>
      u.out = .packet c q.pkt q.stomp :: s.out ∧ (u.chan c).resend = r ∧ (u.chan c).replay = (s.chan c).replay
        ∧ u.fld (R.SWC_CH_CNT.REPLAYED c) = (s.fld (R.SWC_CH_CNT.REPLAYED c) + 1) % 2 ^ (R.SWC_CH_CNT.REPLAYED c).w
        ∧ SameMemory s u := by
  have hchan : (s.setChan c { s.chan c with resend := r }).chan c = { s.chan c with resend := r } := State.chan_setChan_same ..
  refine ⟨_, execPacketSend_replay hup hleft hresend, rfl, ?_, ?_, ?_, fun _ => rfl⟩
  · rw [State.chan_sendWords, State.chan_count, hchan]
  · rw [State.chan_sendWords, State.chan_count, hchan]
  rw [State.fld_sendWords, State.fld_count, State.fld_addFld_same _ _ _ (by simp [R.SWC_CH_CNT.REPLAYED]), State.fld_setChan]

/-- A packet that waits alone goes out where nothing keeps it, and stays in the replay buffer (R146, R161). -/
theorem completes_packetSend_single (hresend : (s.chan c).resend = [])
    (hjoining : s.flag (R.SWC_LINK_STATUS.JOINING (s.fld (R.SWC_CH_STATUS.LINK c))) = false)
    (hroom : (s.chan c).replay.length < 2048) {q : QPkt} (hwaits : s.swc.linkq = [q]) (hfor : s.isFor c q = true)
    (hmay : s.maySend c q = true) (htokens : q.pkt.vc = 7 → q.pkt.len ≤ (s.chan c).tokens)
    (hegress : q.pkt.vc ≠ 7 → s.egressOk c q = true) : Completes (.packetSend c) s fun u =>
      u.out = .packet c q.pkt q.stomp :: s.out ∧ u.swc.linkq = [] ∧ (u.chan c).replay = (s.chan c).replay ++ [q]
        ∧ u.fld (R.SWC_CH_STATUS.TX_SEQ c) = (s.fld (R.SWC_CH_STATUS.TX_SEQ c) + 1) % 2 ^ (R.SWC_CH_STATUS.TX_SEQ c).w
        ∧ u.fld (R.SWC_CH_CNT.TX_PKTS c) = (s.fld (R.SWC_CH_CNT.TX_PKTS c) + 1) % 2 ^ (R.SWC_CH_CNT.TX_PKTS c).w
        ∧ SameMemory s u := by
  obtain ⟨x, n, harb, hreplay⟩ := State.arbitrate_single hmay htokens hegress
  have hfilter : s.swc.linkq.filter (s.isFor c) = [q] := by simp [hwaits, hfor]
  have hfree (g : Field) : State.fld { s with free := n } g = s.fld g := rfl
  obtain ⟨hout, hqueue, hrecord, hfld, hbytes⟩ := State.transmit_frame { s with free := n } c q x
  refine ⟨_, execPacketSend_chosen hup hleft hresend hjoining hroom (hfilter ▸ harb), hout, ?_, hreplay ▸ hrecord, ?_, ?_,
    hbytes⟩
  · rw [hqueue, hwaits]
    exact List.erase_cons_head ..
  · rw [hfld, State.txSeq_countSent, hfree]
    simp only [R.SWC_CH_STATUS.TX_SEQ, R.SWC_CH_STATUS.adr, R.SWC_LINK_Q.adr]; omega
  · rw [hfld, State.txPkts_countSent, hfree]
    simp only [R.SWC_CH_CNT.TX_PKTS, R.SWC_CH_CNT.adr, R.SWC_LINK_Q.adr]; omega

end

/-- Settles O35: an arriving packet takes the one branch that its header and trailer select, and what routing reads does not depend
on the channel's account of it; a packet that waits alone is the only one that arbitration can choose. -/
theorem packetsOnChannels : Obligations.PacketsOnChannels := by
  refine ⟨fun c p s hup hnak hdups hroom => ⟨execPacketReceive_intact hup hnak hdups hroom,
      completes_packetReceive_unlinked hup hnak hdups hroom, fun p' => completes_packetReceive_deliver hup hnak hdups hroom,
      fun hcrc trailer flagged hbad => execPacketReceive_badHeader hup hnak hdups hbad trailer flagged, ?_,
      fun trailer flagged hbad => ?_⟩,
    fun c s hup hleft => ⟨fun q r => completes_packetSend_replay hup hleft, fun hresend _ hjoining hroom =>
      ⟨fun q x s1 => execPacketSend_chosen hup hleft hresend hjoining hroom,
        fun q => completes_packetSend_single hup hleft hresend hjoining hroom⟩⟩⟩
  · rw [exec_packetReceive, execPacketReceive_goodHeader hup hnak hdups hroom, if_neg (by simp),
      if_pos ⟨Bool.false_ne_true, rfl⟩]
  · have hfails {w : BitVec 32} (hw : flagged = true ∨ trailer ≠ w) : ¬ (¬ flagged = true ∧ trailer = w) :=
      fun h => hw.elim h.1 fun hne => hne h.2
    rw [exec_packetReceive, execPacketReceive_goodHeader hup hnak hdups hroom, if_neg (hfails (hbad.imp_right And.left)),
      if_neg (hfails (hbad.imp_right And.right))]

end Sys2Proof.Machine
end

section
/-! ## The spare of a Ladle (R195, R232) -/

namespace Sys2Proof.Machine

open Sys2Proof

/-- Position 0 is being replaced by the spare. Thread 0, in partition 0, is RUNNABLE; the NO_RESOURCE of a refused engine instruction
has armed a status trap (R232, R244), for which it has no handler. The partition's fault ring holds 16 records at the start of HBM. -/
def heldStatusTrap : State :=
  let s := [(R.LDL_POS_STATUS.STATE 0, 1), (R.SEQ_THREAD_CFG.ASSIGNED 0, 1), (R.SEQ_THREAD_CFG.TRAP_STATUS 0, 1),
    (R.SEQ_THREAD_STATUS.STATE 0, stRunnable), (R.PRT_FAULT_BASE.LOG2N 0, 4), (R.PRT_FAULT_IDX.ENABLE 0, 1)].foldl
      (fun (s : State) e => s.setFld e.1 e.2) State.reset
  { s.engineRefused 0 { st := 1 } sNORES with ldl := { s.ldl with repl := some (0, 0) } }

/-- The end of the replacement takes the held trap, and its fault record (Table 3.8) goes to the ring. -/
theorem execSpareReplacementDone_heldStatusTrap :
    ∃ u, execSpareReplacementDone heldStatusTrap = .next u ∧ u.tstate 0 = stFaulted ∧ u.byte 0 = 1 :=
  ⟨_, rfl, by decide +kernel, by decide +kernel⟩

/-- Refutes O46: its clause on SPARE_REPLACEMENT_DONE says that no byte of HBM changes, but the command ends by taking the status
traps that threads hold, as R232 wants it before a thread next issues. In `heldStatusTrap` there is no handler, so the trap ends in
FAULTED and its record is written to the partition's fault ring, which stands in HBM (R64, R65). -/
theorem not_kernels : ¬ Obligations.Kernels := by
  rintro ⟨-, -, -, -, -, -, -, hdone, -, -⟩
  obtain ⟨t, hexec, -, -, -, hmemory⟩ := hdone heldStatusTrap 0 0 rfl (by decide)
  obtain ⟨u, hexec', -, hrecord⟩ := execSpareReplacementDone_heldStatusTrap
  obtain rfl : u = t := Host.Outcome.next.inj (hexec'.symm.trans hexec)
  exact absurd (hrecord.symm.trans (hmemory 0)) (by decide)

end Sys2Proof.Machine
end

section
/-! ## Reliability: the patrol, the controller's restart, tray removal, log reads, a scheduler fault
(R34, R195, R196, R344, R346, R347, R357, R362) -/

namespace Sys2Proof.Machine

open Sys2Proof

/-! The patrol (R34, R346). -/

/-- The line that the patrol takes after its present one: units not yet written are skipped, and HBM's end is followed by its start. -/
def State.patrolNext (s : State) : Nat :=
  let h := s.rel.patrol
  let next := if FMap.get (fun _ => false) s.units (h / 1024) then h + 1 else (h / 1024 + 1) * 1024
  if hbmLines ≤ next then 0 else next

section
variable {s : State} (hperiod : s.fld R.REL_SCRUB.PERIOD_H ≠ 0) (hlevel : s.fld R.GLB_POWER_STATUS.LEVEL < 2)
include hperiod hlevel

/-- Within a pass the patrol takes its next line whatever the tick. -/
theorem execPatrolScrub_within (e : Ecc) (hline : s.rel.patrol ≠ 0) : execPatrolScrub e s =
    let s1 := s.hbmRead s.rel.patrol e none
    .next { s1 with rel := { s1.rel with patrol := s.patrolNext } } := by
  rw [execPatrolScrub, if_neg (by omega)]
  simp [hline, State.patrolNext]

theorem execPatrolScrub_begins (e : Ecc) (hline : s.rel.patrol = 0)
    (hdue : s.rel.patrolAt = 0 ∨ s.rel.patrolAt + s.patrolPeriod ≤ s.tick) : execPatrolScrub e s =
    let s1 := s.hbmRead s.rel.patrol e none
    .next { s1 with rel := { s1.rel with patrol := s.patrolNext, patrolAt := s1.tick } } := by
  have hnow : ¬ (s.rel.patrolAt ≠ 0 ∧ s.tick < s.rel.patrolAt + s.patrolPeriod) := by omega
  rw [execPatrolScrub, if_neg (by omega)]
  simp [hline, hnow, State.patrolNext]

theorem execPatrolScrub_early (e : Ecc) (hline : s.rel.patrol = 0) (hbegun : s.rel.patrolAt ≠ 0)
    (hearly : s.tick < s.rel.patrolAt + s.patrolPeriod) : execPatrolScrub e s = .next s := by
  rw [execPatrolScrub, if_neg (by omega)]
  simp [hline, hbegun, hearly]

end

theorem execPatrolScrub_paused {s : State} (h : s.fld R.REL_SCRUB.PERIOD_H = 0 ∨ 2 ≤ s.fld R.GLB_POWER_STATUS.LEVEL) (e : Ecc) :
    execPatrolScrub e s = .next s := by
  rw [execPatrolScrub, if_pos h]

/-! On-die storage and lost Ledger sets (R347, R139). -/

theorem execSramUncorrectable_listed {x : Storage} (h : x.row.1 ≠ 0) (s : State) : execSramUncorrectable x s =
    .next ((((s.strike x).event R.REL_EVENTS.SRAM_UE 9).count R.REL_COUNTS.SRAM_UE).faultLog 0x0A01 0 0 0 x.row.1 x.row.2) := by
  rw [execSramUncorrectable, if_neg h]

theorem execLedgerSetLostExpire_lost {n : Fin 1048576} {s : State} {t : Nat} (h : FMap.find s.home.lostSets n = some t) :
    execLedgerSetLostExpire n s = .next (if t + 8192 ≤ s.tick then
      { s with home := { s.home with lostSets := FMap.del s.home.lostSets n } } else s) := by
  simp only [execLedgerSetLostExpire, h]

/-! The controller's restart (R344). -/

theorem State.quote_endSealedRead (s : State) (ok : Bool) : (s.endSealedRead ok).sec.quote = s.sec.quote := by
  unfold State.endSealedRead
  split
  · rfl
  · dsimp only
    split_ifs <;> rfl

/-- A failed write of the Debug Epoch leaves the quote under way. -/
theorem State.quote_failEpoch (s : State) : s.failEpoch.sec.quote = s.sec.quote := by
  unfold State.failEpoch
  split
  · rfl
  · exact State.quote_endSealedRead _ false

theorem execIddaumLockstepRestart_idle {s : State} (hrestart : s.mgt.restart = none) (hprog : s.mgt.prog = none)
    (hquote : s.sec.quote = none) : execIddaumLockstepRestart s =
    let s1 : State := { s.failEpoch with mgt := { s.failEpoch.mgt with restart := some s.failEpoch.tick } }
    .next (s1.event R.REL_EVENTS.IDDAUM_RESTART 9) := by
  have hdrop : s.dropProgram = s := by rw [State.dropProgram, hprog]
  have hquote' : s.failEpoch.sec.quote = none := s.quote_failEpoch.trans hquote
  simp only [execIddaumLockstepRestart, hrestart, hdrop, hquote', Option.isSome_none, Bool.false_eq_true, if_false]

theorem execIddaumLockstepRestart_running {s : State} {t : Nat} (h : s.mgt.restart = some t) :
    execIddaumLockstepRestart s = .next s := by
  rw [execIddaumLockstepRestart, if_pos (by rw [h]; rfl)]

theorem execIddaumRestartDone_running {s : State} {t : Nat} (h : s.mgt.restart = some t) : execIddaumRestartDone s =
    .next (({ s with mgt := { s.mgt with restart := none } } : State).faultLog 0x0B01 0 0 0 (s.tick - t)
      (s.fld R.SEC_STATUS.FW_SLOT)) := by
  rw [execIddaumRestartDone, State.restartDone, h]

theorem execIddaumRestartDone_idle {s : State} (h : s.mgt.restart = none) : execIddaumRestartDone s = .next s := by
  rw [execIddaumRestartDone, State.restartDone, h]

/-! Tray removal (R357). -/

theorem execTrayPresentDeassert_begins {s : State} (hen : s.flag R.REL_TRAY.EN = true) (hstate : s.fld R.REL_TRAY.STATE = 0) :
    execTrayPresentDeassert s =
      let s1 := ((s.dropQueues).colAbortAll 0x10).setFld R.REL_TRAY.STATE 1
      let s2 : State := { s1 with rel := { s1.rel with trayAt := ((s.dropQueues).colAbortAll 0x10).tick } }
      .next (s2.event R.REL_EVENTS.TRAY_DRAIN 8).flushDirty := by
  rw [execTrayPresentDeassert, if_neg (by simp [hen, hstate])]
  rfl

theorem execTrayPresentDeassert_ignored {s : State} (h : s.flag R.REL_TRAY.EN = false ∨ s.fld R.REL_TRAY.STATE ≠ 0) :
    execTrayPresentDeassert s = .next s := by
  rw [execTrayPresentDeassert, if_pos (by simpa using h)]

/-- The state once a LEAVE has gone out on every channel that is UP. -/
def State.leaveForTray (s : State) : State :=
  (upFrom 0 262).foldl (fun (s : State) c =>
    if s.fld (R.SWC_CH_STATUS.STATE c) = chUP then
      s.sendCtrl c (.leave (BitVec.ofNat 16 s.feid) 1 (BitVec.ofNat 64 s.tick)) else s) s

theorem execTrayDrainEnd_drained {s : State} (hstate : s.fld R.REL_TRAY.STATE = 1) (hdrained : s.drained357 = true) :
    execTrayDrainEnd s = .next ((s.leaveForTray.setFld R.REL_TRAY.STATE 2).faultLog 0x0A03 0 0 0
      (s.leaveForTray.tick - s.leaveForTray.rel.trayAt) (b2n (!s.leaveForTray.drained357))) := by
  rw [execTrayDrainEnd, if_neg (not_not_intro hstate), if_neg (fun h => h.1 hdrained)]
  rfl

theorem execTrayDrainEnd_waits {s : State} (hstate : s.fld R.REL_TRAY.STATE = 1) (hdrained : s.drained357 = false)
    (hearly : s.tick - s.rel.trayAt < s.fld R.REL_TRAY.DRAIN_TICKS) : execTrayDrainEnd s = .next s.flushDirty := by
  rw [execTrayDrainEnd, if_neg (not_not_intro hstate), if_pos (by simpa [hdrained] using hearly)]

theorem execTrayDrainEnd_ignored {s : State} (h : s.fld R.REL_TRAY.STATE ≠ 1) : execTrayDrainEnd s = .next s := by
  rw [execTrayDrainEnd, if_pos h]

/-! Log reads (R362). -/

/-- Writes of a run of registers, each its own word. -/
theorem State.foldl_setReg {adr : Nat → Nat} (hadr : Function.Injective adr) (v : Nat → Word) : ∀ (n lo : Nat) (s : State),
    let u := (upFrom lo n).foldl (fun (s : State) k => s.setReg (adr k) (v k)) s
    (∀ k, lo ≤ k → k < lo + n → u.reg (adr k) = v k) ∧ u = { s with regs := u.regs } ∧
      ∀ o, (∀ k, lo ≤ k → k < lo + n → o ≠ adr k) → u.reg o = s.reg o
  | 0, _, _ => ⟨fun _ _ _ => by omega, rfl, fun _ _ => rfl⟩
  | n + 1, lo, s => by
    obtain ⟨hwritten, honly, hkept⟩ := State.foldl_setReg hadr v n (lo + 1) (s.setReg (adr lo) (v lo))
    rw [upFrom, List.foldl_cons]
    refine ⟨fun k hlo hhi => ?_, honly, fun o ho => ?_⟩
    · by_cases hk : k = lo
      · subst hk
        rw [hkept _ fun j hj _ he => absurd (hadr he) (by omega), State.reg_setReg_same]
      · exact hwritten k (by omega) (by omega)
    · rw [hkept o fun k hlo hhi => ho k (by omega) (by omega), State.reg_setReg_ne _ _ (ho lo (Nat.le_refl lo) (by omega))]

/-- A field of 64 bits of a record, as the word that shows it. -/
theorem ofNat_getBits_word {w : Nat} (r : BitVec w) (lo : Nat) :
    BitVec.ofNat 64 (getBits r.toNat lo 64) = (r >>> lo).setWidth 64 := by
  apply BitVec.eq_of_toNat_eq
  simp [getBits, Nat.shiftRight_eq_div_pow]

theorem completes_logRead {via : Via} {s : State} (hsees : s.sees via R.REL_LOG_ACC_CMD.adr true = true) (poison : Bool)
    (i : Fin 262144) : Completes (.logRead via poison i) s fun u =>
      let r := FMap.get (fun _ => 0) (if poison then s.rel.poisonLog else s.rel.faultLog) i
      (∀ k, k < 4 → u.reg (R.REL_LOG_ACC_DATA.adr k) = (r >>> (64 * k)).setWidth 64) ∧ u = { s with regs := u.regs }
        ∧ ∀ o, (∀ k, k < 4 → o ≠ R.REL_LOG_ACC_DATA.adr k) → u.reg o = s.reg o := by
  have hadr : Function.Injective R.REL_LOG_ACC_DATA.adr := fun a b h => by simpa [R.REL_LOG_ACC_DATA.adr] using h
  let r := FMap.get (fun _ => 0) (if poison then s.rel.poisonLog else s.rel.faultLog) i
  obtain ⟨hwritten, honly, hkept⟩ :=
    State.foldl_setReg hadr (fun k => BitVec.ofNat 64 (getBits r.toNat (64 * k) 64)) 4 0 s
  refine ⟨_, ?_, fun k hk => (hwritten k (Nat.zero_le k) (by omega)).trans (ofNat_getBits_word r _), honly,
    fun o ho => hkept o fun k _ hk => ho k (by omega)⟩
  rw [exec_logRead, execLogRead, State.gate_seen hsees]

/-! A fault of a position's scheduler (R195, R196). -/

theorem State.startReplace_noSpare {s : State} (h : s.fld R.LDL_STATUS.SPARE_PHYS = 0x1F) (k : Nat) :
    s.startReplace k = s.ldlEvent R.LDL_EVENTS.SPARE_NONE := by
  rw [State.startReplace, if_pos (.inl h)]

theorem execSchedulerBankFault_spare {k : Fin 16} {s : State} (hpos : s.posState k = 0)
    (hspare : s.fld R.LDL_STATUS.SPARE_PHYS ≠ 0x1F) (hrepl : s.ldl.repl = none) :
    execSchedulerBankFault k s = .next (s.startReplace k) := by
  rw [execSchedulerBankFault, if_neg (not_not_intro hpos), if_neg (by simp [hspare, hrepl])]

theorem execSchedulerBankFault_noSpare {k : Fin 16} {s : State} (hpos : s.posState k = 0)
    (hspare : s.fld R.LDL_STATUS.SPARE_PHYS = 0x1F) :
    execSchedulerBankFault k s = .next ((s.ldlEvent R.LDL_EVENTS.SPARE_NONE).disablePos k) := by
  rw [execSchedulerBankFault, if_neg (not_not_intro hpos), if_pos (.inl hspare), State.startReplace_noSpare hspare]

theorem execSchedulerBankFault_inactive {k : Fin 16} {s : State} (h : s.posState k ≠ 0) :
    execSchedulerBankFault k s = .next s := by
  rw [execSchedulerBankFault, if_pos h]

/-- Settles O53: each command is the one branch of it that the statement's case selects. The restart finds no quote to drop after the
Debug Epoch's write has failed, since that failure leaves the quote; the four words of a log read stand at four addresses. -/
theorem reliability : Obligations.Reliability := by
  refine ⟨fun e s => ⟨fun hperiod hlevel => ⟨execPatrolScrub_within hperiod hlevel e, execPatrolScrub_begins hperiod hlevel e,
      execPatrolScrub_early hperiod hlevel e⟩, fun h => execPatrolScrub_paused h e⟩,
    fun x s => ⟨fun h => execSramUncorrectable_listed h s, fun i header => rfl⟩,
    fun n s t ht => ⟨fun hdue => ?due, fun hearly => ?early⟩,
    fun s => ⟨execIddaumLockstepRestart_idle,
      fun t ht => ⟨execIddaumLockstepRestart_running ht, execIddaumRestartDone_running ht⟩,
      execIddaumRestartDone_idle⟩,
    fun s => ⟨execTrayPresentDeassert_begins, execTrayPresentDeassert_ignored,
      fun hstate => ⟨execTrayDrainEnd_drained hstate, execTrayDrainEnd_waits hstate⟩, execTrayDrainEnd_ignored⟩,
    fun via poison i s hsees => completes_logRead hsees poison i,
    fun k s => ⟨execSchedulerBankFault_spare, execSchedulerBankFault_noSpare, execSchedulerBankFault_inactive⟩⟩
  case due => rw [exec_ledgerSetLostExpire, execLedgerSetLostExpire_lost ht, if_pos hdue]
  case early => rw [exec_ledgerSetLostExpire, execLedgerSetLostExpire_lost ht, if_neg (Nat.not_le.mpr hearly)]

end Sys2Proof.Machine
end

section
/-! ## Reservations, control messages, waits and aborts of collectives (R205 to R207, R212, R214, R219 to R221) -/

namespace Sys2Proof.Machine

open Sys2Proof

/-! Requests for slots (R205, R206). -/

section
variable {p : PartNo} {cid : BitVec 32} {s : State} {h : Nat} {e : ColEntry} (hcol : s.colOf p cid = some (h, e)) (hres : e.res = 0)
include hcol hres

theorem execReservationGrant_granted (habort : e.abort = none) (hroom : s.grantable p cid.toNat e.slots = true) :
    execReservationGrant p cid s =
      .next ((s.reserve e.slots).decided h { e with res := 1, held := s.active, positions := s.active }) := by
  simp only [execReservationGrant, hcol]
  rw [if_pos ⟨hres, Option.isNone_iff_eq_none.mpr habort, hroom⟩]

omit hres in
theorem execReservationGrant_waits (hroom : s.grantable p cid.toNat e.slots = false) :
    execReservationGrant p cid s = .next s := by
  simp only [execReservationGrant, hcol, hroom, Bool.false_eq_true, and_false, if_false]

theorem execReservationWithdraw_due (hdue : e.reqAt + 64 ≤ s.tick) : execReservationWithdraw p cid s =
    let e1 := { e with res := 2, flags := e.flags ||| 1, positions := s.active }
    .next (if e.abort.isSome then (s.raise R.COL_EVENTS.SPILL).setCol h e1
      else (s.raise R.COL_EVENTS.SPILL).decided h e1) := by
  simp only [execReservationWithdraw, hcol]
  rw [if_neg (by omega)]

omit hres in
theorem execReservationWithdraw_early (hearly : s.tick < e.reqAt + 64) : execReservationWithdraw p cid s = .next s := by
  simp only [execReservationWithdraw, hcol]
  rw [if_pos (.inr hearly)]

end

section
variable {p : PartNo} {cid : BitVec 32} {s : State} {r : ColRsv} (hrsv : s.rsvOf p cid.toNat = some r)
include hrsv

theorem execRsvExpire_due (hdue : r.reqAt + s.fld R.COL_CTL.JOIN_TICKS ≤ s.tick) : execRsvExpire p cid s =
    .next (((s.unreserve r.held r.slots).setRsv p cid.toNat none).count R.COL_COUNTS1.RSV_EXPIRED) := by
  simp only [execRsvExpire, hrsv, hdue, if_true]

variable (hcol : s.colOf p cid = none) (hres : r.res = 0)
include hcol hres

theorem execReservationGrant_rsv (hroom : s.grantable p cid.toNat r.slots = true) : execReservationGrant p cid s =
    .next ((s.reserve r.slots).setRsv p cid.toNat (some { r with res := 1, held := s.active })) := by
  simp only [execReservationGrant, hcol, hrsv]
  rw [if_pos ⟨hres, hroom⟩]

theorem execReservationWithdraw_rsv (hdue : r.reqAt + 64 ≤ s.tick) : execReservationWithdraw p cid s =
    .next ((s.raise R.COL_EVENTS.SPILL).setRsv p cid.toNat (some { r with res := 2 })) := by
  simp only [execReservationWithdraw, hcol, hrsv]
  rw [if_pos ⟨hres, hdue⟩]

end

/-! Control messages (R207, R208, R211, R212, R214, R221). -/

@[simp] theorem ColEntry.abort_heardFrom (e : ColEntry) (f now : Nat) : (e.heardFrom f now).abort = e.abort := rfl
@[simp] theorem ColEntry.joined_heardFrom (e : ColEntry) (f now : Nat) : (e.heardFrom f now).joined = e.joined := rfl
@[simp] theorem ColEntry.members_heardFrom (e : ColEntry) (f now : Nat) : (e.heardFrom f now).members = e.members := rfl

theorem State.colControl_damaged {s : State} {type : Nat} {p : Packet} (hop : p.op = opCOLLCTL) (hi : s.intact p = false)
    (htype : ccType p = type) : s.colControl type p = s.takeLocal p := by
  simp only [State.colControl, hop, htype, hi, ne_eq, not_true, or_self, if_false, Bool.not_false, if_true]

section
variable {s : State} {type : Nat} {p : Packet} (hop : p.op = opCOLLCTL) (hi : s.intact p = true)
  (htag : p.tag = (s.takeLocal p).tagOf (partOf p.tag))
include hop hi htag

theorem State.colControl_active {h : Nat} {e : ColEntry}
    (hcol : (s.takeLocal p).colOf (partOf p.tag) (BitVec.ofNat 32 (ccCid p)) = some (h, e)) (htype : ccType p = type) :
    s.colControl type p = (s.takeLocal p).colMessage h e p := by
  rw [State.colControl, if_neg (by simp [hop, htype]), if_neg (by simp [hi]), if_neg (not_not_intro htag)]
  simp only [hcol]

section
variable (hcol : (s.takeLocal p).colOf (partOf p.tag) (BitVec.ofNat 32 (ccCid p)) = none)
include hcol

/-- A message for a collective that is not yet issued here is kept. -/
theorem State.colControl_early (hrec : (s.takeLocal p).abortRecord (partOf p.tag) (ccCid p) = none) (htype : ccType p = type) :
    s.colControl type p =
      { s.takeLocal p with col := { (s.takeLocal p).col with early := (s.takeLocal p).col.early ++ [p] } } := by
  rw [State.colControl, if_neg (by simp [hop, htype]), if_neg (by simp [hi]), if_neg (not_not_intro htag)]
  simp only [hcol, hrec, Option.isSome_none, Bool.false_eq_true, if_false]

/-- A message for a collective that has an abort record is discarded. -/
theorem State.colControl_aborted {a : ColAbort} (hrec : (s.takeLocal p).abortRecord (partOf p.tag) (ccCid p) = some a)
    (htype : ccType p = type) : s.colControl type p = s.takeLocal p := by
  rw [State.colControl, if_neg (by simp [hop, htype]), if_neg (by simp [hi]), if_neg (not_not_intro htag)]
  simp only [hcol, hrec, Option.isSome_some, if_true]

end

end

/-- A JOIN, READY and XDONE that the Collective Engine does the same with, whatever their type. -/
theorem exec_controlMessages {p : Packet} {s u : State} (hu : ∀ {type}, ccType p = type → s.colControl type p = u) :
    (ccType p = 1 → exec (.joinMessage p) s = .next u) ∧ (ccType p = 2 → exec (.readyMessage p) s = .next u) ∧
      (ccType p = 4 → exec (.xdoneMessage p) s = .next u) := by
  refine ⟨fun htype => ?join, fun htype => ?ready, fun htype => ?xdone⟩
  case join => rw [exec_joinMessage, execJoinMessage, hu htype]
  case ready => rw [exec_readyMessage, execReadyMessage, hu htype]
  case xdone => rw [exec_xdoneMessage, execXdoneMessage, hu htype]

section
variable {e : ColEntry} (habort : e.abort = none) (s : State) (h : Nat) {p : Packet}
include habort

theorem State.colMessage_join (htype : ccType p = 1) (hnew : e.joined.contains p.src.toNat = false) : s.colMessage h e p =
    (s.setCol h { e.heardFrom p.src.toNat s.tick with joined := e.joined ++ [p.src.toNat] }).colAdvance h := by
  rw [State.colMessage, if_neg (by simp [habort]), if_pos htype]
  simp only [ColEntry.joined_heardFrom, hnew, Bool.false_eq_true, if_false]

theorem State.colMessage_ready (htype : ccType p = 2) : s.colMessage h e p = (s.setCol h { e.heardFrom p.src.toNat s.tick with
    ready := e.ready.put (readyKey (ccStep p) (ccRound p) p.src.toNat) (ccValue p, ccOk p) }).colAdvance h := by
  rw [State.colMessage, if_neg (by simp [habort]), if_neg (by omega), if_pos htype]
  rfl

theorem State.colMessage_xdone {r : Nat} (htype : ccType p = 4) (hr : e.members.findIdx? (· == p.src.toNat) = some r) :
    s.colMessage h e p = (s.setCol h ({ e.heardFrom p.src.toNat s.tick with
      announced := e.announced.put r (ccValue p) } : ColEntry).xEnd).colAdvance h := by
  rw [State.colMessage, if_neg (by simp [habort]), if_neg (by omega), if_neg (by omega), if_pos htype]
  simp only [ColEntry.members_heardFrom, hr]
  rfl

end

/-! Waits for other members (R207, R219). -/

section
variable {p : PartNo} {cid : BitVec 32} {s : State} {h : Nat} {e : ColEntry} (hcol : s.colOf p cid = some (h, e))
include hcol

theorem execJoinTimeout_active : execJoinTimeout p cid s =
    .next (if e.missing ∧ e.issuedAt + s.fld R.COL_CTL.JOIN_TICKS ≤ s.tick then s.colAbort h 0x12 else s) := by
  simp only [execJoinTimeout, hcol]

theorem execCollectiveStall_active : execCollectiveStall p cid s =
    .next (if s.colStalled e then s.colAbort h 0x13 else s) := by
  simp only [execCollectiveStall, hcol]

end

theorem State.colStalled_iff (s : State) (e : ColEntry) : s.colStalled e = true ↔
    ∃ f ∈ e.owed, max e.waitAt ((FMap.find e.rx f).getD 0) + s.fld R.COL_CTL.STALL_TICKS ≤ s.tick := by
  simp only [State.colStalled, List.any_eq_true, decide_eq_true_eq]

/-! Aborts (R219 to R221). -/

theorem execAbortMessage_damaged {p : Packet} {s : State} (hop : p.op = opCOLLCTL) (hi : s.intact p = false)
    (htype : ccType p = 3) : execAbortMessage p s = .next (s.takeLocal p) := by
  rw [execAbortMessage, if_neg (by simp [hop, htype]), if_pos (by simp [hi])]

section
variable {p : Packet} {s : State} {h : Nat} {e : ColEntry} (hop : p.op = opCOLLCTL) (htype : ccType p = 3) (hi : s.intact p = true)
  (htag : p.tag = (s.takeLocal p).tagOf (partOf p.tag))
  (hcol : ((s.takeLocal p).raise R.COL_EVENTS.ABORT_RX).colOf (partOf p.tag) (BitVec.ofNat 32 (ccCid p)) = some (h, e))
include hop htype hi htag hcol

/-- The first ABORT stops a collective that knows of none. -/
theorem execAbortMessage_first (habort : e.abort = none) (hheard : e.heard = none) : execAbortMessage p s =
    let s1 := (s.takeLocal p).raise R.COL_EVENTS.ABORT_RX
    let s2 := if ccValue p + 192 < s1.tick then s1.raise R.COL_EVENTS.LATE_ABORT else s1
    let e1 : ColEntry := { e with heard := some (ccValue p), running := false, blocks := [], abort := some (ccValue p, 0x11) }
    .next ((((s2.setCol h e1).askRestore e (ccValue p)).keepAbort (partOf p.tag) e.cid (ccValue p)).sendAborts e (ccValue p)) := by
  rw [execAbortMessage, if_neg (by simp [hop, htype]), if_neg (by simp [hi]), if_neg (not_not_intro htag)]
  simp only [hcol, habort, hheard, Option.isNone_none, true_and, Bool.not_true, Bool.false_eq_true, if_false, if_true]

variable {epoch detail : Nat} (habort : e.abort = some (epoch, detail))
include habort

/-- An ABORT of an epoch no smaller than the smallest one received changes nothing. -/
theorem execAbortMessage_later {x : Nat} (hheard : e.heard = some x) (hlater : x ≤ ccValue p) :
    execAbortMessage p s = .next ((s.takeLocal p).raise R.COL_EVENTS.ABORT_RX) := by
  rw [execAbortMessage, if_neg (by simp [hop, htype]), if_neg (by simp [hi]), if_neg (not_not_intro htag)]
  simp only [hcol, habort, hheard, Option.isNone_some, Bool.false_eq_true, false_and, if_false, Nat.not_lt.mpr hlater,
    decide_false, Bool.not_false, if_true]

/-- The first ABORT after the member's own is relayed, and leaves the epoch where that is no smaller. -/
theorem execAbortMessage_afterOwn (hheard : e.heard = none) (hlater : epoch ≤ ccValue p) : execAbortMessage p s =
    .next ((((s.takeLocal p).raise R.COL_EVENTS.ABORT_RX).setCol h
      { e with heard := some (ccValue p), running := false, blocks := [] }).sendAborts e (ccValue p)) := by
  rw [execAbortMessage, if_neg (by simp [hop, htype]), if_neg (by simp [hi]), if_neg (not_not_intro htag)]
  simp only [hcol, habort, hheard, Option.isNone_some, Bool.false_eq_true, false_and, if_false, Nat.not_lt.mpr hlater,
    decide_false, Bool.not_true]

end

section
variable {p : PartNo} {cid : BitVec 32} {s : State} {h epoch detail : Nat} {e : ColEntry} (hcol : s.colOf p cid = some (h, e))
  (habort : e.abort = some (epoch, detail))
include hcol habort

theorem execAbortComplete_early (hearly : s.tick < epoch + 192) : execAbortComplete p cid s = .next s := by
  simp only [execAbortComplete, hcol, habort, hearly, if_true]

theorem execAbortComplete_due (hdue : epoch + 192 ≤ s.tick) : execAbortComplete p cid s =
    let w := s.scramble e
    let s1 := (if e.restorePlan = none then w.1.unlockCol e else w.1).freeCol h e
    let e1 : ColEntry := { e with status := sABORTED, detail := detail, ports := w.2 }
    .next { s1 with col := { s1.col with ended := s1.col.ended ++ [e1] } } := by
  simp only [execAbortComplete, hcol, habort, Nat.not_lt.mpr hdue, if_false, Option.isNone_iff_eq_none]

end

theorem execAbortRecordExpire_kept {p : PartNo} {cid : BitVec 32} {s : State} {a : ColAbort}
    (hrec : s.abortRecord p cid.toNat = some a) : execAbortRecordExpire p cid s =
      .next (if a.at_ + s.fld R.COL_CTL.QUAR_TICKS ≤ s.tick then
        { s with col := { s.col with aborts := s.col.aborts.filter fun x => !(x.part == a.part && x.cid == a.cid) } } else s) := by
  simp only [execAbortRecordExpire, hrec]

/-- Settles O47: each command is the one branch of it that the statement's case selects. A JOIN, READY or XDONE goes the same way to
its collective whatever its type, and only what it writes into the entry differs. That DST holds free values once a collective has
been aborted (log entry 38) is the model's reading. -/
theorem collectiveMessages : Obligations.CollectiveMessages := by
  refine ⟨fun p cid s h e hcol hres habort => ⟨execReservationGrant_granted hcol hres habort, execReservationGrant_waits hcol,
      fun hdue => ?withdrawn, execReservationWithdraw_early hcol⟩,
    fun p cid s h e hcol hres habort hdue => ?withdrawnAborting,
    fun p cid s r hcol hrsv hres => ⟨execReservationGrant_rsv hrsv hcol hres, execReservationWithdraw_rsv hrsv hcol hres⟩,
    fun p cid s r hrsv hdue => execRsvExpire_due hrsv hdue,
    fun p s h e hop hi htag hcol habort => ⟨fun htype hnew => ?join, fun htype => ?ready, fun r htype hr => ?xdone⟩,
    fun p s hop hi => ?damaged,
    fun p s hop hi htag hcol => ⟨fun hrec => exec_controlMessages (State.colControl_early hop hi htag hcol hrec),
      fun a hrec => exec_controlMessages (State.colControl_aborted hop hi htag hcol hrec)⟩,
    fun p cid s h e hcol => ⟨fun hmissing hdue => ?joinDue, fun hjoined => ?joined, fun f hf hdue => ?stalled, fun hheard => ?heard⟩,
    fun p s h e hop htype hi htag hcol => ⟨execAbortMessage_first hop htype hi htag hcol,
      fun x epoch detail habort hheard => execAbortMessage_later hop htype hi htag hcol habort hheard,
      fun epoch detail habort hheard => execAbortMessage_afterOwn hop htype hi htag hcol habort hheard⟩,
    fun p cid s h epoch detail e hcol habort => ⟨execAbortComplete_due hcol habort, execAbortComplete_early hcol habort⟩,
    fun p cid s a hrec => ⟨fun hdue => ?expires, fun hearly => ?quarantined⟩⟩
  case withdrawn =>
    rw [exec_reservationWithdraw, execReservationWithdraw_due hcol hres hdue]
    simp only [habort, Option.isSome_none, Bool.false_eq_true, if_false]
  case withdrawnAborting =>
    rw [exec_reservationWithdraw, execReservationWithdraw_due hcol hres hdue]
    simp only [Option.isSome_iff_ne_none.mpr habort, if_true]
  case join =>
    rw [exec_joinMessage, execJoinMessage, State.colControl_active hop hi htag hcol htype, State.colMessage_join habort _ _ htype hnew]
  case ready =>
    rw [exec_readyMessage, execReadyMessage, State.colControl_active hop hi htag hcol htype, State.colMessage_ready habort _ _ htype]
  case xdone =>
    rw [exec_xdoneMessage, execXdoneMessage, State.colControl_active hop hi htag hcol htype,
      State.colMessage_xdone habort _ _ htype hr]
  case damaged =>
    obtain ⟨hjoin, hready, hxdone⟩ := exec_controlMessages (State.colControl_damaged hop hi)
    exact ⟨hjoin, hready, execAbortMessage_damaged hop hi, hxdone⟩
  case joinDue => rw [exec_joinTimeout, execJoinTimeout_active hcol, if_pos ⟨hmissing, hdue⟩]
  case joined => rw [exec_joinTimeout, execJoinTimeout_active hcol, if_neg (by simp [hjoined])]
  case stalled => rw [exec_collectiveStall, execCollectiveStall_active hcol, if_pos ((s.colStalled_iff e).mpr ⟨f, hf, hdue⟩)]
  case heard =>
    rw [exec_collectiveStall, execCollectiveStall_active hcol, if_neg]
    intro hstalled
    obtain ⟨f, hf, hdue⟩ := (s.colStalled_iff e).mp hstalled
    exact Nat.not_le.mpr (hheard f hf) hdue
  case expires => rw [exec_abortRecordExpire, execAbortRecordExpire_kept hrec, if_pos hdue]
  case quarantined => rw [exec_abortRecordExpire, execAbortRecordExpire_kept hrec, if_neg (Nat.not_le.mpr hearly)]

end Sys2Proof.Machine
end

section
/-! ## Steps, packets and the end of collectives, and the family of exchanges (R198, R199, R202, R208, R211, R213 to R218) -/

namespace Sys2Proof.Machine

open Sys2Proof

/-! Steps that start by agreement (R208, R213). -/

/-- No credit batch waits for a step: its end leads to nothing more. -/
theorem State.settleCredits_none {s : State} (h : s.tim.credits = false) : s.settleCredits = s := by
  rw [State.settleCredits, if_neg (by simp [h])]

@[simp] theorem State.tim_setCol (s : State) (h : Nat) (e : ColEntry) : (s.setCol h e).tim = s.tim := rfl

section
variable {p : PartNo} {cid : BitVec 32} (i : Supply) {s : State} {h m : Nat} {f : Bool} {e : ColEntry}
  (hcol : s.colOf p cid = some (h, e)) (hagreed : e.agreed = some (m, f))
include hcol hagreed

theorem execAgreedStepStart_early (hearly : s.tick < m + s.fld R.COL_CTL.LEAD_PLAN) :
    execAgreedStepStart p cid i s = .next s := by
  simp only [execAgreedStepStart, hcol, hagreed]
  rw [if_pos (.inr (.inr hearly))]

variable (hasked : e.asked = false) (habort : e.abort = none) (hdue : m + s.fld R.COL_CTL.LEAD_PLAN ≤ s.tick)
include hasked habort hdue

/-- A phase's step starts at T: its exchange, its phase on the plans in force, or the wait for its switch. -/
theorem execAgreedStepStart_phase {ph : Phase} (hphase : ({ e with asked := true } : ColEntry).phaseNow = some ph) :
    execAgreedStepStart p cid i s = .next
      (if ph.kind = 3 then s.startExchange h { e with asked := true } i.hosts
        else if f then s.setCol h { e with asked := true }
        else s.startPhase h { e with asked := true } ph i.hosts i.runs).settleCredits := by
  simp only [execAgreedStepStart, hcol, hagreed]
  rw [if_neg (by simp [hasked, habort, hdue])]
  simp only [← hagreed, hphase]

/-- The closing step starts at T, and has ended unless it switches. -/
theorem execAgreedStepStart_closing (hphase : ({ e with asked := true } : ColEntry).phaseNow = none) :
    execAgreedStepStart p cid i s = .next
      (s.setCol h (if f then { e with asked := true } else { e with asked := true, done := true })).settleCredits := by
  simp only [execAgreedStepStart, hcol, hagreed]
  rw [if_neg (by simp [hasked, habort, hdue])]
  simp only [← hagreed, hphase]

end

/-! Phases that need no agreement (R198, R202, R208). -/

theorem execPhaseStart_coming {p : PartNo} {cid : BitVec 32} (i : Supply) {s : State} {h : Nat} {e : ColEntry} {ph : Phase}
    (hcol : s.colOf p cid = some (h, e)) (hphase : e.phaseNow = some ph) : execPhaseStart p cid i s = .next
      (if ph.kind = 3 ∨ e.running ∨ e.abort.isSome ∨ e.res = 0 ∨ e.missing ∨ (e.byAgreement ∧ ¬ e.switched) then s
        else s.startPhase h e ph i.hosts i.runs) := by
  simp only [execPhaseStart, hcol, hphase]

/-! COLL packets (R184, R195, R199, R207, R211). -/

section
variable {p : Packet} (run : ItemRun) (hs : List HostAnswer) {s : State} (hop : p.op = opCOLL)
include hop

theorem execCollPacket_damaged (hi : s.intact p = false) : execCollPacket p run hs s = .next (s.takeLocal p) := by
  simp only [execCollPacket, hop, hi, ne_eq, not_true, if_false, Bool.not_false, if_true]

variable (hi : s.intact p = true)
include hi

theorem execCollPacket_late (htarget : s.colTarget p opCOLL = none) :
    execCollPacket p run hs s = .next ((s.takeLocal p).count R.COL_COUNTS1.LATE) := by
  simp only [execCollPacket, hop, hi, htarget, ne_eq, not_true, Bool.not_true, Bool.false_eq_true, if_false, State.colLate]

variable {h : Nat} {e : ColEntry} (htarget : s.colTarget p opCOLL = some (h, e))
include htarget

/-- A packet comes for a collective that has not decided its reservation yet, or that needs none. -/
theorem execCollPacket_unexpected (hres : e.res = 0 ∨ e.res = 3) : execCollPacket p run hs s =
    .next (((s.takeLocal p).faultLog 0x0201 p.tag.toNat 6 h p.line.toNat p.src.toNat).colAbort h 0x19) := by
  simp only [execCollPacket, hop, hi, htarget, ne_eq, not_true, Bool.not_true, Bool.false_eq_true, if_false, if_pos hres]

variable {x : Seg} {pos : Nat} (hres : e.res = 1 ∨ e.res = 2)
  (hnow : ((upFrom 0 e.phases.length).find? fun i =>
    (e.phases.getD i ⟨0, 0, false, 0⟩).num == getBits p.line.toNat 28 4) = some e.phase)
  {ph : Phase} (hph : e.phases.getD e.phase ⟨0, 0, false, 0⟩ = ph) (hrunning : e.running = true)
  (hseg : ((e.segs ph).find? fun y => y.num == getBits p.line.toNat 10 18) = some x)
  (hline : getBits p.line.toNat 0 10 < x.count)
  (hcomes : x.start (cdDim e.desc (ph.axis e.desc)) ph.kind ≠ coord e.desc e.rank (ph.axis e.desc))
  (hpos : s.segPosition e x.num = some pos)
include hres hnow hph hrunning hseg hline hcomes hpos

/-- A line of the running phase is taken unless its position cannot take it now. -/
theorem execCollPacket_line : execCollPacket p run hs s = .next
    (if ¬ e.slotFor pos x.num ∨ s.posState pos = 1 ∨ (ph.kind = 0 ∧ s.cellsBusy pos)
        ∨ (ph.kind = 0 ∧ s.isRetired (s.fld (R.LDL_POS_STATUS.PHYS pos)) run.cell) then s
      else (s.takeLocal p).collTake h e ph x (getBits p.line.toNat 0 10) pos p run hs) := by
  have hdecided : ¬ (e.res = 0 ∨ e.res = 3) := by omega
  have hreceived : ¬ (x.count ≤ getBits p.line.toNat 0 10
      ∨ x.start (cdDim e.desc (ph.axis e.desc)) ph.kind = coord e.desc e.rank (ph.axis e.desc)) :=
    not_or.mpr ⟨Nat.not_le.mpr hline, hcomes⟩
  simp only [execCollPacket, hop, hi, htarget, hdecided, hnow, hph, hrunning, hseg, hreceived, hpos, ne_eq, not_true, Bool.not_true,
    Bool.false_eq_true, if_false, Nat.lt_irrefl, or_self]

end

/-! XCHG packets (R211, R213, R214). -/

@[simp] theorem ColEntry.tag_heardFrom (e : ColEntry) (f now : Nat) : (e.heardFrom f now).tag = e.tag := rfl
@[simp] theorem ColEntry.op_heardFrom (e : ColEntry) (f now : Nat) : (e.heardFrom f now).op = e.op := rfl

section
variable {p : Packet} (hs : List HostAnswer) {s : State} (hop : p.op = opXCHG)
include hop

theorem execXchgPacket_damaged (hi : s.intact p = false) : execXchgPacket p hs s = .next (s.takeLocal p) := by
  simp only [execXchgPacket, hop, hi, ne_eq, not_true, if_false, Bool.not_false, if_true]

variable (hi : s.intact p = true)
include hi

theorem execXchgPacket_late (htarget : s.colTarget p opXCHG = none) :
    execXchgPacket p hs s = .next ((s.takeLocal p).count R.COL_COUNTS1.LATE) := by
  simp only [execXchgPacket, hop, hi, htarget, ne_eq, not_true, Bool.not_true, Bool.false_eq_true, if_false, State.colLate]

theorem execXchgPacket_line {h i : Nat} {e : ColEntry} (htarget : s.colTarget p opXCHG = some (h, e))
    (hfrom : e.members.findIdx? (· == p.src.toNat) = some i) {r : ColRun}
    (hr : ({ g := (s.takeLocal p).eng e.tag hs e.op, e := e.heardFrom p.src.toNat (s.takeLocal p).tick } : ColRun).xLine i
      (getBits p.line.toNat 0 32) p.data.toNat p.pz = r) (hdone : r.g.fail = none) :
    execXchgPacket p hs s = .next (((({ r with e := r.e.xEnd } : ColRun).done h).colAdvance h).exchangeGo h) := by
  simp only [execXchgPacket, hop, hi, htarget, hfrom, ne_eq, not_true, Bool.not_true, Bool.false_eq_true, if_false,
    ColEntry.tag_heardFrom, ColEntry.op_heardFrom, hr, hdone, Option.isNone_none, if_true]

end

/-! Completion (R127, R206, R217, R218). -/

section
variable {p : PartNo} {cid : BitVec 32} (hs : List HostAnswer) {s : State} {e : ColEntry}

theorem execCollectiveComplete_ended (hended : (s.col.ended.find? fun e => e.part == p.val && e.cid == cid.toNat) = some e) :
    execCollectiveComplete p cid hs s =
      let s1 : State := { s with col := { s.col with ended := s.col.ended.erase e } }
      let g := (s1.eng e.tag hs e.op e.ports).flush
      .next (if s.engineWaits (e.op + 1) then s else g.s.endCol e g.hs) := by
  simp only [execCollectiveComplete, hended]

variable {h : Nat} (hended : (s.col.ended.find? fun e => e.part == p.val && e.cid == cid.toNat) = none)
  (hcol : s.colOf p cid = some (h, e))
include hended hcol

theorem execCollectiveComplete_waits (hwaits : e.done = false ∨ s.engineWaits (e.op + 1) = true) :
    execCollectiveComplete p cid hs s = .next s := by
  simp only [execCollectiveComplete, hended, hcol]
  rw [if_pos (by obtain hdone | hengine := hwaits <;> simp [*])]

theorem execCollectiveComplete_done (hdone : e.done = true) (habort : e.abort = none) (hpoison : e.poison = none)
    (hengine : s.engineWaits (e.op + 1) = false) {g : Eng} (hg : (s.eng e.tag hs e.op e.ports).flush = g) (hfail : g.fail = none) :
    execCollectiveComplete p cid hs s = .next (((g.s.freeCol h e).unlockCol e).endCol e g.hs) := by
  simp only [execCollectiveComplete, hended, hcol]
  rw [if_neg (by simp [hdone, habort, hengine])]
  simp only [hg, hfail, hpoison, Option.isSome_none, Bool.false_eq_true, and_false, if_false]

end

/-! The family of exchanges (R215). -/

section
variable {s : State} {h : Nat} {e : ColEntry} (hentries : s.col.entries = [(h, e)]) (hxchg : cdExchange e.desc = true)
include hentries hxchg

theorem execXchgFamilyChange_waiting (hwaits : e.waits = true) : execXchgFamilyChange s = .next
    (((s.setFld R.COL_XCHG_MODE.FAMILY (cdOp e.desc - 8)).setCol h { e with waits := false }).colAdvance h) := by
  simp only [execXchgFamilyChange, hentries, List.filter, List.any, List.foldl, hxchg, hwaits, Bool.not_true, Bool.false_or,
    Bool.false_eq_true, false_or, reduceCtorEq, if_false, beq_self_eq_true]

theorem execXchgFamilyChange_running (hwaits : e.waits = false) : execXchgFamilyChange s = .next s := by
  simp only [execXchgFamilyChange, hentries, List.filter, List.any, hxchg, hwaits, Bool.not_false, Bool.true_or, true_or, if_true]

end

/-- Settles O48: each command is the one branch of it that the statement's case selects. That the completion
waits for those writes of the collective that are held or mirrored is, beside R217, the model's reading (log entries 22 and 67). -/
theorem collectiveData : Obligations.CollectiveData := by
  refine ⟨fun p cid i s h m f e hcol hagreed hasked habort => ⟨execAgreedStepStart_early i hcol hagreed,
      fun ph hdue hphase => ?phase, fun hdue hphase hf => ?ends, fun hdue hphase hf => ?switches⟩,
    fun p cid i s h e ph hcol hphase => ⟨fun hkind hrunning habort hres hmissing hswitched => ?starts,
      fun hrunning => ?running, fun hmissing => ?missing⟩,
    fun p run hs s h e ph x pos hop hi htarget hres hnow hph hrunning hseg hline hcomes hpos => ?line,
    fun p run hs s hop hi => ⟨execCollPacket_late run hs hop hi, fun h e htarget => execCollPacket_unexpected run hs hop hi htarget⟩,
    fun p run hs s hi => ⟨fun hop => execCollPacket_damaged run hs hop hi, fun hop => execXchgPacket_damaged hs hop hi⟩,
    fun p hs s hop hi => ⟨execXchgPacket_late hs hop hi, fun h e i htarget hfrom => execXchgPacket_line hs hop hi htarget hfrom rfl⟩,
    fun p cid hs s => ⟨fun e hended => ⟨fun hengine => ?ended, fun hengine => ?endedWaits⟩,
      fun h e hended hcol habort hstatus => ⟨fun _ hengine => execCollectiveComplete_waits hs hended hcol (.inr hengine),
        fun hdone hpoison hengine => execCollectiveComplete_done hs hended hcol hdone habort hpoison hengine rfl,
        fun hdone => execCollectiveComplete_waits hs hended hcol (.inl hdone)⟩⟩,
    fun s h e hentries hxchg => ⟨execXchgFamilyChange_waiting hentries hxchg, execXchgFamilyChange_running hentries hxchg⟩⟩
  case phase =>
    rw [exec_agreedStepStart, execAgreedStepStart_phase i hcol hagreed hasked habort hdue hphase]
    refine ⟨fun hkind => ?_, fun hkind hf => ?_, fun hkind hf => ?_, fun hkind hf hcredits => ?_⟩
    · rw [if_pos hkind]
    · rw [if_neg hkind, if_neg (by simp [hf])]
    · rw [if_neg hkind, if_pos hf]
    · rw [if_neg hkind, if_pos hf, State.settleCredits_none ((congrArg _ (State.tim_setCol s h _)).trans hcredits)]
  case ends =>
    rw [exec_agreedStepStart, execAgreedStepStart_closing i hcol hagreed hasked habort hdue hphase, if_neg (by simp [hf])]
  case switches =>
    rw [exec_agreedStepStart, execAgreedStepStart_closing i hcol hagreed hasked habort hdue hphase, if_pos hf]
  case starts =>
    rw [exec_phaseStart, execPhaseStart_coming i hcol hphase, if_neg]
    simpa [hkind, hrunning, habort, hres, hmissing] using hswitched
  case running => rw [exec_phaseStart, execPhaseStart_coming i hcol hphase, if_pos (.inr (.inl hrunning))]
  case missing =>
    rw [exec_phaseStart, execPhaseStart_coming i hcol hphase, if_pos (.inr (.inr (.inr (.inr (.inl hmissing)))))]
  case line =>
    rw [exec_collPacket, execCollPacket_line run hs hop hi htarget hres hnow hph hrunning hseg hline hcomes hpos]
    refine ⟨fun hslot hstate hfree => ?_, fun hfull => ?_, fun hstate => ?_, fun hkind hbusy => ?_⟩
    · rw [if_neg]
      rintro (hfull | hreplaced | ⟨hkind, hbusy⟩ | ⟨hkind, hretired⟩)
      · exact hfull hslot
      · exact hstate hreplaced
      · exact Bool.eq_false_iff.mp (hfree hkind).1 hbusy
      · exact Bool.eq_false_iff.mp (hfree hkind).2 hretired
    · rw [if_pos (.inl (Bool.eq_false_iff.mp hfull))]
    · rw [if_pos (.inr (.inl hstate))]
    · rw [if_pos (.inr (.inr (.inl ⟨hkind, hbusy⟩)))]
  case ended =>
    rw [exec_collectiveComplete, execCollectiveComplete_ended hs hended]
    exact congrArg Host.Outcome.next (if_neg (Bool.eq_false_iff.mp hengine))
  case endedWaits =>
    rw [exec_collectiveComplete, execCollectiveComplete_ended hs hended]
    exact congrArg Host.Outcome.next (if_pos hengine)

end Sys2Proof.Machine
end

section
/-! ## Issue of a Disil instruction, and what its work leaves of the thread and of the rest (R225, R227, R229) -/

namespace Sys2Proof.Machine

open Sys2Proof

theorem Completes.imp {c : Instr} {s : State} {P Q : State → Prop} (h : Completes c s P) (himp : ∀ u, P u → Q u) :
    Completes c s Q := by
  obtain ⟨u, hexec, hP⟩ := h
  exact ⟨u, hexec, himp u hP⟩

@[simp] theorem State.tstate_tally (s : State) (k n t : Nat) : (s.tally k n).tstate t = s.tstate t := rfl
@[simp] theorem State.pc_tally (s : State) (k n t : Nat) : (s.tally k n).pc t = s.pc t := rfl
@[simp] theorem State.greg_tally (s : State) (k n t : Nat) (r : BitVec 5) : (s.tally k n).greg t r = s.greg t r := rfl
@[simp] theorem State.wl_tally (s : State) (k n w : Nat) : (s.tally k n).wl w = s.wl w := rfl

/-- A thread that is RUNNABLE after its instruction has issued it. -/
theorem State.countIssued_of_runnable (s : State) {b : State} {t : Nat} (h : b.tstate t = stRunnable) :
    s.countIssued b t = b.tally 1880 :=
  s.countIssued_of_state b t (by rw [h]; decide)

section
variable {c : Instr} {s t : State} {th : ThreadNo} {opc : Nat} {f : Insn} {bad : Bool} {need : BitVec 32}
  {body : State → State} {P : State → Prop}

/-- An instruction that issues completes in what its own work leaves, counted as issued where it goes by. -/
theorem completes_issued (hissues : Issues s th opc f need) (hgood : bad = false)
    (hexec : exec c s = .next (s.insn th opc f bad need body)) (hbody : body s = t) (hP : P (s.countIssued t th)) :
    Completes c s P :=
  ⟨_, by rw [hexec, State.insn_issues s th opc f bad need body hissues hgood, hbody], hP⟩

/-- The same where its work leaves the thread RUNNABLE. -/
theorem completes_insn (hissues : Issues s th opc f need) (hgood : bad = false)
    (hexec : exec c s = .next (s.insn th opc f bad need body)) (hbody : body s = t) (hrun : t.tstate th = s.tstate th)
    (hP : P (t.tally 1880)) : Completes c s P :=
  completes_issued hissues hgood hexec hbody (by rwa [State.countIssued_of_runnable s (hrun.trans hissues.1)])

end

/-! ### An instruction that ends by setting the thread's record and its PC -/

/-- In `u` the record of thread `th` is `x` and its PC is `pc`; nothing else of `s` has changed, but for counts of telemetry. -/
def Leaves (s : State) (th : ThreadNo) (x : Thread) (pc : Nat) (u : State) : Prop :=
  OnlyThread th [R.SEQ_THREAD_PC.PC th] s u ∧ u.pc th = pc ∧ u.thr th = x

theorem State.jumped_setPc (s : State) (th : ThreadNo) (n : Nat) : Jumped s th n ((s.setPc th n).tally 1880) := by
  refine ⟨⟨rfl, fun _ _ => rfl, fun g hg => ?_, fun _ => rfl⟩, s.pc_setPc th n, rfl⟩
  exact State.fld_setFld_apart _ _ _ _ (by simp [R.SEQ_THREAD_PC.PC]) (hg _ (by simp))

section
variable {c : Instr} {s : State} {th : ThreadNo} {opc : Nat} {f : Insn} {bad : Bool} {need : BitVec 32}
  {body : State → State} (hissues : Issues s th opc f need) (hgood : bad = false)
  (hexec : exec c s = .next (s.insn th opc f bad need body))
include hissues hgood hexec

theorem completes_setPc {x : Thread} {n : Nat} (hbody : body s = (s.setThr th x).setPc th n) :
    Completes c s (Leaves s th x (n / 8 * 8 % 2 ^ 57)) :=
  completes_insn hissues hgood hexec hbody (State.tstate_setPc (s.setThr th x) th n)
    ⟨s.onlyThread_setPc th x n 1880, State.pc_setPc (s.setThr th x) th n, State.thr_setThr_same ..⟩

theorem completes_advance {x : Thread} (hbody : body s = (s.setThr th x).advance th) :
    Completes c s (Leaves s th x ((s.pc th + 8) % 2 ^ 57)) :=
  completes_insn hissues hgood hexec hbody (State.tstate_setPc (s.setThr th x) th _)
    ⟨s.onlyThread_setPc th x _ 1880, State.pc_setPc_next s (s.setThr th x) th, State.thr_setThr_same ..⟩

/-- An instruction whose work is to write `v` to gD and to go on. -/
theorem completes_wroteReg {d : BitVec 5} {v : Word} (hbody : body s = (s.setGreg th d v).advance th) :
    Completes c s (WroteReg s th d v) :=
  (completes_advance hissues hgood hexec hbody).imp fun u ⟨honly, hpc, hthr⟩ => by
    refine ⟨honly, hpc, fun r => ?_, ?_⟩
    · rw [State.greg, hthr, Thread.reg_setReg, State.greg]
    · rw [hthr, ← Thread.setReg_with]

/-- An instruction whose work is to set the PC. -/
theorem completes_jumped {n : Nat} (hbody : body s = s.setPc th n) : Completes c s (Jumped s th n) :=
  completes_insn hissues hgood hexec hbody (s.tstate_setPc th n) (s.jumped_setPc th n)

end

end Sys2Proof.Machine
end

section
/-! ## Scalar instructions (R229, Tables 10.3 to 10.5) -/

namespace Sys2Proof.Machine

open Sys2Proof

/-! Two-source instructions. -/

/-- Each row's result is the one that its instruction computes. -/
theorem exec_aluRow {e : (ThreadNo → Insn → Instr) × Nat × (Word → Word → Word)} (he : e ∈ aluRows) (th : ThreadNo) (f : Insn)
    (s : State) : exec (e.1 th f) s = .next (s.alu th e.2.1 f e.2.2) := by
  have hslt (a b : Word) : a.slt b = decide (a.toInt < b.toInt) := rfl
  have hult (a b : Word) : a.ult b = decide (a.toNat < b.toNat) := rfl
  simp only [aluRows, List.mem_cons, List.not_mem_nil, or_false] at he
  obtain rfl | rfl | rfl | rfl | rfl | rfl | rfl | rfl | rfl | rfl | he := he
  case inr => -- MINS, MAXS, MINU and MAXU compare by the Boolean orders of words.
    obtain rfl | rfl | rfl | rfl := he <;> simp [execMins, execMaxs, execMinu, execMaxu, hslt, hult]
  all_goals rfl

/-- Settles O4: each instruction is `State.alu` of its row's operation. -/
theorem twoSourceResults : Obligations.TwoSourceResults := fun _ he th f s hissues hgood =>
  completes_wroteReg hissues hgood (exec_aluRow he th f s) rfl

/-! Immediate instructions, and those that take their value from a predicate, bytes or the wake buffer. -/

/-- Each row's result is the one that its instruction computes. -/
theorem exec_immRow {e : (ThreadNo → Insn → Instr) × Nat × BitVec 32 × (Word → Insn → Word)} (he : e ∈ immRows) (th : ThreadNo)
    (f : Insn) (s : State) : exec (e.1 th f) s = .next (s.aluImm th e.2.1 f e.2.2.1 fun a => e.2.2.2 a f) := by
  simp only [immRows, List.mem_cons, List.not_mem_nil, or_false] at he
  obtain rfl | rfl | rfl | rfl | rfl | rfl | rfl := he
  all_goals rfl

/-- The word of MOVHI, as its two halves. -/
theorem shiftLeft_or_low_eq_append (i : BitVec 32) (v : Word) :
    (i.setWidth 64 <<< 32) ||| (v &&& 0xFFFFFFFF#64) = (i ++ v.setWidth 32 : BitVec 64) := by
  have hhigh : (i.setWidth 64 <<< 32).toNat = i.toNat <<< 32 := by
    rw [BitVec.toNat_shiftLeft, BitVec.toNat_setWidth, Nat.mod_eq_of_lt (by omega), Nat.shiftLeft_eq]
    omega
  have hlow : (v &&& 0xFFFFFFFF#64).toNat = (v.setWidth 32).toNat := by
    rw [BitVec.toNat_and, BitVec.toNat_setWidth]
    exact Nat.and_two_pow_sub_one_eq_mod _ 32
  apply BitVec.eq_of_toNat_eq
  rw [BitVec.toNat_or, hhigh, hlow, BitVec.toNat_append]

theorem ofNat_getBits_toNat {w : Nat} (l : BitVec w) (lo n : Nat) :
    BitVec.ofNat n (getBits l.toNat lo n) = l.extractLsb' lo n := by
  apply BitVec.eq_of_toNat_eq
  simp [getBits, Nat.shiftRight_eq_div_pow]

/-- Settles O5: each instruction writes its value to gD and goes on. -/
theorem immediateResults : Obligations.ImmediateResults := by
  refine ⟨fun e he th f s hissues hgood => completes_wroteReg hissues hgood (exec_immRow he th f s) rfl,
    fun th f s hissues hgood => completes_wroteReg hissues hgood (exec_movi th f s) rfl,
    fun th f s hissues hgood => completes_wroteReg hissues hgood (exec_movhi th f s) ?movhi,
    fun th f s hissues hgood => completes_wroteReg hissues hgood (exec_sel th f s) rfl,
    fun th f s hissues hgood hlo hhi => completes_wroteReg hissues ?crcForm (exec_crc32c th f s) ?crc,
    fun th f s hissues hgood => completes_wroteReg hissues hgood (exec_wbuf th f s) ?wbuf⟩
  case movhi => rw [shiftLeft_or_low_eq_append]
  case crcForm => rw [hgood, decide_eq_true ⟨hlo, hhi⟩]; rfl
  case crc => dsimp only; rw [BitVec.ofNat_toNat]
  case wbuf => rw [ofNat_getBits_toNat]

/-! Predicates. -/

theorem getLsbD_eq_getBits {w : Nat} (x : BitVec w) (i : Nat) : x.getLsbD i = (getBits x.toNat i 1 == 1) := by
  rw [BitVec.getLsbD, Nat.testBit_eq_decide_div_mod_eq, getBits]
  rfl

/-- A predicate after a write: p0 stays 1 (R226). -/
theorem Thread.pred_setPred (x : Thread) {i j : Nat} (hi : i < 8) (hj : j < 8) (v : Bool) :
    (x.setPred i v).pred j = if j = i ∧ j ≠ 0 then v else x.pred j := by
  unfold Thread.setPred Thread.pred
  by_cases hj0 : j = 0
  · simp [hj0]
  by_cases hi0 : i = 0
  · have hji : j ≠ i := by omega
    simp [hi0, hj0]
  simp only [hi0, hj0, if_false, getLsbD_eq_getBits, BitVec.toNat_ofNat,
    getBits_mod_two_pow _ (show j + 1 ≤ 8 from hj)]
  by_cases hji : j = i
  · subst hji
    cases v <;> simp [b2n, hj0]
  · rw [getBits_putBits_apart _ _ (by omega)]
    simp [hji]

/-- A predicate write changes the predicates alone. -/
theorem Thread.setPred_with (x : Thread) (i : Nat) (v : Bool) : x.setPred i v = { x with p := (x.setPred i v).p } := by
  unfold Thread.setPred; split <;> rfl

/-- An instruction whose work is to write a predicate and to go on. -/
theorem completes_wrotePred {c : Instr} {s : State} {th : ThreadNo} {opc : Nat} {f : Insn} {bad : Bool} {need : BitVec 32}
    {body : State → State} {i : Nat} {v : Bool} (hissues : Issues s th opc f need) (hgood : bad = false)
    (hexec : exec c s = .next (s.insn th opc f bad need body)) (hi : i < 8)
    (hbody : body s = (s.setPredOf th i v).advance th) : Completes c s (WrotePred s th i v) :=
  (completes_advance hissues hgood hexec hbody).imp fun u ⟨honly, hpc, hthr⟩ => by
    refine ⟨honly, hpc, fun j hj => ?_, ?_⟩
    · rw [hthr, Thread.pred_setPred _ hi hj]
    · rw [hthr, ← Thread.setPred_with]

/-- A condition that has a value is not the reserved one (Table 10.5). -/
theorem ne_seven_of_cmpCond {n : Nat} {a b : Word} {v : Bool} (h : cmpCond n a b = some v) : (n == 7) = false := by
  rw [beq_eq_false_iff_ne]
  rintro rfl
  exact absurd h (by simp [cmpCond])

/-- The sign extension of a field is that of its bits. -/
theorem sextTo64_toNat {w : Nat} (v : BitVec (w + 1)) : sextTo64 (w + 1) v.toNat = v.signExtend 64 := by
  have hsigned : signedOf (w + 1) v.toNat = v.toInt := by
    rw [signedOf, BitVec.toInt_eq_toNat_cond, Nat.mod_eq_of_lt v.isLt, Nat.add_sub_cancel, Nat.pow_succ]
    split <;> split <;> omega
  rw [sextTo64, hsigned, BitVec.signExtend]

/-- The operand of CMPI: IMM[31:8]. -/
theorem sextTo64_imm (imm : BitVec 32) : sextTo64 24 (imm.toNat / 256) = (imm.extractLsb' 8 24).signExtend 64 := by
  have hlow : (imm.extractLsb' 8 24).toNat = imm.toNat / 256 := by
    have := imm.isLt
    rw [BitVec.extractLsb'_toNat, Nat.shiftRight_eq_div_pow]
    omega
  rw [← sextTo64_toNat, hlow]

/-! The line group of WBUF.L. -/

/-- Registers written one after another from a line group's first one. -/
theorem Thread.reg_foldl_setReg {d : BitVec 5} (hd : d.toNat % 8 = 0) (v : Nat → Word) (r : BitVec 5) :
    ∀ (n lo : Nat) (x : Thread), lo + n ≤ 8 → ((upFrom lo n).foldl (fun x i => x.setReg (d + BitVec.ofNat 5 i) (v i)) x).reg r =
      if r ≠ 0 ∧ d.toNat + lo ≤ r.toNat ∧ r.toNat < d.toNat + lo + n then v (r.toNat % 8) else x.reg r
  | 0, lo, x, _ => by rw [if_neg (by omega)]; rfl
  | n + 1, lo, x, h => by
    have hkey : (d + BitVec.ofNat 5 lo).toNat = d.toNat + lo := by
      have := d.isLt
      rw [BitVec.toNat_add, BitVec.toNat_ofNat]
      omega
    rw [upFrom, List.foldl_cons, Thread.reg_foldl_setReg hd v r n (lo + 1) _ (by omega), Thread.reg_setReg]
    by_cases hr : r = d + BitVec.ofNat 5 lo
    · have hidx : r.toNat = d.toNat + lo := by rw [hr, hkey]
      have hmod : r.toNat % 8 = lo := by omega
      rw [if_neg (by omega), hmod]
      exact if_congr ⟨fun h => ⟨h.2, by omega⟩, fun h => ⟨hr, h.1⟩⟩ rfl rfl
    · have hidx : r.toNat ≠ d.toNat + lo := fun h => hr (BitVec.eq_of_toNat_eq (h.trans hkey.symm))
      rw [if_neg (c := r = _ ∧ _) fun h => hr h.1]
      exact if_congr (and_congr_right fun _ => by omega) rfl rfl

/-- The registers after a line has been written into a line group (R226). -/
theorem Thread.reg_setGroup (x : Thread) {d : BitVec 5} (hd : badGroup d = false) (l : Line) (r : BitVec 5) :
    (x.setGroup d l).reg r =
      if r ≠ 0 ∧ r.toNat / 8 = d.toNat / 8 then l.extractLsb' (64 * (r.toNat % 8)) 64 else x.reg r := by
  have hd8 : d.toNat % 8 = 0 := by simpa [badGroup] using hd
  rw [Thread.setGroup, Thread.reg_foldl_setReg hd8 _ r 8 0 x (by omega), ofNat_getBits_toNat]
  exact if_congr (and_congr_right fun _ => by omega) rfl rfl

/-- Settles O6: each instruction writes its predicate, or its line group, and goes on. -/
theorem predicateResults : Obligations.PredicateResults := by
  have hbit (n : Nat) : n % 8 < 8 := Nat.mod_lt _ (by decide)
  refine ⟨fun th f s v hissues hgood hv => ?cmp, fun th f s v hissues hgood hv => ?cmpi,
    fun th f s hissues hgood => ?plog, fun th f s hissues hgood hgroup => ?wbufL⟩
  case cmp =>
    refine completes_wrotePred hissues ?_ (exec_cmp th f s) (hbit _) ?_
    · rw [hgood, ne_seven_of_cmpCond hv]; rfl
    · rw [hv]
  case cmpi =>
    refine completes_wrotePred hissues ?_ (exec_cmpi th f s) (hbit _) ?_
    · rw [hgood, ne_seven_of_cmpCond hv]; rfl
    · rw [sextTo64_imm, hv]
  case plog =>
    refine completes_wrotePred hissues hgood (exec_plog th f s) (hbit _) ?_
    dsimp only
    generalize getBits f.imm.toNat 9 2 = op
    rcases op with - | - | - | op
    · rfl
    · rfl
    · rfl
    · rfl
  case wbufL =>
    refine (completes_advance hissues ?_ (exec_wbufL th f s) rfl).imp fun u ⟨honly, hpc, hthr⟩ => ⟨honly, hpc, fun r => ?_⟩
    · rw [hgood, hgroup]; rfl
    · rw [State.greg, hthr, Thread.reg_setGroup _ hgroup, State.greg]

end Sys2Proof.Machine
end

section
/-! ## Encoding checks and guards (R227, R228) -/

namespace Sys2Proof.Machine

open Sys2Proof

section
variable {s : State} {th : ThreadNo} {opc : Nat} {f : Insn}

/-- A refused encoding traps with the instruction's word, whatever the guard. -/
theorem State.insn_refused (h : Fetches s th opc f) (need : BitVec 32) (body : State → State) :
    s.insn th opc f true need body = s.trap th 0x01 (f.word opc) := by
  obtain ⟨hrun, hheld, hword⟩ := h
  simp [State.insn, hrun, hheld, hword]

/-- An instruction whose guard is 0 goes by. -/
theorem State.insn_guardedOff (h : Fetches s th opc f) (hguard : (s.thr th).guard f = false) (need : BitVec 32)
    (body : State → State) : s.insn th opc f false need body = (s.advance th).tally 1880 := by
  obtain ⟨hrun, hheld, hword⟩ := h
  simp [State.insn, hrun, hheld, hword, hguard]

end

/-- The fields of an instruction's word (Table 10.2), with their widths. -/
def Insn.layout (f : Insn) (opc : Nat) : List (Nat × Nat × Nat) :=
  [(0, 8, opc % 256), (8, 3, f.pg.toNat), (11, 1, b2n f.pn), (12, 5, f.d.toNat), (17, 5, f.a.toNat), (22, 5, f.b.toNat),
    (27, 5, f.st.toNat), (32, 32, f.imm.toNat)]

theorem Insn.word_eq_packFields (f : Insn) (opc : Nat) : f.word opc = packFields (f.layout opc) 0 :=
  packBits_map (f.layout opc)

theorem Insn.stacked_layout (f : Insn) (opc : Nat) : Stacked 0 (f.layout opc) 64 := by
  have hpn : b2n f.pn < 2 := by cases f.pn <;> decide
  simp [Insn.layout, Stacked, Nat.mod_lt, f.pg.isLt, f.d.isLt, f.a.isLt, f.b.isLt, f.st.isLt, f.imm.isLt, hpn]

/-- The opcode is the low byte of an instruction's word. -/
theorem Insn.word_mod (f : Insn) {opc : Nat} (h : opcListed opc = true) : f.word opc % 256 = opc := by
  have hlt : opc < 256 := by rw [opcListed, decide_eq_true_iff] at h; omega
  obtain ⟨-, -, hfields⟩ := packFields_stacked (f.stacked_layout opc) (Nat.zero_lt_one : 0 < 2 ^ 0)
  have hopc : getBits (f.word opc) 0 8 = opc % 256 := f.word_eq_packFields opc ▸ hfields _ List.mem_cons_self
  rw [getBits, Nat.pow_zero, Nat.div_one, Nat.mod_eq_of_lt hlt] at hopc
  exact hopc

/-- A word whose OPC Table 10.3 does not list traps. -/
theorem State.insn_unlisted {s : State} {th : ThreadNo} {w : Nat} (hrun : s.tstate th = stRunnable)
    (hheld : (s.thr th).held = none) (hword : s.fetchedWord th = some w) (hlisted : opcListed (w % 256) = false) {opc : Nat}
    (hopc : opcListed opc = true) (f : Insn) (bad : Bool) (need : BitVec 32) (body : State → State) :
    s.insn th opc f bad need body = s.trap th 0x01 w := by
  have hne : w ≠ f.word opc := by
    rintro rfl
    rw [f.word_mod hopc, hopc] at hlisted
    exact absurd hlisted (by decide)
  simp [State.insn, hrun, hheld, hword, hne, hlisted]

/-! The rows. -/

/-- A row's instruction is issued as one of the row's opcode, refused where the row says so. -/
def DisilRow.Issued (e : DisilRow) : Prop := ∀ (th : ThreadNo) (f : Insn) (s : State),
  ∃ bad need body, exec (e.1 th f) s = .next (s.insn th e.2.1 f bad need body) ∧ bad = e.2.2 s th f

/-- A row refuses the inverse of p0 as a guard. -/
def DisilRow.NoInverse (e : DisilRow) : Prop := ∀ (th : ThreadNo) (f : Insn) (s : State),
  f.pg = 0 → f.pn = true → e.2.2 s th f = true

theorem disilControl_issued : ∀ e ∈ disilControl, e.Issued := by
  intro e he th f s
  simp only [disilControl, List.mem_cons, List.not_mem_nil, or_false] at he
  obtain rfl | rfl | rfl | rfl | rfl | rfl | rfl | rfl | rfl | rfl | rfl := he
  all_goals exact ⟨_, _, _, rfl, rfl⟩

theorem disilScalar_issued : ∀ e ∈ disilScalar, e.Issued := by
  intro e he th f s
  simp only [disilScalar, List.mem_cons, List.not_mem_nil, or_false] at he
  obtain rfl | rfl | rfl | rfl | rfl | rfl | rfl | rfl | rfl | rfl | rfl | rfl | rfl | rfl | rfl | rfl := he
  all_goals exact ⟨_, _, _, rfl, rfl⟩

theorem disilImmediate_issued : ∀ e ∈ disilImmediate, e.Issued := by
  intro e he th f s
  simp only [disilImmediate, List.mem_cons, List.not_mem_nil, or_false] at he
  obtain rfl | rfl | rfl | rfl | rfl | rfl | rfl | rfl | rfl | rfl | rfl | rfl | rfl | rfl := he
  all_goals exact ⟨_, _, _, rfl, rfl⟩

/-- The operations that RESOLVE takes (R237). -/
theorem resolvable_eq_contains (op : Nat) :
    (op == 3 || decide (4 ≤ op ∧ op ≤ 6) || (op == 11 || op == 12)) = [3, 4, 5, 6, 11, 12].contains op := by
  rw [Bool.eq_iff_iff]
  simp
  omega

theorem disilFabric_issued : ∀ e ∈ disilFabric, e.Issued := by
  intro e he th f s
  simp only [disilFabric, List.mem_cons, List.not_mem_nil, or_false] at he
  obtain rfl | rfl | rfl | rfl | rfl | he := he
  case inr.inr.inr.inr.inr =>
    obtain rfl | rfl | rfl | rfl | rfl | rfl := he
    case inl => -- RED makes the same checks in another order.
      exact ⟨_, _, _, rfl, by ac_rfl⟩
    case inr.inl => exact ⟨_, _, _, rfl, by rw [resolvable_eq_contains]⟩
    all_goals exact ⟨_, _, _, rfl, rfl⟩
  all_goals exact ⟨_, _, _, rfl, rfl⟩

theorem disilEngine_issued : ∀ e ∈ disilEngine, e.Issued := by
  intro e he th f s
  simp only [disilEngine, List.mem_cons, List.not_mem_nil, or_false] at he
  obtain rfl | rfl | rfl | rfl | rfl | rfl | rfl | rfl := he
  all_goals exact ⟨_, _, _, rfl, rfl⟩

theorem disilRow_issued {e : DisilRow} (he : e ∈ disilRows) : e.Issued := by
  simp only [disilRows, List.mem_append] at he
  obtain (((he | he) | he) | he) | he := he
  · exact disilControl_issued e he
  · exact disilScalar_issued e he
  · exact disilImmediate_issued e he
  · exact disilFabric_issued e he
  · exact disilEngine_issued e he

theorem Insn.malformed_of_inverse {f : Insn} (hpg : f.pg = 0) (hpn : f.pn = true) (u : Uses) : f.malformed u = true := by
  simp [Insn.malformed, hpg, hpn]

theorem disilRow_noInverse {e : DisilRow} (he : e ∈ disilRows) : e.NoInverse := by
  intro th f s hpg hpn
  have hbad := Insn.malformed_of_inverse hpg hpn
  have hall : ∀ r ∈ disilRows, r.2.2 s th f = true := by
    simp [disilRows, disilControl, disilScalar, disilImmediate, disilFabric, disilEngine, Insn.engineBad, hbad]
  exact hall e he

theorem mem_upFrom_iff {n : Nat} : ∀ {k lo : Nat}, n ∈ upFrom lo k ↔ lo ≤ n ∧ n < lo + k
  | 0, lo => by simp [upFrom]
  | k + 1, lo => by rw [upFrom, List.mem_cons, mem_upFrom_iff]; omega

/-- The opcodes that Table 10.3 lists are those of the rows. -/
theorem mem_disilRows_opcodes {n : Nat} : n ∈ disilRows.map (fun r => r.2.1) ↔ opcListed n = true := by
  have hrows : disilRows.map (fun r => r.2.1) = upFrom 0 11 ++ upFrom 0x10 30 ++ upFrom 0x40 11 ++ upFrom 0x50 8 := rfl
  rw [hrows, opcListed, decide_eq_true_iff]
  simp only [List.mem_append, mem_upFrom_iff]
  omega

/-- Settles O3: a row's instruction is issued with the row's checks, whose outcomes are those of `State.insn`. That a word with an
unlisted OPC traps whichever row issues it is the model's reading (R228, log entry 12). -/
theorem guardedOff : Obligations.GuardedOff := by
  refine ⟨fun e he th f s hf => ?row, fun x f => ⟨fun hpg hpn => ?always, ?guard⟩,
    fun e he th f s w hrun hheld hword hw => ?unlisted⟩
  case row =>
    obtain ⟨bad, need, body, hexec, hbad⟩ := disilRow_issued he th f s
    rw [hexec, hbad]
    refine ⟨fun hrefused => ?_, fun hgood hguard => ?_, disilRow_noInverse he th f s⟩
    · rw [hrefused, State.insn_refused hf]
    · refine ⟨_, ?_, s.jumped_setPc th _⟩
      rw [hexec, hbad, hgood, State.insn_guardedOff hf hguard, State.advance]
  case always => simp [Thread.guard, hpg, hpn, Thread.pred]
  case guard => cases h : f.pn <;> simp [Thread.guard, h]
  case unlisted =>
    obtain ⟨bad, need, body, hexec, -⟩ := disilRow_issued he th f s
    have hlisted : opcListed (w % 256) = false := Bool.eq_false_iff.mpr fun h => hw (mem_disilRows_opcodes.mpr h)
    have hopc : opcListed e.2.1 = true := mem_disilRows_opcodes.mp (List.mem_map_of_mem he)
    rw [hexec, State.insn_unlisted hrun hheld hword hlisted hopc]

end Sys2Proof.Machine
end

section
/-! ## Control instructions and thread CSRs (R70, R229, R230, R250, Table 10.6) -/

namespace Sys2Proof.Machine

open Sys2Proof

/-- Settles O7: each instruction ends by setting the PC, or faults. -/
theorem jumpResults : Obligations.JumpResults := by
  refine ⟨fun th f s hissues hgood => completes_jumped hissues hgood (exec_nop th f s) rfl,
    fun th f s hissues hgood => completes_jumped hissues hgood (exec_br th f s) rfl,
    fun th f s hissues hgood => ?jal, fun th f s hissues hgood => ⟨fun hfva => ?jr, fun hfva => ?jrFault⟩,
    fun th f s hissues hgood hfloor => ?chk⟩
  case jal =>
    refine (completes_setPc hissues hgood (exec_jal th f s) rfl).imp fun u ⟨honly, hpc, hthr⟩ => ⟨honly, hpc, fun r => ?_⟩
    rw [State.greg, hthr, Thread.reg_setReg, State.greg]
  case jr =>
    refine completes_jumped hissues hgood (exec_jr th f s) ?_
    dsimp only
    rw [if_neg (not_not_intro (Nat.div_eq_of_lt hfva))]
  case jrFault =>
    have hhigh : (s.greg th f.a).toNat / 2 ^ 57 ≠ 0 := (Nat.div_pos hfva (by decide)).ne'
    rw [exec_jr, execJr, State.insn_issues s th _ f _ _ _ hissues hgood, if_pos hhigh]
  case chk => exact completes_advance hissues (by rw [hgood, decide_eq_false (by omega)]; rfl) (exec_chk th f s) rfl

/-! ### Thread CSRs (Table 10.6) -/

/-- The tick count is the whole of its register. -/
theorem State.ofNat_tick (s : State) : BitVec.ofNat 64 s.tick = s.reg R.GLB_TICK.adr := by
  have hword : s.tick = (s.reg R.GLB_TICK.adr).toNat % 2 ^ 64 := by
    rw [State.tick, State.fld, getBits, R.GLB_TICK.TICK, Nat.pow_zero, Nat.div_one]
  rw [hword, Nat.mod_eq_of_lt (BitVec.isLt _), BitVec.ofNat_toNat, BitVec.setWidth_eq]

/-- The tenancy tag of a thread: partition above generation (R68). -/
theorem State.ttag_setWidth (s : State) (t : Nat) : (s.ttag t).setWidth 64 =
    BitVec.ofNat 64 (1024 * s.fld (R.SEQ_THREAD_CFG.PART t) + s.fld (R.PRT_STATUS.GEN (s.fld (R.SEQ_THREAD_CFG.PART t)))) := by
  have hpart : s.fld (R.SEQ_THREAD_CFG.PART t) < 2 ^ 6 := s.fld_lt (R.SEQ_THREAD_CFG.PART t)
  have hgen (p : Nat) : s.fld (R.PRT_STATUS.GEN p) < 2 ^ 10 := s.fld_lt (R.PRT_STATUS.GEN p)
  have hgen := hgen (s.fld (R.SEQ_THREAD_CFG.PART t))
  apply BitVec.eq_of_toNat_eq
  simp only [State.ttag, State.tagOf, State.tpart, BitVec.toNat_setWidth, BitVec.toNat_ofNat]
  omega

/-- The one-bit fields `lo`, …, `lo + n - 1`. -/
def bitLayout (b : Nat → Bool) (lo n : Nat) : List (Nat × Nat × Nat) := (upFrom lo n).map fun i => (i, 1, b2n (b i))

theorem stacked_bitLayout (b : Nat → Bool) : ∀ n lo : Nat, Stacked lo (bitLayout b lo n) (lo + n)
  | 0, lo => Nat.le_refl lo
  | n + 1, lo => by
    have hbit : b2n (b lo) < 2 ^ 1 := by cases b lo <;> decide
    have hrest := stacked_bitLayout b n (lo + 1)
    rw [Nat.add_right_comm] at hrest
    exact ⟨Nat.le_refl lo, hbit, hrest⟩

/-- A bit map reads back bit by bit, and has no bit above. -/
theorem testBit_packBits_bits (b : Nat → Bool) (n i : Nat) :
    (packBits ((upFrom 0 n).map fun j => (j, b2n (b j)))).testBit i = (decide (i < n) && b i) := by
  have hpack : packBits ((upFrom 0 n).map fun j => (j, b2n (b j))) = packFields (bitLayout b 0 n) 0 := by
    rw [← packBits_map, bitLayout, List.map_map]
    rfl
  obtain ⟨hbound, -, hfields⟩ := packFields_stacked (stacked_bitLayout b n 0) (Nat.zero_lt_one : 0 < 2 ^ 0)
  rw [hpack]
  by_cases hi : i < n
  · have hbit := hfields (i, 1, b2n (b i)) (List.mem_map_of_mem (mem_upFrom_iff.mpr ⟨Nat.zero_le i, by omega⟩))
    rw [decide_eq_true hi, Bool.true_and, Nat.testBit_eq_decide_div_mod_eq, ← bitOf_of_getBits hbit]
    rfl
  · rw [decide_eq_false hi, Bool.false_and]
    exact Nat.testBit_lt_two_pow (hbound.trans_le (Nat.pow_le_pow_right (by decide) (by omega)))

/-- Settles O8: CSRR writes the value of the number that IMM names. -/
theorem csrValues : Obligations.CsrValues := by
  intro th f s hissues hgood n reads
  have hcsr {k : Nat} {v : Word} (hn : n = k) (hk : k ≤ 11) (hv : s.csr th k = some v) : reads v := by
    have hv' : s.csr th (f.imm.toNat % 256) = some v := (congrArg (s.csr th) hn).trans hv
    refine completes_wroteReg hissues ?_ (exec_csrr th f s) ?_
    · rw [hgood, decide_eq_false (by omega)]; rfl
    · rw [hv']
  refine ⟨fun h => hcsr h (by decide) (congrArg some s.ofNat_tick), fun h => hcsr h (by decide) rfl, fun h => hcsr h (by decide) rfl,
    fun h => hcsr h (by decide) (congrArg some (s.ttag_setWidth th)), fun h => hcsr h (by decide) rfl, fun h => hcsr h (by decide) rfl,
    fun h => hcsr h (by decide) rfl, fun h => hcsr h (by decide) rfl, fun h => hcsr h (by decide) rfl,
    fun h => hcsr h (by decide) (congrArg some (BitVec.ofNat_toNat ..).symm), fun h => ?handles, fun h => hcsr h (by decide) rfl,
    fun h => ?reserved⟩
  case handles =>
    refine (hcsr h (by decide) rfl).imp fun u hu => ⟨_, hu, fun i hi => ?_⟩
    rw [BitVec.getLsbD_ofNat, testBit_packBits_bits, decide_eq_true hi, Bool.true_and]
  case reserved =>
    obtain ⟨hrun, hheld, hword, -, -⟩ := hissues
    rw [exec_csrr, execCsrr, decide_eq_true (by omega), Bool.or_true, State.insn_refused ⟨hrun, hheld, hword⟩]

end Sys2Proof.Machine
end

section
/-! ## Traps, the return from them, and held status traps (R64, R232, R253) -/

namespace Sys2Proof.Machine

open Sys2Proof

/-! What an update adds to the fields that have changed. -/

theorem OnlyThread.refl (t : Nat) (s : State) : OnlyThread t [] s s := ⟨rfl, fun _ _ => rfl, fun _ _ => rfl, fun _ => rfl⟩

theorem OnlyThread.mono {t : Nat} {fs gs : List Field} {s u : State} (h : OnlyThread t fs s u) (hsub : ∀ f ∈ fs, f ∈ gs) :
    OnlyThread t gs s u := by
  obtain ⟨hrest, hthreads, hfields, hmem⟩ := h
  exact ⟨hrest, hthreads, fun g hg => hfields g fun f hf => hg f (hsub f hf), hmem⟩

theorem OnlyThread.setFld {t : Nat} {fs : List Field} {s u : State} (h : OnlyThread t fs s u) (f : Field) (v : Nat)
    (hf : f.lo + f.w ≤ 64) : OnlyThread t (fs ++ [f]) s (u.setFld f v) := by
  obtain ⟨hrest, hthreads, hfields, hmem⟩ := h
  refine ⟨?_, hthreads, fun g hg => ?_, hmem⟩
  · rw [hrest]; rfl
  · exact (State.fld_setFld_apart _ _ _ _ hf (hg _ (by simp))).trans (hfields g fun f hf => hg f (List.mem_append_left _ hf))

theorem OnlyThread.setThr {t : Nat} {fs : List Field} {s u : State} (h : OnlyThread t fs s u) (x : Thread) :
    OnlyThread t fs s (u.setThr t x) := by
  obtain ⟨hrest, hthreads, hfields, hmem⟩ := h
  refine ⟨?_, fun v hv => (State.thr_setThr_ne _ _ hv).trans (hthreads v hv), hfields, hmem⟩
  rw [hrest]; rfl

theorem OnlyThread.tally {t : Nat} {fs : List Field} {s u : State} (h : OnlyThread t fs s u) (k n : Nat) :
    OnlyThread t fs s (u.tally k n) := by
  obtain ⟨hrest, hthreads, hfields, hmem⟩ := h
  refine ⟨?_, hthreads, hfields, hmem⟩
  rw [hrest]; rfl

/-- A field of STATUS keeps its value where the PC is set. -/
theorem State.fld_status_setPc (s : State) (th : ThreadNo) (n lo w : Nat) :
    (s.setPc th n).fld ⟨R.SEQ_THREAD_STATUS.adr th, lo, w⟩ = s.fld ⟨R.SEQ_THREAD_STATUS.adr th, lo, w⟩ :=
  State.fld_of_reg_eq (State.reg_setFld_ne _ _ (threadPc_ne_status th th).symm)

/-- The state in which a trap enters the handler: the trap registers of the thread, HANDLER and CAUSE are set (R64). -/
def State.saveTrap (s : State) (t cause info : Nat) : State :=
  ((s.setThr t { s.thr t with trapPc := BitVec.ofNat 64 (s.pc t), trapCause := BitVec.ofNat 64 cause,
                              trapInfo := BitVec.ofNat 64 info, wait := .idle }).raise
    (R.SEQ_THREAD_STATUS.HANDLER t)).setFld (R.SEQ_THREAD_STATUS.CAUSE t) cause

theorem State.reg_saveTrap_ne (s : State) {t o : Nat} (cause info : Nat) (h : o ≠ R.SEQ_THREAD_STATUS.adr t) :
    (s.saveTrap t cause info).reg o = s.reg o :=
  (State.reg_setFld_ne _ _ h).trans (State.reg_setFld_ne _ _ h)

/-- In `u` thread `th` is at its handler for a trap that it met in `s` (R64). -/
structure InHandler (s : State) (th : ThreadNo) (cause info : Nat) (u : State) : Prop where
  handler : u.flag (R.SEQ_THREAD_STATUS.HANDLER th) = true
  tstate : u.tstate th = stRunnable
  causeField : u.fld (R.SEQ_THREAD_STATUS.CAUSE th) = cause
  pc : u.pc th = 8 * s.fld (R.SEQ_THREAD_TRAPVEC.VEC th)
  thr : u.thr th = { s.thr th with
    trapPc := BitVec.ofNat 64 (s.pc th), trapCause := BitVec.ofNat 64 cause, trapInfo := BitVec.ofNat 64 info, wait := .idle }

/-- A thread with a handler that is not in it takes a trap there. -/
theorem State.inHandler_trap {s : State} {th : ThreadNo} (hhandler : s.flag (R.SEQ_THREAD_STATUS.HANDLER th) = false)
    (hvec : s.fld (R.SEQ_THREAD_TRAPVEC.VEC th) ≠ 0) {cause : Nat} (hcause : cause < 256) (info : Nat) :
    InHandler s th cause info (s.trap th cause info) := by
  let p := s.saveTrap th cause info
  have htrap : s.trap th cause info =
      (p.setTState th stRunnable 0).setPc th (8 * p.fld (R.SEQ_THREAD_TRAPVEC.VEC th)) := by
    rw [State.trap, hhandler, if_neg Bool.false_ne_true, if_neg hvec]
    rfl
  have hpvec : p.fld (R.SEQ_THREAD_TRAPVEC.VEC th) = s.fld (R.SEQ_THREAD_TRAPVEC.VEC th) :=
    State.fld_of_reg_eq (s.reg_saveTrap_ne cause info (threadTrapvec_ne_status th th))
  have hvlt : s.fld (R.SEQ_THREAD_TRAPVEC.VEC th) < 2 ^ 54 := s.fld_lt (R.SEQ_THREAD_TRAPVEC.VEC th)
  have hphandler : p.fld (R.SEQ_THREAD_STATUS.HANDLER th) = 1 :=
    (State.fld_setFld_apart _ _ _ _ (by simp [R.SEQ_THREAD_STATUS.CAUSE])
      (by simp [R.SEQ_THREAD_STATUS.HANDLER, R.SEQ_THREAD_STATUS.CAUSE])).trans
      (State.fld_setFld_same _ _ _ (by simp [R.SEQ_THREAD_STATUS.HANDLER]))
  have hpcause : p.fld (R.SEQ_THREAD_STATUS.CAUSE th) = cause :=
    (State.fld_setFld_same _ _ _ (by simp [R.SEQ_THREAD_STATUS.CAUSE])).trans (Nat.mod_eq_of_lt hcause)
  -- Neither STATE and REASON nor the PC shares a bit with HANDLER or CAUSE.
  have hkept (n lo w : Nat) (h : lo = 4 ∧ w = 1 ∨ 12 ≤ lo) :
      ((p.setTState th stRunnable 0).setPc th n).fld ⟨R.SEQ_THREAD_STATUS.adr th, lo, w⟩ =
        p.fld ⟨R.SEQ_THREAD_STATUS.adr th, lo, w⟩ := by
    rw [State.fld_status_setPc, State.fld_setTState_apart] <;>
      simp only [Field.Apart, R.SEQ_THREAD_STATUS.STATE, R.SEQ_THREAD_STATUS.REASON] <;> omega
  rw [htrap, hpvec]
  exact {
    handler := bne_iff_ne.mpr (by
      rw [R.SEQ_THREAD_STATUS.HANDLER, hkept _ _ _ (by decide)]
      exact hphandler.trans_ne one_ne_zero)
    tstate := (State.tstate_setPc ..).trans (State.tstate_setTState ..)
    causeField := (hkept _ _ _ (by decide)).trans hpcause
    pc := by rw [State.pc_setPc]; omega
    thr := State.thr_setThr_same .. }

/-- A status trap that is held is taken before the thread issues again (R232). -/
theorem State.insn_held {s : State} {th : ThreadNo} (hrun : s.tstate th = stRunnable) {st : BitVec 4}
    (hheld : (s.thr th).held = some st) (hhandler : s.flag (R.SEQ_THREAD_STATUS.HANDLER th) = false) (opc : Nat) (f : Insn)
    (bad : Bool) (need : BitVec 32) (body : State → State) :
    s.insn th opc f bad need body = (s.setThr th { s.thr th with held := none }).trap th 0x07 st.toNat := by
  simp [State.insn, State.takeHeld, hrun, hheld, hhandler]

/-- A bit of IMM that an instruction does not use is refused (R228). -/
theorem Insn.malformed_of_imm {f : Insn} {u : Uses} {i : Nat} (hbit : f.imm.getLsbD i = true) (hunused : u.imm.getLsbD i = false) :
    f.malformed u = true := by
  have himm : (f.imm &&& ~~~u.imm) != 0 := bne_iff_ne.mpr fun h0 => by
    have hzero : (f.imm &&& ~~~u.imm).getLsbD i = false := h0 ▸ BitVec.getLsbD_zero
    rw [BitVec.getLsbD_and, BitVec.getLsbD_not, hbit, hunused, decide_eq_true (BitVec.lt_of_getLsbD hbit)] at hzero
    exact absurd hzero (by decide)
  rw [Insn.malformed, himm, Bool.or_true]

/-- TRET uses IMM[0] alone. -/
theorem Insn.malformed_tret {f : Insn} (h : f.imm.toNat / 2 ≠ 0) : f.malformed { imm := 1 } = true := by
  obtain ⟨i, hi⟩ := Nat.exists_testBit_of_ne_zero h
  rw [Nat.testBit_div_two] at hi
  exact Insn.malformed_of_imm (i := i + 1) hi (by simp [BitVec.getLsbD_one])

/-- HANDLER is cleared, and the thread goes on at `n` (R253). -/
def State.leaveHandler (s : State) (t n : Nat) : State := (s.setFld (R.SEQ_THREAD_STATUS.HANDLER t) 0).setPc t n

section
variable (s : State) (th : ThreadNo) (n : Nat)

theorem State.tstate_leaveHandler : (s.leaveHandler th n).tstate th = s.tstate th :=
  (State.tstate_setPc ..).trans (State.fld_setFld_apart _ _ _ _ (by simp [R.SEQ_THREAD_STATUS.HANDLER])
    (by simp [R.SEQ_THREAD_STATUS.STATE, R.SEQ_THREAD_STATUS.HANDLER]))

theorem State.handler_leaveHandler : (s.leaveHandler th n).flag (R.SEQ_THREAD_STATUS.HANDLER th) = false := by
  have hfld : (s.leaveHandler th n).fld (R.SEQ_THREAD_STATUS.HANDLER th) = 0 :=
    (State.fld_status_setPc ..).trans (State.fld_setFld_same _ _ _ (by simp [R.SEQ_THREAD_STATUS.HANDLER]))
  rw [State.flag, hfld]
  rfl

theorem State.onlyThread_leaveHandler :
    OnlyThread th [R.SEQ_THREAD_PC.PC th, R.SEQ_THREAD_STATUS.HANDLER th] s (s.leaveHandler th n) :=
  (((OnlyThread.refl th s).setFld (R.SEQ_THREAD_STATUS.HANDLER th) 0 (by simp [R.SEQ_THREAD_STATUS.HANDLER])).setPc n).mono
    (by simp)

end

/-- Where TRET goes on: IMM[0] skips the instruction that trapped. -/
theorem tret_pc (pc : Nat) (imm : BitVec 32) : pc + 8 * (imm.toNat % 2) = if imm.getLsbD 0 then pc + 8 else pc := by
  rw [BitVec.getLsbD, Nat.testBit_zero]
  rcases Nat.mod_two_eq_zero_or_one imm.toNat with h | h <;> simp [h]

/-- TRET in a handler, with no status trap held. -/
theorem completes_tret {th : ThreadNo} {f : Insn} {s : State} (hissues : Issues s th 0x06 f 0)
    (hhandler : s.flag (R.SEQ_THREAD_STATUS.HANDLER th) = true) (hgood : f.malformed { imm := 1 } = false) :
    Completes (.tret th f) s fun u => u.flag (R.SEQ_THREAD_STATUS.HANDLER th) = false ∧ u.tstate th = stRunnable
      ∧ u.pc th = (if f.imm.getLsbD 0 then (s.thr th).trapPc.toNat + 8 else (s.thr th).trapPc.toNat) / 8 * 8 % 2 ^ 57
      ∧ u.thr th = s.thr th ∧ OnlyThread th [R.SEQ_THREAD_PC.PC th, R.SEQ_THREAD_STATUS.HANDLER th] s u := by
  generalize hn : (s.thr th).trapPc.toNat + 8 * (f.imm.toNat % 2) = n
  have hthr : (s.leaveHandler th n).thr th = s.thr th := State.thr_setFld ..
  have hbody : ((s.setFld (R.SEQ_THREAD_STATUS.HANDLER th) 0).setPc th ((s.thr th).trapPc.toNat + 8 * (f.imm.toNat % 2))).takeHeld th =
      s.leaveHandler th n := by
    rw [hn]
    exact State.takeHeld_of_held_none (hthr ▸ hissues.2.1)
  refine completes_insn hissues (by rw [hgood, hhandler]; rfl) (exec_tret th f s) hbody (s.tstate_leaveHandler th n) ?_
  rw [State.flag_tally, State.tstate_tally, State.pc_tally, State.thr_tally, ← tret_pc, hn]
  exact ⟨s.handler_leaveHandler th n, (s.tstate_leaveHandler th n).trans hissues.1, State.pc_setPc .., hthr,
    (s.onlyThread_leaveHandler th n).tally 1880 1⟩

/-- Settles O9: a trap is `State.trap`, which enters the handler where there is one, and TRET leaves it. -/
theorem trapAndReturn : Obligations.TrapAndReturn := by
  have htrap (th : ThreadNo) (f : Insn) (s : State) (hissues : Issues s th 0x05 f 0)
      (hgood : f.malformed { imm := 0xFFFFFFFF } = false) :
      exec (.trap th f) s = .next ((s.trap th 0x06 f.imm.toNat).tally 1880) := by
    rw [exec_trap, execTrap, State.insn_issues s th _ f _ _ _ hissues hgood, State.countIssued_trap]
  refine ⟨fun th f s hissues hgood => ⟨htrap th f s hissues hgood, fun hhandler hvec => ?taken⟩,
    fun th f s hissues hhandler hgood => ?tret, fun th f s hf himm => ?refused,
    fun th f s st hrun hheld hhandler hvec => ?held⟩
  case taken =>
    have h := State.inHandler_trap hhandler hvec (cause := 0x06) (by decide) f.imm.toNat
    refine ⟨_, htrap th f s hissues hgood, h.handler, ?_, ?_, ?_, h.tstate, h.pc, h.causeField, ?_, ?_⟩
    all_goals rw [State.thr_tally, h.thr]
    · rfl
    · exact BitVec.ofNat_toNat ..
  case tret => exact completes_tret hissues hhandler hgood
  case refused =>
    rw [exec_tret, execTret, Insn.malformed_tret himm, Bool.true_or, State.insn_refused hf]
  case held =>
    let p := s.setThr th { s.thr th with held := none }
    have h : InHandler p th 0x07 st.toNat (p.trap th 0x07 st.toNat) :=
      State.inHandler_trap (s := p) hhandler hvec (by decide) st.toNat
    refine ⟨p.trap th 0x07 st.toNat, by rw [exec_nop, execNop, State.insn_held hrun hheld hhandler], ?_⟩
    dsimp only
    rw [h.thr, State.thr_setThr_same]
    exact ⟨rfl, rfl, BitVec.ofNat_toNat .., rfl⟩

end Sys2Proof.Machine
end

section
/-! ## Waiting: WAIT.T and its wake, HALT, WAIT.W (R229, R251, R252; log entry 14) -/

namespace Sys2Proof.Machine

open Sys2Proof

/-! A thread that waits. -/

/-- The thread is WAITING for `w`, with the REASON given. -/
def State.waits (s : State) (t : Nat) (w : Wait) (reason : Nat) : State :=
  (s.setThr t { s.thr t with wait := w }).setTState t stWaiting reason

section
variable (s : State) (th : ThreadNo) (w : Wait) (reason : Nat)

theorem State.thr_waits : (s.waits th w reason).thr th = { s.thr th with wait := w } := State.thr_setThr_same ..

theorem State.tstate_waits : (s.waits th w reason).tstate th = stWaiting := State.tstate_setTState ..

theorem State.reason_waits : (s.waits th w reason).fld (R.SEQ_THREAD_STATUS.REASON th) = reason % 16 := State.reason_setTState ..

theorem State.pc_waits : (s.waits th w reason).pc th = s.pc th :=
  State.pc_of_reg_eq (State.reg_setTState_ne _ _ _ (threadPc_ne_status th th))

theorem State.onlyThread_waits :
    OnlyThread th [R.SEQ_THREAD_STATUS.STATE th, R.SEQ_THREAD_STATUS.REASON th] s (s.waits th w reason) :=
  ⟨rfl, fun _ hu => State.thr_setThr_ne _ _ hu,
    fun _ hg => State.fld_setTState_apart _ _ _ (hg _ (by simp)) (hg _ (by simp)), fun _ => rfl⟩

/-- An instruction that waits for a tick has issued. -/
theorem State.countIssued_waits_tick (s0 : State) (n : Nat) :
    s0.countIssued (s.waits th (.tick n) reason) th = (s.waits th (.tick n) reason).tally 1880 := by
  rw [State.countIssued, State.thr_waits]
  simp

end

/-! WAIT.T and HALT. -/

/-- The wake of a thread in WAIT.T whose tick has come: it goes on past the instruction. -/
theorem State.tickWake_due {s : State} {th : ThreadNo} {target : Nat} (hstate : s.tstate th = stWaiting)
    (hwait : (s.thr th).wait = .tick target) (hheld : (s.thr th).held = none) (hstuck : s.stuck th = none)
    (hdue : target ≤ s.tick) : s.tickWake th = (s.runnable th).advance th := by
  have hthr : ((s.runnable th).advance th).thr th = { s.thr th with wait := .idle } := State.thr_runnable hstuck
  rw [State.tickWake, hwait]
  dsimp only
  rw [if_pos ⟨hstate, hdue⟩, State.takeHeld_of_held_none (by rw [hthr]; exact hheld)]

theorem State.tickWake_early {s : State} {th : ThreadNo} {target : Nat} (hwait : (s.thr th).wait = .tick target)
    (hearly : s.tick < target) : s.tickWake th = s := by
  rw [State.tickWake, hwait]
  exact if_neg fun h => absurd h.2 (by omega)

/-- Settles O10: WAIT.T jumps or is `State.waits`, its wake is `State.runnable`, HALT is `State.haltThread` (log entry 14). -/
theorem waitForTick : Obligations.WaitForTick := by
  refine ⟨fun th f s hissues hgood => ⟨fun hdue => ?due, fun hearly => ?early⟩,
    fun th s target hstate hwait hheld hstuck hdue => ?wake,
    fun th s target hwait hearly => by rw [exec_waitTWake, execWaitTWake, State.tickWake_early hwait hearly],
    fun th f s hissues hgood => ?halt⟩
  case due => exact completes_jumped hissues hgood (exec_waitT th f s) (if_pos hdue)
  case early =>
    refine completes_issued hissues hgood (exec_waitT th f s)
      (t := s.waits th (.tick (s.greg th f.a + f.imm.signExtend 64).toNat) 5) (if_neg (Nat.not_le.mpr hearly)) ?_
    rw [State.countIssued_waits_tick, State.tstate_tally, State.fld_tally, State.thr_tally]
    exact ⟨(s.onlyThread_waits th _ 5).tally 1880 1, s.tstate_waits th _ 5, s.reason_waits th _ 5, s.thr_waits th _ 5⟩
  case wake =>
    refine ⟨(s.runnable th).advance th, ?_, ?_⟩
    · rw [exec_waitTWake, execWaitTWake, State.tickWake_due hstate hwait hheld hstuck hdue]
    have hpc : (s.runnable th).pc th = s.pc th := State.pc_of_reg_eq (State.reg_runnable_ne hstuck (threadPc_ne_status th th))
    exact ⟨(State.onlyThread_runnable hstuck).setPc _, (State.tstate_setPc ..).trans (State.tstate_runnable hstuck),
      (State.pc_setPc_next _ _ _).trans (by rw [hpc]), State.thr_runnable hstuck⟩
  case halt =>
    refine completes_issued hissues hgood (exec_halt th f s) rfl ?_
    rw [State.countIssued_of_state _ _ _ (by rw [State.tstate_haltThread]; decide), State.tstate_tally, State.pc_tally,
      State.thr_tally, State.tstate_haltThread, State.thr_haltThread,
      State.pc_of_reg_eq (State.reg_haltThread_ne _ (threadPc_ne_status th th))]
    exact ⟨rfl, State.pc_setPc_next s s th, rfl⟩

end Sys2Proof.Machine
end

section
/-! ## WAIT.W (R57 to R59, R252; log entry 14) -/

namespace Sys2Proof.Machine

open Sys2Proof

/-! The status register of an instruction that goes by. -/

section
variable (s : State) (th : ThreadNo) (r : BitVec 5) (v : Word)

/-- The status word is written and the thread goes on. -/
def State.answered (s : State) (t : Nat) (r : BitVec 5) (v : Word) : State := (s.writeStatus t r v).advance t

theorem State.pc_answered : (s.answered th r v).pc th = (s.pc th + 8) % 2 ^ 57 := State.pc_setPc_next s (s.writeStatus th r v) th

theorem State.tstate_answered : (s.answered th r v).tstate th = s.tstate th := State.tstate_setPc ..

theorem State.greg_answered (q : BitVec 5) : (s.answered th r v).greg th q = if q = r ∧ q ≠ 0 then v else s.greg th q :=
  s.greg_writeStatus th r q v

theorem State.wake_answered : ((s.answered th r v).thr th).wake = (s.thr th).wake := s.wake_writeStatus th r v

theorem State.wl_answered (w : Nat) : (s.answered th r v).wl w = s.wl w := rfl

theorem State.byte_answered (a : Nat) : (s.answered th r v).byte a = s.byte a := rfl

end

/-! A pending line is consumed. -/

/-- The thread has the snapshot of line `w`, which is IDLE again (R59). -/
def State.consumed (s : State) (w t : Nat) : State :=
  let s := s.deliverSnap w t (s.wl w).snap
  s.setWl w { s.wl w with state := 2, snap := 0 }

theorem State.thr_consumed (s : State) (w t : Nat) : (s.consumed w t).thr t = { s.thr t with wake := (s.wl w).snap } :=
  State.thr_setThr_same ..

theorem State.state_consumed (s : State) (w t : Nat) : ((s.consumed w t).wl w).state = 2 :=
  congrArg Watch.state (State.wl_setWl_same ..)

theorem State.greg_consumed (s : State) (w t : Nat) (r : BitVec 5) : (s.consumed w t).greg t r = s.greg t r := by
  rw [State.greg, State.thr_consumed]
  rfl

theorem State.byte_consumed (s : State) (w t a : Nat) : (s.consumed w t).byte a = s.byte a := rfl

/-! A thread parks. -/

section
variable (s : State) (th : ThreadNo) (w : Nat) (r : BitVec 5) (deadline : Nat)

/-- The WATCH field shares no bit with STATE. -/
theorem State.tstate_park : (s.park th w r deadline).tstate th = stParked :=
  (State.fld_setFld_apart _ _ _ _ (by simp [R.SEQ_THREAD_STATUS.WATCH])
    (by simp [R.SEQ_THREAD_STATUS.STATE, R.SEQ_THREAD_STATUS.WATCH])).trans (State.tstate_setTState ..)

theorem State.watch_park (hw : w < 4096) : (s.park th w r deadline).fld (R.SEQ_THREAD_STATUS.WATCH th) = w :=
  (State.fld_setFld_same _ _ _ (by simp [R.SEQ_THREAD_STATUS.WATCH])).trans (Nat.mod_eq_of_lt hw)

theorem State.wl_park : (s.park th w r deadline).wl w = { s.wl w with state := 4, thread := th, deadline := deadline } :=
  State.wl_setWl_same ..

theorem State.thr_park : (s.park th w r deadline).thr th = { s.thr th with waitReg := r } := State.thr_setThr_same ..

theorem State.byte_park (a : Nat) : (s.park th w r deadline).byte a = s.byte a := rfl

theorem State.pc_park : (s.park th w r deadline).pc th = s.pc th :=
  State.pc_of_reg_eq ((State.reg_setFld_ne _ _ (threadPc_ne_status th th)).trans
    (State.reg_setTState_ne _ _ _ (threadPc_ne_status th th)))

end

/-- Settles O11: a wait that is not denied consumes a pending line, times out or parks (log entry 14). -/
theorem waitForWatch : Obligations.WaitForWatch := by
  intro th f s hissues hgood ga gb w denied
  have hexec := exec_waitW th f s
  -- The model denies a line that is neither IDLE nor PENDING.
  have hpass (hdenied : ¬ denied) (hstate : (s.wl w).state = 2 ∨ (s.wl w).state = 3) :
      ¬ (4096 ≤ ga ∨ s.fld (R.SEQ_WATCH_CFG.PART w) ≠ s.tpart th ∨ ¬ ((s.wl w).state = 2 ∨ (s.wl w).state = 3)) :=
    fun h => hdenied (h.imp_right (Or.imp_right fun hn => absurd hstate hn))
  have hstate2 (h : (s.wl w).state = 2) : (s.wl w).state ≠ 3 := by omega
  refine ⟨fun hdenied => ?denied, fun hdenied hpending => ?pending, fun hdenied hidle hgb hdue => ?timeout,
    fun hdenied hidle hgb => ?parks⟩
  case denied =>
    have hdeny : 4096 ≤ ga ∨ s.fld (R.SEQ_WATCH_CFG.PART w) ≠ s.tpart th ∨ ¬ ((s.wl w).state = 2 ∨ (s.wl w).state = 3) :=
      hdenied.imp_right (Or.imp_right fun h => by
        simp only [List.mem_cons, List.not_mem_nil, or_false] at h
        omega)
    rw [hexec, execWaitW, State.insn_issues s th _ f _ _ _ hissues hgood]
    dsimp only
    rw [if_pos hdeny, State.countIssued_trap]
  case pending =>
    refine completes_insn (t := (s.consumed w th).answered th f.st 0) hissues hgood hexec
      ((if_neg (hpass hdenied (.inr hpending))).trans (if_pos hpending)) (State.tstate_answered ..) ?_
    rw [State.thr_tally, State.pc_tally, State.wake_answered, State.thr_consumed, State.pc_answered]
    refine ⟨rfl, by rw [State.wl_tally, State.wl_answered, State.state_consumed], rfl, fun r => ?_,
      fun a => by rw [State.byte_tally, State.byte_answered, State.byte_consumed]⟩
    rw [State.greg_tally, State.greg_answered, State.greg_consumed]
    -- g0 reads 0 whatever is written to it.
    by_cases hr : r = 0
    · rw [if_neg fun h => h.2 hr, hr]
      exact (ite_self (s.greg th 0)).symm
    · exact if_congr (and_iff_left hr) rfl rfl
  case timeout =>
    refine completes_insn (t := s.answered th f.st (statusWord 5)) hissues hgood hexec
      ((if_neg (hpass hdenied (.inl hidle))).trans ((if_neg (hstate2 hidle)).trans (if_pos ⟨hgb, hdue⟩)))
      (State.tstate_answered ..) ?_
    rw [State.thr_tally, State.pc_tally, State.wake_answered, State.pc_answered]
    refine ⟨rfl, rfl, rfl, fun r => ?_, fun a => ?_⟩
    · rw [State.greg_tally, State.greg_answered]
      rfl
    · rw [State.byte_tally, State.byte_answered]
  case parks =>
    refine completes_issued (t := s.park th w f.st gb) hissues hgood hexec
      ((if_neg (hpass hdenied (.inl hidle))).trans ((if_neg (hstate2 hidle)).trans (if_neg (by omega)))) ?_
    rw [State.countIssued_of_state _ _ _ (by rw [State.tstate_park]; decide), State.tstate_tally, State.fld_tally, State.thr_tally,
      State.pc_tally, State.tstate_park, State.thr_park, State.pc_park, State.watch_park _ _ _ _ _ (Nat.mod_lt _ (by decide))]
    refine ⟨rfl, rfl, ?_, rfl, rfl, fun r => ?_, fun a => ?_⟩
    · rw [State.wl_tally, State.wl_park]
    · rw [State.greg_tally, State.greg, State.thr_park]
      rfl
    · rw [State.byte_tally, State.byte_park]

end Sys2Proof.Machine
end

section
/-! ## RED, RESOLVE and FENCE (R236 to R238; log entries 12 and 14) -/

namespace Sys2Proof.Machine

open Sys2Proof

/-- An instruction that waits for anything but a tick has not issued. -/
theorem State.countIssued_waits (s : State) (th : ThreadNo) {w : Wait} (hw : ∀ n, w ≠ .tick n) (reason : Nat) :
    s.countIssued (s.waits th w reason) th = s.waits th w reason := by
  rw [State.countIssued, State.thr_waits, State.tstate_waits, State.pc_waits]
  cases w with
  | tick n => exact absurd rfl (hw n)
  | _ => exact if_pos ⟨rfl, rfl, Bool.false_ne_true⟩

/-- Settles O26: RED and RESOLVE send their request, FENCE goes by or waits (log entries 12 and 14). -/
theorem reductionsAndFences : Obligations.ReductionsAndFences := by
  refine ⟨fun th f s t hissues hgood hgroup hop hlisted hfirst hcnt htwo hend hsends => ?red,
    fun th f s t hissues hgood hclash himm haligned hkey hskid hsends => ?resolve,
    fun th f s hissues hgood => ⟨fun hmet => ?goes, fun hunmet => ?waits⟩⟩
  case red =>
    have hbad : (f.malformed { a := true, b := true, st := true, imm := 0x80007FF3 } || badGroup f.b || f.imm.toNat % 4 == 3 ||
        !redListed (getBits f.imm.toNat 4 4) || decide (getBits f.imm.toNat 8 7 < 2)) = false := by
      rw [hgood, hgroup, hlisted, beq_eq_false_iff_ne.mpr hop, decide_eq_false (Nat.not_lt.mpr htwo)]
      rfl
    rw [exec_red, execRed, State.insn_issues s th _ f _ _ _ hissues hbad]
    dsimp only
    rw [if_neg (by simp [hfirst, hcnt, hend]), sentOn, ← State.fabricOp_of_sends hsends]
    rfl
  case resolve =>
    have hbad : (f.malformed { d := true, a := true, b := true, st := true, imm := 0x1F } || f.clash false) = false := by
      rw [hgood, hclash]; rfl
    have hbit : bitOf (s.greg th f.b).toNat 23 = true := (getLsbD_eq_getBits ..).symm.trans hkey
    rw [exec_resolve, execResolve, himm, State.insn_issues s th _ f _ _ _ hissues (by rw [hbad]; rfl)]
    dsimp only
    rw [if_neg (by simp [haligned]), if_neg (by simp [hbit, hskid]), sentOn, ← State.fabricOp_of_sends hsends]
    rfl
  case goes => exact completes_jumped hissues hgood (exec_fence th f s) (if_pos hmet)
  case waits =>
    refine completes_issued (t := s.waits th (.fence (f.imm.getLsbD 0)) 3) hissues hgood (exec_fence th f s)
      (if_neg (ne_true_of_eq_false hunmet)) ?_
    rw [State.countIssued_waits _ _ (by simp), State.thr_waits]
    exact ⟨s.tstate_waits th _ 3, s.reason_waits th _ 3, s.pc_waits th _ 3, rfl, (s.onlyThread_waits th _ 3).2.2.2⟩

end Sys2Proof.Machine
end

section
/-! ## What sending a packet leaves of the threads (R66, R82, R141, R397) -/

namespace Sys2Proof.Machine

open Sys2Proof

/-- Threads, the plan lock and the registers in front of the Switch Core's stand in `t` as in `s`. -/
structure KeepsThreads (s t : State) : Prop where
  threads : t.threads = s.threads
  lock : t.opt.lock = s.opt.lock
  fld : ∀ g : Field, g.off < R.SWC_FWD_CTL.adr → t.fld g = s.fld g

theorem KeepsThreads.refl (s : State) : KeepsThreads s s := ⟨rfl, rfl, fun _ _ => rfl⟩

theorem KeepsThreads.trans {s t u : State} (h : KeepsThreads s t) (h' : KeepsThreads t u) : KeepsThreads s u :=
  ⟨h'.threads.trans h.threads, h'.lock.trans h.lock, fun g hg => (h'.fld g hg).trans (h.fld g hg)⟩

theorem KeepsThreads.ite {c : Prop} [Decidable c] {s t u : State} (ht : KeepsThreads s t) (hu : KeepsThreads s u) :
    KeepsThreads s (if c then t else u) := by
  split
  · exact ht
  · exact hu

theorem KeepsThreads.thr {s t : State} (h : KeepsThreads s t) (th : Nat) : t.thr th = s.thr th := by
  rw [State.thr, h.threads, State.thr]

theorem KeepsThreads.pc {s t : State} (h : KeepsThreads s t) (th : ThreadNo) : t.pc th = s.pc th :=
  congrArg (8 * ·) (h.fld (R.SEQ_THREAD_PC.PC th) (by
    simp only [R.SEQ_THREAD_PC.PC, R.SEQ_THREAD_PC.adr, R.SWC_FWD_CTL.adr]
    omega))

theorem KeepsThreads.tstate {s t : State} (h : KeepsThreads s t) (th : ThreadNo) : t.tstate th = s.tstate th :=
  h.fld (R.SEQ_THREAD_STATUS.STATE th) (by
    simp only [R.SEQ_THREAD_STATUS.STATE, R.SEQ_THREAD_STATUS.adr, R.SWC_FWD_CTL.adr]
    omega)

/-! Registers, alerts, logs and the trace. -/

theorem State.keepsThreads_setFld (s : State) {f : Field} (v : Nat) (h : R.SWC_FWD_CTL.adr ≤ f.off) : KeepsThreads s (s.setFld f v) :=
  ⟨rfl, rfl, fun _ hg => s.fld_setReg_ne _ (by omega)⟩

theorem State.keepsThreads_count (s : State) {f : Field} (n : Nat) (h : R.SWC_FWD_CTL.adr ≤ f.off) : KeepsThreads s (s.count f n) :=
  (s.keepsThreads_setFld (s.fld f + n) h).trans ⟨rfl, rfl, fun _ _ => rfl⟩

theorem State.keepsThreads_alarm (s : State) (i : Nat) : KeepsThreads s (s.alarm i) := by
  obtain ⟨hst, out, h⟩ := s.alarm_frame i
  rw [h]
  have hcause : R.SWC_FWD_CTL.adr ≤ R.REL_ALERT_CAUSE.adr := by decide
  exact (s.keepsThreads_setFld (f := ⟨R.REL_ALERT_CAUSE.adr, i, 1⟩) 1 hcause).trans ⟨rfl, rfl, fun _ _ => rfl⟩

theorem State.keepsThreads_event (s : State) {f : Field} (i : Nat) (h : R.SWC_FWD_CTL.adr ≤ f.off) : KeepsThreads s (s.event f i) :=
  (s.keepsThreads_setFld 1 h).trans (State.keepsThreads_alarm _ i)

theorem State.keepsThreads_faultLog (s : State) (code tag kind number info0 info1 : Nat) :
    KeepsThreads s (s.faultLog code tag kind number info0 info1) := by
  have hrecord (x : RelState) : KeepsThreads s { s with rel := x } := ⟨rfl, rfl, fun _ _ => rfl⟩
  have hlogged (x : RelState) (v : Nat) : KeepsThreads s ({ s with rel := x }.setFld (R.REL_LOG_IDX.PROD 0) v) :=
    (hrecord x).trans (State.keepsThreads_setFld _ v (by decide))
  have hfull (t : State) (v : Nat) :
      KeepsThreads t (((t.setFld (R.REL_LOG_IDX.CONS 0) v).count (R.REL_LOG_IDX.OVERWRITTEN 0)).alarm 10) :=
    (t.keepsThreads_setFld v (by decide)).trans <|
      (State.keepsThreads_count (f := R.REL_LOG_IDX.OVERWRITTEN 0) _ 1 (by decide)).trans (State.keepsThreads_alarm _ 10)
  unfold State.faultLog State.logAdvance
  exact .ite ((hlogged _ _).trans (hfull ..)) (hlogged _ _)

theorem OnlyTrace.keepsThreads {s t : State} (h : OnlyTrace s t) : KeepsThreads s t := by
  obtain ⟨⟨_, _, _, _, rfl⟩, hfld⟩ := h
  exact ⟨rfl, rfl, fun g hg => hfld g (Nat.lt_trans hg (by decide))⟩

theorem State.keepsThreads_capture (s : State) (point dir : Nat) (p : Packet) (marked : Bool) :
    KeepsThreads s (s.capture point dir p marked) :=
  (s.onlyTrace_capture point dir p marked).keepsThreads

/-! Queues. -/

theorem State.keepsThreads_setSwc (s : State) (x : SwcState) : KeepsThreads s { s with swc := x } := ⟨rfl, rfl, fun _ _ => rfl⟩

theorem State.keepsThreads_freePool (s : State) (q : QPkt) : KeepsThreads s (s.freePool q) := by
  rw [s.freePool_frame]
  exact s.keepsThreads_setSwc _

theorem State.keepsThreads_noteDepth (s : State) (l v : Nat) : KeepsThreads s (s.noteDepth l v) := by
  obtain ⟨⟨regs, tel, h⟩, hfld⟩ := s.noteDepth_frame l v
  refine ⟨by rw [h], by rw [h], fun g hg => hfld g ?_⟩
  simp only [R.SWC_FWD_CTL.adr] at hg
  simp only [R.SWC_LINK_Q.adr]
  omega

theorem State.keepsThreads_holdPkt (s : State) (q : QPkt) : KeepsThreads s (s.holdPkt q) := by
  unfold State.holdPkt
  exact .ite (s.keepsThreads_setSwc _) <| (s.keepsThreads_freePool q).trans <| (State.keepsThreads_setSwc _ _).trans <|
    (State.keepsThreads_setFld _ _ (by decide)).trans (State.keepsThreads_count _ 1 (by decide))

theorem State.keepsThreads_enqueue (s : State) (q : QPkt) : KeepsThreads s (s.enqueue q) := by
  unfold State.enqueue
  exact .ite (s.keepsThreads_holdPkt q) ((s.keepsThreads_setSwc _).trans (State.keepsThreads_noteDepth ..))

/-- A packet seen at a free local port. -/
theorem State.keepsThreads_atPort (s : State) (point dir : Nat) (p : Packet) (marked : Bool) :
    KeepsThreads s (s.localPort.2.capture point dir p marked) :=
  .trans (t := s.localPort.2) ⟨rfl, rfl, fun _ _ => rfl⟩ (State.keepsThreads_capture ..)

theorem State.keepsThreads_toLocal (s : State) (q : QPkt) : KeepsThreads s (s.toLocal q) := by
  unfold State.toLocal
  refine .ite ((s.keepsThreads_setSwc _).trans (State.keepsThreads_freePool _ q)) ?_
  exact .trans (.ite (.refl s) (s.keepsThreads_atPort ..)) (State.keepsThreads_setSwc _ _)

theorem State.keepsThreads_enterLocal (s : State) (p : Packet) (marked : Bool) (arr : Option Nat) :
    KeepsThreads s (s.enterLocal p marked arr).2 := by
  cases arr with
  | some n => exact .refl s
  | none => exact s.keepsThreads_atPort ..

/-! The Switch Core. -/

/-- A packet that is discarded is counted, and some are recorded (R141). -/
theorem State.keepsThreads_drop (s : State) (q : QPkt) (p : Packet) (st : Option Nat) (code ctr : Nat) :
    KeepsThreads s (s.carry q (.drop p st code ctr)).1 := by
  have hcounted (t : State) {f : Field} (h : R.SWC_FWD_CTL.adr ≤ f.off) : KeepsThreads t (t.count f) := t.keepsThreads_count 1 h
  have hevent (t : State) {f : Field} (h : R.SWC_FWD_CTL.adr ≤ f.off) (code tag kind number info0 info1 : Nat) :
      KeepsThreads t ((t.linkEvent f).faultLog code tag kind number info0 info1) :=
    (t.keepsThreads_event 2 h).trans (State.keepsThreads_faultLog ..)
  unfold State.carry
  exact (s.keepsThreads_freePool q).trans <|
    (KeepsThreads.ite (hcounted _ (by decide)) <| .ite (hcounted _ (by decide)) <| .ite (hcounted _ (by decide)) (.refl _)).trans <|
      .ite (hevent _ (by decide) ..) <| .ite (hevent _ (by decide) ..) <| .ite (State.keepsThreads_faultLog ..) (.refl _)

theorem State.keepsThreads_carry (s : State) (q : QPkt) (x : Fate) : KeepsThreads s (s.carry q x).1 := by
  cases x with
  | link p l dl0 => exact s.keepsThreads_enqueue _
  | deliver p =>
    unfold State.carry
    dsimp only
    split
    · exact s.keepsThreads_freePool q
    split
    · exact s.keepsThreads_freePool q
    · exact s.keepsThreads_toLocal _
  | flood p =>
    unfold State.carry
    dsimp only
    split
    · exact s.keepsThreads_freePool q
    · exact s.keepsThreads_toLocal _
  | drop p st code ctr => exact s.keepsThreads_drop q p st code ctr

theorem State.keepsThreads_refuse (s : State) (q : QPkt) (status : Nat) : KeepsThreads s (s.refuse q status) := by
  unfold State.refuse
  refine .ite (.refl s) ?_
  dsimp only
  exact (s.keepsThreads_enterLocal _ false none).trans (State.keepsThreads_carry _ _ _)

theorem State.keepsThreads_inject (s : State) (q : QPkt) : KeepsThreads s (s.inject q) := by
  have hcarry := s.keepsThreads_carry q (s.fate q.pkt q.point)
  unfold State.inject
  refine .ite (s.keepsThreads_freePool q) <| .ite (s.keepsThreads_setSwc _) <| .ite ?_ ?_
  · exact (s.keepsThreads_setSwc _).trans <| (State.keepsThreads_freePool _ q).trans (State.keepsThreads_count _ 1 (by decide))
  split
  next h => rw [h] at hcarry; exact hcarry
  next h => rw [h] at hcarry; exact hcarry.trans (State.keepsThreads_refuse ..)

/-- Sending a packet changes no thread. -/
theorem State.keepsThreads_sendPacket (s : State) (p : Packet) (marked : Bool) (arr : Option Nat) :
    KeepsThreads s (s.sendPacket p marked arr) :=
  (s.keepsThreads_enterLocal p marked arr).trans (State.keepsThreads_inject ..)

end Sys2Proof.Machine
end

section
/-! ## Engine instructions (R240, R241, R244, R248, R249) -/

namespace Sys2Proof.Machine

open Sys2Proof

/-! A switch of light plans is requested (R260, R276, R278). -/

/-- Threads, the plan lock, the registers in front of the Switch Core's and module memory stand in `t` as in `s`. -/
def LeavesThreads (s t : State) : Prop := KeepsThreads s t ∧ KeepsLines s t

theorem LeavesThreads.refl (s : State) : LeavesThreads s s := ⟨.refl s, .refl s⟩

theorem LeavesThreads.trans {s t u : State} (h : LeavesThreads s t) (h' : LeavesThreads t u) : LeavesThreads s u :=
  ⟨h.1.trans h'.1, h.2.trans h'.2⟩

/-- What each step leaves, all of them leave. -/
theorem leavesThreads_foldl {α β : Type} {state : β → State} {step : β → α → β}
    (hstep : ∀ b a, LeavesThreads (state b) (state (step b a))) :
    ∀ (l : List α) (b : β), LeavesThreads (state b) (state (l.foldl step b))
  | [], _ => .refl _
  | a :: l, b => (hstep b a).trans (leavesThreads_foldl hstep l _)

theorem State.leavesThreads_setFld (s : State) {f : Field} (v : Nat) (h : R.SWC_FWD_CTL.adr ≤ f.off) : LeavesThreads s (s.setFld f v) :=
  ⟨s.keepsThreads_setFld v h, rfl, rfl⟩

/-- An update of the optics that leaves the plan lock. -/
theorem State.leavesThreads_setOpt (s : State) {x : OptState} (h : x.lock = s.opt.lock) : LeavesThreads s (s.setOpt x) :=
  ⟨⟨rfl, h, fun _ _ => rfl⟩, rfl, rfl⟩

/-- A dark window's notices are sent, and it is added. -/
theorem State.leavesThreads_openDark (s : State) (b n w : Nat) : LeavesThreads s (s.openDark b n w) := by
  unfold State.openDark
  generalize hr : List.foldl _ _ _ = r
  have hnotes : LeavesThreads s r.2 := by
    rw [← hr]
    refine leavesThreads_foldl (state := Prod.snd) (fun acc e => ?_) (s.enginePeers n) ([], s)
    have hfresh : LeavesThreads acc.2 acc.2.fresh.2 := ⟨⟨rfl, rfl, fun _ _ => rfl⟩, rfl, rfl⟩
    have hsent (p : Packet) : LeavesThreads acc.2.fresh.2 (acc.2.fresh.2.sendPacket p) :=
      ⟨State.keepsThreads_sendPacket .., State.keepsLines_sendPacket ..⟩
    exact hfresh.trans (hsent _)
  obtain ⟨notes, t⟩ := r
  refine hnotes.trans (t.leavesThreads_setOpt ?_)
  rfl

theorem State.leavesThreads_moveDark (s : State) (x : DarkWin) : LeavesThreads s (s.moveDark x) := by
  unfold State.moveDark
  have hevent (t : State) : LeavesThreads t (t.optEvent R.OPT_EVENTS.DARK_POSTPONED) :=
    ⟨t.keepsThreads_event 3 (by decide), t.keepsLines_event ..⟩
  refine .trans (s.leavesThreads_setOpt ?_) ((State.leavesThreads_openDark ..).trans (hevent _))
  rfl

theorem State.leavesThreads_moveMet (s : State) (t : Nat) : LeavesThreads s (s.moveMet t) :=
  leavesThreads_foldl (state := id) State.leavesThreads_moveDark _ s

theorem State.leavesThreads_askSwitch (s : State) (q t : Nat) (by_ : SwitchBy) : LeavesThreads s (s.askSwitch q t by_) := by
  have hshown (t : State) : LeavesThreads t ((t.setFld R.OPT_PLAN_STATUS.PENDING 1).setFld R.OPT_PLAN_STATUS.NEXT q) :=
    (t.leavesThreads_setFld 1 (by decide)).trans (State.leavesThreads_setFld _ q (by decide))
  refine .trans (s.leavesThreads_setOpt ?_) (hshown _)
  rfl

theorem State.leavesThreads_noteLock (s : State) : LeavesThreads s s.noteLock := by
  have hset (t : State) {f : Field} (v : Nat) (h : R.SWC_FWD_CTL.adr ≤ f.off) := t.leavesThreads_setFld v h
  unfold State.noteLock
  split
  · exact (hset _ 0 (by decide)).trans <| (hset _ 0 (by decide)).trans (hset _ 0 (by decide))
  · exact hset _ 1 (by decide)
  · exact (hset _ 1 (by decide)).trans (hset _ _ (by decide))
  · exact (hset _ 1 (by decide)).trans <| (hset _ _ (by decide)).trans (hset _ _ (by decide))

/-- LP.SET has taken the plan lock for its thread and requested its switch (R249). -/
def State.lpAsked (s : State) (t : ThreadNo) (st : BitVec 5) (q tk : Nat) : State :=
  ((s.setLock (some (.lp t))).askSwitch q tk (.lp t st)).moveMet tk

theorem State.leavesThreads_lpAsked (s : State) (th : ThreadNo) (st : BitVec 5) (q tk : Nat) :
    LeavesThreads (s.setOpt { s.opt with lock := some (.lp th) }) (s.lpAsked th st q tk) :=
  (State.leavesThreads_noteLock _).trans <| (State.leavesThreads_askSwitch ..).trans (State.leavesThreads_moveMet ..)

/-- An instruction that leaves its status register pending and goes on, after work that leaves the threads. -/
theorem completes_pendingStatus {c : Instr} {s t : State} {x : OptState} {th : ThreadNo} {opc : Nat} {f : Insn} {bad : Bool}
    {need : BitVec 32} {body : State → State} (hissues : Issues s th opc f need) (hgood : bad = false)
    (hexec : exec c s = .next (s.insn th opc f bad need body))
    (hbody : body s = (t.setThr th ((t.thr th).addPend (regMask f.st))).advance th) (hkeeps : LeavesThreads (s.setOpt x) t) :
    Completes c s fun u => u.pc th = (s.pc th + 8) % 2 ^ 57 ∧ (u.thr th).pend = (s.thr th).pend ||| regMask f.st
      ∧ (u.thr th).ops = (s.thr th).ops ∧ u.opt.lock = x.lock ∧ SameMemory s u := by
  obtain ⟨hkept, hlines⟩ := hkeeps
  have hthr : t.thr th = s.thr th := hkept.thr th
  have hpc : t.pc th = s.pc th := hkept.pc th
  refine completes_insn hissues hgood hexec hbody ((State.tstate_setPc ..).trans (hkept.tstate th)) ?_
  have hthr' : ((t.setThr th ((t.thr th).addPend (regMask f.st))).advance th).thr th = (s.thr th).addPend (regMask f.st) :=
    (State.thr_setThr_same ..).trans (by rw [hthr])
  rw [State.pc_tally, State.thr_tally, State.opt_tally, hthr', ← hpc]
  exact ⟨State.pc_setPc_next t _ th, rfl, rfl, hkept.lock, hlines.byte⟩

/-! Issue. -/

/-- An engine instruction that may be issued, with the handle slot that it takes, hands its operation on (R240). -/
theorem State.engineIssue_ready {s : State} {th : ThreadNo} {f : Insn} {slot : Option Nat} {kind : Nat} (hready : EngineReady s th)
    (hkind : kind ≠ 5) (hslot : takesSlot s th f = some slot) (arg : Nat) :
    s.engineIssue th f kind arg = s.handOn th f kind arg slot := by
  obtain ⟨htray, hops⟩ := hready
  rw [State.engineIssue, if_neg (not_not_intro htray), if_neg (Nat.not_le.mpr hops)]
  unfold takesSlot at hslot
  split at hslot
  next hnh =>
    rw [if_pos (.inr hnh), Option.some.inj hslot]
  next hnh =>
    obtain ⟨i, hfree, rfl⟩ := Option.map_eq_some_iff.mp hslot
    rw [if_neg (not_or.mpr ⟨hkind, hnh⟩), hfree]

/-- RSV takes no handle slot. -/
theorem State.engineIssue_rsv {s : State} {th : ThreadNo} {f : Insn} (hready : EngineReady s th) (arg : Nat) :
    s.engineIssue th f 5 arg = s.handOn th f 5 arg none := by
  obtain ⟨htray, hops⟩ := hready
  rw [State.engineIssue, if_neg (not_not_intro htray), if_neg (Nat.not_le.mpr hops), if_pos (.inl rfl)]

/-- Settles O27: what an engine instruction checks holds, so that it hands its operation on, or takes the plan lock. -/
theorem engineInstructions : Obligations.EngineInstructions := by
  intro th f s slot hready
  have hissue {kind : Nat} (hkind : kind ≠ 5) (hslot : takesSlot s th f = some slot) (arg : Nat) :=
    State.engineIssue_ready hready hkind hslot arg
  refine ⟨fun hissues hgood hskid hassigned hroom hslot => ?skdQ, fun hissues hgood hslot => ?krn, fun hissues hgood hslot => ?coll,
    fun hissues hgood hlow hhigh hslot => ?collBatch, fun hissues hgood => ?rsv,
    fun hissues hgood hen hlock htime hq hvalid hlow hhigh => ?lpSet⟩
  case skdQ =>
    rw [exec_skdQ, execSkdQ, State.insn_issues s th _ f _ _ _ hissues hgood]
    dsimp only
    rw [if_neg (Nat.not_le.mpr hskid), if_neg (by simp [hassigned]), if_neg (Nat.not_le.mpr hroom), hissue (by decide) hslot]
  case krn => rw [exec_krn, execKrn, State.insn_issues s th _ f _ _ _ hissues hgood, hissue (by decide) hslot]
  case coll => rw [exec_coll, execColl, State.insn_issues s th _ f _ _ _ hissues hgood, hissue (by decide) hslot]
  case collBatch =>
    rw [exec_collBatch, execCollBatch, State.insn_issues s th _ f _ _ _ hissues hgood]
    dsimp only
    rw [if_neg (by omega), hissue (by decide) hslot]
  case rsv => rw [exec_rsv, execRsv, State.insn_issues s th _ f _ _ _ hissues hgood, State.engineIssue_rsv hready]
  case lpSet =>
    have hkeeps := s.leavesThreads_lpAsked th f.st (s.greg th f.a).toNat (s.greg th f.b).toNat
    have hlp : ¬ (!s.flag (R.COL_PART_CFG.LP_EN (s.tpart th)) || s.opt.lock.isSome || s.timeState == tsLOST) = true := by
      simp [hen, hlock, htime]
    have hplan : ¬ (15 < (s.greg th f.a).toNat ∨ ¬ s.planValid (s.greg th f.a).toNat = true ∨
        (s.greg th f.b).toNat < s.tick + 2 ∨ s.tick + 2 ^ 20 < (s.greg th f.b).toNat) := by
      simp only [hvalid, not_true, false_or]
      omega
    exact completes_pendingStatus hissues hgood (exec_lpSet th f s) ((if_neg hlp).trans (if_neg hplan)) hkeeps

end Sys2Proof.Machine
end

section
/-! ## Handles and descriptor reads (R241, R242) -/

namespace Sys2Proof.Machine

open Sys2Proof

/-! A handle slot whose word is returned. -/

theorem Thread.hand_setHand_same (x : Thread) (i : Nat) (h : Handle) : (x.setHand i h).hand i = h := FMap.get_set_same ..

theorem Thread.hand_setReg (x : Thread) (r : BitVec 5) (v : Word) (i : Nat) : (x.setReg r v).hand i = x.hand i := by
  unfold Thread.setReg
  split <;> rfl

/-- The slot is free again unless its operation is BUSY (R242). -/
def Thread.freeSlot (x : Thread) : Option Nat → Thread
  | none => x
  | some i => if (x.hand i).busy then x else x.setHand i { x.hand i with used := false }

theorem Thread.reg_freeSlot (x : Thread) (slot : Option Nat) (r : BitVec 5) : (x.freeSlot slot).reg r = x.reg r := by
  cases slot with
  | none => rfl
  | some i => dsimp only [Thread.freeSlot]; split <;> rfl

theorem Thread.used_freeSlot {x : Thread} {i : Nat} (h : (x.hand i).busy = false) : ((x.freeSlot (some i)).hand i).used = false := by
  rw [Thread.freeSlot, h, if_neg Bool.false_ne_true, Thread.hand_setHand_same]

section
variable (s : State) (th : ThreadNo) (f : Insn) (w : Word) (slot : Option Nat)

theorem State.handleReturn_eq : s.handleReturn th f w slot =
    ((s.setThr th ((s.thr th).freeSlot slot)).setGreg th f.d w).advance th := by
  cases slot <;> rfl

theorem State.thr_handleReturn : (s.handleReturn th f w slot).thr th = ((s.thr th).freeSlot slot).setReg f.d w := by
  rw [State.handleReturn_eq]
  exact (State.thr_setThr_same ..).trans (by rw [State.thr_setThr_same])

theorem State.greg_handleReturn (r : BitVec 5) :
    (s.handleReturn th f w slot).greg th r = if r = f.d ∧ r ≠ 0 then w else s.greg th r := by
  rw [State.greg, State.thr_handleReturn, Thread.reg_setReg, Thread.reg_freeSlot, State.greg]

theorem State.pc_handleReturn : (s.handleReturn th f w slot).pc th = (s.pc th + 8) % 2 ^ 57 := by
  rw [State.handleReturn_eq]
  exact State.pc_setPc_next s _ th

theorem State.tstate_handleReturn : (s.handleReturn th f w slot).tstate th = s.tstate th := by
  rw [State.handleReturn_eq]
  exact State.tstate_setPc ..

theorem State.onlyThread_handleReturn : OnlyThread th [R.SEQ_THREAD_PC.PC th] s (s.handleReturn th f w slot) := by
  rw [State.handleReturn_eq]
  exact (((OnlyThread.refl th s).setThr _).setThr _).setPc _

end

/-- An instruction that returns the word of a handle. -/
theorem completes_handleReturn {c : Instr} {s : State} {th : ThreadNo} {opc : Nat} {f : Insn} {bad : Bool} {need : BitVec 32}
    {body : State → State} {w : Word} {slot : Option Nat} (hissues : Issues s th opc f need) (hgood : bad = false)
    (hexec : exec c s = .next (s.insn th opc f bad need body)) (hbody : body s = s.handleReturn th f w slot) :
    Completes c s fun u => (∀ r, u.greg th r = if r = f.d ∧ r ≠ 0 then w else s.greg th r) ∧ u.pc th = (s.pc th + 8) % 2 ^ 57
      ∧ (∀ j, slot = some j → ((s.thr th).hand j).busy = false → ((u.thr th).hand j).used = false)
      ∧ OnlyThread th [R.SEQ_THREAD_PC.PC th] s u := by
  refine completes_insn hissues hgood hexec hbody (s.tstate_handleReturn th f w slot) ?_
  rw [State.pc_tally, State.thr_tally, State.thr_handleReturn, State.pc_handleReturn]
  refine ⟨fun r => ?_, rfl, fun j hslot hbusy => ?_, (s.onlyThread_handleReturn th f w slot).tally 1880 1⟩
  · rw [State.greg_tally, State.greg_handleReturn]
  · rw [Thread.hand_setReg, hslot, Thread.used_freeSlot hbusy]

/-! Descriptor reads. -/

/-- The end of the descriptor read of a block transfer that has room at its Skidder. -/
theorem execEngineDescriptorReadDone_skdQ {op : Nat} {o : EngineOp} {s s1 : State} {bs : List Byte} (hs : List HostAnswer)
    (htray : s.fld R.REL_TRAY.STATE = 0) (hop : s.descs.find? (fun o => o.op == op) = some o) (hkind : o.kind = 1)
    (hread : s.readDescriptor o.tag o.fva 64 = (s1, .ok bs false)) (hroom : (s1.skid o.arg).queue.length < 32) :
    execEngineDescriptorReadDone op hs s =
      .next ((s1.setSkid o.arg { s1.skid o.arg with queue := (s1.skid o.arg).queue ++
        [{ thread := o.thread, op := o.op, tag := o.tag, bytes := BitVec.ofNat 512 (ofLeBytes bs) }] }).readOver o sOK true) := by
  rw [execEngineDescriptorReadDone, if_neg (not_not_intro htray), hop]
  simp only [hkind, if_true, hread, Bool.false_eq_true, if_false, if_neg (Nat.not_le.mpr hroom)]

/-- Settles O28: HPOLL, and HWAIT of a slot that is not BUSY, are `State.handleReturn`; HWAIT of a BUSY one is `State.waits`. -/
theorem handles : Obligations.Handles := by
  refine ⟨fun th f s w i hstatus hgood => ⟨fun hissues => ?hpoll, fun hissues hidle => ?hwait, fun j hissues hslot hbusy => ?busy⟩,
    fun op o hs s s1 bs htray hop hkind hread hroom => execEngineDescriptorReadDone_skdQ hs htray hop hkind hread hroom⟩
  case hpoll =>
    refine completes_handleReturn hissues hgood (exec_hpoll th f s) ?_
    dsimp only
    rw [hstatus]
  case hwait =>
    refine (completes_handleReturn (slot := i) hissues hgood (exec_hwait th f s) ?_).imp
      fun u ⟨hgreg, hpc, hfree, honly⟩ => ⟨hgreg, hpc, fun j hj => hfree j hj (hidle j hj), honly⟩
    dsimp only
    rw [hstatus]
    cases i with
    | none => rfl
    | some j => exact if_neg (ne_true_of_eq_false (hidle j rfl))
  case busy =>
    let reason := (Wait.handle j).reason ((s.thr th).hand j).kind
    refine completes_issued (t := s.waits th (.handle j) reason) hissues hgood (exec_hwait th f s) ?_ ?_
    · dsimp only
      rw [hstatus, hslot]
      exact if_pos hbusy
    · rw [State.countIssued_waits _ _ (by simp), State.thr_waits]
      exact ⟨s.tstate_waits th _ reason, s.pc_waits th _ reason, rfl⟩

end Sys2Proof.Machine
end

section
/-! ## Block transfers (R244 to R247; log entry 41) -/

namespace Sys2Proof.Machine

open Sys2Proof

/-! A descriptor starts. -/

theorem State.recheck_of_threads_nil {s : State} (h : s.threads = []) : s.recheck = s := by
  rw [State.recheck, h]
  rfl

/-- A descriptor as it starts at `now`: one that fails R245 is stopped. -/
def SkdDesc.run (d : SkdDesc) (now : Nat) : SkdRun :=
  if skdBad d.bytes.toNat then { desc := d, startTick := now, endTick := now, status := sCHECK, detail := 1, stopped := true }
  else { desc := d, startTick := now, endTick := now }

section
variable {k : SkidNo} {s : State} {d : SkdDesc} {rest : List SkdDesc} (hqueue : (s.skid k).queue = d :: rest)
include hqueue

/-- A descriptor starts at a Skidder that has none under way. -/
theorem execSkidderDescriptorStart_idle (hrun : (s.skid k).run = []) :
    execSkidderDescriptorStart k s = .next (s.setSkid k { s.skid k with queue := rest, run := [d.run s.tick] }).recheck := by
  unfold execSkidderDescriptorStart
  dsimp only
  rw [hqueue, hrun]
  rfl

/-- It waits for the lines of the one before. -/
theorem execSkidderDescriptorStart_waits {r : SkdRun} (hrun : (s.skid k).run = [r]) (hissued : r.issued = false) :
    execSkidderDescriptorStart k s = .next s := by
  unfold execSkidderDescriptorStart
  dsimp only
  rw [hqueue, hrun]
  simp [hissued]

end

/-! A line is issued. -/

/-- The next line of a descriptor as it is issued: its source lines are to be read; FILL has none (R246). -/
def SkdRun.nextLine (r : SkdRun) : SkdLine :=
  { toRead := if skKind r.desc.bytes.toNat = 2 then 0 else
      (skdSources r.desc.bytes.toNat r.next).2 + 1 - (skdSources r.desc.bytes.toNat r.next).1 }

theorem SkdRun.nextLine_fill {r : SkdRun} (h : skKind r.desc.bytes.toNat = 2) : r.nextLine = {} := by
  rw [SkdRun.nextLine, if_pos h]

theorem SkdRun.nextLine_read {r : SkdRun} (h : skKind r.desc.bytes.toNat ≠ 2) : r.nextLine =
    { toRead := (skdSources r.desc.bytes.toNat r.next).2 + 1 - (skdSources r.desc.bytes.toNat r.next).1 } := by
  rw [SkdRun.nextLine, if_neg h]

/-- A descriptor whose next line is the only one open. -/
def SkdRun.opened (r : SkdRun) : SkdRun := { r with next := r.next + 1, lines := [(r.next, r.nextLine)] }

/-- The next line of a descriptor that has no line open (R246). -/
theorem State.skdNext_line {s : State} {r : SkdRun} (k : Nat) (hlines : r.lines = []) (hstopped : r.stopped = false)
    (hsuspended : r.suspended = none) (hnext : r.next < skdLines r.desc.bytes.toNat) :
    s.skdNext k r = some (if skKind r.desc.bytes.toNat = 2 then s.skdWrite k r.opened r.next r.nextLine else
      s.skdRead k r.opened r.next r.nextLine) := by
  rw [State.skdNext, hlines]
  simp only [List.filter_nil, List.find?_nil]
  rw [if_neg (by simp [hstopped, hsuspended, hnext]), SkdRun.opened]
  rfl

/-- A request that is sent leaves the descriptor as it is to stand then. -/
theorem State.skdSend_of_sends {s s1 s2 : State} {q : Req} {acc : Acc} {x : Xlat} (hxlate : s.translate q.tag q.fva acc = (s1, .ok x))
    (hsent : s1.request q x = (s2, .sent)) (k : Nat) (r r' : SkdRun) (i : Nat) : s.skdSend k q acc r r' i = s2.setRun k r' := by
  simp only [State.skdSend, hxlate, hsent]

/-- The write of a line of COPY or FILL (R246). -/
theorem State.skdWrite_of_sends {s s1 s2 : State} {k : SkidNo} {r : SkdRun} {i : Nat} {ln : SkdLine} {x : Xlat} {q : Req}
    (hq : q = { s.skdReq k r i 0 opBWRITE (skdSpan r.desc.bytes.toNat i).1 with
      bmc := (skdSpan r.desc.bytes.toNat i).1 % 64 + 64 * ((skdSpan r.desc.bytes.toNat i).2 - (skdSpan r.desc.bytes.toNat i).1),
      payload := skdData r.desc.bytes.toNat i ln, last := i + 1 == skdLines r.desc.bytes.toNat, pz := ln.poison })
    (hkind : skKind r.desc.bytes.toNat ≠ 3) (hxlate : s.translate q.tag q.fva .store = (s1, .ok x))
    (hsent : s1.request q x = (s2, .sent)) :
    s.skdWrite k r i ln = s2.setRun k { r.issueAt s.tick with lines := r.lines.put i { ln with sent := true } } := by
  rw [State.skdWrite]
  simp only [if_neg hkind]
  rw [← hq]
  exact State.skdSend_of_sends hxlate hsent ..

theorem State.skid_setSkid_same (s : State) (k : Nat) (x : Skid) : (s.setSkid k x).skid k = x := FMap.get_set_same ..

section
variable {k : SkidNo} {s : State} {r : SkdRun} (hrun : (s.skid k).run = [r])
include hrun

/-- The only descriptor under way issues its next line. -/
theorem execSkidderLineIssue_line (hlines : r.lines = []) (hstopped : r.stopped = false) (hsuspended : r.suspended = none)
    (hnext : r.next < skdLines r.desc.bytes.toNat) :
    execSkidderLineIssue k s = .next (if skKind r.desc.bytes.toNat = 2 then s.skdWrite k r.opened r.next r.nextLine else
      s.skdRead k r.opened r.next r.nextLine) := by
  rw [execSkidderLineIssue, hrun, List.findSome?_cons, State.skdNext_line k hlines hstopped hsuspended hnext]

/-- The only descriptor under way has finished, and writes no completion record. -/
theorem execBlockTransferComplete_ends (hfinished : r.finished = true) (hrecording : r.recording = false)
    (hcompl : skCompl r.desc.bytes.toNat = 0) : execBlockTransferComplete k s = .next (s.skdEnd k r r.status r.detail).recheck := by
  simp only [execBlockTransferComplete, hrun, List.find?_cons, hfinished, hrecording, Bool.not_false, Bool.and_true, hcompl, if_true]

theorem execBlockTransferComplete_waits (hfinished : r.finished = false) : execBlockTransferComplete k s = .next s := by
  simp only [execBlockTransferComplete, hrun, List.find?_cons, hfinished, Bool.false_and, List.find?_nil]

end

/-- Settles O45: each command is the one branch of it that the Skidder's state selects (log entry 41). -/
theorem blockTransfers : Obligations.BlockTransfers := by
  refine ⟨fun k s d rest hqueue hrun => ?starts,
    fun k s d rest r hqueue hrun hissued => execSkidderDescriptorStart_waits hqueue hrun hissued,
    fun k s d rest hqueue hrun hgood hthreads => ?started,
    fun k s r hrun hlines hstopped hsuspended hnext => ?line,
    fun k s r i ln x s1 s2 hkind hxlate hsent => State.skdWrite_of_sends rfl hkind hxlate hsent,
    fun k s r x s1 s2 hrun hlines hstopped hsuspended hnext hkind hxlate hsent => ?write,
    fun k s r hrun hrecording => ⟨fun hfinished hcompl => execBlockTransferComplete_ends hrun hfinished hrecording hcompl,
      fun hfinished => execBlockTransferComplete_waits hrun hfinished⟩⟩
  case starts =>
    have hstart := execSkidderDescriptorStart_idle hqueue hrun
    exact ⟨fun hgood => by rw [exec_skidderDescriptorStart, hstart, SkdDesc.run, hgood]; rfl,
      fun hbad => by rw [exec_skidderDescriptorStart, hstart, SkdDesc.run, hbad]; rfl⟩
  case started =>
    refine ⟨_, execSkidderDescriptorStart_idle hqueue hrun, ?_⟩
    rw [State.recheck_of_threads_nil (by rw [State.threads_setSkid, hthreads])]
    dsimp only
    rw [State.skid_setSkid_same, SkdDesc.run, hgood]
    exact ⟨rfl, rfl, State.byte_setSkid _ _ _⟩
  case line =>
    have hissue := execSkidderLineIssue_line hrun hlines hstopped hsuspended hnext
    refine ⟨fun hkind => ?_, fun hkind => ?_⟩
    · rw [exec_skidderLineIssue, hissue, if_pos hkind, SkdRun.opened, SkdRun.nextLine_fill hkind]
    · rw [exec_skidderLineIssue, hissue, if_neg hkind, SkdRun.opened, SkdRun.nextLine_read hkind]
  case write =>
    have hnot3 : skKind r.desc.bytes.toNat ≠ 3 := by rw [hkind]; decide
    have hwrite := State.skdWrite_of_sends (r := { r with next := r.next + 1, lines := [(r.next, {})] }) rfl hnot3 hxlate hsent
    rw [exec_skidderLineIssue, execSkidderLineIssue_line hrun hlines hstopped hsuspended hnext, if_pos hkind, SkdRun.opened,
      SkdRun.nextLine_fill hkind, hwrite, FMap.put]
    simp

end Sys2Proof.Machine
end

section
/-! ## Frames of events (R360 to R363) -/

namespace Sys2Proof.Machine

open Sys2Proof

theorem State.fld_setFld_ne (s : State) {f g : Field} (v : Nat) (h : g.off ≠ f.off) : (s.setFld f v).fld g = s.fld g :=
  s.fld_setReg_ne _ h

/-- An event changes no field of registers other than its own and REL_ALERT_CAUSE. -/
theorem State.fld_event_ne (s : State) {f g : Field} {i : Nat} (hi : i < 64) (hf : g.off ≠ f.off)
    (hcause : g.off ≠ R.REL_ALERT_CAUSE.adr) : (s.event f i).fld g = s.fld g :=
  (s.fld_event f hi hcause).trans (s.fld_setReg_ne _ hf)

/-- An event sets its bit. -/
theorem State.flag_event (s : State) {f : Field} {i : Nat} (hi : i < 64) (hfits : f.lo + f.w ≤ 64) (hbit : f.w = 1)
    (hcause : f.off ≠ R.REL_ALERT_CAUSE.adr) : (s.event f i).flag f = true := by
  rw [State.flag, s.fld_event f hi hcause, State.raise, State.fld_setFld_same _ _ _ hfits, hbit]
  rfl

/-- An event changes registers, MSI-X and what is sent. -/
theorem State.event_frame (s : State) (f : Field) (i : Nat) :
    ∃ hst out, s.event f i = { s with regs := (s.event f i).regs, hst := hst, out := out } := by
  obtain ⟨hst, out, h⟩ := (s.raise f).alarm_frame i
  rw [State.event, h]
  exact ⟨hst, out, rfl⟩

theorem bitOf_toNat {w : Nat} (x : BitVec w) (i : Nat) : bitOf x.toNat i = x.getLsbD i := by
  rw [getLsbD_eq_getBits, getBits, Nat.pow_one]
  rfl

end Sys2Proof.Machine
end

section
/-! ## Lock, loss and training of electrical lanes and ports (R270, R290, R291, R294) -/

namespace Sys2Proof.Machine

open Sys2Proof

/-! Lock and loss (R290, R294). -/

section
variable {l : ElkLaneNo} {key : LaneKey} {s : State} (hkey : key.val = 256 + l.val)
include hkey

theorem laneKey_not_light : ¬ key.val < 256 := by omega

theorem laneKey_sub : key.val - 256 = l.val := by omega

theorem execLaneLock_electrical (hstate : s.elkState l = 2) : execLaneLock key s =
    .next ((s.setFld (R.ELK_LANE_STATUS.STATE l) 3).setElkLane l { s.elkLane l with stage := 5, since := s.tick }) := by
  simp only [execLaneLock, if_neg (laneKey_not_light hkey), laneKey_sub hkey, hstate, ne_eq, not_true_eq_false, if_false]

/-- A lane outside its port's active lanes has lost lock. -/
def State.lostLock (s : State) (l : Nat) : State :=
  ((s.addFld (R.ELK_LANE_CNT.LOCK_LOSS l) 1).linkEvent R.ELK_EVENTS.LOCK_LOSS).setFld (R.ELK_LANE_STATUS.STATE l) 2

omit hkey in
/-- Losing lock shows in registers of the lane and in events. -/
theorem State.fld_lostLock_ne (s : State) (l : Nat) {g : Field} (hcnt : g.off ≠ R.ELK_LANE_CNT.adr l 4)
    (hevent : g.off ≠ R.ELK_EVENTS.adr) (hcause : g.off ≠ R.REL_ALERT_CAUSE.adr) (hstate : g.off ≠ R.ELK_LANE_STATUS.adr l) :
    (s.lostLock l).fld g = s.fld g :=
  (State.fld_setReg_ne _ _ hstate).trans <| (State.fld_event_ne _ (by decide) hevent hcause).trans (s.fld_addFld_ne 1 hcnt)

omit hkey in
theorem State.laneActive_lostLock (s : State) (l : ElkLaneNo) : (s.lostLock l).laneActive l = s.laneActive l := by
  rw [State.laneActive, State.fld_lostLock_ne, State.laneActive] <;>
    simp only [R.ELK_PORT_STATUS.ACTIVE, R.ELK_PORT_STATUS.adr, R.ELK_LANE_CNT.adr, R.ELK_EVENTS.adr, R.REL_ALERT_CAUSE.adr,
      R.ELK_LANE_STATUS.adr] <;> omega

theorem execLaneLockLoss_inactive (hstate : s.elkState l = 3) (hactive : s.laneActive l = false) :
    execLaneLockLoss key s = .next (s.lostLock l) := by
  have hactive' : ¬ (s.lostLock l).laneActive l = true := by rw [s.laneActive_lostLock l, hactive]; exact Bool.false_ne_true
  simp only [execLaneLockLoss, if_neg (laneKey_not_light hkey), laneKey_sub hkey, hstate, ne_eq, not_true_eq_false, if_false]
  exact congrArg Host.Outcome.next (if_neg hactive')

omit hkey in
theorem State.lostLock_shown (s : State) (l : ElkLaneNo) : (s.lostLock l).elkState l = 2
    ∧ (s.lostLock l).fld (R.ELK_LANE_CNT.LOCK_LOSS l)
        = (s.fld (R.ELK_LANE_CNT.LOCK_LOSS l) + 1) % 2 ^ (R.ELK_LANE_CNT.LOCK_LOSS l).w
    ∧ (s.lostLock l).flag R.ELK_EVENTS.LOCK_LOSS = true ∧ SameMemory s (s.lostLock l) := by
  refine ⟨State.fld_setFld_same _ _ _ (by simp [R.ELK_LANE_STATUS.STATE]), ?_, ?_, (s.addFld _ 1).keepsLines_event _ 2 |>.byte⟩
  · rw [State.lostLock, State.fld_setFld_ne, State.linkEvent, State.fld_event_ne _ (by decide), State.fld_addFld_same] <;>
      simp only [R.ELK_LANE_CNT.LOCK_LOSS, R.ELK_LANE_CNT.adr, R.ELK_EVENTS.LOCK_LOSS, R.ELK_EVENTS.adr, R.REL_ALERT_CAUSE.adr,
        R.ELK_LANE_STATUS.STATE, R.ELK_LANE_STATUS.adr] <;> omega
  · rw [State.flag, State.lostLock, State.fld_setFld_ne]
    · exact State.flag_event _ (by decide) (by decide) rfl (by decide)
    · simp only [R.ELK_EVENTS.LOCK_LOSS, R.ELK_EVENTS.adr, R.ELK_LANE_STATUS.STATE, R.ELK_LANE_STATUS.adr]; omega

end

/-- Loss of signal on a lane that is not active is shown, and does no more. -/
theorem execElectricalLos_inactive {l : ElkLaneNo} {s : State} (hstate : s.elkState l = 3)
    (hei : (s.chan (256 + l / 8)).ei = false) (hactive : s.laneActive l = false) :
    execElectricalLos l s = .next ((s.setFld (R.ELK_LANE_STATUS.LOS l) 1).linkEvent R.ELK_EVENTS.LOS) := by
  have hactive' : ((s.setFld (R.ELK_LANE_STATUS.LOS l) 1).linkEvent R.ELK_EVENTS.LOS).laneActive l = false := by
    rw [State.laneActive, State.linkEvent, State.fld_event_ne _ (by decide), State.fld_setFld_ne]
    · exact hactive
    all_goals
      simp only [R.ELK_PORT_STATUS.ACTIVE, R.ELK_PORT_STATUS.adr, R.ELK_EVENTS.LOS, R.ELK_EVENTS.adr, R.REL_ALERT_CAUSE.adr,
        R.ELK_LANE_STATUS.LOS, R.ELK_LANE_STATUS.adr]
      omega
  simp only [execElectricalLos, hstate, hei, hactive', Nat.reduceEqDiff, Bool.false_eq_true, or_self, false_and, if_false]

/-! Training frames (R270, R291). -/

theorem execTrainingFrame_damaged {key : LaneKey} {word : BitVec 32} {inv rdy : Bool} {s : State}
    (hcrc : (crc16 (leBytes 2 (word.toNat % 2 ^ 16))).toNat ≠ word.toNat / 2 ^ 16) :
    execTrainingFrame key word inv rdy s = .next s := by
  rw [execTrainingFrame, if_pos hcrc]

/-- The record of a lightlane after the first frame of full training. -/
def OptLane.frameSeen (x : OptLane) (peerReady ready : Bool) (tick : Nat) : OptLane :=
  { x with peerReady := x.peerReady || peerReady, ready := x.ready || ready, train := 2, trainAt := tick }

theorem execTrainingFrame_light {key : LaneKey} {word : BitVec 32} {inv rdy : Bool} {s : State} (hlight : key.val < 256)
    (htrain : (s.lane key).train = 1) (hcrc : (crc16 (leBytes 2 (word.toNat % 2 ^ 16))).toNat = word.toNat / 2 ^ 16) :
    execTrainingFrame key word inv rdy s =
      .next ((s.setLane key ((s.lane key).frameSeen (bitOf word.toNat 12) rdy s.tick)).laneFrame key) := by
  simp only [execTrainingFrame, hcrc, ne_eq, not_true_eq_false, if_false, if_pos hlight, State.laneTrains, htrain, true_or, if_true,
    OptLane.frameSeen]

theorem State.lane_setLane_same (s : State) (c : Nat) (x : OptLane) : (s.setLane c x).lane c = x := FMap.get_set_same ..

/-- An electrical lane takes what the first frame of stage 1 says of its line and of the peer (R291). -/
def State.noteFrame (s : State) (l w : Nat) (inv : Bool) : State :=
  let s := (s.setFld (R.ELK_LANE_STATUS.LOS l) 0).setFld (R.ELK_LANE_STATUS.PEER_LANE l) (w % 8)
  let s := s.setFld (R.ELK_LANE_STATUS.INVERTED l) (b2n inv)
  s.setElkPort (l / 8) { s.elkPort (l / 8) with fec272 := bitOf w 13, skois := bitOf w 14 }

/-- The record of an electrical lane after the first frame of stage 1, which makes no request. -/
def ElkLane.frameSeen (x : ElkLane) (peerReady ready : Bool) (tick : Nat) : ElkLane :=
  { x with ack := 0, peerReady := peerReady, ready := ready, stage := 2, since := tick }

theorem State.moveTap_none (s : State) (l tap : Nat) : s.moveTap l tap 0 = s.setElkLane l { s.elkLane l with ack := 0 } := rfl

/-- An electrical lane receives the first frame of stage 1 and answers with frames of its own. -/
def State.firstFrame (s : State) (l w tap : Nat) (inv rdy : Bool) : State :=
  (((s.noteFrame l w inv).moveTap l tap 0).setElkLane l ((s.elkLane l).frameSeen (bitOf w 12) rdy s.tick)).elkFrame l

theorem State.tick_noteFrame (s : State) (l : ElkLaneNo) (w : Nat) (inv : Bool) : (s.noteFrame l w inv).tick = s.tick := by
  rw [State.noteFrame, State.tick, State.fld_setElkPort, State.fld_setFld_ne, State.fld_setFld_ne, State.fld_setFld_ne, State.tick] <;>
    simp only [R.GLB_TICK.TICK, R.GLB_TICK.adr, R.ELK_LANE_STATUS.INVERTED, R.ELK_LANE_STATUS.PEER_LANE, R.ELK_LANE_STATUS.LOS,
      R.ELK_LANE_STATUS.adr] <;> omega

theorem execTrainingFrame_electrical {l : ElkLaneNo} {key : LaneKey} {word : BitVec 32} {inv rdy : Bool} {s : State}
    (hkey : key.val = 256 + l.val) (hstate : s.elkState l = 1) (hstage : (s.elkLane l).stage = 1)
    (hcrc : (crc16 (leBytes 2 (word.toNat % 2 ^ 16))).toNat = word.toNat / 2 ^ 16) (hreq : getBits word.toNat 8 2 = 0) :
    execTrainingFrame key word inv rdy s = .next (s.firstFrame l word.toNat (getBits word.toNat 6 2) inv rdy) := by
  have hlane (tap : Nat) : ((s.noteFrame l word.toNat inv).moveTap l tap 0).elkLane l = { s.elkLane l with ack := 0 } :=
    State.elkLane_setElkLane_same ..
  have htick (tap : Nat) : ((s.noteFrame l word.toNat inv).moveTap l tap 0).tick = s.tick := s.tick_noteFrame l word.toNat inv
  simp only [State.noteFrame] at hlane htick
  simp only [execTrainingFrame, hcrc, ne_eq, not_true_eq_false, if_false, if_neg (laneKey_not_light hkey), laneKey_sub hkey, hstate,
    hreq, hlane, htick, hstage, if_true]
  rfl

theorem State.firstFrame_shown (s : State) (l : ElkLaneNo) (w tap : Nat) (inv rdy : Bool) :
    (s.firstFrame l w tap inv rdy).elkLane l = (s.elkLane l).frameSeen (bitOf w 12) rdy s.tick
      ∧ (s.firstFrame l w tap inv rdy).fld (R.ELK_LANE_STATUS.PEER_LANE l) = w % 8
      ∧ (s.firstFrame l w tap inv rdy).fld (R.ELK_LANE_STATUS.INVERTED l) = b2n inv
      ∧ ((s.firstFrame l w tap inv rdy).elkPort (l / 8)).skois = bitOf w 14 ∧ SameMemory s (s.firstFrame l w tap inv rdy) := by
  have hfld (g : Field) : (s.firstFrame l w tap inv rdy).fld g = (s.noteFrame l w inv).fld g := rfl
  refine ⟨State.elkLane_setElkLane_same .., ?_, ?_, ?_, fun _ => rfl⟩
  · rw [hfld, State.noteFrame, State.fld_setElkPort, State.fld_setFld_apart, State.fld_setFld_same] <;>
      simp [R.ELK_LANE_STATUS.PEER_LANE, R.ELK_LANE_STATUS.INVERTED]
  · rw [hfld, State.noteFrame, State.fld_setElkPort, State.fld_setFld_same]
    · exact Nat.mod_eq_of_lt (Nat.lt_succ_of_le (b2n_le_one inv))
    · simp [R.ELK_LANE_STATUS.INVERTED]
  · exact congrArg ElkPort.skois (State.elkPort_setElkPort_same ..)

/-! Limits of training, and its end (R270, R291). -/

theorem execTrainingStageLimit_light {key : LaneKey} {s : State} (hlight : key.val < 256) (hfirst : 1 ≤ (s.lane key).train)
    (hlast : (s.lane key).train ≤ 5) (hdue : (s.lane key).trainAt + laneLimit (s.lane key).train ≤ s.tick) :
    execTrainingStageLimit key s = .next (s.fullTrain key) := by
  simp only [execTrainingStageLimit, if_pos hlight, hfirst, hlast, hdue, and_self, if_true]

theorem execTrainingStageLimit_electrical {l : ElkLaneNo} {key : LaneKey} {s : State} (hkey : key.val = 256 + l.val)
    (hstage : (s.elkLane l).stage = 1) (hin : (s.elkLane l).out = false) (hstate : s.elkState l = 1)
    (hdue : (s.elkLane l).since + stageLimit 1 ≤ s.tick) : execTrainingStageLimit key s =
      .next (((s.linkEvent R.ELK_EVENTS.TRAIN_FAIL).setElkLane l { out := true }).setFld (R.ELK_LANE_STATUS.STATE l) 0) := by
  simp only [execTrainingStageLimit, if_neg (laneKey_not_light hkey), laneKey_sub hkey, hstage, hin, hstate, Nat.not_lt.mpr hdue,
    Nat.le_refl, Nat.reduceLeDiff, ne_eq, not_true_eq_false, false_and, and_self, or_self, Bool.false_eq_true, if_false]

/-- The registers of a port that is UP with the lanes `ls` (R283, R289, R295). -/
def State.showPort (s : State) (m : Nat) (ls : List Nat) : State :=
  let x := s.elkPort m
  let sk := s.flag (R.ELK_PORT_CTL.SKOIS m) || x.skois
  let s := s.setFld (R.ELK_PORT_STATUS.ACTIVE m) (packBits (ls.map fun l => (l % 8, 1)))
  let s := s.setFld (R.ELK_PORT_STATUS.FEC m) (b2n (s.flag (R.ELK_PORT_CTL.FEC m) && x.fec272 && !sk))
  (s.setFld (R.ELK_PORT_STATUS.SKOIS m) (b2n sk)).setFld (R.ELK_PORT_STATUS.STATE m) 2

/-- A port comes UP with the lanes `ls`: their training is over, and its channel waits for IDENT. -/
def State.portUp (s : State) (m : Nat) (ls : List Nat) : State :=
  let x := s.elkPort m
  let s := ls.foldl (fun s l => s.setElkLane l {}) (s.showPort m ls)
  let s := s.setElkPort m { x with busyAt := s.tick, sentEi := false }
  ((s.setFld (R.SWC_CH_STATUS.STATE (256 + m)) chTRAINING).lineStart (256 + m)).sendIdent (256 + m)

theorem State.lineStart_frame (s : State) (c : Nat) : ∃ elk, s.lineStart c = { s with elk := elk } := by
  refine List.foldlRecOn (motive := fun (u : State) => ∃ elk, u = { s with elk := elk }) _ _ ⟨_, rfl⟩ ?_
  rintro u ⟨elk, rfl⟩ k -
  exact ⟨_, rfl⟩

theorem State.clearElkLanes_frame (s : State) (ls : List Nat) :
    ∃ elk, ls.foldl (fun (s : State) l => s.setElkLane l {}) s = { s with elk := elk } := by
  refine List.foldlRecOn (motive := fun (u : State) => ∃ elk, u = { s with elk := elk }) _ _ ⟨_, rfl⟩ ?_
  rintro u ⟨elk, rfl⟩ l -
  exact ⟨_, rfl⟩

theorem State.portUp_shown (s : State) (m : ElkPortNo) (ls : List Nat) : (s.portUp m ls).fld (R.ELK_PORT_STATUS.STATE m) = 2
    ∧ (s.portUp m ls).fld (R.SWC_CH_STATUS.STATE (256 + m)) = chTRAINING ∧ SameMemory s (s.portUp m ls) := by
  obtain ⟨elk, hlanes⟩ := (s.showPort m ls).clearElkLanes_frame ls
  let t := ({ s.showPort m ls with elk := elk }).setElkPort m { s.elkPort m with busyAt := (s.showPort m ls).tick, sentEi := false }
  obtain ⟨elk', hline⟩ := (t.setFld (R.SWC_CH_STATUS.STATE (256 + m)) chTRAINING).lineStart_frame (256 + m)
  have hport : s.portUp m ls
      = ({ t.setFld (R.SWC_CH_STATUS.STATE (256 + m)) chTRAINING with elk := elk' } : State).sendIdent (256 + m) := by
    rw [State.portUp, hlanes, ← hline]
    rfl
  have hfld (g : Field) : (s.portUp m ls).fld g = (t.setFld (R.SWC_CH_STATUS.STATE (256 + m)) chTRAINING).fld g := by
    rw [hport]
    rfl
  refine ⟨?_, ?_, fun a => ?_⟩
  · have hoff : (R.ELK_PORT_STATUS.STATE m).off ≠ (R.SWC_CH_STATUS.STATE (256 + m)).off := by
      simp only [R.ELK_PORT_STATUS.STATE, R.ELK_PORT_STATUS.adr, R.SWC_CH_STATUS.STATE, R.SWC_CH_STATUS.adr]; omega
    rw [hfld, State.fld_setFld_ne _ _ hoff]
    exact State.fld_setFld_same _ _ _ (by simp [R.ELK_PORT_STATUS.STATE])
  · rw [hfld]
    exact State.fld_setFld_same _ _ _ (by simp [R.SWC_CH_STATUS.STATE])
  · rw [hport]
    rfl

section
variable {m : ElkPortNo} {s : State} (hstate : s.fld (R.ELK_PORT_STATUS.STATE m) = 1)
  (htrained : (s.trainees m).all (fun l => s.elkState l == 3) = true) (href : s.flag R.GLB_TIME_STATUS.REFA_OK = true)
include hstate htrained href

theorem execPortTrainingDone_trained : execPortTrainingDone m s =
    .next (if (s.trainees m).length < s.fld (R.ELK_PORT_CTL.MIN_LANES m) ∨ (s.trainees m).isEmpty then
      ((s.setFld (R.ELK_PORT_STATUS.STATE m) 0).setFld (R.SWC_CH_STATUS.STATE (256 + m)) chDOWN).linkEvent R.ELK_EVENTS.PORT_DOWN
    else s.portUp m (s.trainees m)) := by
  have hnone : (s.trainees m).any (fun l => s.elkState l != 3) = false := by
    rw [List.any_eq_false]
    intro l hl
    simpa using List.all_eq_true.mp htrained l hl
  simp only [execPortTrainingDone, hstate, hnone, href, ne_eq, not_true_eq_false, Bool.false_eq_true, true_or, or_self, if_false]
  rfl

end

/-! Retraining (R291, R294). -/

theorem execTrainingRetry_due {m : ElkPortNo} {s : State} (hstate : s.fld (R.ELK_PORT_STATUS.STATE m) = 0)
    (hen : s.flag (R.ELK_PORT_CTL.EN m) = true) (hdue : (s.elkPort m).tryAt + 2 ^ 16 ≤ s.tick) :
    execTrainingRetry m s = .next (s.portTrain m 0 true) := by
  rw [execTrainingRetry, if_pos ⟨hstate, hen, hdue⟩]

theorem execPortRetrain_enabled {via : Via} {m : ElkPortNo} {s : State} (hsees : s.sees via (R.ELK_PORT_CTL.adr m) true = true)
    (hen : s.flag (R.ELK_PORT_CTL.EN m) = true) : execPortRetrain via m s = .next (s.portTrain m 0 false) := by
  rw [execPortRetrain, State.gate_seen hsees, if_pos hen]

theorem execLaneRejoin_returning {m : ElkPortNo} {s : State} (hrejoin : s.fld (R.ELK_PORT_CTL.REJOIN m) = 0)
    (hstate : s.fld (R.ELK_PORT_STATUS.STATE m) = 2)
    (hlane : (upFrom (8 * m.val) 8).any (fun l => s.mayTrain l && (s.elkLane l).stage == 6) = true) :
    execLaneRejoin m s = .next (s.portTrain m 0 false) := by
  simp only [execLaneRejoin, hrejoin, hstate, hlane, true_or, Nat.le_refl, and_self, if_true]

/-- Settles O38: each command is the one branch of it that the statement's case selects. A frame that makes no request is answered
with ACK 0, and a lightlane's training shows in its record (log entries 55, 66 and 72). -/
theorem portTraining : Obligations.PortTraining := by
  refine ⟨fun l key s hkey => ⟨fun hstate => ?lock, fun hstate hactive => ?loss⟩,
    fun l s hstate hei hactive => execElectricalLos_inactive hstate hei hactive,
    fun key word inv rdy s hcrc => execTrainingFrame_damaged hcrc, fun key word inv rdy s hlight htrain hcrc => ?light,
    fun key s hlight hfirst hlast hdue => execTrainingStageLimit_light hlight hfirst hlast hdue,
    fun l key word inv rdy s hkey hstate hstage hcrc hreq => ?electrical,
    fun l key s hkey hstage hin hstate hdue => execTrainingStageLimit_electrical hkey hstage hin hstate hdue,
    fun m s hstate htrained href => ⟨fun hmin hsome => ?up, fun hmin => ?down⟩,
    fun m s hstate hen hdue => execTrainingRetry_due hstate hen hdue, fun via m s hsees hen => execPortRetrain_enabled hsees hen,
    fun m s hrejoin hstate hlane => execLaneRejoin_returning hrejoin hstate hlane⟩
  case lock =>
    have hsame : OnlyFields [R.ELK_LANE_STATUS.STATE l] s s := fun _ _ => rfl
    exact ⟨_, execLaneLock_electrical hkey hstate, State.fld_setFld_same _ _ _ (by simp [R.ELK_LANE_STATUS.STATE]),
      State.elkLane_setElkLane_same .., hsame.setFld (by simp) (by simp [R.ELK_LANE_STATUS.STATE]) 3, fun _ => rfl⟩
  case loss => exact ⟨_, execLaneLockLoss_inactive hkey hstate hactive, s.lostLock_shown l⟩
  case light =>
    refine ⟨_, execTrainingFrame_light hlight htrain hcrc, ?_⟩
    have hlane : ((s.setLane key ((s.lane key).frameSeen (bitOf word.toNat 12) rdy s.tick)).laneFrame key).lane key
        = (s.lane key).frameSeen (bitOf word.toNat 12) rdy s.tick := s.lane_setLane_same ..
    dsimp only
    rw [hlane, bitOf_toNat]
    exact ⟨rfl, rfl, rfl, rfl, rfl, fun _ => rfl⟩
  case electrical =>
    obtain ⟨hlane, hpeer, hinv, hskois, hmem⟩ := s.firstFrame_shown l word.toNat (getBits word.toNat 6 2) inv rdy
    refine ⟨_, execTrainingFrame_electrical hkey hstate hstage hcrc hreq, ?_⟩
    dsimp only
    rw [hlane, hskois, bitOf_toNat, bitOf_toNat]
    exact ⟨rfl, rfl, rfl, hpeer, hinv, rfl, hmem⟩
  case up =>
    refine ⟨_, execPortTrainingDone_trained hstate htrained href, ?_⟩
    rw [if_neg (by simpa using ⟨hmin, hsome⟩)]
    exact s.portUp_shown m _
  case down => rw [exec_portTrainingDone, execPortTrainingDone_trained hstate htrained href, if_pos (.inl hmin)]

end Sys2Proof.Machine
end

section
/-! ## What ring records, the journal and the spare's insertion leave (R254, R263, R264, R382) -/

namespace Sys2Proof.Machine

open Sys2Proof

/-- Setting a lightlane's record changes the records of lightlanes. -/
theorem State.setLane_frame (s : State) (c : Nat) (x : OptLane) : ∃ lanes, s.setLane c x = s.setOpt { s.opt with lanes := lanes } :=
  ⟨_, rfl⟩

/-- A ring's record comes with that of acquire mode and with the pauses of margin tests (R264). -/
theorem State.setRing_frame (s : State) (n r : Nat) (x : Ring) : ∃ rings acqAt lanes,
    s.setRing n r x = s.setOpt { s.opt with rings := rings, acqAt := acqAt, lanes := lanes } := by
  unfold State.setRing
  dsimp only
  split
  · exact ⟨_, _, _, rfl⟩
  split
  · exact ⟨_, _, _, rfl⟩
  refine List.foldlRecOn (motive := fun (u : State) => ∃ rings acqAt lanes,
    u = s.setOpt { s.opt with rings := rings, acqAt := acqAt, lanes := lanes }) _ _ ⟨_, _, _, rfl⟩ ?_
  rintro u ⟨rings, acqAt, lanes, rfl⟩ c -
  split
  · exact ⟨_, _, _, rfl⟩
  · exact ⟨_, _, _, rfl⟩

theorem State.journalPut_frame (s : State) (bank item index value : Nat) :
    ∃ mgt, s.journalPut bank item index value = { s with mgt := mgt } := by
  unfold State.journalPut
  generalize journalRecord item index s.mgt.jseq value = record
  generalize bankBase bank + journalAt = base
  dsimp only
  split
  · exact ⟨_, rfl⟩
  · exact ⟨_, rfl⟩

/-- The journal is in the settings store's flash. -/
theorem State.journal_frame (s : State) (item index value : Nat) : ∃ mgt, s.journal item index value = { s with mgt := mgt } := by
  have hall (bank : Nat) : ∃ mgt, s.journalAll bank = { s with mgt := mgt } := by
    refine List.foldlRecOn (motive := fun (u : State) => ∃ mgt, u = { s with mgt := mgt }) _ _ ⟨_, rfl⟩ ?_
    rintro u ⟨mgt, rfl⟩ e -
    obtain ⟨mgt', h⟩ := State.journalPut_frame { s with mgt := mgt } bank (e.1 / 65536) (e.1 % 65536) e.2
    exact ⟨mgt', h⟩
  have hput (t : State) (h : ∃ mgt, t = { s with mgt := mgt }) (items : FMap Nat) (bank : Nat) :
      ∃ mgt, ({ t with mgt := { t.mgt with items := items } } : State).journalPut bank item index value = { s with mgt := mgt } := by
    obtain ⟨mgt, rfl⟩ := h
    obtain ⟨mgt', h⟩ := State.journalPut_frame { s with mgt := { mgt with items := items } } bank item index value
    exact ⟨mgt', h⟩
  unfold State.journal
  dsimp only
  split
  · exact ⟨_, rfl⟩
  split
  · exact hput _ (hall _) _ _
  · exact hput s ⟨_, rfl⟩ _ _

theorem State.fld_journal (s : State) (item index value : Nat) (g : Field) : (s.journal item index value).fld g = s.fld g := by
  obtain ⟨mgt, h⟩ := s.journal_frame item index value
  rw [h]
  rfl

theorem State.byte_journal (s : State) (item index value a : Nat) : (s.journal item index value).byte a = s.byte a := by
  obtain ⟨mgt, h⟩ := s.journal_frame item index value
  rw [h]
  rfl

/-- Dark windows of peers stand in `t` as in `s`. -/
theorem State.peerDark_acquireRing (s : State) (c : Nat) (drop : Bool) :
    (s.acquireRing c drop).opt.peerDark = s.opt.peerDark := by
  obtain ⟨rings, acqAt, lanes, h⟩ := s.setRing_frame (c / 16) (ringNo c drop) { acq := 4, winAt := s.tick }
  rw [State.acquireRing, h]
  rfl

/-- The spare's insertion leaves what peers have announced. -/
theorem State.peerDark_insertSpare (s : State) (b n : Nat) : (s.insertSpare b n).opt.peerDark = s.opt.peerDark := by
  have hfold (t : State) (l : List Nat) :
      (l.foldl (fun (u : State) c => (u.acquireRing c false).acquireRing c true) t).opt.peerDark = t.opt.peerDark := by
    refine List.foldlRecOn (motive := fun (u : State) => u.opt.peerDark = t.opt.peerDark) _ _ rfl fun u hu c _ => ?_
    rw [State.peerDark_acquireRing, State.peerDark_acquireRing, hu]
  have hjournal (t : State) (v : Nat) : (t.journal itLASER b v).opt = t.opt := by
    obtain ⟨mgt, h⟩ := t.journal_frame itLASER b v
    rw [h]
  unfold State.insertSpare
  dsimp only
  rw [hfold, hjournal, State.optEvent, State.opt_event]
  split <;> rfl

end Sys2Proof.Machine
end

section
/-! ## Lasers and dark windows (R275 to R279) -/

namespace Sys2Proof.Machine

open Sys2Proof

/-! Laser power (R275). -/

/-- A window's mean power is shown, with no fade of the source. -/
def State.notePower (s : State) (b k : Nat) (power : BitVec 16) : State :=
  let delta : Int := power.toInt - signedOf 16 (s.fld (R.OPT_LASER_BASE.BASE b k))
  let s := (s.setFld (R.OPT_LASER_STATUS.POWER b k) power.toNat).setFld (R.OPT_LASER_STATUS.DELTA b k) (fieldOf 16 delta)
  s.setOpt { s.opt with fade := FMap.set (fun _ => (0, 0, 0)) s.opt.fade (8 * b + k) (0, 0, 0) }

theorem State.fld_notePower_apart (s : State) (b k : Nat) (power : BitVec 16) {g : Field}
    (hpower : Field.Apart g (R.OPT_LASER_STATUS.POWER b k)) (hdelta : Field.Apart g (R.OPT_LASER_STATUS.DELTA b k)) :
    (s.notePower b k power).fld g = s.fld g := by
  rw [State.notePower, State.fld_setOpt, State.fld_setFld_apart _ _ _ _ (by simp [R.OPT_LASER_STATUS.DELTA]) hdelta,
    State.fld_setFld_apart _ _ _ _ (by simp [R.OPT_LASER_STATUS.POWER]) hpower]

theorem execLaserPowerWindow_bright {b : Fin 4} {k : Fin 5} {power : BitVec 16} {s : State} (haway : s.mgtAway = false)
    (hstate : s.fld (R.OPT_LASER_STATUS.STATE b k) = 1)
    (hmonitored : s.unmonitored (s.fld (R.OPT_LASER_STATUS.FEEDS b k)) = false)
    (hbright : -(power.toInt - signedOf 16 (s.fld (R.OPT_LASER_BASE.BASE b k))) ≤ 150) :
    execLaserPowerWindow b k power s = .next (s.notePower b k power) := by
  have h150 := Int.not_lt.mpr hbright
  have h250 : ¬ 250 < -(power.toInt - signedOf 16 (s.fld (R.OPT_LASER_BASE.BASE b k))) := by omega
  have h400 : ¬ 400 < -(power.toInt - signedOf 16 (s.fld (R.OPT_LASER_BASE.BASE b k))) := by omega
  simp only [execLaserPowerWindow, haway, hstate, hmonitored, h150, h250, h400, Bool.false_eq_true, Nat.one_ne_zero,
    Nat.reduceEqDiff, or_self, if_false, OfNat.zero_ne_ofNat]
  split <;> rfl

theorem State.notePower_shown (s : State) (b : Fin 4) (k : Fin 5) (power : BitVec 16) :
    (s.notePower b k power).fld (R.OPT_LASER_STATUS.POWER b k) = power.toNat
      ∧ (s.notePower b k power).fld (R.OPT_LASER_STATUS.DELTA b k)
          = fieldOf 16 (power.toInt - signedOf 16 (s.fld (R.OPT_LASER_BASE.BASE b k)))
      ∧ OnlyFields [R.OPT_LASER_STATUS.POWER b k, R.OPT_LASER_STATUS.DELTA b k] s (s.notePower b k power)
      ∧ SameMemory s (s.notePower b k power) := by
  have hdelta (i : Int) : fieldOf 16 i % 2 ^ 16 = fieldOf 16 i := by rw [fieldOf]; omega
  refine ⟨?_, ?_, fun g hg => s.fld_notePower_apart b k power (hg _ (by simp)) (hg _ (by simp)), fun _ => rfl⟩
  · rw [State.notePower, State.fld_setOpt, State.fld_setFld_apart, State.fld_setFld_same]
    · exact Nat.mod_eq_of_lt power.isLt
    all_goals simp [R.OPT_LASER_STATUS.POWER, R.OPT_LASER_STATUS.DELTA]
  · rw [State.notePower, State.fld_setOpt, State.fld_setFld_same _ _ _ (by simp [R.OPT_LASER_STATUS.DELTA])]
    exact hdelta _

/-! The spare (R275, R276, R279). -/

section
variable {b : Fin 4} {s : State} {n t : Nat} (hstate : s.fld (R.OPT_LASER_STATUS.STATE b 4) = 2)
include hstate

theorem execSpareSourceReady_inserts (hspare : FMap.find s.opt.spare b = some (n, t, true)) :
    execSpareSourceReady b s = .next ((s.setFld (R.OPT_LASER_STATUS.STATE b 4) 3).insertSpare b n) := by
  simp only [execSpareSourceReady, hspare, hstate, ne_eq, not_true_eq_false, if_false, if_true]

theorem execSpareSourceReady_opens (hspare : FMap.find s.opt.spare b = some (n, t, false)) :
    execSpareSourceReady b s =
      let s1 := s.setFld (R.OPT_LASER_STATUS.STATE b 4) 3
      .next (s1.openDark b n (s1.darkTick (s1.tick + s1.fld R.OPT_LASER_CTL.NOTICE_TICKS))) := by
  simp only [execSpareSourceReady, hspare, hstate, ne_eq, not_true_eq_false, if_false, Bool.false_eq_true]

/-- A bank's spare is shown as retired, and warms for no engine. -/
def State.spareRetired (s : State) (b : Nat) : State :=
  let s := (s.setFld (R.OPT_LASER_STATUS.STATE b 4) 4).optEvent R.OPT_EVENTS.SPARE_NONE
  s.setOpt { s.opt with spare := FMap.del s.opt.spare b }

theorem execSpareWarmTimeout_late (hspare : FMap.find s.opt.spare b = some (n, t, false)) (hlate : t + 2 ^ 18 ≤ s.tick) :
    execSpareWarmTimeout b s = .next ((s.spareRetired b).journal itLASER b ((s.spareRetired b).laserMap b)) := by
  simp only [execSpareWarmTimeout, hspare, hstate, ne_eq, not_true_eq_false, Nat.not_lt.mpr hlate, or_self, if_false,
    Bool.false_eq_true]
  rfl

omit hstate in
theorem State.spareRetired_shown (s : State) (b : Fin 4) : (s.spareRetired b).fld (R.OPT_LASER_STATUS.STATE b 4) = 4
    ∧ (s.spareRetired b).flag R.OPT_EVENTS.SPARE_NONE = true ∧ (s.spareRetired b).opt.spare = FMap.del s.opt.spare b
    ∧ SameMemory s (s.spareRetired b) := by
  refine ⟨?_, ?_, ?_, (s.setFld _ 4).keepsLines_event _ 3 |>.byte⟩
  · rw [State.spareRetired, State.fld_setOpt, State.optEvent, State.fld_event_ne _ (by decide), State.fld_setFld_same] <;>
      simp only [R.OPT_LASER_STATUS.STATE, R.OPT_LASER_STATUS.adr, R.OPT_EVENTS.SPARE_NONE, R.OPT_EVENTS.adr,
        R.REL_ALERT_CAUSE.adr] <;> omega
  · exact State.flag_event _ (by decide) (by decide) rfl (by decide)
  · rw [State.spareRetired, State.setOpt, State.optEvent, State.opt_event]
    rfl

end

/-! Notices (R276, R277). -/

theorem State.setOpt_self {s : State} {x : OptState} (h : x = s.opt) : s.setOpt x = s := by rw [h]; rfl

theorem execDarkNotice_unidentified {p : Packet} {s : State} (hop : p.op = opMGMT) (htype : p.payload.toNat % 256 = 0x21)
    (hintact : s.intact p = true) (hchans : (s.takeLocal p).swc.chans = []) :
    execDarkNotice p s = .next ((s.takeLocal p).sendPacket ((s.takeLocal p).mgmtPacket p.src.toNat
      (darkPayload 0x22 (getBits p.payload.toNat 8 8) (getBits p.payload.toNat 16 16) (getBits p.payload.toNat 32 32)
        (getBits p.payload.toNat 64 64)))) := by
  have hchan (c : Nat) : ((s.takeLocal p).chan c).ident = none := by rw [State.chan, hchans]; rfl
  simp only [execDarkNotice, hop, htype, hintact, and_self, not_true_eq_false, Bool.not_true, Bool.false_eq_true, if_false, hchan,
    List.filter_false, List.map_nil, List.append_nil]
  rfl

theorem execDarkAck_answers {p : Packet} {s : State} {x : DarkWin} (hop : p.op = opMGMT)
    (htype : p.payload.toNat % 256 = 0x22) (hintact : s.intact p = true) (hwins : (s.takeLocal p).opt.wins = [x])
    (hnotices : x.notices = [(p.src.toNat, getBits p.payload.toNat 32 32, false)]) :
    execDarkAck p s = .next ((s.takeLocal p).setOpt { (s.takeLocal p).opt with
      wins := [{ x with notices := [(p.src.toNat, getBits p.payload.toNat 32 32, true)] }] }) := by
  simp only [execDarkAck, hop, htype, hintact, and_self, not_true_eq_false, Bool.not_true, Bool.false_eq_true, if_false, hwins,
    List.map_cons, List.map_nil, hnotices, beq_self_eq_true, Bool.and_self, if_true]

/-! Windows (R152, R276 to R278). -/

theorem execDarkAckDeadline_one {s : State} {x : DarkWin} (hwins : s.opt.wins = [x]) (hopen : x.confirmed = false)
    (hdue : x.tick ≤ s.tick + 16) : execDarkAckDeadline s =
      .next (if x.notices.all (·.2.2) then s.setOpt { s.opt with wins := [{ x with confirmed := true }] } else s.moveDark x) := by
  simp only [execDarkAckDeadline, hwins, hopen, hdue, decide_true, Bool.not_false, Bool.and_self, List.filter_cons_of_pos,
    List.filter_nil, List.foldl_cons, List.foldl_nil, List.map_cons, List.map_nil, if_true]

theorem execDarkWindow_peer {s : State} {c : Nat} (hwins : s.opt.wins = []) (hpeer : s.opt.peerDark = [(c, s.tick)]) :
    execDarkWindow s = .next (s.goDark c) := by
  simp only [execDarkWindow, hwins, hpeer, List.filter_nil, List.foldl_nil, beq_self_eq_true, List.filter_cons_of_pos,
    List.foldl_cons]

/-- A channel whose line does not work does not go DARK. -/
theorem State.goDark_of_down {s : State} {c : Nat} (h : s.chUp c = false) : s.goDark c = s := by
  rw [State.goDark, h, if_neg Bool.false_ne_true]

/-- A dark window of this module begins: the engine's channels go DARK and the spare goes in (R254, R276). -/
def State.beginWindow (s : State) (x : DarkWin) : State :=
  let s := s.setOpt { s.opt with wins := s.opt.wins.map fun y => if y = x then { x with begun := true } else y }
  let s := (upFrom (16 * x.engine) 16).foldl (fun s c => s.goDark c) s
  s.insertSpare x.bank x.engine

theorem execDarkWindow_eq (s : State) : execDarkWindow s =
    let t := (s.opt.wins.filter fun x => x.confirmed && !x.begun && x.tick == s.tick).foldl State.beginWindow s
    .next ((t.opt.peerDark.filter fun e => e.2 == t.tick).foldl (fun s e => s.goDark e.1) t) := rfl

theorem State.beginWindow_down {s : State} {x : DarkWin} (hwins : s.opt.wins = [x])
    (hdown : ∀ c < 16, s.chUp (16 * x.engine + c) = false) :
    s.beginWindow x = (s.setOpt { s.opt with wins := [{ x with begun := true }] }).insertSpare x.bank x.engine := by
  have hdark : (upFrom (16 * x.engine) 16).foldl (fun s c => s.goDark c) (s.setOpt { s.opt with wins := [{ x with begun := true }] })
      = s.setOpt { s.opt with wins := [{ x with begun := true }] } := by
    refine foldl_upFrom_of_fixed 16 _ fun c hlo hhi => State.goDark_of_down ?_
    rw [← Nat.add_sub_cancel' hlo]
    exact hdown _ (by omega)
  simp only [State.beginWindow, hwins, List.map_cons, List.map_nil, if_true, hdark]

theorem execDarkWindow_own {s : State} {x : DarkWin} (hwins : s.opt.wins = [x]) (hconfirmed : x.confirmed = true)
    (hbegun : x.begun = false) (hdue : x.tick = s.tick) (hpeer : s.opt.peerDark = [])
    (hdown : ∀ c < 16, s.chUp (16 * x.engine + c) = false) : execDarkWindow s =
      .next ((s.setOpt { s.opt with wins := [{ x with begun := true }] }).insertSpare x.bank x.engine) := by
  have hfilter : (s.opt.wins.filter fun x => x.confirmed && !x.begun && x.tick == s.tick) = [x] := by
    rw [hwins, List.filter_cons_of_pos (by simp [hconfirmed, hbegun, hdue]), List.filter_nil]
  have hnone : (s.beginWindow x).opt.peerDark = [] := by
    rw [State.beginWindow_down hwins hdown, State.peerDark_insertSpare]
    exact hpeer
  rw [execDarkWindow_eq, hfilter, ← State.beginWindow_down hwins hdown]
  dsimp only [List.foldl_cons, List.foldl_nil]
  rw [hnone, List.filter_nil, List.foldl_nil]

theorem execDarkWindowEnd_peer {s : State} {c : Nat} (hwins : s.opt.wins = []) (hpeer : s.opt.peerDark = [(c, s.tick - 2)])
    (htick : 2 ≤ s.tick) : execDarkWindowEnd s = .next ((s.setOpt { s.opt with peerDark := [] }).endDark c) := by
  have hpast : s.tick - 2 + 2 ≤ s.tick := by omega
  have hwins' : s.setOpt { s.opt with wins := [] } = s := State.setOpt_self (by rw [← hwins])
  dsimp only at hwins'
  simp only [execDarkWindowEnd, hwins, List.filter_nil, List.foldl_nil, hwins']
  simp only [hpeer, hpast, decide_true, List.filter_cons_of_pos, Bool.not_true, Bool.false_eq_true, not_false_eq_true,
    List.filter_cons_of_neg, List.filter_nil, List.foldl_cons, List.foldl_nil]

/-- Settles O43: each command is the one branch of it that the statement's case selects (log entry 29). -/
theorem lasersAndDarkWindows : Obligations.LasersAndDarkWindows := by
  refine ⟨fun b k power s haway hstate hmonitored hbright =>
      ⟨_, execLaserPowerWindow_bright haway hstate hmonitored hbright, s.notePower_shown b k power⟩,
    fun b s n t hspare hstate => execSpareSourceReady_inserts hstate hspare,
    fun b s n t hspare hstate => ⟨execSpareSourceReady_opens hstate hspare, fun hlate => ?late⟩,
    fun p s hop htype hintact hchans => execDarkNotice_unidentified hop htype hintact hchans,
    fun p s x id hop htype hintact hid hwins hnotices => ?ack, fun s x hwins hopen hdue => ⟨fun hall => ?confirmed, fun hall => ?moved⟩,
    fun s c hwins hpeer => execDarkWindow_peer hwins hpeer,
    fun s x hwins hconfirmed hbegun hdue hpeer hdown => execDarkWindow_own hwins hconfirmed hbegun hdue hpeer hdown,
    fun s c hwins hpeer htick => execDarkWindowEnd_peer hwins hpeer htick⟩
  case late =>
    obtain ⟨mgt, hjournal⟩ := (s.spareRetired b).journal_frame itLASER b ((s.spareRetired b).laserMap b)
    refine ⟨_, execSpareWarmTimeout_late hstate hspare hlate, ?_⟩
    rw [hjournal]
    exact s.spareRetired_shown b
  case ack =>
    subst hid
    refine ⟨_, execDarkAck_answers hop htype hintact hwins hnotices, rfl, fun a => ?_⟩
    rw [State.takeLocal_frame]
    rfl
  case confirmed => rw [exec_darkAckDeadline, execDarkAckDeadline_one hwins hopen hdue, if_pos hall]
  case moved => rw [exec_darkAckDeadline, execDarkAckDeadline_one hwins hopen hdue, if_neg (by rw [hall]; exact Bool.false_ne_true)]

end Sys2Proof.Machine
end

section
/-! ## Margin tests, lane tests and injections on lightlanes (R271, R273, R274, R298, R299) -/

namespace Sys2Proof.Machine

open Sys2Proof

/-! Counter sources (R298). -/

/-- The bit of OPT_CNT_SRC of a lightlane. -/
abbrev lightSrcBit (c : Nat) : Field := ⟨R.OPT_CNT_SRC.adr (c / 64), c % 64, 1⟩

/-- The four counters of a lightlane are cleared. -/
def State.clearLightCounters (s : State) (c : Nat) : State := (upFrom 0 4).foldl (fun s k => s.setFld (R.OPT_LANE_CNT.CNT c k) 0) s

theorem lightSrcBit_fits (c : Nat) : (lightSrcBit c).lo + (lightSrcBit c).w ≤ 64 := by simp only; omega

theorem State.fld_clearLightCounters_ne (s : State) (c : Nat) {g : Field} (h : g.off < R.OPT_LANE_CNT.adr 0 0) :
    (s.clearLightCounters c).fld g = s.fld g := by
  have hoff (k : Nat) : g.off ≠ (R.OPT_LANE_CNT.CNT c k).off := by
    simp only [R.OPT_LANE_CNT.adr] at h
    simp only [R.OPT_LANE_CNT.CNT, R.OPT_LANE_CNT.adr]
    omega
  simp only [State.clearLightCounters, upFrom, List.foldl]
  iterate 4 rw [State.fld_setFld_ne _ _ (hoff _)]

theorem State.fld_clearLightCounters_cnt (s : State) (c : Nat) {k : Nat} (h : k < 4) :
    (s.clearLightCounters c).fld (R.OPT_LANE_CNT.CNT c k) = 0 := by
  have hset (t : State) (j : Nat) : (t.setFld (R.OPT_LANE_CNT.CNT c j) 0).fld (R.OPT_LANE_CNT.CNT c k) =
      if k = j then 0 else t.fld (R.OPT_LANE_CNT.CNT c k) := by
    split
    next hj => rw [hj, State.fld_setFld_same _ _ _ (by simp [R.OPT_LANE_CNT.CNT]), Nat.zero_mod]
    next hj =>
      refine State.fld_setFld_ne _ _ ?_
      simp only [R.OPT_LANE_CNT.CNT, R.OPT_LANE_CNT.adr]
      omega
  simp only [State.clearLightCounters, upFrom, List.foldl, hset]
  interval_cases k <;> rfl

/-- A source that stands as asked for stays. -/
theorem State.setSource_same {s : State} {c : Nat} {src : Bool} (h : s.flag (lightSrcBit c) = src) : s.setSource c src = s := by
  rw [State.setSource, if_pos (by simpa using h)]

/-- A source that changes is set, and the lightlane's counters are cleared. -/
theorem State.setSource_change {s : State} {c : Nat} {src : Bool} (h : s.flag (lightSrcBit c) ≠ src) :
    s.setSource c src = (s.clearLightCounters c).setFld (lightSrcBit c) (b2n src) := by
  rw [State.setSource, if_neg (by simpa using h)]
  rfl

/-- A source changes registers only: the counters and its own bit. -/
theorem State.setSource_frame (s : State) (c : Nat) (src : Bool) : s.setSource c src = { s with regs := (s.setSource c src).regs }
    ∧ ∀ g : Field, g.off < R.OPT_LANE_CNT.adr 0 0 → g.off ≠ R.OPT_CNT_SRC.adr (c / 64) → (s.setSource c src).fld g = s.fld g := by
  by_cases h : s.flag (lightSrcBit c) = src
  · rw [State.setSource_same h]
    exact ⟨rfl, fun _ _ _ => rfl⟩
  · rw [State.setSource_change h]
    exact ⟨rfl, fun g hcnt hsrc => (State.fld_setFld_ne _ _ hsrc).trans (s.fld_clearLightCounters_ne c hcnt)⟩

/-! OPT_CNT_SRC (R271, R298). -/

/-- What a write of OPT_CNT_SRC[k] does to the lightlane of its bit `i`. -/
def State.writeLightSrc (k : Nat) (v : Word) (s : State) (i : Nat) : State :=
  let c := 64 * k + i
  if s.flag ⟨R.OPT_CNT_SRC.adr k, i, 1⟩ == v.getLsbD i then s
  else if (s.lane c).test = 0 ∧ s.flag (R.OPT_LANE_TEST.TEST c) then s.setSource c (v.getLsbD i)
  else s.optEvent R.OPT_EVENTS.CMD_DENY

theorem execOptCntSrcWrite_seen {via : Via} {k : Fin 4} {s : State} (hsees : s.sees via (R.OPT_CNT_SRC.adr k) true = true) (v : Word) :
    execOptCntSrcWrite via k v s = .next ((upFrom 0 64).foldl (State.writeLightSrc k v) s) := by
  rw [execOptCntSrcWrite, State.gate_seen hsees]
  rfl

theorem State.writeLightSrc_same {k : Nat} {v : Word} {s : State} {i : Nat}
    (h : s.flag ⟨R.OPT_CNT_SRC.adr k, i, 1⟩ = v.getLsbD i) : s.writeLightSrc k v i = s := by
  rw [State.writeLightSrc, if_pos (beq_iff_eq.mpr h)]

theorem State.flag_bit (s : State) (o i : Nat) : s.flag ⟨o, i, 1⟩ = (s.reg o).getLsbD i := by
  rw [getLsbD_eq_getBits]
  have hlt : getBits (s.reg o).toNat i 1 < 2 := getBits_lt ..
  have hbit : getBits (s.reg o).toNat i 1 = 0 ∨ getBits (s.reg o).toNat i 1 = 1 := by omega
  rcases hbit with h | h <;> simp only [State.flag, State.fld, h] <;> rfl

section
variable {via : Via} {c : LaneNo} {k : Fin 4} {s : State} (hsees : s.sees via (R.OPT_CNT_SRC.adr k) true = true)
  (hreg : s.reg (R.OPT_CNT_SRC.adr k) = 0) (htest : (s.lane c).test = 0) (hflag : s.flag (R.OPT_LANE_TEST.TEST c) = true)
  (hk : k.val = c / 64)
include hsees hreg htest hflag hk

/-- One lightlane in test is written to a clear OPT_CNT_SRC: its source changes. -/
theorem execOptCntSrcWrite_one :
    execOptCntSrcWrite via k (BitVec.ofNat 64 (2 ^ (c.val % 64))) s = .next (s.setSource c true) := by
  have hbit (i : Nat) : (BitVec.ofNat 64 (2 ^ (c.val % 64))).getLsbD i = decide (i = c.val % 64) := by
    rw [BitVec.getLsbD_ofNat, Nat.testBit_two_pow]
    by_cases h : i = c.val % 64
    · simp only [h, decide_true, Bool.and_true, decide_eq_true_eq]; omega
    · simp [h, Ne.symm h]
  have hzero (i : Nat) : s.flag ⟨R.OPT_CNT_SRC.adr k, i, 1⟩ = false := by rw [State.flag_bit, hreg]; simp
  have hlane : 64 * k.val + c.val % 64 = c.val := by omega
  have hchange : s.flag (lightSrcBit c) ≠ true := by
    rw [lightSrcBit, ← hk, hzero]
    exact Bool.false_ne_true
  have hkeeps (i : Nat) (hi : i ≠ c.val % 64) : (s.setSource c true).flag ⟨R.OPT_CNT_SRC.adr k, i, 1⟩ = false := by
    have hlow : R.OPT_CNT_SRC.adr k < R.OPT_LANE_CNT.adr 0 0 := by simp only [R.OPT_CNT_SRC.adr, R.OPT_LANE_CNT.adr]; omega
    rw [State.setSource_change hchange, State.flag, State.fld_setFld_apart _ _ _ _ (lightSrcBit_fits c) (by simp only; omega),
      State.fld_clearLightCounters_ne _ _ hlow]
    exact hzero i
  rw [execOptCntSrcWrite_seen hsees]
  congr 1
  refine foldl_upFrom_single (l := c.val % 64) (fun i hi => ?_) ?_ (fun i hi => ?_) 64 0 (Nat.zero_le _) (by omega)
  · exact State.writeLightSrc_same (by rw [hzero, hbit, decide_eq_false hi])
  · rw [State.writeLightSrc, hlane, hzero, hbit, decide_eq_true rfl, if_neg (by decide), if_pos ⟨htest, hflag⟩]
  · exact State.writeLightSrc_same (by rw [hkeeps i hi, hbit, decide_eq_false hi])

omit hsees htest hflag in
theorem State.setSource_shown : (s.setSource c true).flag ⟨R.OPT_CNT_SRC.adr k, c.val % 64, 1⟩ = true
    ∧ (∀ j < 4, (s.setSource c true).fld (R.OPT_LANE_CNT.CNT c j) = 0) ∧ SameMemory s (s.setSource c true) := by
  have hchange : s.flag (lightSrcBit c) ≠ true := by
    rw [lightSrcBit, ← hk, State.flag_bit, hreg]
    simp
  rw [State.setSource_change hchange, hk]
  refine ⟨?_, fun j hj => ?_, fun _ => rfl⟩
  · rw [State.flag, State.fld_setFld_same _ _ _ (lightSrcBit_fits c)]
    rfl
  · rw [State.fld_setFld_ne, State.fld_clearLightCounters_cnt _ _ hj]
    simp only [R.OPT_LANE_CNT.CNT, R.OPT_LANE_CNT.adr, R.OPT_CNT_SRC.adr]
    omega

end

/-! OPT_LANE_TEST (R271). -/

/-- A lightlane's test control with TEST alone set. -/
def State.setLightTest (s : State) (c : Nat) : State :=
  (((s.setFld (R.OPT_LANE_TEST.GEN_EN c) 0).setFld (R.OPT_LANE_TEST.CHK_EN c) 0).setFld (R.OPT_LANE_TEST.CHK_LOCK c) 0).setFld
    (R.OPT_LANE_TEST.TEST c) 1

/-- Writing TEST alone to a clear OPT_LANE_TEST begins to take the lightlane out of its link. -/
theorem execOptLaneTestWrite_enter {via : Via} {c : LaneNo} {v : Word} {s : State}
    (hsees : s.sees via (R.OPT_LANE_TEST.adr c) true = true) (hreg : s.reg (R.OPT_LANE_TEST.adr c) = 0) (hv : v.toNat % 32 = 1)
    (htest : (s.lane c).test = 0) : execOptLaneTestWrite via c v s = .next ((s.setLightTest c).beginLeave c 2) := by
  have hpattern : getBits v.toNat 1 2 = s.fld (R.OPT_LANE_TEST.PATTERN c) := by
    rw [State.fld_of_reg_eq_zero hreg, getBits]; omega
  have hgen : getBits v.toNat 3 1 = 0 := by rw [getBits]; omega
  have hchk : getBits v.toNat 4 1 = 0 := by rw [getBits]; omega
  have hbit4 : bitOf v.toNat 4 = false := by simp only [bitOf, beq_eq_false_iff_ne]; omega
  have hbit0 : bitOf v.toNat 0 = true := by simp only [bitOf, beq_iff_eq]; omega
  have htest1 : v.toNat % 2 = 1 := by omega
  have hwas : (((s.setFld (R.OPT_LANE_TEST.GEN_EN c) 0).setFld (R.OPT_LANE_TEST.CHK_EN c) 0).setFld
      (R.OPT_LANE_TEST.CHK_LOCK c) 0).flag (R.OPT_LANE_TEST.TEST c) = false := by
    have h0 : s.fld (R.OPT_LANE_TEST.TEST c) = 0 := State.fld_of_reg_eq_zero hreg
    rw [State.flag, State.fld_setFld_apart, State.fld_setFld_apart, State.fld_setFld_apart, h0] <;>
      simp [R.OPT_LANE_TEST.TEST, R.OPT_LANE_TEST.GEN_EN, R.OPT_LANE_TEST.CHK_EN, R.OPT_LANE_TEST.CHK_LOCK]
  have htest' : ¬ ((s.setLightTest c).lane c).test ≠ 0 := not_not_intro htest
  rw [execOptLaneTestWrite, State.gate_seen hsees]
  simp only [if_pos hpattern, hgen, hchk, hbit4, hbit0, htest1, hwas, Bool.false_eq_true, if_false, not_false_eq_true, and_self,
    if_true]
  exact congrArg Host.Outcome.next (if_neg htest')

theorem State.flag_test_setLightTest (s : State) (c : Nat) : (s.setLightTest c).flag (R.OPT_LANE_TEST.TEST c) = true := by
  rw [State.flag, State.setLightTest, State.fld_setFld_same _ _ _ (by simp [R.OPT_LANE_TEST.TEST])]
  rfl

/-! Margin tests (R273, R274). -/

theorem execMarginTestGo_seen {via : Via} {s : State} (hsees : s.sees via R.OPT_MARGIN_CMD.adr true = true)
    (engines lanes start : BitVec 16) : execMarginTestGo via engines lanes start s =
      .next (if s.marginRuns then s.optEvent R.OPT_EVENTS.CMD_DENY else s.setOpt { s.opt with margin := some {
        lanes := (upFrom 0 256).filter fun c => engines.getLsbD (c / 16) && lanes.getLsbD (c % 16)
        start := start.toNat, asked := s.tick } }) := by
  rw [execMarginTestGo, State.gate_seen hsees]

theorem execMarginTestStart_due {s : State} {m : Margin} (hmargin : s.opt.margin = some m) (hbegun : m.begun = none)
    (hasked : m.asked < s.tick) (hstart : s.tick % 2 ^ 16 = m.start) : execMarginTestStart s =
      .next (m.lanes.foldl (fun s c => if lwEn (s.laneWord c) then s.marginLane c else s)
        (s.setOpt { s.opt with margin := some { m with begun := some s.tick } })) := by
  simp only [execMarginTestStart, hmargin, hbegun, hstart, Option.isSome_none, Bool.false_eq_true, ne_eq, not_true_eq_false,
    Nat.not_le.mpr hasked, or_self, if_false]

theorem execMarginTestDone_idle {c : LaneNo} {s : State} (htest : (s.lane c).test ≠ 1) (m : Option (BitVec 16 × BitVec 8 × BitVec 16)) :
    execMarginTestDone c m s = .next s := by
  simp only [execMarginTestDone, htest, ne_eq, not_false_eq_true, true_or, if_true]

/-- A lightlane's measured values are shown (R273). -/
def State.showMargin (s : State) (c : Nat) (rx : BitVec 16) (ser : BitVec 8) (det : BitVec 16) : State :=
  ((s.setFld (R.OPT_MARGIN.RXPWR c) rx.toNat).setFld (R.OPT_MARGIN.SER_E c) ser.toNat).setFld (R.OPT_MARGIN.DETUNE c) det.toNat

theorem State.fld_showMargin_ne (s : State) (c : Nat) (rx : BitVec 16) (ser : BitVec 8) (det : BitVec 16) {g : Field}
    (h : g.off ≠ R.OPT_MARGIN.adr c) : (s.showMargin c rx ser det).fld g = s.fld g :=
  (State.fld_setFld_ne _ _ h).trans <| (State.fld_setFld_ne _ _ h).trans (State.fld_setFld_ne _ _ h)

/-- The verdict reads the base and the limits, which showing the values leaves. -/
theorem State.verdict_showMargin (s : State) (c : LaneNo) (rx : BitVec 16) (ser : BitVec 8) (det : BitVec 16) :
    (s.showMargin c rx ser det).verdict c rx ser det = s.verdict c rx ser det := by
  have hbase (f : Field) (hf : f.off = R.OPT_BASE.adr c) : (s.showMargin c rx ser det).fld f = s.fld f :=
    s.fld_showMargin_ne c rx ser det (by rw [hf]; simp only [R.OPT_BASE.adr, R.OPT_MARGIN.adr]; omega)
  have hctl (f : Field) (hf : f.off = R.OPT_MARGIN_CTL.adr) : (s.showMargin c rx ser det).fld f = s.fld f :=
    s.fld_showMargin_ne c rx ser det (by rw [hf]; simp only [R.OPT_MARGIN_CTL.adr, R.OPT_MARGIN.adr]; omega)
  unfold State.verdict State.flag
  rw [hbase (R.OPT_BASE.VALID c) rfl, hbase (R.OPT_BASE.RXPWR c) rfl, hbase (R.OPT_BASE.SER_E c) rfl, hbase (R.OPT_BASE.DETUNE c) rfl,
    hctl R.OPT_MARGIN_CTL.SER_FAIL rfl, hctl R.OPT_MARGIN_CTL.FAIL_DB rfl, hctl R.OPT_MARGIN_CTL.WARN_DB rfl]

/-- A verdict of PASS is shown, and the equaliser's settings are held (R270, R273). -/
def State.passVerdict (s : State) (c : Nat) : State :=
  ((s.setFld (R.OPT_MARGIN.VERDICT c) 1).setLane c { s.lane c with test := 2 }).adapted c

theorem State.fld_passVerdict (s : State) (c : Nat) (g : Field) :
    (s.passVerdict c).fld g = (s.setFld (R.OPT_MARGIN.VERDICT c) 1).fld g := rfl

/-- A lightlane in OFF has passed its margin test, which is over (R271, R273). -/
def State.marginPassed (s : State) (c : Nat) : State :=
  let t := (s.passVerdict c).setSource c false
  t.setLane c { t.lane c with test := 0 }

theorem State.fld_marginPassed (s : State) (c : LaneNo) {g : Field} (hlow : g.off < R.OPT_LANE_CNT.adr 0 0)
    (hsrc : g.off ≠ R.OPT_CNT_SRC.adr (c / 64)) : (s.marginPassed c).fld g = (s.setFld (R.OPT_MARGIN.VERDICT c) 1).fld g :=
  ((s.passVerdict c).setSource_frame c false).2 g hlow hsrc

theorem State.giveVerdict_passed {s : State} {c : LaneNo} (hoff : s.laneState c = lsOFF)
    (hcruise : s.cru.on = false ∨ s.fld R.GLB_CRUISE_STATUS.PHASE ≠ 3) : s.giveVerdict c 1 = s.marginPassed c := by
  have hphase : (s.passVerdict c).fld R.GLB_CRUISE_STATUS.PHASE = s.fld R.GLB_CRUISE_STATUS.PHASE := by
    rw [State.fld_passVerdict, State.fld_setFld_ne]
    simp only [R.GLB_CRUISE_STATUS.PHASE, R.GLB_CRUISE_STATUS.adr, R.OPT_MARGIN.VERDICT, R.OPT_MARGIN.adr]
    omega
  have hnotC3 : ¬ ((s.passVerdict c).cru.on = true ∧ (s.passVerdict c).fld R.GLB_CRUISE_STATUS.PHASE = 3) := by
    rw [hphase]
    rintro ⟨hon, hthree⟩
    rcases hcruise with h | h
    · exact Bool.false_ne_true (h.symm.trans hon)
    · exact h hthree
  have hstate : (s.marginPassed c).laneState c = lsOFF := by
    rw [State.laneState, State.fld_marginPassed, State.fld_setFld_ne]
    · exact hoff
    all_goals
      simp only [R.OPT_LANE_STATUS.STATE, R.OPT_LANE_STATUS.adr, R.OPT_MARGIN.VERDICT, R.OPT_MARGIN.adr, R.OPT_LANE_CNT.adr,
        R.OPT_CNT_SRC.adr]
      omega
  have hgive : s.giveVerdict c 1 = (s.passVerdict c).testOver c := if_neg hnotC3
  rw [hgive, State.testOver, State.endTest]
  exact if_pos (.inr (.inl hstate))

section
variable {c : LaneNo} {rx : BitVec 16} {ser : BitVec 8} {det : BitVec 16} {s : State}

theorem execMarginTestDone_passed (htest : (s.lane c).test = 1) (hmargin : s.opt.margin = none)
    (hacquiring : s.acquiring (c / 16) = false) (hverdict : s.verdict c rx ser det = 1) (hoff : s.laneState c = lsOFF)
    (hcruise : s.cru.on = false ∨ s.fld R.GLB_CRUISE_STATUS.PHASE ≠ 3) :
    execMarginTestDone c (some (rx, ser, det)) s = .next ((s.showMargin c rx ser det).marginPassed c) := by
  have hshown (f : Field) (h : f.off ≠ R.OPT_MARGIN.adr c) : (s.showMargin c rx ser det).fld f = s.fld f :=
    s.fld_showMargin_ne c rx ser det h
  have hgive : (s.showMargin c rx ser det).giveVerdict c ((s.showMargin c rx ser det).verdict c rx ser det)
      = (s.showMargin c rx ser det).marginPassed c := by
    rw [State.verdict_showMargin, hverdict]
    refine State.giveVerdict_passed ((hshown _ ?_).trans hoff) (hcruise.imp id fun h => ne_of_eq_of_ne (hshown _ ?_) h) <;>
      simp only [R.OPT_LANE_STATUS.STATE, R.OPT_LANE_STATUS.adr, R.OPT_MARGIN.adr, R.GLB_CRUISE_STATUS.PHASE, R.GLB_CRUISE_STATUS.adr] <;>
      omega
  have hmargin' : ((s.showMargin c rx ser det).marginPassed c).opt.margin = none := by
    rw [State.marginPassed, ((State.passVerdict _ c).setSource_frame c false).1]
    exact hmargin
  unfold State.showMargin at hgive hmargin'
  simp only [execMarginTestDone, htest, hacquiring, adcShares, hgive, hmargin', ne_eq, not_true_eq_false, Bool.false_eq_true,
    if_false, OfNat.ofNat_ne_zero, reduceCtorEq, false_and, or_self]
  rfl

theorem State.marginPassed_shown : ((s.showMargin c rx ser det).marginPassed c).fld (R.OPT_MARGIN.VERDICT c) = 1
    ∧ ((s.showMargin c rx ser det).marginPassed c).fld (R.OPT_MARGIN.RXPWR c) = rx.toNat
    ∧ ((s.showMargin c rx ser det).marginPassed c).fld (R.OPT_MARGIN.SER_E c) = ser.toNat
    ∧ ((s.showMargin c rx ser det).marginPassed c).fld (R.OPT_MARGIN.DETUNE c) = det.toNat
    ∧ (((s.showMargin c rx ser det).marginPassed c).lane c).test = 0
    ∧ SameMemory s ((s.showMargin c rx ser det).marginPassed c) := by
  have hfld (g : Field) (hg : g.off = R.OPT_MARGIN.adr c) : ((s.showMargin c rx ser det).marginPassed c).fld g
      = ((s.showMargin c rx ser det).setFld (R.OPT_MARGIN.VERDICT c) 1).fld g := by
    refine State.fld_marginPassed _ c ?_ ?_ <;> rw [hg] <;>
      simp only [R.OPT_MARGIN.adr, R.OPT_LANE_CNT.adr, R.OPT_CNT_SRC.adr] <;> omega
  refine ⟨?_, ?_, ?_, ?_, congrArg OptLane.test (State.lane_setLane_same ..), fun a => ?_⟩
  · rw [hfld _ rfl, State.fld_setFld_same _ _ _ (by simp [R.OPT_MARGIN.VERDICT])]
    rfl
  · rw [hfld _ rfl, State.showMargin, State.fld_setFld_apart, State.fld_setFld_apart, State.fld_setFld_apart, State.fld_setFld_same]
    · exact Nat.mod_eq_of_lt rx.isLt
    all_goals simp [R.OPT_MARGIN.VERDICT, R.OPT_MARGIN.DETUNE, R.OPT_MARGIN.SER_E, R.OPT_MARGIN.RXPWR]
  · rw [hfld _ rfl, State.showMargin, State.fld_setFld_apart, State.fld_setFld_apart, State.fld_setFld_same]
    · exact Nat.mod_eq_of_lt ser.isLt
    all_goals simp [R.OPT_MARGIN.VERDICT, R.OPT_MARGIN.DETUNE, R.OPT_MARGIN.SER_E]
  · rw [hfld _ rfl, State.showMargin, State.fld_setFld_apart, State.fld_setFld_same]
    · exact Nat.mod_eq_of_lt det.isLt
    all_goals simp [R.OPT_MARGIN.VERDICT, R.OPT_MARGIN.DETUNE]
  · rw [State.marginPassed, ((State.passVerdict _ c).setSource_frame c false).1]
    rfl

end

/-! OPT_MARGIN_CMD.COMMIT (R273). -/

/-- What holds after the step at `c` of an ascending run, and is kept by the steps that follow. -/
theorem foldl_upFrom_at {α : Type} {step : α → Nat → α} {P Q : α → Prop} {c : Nat}
    (hbefore : ∀ t k, k < c → Q t → Q (step t k)) (hat : ∀ t, Q t → P (step t c)) :
    ∀ (n lo : Nat) (s : α), (∀ t k, c < k → k < lo + n → P t → P (step t k)) → lo ≤ c → c < lo + n → Q s →
      P ((upFrom lo n).foldl step s)
  | 0, lo, s, _, hlo, hhi, _ => by omega
  | n + 1, lo, s, hafter, hlo, hhi, hs => by
    rw [upFrom, List.foldl_cons]
    by_cases h : lo = c
    · subst h
      exact List.foldlRecOn _ _ (hat s hs) fun t ht k hk =>
        hafter t k (mem_upFrom _ _ k hk).1 (by have := (mem_upFrom _ _ k hk).2; omega) ht
    · exact foldl_upFrom_at hbefore hat n (lo + 1) _ (fun t k hc hk => hafter t k hc (by omega)) (by omega) (by omega)
        (hbefore s lo (by omega) hs)

/-- The values measured on a lightlane become its base. -/
def State.takeBase (s : State) (c : Nat) : State :=
  let s := (s.setFld (R.OPT_BASE.RXPWR c) (s.fld (R.OPT_MARGIN.RXPWR c))).setFld (R.OPT_BASE.SER_E c) (s.fld (R.OPT_MARGIN.SER_E c))
  (s.setFld (R.OPT_BASE.DETUNE c) (s.fld (R.OPT_MARGIN.DETUNE c))).setFld (R.OPT_BASE.VALID c) 1

/-- What a COMMIT does to a lightlane. -/
def State.commitBase (s : State) (c : Nat) : State :=
  let v := s.fld (R.OPT_MARGIN.VERDICT c)
  if v = 1 ∨ v = 2 ∨ (¬ s.flag (R.OPT_BASE.VALID c) ∧ s.fld R.OPT_MARGIN_CTL.SER_FAIL ≤ s.fld (R.OPT_MARGIN.SER_E c)) then
    (s.takeBase c).journal itBASE c ((s.takeBase c).reg (R.OPT_BASE.adr c)).toNat
  else s

theorem execMarginCommit_seen {via : Via} {s : State} (hsees : s.sees via R.OPT_MARGIN_CMD.adr true = true) :
    execMarginCommit via s = .next ((upFrom 0 256).foldl State.commitBase s) := by
  rw [execMarginCommit, State.gate_seen hsees]
  rfl

theorem State.fld_takeBase_ne (s : State) {c : Nat} {g : Field} (h : g.off ≠ R.OPT_BASE.adr c) : (s.takeBase c).fld g = s.fld g :=
  (State.fld_setFld_ne _ _ h).trans <| (State.fld_setFld_ne _ _ h).trans <| (State.fld_setFld_ne _ _ h).trans (s.fld_setFld_ne _ h)

/-- A lightlane's base shows the values last measured. -/
def State.HasBase (s : State) (c : Nat) : Prop :=
  s.fld (R.OPT_BASE.RXPWR c) = s.fld (R.OPT_MARGIN.RXPWR c) ∧ s.fld (R.OPT_BASE.SER_E c) = s.fld (R.OPT_MARGIN.SER_E c)
    ∧ s.fld (R.OPT_BASE.DETUNE c) = s.fld (R.OPT_MARGIN.DETUNE c) ∧ s.flag (R.OPT_BASE.VALID c) = true

theorem State.hasBase_takeBase (s : State) (c : LaneNo) : (s.takeBase c).HasBase c := by
  have hoff : R.OPT_MARGIN.adr c ≠ R.OPT_BASE.adr c := by simp only [R.OPT_MARGIN.adr, R.OPT_BASE.adr]; omega
  have hset (t : State) (f : Field) (hf : f.off = R.OPT_BASE.adr c) (v : Nat) (g : Field) (hg : g.off = R.OPT_MARGIN.adr c) :
      (t.setFld f v).fld g = t.fld g := t.fld_setFld_ne v (by rw [hf, hg]; exact hoff)
  have hmargin (g : Field) (hg : g.off = R.OPT_MARGIN.adr c) : (s.takeBase c).fld g = s.fld g :=
    s.fld_takeBase_ne (by rw [hg]; exact hoff)
  unfold State.HasBase
  rw [hmargin (R.OPT_MARGIN.RXPWR c) rfl, hmargin (R.OPT_MARGIN.SER_E c) rfl, hmargin (R.OPT_MARGIN.DETUNE c) rfl]
  refine ⟨?_, ?_, ?_, ?_⟩
  · rw [State.takeBase, State.fld_setFld_apart, State.fld_setFld_apart, State.fld_setFld_apart, State.fld_setFld_same]
    · exact Nat.mod_eq_of_lt (State.fld_lt s (R.OPT_MARGIN.RXPWR c))
    all_goals simp [R.OPT_BASE.VALID, R.OPT_BASE.DETUNE, R.OPT_BASE.SER_E, R.OPT_BASE.RXPWR]
  · rw [State.takeBase, State.fld_setFld_apart, State.fld_setFld_apart, State.fld_setFld_same]
    · exact Nat.mod_eq_of_lt (State.fld_lt s (R.OPT_MARGIN.SER_E c))
    all_goals simp [R.OPT_BASE.VALID, R.OPT_BASE.DETUNE, R.OPT_BASE.SER_E]
  · rw [State.takeBase, State.fld_setFld_apart, State.fld_setFld_same]
    · rw [hset _ _ rfl _ _ rfl, hset _ _ rfl _ _ rfl]
      exact Nat.mod_eq_of_lt (State.fld_lt s (R.OPT_MARGIN.DETUNE c))
    all_goals simp [R.OPT_BASE.VALID, R.OPT_BASE.DETUNE]
  · rw [State.flag, State.takeBase, State.fld_setFld_same _ _ _ (by simp [R.OPT_BASE.VALID])]
    rfl

/-- A COMMIT of a lightlane changes that lightlane's base and the journal. -/
theorem State.commitBase_frame (s : State) (c : Nat) :
    (∀ g : Field, g.off ≠ R.OPT_BASE.adr c → (s.commitBase c).fld g = s.fld g) ∧ SameMemory s (s.commitBase c) := by
  unfold State.commitBase
  dsimp only
  split
  · exact ⟨fun g hg => (State.fld_journal ..).trans (s.fld_takeBase_ne hg), fun a => State.byte_journal _ itBASE c _ a⟩
  · exact ⟨fun _ _ => rfl, fun _ => rfl⟩

theorem State.hasBase_commitBase {s : State} {c : LaneNo} (h : s.fld (R.OPT_MARGIN.VERDICT c) = 1) :
    (s.commitBase c).HasBase c := by
  have hbase := s.hasBase_takeBase c
  rw [State.commitBase, if_pos (.inl h)]
  simpa only [State.HasBase, State.flag, State.fld_journal] using hbase

/-- What a lightlane's margin test has left, and memory, stand in `t` as in `s`. -/
def KeepsMargin (c : Nat) (s t : State) : Prop :=
  (∀ g : Field, g.off = R.OPT_MARGIN.adr c → t.fld g = s.fld g) ∧ SameMemory s t

theorem State.keepsMargin_commitBase (c : LaneNo) {s t : State} {k : Nat} (hk : k < 256) (h : KeepsMargin c s t) :
    KeepsMargin c s (t.commitBase k) := by
  obtain ⟨hfld, hmem⟩ := h
  obtain ⟨hfld', hmem'⟩ := t.commitBase_frame k
  refine ⟨fun g hg => (hfld' g ?_).trans (hfld g hg), fun a => (hmem' a).trans (hmem a)⟩
  rw [hg]
  simp only [R.OPT_MARGIN.adr, R.OPT_BASE.adr]
  omega

/-- A COMMIT takes the values of a lightlane with verdict PASS as its base. -/
theorem State.hasBase_commit {s : State} {c : LaneNo} (h : s.fld (R.OPT_MARGIN.VERDICT c) = 1) :
    ((upFrom 0 256).foldl State.commitBase s).HasBase c ∧ KeepsMargin c s ((upFrom 0 256).foldl State.commitBase s) := by
  have hother {t : State} {k : Nat} (hk : k < 256) (hne : k ≠ c.val) (ht : t.HasBase c) : (t.commitBase k).HasBase c := by
    have hsame (g : Field) (hg : g.off = R.OPT_MARGIN.adr c ∨ g.off = R.OPT_BASE.adr c) : (t.commitBase k).fld g = t.fld g := by
      refine (t.commitBase_frame k).1 g ?_
      rcases hg with hg | hg <;> rw [hg] <;> simp only [R.OPT_MARGIN.adr, R.OPT_BASE.adr] <;> omega
    unfold State.HasBase State.flag at ht ⊢
    rwa [hsame (R.OPT_BASE.RXPWR c) (.inr rfl), hsame (R.OPT_BASE.SER_E c) (.inr rfl), hsame (R.OPT_BASE.DETUNE c) (.inr rfl),
      hsame (R.OPT_BASE.VALID c) (.inr rfl), hsame (R.OPT_MARGIN.RXPWR c) (.inl rfl), hsame (R.OPT_MARGIN.SER_E c) (.inl rfl),
      hsame (R.OPT_MARGIN.DETUNE c) (.inl rfl)]
  refine foldl_upFrom_at (step := State.commitBase) (P := fun t => t.HasBase c ∧ KeepsMargin c s t) (Q := KeepsMargin c s) (c := c.val)
    (fun t k hk ht => State.keepsMargin_commitBase c (by omega) ht) (fun t ht => ?_) 256 0 s
    (fun t k hc hk ht => ⟨hother (by omega) (by omega) ht.1, State.keepsMargin_commitBase c (by omega) ht.2⟩) (Nat.zero_le _)
    (by omega) ⟨fun _ _ => rfl, fun _ => rfl⟩
  exact ⟨State.hasBase_commitBase ((ht.1 _ rfl).trans h), State.keepsMargin_commitBase c c.isLt ht⟩

/-! Injections (R299). -/

section
variable {via : Via} {c : LaneNo} {kind : BitVec 2} {len : BitVec 8} {count interval : BitVec 16} {s : State}
  (hsees : s.sees via (R.OPT_INJECT.adr c) true = true)
include hsees

theorem execOptInjectGo_single (hnone : FMap.find s.elk.inject c = none)
    (hgood : goodInject kind.toNat len.toNat count.toNat interval.toNat = true) (hcount : count = 1) :
    execOptInjectGo via c kind len count interval s = .next (s.corrupt c kind.toNat len.toNat) := by
  rw [execOptInjectGo, State.gate_seen hsees, if_neg (by simp [hnone, hgood]), State.startInject, hcount]
  rfl

theorem execOptInjectGo_reserved (hbad : goodInject kind.toNat len.toNat count.toNat interval.toNat = false) :
    execOptInjectGo via c kind len count interval s = .next (s.optEvent R.OPT_EVENTS.CMD_DENY) := by
  rw [execOptInjectGo, State.gate_seen hsees, if_pos (by simp [hbad])]

end

/-- The next error of a lightlane's sequence, which is its last one or not. -/
theorem execInjectRepeat_light {key : Fin 304} {s : State} {x : Inject} (hfind : FMap.find s.elk.inject key = some x)
    (hdue : x.next ≤ s.tick) (hlight : key.val < 256) : execInjectRepeat key s =
      let s1 := s.corrupt key x.kind x.len
      .next (if x.left ≤ 1 then
        ({ s1 with elk := { s1.elk with inject := FMap.del s1.elk.inject key } }).setFld (R.OPT_INJECT.BUSY key) 0
      else { s1 with elk := { s1.elk with
        inject := s1.elk.inject.put key { x with left := x.left - 1, next := x.next + x.interval } } }) := by
  simp only [execInjectRepeat, hfind, Nat.not_le.mpr hlight, decide_false, Bool.false_and, Bool.false_eq_true, or_false,
    Nat.not_lt.mpr hdue, if_false, if_pos hlight]

/-- Settles O44: each command is the one branch of it that the statement's case selects; a COMMIT and a write of OPT_CNT_SRC act
lightlane by lightlane (log entries 54, 66 and 72). -/
theorem marginTests : Obligations.MarginTests := by
  refine ⟨fun via engines lanes start s hsees => ⟨fun hidle => ?go, fun hruns => ?deny⟩,
    fun s m hmargin hbegun hasked hstart => execMarginTestStart_due hmargin hbegun hasked hstart,
    fun c rx ser det s htest hmargin hacquiring hverdict hoff hcruise =>
      ⟨_, execMarginTestDone_passed htest hmargin hacquiring hverdict hoff hcruise, State.marginPassed_shown⟩,
    fun c s m htest => execMarginTestDone_idle htest m, fun via c s hsees hpass => ?commit,
    fun via c v s hsees hreg hv htest => ⟨s.setLightTest c, s.flag_test_setLightTest c, rfl, rfl, rfl,
      execOptLaneTestWrite_enter hsees hreg hv htest⟩,
    fun via k v s hsees hreg => ?unchanged,
    fun via c s hsees hreg htest hflag k hk => ?source,
    fun via c kind len count interval s hsees hnone =>
      ⟨fun hgood hcount => execOptInjectGo_single hsees hnone hgood hcount, fun hbad => execOptInjectGo_reserved hsees hbad⟩,
    fun key s x hfind hdue hlight => ⟨fun hmore => ?more, fun hlast => ?last⟩⟩
  case go => rw [exec_marginTestGo, execMarginTestGo_seen hsees, hidle]; rfl
  case deny => rw [exec_marginTestGo, execMarginTestGo_seen hsees, hruns]; rfl
  case commit =>
    obtain ⟨⟨hrx, hser, hdet, hvalid⟩, hfld, hmem⟩ := State.hasBase_commit hpass
    exact ⟨_, execMarginCommit_seen hsees, hrx.trans (hfld _ rfl), hser.trans (hfld _ rfl), hdet.trans (hfld _ rfl), hvalid, hmem⟩
  case unchanged =>
    rw [exec_optCntSrcWrite, execOptCntSrcWrite_seen hsees, foldl_upFrom_of_fixed 64 0 fun i _ _ =>
      State.writeLightSrc_same (by rw [State.flag_bit, hreg])]
  case source =>
    rw [← hk] at hsees hreg
    exact ⟨_, execOptCntSrcWrite_one hsees hreg htest hflag hk, State.setSource_shown hreg hk⟩
  case more => rw [exec_injectRepeat, execInjectRepeat_light hfind hdue hlight]; exact congrArg _ (if_neg (Nat.not_le.mpr hmore))
  case last => rw [exec_injectRepeat, execInjectRepeat_light hfind hdue hlight]; exact congrArg _ (if_pos hlast)

end Sys2Proof.Machine
end

section
/-! ## Cruise (R272, R291, R379, R380, R386 to R391) -/

namespace Sys2Proof.Machine

open Sys2Proof

/-! Phases (R386). -/

section
variable {s : State} {n : Nat} (hphase : s.inPhase n = true)
include hphase

theorem State.phase_of_inPhase : s.fld R.GLB_CRUISE_STATUS.PHASE = n := by
  simp only [State.inPhase, Bool.and_eq_true, beq_iff_eq] at hphase
  obtain ⟨⟨-, heq⟩, -⟩ := hphase
  exact heq

theorem State.phase_begins (start : State → State) (ended : State → Bool) (finish : State → State) (h : s.cru.begun = false) :
    s.phase n start ended finish = (start s).began := by
  rw [State.phase, if_neg (not_not_intro hphase), if_pos (by rw [h]; exact Bool.false_ne_true)]

theorem State.phase_ends (start : State → State) {ended : State → Bool} (finish : State → State) (h : s.cru.begun = true)
    (hended : ended s = true) : s.phase n start ended finish = (finish s).nextPhase := by
  rw [State.phase, if_neg (not_not_intro hphase), if_neg (not_not_intro h), if_pos hended]

theorem State.phase_waits (start : State → State) {ended : State → Bool} (finish : State → State) (h : s.cru.begun = true)
    (hended : ended s = false) : s.phase n start ended finish = s := by
  rw [State.phase, if_neg (not_not_intro hphase), if_neg (not_not_intro h), if_neg (by rw [hended]; exact Bool.false_ne_true)]

end

/-- The next phase begins: PHASE counts, and of the Cruise record the phase's beginning changes; C3 also notes that C4 begins. -/
theorem State.nextPhase_shown {s : State} {n : Nat} (hphase : s.fld R.GLB_CRUISE_STATUS.PHASE = n) (hlow : n < 8) (hne : n ≠ 3) :
    s.nextPhase.fld R.GLB_CRUISE_STATUS.PHASE = n + 1 ∧ s.nextPhase.cru = { s.cru with begun := false, phaseAt := s.tick }
      ∧ OnlyFields [R.GLB_CRUISE_STATUS.PHASE] s s.nextPhase ∧ SameMemory s s.nextPhase := by
  obtain ⟨hcount, -, honly⟩ := s.onlyRegisters_addFld R.GLB_CRUISE_STATUS.PHASE 1 (by decide)
  refine ⟨?_, ?_, honly, fun _ => rfl⟩
  · rw [hphase] at hcount
    refine hcount.trans (Nat.mod_eq_of_lt ?_)
    rw [show 2 ^ R.GLB_CRUISE_STATUS.PHASE.w = 16 from rfl]
    omega
  · have hc4 : (if s.fld R.GLB_CRUISE_STATUS.PHASE = 3 then s.tick else s.cru.c4At) = s.cru.c4At := if_neg (by rw [hphase]; exact hne)
    rw [State.nextPhase, State.setCru, hc4]

/-! C0 to C8. -/

theorem execCruiseC0Regulators_out {s : State} (h : s.inPhase 0 = false) : execCruiseC0Regulators s = .next s := by
  rw [execCruiseC0Regulators, h, if_neg Bool.false_ne_true]

section
variable {s : State} (h : s.inPhase 1 = true)
include h

theorem execCruiseC1SettingsLoad_loads {b : Nat} {rs : List Rec} (hbank : s.showBanks.chooseBank = some (b, rs)) :
    execCruiseC1SettingsLoad s = .next (s.showBanks.loadBank b rs).nextPhase := by
  simp only [execCruiseC1SettingsLoad, h, not_true_eq_false, if_false, hbank]

theorem execCruiseC1SettingsLoad_none (hbank : s.showBanks.chooseBank = none) :
    execCruiseC1SettingsLoad s = .next (s.showBanks.setFld R.MGT_SET_STATUS.NONE 1).began := by
  simp only [execCruiseC1SettingsLoad, h, not_true_eq_false, if_false, hbank]

end

theorem execCruiseC3Optics_in {s : State} (h : s.inPhase 3 = true) (powers : List (BitVec 16)) : execCruiseC3Optics powers s =
    .next (if s.cru.begun = false then (s.startOptics powers).began else if s.allJudged then s.endMargins.nextPhase
      else s.startMargins) := by
  rw [execCruiseC3Optics, if_neg (not_not_intro h)]
  cases s.cru.begun <;> rfl

theorem execCruiseC6MapFlood_begins {s : State} (h : s.inPhase 6 = true) (hbegun : s.cru.begun = false) :
    execCruiseC6MapFlood s = .next (s.setCru { s.cru with changedAt := s.tick }).floodMap.began := by
  rw [execCruiseC6MapFlood, if_neg (by simp [h, hbegun])]

theorem execMapQuiet_begun {s : State} (h : s.inPhase 6 = true) (hbegun : s.cru.begun = true) : execMapQuiet s =
    .next (if s.cru.changedAt + max 2 (s.fld R.GLB_CRUISE_STATUS.DIAMETER) * 6250 ≤ s.tick then s.nextPhase else s) := by
  simp only [execMapQuiet, h, hbegun, true_and, ms]

theorem execCruiseC7Routes_in {s : State} (h : s.inPhase 7 = true) : execCruiseC7Routes s = .next s.fillRoutes.nextPhase := by
  rw [execCruiseC7Routes, if_pos h]

theorem execCruiseC8Ready_begins {s : State} (h : s.inPhase 8 = true) (hbegun : s.cru.begun = false) : execCruiseC8Ready s =
    let s1 := s.flood (s.mgmtPacket 0xFFFF (packBits [(0, 2), (32, s.cru.routeSeq)])) (.loc 0) none
    let c : CruState := { s1.cru with begun := true, ready := FMap.put s1.cru.ready s1.feid (s.cru.routeSeq + 1) }
    .next (s1.setCru c).judgeReady := by
  rw [execCruiseC8Ready, if_neg (by simp [h, hbegun])]

theorem execAutoroute_quiet {s : State} (h : s.inPhase 8 = true) (hstale : s.cru.stale = true)
    (hquiet : s.cru.changedAt + 2 * 6250 ≤ s.tick) :
    execAutoroute s = .next (if s.flag R.GLB_CRUISE_CTL.AUTOROUTE then s.fillRoutes else s) := by
  simp only [execAutoroute, h, hstale, ms, hquiet, true_and, and_true]

/-- A phase that ends at its limit with nothing left to do. -/
theorem execCruisePhaseLimit_due {s : State} {n : Nat} (hn : n ∈ [0, 2, 5, 6, 7]) (hon : s.cru.on = true)
    (hphase : s.fld R.GLB_CRUISE_STATUS.PHASE = n) (hdue : s.cru.phaseAt + s.phaseLimit ≤ s.tick) :
    execCruisePhaseLimit s = .next (s.nextPhase.setFld ⟨R.GLB_CRUISE_STATUS.adr, 4 + n, 1⟩ 1) := by
  simp only [List.mem_cons, List.not_mem_nil, or_false] at hn
  have hlow : ¬ 8 ≤ n := by omega
  have hone : n ≠ 1 := by omega
  have hcut : s.cutShort = s := by
    unfold State.cutShort
    split
    · omega
    · omega
    · rfl
  simp only [execCruisePhaseLimit, hon, hphase, hlow, Nat.not_lt.mpr hdue, hone, hcut, not_true_eq_false, false_and, or_self, if_false]

theorem State.lateShown {s : State} {n : Nat} (hn : n ∈ [0, 2, 5, 6, 7]) (hphase : s.fld R.GLB_CRUISE_STATUS.PHASE = n) :
    let u := s.nextPhase.setFld ⟨R.GLB_CRUISE_STATUS.adr, 4 + n, 1⟩ 1
    u.fld R.GLB_CRUISE_STATUS.PHASE = n + 1 ∧ u.fld ⟨R.GLB_CRUISE_STATUS.adr, 4 + n, 1⟩ = 1
      ∧ u.cru = { s.cru with begun := false, phaseAt := s.tick }
      ∧ OnlyFields [R.GLB_CRUISE_STATUS.PHASE, ⟨R.GLB_CRUISE_STATUS.adr, 4 + n, 1⟩] s u ∧ SameMemory s u := by
  simp only [List.mem_cons, List.not_mem_nil, or_false] at hn
  obtain ⟨hnext, hcru, honly, hmem⟩ := State.nextPhase_shown hphase (by omega) (by omega)
  have hfits : 4 + n + 1 ≤ 64 := by omega
  refine ⟨?_, ?_, hcru, ?_, hmem⟩
  · rw [State.fld_setFld_apart _ _ _ _ hfits (by simp [R.GLB_CRUISE_STATUS.PHASE])]
    exact hnext
  · exact State.fld_setFld_same _ _ _ hfits
  · exact OnlyFields.setFld (fun g hg => honly g fun f hf => hg f (by simp_all)) (by simp) hfits 1

/-! Messages of the map (R389, R391). -/

section
variable {p : Packet} {s : State} (hop : p.op = opMGMT)
include hop

theorem execMapMessage_damaged (hintact : s.intact p = false) (htype : p.payload.toNat % 256 = 1) :
    execMapMessage p s = .next (s.takeLocal p) := by
  simp only [execMapMessage, hop, htype, hintact, and_self, not_true_eq_false, if_false, Bool.not_false, if_true]

theorem execMgmtReady_damaged (hintact : s.intact p = false) (htype : p.payload.toNat % 256 = 2) :
    execMgmtReady p s = .next (s.takeLocal p) := by
  simp only [execMgmtReady, hop, htype, hintact, and_self, not_true_eq_false, if_false, Bool.not_false, if_true]

section
variable (hintact : s.intact p = true)
include hintact

section
variable (htype : p.payload.toNat % 256 = 1)
include htype

theorem execMapMessage_first
    (hnone : FMap.find (s.takeLocal p).cru.frags (4 * p.src.toNat + getBits p.payload.toNat 8 8 % 4) = none) :
    execMapMessage p s = .next (((s.takeLocal p).holdFrag p.src.toNat (getBits p.payload.toNat 8 8 % 4)
      (mapFragOf p.payload.toNat)).flood p (s.cameFrom p) (s.cameFrom p).chan?) := by
  simp only [execMapMessage, hop, htype, hintact, hnone, and_self, not_true_eq_false, Bool.not_true, Bool.false_eq_true, if_false,
    if_true]

theorem execMapMessage_old {old : MapFrag}
    (hold : FMap.find (s.takeLocal p).cru.frags (4 * p.src.toNat + getBits p.payload.toNat 8 8 % 4) = some old)
    (holder : newer (mapFragOf p.payload.toNat).mseq old.mseq = false) : execMapMessage p s = .next (s.takeLocal p) := by
  simp only [execMapMessage, hop, htype, hintact, hold, holder, and_self, not_true_eq_false, Bool.not_true, Bool.false_eq_true,
    if_false]

end

section
variable (htype : p.payload.toNat % 256 = 2)
include htype

theorem execMgmtReady_first (hnone : FMap.find (s.takeLocal p).cru.ready p.src.toNat = none) : execMgmtReady p s =
    .next ((((s.takeLocal p).setCru { (s.takeLocal p).cru with
      ready := FMap.put (s.takeLocal p).cru.ready p.src.toNat (getBits p.payload.toNat 32 32 + 1) }).flood p (s.cameFrom p)
        (s.cameFrom p).chan?).judgeReady) := by
  simp only [execMgmtReady, hop, htype, hintact, hnone, and_self, not_true_eq_false, Bool.not_true, Bool.false_eq_true, if_false,
    if_true]

theorem execMgmtReady_old {old : Nat} (hold : FMap.find (s.takeLocal p).cru.ready p.src.toNat = some old)
    (holder : newer (getBits p.payload.toNat 32 32) (old - 1) = false) : execMgmtReady p s = .next (s.takeLocal p) := by
  simp only [execMgmtReady, hop, htype, hintact, hold, holder, and_self, not_true_eq_false, Bool.not_true, Bool.false_eq_true,
    if_false]

end

end

end

/-- Settles O56: each command is the one branch of it that the phase selects, and whether the phase's work has begun (log entries 36,
45 and 47). -/
theorem cruise : Obligations.Cruise := by
  refine ⟨fun s => ⟨fun h => ?c0, fun h => execCruiseC0Regulators_out h,
      fun h => ⟨fun b rs hbank => execCruiseC1SettingsLoad_loads h hbank, fun hbank => execCruiseC1SettingsLoad_none h hbank⟩,
      fun h => ⟨fun hbegun => ?c2begins, fun hbegun hup => ?c2ends, fun m hm hbegun hdown => ?c2waits⟩,
      fun powers h => ⟨fun hbegun => ?c3begins, fun hbegun hall => ?c3ends, fun hbegun hsome => ?c3goes⟩,
      fun h => ⟨fun hbegun => ?c4begins, fun hbegun hall => ?c4ends⟩, fun h => ⟨fun hbegun => ?c5begins, fun hbegun hsettled => ?c5ends⟩,
      fun h hbegun => execCruiseC6MapFlood_begins h hbegun, fun h hbegun => ⟨fun hquiet => ?quiet, fun hearly => ?early⟩,
      fun h => execCruiseC7Routes_in h, fun h hbegun => execCruiseC8Ready_begins h hbegun,
      fun h hstale hquiet => ⟨fun hauto => ?auto, fun hauto => ?manual⟩,
      fun n hn hon hphase hdue => ⟨_, execCruisePhaseLimit_due hn hon hphase hdue, State.lateShown hn hphase⟩⟩,
    fun p s hop hintact => ⟨fun htype => execMapMessage_damaged hop hintact htype, fun htype => execMgmtReady_damaged hop hintact htype⟩,
    fun p s hop hintact => ⟨fun htype => ⟨fun hnone => execMapMessage_first hop hintact htype hnone,
        fun old hold holder => execMapMessage_old hop hintact htype hold holder⟩,
      fun htype => ⟨fun hnone => execMgmtReady_first hop hintact htype hnone,
        fun old hold holder => execMgmtReady_old hop hintact htype hold holder⟩⟩⟩
  case c0 =>
    refine ⟨s.nextPhase, ?_, State.nextPhase_shown (State.phase_of_inPhase h) (by decide) (by decide)⟩
    rw [exec_cruiseC0Regulators, execCruiseC0Regulators, if_pos h]
  case c2begins => exact congrArg _ (State.phase_begins h _ _ _ hbegun)
  case c2ends => exact congrArg _ (State.phase_ends h _ _ hbegun (List.all_eq_true.mpr fun m hm => beq_iff_eq.mpr (hup m hm)))
  case c2waits =>
    exact congrArg _ (State.phase_waits h _ _ hbegun (List.all_eq_false.mpr ⟨m, hm, fun hup => hdown (beq_iff_eq.mp hup)⟩))
  case c3begins => rw [exec_cruiseC3Optics, execCruiseC3Optics_in h, if_pos hbegun]
  case c3ends => rw [exec_cruiseC3Optics, execCruiseC3Optics_in h, if_neg (by simp [hbegun]), if_pos hall]
  case c3goes => rw [exec_cruiseC3Optics, execCruiseC3Optics_in h, if_neg (by simp [hbegun]), if_neg (by simp [hsome])]
  case c4begins => exact congrArg _ (State.phase_begins h _ _ _ hbegun)
  case c4ends => exact congrArg _ (State.phase_ends h _ _ hbegun hall)
  case c5begins => exact congrArg _ (State.phase_begins h _ _ _ hbegun)
  case c5ends =>
    refine congrArg _ (State.phase_ends h _ _ hbegun ?_)
    rcases hsettled with h | h <;> rw [h] <;> rfl
  case quiet => rw [exec_mapQuiet, execMapQuiet_begun h hbegun, if_pos hquiet]
  case early => rw [exec_mapQuiet, execMapQuiet_begun h hbegun, if_neg (Nat.not_le.mpr hearly)]
  case auto => rw [exec_autoroute, execAutoroute_quiet h hstale hquiet, if_pos hauto]
  case manual => rw [exec_autoroute, execAutoroute_quiet h hstale hquiet, if_neg (by rw [hauto]; exact Bool.false_ne_true)]

end Sys2Proof.Machine
end

section
/-! ## What the work on packets and links leaves of a light-plan switch (R66, R82, R141, R153, R219, R220, R389) -/

namespace Sys2Proof.Machine

open Sys2Proof

/-- The optics' registers for plans, switches and counts. -/
abbrev planReg (o : Nat) : Prop := R.OPT_PLAN_CTL.adr ≤ o ∧ o < R.OPT_LASER_BASE.adr 0 0

/-- Module memory, the optics, the collectives, the links that gain channels and the registers of a switch stand in `t` as in `s`. -/
structure KeepsOptics (s t : State) : Prop where
  lines : KeepsLines s t
  opt : t.opt = s.opt
  entries : t.col.entries = s.col.entries
  gains : t.swc.gains = s.swc.gains
  fld : ∀ g : Field, planReg g.off → t.fld g = s.fld g

theorem KeepsOptics.refl (s : State) : KeepsOptics s s := ⟨.refl s, rfl, rfl, rfl, fun _ _ => rfl⟩

theorem KeepsOptics.trans {s t u : State} (h : KeepsOptics s t) (h' : KeepsOptics t u) : KeepsOptics s u :=
  ⟨h.lines.trans h'.lines, h'.opt.trans h.opt, h'.entries.trans h.entries, h'.gains.trans h.gains,
    fun g hg => (h'.fld g hg).trans (h.fld g hg)⟩

theorem KeepsOptics.ite {c : Prop} [Decidable c] {s t u : State} (ht : KeepsOptics s t) (hu : KeepsOptics s u) :
    KeepsOptics s (if c then t else u) := by
  split
  · exact ht
  · exact hu

/-- What each step leaves, all of them leave. -/
theorem keepsOptics_foldl {α : Type} {step : State → α → State} {l : List α} (s : State)
    (hstep : ∀ t, ∀ a ∈ l, KeepsOptics t (step t a)) : KeepsOptics s (l.foldl step s) :=
  List.foldlRecOn _ _ (.refl s) fun t ht a ha => ht.trans (hstep t a ha)

/-! Registers, alerts, logs and the trace. -/

theorem State.keepsOptics_setFld (s : State) {f : Field} (v : Nat) (h : ¬ planReg f.off) : KeepsOptics s (s.setFld f v) :=
  ⟨⟨rfl, rfl⟩, rfl, rfl, rfl, fun _ hg => s.fld_setFld_ne v fun he => h (he ▸ hg)⟩

theorem State.keepsOptics_count (s : State) {f : Field} (n : Nat) (h : ¬ planReg f.off) : KeepsOptics s (s.count f n) :=
  (s.keepsOptics_setFld (s.fld f + n) h).trans ⟨⟨rfl, rfl⟩, rfl, rfl, rfl, fun _ _ => rfl⟩

theorem State.keepsOptics_alarm (s : State) (i : Nat) : KeepsOptics s (s.alarm i) := by
  obtain ⟨hst, out, h⟩ := s.alarm_frame i
  have hcause : ¬ planReg R.REL_ALERT_CAUSE.adr := by decide
  rw [h]
  exact (s.keepsOptics_setFld (f := ⟨R.REL_ALERT_CAUSE.adr, i, 1⟩) 1 hcause).trans ⟨⟨rfl, rfl⟩, rfl, rfl, rfl, fun _ _ => rfl⟩

theorem State.keepsOptics_event (s : State) {f : Field} (i : Nat) (h : ¬ planReg f.off) : KeepsOptics s (s.event f i) :=
  (s.keepsOptics_setFld 1 h).trans (State.keepsOptics_alarm _ i)

theorem State.keepsOptics_faultLog (s : State) (code tag kind number info0 info1 : Nat) :
    KeepsOptics s (s.faultLog code tag kind number info0 info1) := by
  have hlogged (x : RelState) (v : Nat) : KeepsOptics s ({ s with rel := x }.setFld (R.REL_LOG_IDX.PROD 0) v) :=
    .trans (t := { s with rel := x }) ⟨⟨rfl, rfl⟩, rfl, rfl, rfl, fun _ _ => rfl⟩ (State.keepsOptics_setFld _ v (by decide))
  have hfull (t : State) (v : Nat) :
      KeepsOptics t (((t.setFld (R.REL_LOG_IDX.CONS 0) v).count (R.REL_LOG_IDX.OVERWRITTEN 0)).alarm 10) :=
    (t.keepsOptics_setFld v (by decide)).trans <|
      (State.keepsOptics_count (f := R.REL_LOG_IDX.OVERWRITTEN 0) _ 1 (by decide)).trans (State.keepsOptics_alarm _ 10)
  unfold State.faultLog State.logAdvance
  exact .ite ((hlogged _ _).trans (hfull ..)) (hlogged _ _)

theorem OnlyTrace.keepsOptics {s t : State} (h : OnlyTrace s t) : KeepsOptics s t := by
  obtain ⟨⟨_, _, _, _, rfl⟩, hfld⟩ := h
  exact ⟨⟨rfl, rfl⟩, rfl, rfl, rfl, fun g hg => hfld g (Nat.lt_trans hg.2 (by decide))⟩

theorem State.keepsOptics_fresh (s : State) : KeepsOptics s s.fresh.2 := ⟨⟨rfl, rfl⟩, rfl, rfl, rfl, fun _ _ => rfl⟩

/-- A packet seen at a free local port. -/
theorem State.keepsOptics_atPort (s : State) (point dir : Nat) (p : Packet) (marked : Bool) :
    KeepsOptics s (s.localPort.2.capture point dir p marked) :=
  s.keepsOptics_fresh.trans (State.onlyTrace_capture ..).keepsOptics

/-! Queues. -/

theorem State.keepsOptics_setSwc (s : State) (x : SwcState) (h : x.gains = s.swc.gains := by rfl) : KeepsOptics s { s with swc := x } :=
  ⟨⟨rfl, rfl⟩, rfl, rfl, h, fun _ _ => rfl⟩

theorem State.keepsOptics_freePool (s : State) (q : QPkt) : KeepsOptics s (s.freePool q) := by
  obtain ⟨chans, h⟩ := (s.freePool_chans q).1
  rw [h]
  exact s.keepsOptics_setSwc _

/-- The registers of link queues stand before those of the optics. -/
theorem State.keepsOptics_noteDepth (s : State) {l v : Nat} (hl : l < 1024) (hv : v < 8) : KeepsOptics s (s.noteDepth l v) := by
  obtain ⟨⟨regs, tel, h⟩, hfld⟩ := s.noteDepth_frame l v
  refine ⟨?_, by rw [h], by rw [h], by rw [h], fun g hg => hfld g ?_⟩
  · rw [h]
    exact ⟨rfl, rfl⟩
  · have hlow := hg.1
    simp only [R.OPT_PLAN_CTL.adr] at hlow
    simp only [R.SWC_LINK_Q.adr]
    omega

theorem State.keepsOptics_holdPkt (s : State) (q : QPkt) : KeepsOptics s (s.holdPkt q) := by
  unfold State.holdPkt
  exact .ite (s.keepsOptics_setSwc _) <| (s.keepsOptics_freePool q).trans <| (State.keepsOptics_setSwc _ _).trans <|
    (State.keepsOptics_setFld _ _ (by decide)).trans (State.keepsOptics_count _ 1 (by decide))

theorem State.keepsOptics_enqueue (s : State) {q : QPkt} (h : q.link < 1024) : KeepsOptics s (s.enqueue q) := by
  unfold State.enqueue
  exact .ite (s.keepsOptics_holdPkt q) <|
    (s.keepsOptics_setSwc _).trans (State.keepsOptics_noteDepth _ h q.pkt.vc.isLt)

theorem State.keepsOptics_toLocal (s : State) (q : QPkt) : KeepsOptics s (s.toLocal q) := by
  unfold State.toLocal
  refine .ite ((s.keepsOptics_setSwc _).trans (State.keepsOptics_freePool _ q)) ?_
  have hseen (c : Prop) [Decidable c] (n dir : Nat) (p : Packet) (marked : Bool) :
      KeepsOptics s (if c then s else s.localPort.2.capture n dir p marked) := .ite (.refl s) (s.keepsOptics_atPort ..)
  exact (hseen ..).trans (State.keepsOptics_setSwc _ _)

theorem State.keepsOptics_enterLocal (s : State) (p : Packet) (marked : Bool) (arr : Option Nat) :
    KeepsOptics s (s.enterLocal p marked arr).2 := by
  cases arr with
  | some n => exact .refl s
  | none => exact s.keepsOptics_atPort ..

/-! The links of packets are those of the 32 that a route entry can name (Table 7.12). -/

theorem slotLink_lt (e k : Nat) : slotLink e k < 32 := getBits_lt e _ 5

theorem mem_insertLink {x y : Nat × Nat} : ∀ {l : List (Nat × Nat)}, y ∈ insertLink x l → y = x ∨ y ∈ l
  | [], h => .inl (List.mem_singleton.mp h)
  | z :: l, h => by
    unfold insertLink at h
    split at h
    · exact List.mem_cons.mp h
    · obtain rfl | h := List.mem_cons.mp h
      · exact .inr List.mem_cons_self
      · exact (mem_insertLink h).imp_right (List.mem_cons_of_mem z)

theorem State.link_lt_of_mem_ecmpSet {s : State} {e : Nat} {x : Nat × Nat} (h : x ∈ s.ecmpSet e) : x.1 < 32 := by
  unfold State.ecmpSet at h
  generalize upFrom 0 3 = ks at h
  induction ks with
  | nil => cases h
  | cons k ks ih =>
    rw [List.foldr_cons] at h
    split at h
    · obtain rfl | h := mem_insertLink h
      · exact slotLink_lt e k
      · exact ih h
    · exact ih h

theorem State.chooseLink_lt {s : State} {f e p : Nat} {x : Nat × Nat} (h : s.chooseLink f e p = some x) : x.1 < 32 := by
  unfold State.chooseLink at h
  split at h
  · cases h
  split at h
  · obtain ⟨k, _, rfl⟩ := Option.map_eq_some_iff.mp h
    exact slotLink_lt e k
  · exact State.link_lt_of_mem_ecmpSet (List.mem_of_getElem? h)

/-- A packet that goes to a link goes to one of the 32. -/
def Fate.linked : Fate → Prop
  | .link _ l _ => l < 32
  | _ => True


theorem State.linked_byRoute (s : State) (p : Packet) (near : Bool) : (s.byRoute p near).linked := by
  unfold State.byRoute
  dsimp only
  split
  · exact trivial
  split
  · split
    · exact trivial
    split <;> exact trivial
  split
  · exact trivial
  next l k hlink =>
    split
    · exact trivial
    · exact (State.chooseLink_lt hlink :)

theorem State.linked_byGroup (s : State) (p : Packet) (near : Bool) : (s.byGroup p near).linked := by
  unfold State.byGroup
  split
  · exact trivial
  · exact s.linked_byRoute _ near

/-- A crossing that is refused is a discard. -/
theorem State.linked_of_cross {s : State} {d dst : Nat} {p : Packet} {x : Fate} (h : s.cross d p dst = .inr x) : x.linked := by
  unfold State.cross at h
  split at h
  · cases h
    exact trivial
  split at h
  · cases h
    exact trivial
  · cases h

theorem State.linked_atGateway (s : State) (p : Packet) (pt : Point) : (s.atGateway p pt).linked := by
  unfold State.atGateway
  dsimp only
  split
  · exact trivial
  split
  · exact trivial
  · split
    · exact s.linked_byGroup _ _
    next hx => exact State.linked_of_cross hx
  · split
    · exact trivial
    · exact s.linked_byRoute _ _

theorem Fate.linked_ite {c : Prop} [Decidable c] {x y : Fate} (hx : x.linked) (hy : y.linked) : (if c then x else y).linked := by
  split
  · exact hx
  · exact hy

theorem State.linked_fate (s : State) (p : Packet) (pt : Point) : (s.fate p pt).linked := by
  unfold State.fate
  exact Fate.linked_ite trivial <| Fate.linked_ite trivial <| Fate.linked_ite trivial <| Fate.linked_ite (Fate.linked_ite trivial trivial) <|
    Fate.linked_ite trivial <| Fate.linked_ite trivial (s.linked_atGateway p pt)

/-! The Switch Core. -/

/-- A packet that is discarded is counted, and some are recorded (R141). -/
theorem State.keepsOptics_drop (s : State) (q : QPkt) (p : Packet) (st : Option Nat) (code ctr : Nat) :
    KeepsOptics s (s.carry q (.drop p st code ctr)).1 := by
  have hcounted (t : State) {f : Field} (h : ¬ planReg f.off) : KeepsOptics t (t.count f) := t.keepsOptics_count 1 h
  have hevent (t : State) {f : Field} (h : ¬ planReg f.off) (code tag kind number info0 info1 : Nat) :
      KeepsOptics t ((t.linkEvent f).faultLog code tag kind number info0 info1) :=
    (t.keepsOptics_event 2 h).trans (State.keepsOptics_faultLog ..)
  unfold State.carry
  exact (s.keepsOptics_freePool q).trans <|
    (KeepsOptics.ite (hcounted _ (by decide)) <| .ite (hcounted _ (by decide)) <| .ite (hcounted _ (by decide)) (.refl _)).trans <|
      .ite (hevent _ (by decide) ..) <| .ite (hevent _ (by decide) ..) <| .ite (State.keepsOptics_faultLog ..) (.refl _)

theorem State.keepsOptics_carry (s : State) (q : QPkt) {x : Fate} (h : x.linked) : KeepsOptics s (s.carry q x).1 := by
  cases x with
  | link p l dl0 => exact s.keepsOptics_enqueue (Nat.lt_trans h (by decide))
  | deliver p =>
    unfold State.carry
    dsimp only
    split
    · exact s.keepsOptics_freePool q
    split
    · exact s.keepsOptics_freePool q
    · exact s.keepsOptics_toLocal _
  | flood p =>
    unfold State.carry
    dsimp only
    split
    · exact s.keepsOptics_freePool q
    · exact s.keepsOptics_toLocal _
  | drop p st code ctr => exact s.keepsOptics_drop q p st code ctr

theorem State.keepsOptics_refuse (s : State) (q : QPkt) (status : Nat) : KeepsOptics s (s.refuse q status) := by
  unfold State.refuse
  refine .ite (.refl s) ?_
  dsimp only
  refine (s.keepsOptics_enterLocal _ false none).trans (State.keepsOptics_carry _ _ ?_)
  exact Fate.linked_ite (State.linked_byGroup ..) (State.linked_fate ..)

theorem State.keepsOptics_inject (s : State) (q : QPkt) : KeepsOptics s (s.inject q) := by
  have hcarry := s.keepsOptics_carry q (s.linked_fate q.pkt q.point)
  unfold State.inject
  refine .ite (s.keepsOptics_freePool q) <| .ite (s.keepsOptics_setSwc _) <| .ite ?_ ?_
  · exact (s.keepsOptics_setSwc _).trans <| (State.keepsOptics_freePool _ q).trans (State.keepsOptics_count _ 1 (by decide))
  split
  next h => rw [h] at hcarry; exact hcarry
  next h => rw [h] at hcarry; exact hcarry.trans (State.keepsOptics_refuse ..)

theorem State.keepsOptics_sendPacket (s : State) (p : Packet) (marked : Bool) (arr : Option Nat) :
    KeepsOptics s (s.sendPacket p marked arr) :=
  (s.keepsOptics_enterLocal p marked arr).trans (State.keepsOptics_inject ..)

/-! The map (R389, R391). -/

theorem State.keepsOptics_setCru (s : State) (x : CruState) : KeepsOptics s { s with cru := x } :=
  ⟨⟨rfl, rfl⟩, rfl, rfl, rfl, fun _ _ => rfl⟩

theorem State.keepsOptics_flood (s : State) (p : Packet) (point : Point) (skip : Option Nat) :
    KeepsOptics s (s.flood p point skip) := by
  unfold State.flood
  refine .ite (.refl s) (keepsOptics_foldl s fun t c hc => .ite (t.keepsOptics_enqueue ?_) (.refl t))
  have hlt := (mem_upFrom 0 262 c hc).2
  dsimp only
  omega

theorem State.keepsOptics_judgeReady (s : State) : KeepsOptics s s.judgeReady :=
  .ite (s.keepsOptics_setFld 1 (by decide)) (.refl s)

theorem State.keepsOptics_mapTouched (s : State) : KeepsOptics s s.mapTouched := by
  have hset (t : State) {f : Field} (v : Nat) (h : ¬ planReg f.off) := t.keepsOptics_setFld v h
  unfold State.mapTouched
  refine (s.keepsOptics_setCru _).trans <| (hset _ _ (by decide)).trans <| (hset _ _ (by decide)).trans <| .ite ?_ (.refl _)
  exact (State.keepsOptics_setCru _ _).trans <| (hset _ 1 (by decide)).trans (State.keepsOptics_judgeReady _)

theorem State.keepsOptics_holdFrag (s : State) (f k : Nat) (m : MapFrag) : KeepsOptics s (s.holdFrag f k m) := by
  unfold State.holdFrag
  exact .ite (s.keepsOptics_setCru _) ((s.keepsOptics_setCru _).trans (State.keepsOptics_mapTouched _))

theorem State.keepsOptics_floodMap (s : State) : KeepsOptics s s.floodMap := by
  unfold State.floodMap
  exact .ite (.refl s) <| (s.keepsOptics_setCru _).trans <| keepsOptics_foldl _ fun t k _ =>
    (t.keepsOptics_holdFrag ..).trans (State.keepsOptics_flood ..)

/-! The boundary's credit batch (R45, R150, R159). -/

theorem State.keepsOptics_setChan (s : State) (c : Nat) (x : Chan) : KeepsOptics s (s.setChan c x) := s.keepsOptics_setSwc _

theorem State.keepsOptics_heartbeat (s : State) (c : Nat) : KeepsOptics s (s.heartbeat c) :=
  (s.keepsOptics_setChan c _).trans ⟨⟨rfl, rfl⟩, rfl, rfl, rfl, fun _ _ => rfl⟩

theorem State.keepsOptics_fillEgress (s : State) (c : Nat) : KeepsOptics s (s.fillEgress c) := by
  unfold State.fillEgress
  split
  · exact .refl s
  · exact s.keepsOptics_setChan c _

theorem State.keepsOptics_linkTick (s : State) : KeepsOptics s s.linkTick := by
  have hfill (t : State) (c : Nat) : KeepsOptics t ((t.refill c).fillEgress c) :=
    (t.keepsOptics_setChan c _).trans (State.keepsOptics_fillEgress _ c)
  exact keepsOptics_foldl s fun t c _ =>
    (KeepsOptics.ite (c := t.beats c = true) (t.keepsOptics_heartbeat c) (.refl t)).trans (.ite (hfill _ c) (.refl _))

theorem State.keepsOptics_settleCredits (s : State) : KeepsOptics s s.settleCredits := by
  unfold State.settleCredits
  have hdone (x : TimeState) : KeepsOptics s { s with tim := x } := ⟨⟨rfl, rfl⟩, rfl, rfl, rfl, fun _ _ => rfl⟩
  exact .ite ((hdone _).trans (State.keepsOptics_linkTick _)) (.refl s)

/-! ## What the loss of channels and links leaves of a light-plan switch (R82, R153, R219, R220, R262)

A lost link may abort collectives, and the abort of one that holds the plan lock asks for a restoring switch, which waits for a switch
that has started. -/

/-- A switch has started. -/
def State.switchOn (s : State) : Prop := ∃ x, s.opt.sw = some x ∧ x.stage ≠ 0

/-- No restoring switch waits for another: there is no switch but a restoring one that has not started. -/
def State.noneWaits (s : State) : Prop := s.opt.restore = none ∧ ∀ x, s.opt.sw = some x → x.stage = 0 ∧ x.by_ = .restore

/-- `t` is `s` as far as a switch that has started shows it, but for a restoring switch that waits; none waits in `t` that waits for no
other in `s`. -/
structure KeepsStarted (s t : State) : Prop where
  lines : KeepsLines s t
  gains : t.swc.gains = s.swc.gains
  started : s.switchOn → (∃ r, t.opt = { s.opt with restore := r }) ∧ ∀ g : Field, planReg g.off → t.fld g = s.fld g
  idle : s.noneWaits → t.noneWaits

/-- `t` is `s` as far as a switch that has started shows it, and in all of `KeepsOptics` where no collective is active. -/
structure KeepsSwitch (s t : State) : Prop extends KeepsStarted s t where
  alone : s.col.entries = [] → KeepsOptics s t

theorem KeepsOptics.keepsStarted {s t : State} (h : KeepsOptics s t) : KeepsStarted s t where
  lines := h.lines
  gains := h.gains
  started _ := ⟨⟨s.opt.restore, h.opt⟩, h.fld⟩
  idle hs := by rw [State.noneWaits, h.opt]; exact hs

theorem KeepsStarted.trans {s t u : State} (h : KeepsStarted s t) (h' : KeepsStarted t u) : KeepsStarted s u where
  lines := h.lines.trans h'.lines
  gains := h'.gains.trans h.gains
  started hs := by
    obtain ⟨⟨r, hopt⟩, hfld⟩ := h.started hs
    have ht : t.switchOn := by rw [State.switchOn, hopt]; exact hs
    obtain ⟨⟨r', hopt'⟩, hfld'⟩ := h'.started ht
    exact ⟨⟨r', by rw [hopt', hopt]⟩, fun g hg => (hfld' g hg).trans (hfld g hg)⟩
  idle hs := h'.idle (h.idle hs)

theorem KeepsOptics.keepsSwitch {s t : State} (h : KeepsOptics s t) : KeepsSwitch s t := { h.keepsStarted with alone := fun _ => h }

theorem KeepsSwitch.refl (s : State) : KeepsSwitch s s := (KeepsOptics.refl s).keepsSwitch

theorem KeepsSwitch.trans {s t u : State} (h : KeepsSwitch s t) (h' : KeepsSwitch t u) : KeepsSwitch s u where
  toKeepsStarted := h.toKeepsStarted.trans h'.toKeepsStarted
  alone hs := (h.alone hs).trans (h'.alone ((h.alone hs).entries.trans hs))

theorem KeepsSwitch.ite {c : Prop} [Decidable c] {s t u : State} (ht : KeepsSwitch s t) (hu : KeepsSwitch s u) :
    KeepsSwitch s (if c then t else u) := by
  split
  · exact ht
  · exact hu

/-- What each step leaves, all of them leave. -/
theorem keepsSwitch_foldl {α : Type} {step : State → α → State} {l : List α} (s : State)
    (hstep : ∀ t, ∀ a ∈ l, KeepsSwitch t (step t a)) : KeepsSwitch s (l.foldl step s) :=
  List.foldlRecOn _ _ (.refl s) fun t ht a ha => ht.trans (hstep t a ha)

/-! Aborts of collectives (R219, R220). -/

theorem State.keepsStarted_setCol (s : State) (h : Nat) (e : ColEntry) : KeepsStarted s (s.setCol h e) where
  lines := ⟨rfl, rfl⟩
  gains := rfl
  started _ := ⟨⟨s.opt.restore, rfl⟩, fun g hg => by
    have hhigh : g.off < R.COL_STATUS.adr := Nat.lt_trans hg.2 (by decide)
    have hentry : g.off ≠ R.COL_ENTRY.adr h := by
      simp only [R.COL_STATUS.adr] at hhigh
      simp only [R.COL_ENTRY.adr]
      omega
    exact (State.fld_setFld_ne _ _ (Nat.ne_of_lt hhigh)).trans <|
      (State.fld_setFld_ne _ _ (Nat.ne_of_lt hhigh)).trans (State.fld_setReg_ne _ _ hentry)⟩
  idle hs := hs

/-- A switch that has started is not replaced: the restoring switch waits for it. -/
theorem State.keepsStarted_askRestore (s : State) (e : ColEntry) (epoch : Nat) : KeepsStarted s (s.askRestore e epoch) := by
  have hasked (q t : Nat) (hnew : ∀ x, s.opt.sw = some x → x.stage = 0) : KeepsStarted s (s.askSwitch q t .restore) :=
    { lines := ⟨rfl, rfl⟩
      gains := rfl
      started := fun ⟨x, hx, hon⟩ => absurd (hnew x hx) hon
      idle := fun hs => ⟨hs.1, fun x hx => by cases hx; exact ⟨rfl, rfl⟩⟩ }
  unfold State.askRestore
  split
  · exact (KeepsOptics.refl s).keepsStarted
  split
  · exact (KeepsOptics.refl s).keepsStarted
  dsimp only
  generalize (if s.fld R.GLB_TIME_STATUS.STATE = 4 ∨ epoch + 192 < s.tick then s.tick + 1 else epoch + 192) = t
  split
  next hnone => exact hasked _ _ fun x hx => by rw [hnone] at hx; cases hx
  next x hx =>
    have hx' {y : PlanSwitch} (hy : s.opt.sw = some y) : y = x := Option.some.inj (hy.symm.trans hx)
    split
    next hfirst => exact hasked _ _ fun y hy => by rw [hx' hy]; exact hfirst.1
    next hlater =>
      exact { lines := ⟨rfl, rfl⟩
              gains := rfl
              started := fun _ => ⟨⟨_, rfl⟩, fun _ _ => rfl⟩
              idle := fun hs => absurd ⟨(hs.2 x hx).1, .inl (hs.2 x hx).2⟩ hlater }

theorem State.keepsOptics_sendAborts (s : State) (e : ColEntry) (epoch : Nat) : KeepsOptics s (s.sendAborts e epoch) :=
  keepsOptics_foldl s fun t _ _ => t.keepsOptics_sendPacket _ false none

theorem State.keepsStarted_colAbort (s : State) (h detail : Nat) : KeepsStarted s (s.colAbort h detail) := by
  unfold State.colAbort
  split
  · exact (KeepsOptics.refl s).keepsStarted
  next e _ =>
    split
    · exact (KeepsOptics.refl s).keepsStarted
    · have hraise (t : State) : KeepsOptics t (t.raise R.COL_EVENTS.ABORT_SENT) := t.keepsOptics_setFld 1 (by decide)
      have hsent (t : State) (p cid k : Nat) :
          KeepsStarted t (((t.keepAbort p cid k).sendAborts e k).raise R.COL_EVENTS.ABORT_SENT) := by
        have hkept : KeepsOptics t (t.keepAbort p cid k) := ⟨⟨rfl, rfl⟩, rfl, rfl, rfl, fun _ _ => rfl⟩
        exact (hkept.trans <| (State.keepsOptics_sendAborts ..).trans (hraise _)).keepsStarted
      exact (s.keepsStarted_setCol _ _).trans <| (State.keepsStarted_askRestore ..).trans (hsent ..)

theorem State.colAbort_of_entries_nil {s : State} (h : s.col.entries = []) (k detail : Nat) : s.colAbort k detail = s := by
  have hnone : s.colAt k = none := by rw [State.colAt, h]; rfl
  rw [State.colAbort, hnone]

theorem State.keepsSwitch_colAbort (s : State) (h detail : Nat) : KeepsSwitch s (s.colAbort h detail) where
  toKeepsStarted := s.keepsStarted_colAbort h detail
  alone hs := by rw [State.colAbort_of_entries_nil hs]; exact .refl s

theorem State.keepsSwitch_colDropped (s : State) (p : Packet) : KeepsSwitch s (s.colDropped p) := by
  unfold State.colDropped
  split
  · exact .ite (s.keepsSwitch_colAbort _ _) (.refl s)
  · exact .refl s

/-! Links lost and gained (R82, R153, R389). -/

theorem State.keepsSwitch_rechoose (s : State) (q : QPkt) : KeepsSwitch s (s.rechoose q) := by
  unfold State.rechoose
  dsimp only
  split
  · exact ((s.keepsOptics_freePool q).trans (State.keepsOptics_count _ 1 (by decide))).keepsSwitch.trans <|
      (State.keepsSwitch_colDropped _ _).trans (State.keepsOptics_refuse ..).keepsSwitch
  next hlink => exact (s.keepsOptics_enqueue (Nat.lt_trans (State.chooseLink_lt hlink) (by decide))).keepsSwitch

theorem State.keepsSwitch_linkGone (s : State) {l : Nat} (hl : l < 32) : KeepsSwitch s (s.linkGone l) := by
  have hdepths (t : State) : KeepsOptics t ((upFrom 0 8).foldl (fun s v => s.noteDepth l v) t) :=
    keepsOptics_foldl t fun u v hv => u.keepsOptics_noteDepth (Nat.lt_trans hl (by decide)) (mem_upFrom 0 8 v hv).2
  unfold State.linkGone
  exact ((s.keepsOptics_setSwc _).trans (hdepths _)).keepsSwitch.trans (keepsSwitch_foldl _ fun t q _ => t.keepsSwitch_rechoose q)

theorem State.keepsOptics_holdForLink (s : State) (l : Nat) : KeepsOptics s (s.holdForLink l) :=
  keepsOptics_foldl s fun t e _ => .ite (t.keepsOptics_setSwc _) (.refl t)

theorem State.keepsOptics_linkStatus (s : State) {f : Field} {l : Nat} (v : Nat) (hf : f.off = R.SWC_LINK_STATUS.adr l) (hl : l < 32) :
    KeepsOptics s (s.setFld f v) :=
  s.keepsOptics_setFld v fun h => by
    have hlow := h.1
    simp only [hf, R.OPT_PLAN_CTL.adr, R.SWC_LINK_STATUS.adr] at hlow
    omega

theorem State.keepsSwitch_refreshLinks (s : State) : KeepsSwitch s s.refreshLinks := by
  unfold State.refreshLinks
  dsimp only
  generalize hlinks : List.foldl _ s _ = t
  have ht : KeepsSwitch s t := by
    rw [← hlinks]
    refine keepsSwitch_foldl s fun u l hl => ?_
    have hlt : l < 32 := by have := (mem_upFrom 0 32 l hl).2; omega
    have hshown (v : State) (a b c : Nat) : KeepsOptics v (((v.setFld (R.SWC_LINK_STATUS.CHANNELS l) a).setFld
        (R.SWC_LINK_STATUS.USABLE l) b).setFld (R.SWC_LINK_STATUS.JOINING l) c) :=
      (v.keepsOptics_linkStatus a rfl hlt).trans <|
        (State.keepsOptics_linkStatus _ b rfl hlt).trans (State.keepsOptics_linkStatus _ c rfl hlt)
    exact (hshown ..).keepsSwitch.trans <| .ite (State.keepsOptics_holdForLink _ l).keepsSwitch <|
      .ite (State.keepsSwitch_linkGone _ hlt) (.refl _)
  exact .ite ht (ht.trans t.keepsOptics_floodMap.keepsSwitch)

/-! ## The plan lock and the requester of a switch (R210, R249, R260) -/

theorem State.opt_noteLock (s : State) : s.noteLock.opt = s.opt := by
  unfold State.noteLock
  split <;> rfl

@[simp] theorem State.opt_setLock (s : State) (l : Option LockBy) : (s.setLock l).opt = { s.opt with lock := l } :=
  State.opt_noteLock _

theorem State.keepsLines_setLock (s : State) (l : Option LockBy) : KeepsLines s (s.setLock l) :=
  .trans (t := { s with opt := { s.opt with lock := l } }) ⟨rfl, rfl⟩ (State.leavesThreads_noteLock _).2

/-- The plan lock shows in COL_STATUS. -/
theorem State.fld_setLock (s : State) (l : Option LockBy) {g : Field} (h : planReg g.off) : (s.setLock l).fld g = s.fld g := by
  have hne : g.off ≠ R.COL_STATUS.adr := Nat.ne_of_lt (Nat.lt_trans h.2 (by decide))
  have hset (t : State) {f : Field} (v : Nat) (hf : f.off = R.COL_STATUS.adr) : (t.setFld f v).fld g = t.fld g :=
    t.fld_setFld_ne v (hf ▸ hne)
  unfold State.setLock State.noteLock
  split
  · exact (hset _ 0 rfl).trans <| (hset _ 0 rfl).trans (hset _ 0 rfl)
  · exact hset _ 1 rfl
  · exact (hset _ _ rfl).trans (hset _ 1 rfl)
  · exact (hset _ _ rfl).trans <| (hset _ _ rfl).trans (hset _ 1 rfl)

/-! Threads that are woken, and traps, leave the optics. -/

theorem State.opt_ringRecord (s : State) (p rec : Nat) : (s.ringRecord p rec).opt = s.opt := by
  unfold State.ringRecord
  dsimp only
  split
  · rfl
  · refine List.foldlRecOn (motive := fun t : State => t.opt = s.opt) _ _ ?_ fun t ht n _ => ?_
    · rw [State.opt_setFld, State.opt_report, State.opt_putBytes]
    · split
      · rw [State.msix_frame]; exact ht
      · exact ht

theorem State.opt_threadFault (s : State) (t cause info : Nat) : (s.threadFault t cause info).opt = s.opt := State.opt_ringRecord ..

theorem State.opt_trap (s : State) (t cause info : Nat) : (s.trap t cause info).opt = s.opt := by
  unfold State.trap
  split
  · exact s.opt_threadFault ..
  split
  · exact s.opt_threadFault ..
  · rfl

theorem State.opt_takeHeld (s : State) (t : Nat) : (s.takeHeld t).opt = s.opt := by
  unfold State.takeHeld
  dsimp only
  split
  · rfl
  · split
    · exact State.opt_trap ..
    · rfl

theorem State.opt_waitOn (s : State) (t : Nat) (w : Wait) (k : Nat) : (s.waitOn t w k).opt = s.opt := by
  unfold State.waitOn
  dsimp only
  split <;> rfl

theorem State.opt_runnable (s : State) (t : Nat) : (s.runnable t).opt = s.opt := by
  unfold State.runnable
  split
  · exact s.opt_waitOn ..
  · rfl

theorem State.opt_recheck (s : State) : s.recheck.opt = s.opt := by
  unfold State.recheck
  refine List.foldlRecOn (motive := fun t : State => t.opt = s.opt) _ _ rfl fun t ht k _ => ?_
  refine (State.opt_takeHeld ..).trans ?_
  split
  · exact (t.opt_runnable k).trans ht
  · exact ht

theorem State.opt_tellLp (s : State) (t : Nat) (st : BitVec 5) (status : Nat) :
    (s.tellLp t st status).opt = { s.opt with lock := none } := by
  unfold State.tellLp
  dsimp only
  rw [State.opt_recheck, State.writeStatus, State.opt_setThr, State.opt_setThr, State.opt_setLock]

/-- The requester that learns of its switch's end asks for no restoring one. -/
theorem State.restore_tellSwitch (s : State) (b : SwitchBy) : (s.tellSwitch b).opt.restore = s.opt.restore := by
  cases b with
  | cmd => rw [State.tellSwitch, State.opt_setLock]; rfl
  | lp t st => rw [State.tellSwitch, State.opt_tellLp]
  | agreed p cid =>
    rw [State.tellSwitch]
    split <;> rfl
  | restore => rw [State.tellSwitch, State.opt_setLock]

end Sys2Proof.Machine
end

section
/-! ## A light-plan switch from its request to its completion (R260, R261, R268, Table 11.4) -/

namespace Sys2Proof.Machine

open Sys2Proof

/-! OPT_PLAN_CMD (R260). -/

theorem State.moveMet_of_wins_nil {s : State} (h : s.opt.wins = []) (t : Nat) : s.moveMet t = s := by
  rw [State.moveMet, h]
  rfl

theorem State.opt_askSwitch (s : State) (q t : Nat) (by_ : SwitchBy) :
    (s.askSwitch q t by_).opt = { s.opt with sw := some { plan := q, tick := t, by_ := by_ } } := rfl

/-- A request shows in OPT_PLAN_STATUS. -/
theorem State.fld_askSwitch (s : State) {q : Nat} (hq : q < 16) (t : Nat) (by_ : SwitchBy) :
    (s.askSwitch q t by_).flag R.OPT_PLAN_STATUS.PENDING = true ∧ (s.askSwitch q t by_).fld R.OPT_PLAN_STATUS.NEXT = q := by
  have hnext (u : State) : (u.setFld R.OPT_PLAN_STATUS.NEXT q).fld R.OPT_PLAN_STATUS.NEXT = q :=
    (u.fld_setFld_same _ q (by decide)).trans (Nat.mod_eq_of_lt hq)
  have hpending (u : State) :
      ((u.setFld R.OPT_PLAN_STATUS.PENDING 1).setFld R.OPT_PLAN_STATUS.NEXT q).fld R.OPT_PLAN_STATUS.PENDING = 1 :=
    (State.fld_setFld_apart _ _ _ q (by decide) (by decide)).trans (u.fld_setFld_same _ 1 (by decide))
  refine ⟨?_, hnext _⟩
  rw [State.flag, State.askSwitch, hpending]
  rfl

theorem completes_planSwitchRequest {via : Via} {plan : BitVec 4} {tick : BitVec 56} {s : State}
    (hsees : s.sees via R.OPT_PLAN_CMD.adr true = true) (hlock : s.opt.lock = none) (htime : s.timeState ≠ tsLOST)
    (hvalid : s.planValid plan.toNat = true) (hwins : s.opt.wins = []) {t : Nat} (ht : t = s.tick / 2 ^ 56 * 2 ^ 56 + tick.toNat)
    (hlow : s.tick + 2 ≤ t) (hhigh : t ≤ s.tick + 2 ^ 20) : Completes (.planSwitchRequest via plan tick) s fun u =>
      u.opt.sw = some { plan := plan.toNat, tick := t, by_ := .cmd } ∧ u.opt.lock = some .cmd
        ∧ u.flag R.OPT_PLAN_STATUS.PENDING = true ∧ u.fld R.OPT_PLAN_STATUS.NEXT = plan.toNat ∧ SameMemory s u := by
  have hmet : ((s.setLock (some .cmd)).askSwitch plan.toNat t .cmd).opt.wins = [] := by
    rw [State.opt_askSwitch, State.opt_setLock]
    exact hwins
  refine ⟨(s.setLock (some .cmd)).askSwitch plan.toNat t .cmd, ?_, ?_⟩
  · rw [exec_planSwitchRequest, execPlanSwitchRequest, State.gate_seen hsees]
    dsimp only
    rw [← ht, if_neg (by simp [hlock, htime]), if_neg (by simp only [hvalid, not_true, or_false]; omega),
      State.moveMet_of_wins_nil hmet]
  · obtain ⟨hpending, hnext⟩ := (s.setLock (some .cmd)).fld_askSwitch plan.isLt t .cmd
    refine ⟨rfl, ?_, hpending, hnext, ((s.keepsLines_setLock (some .cmd)).trans (State.leavesThreads_askSwitch ..).2).byte⟩
    rw [State.opt_askSwitch, State.opt_setLock]

theorem execPlanSwitchRequest_lost {via : Via} {plan : BitVec 4} {tick : BitVec 56} {s : State}
    (hsees : s.sees via R.OPT_PLAN_CMD.adr true = true) (h : s.opt.lock ≠ none ∨ s.timeState = tsLOST) :
    execPlanSwitchRequest via plan tick s = .next (s.setFld R.OPT_PLAN_STATUS.RESULT sNORES) := by
  rw [execPlanSwitchRequest, State.gate_seen hsees]
  dsimp only
  rw [if_pos (h.imp_left Option.isSome_iff_ne_none.mpr)]

theorem execPlanSwitchRequest_refused {via : Via} {plan : BitVec 4} {tick : BitVec 56} {s : State}
    (hsees : s.sees via R.OPT_PLAN_CMD.adr true = true) (hlock : s.opt.lock = none) (htime : s.timeState ≠ tsLOST)
    (h : s.tick / 2 ^ 56 * 2 ^ 56 + tick.toNat < s.tick + 2 ∨ s.tick + 2 ^ 20 < s.tick / 2 ^ 56 * 2 ^ 56 + tick.toNat ∨
      s.planValid plan.toNat = false) :
    execPlanSwitchRequest via plan tick s = .next (s.setFld R.OPT_PLAN_STATUS.RESULT sCHECK) := by
  rw [execPlanSwitchRequest, State.gate_seen hsees]
  dsimp only
  rw [if_neg (by simp [hlock, htime]), if_pos (by simpa using h)]

/-! Each part of a switch comes at its tick and not before (Table 11.4). -/

theorem moveCode_le (v : Nat) (d : Int) : moveCode v d ≤ 65535 := Nat.min_le_left ..

/-- A run over an empty list. -/
theorem foldl_of_eq_nil {α β : Type} {l : List α} (h : l = []) (f : β → α → β) (b : β) : l.foldl f b = b := by
  rw [h, List.foldl_nil]

/-- A switch has begun, with no channel to move. -/
def State.switchBegun (s : State) (x : PlanSwitch) : State :=
  let t := s.setSwitch { x with stage := 1, changed := [] }
  { t with swc := { t.swc with gains := [] } }

/-- The plan of a switch is in force. -/
def State.planTaken (s : State) (x : PlanSwitch) : State :=
  (s.setFld R.OPT_PLAN_STATUS.CUR x.plan).setOpt { s.opt with force := true, sw := some { x with stage := 2 } }

/-- A switch is over: none is under way, and every link is granted packets. -/
def State.switchEnded (s : State) : State :=
  let t := (s.setOpt { s.opt with sw := none }).setFld R.OPT_PLAN_STATUS.PENDING 0
  { t with swc := { t.swc with gains := [] } }

theorem State.keepsSwitch_switchCounted (s : State) :
    KeepsSwitch (s.switchEnded.count R.OPT_COUNTS.SWITCHES) (s.switchEnded.count R.OPT_COUNTS.SWITCHES).refreshLinks :=
  State.keepsSwitch_refreshLinks _

/-- With no restoring switch that waits, none comes of the end of a switch. -/
theorem State.restore_told {s : State} (h : s.opt.restore = none) (b : SwitchBy) :
    ((s.switchEnded.count R.OPT_COUNTS.SWITCHES).refreshLinks.tellSwitch b).opt.restore = none := by
  have hnone : (s.switchEnded.count R.OPT_COUNTS.SWITCHES).noneWaits := ⟨h, fun _ hx => nomatch hx⟩
  rw [State.restore_tellSwitch]
  exact (s.keepsSwitch_switchCounted.idle hnone).1

/-- The end of a switch that no collective watches shows in the optics' registers. -/
theorem State.keepsOptics_switchCounted {s : State} (h : s.col.entries = []) :
    KeepsOptics (s.switchEnded.count R.OPT_COUNTS.SWITCHES) (s.switchEnded.count R.OPT_COUNTS.SWITCHES).refreshLinks :=
  s.keepsSwitch_switchCounted.alone h

theorem State.fld_pending_switchCounted (s : State) :
    (s.switchEnded.count R.OPT_COUNTS.SWITCHES).fld R.OPT_PLAN_STATUS.PENDING = 0 := by
  have hended (t : State) : (t.setFld R.OPT_PLAN_STATUS.PENDING 0).fld R.OPT_PLAN_STATUS.PENDING = 0 := t.fld_setFld_same _ 0 (by decide)
  rw [State.fld_count, State.fld_addFld_ne _ _ (by decide)]
  exact hended _

theorem State.fld_switches_switchCounted (s : State) : (s.switchEnded.count R.OPT_COUNTS.SWITCHES).fld R.OPT_COUNTS.SWITCHES =
    (s.fld R.OPT_COUNTS.SWITCHES + 1) % 2 ^ R.OPT_COUNTS.SWITCHES.w := by
  have hended (t : State) : (t.setFld R.OPT_PLAN_STATUS.PENDING 0).fld R.OPT_COUNTS.SWITCHES = t.fld R.OPT_COUNTS.SWITCHES :=
    t.fld_setFld_ne 0 (by decide)
  have hcount : s.switchEnded.fld R.OPT_COUNTS.SWITCHES = s.fld R.OPT_COUNTS.SWITCHES := hended _
  rw [State.fld_count, State.fld_addFld_same _ _ _ (by decide), hcount]

/-- OPT_PLAN_CMD learns of its switch's end. -/
theorem State.told_cmd (t : State) :
    (t.tellSwitch .cmd).opt = { t.opt with lock := none } ∧ (t.tellSwitch .cmd).fld R.OPT_PLAN_STATUS.RESULT = sOK ∧
      KeepsLines t (t.tellSwitch .cmd) ∧ ∀ g : Field, planReg g.off → g.off ≠ R.OPT_PLAN_STATUS.adr ∨ g.lo + g.w ≤ 9 →
        (t.tellSwitch .cmd).fld g = t.fld g := by
  refine ⟨by rw [State.tellSwitch, State.opt_setLock, State.opt_setFld], ?_, ?_, fun g hg hapart => ?_⟩
  · exact (State.fld_setLock _ none (by decide)).trans (t.fld_setFld_same _ sOK (by decide))
  · have hset : KeepsLines t (t.setFld R.OPT_PLAN_STATUS.RESULT sOK) := ⟨rfl, rfl⟩
    exact hset.trans (State.keepsLines_setLock _ none)
  · refine (State.fld_setLock _ none hg).trans (t.fld_setFld_apart _ g sOK (by decide) ?_)
    exact hapart.imp_right .inl

section
variable {s : State} {x : PlanSwitch} (hsw : s.opt.sw = some x)
include hsw

/-- A switch that begins, with no channel to move: the links are shown anew. -/
theorem completes_planSwitchStart (hstage : x.stage = 0) (htick : x.tick ≤ s.tick) (hforce : s.opt.force = false)
    (htime : s.timeState ≠ tsLOST ∨ x.by_ = .restore) (hsame : s.changedLanes x.plan = []) :
    Completes .planSwitchStart s fun u =>
      u.opt.sw = some { x with stage := 1, changed := [] } ∧ u.swc.gains = [] ∧ SameMemory s u := by
  have hkept : KeepsSwitch (s.switchBegun x) (s.switchBegun x).refreshLinks.settleCredits :=
    (State.keepsSwitch_refreshLinks _).trans (State.keepsOptics_settleCredits _).keepsSwitch
  obtain ⟨⟨r, hopt⟩, -⟩ := hkept.started ⟨_, rfl, Nat.one_ne_zero⟩
  have hmem : KeepsLines s (s.switchBegun x) := ⟨rfl, rfl⟩
  have hlost : ¬ (s.timeState = tsLOST ∧ x.by_ ≠ .restore) := fun h => htime.elim (· h.1) h.2
  refine ⟨(s.switchBegun x).refreshLinks.settleCredits, ?_, congrArg OptState.sw hopt, hkept.gains, (hmem.trans hkept.lines).byte⟩
  rw [exec_planSwitchStart, execPlanSwitchStart, hsw]
  dsimp only
  rw [if_neg (by simp [hstage, hforce, htick]), if_neg hlost, hsame]
  rfl

theorem execPlanSwitchStart_early (htick : s.tick < x.tick) : execPlanSwitchStart s = .next s := by
  rw [execPlanSwitchStart, hsw]
  dsimp only
  rw [if_pos (.inr (.inl htick))]

/-- The plan of the switch is in force. -/
theorem execSwitchRetune_due (hstage : x.stage = 1) (htick : x.tick + 12 ≤ s.tick) :
    execSwitchRetune s = .next (x.changed.foldl (fun s c => s.retune c (s.planWord x.plan c))
      (s.planTaken x)).refreshLinks := by
  rw [execSwitchRetune, hsw]
  dsimp only
  rw [if_neg (by omega)]
  rfl

theorem execSwitchRetune_early (htick : s.tick < x.tick + 12) : execSwitchRetune s = .next s := by
  rw [execSwitchRetune, hsw]
  dsimp only
  rw [if_pos (.inr htick)]

theorem completes_switchRetune (hstage : x.stage = 1) (htick : x.tick + 12 ≤ s.tick) (hsame : x.changed = []) :
    Completes .switchRetune s fun u =>
      u.fld R.OPT_PLAN_STATUS.CUR = x.plan % 2 ^ R.OPT_PLAN_STATUS.CUR.w ∧ u.opt.sw = some { x with stage := 2 } ∧ u.opt.force = true
        ∧ SameMemory s u := by
  have hexec := execSwitchRetune_due hsw hstage htick
  rw [foldl_of_eq_nil hsame] at hexec
  have hkept : KeepsSwitch (s.planTaken x) (s.planTaken x).refreshLinks := State.keepsSwitch_refreshLinks _
  obtain ⟨⟨r, hopt⟩, hfld⟩ := hkept.started ⟨_, rfl, Nat.succ_ne_zero 1⟩
  have hmem : KeepsLines s (s.planTaken x) := ⟨rfl, rfl⟩
  refine ⟨_, hexec, ?_, congrArg OptState.sw hopt, congrArg OptState.force hopt, (hmem.trans hkept.lines).byte⟩
  exact (hfld _ (by decide)).trans (s.fld_setFld_same _ _ (by decide))

/-- A fine search in which no ring's lightlane is being tuned. -/
theorem execSwitchFineSearch_none {steps : List (Fin 512 × Fin 9)} (hstage : x.stage = 2) (htick : x.tick + 16 ≤ s.tick)
    (hnone : ∀ e ∈ steps, s.laneState (16 * (e.1.val / 32) + e.1.val % 16) ≠ lsRETUNE) :
    execSwitchFineSearch steps s = .next (s.setSwitch { x with stage := 3 }) := by
  rw [execSwitchFineSearch, hsw]
  dsimp only
  rw [if_neg (by omega)]
  refine congrArg Host.Outcome.next (List.foldlRecOn (motive := (· = s.setSwitch { x with stage := 3 })) _ _ rfl fun t ht e he => ?_)
  rw [ht, Nat.mod_mod_of_dvd _ (by decide : 16 ∣ 32)]
  exact if_neg (hnone e he)

/-- The fine search of a lightlane's modulator ring. -/
theorem execSwitchFineSearch_one {c : LaneNo} {k : Fin 512} {d : Fin 9} (hstage : x.stage = 2) (htick : x.tick + 16 ≤ s.tick)
    (hk : k.val = 32 * (c / 16) + c % 16) (hlane : s.laneState c = lsRETUNE) :
    execSwitchFineSearch [(k, d)] s = .next ((s.setSwitch { x with stage := 3 }).fine c false d) := by
  have hring : k.val % 32 = c.val % 16 := by omega
  have hnumber : 16 * (k.val / 32) + c.val % 16 % 16 = c.val := by omega
  rw [execSwitchFineSearch, hsw]
  dsimp only
  rw [if_neg (by omega), List.foldl_cons, List.foldl_nil]
  dsimp only
  rw [hring, hnumber, decide_eq_false (by omega)]
  exact congrArg Host.Outcome.next (if_pos hlane)

theorem completes_switchFineSearch {c : LaneNo} {k : Fin 512} {d : Fin 9} (hstage : x.stage = 2) (htick : x.tick + 16 ≤ s.tick)
    (hk : k.val = 32 * (c / 16) + c % 16) (hlane : s.laneState c = lsRETUNE) :
    Completes (.switchFineSearch [(k, d)]) s fun u => u.opt.sw = some { x with stage := 3 }
      ∧ u.fld (R.OPT_LANE_STATUS.TX_CODE c) = moveCode (s.fld (R.OPT_LANE_STATUS.TX_CODE c)) (16 * (d.val : Int) - 64)
      ∧ OnlyFields [R.OPT_LANE_STATUS.TX_CODE c] s u ∧ SameMemory s u := by
  have hfits : (R.OPT_LANE_STATUS.TX_CODE c).lo + (R.OPT_LANE_STATUS.TX_CODE c).w ≤ 64 := by simp [R.OPT_LANE_STATUS.TX_CODE]
  refine ⟨_, execSwitchFineSearch_one hsw hstage htick hk hlane, rfl, ?_, ?_, fun _ => rfl⟩
  · refine (State.fld_setFld_same _ _ _ hfits).trans (Nat.mod_eq_of_lt ?_)
    exact Nat.lt_of_le_of_lt (moveCode_le ..) (by simp [R.OPT_LANE_STATUS.TX_CODE])
  · exact OnlyFields.setFld (s := s) (u := s.setSwitch { x with stage := 3 }) (fun _ _ => rfl) List.mem_cons_self hfits _

theorem execSwitchAcquire_due (hstage : x.stage = 3) (htick : x.tick + 18 ≤ s.tick) :
    execSwitchAcquire s = .next (x.changed.foldl (fun s c =>
      if s.laneState c = lsRETUNE then ((s.acquireRing c false).acquireRing c true).verify c false true else s)
      (s.setSwitch { x with stage := 4 })) := by
  rw [execSwitchAcquire, hsw]
  dsimp only
  rw [if_neg (by omega)]

theorem execSwitchComplete_due (hstage : x.stage = 4) (htick : x.tick + 25 ≤ s.tick) (hsame : x.changed = [])
    (hrestore : s.opt.restore = none) :
    execSwitchComplete s = .next ((s.switchEnded.count R.OPT_COUNTS.SWITCHES).refreshLinks.tellSwitch x.by_) := by
  have htold := State.restore_told hrestore x.by_
  rw [execSwitchComplete, hsw]
  dsimp only
  rw [if_neg (not_not_intro (.inr ⟨hstage, htick⟩)), foldl_of_eq_nil hsame]
  rw [State.switchEnded] at htold ⊢
  dsimp only at htold ⊢
  rw [htold]

theorem execSwitchComplete_early (hstage : x.stage = 4) (htick : s.tick < x.tick + 25) : execSwitchComplete s = .next s := by
  rw [execSwitchComplete, hsw]
  dsimp only
  rw [if_pos]
  rintro (⟨h, -⟩ | ⟨-, h⟩)
  · simp [hstage] at h
  · omega

theorem completes_switchComplete (hstage : x.stage = 4) (htick : x.tick + 25 ≤ s.tick) (hsame : x.changed = []) (hby : x.by_ = .cmd)
    (hrestore : s.opt.restore = none) (hcol : s.col.entries = []) :
    Completes .switchComplete s fun u => u.opt.sw = none ∧ u.opt.lock = none ∧ u.flag R.OPT_PLAN_STATUS.PENDING = false
      ∧ u.fld R.OPT_PLAN_STATUS.RESULT = sOK
      ∧ u.fld R.OPT_COUNTS.SWITCHES = (s.fld R.OPT_COUNTS.SWITCHES + 1) % 2 ^ R.OPT_COUNTS.SWITCHES.w ∧ SameMemory s u := by
  have hexec := execSwitchComplete_due hsw hstage htick hsame hrestore
  rw [hby] at hexec
  have hkept := State.keepsOptics_switchCounted hcol
  have hended : KeepsLines s (s.switchEnded.count R.OPT_COUNTS.SWITCHES) := ⟨rfl, rfl⟩
  obtain ⟨hopt, hresult, hlines, hfld⟩ := (s.switchEnded.count R.OPT_COUNTS.SWITCHES).refreshLinks.told_cmd
  refine ⟨_, hexec, ?_, congrArg OptState.lock hopt, ?_, hresult, ?_, (hended.trans (hkept.lines.trans hlines)).byte⟩
  · exact (congrArg OptState.sw hopt).trans (congrArg OptState.sw hkept.opt)
  · rw [State.flag, hfld _ (by decide) (by decide), hkept.fld _ (by decide), State.fld_pending_switchCounted]
    rfl
  · rw [hfld _ (by decide) (by decide), hkept.fld _ (by decide), State.fld_switches_switchCounted]

end

/-- Settles O41: each part of a switch is the work of Table 11.4 at its tick; the links' work at its end asks for no restoring switch. -/
theorem planSwitches : Obligations.PlanSwitches := by
  refine ⟨fun via plan tick s hsees => ?request, fun s x hsw => ?parts⟩
  case request =>
    exact ⟨fun hlock htime hlow hhigh hvalid hwins => completes_planSwitchRequest hsees hlock htime hvalid hwins rfl hlow hhigh,
      fun hlost => execPlanSwitchRequest_lost hsees hlost,
      fun hlock htime hbad => execPlanSwitchRequest_refused hsees hlock htime hbad⟩
  case parts =>
    exact ⟨completes_planSwitchStart hsw, fun _ => execPlanSwitchStart_early hsw, completes_switchRetune hsw,
      fun _ _ _ => completes_switchFineSearch hsw,
      fun hstage htick hsame => ⟨_, (execSwitchAcquire_due hsw hstage htick).trans (by rw [foldl_of_eq_nil hsame]; rfl), rfl⟩,
      completes_switchComplete hsw, execSwitchRetune_due hsw, fun _ => execSwitchRetune_early hsw,
      fun _ => execSwitchFineSearch_none hsw, execSwitchAcquire_due hsw, execSwitchComplete_due hsw, execSwitchComplete_early hsw⟩

end Sys2Proof.Machine
end

section
/-! ## What the loss of a channel and the relock of a lightlane leave of module memory (R153, R219, R265, R268, R354) -/

namespace Sys2Proof.Machine

open Sys2Proof

/-- What each step leaves, all of them leave. -/
theorem keepsLines_foldl {α : Type} {step : State → α → State} (hstep : ∀ t a, KeepsLines t (step t a)) (l : List α) (s : State) :
    KeepsLines s (l.foldl step s) :=
  List.foldlRecOn _ _ (.refl s) fun t ht a _ => ht.trans (hstep t a)

theorem State.keepsLines_setFld (s : State) (f : Field) (v : Nat) : KeepsLines s (s.setFld f v) := ⟨rfl, rfl⟩

theorem State.keepsLines_setOpt (s : State) (x : OptState) : KeepsLines s (s.setOpt x) := ⟨rfl, rfl⟩

theorem State.keepsLines_setRing (s : State) (n r : Nat) (x : Ring) : KeepsLines s (s.setRing n r x) := by
  obtain ⟨rings, acqAt, lanes, h⟩ := s.setRing_frame n r x
  rw [h]
  exact s.keepsLines_setOpt _

theorem State.keepsLines_colReplayLost (s : State) (ps : List Packet) : KeepsLines s (s.colReplayLost ps) := by
  refine keepsLines_foldl (fun t p => ?_) ps s
  split
  · exact (t.keepsSwitch_colAbort _ _).lines
  · exact .refl t

theorem State.keepsLines_colLost (s : State) (lost : Nat → Bool) : KeepsLines s (s.colLost lost) :=
  keepsLines_foldl (fun t _ => .ite (t.keepsSwitch_colAbort _ _).lines (.refl t)) _ s

theorem State.keepsLines_neighbourLost (s : State) (f cause : Nat) : KeepsLines s (s.neighbourLost f cause) := by
  have hlost (x : SwcState) : KeepsLines s { s with swc := x } := ⟨rfl, rfl⟩
  unfold State.neighbourLost
  exact .ite (.refl s) <| (hlost _).trans <| (State.keepsLines_event ..).trans (State.keepsLines_faultLog ..)

/-- With the collectives that it aborts and the links that it leaves (R153, R219, R354). -/
theorem State.keepsLines_channelDown (s : State) (c cause : Nat) : KeepsLines s (s.channelDown c cause) := by
  have hset (t : State) (f : Field) (v : Nat) := t.keepsLines_setFld f v
  have hown (t : State) (x : Chan) : KeepsLines t (((t.setChan c x).dropPool c).setStream c {}) := ⟨rfl, rfl⟩
  unfold State.channelDown
  refine .ite (.refl s) ?_
  exact (hset s _ _).trans <| (hown _ _).trans <| (hset _ _ _).trans <| (hset _ _ _).trans <| (hset _ _ _).trans <|
    (State.keepsLines_event ..).trans <| (State.keepsLines_faultLog ..).trans <| (State.keepsLines_colReplayLost ..).trans <|
    (State.keepsSwitch_refreshLinks _).lines.trans <| (State.keepsLines_colLost ..).trans (State.keepsLines_neighbourLost ..)

theorem State.keepsLines_enterLane (s : State) (c st : Nat) : KeepsLines s (s.enterLane c st) := ⟨rfl, rfl⟩

/-- A channel goes DOWN unless it is. -/
theorem State.keepsLines_downed (s : State) (c : Nat) : KeepsLines s (if s.chState c = chDOWN then s else s.channelDown c 0) :=
  .ite (.refl s) (s.keepsLines_channelDown c 0)

theorem State.keepsLines_laneFailed (s : State) (c cause : Nat) : KeepsLines s (s.laneFailed c cause) := by
  unfold State.laneFailed
  exact (s.keepsLines_downed c).trans <| (State.keepsLines_setOpt _ _).trans <| (State.keepsLines_enterLane ..).trans <|
    (State.keepsLines_setFld ..).trans <| (State.keepsLines_event ..).trans (State.keepsLines_faultLog ..)

theorem State.keepsLines_beginSweep (s : State) (c cause : Nat) (m d : Bool) : KeepsLines s (s.beginSweep c cause m d) := by
  have hring (t : State) (p : Bool) (r : Nat) : KeepsLines t (if p = true then t.setRing (c / 16) r {} else t) :=
    .ite (t.keepsLines_setRing ..) (.refl t)
  unfold State.beginSweep
  refine .ite (s.keepsLines_laneFailed c 9) ?_
  exact (s.keepsLines_downed c).trans <| (State.keepsLines_enterLane ..).trans <| (State.keepsLines_setFld ..).trans <|
    (State.keepsLines_setOpt _ _).trans <| (hring _ m _).trans <| (hring _ d _).trans <| (State.keepsLines_count ..).trans <|
    State.keepsLines_event ..

theorem State.keepsLines_relock (s : State) (c cause : Nat) (m d : Bool) : KeepsLines s (s.relock c cause m d) := by
  have hsweep (cause n : Nat) : KeepsLines s ((s.beginSweep c cause m d).setFld (R.OPT_LANE_STATUS.RELOCKS c) n) :=
    (s.keepsLines_beginSweep ..).trans (State.keepsLines_setFld ..)
  unfold State.relock
  exact .ite (.ite (s.keepsLines_laneFailed ..) (hsweep _ _)) <|
    .ite (.ite (s.keepsLines_laneFailed ..) (hsweep _ _)) (.refl s)

end Sys2Proof.Machine
end

section
/-! ## Lock-in, checks, sweeps, limits, loss and return of light (R263 to R269) -/

namespace Sys2Proof.Machine

open Sys2Proof

/-! The lock-in's window (R263 to R265). -/

theorem State.ring_setRing_same (s : State) (n r : Nat) (x : Ring) : (s.setRing n r x).ring n r = x := by
  have hput (t : State) (h : t.opt.rings = FMap.set (fun _ => {}) s.opt.rings (32 * n + r) x) : t.ring n r = x := by
    rw [State.ring, h]
    exact FMap.get_set_same ..
  unfold State.setRing
  dsimp only
  split
  · exact hput _ rfl
  split
  · exact hput _ rfl
  refine List.foldlRecOn (motive := fun t : State => t.ring n r = x) _ _ (hput _ rfl) fun t ht c _ => ?_
  split
  · exact ht
  · exact ht

theorem State.fld_setRing (s : State) (n r : Nat) (x : Ring) (g : Field) : (s.setRing n r x).fld g = s.fld g := by
  obtain ⟨rings, acqAt, lanes, h⟩ := s.setRing_frame n r x
  rw [h]
  rfl

/-- A sweep is not over while a ring of the lightlane is not locked. -/
theorem State.sweepOver_of_unlocked {s : State} {c : Nat} {drop : Bool} (h : (s.ring (c / 16) (ringNo c drop)).locked = false) :
    s.sweepOver c = s := by
  refine if_neg ?_
  rintro ⟨-, -, -, hm, hd⟩
  cases drop with
  | false => exact absurd (hm.symm.trans h) (by decide)
  | true => exact absurd (hd.symm.trans h) (by decide)

section
variable {c : LaneNo} {drop : Bool} {err : BitVec 16} {s : State}

theorem off_codeField (c : Nat) (drop : Bool) : (codeField c drop).off = R.OPT_LANE_STATUS.adr c := by cases drop <;> rfl

theorem codeField_fits (c : Nat) (drop : Bool) : (codeField c drop).lo + (codeField c drop).w ≤ 64 ∧ (codeField c drop).w = 16 := by
  cases drop <;> simp [codeField, R.OPT_LANE_STATUS.TX_CODE, R.OPT_LANE_STATUS.RX_CODE]

/-- The code that the lock-in gives a ring for an error that is a whole number of codes. -/
def State.lockCode (s : State) (c : Nat) (drop : Bool) (err : Int) : Nat :=
  moveCode (s.fld (codeField c drop)) (max (-64) (min 64 (err / (2 ^ s.fld R.OPT_RING_CTL.GAIN : Nat))))

/-- A ring with the lock-in's code and record. -/
def State.ringLocking (s : State) (c : Nat) (drop : Bool) (code : Nat) (y : Ring) : State :=
  (s.fresh.2.setFld (codeField c drop) code).setRing (c / 16) (ringNo c drop) y

theorem State.fld_codeField_ringLocking (s : State) (c : Nat) (drop : Bool) {code : Nat} (hcode : code ≤ 65535) (y : Ring) :
    (s.ringLocking c drop code y).fld (codeField c drop) = code := by
  obtain ⟨hfits, hwidth⟩ := codeField_fits c drop
  rw [State.ringLocking, State.fld_setRing, State.fld_setFld_same _ _ _ hfits, hwidth]
  omega

theorem State.keepsLines_ringLocking (s : State) (c : Nat) (drop : Bool) (code : Nat) (y : Ring) :
    KeepsLines s (s.ringLocking c drop code y) := by
  have hset : KeepsLines s (s.fresh.2.setFld (codeField c drop) code) := ⟨rfl, rfl⟩
  exact hset.trans (State.keepsLines_setRing ..)

/-- A ring's record after the first window of its lock-in, where it is not locked yet. -/
def State.firstWindow (s : State) (c : Nat) (drop : Bool) (err : Int) : Ring :=
  let x := s.ring (c / 16) (ringNo c drop)
  { good := if err.natAbs < 2 * 2 ^ s.fld R.OPT_RING_CTL.GAIN then 1 else 0, power := x.power,
    winAt := x.winAt + 1024 * ((s.tick - x.winAt) / 1024) }

/-- The first window of a ring in lock-in moves its heater by the error and does not lock it. -/
theorem execRingLockWindow_first (hwin : (s.ring (c / 16) (ringNo c drop)).winAt + 1024 ≤ s.tick) (haway : s.mgtAway = false)
    (hunder : s.underLock c drop = true) (hlocked : (s.ring (c / 16) (ringNo c drop)).locked = false)
    (hgood : (s.ring (c / 16) (ringNo c drop)).good = 0) (hacq : (s.ring (c / 16) (ringNo c drop)).acq = 0)
    (hwhole : ∃ k : Int, err.toInt = k * (2 ^ s.fld R.OPT_RING_CTL.GAIN : Nat)) (power : BitVec 16) :
    execRingLockWindow c drop err power s = .next
      (let code := s.lockCode c drop err.toInt
       let t := s.ringLocking c drop code (s.firstWindow c drop err.toInt)
       if (code == 0 || code == 65535) = true ∧ t.laneState c = lsUP then t.relockB c 6 else t.sweepOver c) := by
  have hexact : err.toInt % ((2 ^ s.fld R.OPT_RING_CTL.GAIN : Nat) : Int) = 0 := by
    obtain ⟨k, hk⟩ := hwhole
    rw [hk, Int.mul_emod_left]
  have hdue : ¬ (s.tick < (s.ring (c / 16) (ringNo c drop)).winAt + 1024 ∨ s.mgtAway = true ∨ ¬ s.underLock c drop = true) := by
    simp only [haway, hunder, not_true, Bool.false_eq_true, or_false]
    omega
  have hfew (p : Prop) [Decidable p] : decide (2 ≤ if p then 0 + 1 else 0) = false := by split <;> rfl
  have htick (v : Nat) : (s.fresh.2.setFld (codeField c drop) v).tick = s.tick :=
    State.fld_setFld_ne _ v (by rw [off_codeField]; simp only [R.GLB_TICK.TICK, R.GLB_TICK.adr, R.OPT_LANE_STATUS.adr]; omega)
  have hnone : decide (2 ≤ 0) = false := rfl
  rw [execRingLockWindow, if_neg hdue]
  dsimp only
  simp only [hlocked, hgood, hacq, Nat.lt_irrefl, if_false, mul_one, hexact, if_true, add_zero, hfew, hnone, Bool.false_or, Bool.or_false,
    Bool.false_and, Bool.false_eq_true, false_and, Nat.zero_add, State.fld_fresh, htick]
  rfl

/-- A ring's first window leaves module memory; its code stands unless it is at an end of the DAC's range. -/
theorem completes_ringLockWindow (hwin : (s.ring (c / 16) (ringNo c drop)).winAt + 1024 ≤ s.tick) (haway : s.mgtAway = false)
    (hunder : s.underLock c drop = true) (hlocked : (s.ring (c / 16) (ringNo c drop)).locked = false)
    (hgood : (s.ring (c / 16) (ringNo c drop)).good = 0) (hacq : (s.ring (c / 16) (ringNo c drop)).acq = 0)
    (hwhole : ∃ k : Int, err.toInt = k * (2 ^ s.fld R.OPT_RING_CTL.GAIN : Nat)) (power : BitVec 16) :
    Completes (.ringLockWindow c drop err power) s fun u => SameMemory s u ∧
      (0 < s.lockCode c drop err.toInt → s.lockCode c drop err.toInt < 65535 →
        u.fld (codeField c drop) = s.lockCode c drop err.toInt) := by
  have hexec := execRingLockWindow_first hwin haway hunder hlocked hgood hacq hwhole power
  generalize s.lockCode c drop err.toInt = code at hexec ⊢
  have hunlocked : ((s.ringLocking c drop code (s.firstWindow c drop err.toInt)).ring (c / 16) (ringNo c drop)).locked = false := by
    rw [State.ringLocking, State.ring_setRing_same]
    rfl
  have hlines := s.keepsLines_ringLocking c drop code (s.firstWindow c drop err.toInt)
  have hcode (h : code ≤ 65535) := s.fld_codeField_ringLocking c drop h (s.firstWindow c drop err.toInt)
  dsimp only at hexec
  generalize s.ringLocking c drop code (s.firstWindow c drop err.toInt) = t at hexec hunlocked hlines hcode
  rw [State.sweepOver_of_unlocked hunlocked] at hexec
  refine ⟨_, hexec, ?_, fun hpos hmax => ?_⟩
  · exact (hlines.trans (.ite (t.keepsLines_relock ..) (.refl t))).byte
  · have hinside : ¬ ((code == 0 || code == 65535) = true ∧ t.laneState c = lsUP) := by
      simp only [Bool.or_eq_true, beq_iff_eq]
      omega
    rw [if_neg hinside]
    exact hcode (Nat.le_of_lt hmax)

end

/-! Pilots and identity (R266, R267). -/

/-- In UP a pilot check that both rings pass starts the counts of failures anew. -/
theorem execPilotCheck_passed {c : LaneNo} {tb rb : BitVec 5} {tl rl : BitVec 16} {s : State} (hup : s.laneState c = lsUP)
    (hdue : (s.lane c).pilotAt + 4 ≤ s.tick) (hm : passA (lwTx (s.laneWord c)) tb tl = true)
    (hd : passA (lwRx (s.laneWord c)) rb rl = true) :
    execPilotCheck c tb tl rb rl s = .next ((s.setFld (R.OPT_LANE_STATUS.CHK_A c) 1).setLane c { s.lane c with
      failM := 0, failD := 0, pilotAt := (s.lane c).pilotAt + 4 * ((s.tick - (s.lane c).pilotAt) / 4) }) := by
  have hverify : s.laneState c ≠ lsVERIFY := by rw [hup]; decide
  rw [execPilotCheck]
  dsimp only
  rw [if_neg (by omega), if_neg hverify, if_pos hup, hm, hd]
  rfl

theorem execPilotCheck_early {c : LaneNo} {s : State} (h : s.tick < (s.lane c).pilotAt + 4) (tb rb : BitVec 5) (tl rl : BitVec 16) :
    execPilotCheck c tb tl rb rl s = .next s := by
  rw [execPilotCheck]
  dsimp only
  rw [if_pos h]

/-- An IDENT has come on a lightlane's channel. -/
def State.identTaken (s : State) (c : Nat) (b : IdentBlock) : State :=
  (s.setChan c { s.chan c with ident := some b }).setFld (R.SWC_CH_STATUS.PEER c) b.feid.toNat

theorem State.fld_identTaken_ne (s : State) (c : Nat) (b : IdentBlock) {g : Field} (h : g.off ≠ R.SWC_CH_STATUS.adr c) :
    (s.identTaken c b).fld g = s.fld g := State.fld_setFld_ne _ _ h

section
variable {c : LaneNo} {b : IdentBlock} {s : State}

/-- The registers of the optics are not those of a channel. -/
theorem State.fld_identTaken_light (s : State) (c : LaneNo) (b : IdentBlock) {g : Field} (h : R.OPT_PLAN_CTL.adr ≤ g.off) :
    (s.identTaken c b).fld g = s.fld g := by
  refine s.fld_identTaken_ne c b ?_
  simp only [R.OPT_PLAN_CTL.adr] at h
  simp only [R.SWC_CH_STATUS.adr]
  omega

/-- Check B has passed on an IDENT. -/
def State.identPassed (s : State) (c : Nat) (b : IdentBlock) : State := (s.identTaken c b).setFld (R.OPT_LANE_STATUS.CHK_B c) 1

theorem State.fld_identPassed_ne (s : State) (c : LaneNo) (b : IdentBlock) {g : Field} (hlane : g.off ≠ R.OPT_LANE_STATUS.adr c)
    (hch : g.off ≠ R.SWC_CH_STATUS.adr c) : (s.identPassed c b).fld g = s.fld g :=
  (State.fld_setFld_ne _ 1 hlane).trans (s.fld_identTaken_ne c b hch)

theorem State.checkB_identTaken (s : State) (c : LaneNo) (b b' : IdentBlock) : (s.identTaken c b).checkB c b' = s.checkB c b' := by
  have hcur := s.fld_identTaken_light c b (g := R.OPT_PLAN_STATUS.CUR) (by decide)
  have hword : (s.identTaken c b).laneWord c = s.laneWord c := by
    rw [State.laneWord, hcur]
    rfl
  rw [State.checkB, hword, State.checkB]

theorem State.laneState_identPassed (s : State) (c : LaneNo) (b : IdentBlock) : (s.identPassed c b).laneState c = s.laneState c := by
  refine (State.fld_setFld_apart _ _ _ 1 ?_ ?_).trans (s.fld_identTaken_light c b ?_)
  · simp [R.OPT_LANE_STATUS.CHK_B]
  · simp [R.OPT_LANE_STATUS.CHK_B, R.OPT_LANE_STATUS.STATE]
  · simp only [R.OPT_PLAN_CTL.adr, R.OPT_LANE_STATUS.STATE, R.OPT_LANE_STATUS.adr]
    omega

theorem State.chState_identPassed (s : State) (c : LaneNo) (b : IdentBlock) : (s.identPassed c b).chState c = s.chState c := by
  refine (State.fld_setFld_ne _ 1 ?_).trans (State.fld_setFld_apart _ _ _ _ ?_ ?_)
  · simp only [R.SWC_CH_STATUS.STATE, R.SWC_CH_STATUS.adr, R.OPT_LANE_STATUS.CHK_B, R.OPT_LANE_STATUS.adr]
    omega
  · simp [R.SWC_CH_STATUS.PEER]
  · simp [R.SWC_CH_STATUS.PEER, R.SWC_CH_STATUS.STATE]

theorem State.inTest_identPassed (s : State) (c : LaneNo) (b : IdentBlock) : (s.identPassed c b).inTest c = s.inTest c := by
  have htest := s.fld_identPassed_ne c b (g := R.OPT_LANE_TEST.TEST c)
    (by simp only [R.OPT_LANE_TEST.TEST, R.OPT_LANE_TEST.adr, R.OPT_LANE_STATUS.adr]; omega)
    (by simp only [R.OPT_LANE_TEST.TEST, R.OPT_LANE_TEST.adr, R.SWC_CH_STATUS.adr]; omega)
  rw [State.inTest, State.flag, htest]
  rfl

theorem State.ttOff_identPassed (s : State) (c : LaneNo) (b : IdentBlock) (port : Nat) :
    (s.identPassed c b).ttOff port = s.ttOff port := by
  have htime {g : Field} (hg : g.off = R.GLB_TIME_CTL.adr) := s.fld_identPassed_ne c b (g := g)
    (by simp only [hg, R.GLB_TIME_CTL.adr, R.OPT_LANE_STATUS.adr]; omega)
    (by simp only [hg, R.GLB_TIME_CTL.adr, R.SWC_CH_STATUS.adr]; omega)
  rw [State.ttOff, htime rfl, htime rfl, State.ttOff]

/-- Check B passes on an IDENT that the plan names, in UP. -/
theorem State.judgeB_passed (hup : s.laneState c = lsUP) (htest : s.inTest c = false) (hcheck : s.checkB c b = true)
    (hch : s.chState c = chUP) : (s.identTaken c b).judgeB c b = s.identPassed c b := by
  have hup' := (s.laneState_identPassed c b).trans hup
  have htest' := (s.inTest_identPassed c b).trans htest
  have hch' : (s.identPassed c b).chState c ≠ chTRAINING := by rw [s.chState_identPassed c b, hch]; decide
  have hshown : (s.identTaken c b).setFld (R.OPT_LANE_STATUS.CHK_B c) (b2n true) = s.identPassed c b := rfl
  rw [State.judgeB, State.checkB_identTaken, hcheck, hshown, if_neg (ne_true_of_eq_false htest'), if_pos hup', if_neg (not_not_intro rfl), if_neg hch']

theorem execIdentBlock_passed {ch : Channel} (hval : ch.val = c.val) (hoff : s.ttOff (portCode ch) = true)
    (hup : s.laneState c = lsUP) (htest : s.inTest c = false) (hcheck : s.checkB c b = true) (hch : s.chState c = chUP) :
    execIdentBlock ch b s = .next (s.identPassed c b) := by
  have hjudged := State.judgeB_passed hup htest hcheck hch
  have hlight : c.val < 256 := c.isLt
  rw [State.identTaken] at hjudged
  rw [execIdentBlock, hval]
  dsimp only
  rw [if_pos hlight, hjudged, State.ttOff_identPassed, if_pos (hval ▸ hoff)]

theorem completes_identBlock {ch : Channel} (hval : ch.val = c.val) (hoff : s.ttOff (portCode ch) = true)
    (htest : s.inTest c = false) (hup : s.laneState c = lsUP) (hcheck : s.checkB c b = true) (hch : s.chState c = chUP) :
    Completes (.identBlock ch b) s fun u => (u.chan ch).ident = some b ∧ u.fld (R.SWC_CH_STATUS.PEER ch) = b.feid.toNat
      ∧ u.flag (R.OPT_LANE_STATUS.CHK_B c) = true ∧ u.laneState c = lsUP ∧ SameMemory s u := by
  have hchan : (s.identPassed c b).chan c = { s.chan c with ident := some b } := s.chan_setChan_same c _
  have hcheckB : (s.identPassed c b).fld (R.OPT_LANE_STATUS.CHK_B c) = 1 :=
    State.fld_setFld_same _ _ 1 (by simp [R.OPT_LANE_STATUS.CHK_B])
  refine ⟨_, execIdentBlock_passed hval hoff hup htest hcheck hch, ?_, ?_, ?_, (s.laneState_identPassed c b).trans hup, fun _ => rfl⟩
  · rw [hval, hchan]
  · rw [hval]
    refine (State.fld_setFld_ne _ 1 ?_).trans <| (State.fld_setFld_same _ _ _ ?_).trans (Nat.mod_eq_of_lt b.feid.isLt)
    · simp only [R.SWC_CH_STATUS.PEER, R.SWC_CH_STATUS.adr, R.OPT_LANE_STATUS.CHK_B, R.OPT_LANE_STATUS.adr]
      omega
    · simp [R.SWC_CH_STATUS.PEER]
  · rw [State.flag, hcheckB]
    rfl

end

/-! The sweep of a ring that no plan uses (R268, Table 11.5). -/

/-- The calibration code of a line as a sweep has found it. -/
def State.takeCode (n r codes : Nat) (s : State) (k : Nat) : State := s.setCal n r k (getBits codes (16 * k) 16)

/-- A ring's calibration codes as its sweep has found them. -/
def State.calibrated (s : State) (n r codes : Nat) : State := (upFrom 0 32).foldl (State.takeCode n r codes) s

theorem calCode_fits (n r : Nat) (k : Nat) : (R.OPT_RING_CAL.CODE n r (k / 4) (k % 4)).lo + 16 ≤ 64 := by
  simp only [R.OPT_RING_CAL.CODE]
  omega

theorem State.calCode_setCal_same (s : State) (n r k : Nat) {v : Nat} (hv : v < 2 ^ 16) : (s.setCal n r k v).calCode n r k = v :=
  (s.fld_setFld_same _ v (calCode_fits n r k)).trans (Nat.mod_eq_of_lt hv)

theorem State.calCode_setCal_ne (s : State) (n r v : Nat) {j k : Nat} (h : j ≠ k) :
    (s.setCal n r k v).calCode n r j = s.calCode n r j := by
  refine s.fld_setFld_apart _ _ v (calCode_fits n r k) ?_
  simp only [R.OPT_RING_CAL.CODE, R.OPT_RING_CAL.adr]
  omega

theorem State.calCode_calibrated (s : State) (n r codes : Nat) {k : Nat} (hk : k < 32) :
    (s.calibrated n r codes).calCode n r k = getBits codes (16 * k) 16 := by
  have hat (t : State) : (State.takeCode n r codes t k).calCode n r k = getBits codes (16 * k) 16 :=
    t.calCode_setCal_same n r k (getBits_lt ..)
  have hafter (t : State) (j : Nat) (hj : k < j) (ht : t.calCode n r k = getBits codes (16 * k) 16) :
      (State.takeCode n r codes t j).calCode n r k = getBits codes (16 * k) 16 := (t.calCode_setCal_ne n r _ (Nat.ne_of_lt hj)).trans ht
  exact foldl_upFrom_at (P := fun t : State => t.calCode n r k = getBits codes (16 * k) 16) (Q := fun _ => True) (c := k)
    (fun _ _ _ _ => trivial) (fun t _ => hat t) 32 0 s (fun t j hj _ => hafter t j hj) (Nat.zero_le k) (by omega) trivial

theorem State.fld_calibrated (s : State) (n r codes : Nat) {g : Field} (h : g.off < R.OPT_RING_CAL.adr 0 0 0) :
    (s.calibrated n r codes).fld g = s.fld g := by
  refine List.foldlRecOn (motive := fun t : State => t.fld g = s.fld g) _ _ rfl fun t ht k _ => (t.fld_setFld_ne _ ?_).trans ht
  simp only [R.OPT_RING_CAL.adr] at h
  simp only [R.OPT_RING_CAL.CODE, R.OPT_RING_CAL.adr]
  omega

theorem State.keepsLines_calibrated (s : State) (n r codes : Nat) : KeepsLines s (s.calibrated n r codes) :=
  keepsLines_foldl (fun t _ => t.keepsLines_setFld _ _) _ s

section
variable {c : LaneNo} {s : State} (hoff : s.laneState c = lsOFF)
include hoff

theorem State.laneState_calibrated (r codes : Nat) : (s.calibrated (c / 16) r codes).laneState c = lsOFF := by
  refine (s.fld_calibrated _ r codes ?_).trans hoff
  simp only [R.OPT_LANE_STATUS.STATE, R.OPT_LANE_STATUS.adr, R.OPT_RING_CAL.adr]
  omega

theorem execRingSweepDone_off (hsweep : (s.lane c).sweepD = true) (hdue : (s.lane c).sweepAt + s.fld R.OPT_RING_CTL.SWEEP_TICKS ≤ s.tick)
    (codes : BitVec 512) (found : Bool) (fine : Fin 9) : execRingSweepDone c true codes found fine s =
      .next ((s.calibrated (c / 16) (ringNo c true) codes.toNat).setLane c { s.lane c with sweepD := false }) := by
  have hready : ¬ ((s.laneState c ≠ lsSWEEP ∧ s.laneState c ≠ lsOFF) ∨ ¬ (if true = true then (s.lane c).sweepD else (s.lane c).sweepM)
      = true ∨ s.tick < (s.lane c).sweepAt + s.fld R.OPT_RING_CTL.SWEEP_TICKS) := by
    simp only [hoff, hsweep, if_true, not_true, ne_eq, and_false, false_or]
    omega
  have hcal := State.laneState_calibrated hoff (ringNo c true) codes.toNat
  have hfold : (upFrom 0 32).foldl (fun t k => t.setCal (c / 16) (ringNo c true) k (getBits codes.toNat (16 * k) 16)) s =
      s.calibrated (c / 16) (ringNo c true) codes.toNat := rfl
  rw [execRingSweepDone]
  dsimp only
  rw [if_neg hready, hfold, if_pos hcal, if_pos rfl]

theorem completes_ringSweepDone (hsweep : (s.lane c).sweepD = true)
    (hdue : (s.lane c).sweepAt + s.fld R.OPT_RING_CTL.SWEEP_TICKS ≤ s.tick) (codes : BitVec 512) (found : Bool) (fine : Fin 9) :
    Completes (.ringSweepDone c true codes found fine) s fun u =>
      (∀ k < 32, u.calCode (c / 16) (ringNo c true) k = getBits codes.toNat (16 * k) 16) ∧ (u.lane c).sweepD = false ∧ SameMemory s u := by
  have hlane (t : State) (x : OptLane) (n r k : Nat) : (t.setLane c x).calCode n r k = t.calCode n r k := rfl
  refine ⟨_, execRingSweepDone_off hoff hsweep hdue codes found fine, fun k hk => ?_, ?_, ?_⟩
  · rw [hlane, s.calCode_calibrated _ _ _ hk]
  · rw [State.lane_setLane_same]
  · exact ((s.keepsLines_calibrated ..).trans (State.keepsLines_setOpt _ _)).byte

end

/-! Limits (R265). -/

section
variable {c : LaneNo} {s : State}

theorem execVerifyTimeout_due (hverify : s.laneState c = lsVERIFY) (htest : s.inTest c = false) (hB : (s.lane c).okB = false)
    (hphase : 4 ≤ s.fld R.GLB_CRUISE_STATUS.PHASE)
    (hdue : max (s.lane c).at_ s.cru.c4At + s.fld R.OPT_RING_CTL.VERIFY_TICKS ≤ s.tick) :
    execVerifyTimeout c s = .next (s.relockB c 4) := by
  rw [execVerifyTimeout]
  dsimp only
  rw [if_pos ⟨hverify, ne_true_of_eq_false htest, ne_true_of_eq_false hB, hphase, hdue⟩]

theorem execVerifyTimeout_early (h : s.fld R.GLB_CRUISE_STATUS.PHASE < 4 ∨
    s.tick < max (s.lane c).at_ s.cru.c4At + s.fld R.OPT_RING_CTL.VERIFY_TICKS) : execVerifyTimeout c s = .next s := by
  rw [execVerifyTimeout]
  dsimp only
  rw [if_neg]
  rintro ⟨-, -, -, hphase, hdue⟩
  omega

/-! Loss and return of light (R269). -/

/-- The loss of a lightlane's light does not show in its registers. -/
theorem execOpticalLos_marked (p1 p2 : BitVec 16) (h1 : s.dim p1 = true) (h2 : s.dim p2 = true) (hch : s.chState c ≠ chDARK) :
    execOpticalLos c p1 p2 s = .next
      (let t := s.setLane c { s.lane c with los := true }
       if s.laneState c ≠ lsUP then t
       else if s.failing c then (t.optEvent R.OPT_EVENTS.LOS).laneFailed c 9
       else (((t.channelDown c 2).optEvent R.OPT_EVENTS.LOS).verify c false false).setFld (R.OPT_LANE_STATUS.CAUSE c) 5) := by
  have hlit : ¬ (¬ s.dim p1 = true ∨ ¬ s.dim p2 = true ∨ s.chState c = chDARK) := by simp [h1, h2, hch]
  rw [execOpticalLos, if_neg hlit]
  rfl

theorem execOpticalLos_inactive (p1 p2 : BitVec 16) (h1 : s.dim p1 = true) (h2 : s.dim p2 = true) (hch : s.chState c ≠ chDARK)
    (hstate : s.laneState c ≠ lsUP) : execOpticalLos c p1 p2 s = .next (s.setLane c { s.lane c with los := true }) := by
  rw [execOpticalLos_marked p1 p2 h1 h2 hch]
  dsimp only
  rw [if_pos hstate]

theorem execOpticalLos_up (p1 p2 : BitVec 16) (h1 : s.dim p1 = true) (h2 : s.dim p2 = true) (hch : s.chState c ≠ chDARK)
    (hstate : s.laneState c = lsUP) (hfailing : s.failing c = false) : execOpticalLos c p1 p2 s =
      .next (((((s.setLane c { s.lane c with los := true }).channelDown c 2).optEvent R.OPT_EVENTS.LOS).verify c false false).setFld
        (R.OPT_LANE_STATUS.CAUSE c) 5) := by
  rw [execOpticalLos_marked p1 p2 h1 h2 hch]
  dsimp only
  rw [if_neg (not_not_intro hstate), if_neg (ne_true_of_eq_false hfailing)]

theorem execLightReturn_dark {low : BitVec 16} (h : low.toInt ≤ -(s.fld R.OPT_RING_CTL.LOS_LEVEL : Int)) :
    execLightReturn c low s = .next s := by
  rw [execLightReturn, if_pos h]

/-- The return of a lightlane's light does not show in its registers. -/
theorem execLightReturn_lit {low : BitVec 16} (h : -(s.fld R.OPT_RING_CTL.LOS_LEVEL : Int) < low.toInt) :
    execLightReturn c low s = .next
      (let t := s.setLane c { s.lane c with los := false }
       if s.laneState c = lsFAILED ∧ s.fld (R.OPT_LANE_STATUS.CAUSE c) = 5 then t.verify c true false else t) := by
  rw [execLightReturn, if_neg (Int.not_le.mpr h)]
  rfl

theorem execLightReturn_other {low : BitVec 16} (h : -(s.fld R.OPT_RING_CTL.LOS_LEVEL : Int) < low.toInt)
    (hstate : s.laneState c ≠ lsFAILED) : execLightReturn c low s = .next (s.setLane c { s.lane c with los := false }) := by
  rw [execLightReturn_lit h]
  dsimp only
  rw [if_neg fun h => hstate h.1]

theorem execLightReturn_failed {low : BitVec 16} (h : -(s.fld R.OPT_RING_CTL.LOS_LEVEL : Int) < low.toInt)
    (hstate : s.laneState c = lsFAILED) (hcause : s.fld (R.OPT_LANE_STATUS.CAUSE c) = 5) :
    execLightReturn c low s = .next ((s.setLane c { s.lane c with los := false }).verify c true false) := by
  rw [execLightReturn_lit h]
  dsimp only
  rw [if_pos ⟨hstate, hcause⟩]

/-! OPT_LANE_CMD (R265). -/

section
variable {via : Via} (hsees : s.sees via R.OPT_LANE_CMD.adr true = true)
include hsees

theorem execLaneRelock_failed (hstate : s.laneState c = lsFAILED) :
    execLaneRelock via c s = .next ((s.beginSweep c 9 true true).setFld (R.OPT_LANE_STATUS.RELOCKS c) 0) := by
  rw [execLaneRelock, State.gate_seen hsees, if_neg (not_not_intro hstate)]

theorem execLaneRelock_denied (hstate : s.laneState c ≠ lsFAILED) :
    execLaneRelock via c s = .next (s.optEvent R.OPT_EVENTS.CMD_DENY) := by
  rw [execLaneRelock, State.gate_seen hsees, if_pos hstate]

end

/-- A lightlane's registers when it has failed. -/
def State.failedShown (s : State) (c cause : Nat) : State :=
  ((s.enterLane c lsFAILED).setFld (R.OPT_LANE_STATUS.CAUSE c) cause).optEvent R.OPT_EVENTS.LANE_FAILED

theorem State.failedShown_shown (s : State) (c : LaneNo) {cause : Nat} (hcause : cause < 16) :
    (s.failedShown c cause).laneState c = lsFAILED ∧ (s.failedShown c cause).fld (R.OPT_LANE_STATUS.CAUSE c) = cause ∧
      (s.failedShown c cause).flag R.OPT_EVENTS.LANE_FAILED = true := by
  have hevent (t : State) {g : Field} (hg : g.off = R.OPT_LANE_STATUS.adr c) : (t.optEvent R.OPT_EVENTS.LANE_FAILED).fld g = t.fld g :=
    t.fld_event_ne (by decide) (by simp only [hg, R.OPT_EVENTS.LANE_FAILED, R.OPT_EVENTS.adr, R.OPT_LANE_STATUS.adr]; omega)
      (by simp only [hg, R.REL_ALERT_CAUSE.adr, R.OPT_LANE_STATUS.adr]; omega)
  refine ⟨?_, ?_, State.flag_event _ (by decide) (by decide) rfl (by decide)⟩
  · refine (hevent _ rfl).trans <| (State.fld_setFld_apart _ _ _ cause ?_ ?_).trans (s.fld_setFld_same _ lsFAILED ?_)
    all_goals simp [R.OPT_LANE_STATUS.CAUSE, R.OPT_LANE_STATUS.STATE]
  · exact (hevent _ rfl).trans <| (State.fld_setFld_same _ _ _ (by simp [R.OPT_LANE_STATUS.CAUSE])).trans (Nat.mod_eq_of_lt hcause)

/-- A fault record changes no register of the optics. -/
theorem State.fld_faultLog_light (s : State) (code tag kind number info0 info1 : Nat) {g : Field}
    (h : R.OPT_PLAN_CTL.adr ≤ g.off ∧ g.off < R.REL_ALERT_CAUSE.adr) :
    (s.faultLog code tag kind number info0 info1).fld g = s.fld g := by
  refine (s.keepsTime_faultLog ..).2.2 g fun hg => ?_
  simp only [timeEventRegs, List.mem_cons, List.not_mem_nil, or_false, R.GLB_TIME_EVENTS.adr, R.REL_ALERT_CAUSE.adr, R.REL_LOG_IDX.adr] at hg
  simp only [R.OPT_PLAN_CTL.adr, R.REL_ALERT_CAUSE.adr] at h
  omega

theorem State.laneFailed_shown (s : State) (c : LaneNo) {cause : Nat} (hcause : cause < 16) :
    (s.laneFailed c cause).laneState c = lsFAILED ∧ (s.laneFailed c cause).fld (R.OPT_LANE_STATUS.CAUSE c) = cause ∧
      (s.laneFailed c cause).flag R.OPT_EVENTS.LANE_FAILED = true := by
  have hlane {g : Field} (hg : g.off = R.OPT_LANE_STATUS.adr c) : R.OPT_PLAN_CTL.adr ≤ g.off ∧ g.off < R.REL_ALERT_CAUSE.adr := by
    simp only [hg, R.OPT_PLAN_CTL.adr, R.OPT_LANE_STATUS.adr, R.REL_ALERT_CAUSE.adr]
    omega
  have hlogged (t : State) (code kind number info : Nat) :
      (t.failedShown c cause |>.faultLog code 0 kind number info 0).laneState c = lsFAILED ∧
        (t.failedShown c cause |>.faultLog code 0 kind number info 0).fld (R.OPT_LANE_STATUS.CAUSE c) = cause ∧
        (t.failedShown c cause |>.faultLog code 0 kind number info 0).flag R.OPT_EVENTS.LANE_FAILED = true := by
    rw [State.laneState, State.flag, State.fld_faultLog_light _ _ _ _ _ _ _ (hlane rfl), State.fld_faultLog_light _ _ _ _ _ _ _ (hlane rfl),
      State.fld_faultLog_light _ _ _ _ _ _ _ (by decide)]
    exact t.failedShown_shown c hcause
  unfold State.laneFailed
  exact hlogged ..

theorem completes_laneFail {via : Via} (hsees : s.sees via R.OPT_LANE_CMD.adr true = true) (hdown : s.chUp c = false) :
    Completes (.laneFail via c) s fun u => u.laneState c = lsFAILED ∧ u.fld (R.OPT_LANE_STATUS.CAUSE c) = 9
      ∧ u.flag R.OPT_EVENTS.LANE_FAILED = true ∧ SameMemory s u := by
  have hexec : execLaneFail via c s = .next (s.laneFailed c 9) := by
    rw [execLaneFail, State.gate_seen hsees, if_neg (ne_true_of_eq_false hdown)]
  obtain ⟨hstate, hcause, hevent⟩ := s.laneFailed_shown c (cause := 9) (by decide)
  exact ⟨_, hexec, hstate, hcause, hevent, (s.keepsLines_laneFailed c 9).byte⟩

end

/-- Settles O42: the window, the checks and the limits at their ticks; what a channel's loss does to its lightlane leaves module memory. -/
theorem lightlanes : Obligations.Lightlanes := by
  refine ⟨fun c drop err power s hwin haway hunder hlocked hgood hacq hwhole _ =>
      completes_ringLockWindow hwin haway hunder hlocked hgood hacq hwhole power,
    fun c tb rb tl rl s hup hdue hm hd => execPilotCheck_passed hup hdue hm hd,
    fun c tb rb tl rl s hearly => execPilotCheck_early hearly tb rb tl rl,
    fun c b ch s hval hoff htest hup hcheck hch => completes_identBlock hval hoff htest hup hcheck hch,
    fun c codes found fine s hoff hsweep hdue => completes_ringSweepDone hoff hsweep hdue codes found fine,
    fun c s hverify htest hB hphase => ⟨execVerifyTimeout_due hverify htest hB hphase, fun hearly => execVerifyTimeout_early (.inr hearly)⟩,
    fun c s hphase => execVerifyTimeout_early (.inl hphase),
    fun c p1 p2 s h1 h2 hch => ⟨execOpticalLos_inactive p1 p2 h1 h2 hch, execOpticalLos_up p1 p2 h1 h2 hch⟩,
    fun c low s => execLightReturn_dark, fun c low s hlit => ⟨execLightReturn_other hlit, execLightReturn_failed hlit⟩,
    fun via c s hsees => ⟨execLaneRelock_failed hsees, execLaneRelock_denied hsees, completes_laneFail hsees⟩⟩

end Sys2Proof.Machine
end

section
/-! ## What every command keeps: canonical form and the queue

`KeepsForm s t` says of a state `t` that is made from `s` what `StepsKeepCanonicalForm` asks: HBM and the register file stay in canonical
form, and the same commands wait. Registers and HBM are written by `setReg`, `putBytes` and `zeroBytes` alone, so the three rules about them,
and those for the ways a function puts states together, carry it through every function of the model. Each function has one rule:
`KeepsForm.f` for a function that gives a state, `KeepsForm.engF` and `KeepsForm.runF` for one that gives an engine's or a collective's run,
`EndsInForm.c` for a command. They stand in the order of the model. -/

namespace Sys2Proof.Machine

open Sys2Proof

/-- `t` has HBM and the register file in canonical form where `s` has, and the commands that wait in `s` wait in `t`. -/
def KeepsForm (s t : State) : Prop :=
  (Memory.wf s.hbm = true → Memory.wf t.hbm = true) ∧ (Registers.wf s.regs = true → Registers.wf t.regs = true) ∧
    t.pending = s.pending

variable {s0 s : State}

theorem KeepsForm.refl (s : State) : KeepsForm s s := ⟨id, id, rfl⟩

theorem KeepsForm.trans {a b c : State} (hab : KeepsForm a b) (hbc : KeepsForm b c) : KeepsForm a c :=
  ⟨fun h => hbc.1 (hab.1 h), fun h => hbc.2.1 (hab.2.1 h), hbc.2.2.trans hab.2.2⟩

/-- Whatever else of the state is replaced. -/
theorem KeepsForm.update {units poison shadow threads watch reports icache descs xlt siv skids slots home swc rel pwr hst sec ldl
    col tel tim cru opt elk mgt jtag issued free out} (hs : KeepsForm s0 s) :
    KeepsForm s0 { regs := s.regs, hbm := s.hbm, units, poison, shadow, threads, watch, reports, icache, descs, xlt, siv, skids,
                   slots, home, swc, rel, pwr, hst, sec, ldl, col, tel, tim, cru, opt, elk, mgt, jtag, issued, free, out,
                   pending := s.pending } :=
  hs

theorem KeepsForm.setReg (hs : KeepsForm s0 s) {o : Nat} {v : Word} : KeepsForm s0 (s.setReg o v) :=
  ⟨hs.1, fun h => FMap.wf_set _ _ _ (hs.2.1 h), hs.2.2⟩

theorem KeepsForm.putBytes (hs : KeepsForm s0 s) {a : Nat} {bs : List Byte} : KeepsForm s0 (s.putBytes a bs) :=
  ⟨fun h => s.wf_putBytes a bs (hs.1 h), by rw [State.regs_putBytes]; exact hs.2.1, by rw [State.pending_putBytes]; exact hs.2.2⟩

theorem KeepsForm.zeroBytes (hs : KeepsForm s0 s) {a n : Nat} : KeepsForm s0 (s.zeroBytes a n) :=
  ⟨fun h => s.wf_zeroBytes a n (hs.1 h), hs.2⟩

theorem KeepsForm.ite {c : Prop} [Decidable c] {a b : State} (ha : KeepsForm s0 a) (hb : KeepsForm s0 b) :
    KeepsForm s0 (if c then a else b) := by
  split <;> assumption

theorem KeepsForm.ite_fst {α : Type} {c : Prop} [Decidable c] {a b : State × α} (ha : KeepsForm s0 a.1) (hb : KeepsForm s0 b.1) :
    KeepsForm s0 (if c then a else b).1 := by
  split <;> assumption

theorem KeepsForm.foldl {α : Type} {f : State → α → State} {l : List α} (hs : KeepsForm s0 s)
    (hf : ∀ {t x}, KeepsForm s0 t → KeepsForm s0 (f t x)) : KeepsForm s0 (l.foldl f s) :=
  List.foldlRecOn l f hs fun _ ht _ _ => hf ht

/-- A run of steps that carry a state `v`. -/
theorem KeepsForm.foldl_of {α β : Type} (v : β → State) {f : β → α → β} {l : List α} {b : β} (hs : KeepsForm s0 (v b))
    (hf : ∀ {b x}, KeepsForm s0 (v b) → KeepsForm s0 (v (f b x))) : KeepsForm s0 (v (l.foldl f b)) :=
  List.foldlRecOn (motive := fun b => KeepsForm s0 (v b)) l f hs fun _ hb _ _ => hf hb

theorem KeepsForm.foldl_fst {α β : Type} {f : State × β → α → State × β} {l : List α} {p : State × β} (hs : KeepsForm s0 p.1)
    (hf : ∀ {p x}, KeepsForm s0 p.1 → KeepsForm s0 (f p x).1) : KeepsForm s0 (l.foldl f p).1 :=
  foldl_of Prod.fst hs hf

theorem KeepsForm.foldl_snd {α β : Type} {f : β × State → α → β × State} {l : List α} {p : β × State} (hs : KeepsForm s0 p.2)
    (hf : ∀ {p x}, KeepsForm s0 p.2 → KeepsForm s0 (f p x).2) : KeepsForm s0 (l.foldl f p).2 :=
  foldl_of Prod.snd hs hf

theorem KeepsForm.foldl_eng {α : Type} {f : Eng → α → Eng} {l : List α} {e : Eng} (hs : KeepsForm s0 e.s)
    (hf : ∀ {e x}, KeepsForm s0 e.s → KeepsForm s0 (f e x).s) : KeepsForm s0 (l.foldl f e).s :=
  foldl_of Eng.s hs hf

theorem KeepsForm.foldl_engFst {α β : Type} {f : Eng × β → α → Eng × β} {l : List α} {p : Eng × β} (hs : KeepsForm s0 p.1.s)
    (hf : ∀ {p x}, KeepsForm s0 p.1.s → KeepsForm s0 (f p x).1.s) : KeepsForm s0 (l.foldl f p).1.s :=
  foldl_of (fun p : Eng × β => p.1.s) hs hf

theorem KeepsForm.foldl_run {α : Type} {f : ColRun → α → ColRun} {l : List α} {r : ColRun} (hs : KeepsForm s0 r.g.s)
    (hf : ∀ {r x}, KeepsForm s0 r.g.s → KeepsForm s0 (f r x).g.s) : KeepsForm s0 (l.foldl f r).g.s :=
  foldl_of (fun r : ColRun => r.g.s) hs hf

theorem KeepsForm.foldl_runFst {α β : Type} {f : ColRun × β → α → ColRun × β} {l : List α} {p : ColRun × β}
    (hs : KeepsForm s0 p.1.g.s) (hf : ∀ {p x}, KeepsForm s0 p.1.g.s → KeepsForm s0 (f p x).1.g.s) :
    KeepsForm s0 (l.foldl f p).1.g.s :=
  foldl_of (fun p : ColRun × β => p.1.g.s) hs hf

/-- An engine's run that comes first in a pair. -/
theorem KeepsForm.of_eng {α : Type} {p : Eng × α} {e : Eng} {a : α} (hs : KeepsForm s0 p.1.s) (h : p = (e, a)) :
    KeepsForm s0 e.s := by
  subst h; exact hs

theorem KeepsForm.of_run {α : Type} {p : ColRun × α} {r : ColRun} {a : α} (hs : KeepsForm s0 p.1.g.s) (h : p = (r, a)) :
    KeepsForm s0 r.g.s := by
  subst h; exact hs

/-- A state that comes first in a pair. -/
theorem KeepsForm.of_fst {α : Type} {p : State × α} {t : State} {a : α} (hs : KeepsForm s0 p.1) (h : p = (t, a)) :
    KeepsForm s0 t := by
  subst h; exact hs

/-- A state that comes second in a pair. -/
theorem KeepsForm.of_snd {α : Type} {p : α × State} {t : State} {a : α} (hs : KeepsForm s0 p.2) (h : p = (a, t)) :
    KeepsForm s0 t := by
  subst h; exact hs

/-- The command answers a next state, which keeps the form of `s`. -/
def EndsInForm (s : State) (r : Result) : Prop := ∃ t, r = .next t ∧ KeepsForm s t

theorem EndsInForm.ite {c : Prop} [Decidable c] {a b : Result} (ha : EndsInForm s0 a) (hb : EndsInForm s0 b) :
    EndsInForm s0 (if c then a else b) := by
  split <;> assumption

theorem EndsInForm.next {t : State} (h : KeepsForm s t) : EndsInForm s (.next t) := ⟨t, rfl, h⟩

end Sys2Proof.Machine
end

section
/-! ## Canonical form: registers, fields and outputs -/

namespace Sys2Proof.Machine

open Sys2Proof

variable {s0 s : State}

theorem KeepsForm.setFld (hs : KeepsForm s0 s) {f : Field} {v : Nat} : KeepsForm s0 (s.setFld f v) := hs.setReg

theorem KeepsForm.raise (hs : KeepsForm s0 s) {f : Field} : KeepsForm s0 (s.raise f) := hs.setFld

theorem KeepsForm.addFld (hs : KeepsForm s0 s) {f : Field} {n : Nat} : KeepsForm s0 (s.addFld f n) := hs.setFld

theorem KeepsForm.satFld (hs : KeepsForm s0 s) {f : Field} {n : Nat} : KeepsForm s0 (s.satFld f n) := hs.setFld

theorem KeepsForm.count (hs : KeepsForm s0 s) {f : Field} {n : Nat} : KeepsForm s0 (s.count f n) := hs.addFld.update

theorem KeepsForm.fresh (hs : KeepsForm s0 s) : KeepsForm s0 s.fresh.2 := hs.update

theorem KeepsForm.tally (hs : KeepsForm s0 s) {k n : Nat} : KeepsForm s0 (s.tally k n) := hs.update

theorem KeepsForm.send (hs : KeepsForm s0 s) {o : Output} : KeepsForm s0 (s.send o) := hs.update

theorem KeepsForm.setPoison (hs : KeepsForm s0 s) {h : Nat} {v : Bool} : KeepsForm s0 (s.setPoison h v) := hs.update

theorem KeepsForm.report (hs : KeepsForm s0 s) {h : Nat} : KeepsForm s0 (s.report h) := hs.update

theorem KeepsForm.homeWrite (hs : KeepsForm s0 s) {h first count : Nat} {data : Line} {poison : Bool} :
    KeepsForm s0 (s.homeWrite h first count data poison) :=
  hs.putBytes.setPoison.report

theorem KeepsForm.setMsix (hs : KeepsForm s0 s) {n : Nat} {m : Msix} : KeepsForm s0 (s.setMsix n m) := hs.update

theorem KeepsForm.msix (hs : KeepsForm s0 s) {n v : Nat} : KeepsForm s0 (s.msix n v) := .ite hs (.ite hs.setMsix hs.send)

theorem KeepsForm.alertVectors (hs : KeepsForm s0 s) : KeepsForm s0 s.alertVectors := hs.foldl fun hs => .ite hs.msix hs

theorem KeepsForm.alarm (hs : KeepsForm s0 s) {i : Nat} : KeepsForm s0 (s.alarm i) := .ite hs.setFld.alertVectors hs.setFld

theorem KeepsForm.event (hs : KeepsForm s0 s) {f : Field} {cause : Nat} : KeepsForm s0 (s.event f cause) := hs.raise.alarm

theorem KeepsForm.linkEvent (hs : KeepsForm s0 s) {f : Field} : KeepsForm s0 (s.linkEvent f) := hs.event

theorem KeepsForm.optEvent (hs : KeepsForm s0 s) {f : Field} : KeepsForm s0 (s.optEvent f) := hs.event

theorem KeepsForm.logAdvance (hs : KeepsForm s0 s) {k : Nat} : KeepsForm s0 (s.logAdvance k) :=
  .ite hs.setFld.setFld.count.alarm hs.setFld

theorem KeepsForm.faultLog (hs : KeepsForm s0 s) {code tag kind number info0 info1 : Nat} :
    KeepsForm s0 (s.faultLog code tag kind number info0 info1) :=
  hs.update.logAdvance

theorem KeepsForm.poisonLog (hs : KeepsForm s0 s) {r : PoisonRec} : KeepsForm s0 (s.poisonLog r) := by
  unfold State.poisonLog
  split
  · exact hs.update.logAdvance.tally.alarm

theorem KeepsForm.poisonSent (hs : KeepsForm s0 s) {line sub tag : Nat} {pz : Bool} :
    KeepsForm s0 (s.poisonSent line sub tag pz) :=
  .ite hs.poisonLog hs

theorem KeepsForm.timeEvents (hs : KeepsForm s0 s) {mask : Nat} : KeepsForm s0 (s.timeEvents mask) :=
  .ite hs.setReg.alarm hs.setReg.alarm.faultLog

theorem KeepsForm.ringRecord (hs : KeepsForm s0 s) {p rec : Nat} : KeepsForm s0 (s.ringRecord p rec) :=
  .ite hs.raise (hs.putBytes.report.setFld.foldl fun hs => .ite hs.msix hs)

end Sys2Proof.Machine
end

section
/-! ## Canonical form: the debug trace and the Debug Epoch -/

namespace Sys2Proof.Machine

open Sys2Proof

variable {s0 s : State}

theorem KeepsForm.raiseEpoch (hs : KeepsForm s0 s) : KeepsForm s0 s.raiseEpoch := .ite hs hs.update

theorem KeepsForm.setTel (hs : KeepsForm s0 s) {x : TelState} : KeepsForm s0 (s.setTel x) := hs.update

theorem KeepsForm.dbgResult (hs : KeepsForm s0 s) {status : Nat} : KeepsForm s0 (s.dbgResult status) := hs.setFld.setFld

theorem KeepsForm.dbgLoad (hs : KeepsForm s0 s) {h : Nat} : KeepsForm s0 (s.dbgLoad h) := hs.setTel.dbgResult

theorem KeepsForm.dbgZero (hs : KeepsForm s0 s) : KeepsForm s0 s.dbgZero := hs.setTel

theorem KeepsForm.endSealedRead (hs : KeepsForm s0 s) {ok : Bool} : KeepsForm s0 (s.endSealedRead ok) := by
  unfold State.endSealedRead
  split
  · exact hs
  · exact .ite hs.setTel.dbgZero.dbgResult (.ite hs.setTel.dbgLoad hs.setTel.dbgLoad.dbgZero)

theorem KeepsForm.failEpoch (hs : KeepsForm s0 s) : KeepsForm s0 s.failEpoch := .ite hs hs.update.endSealedRead

theorem KeepsForm.traceRecord (hs : KeepsForm s0 s) {r : Line} : KeepsForm s0 (s.traceRecord r) :=
  .ite hs (.ite hs.update.addFld.setFld.setFld.raise hs.update.addFld)

theorem KeepsForm.capture (hs : KeepsForm s0 s) {point dir : Nat} {p : Packet} {marked : Bool} :
    KeepsForm s0 (s.capture point dir p marked) := by
  unfold State.capture
  refine .ite hs ?_
  refine .ite (.traceRecord (.traceRecord (.ite hs.fresh.raiseEpoch hs.fresh))) ?_
  exact .traceRecord (.ite hs.fresh.raiseEpoch hs.fresh)

end Sys2Proof.Machine
end

section
/-! ## Canonical form: the Switch Core -/

namespace Sys2Proof.Machine

open Sys2Proof

variable {s0 s : State}

theorem KeepsForm.noteDepth (hs : KeepsForm s0 s) {l v : Nat} : KeepsForm s0 (s.noteDepth l v) := hs.setFld.setFld.update

theorem KeepsForm.setChan (hs : KeepsForm s0 s) {c : Nat} {x : Chan} : KeepsForm s0 (s.setChan c x) := hs.update

theorem KeepsForm.freePool (hs : KeepsForm s0 s) {q : QPkt} : KeepsForm s0 (s.freePool q) := by
  unfold State.freePool
  split
  · exact hs
  · exact hs
  · exact .ite hs hs.setChan

theorem KeepsForm.noteHold (hs : KeepsForm s0 s) : KeepsForm s0 s.noteHold := hs.setFld

theorem KeepsForm.stallPkt (hs : KeepsForm s0 s) {q : QPkt} : KeepsForm s0 (s.stallPkt q) := hs.update

theorem KeepsForm.holdPkt (hs : KeepsForm s0 s) {q : QPkt} : KeepsForm s0 (s.holdPkt q) :=
  .ite hs.stallPkt hs.freePool.update.noteHold.count

theorem KeepsForm.enqueue (hs : KeepsForm s0 s) {q : QPkt} : KeepsForm s0 (s.enqueue q) := .ite hs.holdPkt hs.update.noteDepth

theorem KeepsForm.localPort (hs : KeepsForm s0 s) : KeepsForm s0 s.localPort.2 := hs.fresh

theorem KeepsForm.toLocal (hs : KeepsForm s0 s) {q : QPkt} : KeepsForm s0 (s.toLocal q) :=
  .ite hs.update.freePool (.update (.ite hs hs.localPort.capture))

theorem KeepsForm.carry (hs : KeepsForm s0 s) {q : QPkt} {a : Fate} : KeepsForm s0 (s.carry q a).1 := by
  unfold State.carry
  split
  · exact hs.enqueue
  · split
    · exact hs.freePool
    · split
      · exact hs.freePool
      · exact hs.toLocal
  · split
    · exact hs.freePool
    · exact hs.toLocal
  · refine .ite ?_ ?_
    · exact .faultLog (.linkEvent (.ite hs.freePool.count (.ite hs.freePool.count (.ite hs.freePool.count hs.freePool))))
    · refine .ite ?_ ?_
      · exact .faultLog (.linkEvent (.ite hs.freePool.count (.ite hs.freePool.count (.ite hs.freePool.count hs.freePool))))
      · refine .ite (.faultLog (.ite hs.freePool.count (.ite hs.freePool.count (.ite hs.freePool.count hs.freePool)))) ?_
        exact .ite hs.freePool.count (.ite hs.freePool.count (.ite hs.freePool.count hs.freePool))

theorem KeepsForm.enterLocal (hs : KeepsForm s0 s) {p : Packet} {marked : Bool} {arr : Option Nat} :
    KeepsForm s0 (s.enterLocal p marked arr).2 := by
  unfold State.enterLocal
  split
  · exact hs
  · exact hs.localPort.capture

theorem KeepsForm.refuse (hs : KeepsForm s0 s) {q : QPkt} {status : Nat} : KeepsForm s0 (s.refuse q status) := by
  unfold State.refuse
  refine .ite hs ?_
  dsimp only
  exact (KeepsForm.enterLocal hs).carry

theorem KeepsForm.inject (hs : KeepsForm s0 s) {q : QPkt} : KeepsForm s0 (s.inject q) := by
  unfold State.inject
  refine .ite hs.freePool ?_
  refine .ite hs.stallPkt ?_
  refine .ite hs.update.freePool.count ?_
  split
  · exact hs.carry.of_fst ‹_›
  · exact (hs.carry.of_fst ‹_›).refuse

theorem KeepsForm.sendPacket (hs : KeepsForm s0 s) {p : Packet} {marked : Bool} {arr : Option Nat} :
    KeepsForm s0 (s.sendPacket p marked arr) :=
  hs.enterLocal.inject

theorem KeepsForm.takeLocal (hs : KeepsForm s0 s) {p : Packet} : KeepsForm s0 (s.takeLocal p) := by
  unfold State.takeLocal
  split
  · exact hs
  · exact hs.update.freePool

end Sys2Proof.Machine
end

section
/-! ## Canonical form: Disil threads -/

namespace Sys2Proof.Machine

open Sys2Proof

variable {s0 s : State}

theorem KeepsForm.setThr (hs : KeepsForm s0 s) {t : Nat} {x : Thread} : KeepsForm s0 (s.setThr t x) := hs.update

theorem KeepsForm.setPc (hs : KeepsForm s0 s) {t pc : Nat} : KeepsForm s0 (s.setPc t pc) := hs.setFld

theorem KeepsForm.setTState (hs : KeepsForm s0 s) {t st reason : Nat} : KeepsForm s0 (s.setTState t st reason) :=
    hs.setFld.setFld

theorem KeepsForm.waitOn (hs : KeepsForm s0 s) {t : Nat} {w : Wait} {k : Nat} : KeepsForm s0 (s.waitOn t w k) :=
  .setTState (.setThr (.ite hs.count hs))

theorem KeepsForm.runnable (hs : KeepsForm s0 s) {t : Nat} : KeepsForm s0 (s.runnable t) := by
  unfold State.runnable
  split
  · exact hs.waitOn
  · exact hs.setThr.setTState

theorem KeepsForm.enterFaulted (hs : KeepsForm s0 s) {t cause : Nat} : KeepsForm s0 (s.enterFaulted t cause) :=
  hs.setThr.setTState.setFld

theorem KeepsForm.threadFault (hs : KeepsForm s0 s) {t cause info : Nat} : KeepsForm s0 (s.threadFault t cause info) :=
  hs.enterFaulted.ringRecord

theorem KeepsForm.trap (hs : KeepsForm s0 s) {t cause info : Nat} : KeepsForm s0 (s.trap t cause info) :=
  .ite hs.threadFault (.ite hs.threadFault hs.setThr.raise.setFld.setTState.setPc)

theorem KeepsForm.takeHeld (hs : KeepsForm s0 s) {t : Nat} : KeepsForm s0 (s.takeHeld t) := by
  unfold State.takeHeld
  dsimp only
  split
  · exact hs
  · exact .ite hs.setThr.trap hs

theorem KeepsForm.writeStatus (hs : KeepsForm s0 s) {t : Nat} {r : BitVec 5} {w : Word} :
    KeepsForm s0 (s.writeStatus t r w) :=
  hs.setThr

theorem KeepsForm.setWl (hs : KeepsForm s0 s) {w : Nat} {x : Watch} : KeepsForm s0 (s.setWl w x) := hs.update

theorem KeepsForm.unpark (hs : KeepsForm s0 s) {t : Nat} : KeepsForm s0 (s.unpark t) := .ite hs.setWl hs

theorem KeepsForm.killRequests (hs : KeepsForm s0 s) {t : Nat} : KeepsForm s0 (s.killRequests t) := hs.update

theorem KeepsForm.haltThread (hs : KeepsForm s0 s) {t : Nat} : KeepsForm s0 (s.haltThread t) :=
  hs.unpark.killRequests.setThr.setTState.setFld

theorem KeepsForm.dropLp (hs : KeepsForm s0 s) {t : Nat} : KeepsForm s0 (s.dropLp t) := by
  unfold State.dropLp
  split
  · split
    · exact .ite hs.update hs
    · exact hs
  · exact hs

theorem KeepsForm.clearThread (hs : KeepsForm s0 s) {t : Nat} : KeepsForm s0 (s.clearThread t) := hs.dropLp.setThr.setFld

theorem KeepsForm.endOp (hs : KeepsForm s0 s) {t op status detail : Nat} : KeepsForm s0 (s.endOp t op status detail) := by
  unfold State.endOp
  dsimp only
  split
  · exact hs.setThr
  · exact hs.setThr

end Sys2Proof.Machine
end

section
/-! ## Canonical form: collective entries -/

namespace Sys2Proof.Machine

open Sys2Proof

variable {s0 s : State}

theorem KeepsForm.colNote (hs : KeepsForm s0 s) : KeepsForm s0 s.colNote := hs.setFld.setFld

theorem KeepsForm.setCol (hs : KeepsForm s0 s) {h : Nat} {e : ColEntry} : KeepsForm s0 (s.setCol h e) :=
    hs.update.setReg.colNote

theorem KeepsForm.noteLock (hs : KeepsForm s0 s) : KeepsForm s0 s.noteLock := by
  unfold State.noteLock
  split
  · exact hs.setFld.setFld.setFld
  · exact hs.setFld
  · exact hs.setFld.setFld
  · exact hs.setFld.setFld.setFld

theorem KeepsForm.setLock (hs : KeepsForm s0 s) {l : Option LockBy} : KeepsForm s0 (s.setLock l) := hs.update.noteLock

theorem KeepsForm.setOpt (hs : KeepsForm s0 s) {x : OptState} : KeepsForm s0 (s.setOpt x) := hs.update

theorem KeepsForm.askSwitch (hs : KeepsForm s0 s) {q t : Nat} {by_ : SwitchBy} : KeepsForm s0 (s.askSwitch q t by_) :=
  hs.setOpt.setFld.setFld

theorem KeepsForm.askRestore (hs : KeepsForm s0 s) {e : ColEntry} {epoch : Nat} : KeepsForm s0 (s.askRestore e epoch) := by
  unfold State.askRestore
  refine .ite hs ?_
  split
  · exact hs
  · dsimp only
    split
    · exact hs.askSwitch
    · exact .ite hs.askSwitch hs.setOpt

theorem KeepsForm.colCtl (hs : KeepsForm s0 s) {e : ColEntry} {dest type step round : Nat} {ok spill : Bool} {value : Nat} :
    KeepsForm s0 (s.colCtl e dest type step round ok spill value) :=
  hs.sendPacket

theorem KeepsForm.sendAborts (hs : KeepsForm s0 s) {e : ColEntry} {epoch : Nat} : KeepsForm s0 (s.sendAborts e epoch) :=
  hs.foldl fun hs => hs.colCtl

theorem KeepsForm.keepAbort (hs : KeepsForm s0 s) {p cid epoch : Nat} : KeepsForm s0 (s.keepAbort p cid epoch) := hs.update

theorem KeepsForm.colAbort (hs : KeepsForm s0 s) {h detail : Nat} : KeepsForm s0 (s.colAbort h detail) := by
  unfold State.colAbort
  split
  · exact hs
  · exact .ite hs hs.setCol.askRestore.keepAbort.sendAborts.raise

theorem KeepsForm.colLost (hs : KeepsForm s0 s) {lost : Nat → Bool} : KeepsForm s0 (s.colLost lost) :=
  hs.foldl fun hs => .ite hs.colAbort hs

theorem KeepsForm.colReplayLost (hs : KeepsForm s0 s) {ps : List Packet} : KeepsForm s0 (s.colReplayLost ps) := by
  unfold State.colReplayLost
  refine hs.foldl fun hs => ?_
  split
  · exact hs.colAbort
  · exact hs

theorem KeepsForm.colDropped (hs : KeepsForm s0 s) {p : Packet} : KeepsForm s0 (s.colDropped p) := by
  unfold State.colDropped
  split
  · exact .ite hs.colAbort hs
  · exact hs

theorem KeepsForm.colAbortAll (hs : KeepsForm s0 s) {detail : Nat} : KeepsForm s0 (s.colAbortAll detail) :=
  hs.foldl fun hs => hs.colAbort

end Sys2Proof.Machine
end

section
/-! ## Canonical form: the Sieve -/

namespace Sys2Proof.Machine

open Sys2Proof

variable {s0 s : State}

theorem KeepsForm.noteCached (hs : KeepsForm s0 s) {p : Nat} : KeepsForm s0 (s.noteCached p) := hs.setFld

theorem KeepsForm.cacheTouch (hs : KeepsForm s0 s) {key idx : Nat} : KeepsForm s0 (s.cacheTouch key idx) := by
  unfold State.cacheTouch
  refine .ite hs.update ?_
  refine .ite (.ite hs.update hs) ?_
  refine .ite ?_ hs.update.noteCached
  refine .noteCached ?_
  split
  · exact hs.update.noteCached
  · exact hs.update

theorem KeepsForm.sieveUse (hs : KeepsForm s0 s) {tag : BitVec 16} {sub line : Nat} :
    KeepsForm s0 (s.sieveUse tag sub line) := by
  unfold State.sieveUse
  refine .ite ?_ hs
  split
  · exact hs.cacheTouch
  · exact hs

theorem KeepsForm.sealedDeny (hs : KeepsForm s0 s) : KeepsForm s0 s.sealedDeny := hs.count.raise

end Sys2Proof.Machine
end

section
/-! ## Canonical form: the Replay Ledger -/

namespace Sys2Proof.Machine

open Sys2Proof

variable {s0 s : State}

theorem KeepsForm.ledgerWrite (hs : KeepsForm s0 s) {way : Nat} {k : LKey} {line sub byte : Nat} {void : Bool}
    {status result : Nat} :
    KeepsForm s0 (s.ledgerWrite way k line sub byte void status result) :=
  .update (.ite hs.setFld hs)

end Sys2Proof.Machine
end

section
/-! ## Canonical form: the Home Unit -/

namespace Sys2Proof.Machine

open Sys2Proof

variable {s0 s : State}

theorem KeepsForm.judgeAt (hs : KeepsForm s0 s) {p : Packet} : KeepsForm s0 (s.judgeAt p).1 := by
  unfold State.judgeAt
  dsimp only
  split
  · exact hs
  · split
    · exact hs.sieveUse
    · split
      · exact hs.sieveUse
      · split
        · split
          · exact hs.sieveUse.sealedDeny
          · exact hs.sieveUse
        · exact hs.sieveUse

theorem KeepsForm.respond (hs : KeepsForm s0 s) {p : Packet} {status payload : Nat} {pz marked : Bool} :
    KeepsForm s0 (s.respond p status payload pz marked) :=
  hs.sendPacket

theorem KeepsForm.finish (hs : KeepsForm s0 s) {port : Option Nat} {p : Packet} {status : Nat} :
    KeepsForm s0 (s.finish port p status) := by
  unfold State.finish
  split
  · exact hs.send
  · exact hs.respond

theorem KeepsForm.created (hs : KeepsForm s0 s) {h wher : Nat} {lineNo : Option (Nat × Nat)} {tag : Nat} :
    KeepsForm s0 (s.created h wher lineNo tag) :=
  hs.poisonLog

theorem KeepsForm.hbmRead (hs : KeepsForm s0 s) {h : Nat} {e : Ecc} {lineNo : Option (Nat × Nat)} :
    KeepsForm s0 (s.hbmRead h e lineNo) := by
  unfold State.hbmRead
  refine .ite hs ?_
  split
  · exact hs
  · exact hs.count
  · exact .ite hs hs.setPoison.count.raise.created

theorem KeepsForm.ownTag (hs : KeepsForm s0 s) : KeepsForm s0 s.ownTag.2 := hs.fresh

theorem KeepsForm.toMirror (hs : KeepsForm s0 s) {p : Packet} {mirror h : Nat} {kind : MirrorKind} {port : Option Nat}
    {copy : Nat → Packet} :
    KeepsForm s0 (s.toMirror p mirror h kind port copy) :=
  hs.ownTag.update.sendPacket

theorem KeepsForm.performStore (hs : KeepsForm s0 s) {p : Packet} {h : Nat} : KeepsForm s0 (s.performStore p h).1 :=
    hs.homeWrite

theorem KeepsForm.copyStore (hs : KeepsForm s0 s) {p : Packet} {mirror h : Nat} {kind : MirrorKind} {port : Option Nat} :
    KeepsForm s0 (s.copyStore p mirror h kind port) :=
  hs.toMirror

theorem KeepsForm.storeAsync (hs : KeepsForm s0 s) {p : Packet} {mirror h : Nat} : KeepsForm s0 (s.storeAsync p mirror h).1 :=
  hs.performStore.toMirror

theorem KeepsForm.storeHbm (hs : KeepsForm s0 s) {port : Option Nat} {p : Packet} {h i : Nat} :
    KeepsForm s0 (s.storeHbm port p h i) := by
  unfold State.storeHbm
  refine .ite hs.copyStore ?_
  split
  · refine .finish ?_
    refine .of_fst ?_ ‹_›
    split
    · exact hs.storeAsync
    · exact hs.performStore

theorem KeepsForm.storeEngine (hs : KeepsForm s0 s) {p : Packet} {h i who : Nat} : KeepsForm s0 (s.storeEngine p h i who) :=
  .ite hs.copyStore (.ite (.ite hs.update hs.storeAsync) hs.performStore)

theorem KeepsForm.settleWaits (hs : KeepsForm s0 s) : KeepsForm s0 s.settleWaits :=
  hs.foldl fun hs => .ite hs hs.update.storeAsync

theorem KeepsForm.hostError (hs : KeepsForm s0 s) {h : Nat} : KeepsForm s0 (s.hostError h) := hs.count

theorem KeepsForm.poisonCame (hs : KeepsForm s0 s) {h : Nat} {bad : Bool} : KeepsForm s0 (s.poisonCame h bad) :=
  .ite hs.count.raise hs

theorem KeepsForm.awaitHost (hs : KeepsForm s0 s) {r : HostReq} : KeepsForm s0 (s.awaitHost r) := hs.update

theorem KeepsForm.loadHost (hs : KeepsForm s0 s) {p : Packet} {h hpa : Nat} {cacheable : Bool} :
    KeepsForm s0 (s.loadHost p h hpa cacheable) := by
  unfold State.loadHost
  split
  · exact hs.hostError.respond
  · exact .ite hs.hostError.respond (.ite hs hs.send.awaitHost)

theorem KeepsForm.storeHost (hs : KeepsForm s0 s) {p : Packet} {h hpa : Nat} : KeepsForm s0 (s.storeHost p h hpa) := by
  unfold State.storeHost
  split
  · exact hs.hostError.respond
  · exact .ite hs.hostError.respond hs.send.update

theorem KeepsForm.ledgered (hs : KeepsForm s0 s) {p : Packet} {perform : State → Nat → State}
    (hperform : ∀ {t x1}, KeepsForm s0 t → KeepsForm s0 (perform t x1)) :
    KeepsForm s0 (s.ledgered p perform) := by
  unfold State.ledgered
  split
  · exact hperform hs
  · exact hs.count.respond
  · exact hs.count.respond
  · exact hs.raise.count.respond
  · exact hs.raise.count.respond
  · exact hs.ledgerWrite.count.respond

theorem KeepsForm.record (hs : KeepsForm s0 s) {p : Packet} {way status result : Nat} :
    KeepsForm s0 (s.record p way status result) :=
  hs.tally.ledgerWrite

theorem KeepsForm.touchAtomic (hs : KeepsForm s0 s) {h : Nat} : KeepsForm s0 (s.touchAtomic h) := hs.update

theorem KeepsForm.atomDone (hs : KeepsForm s0 s) {p : Packet} {way h i status result : Nat} :
    KeepsForm s0 (s.atomDone p way h i status result) :=
  .ite hs.record.respond hs.record.toMirror

theorem KeepsForm.atomHbm (hs : KeepsForm s0 s) {p : Packet} {way h i : Nat} {fail : Bool} :
    KeepsForm s0 (s.atomHbm p way h i fail) := by
  unfold State.atomHbm
  exact .ite hs.touchAtomic.atomDone (.ite hs.touchAtomic.faultLog.event.atomDone hs.touchAtomic.homeWrite.atomDone)

theorem KeepsForm.redHbm (hs : KeepsForm s0 s) {p : Packet} {way h i : Nat} {fail : Bool} :
    KeepsForm s0 (s.redHbm p way h i fail) := by
  unfold State.redHbm
  exact .ite hs.touchAtomic.atomDone (.ite hs.touchAtomic.faultLog.event.atomDone hs.touchAtomic.homeWrite.atomDone)

theorem KeepsForm.atomHost (hs : KeepsForm s0 s) {p : Packet} {way h hpa : Nat} : KeepsForm s0 (s.atomHost p way h hpa) := by
  unfold State.atomHost
  refine .ite hs.hostError.record.respond ?_
  split
  · exact hs.hostError.record.respond
  · exact .ite hs.hostError.record.respond (.ite hs hs.send.awaitHost)

end Sys2Proof.Machine
end

section
/-! ## Canonical form: the Firebreak -/

namespace Sys2Proof.Machine

open Sys2Proof

variable {s0 s : State}

theorem KeepsForm.scheduleReset (hs : KeepsForm s0 s) {p T : Nat} {disable : Bool} :
    KeepsForm s0 (s.scheduleReset p T disable) :=
  hs.update.raise

theorem KeepsForm.consume (hs : KeepsForm s0 s) {p wher tag line sub home info : Nat} :
    KeepsForm s0 (s.consume p wher tag line sub home info) := by
  unfold State.consume
  refine .ite hs.poisonLog.count ?_
  refine .count ?_
  refine .alarm ?_
  refine .raise ?_
  refine .ite ((hs.poisonLog.count.foldl fun hs => hs.haltThread).update) ?_
  exact ((hs.poisonLog.count.foldl fun hs => hs.haltThread).update).scheduleReset

end Sys2Proof.Machine
end

section
/-! ## Canonical form: translation -/

namespace Sys2Proof.Machine

open Sys2Proof

variable {s0 s : State}

theorem KeepsForm.fillCache (hs : KeepsForm s0 s) {α : Type} {m : FMap α} {cap key : Nat} {v : α} :
    KeepsForm s0 (fillCache m cap key v s).2 := by
  unfold Machine.fillCache
  split
  · exact hs
  · split
    · split
      · exact hs.fresh.of_snd ‹_›
      · exact hs.fresh.of_snd ‹_›

theorem KeepsForm.walkFrom (hs : KeepsForm s0 s) {tag : BitVec 16} {fva level base : Nat} :
    KeepsForm s0 (s.walkFrom tag fva level base).1 := by
  induction level generalizing s base with
  | zero =>
    unfold State.walkFrom
    dsimp only
    repeat' split
    all_goals exact hs
  | succ l ih =>
    unfold State.walkFrom
    dsimp only
    repeat' split
    any_goals exact hs
    exact ih hs.fillCache.update

theorem KeepsForm.walk (hs : KeepsForm s0 s) {tag : BitVec 16} {fva : Nat} : KeepsForm s0 (s.walk tag fva).1 := by
  unfold State.walk
  dsimp only
  split
  · exact hs
  · split
    · exact hs
    · split
      · exact hs.walkFrom.of_fst ‹_›
      · exact ((hs.walkFrom.of_fst ‹_›).fillCache).update

theorem KeepsForm.leafOf (hs : KeepsForm s0 s) {tag : BitVec 16} {fva : Nat} : KeepsForm s0 (s.leafOf tag fva).1 := by
  unfold State.leafOf
  split
  · exact hs
  · split
    · exact hs
    · exact hs.walk

theorem KeepsForm.translate (hs : KeepsForm s0 s) {tag : BitVec 16} {fva : Nat} {acc : Acc} :
    KeepsForm s0 (s.translate tag fva acc).1 := by
  unfold State.translate
  split
  · exact hs.leafOf.of_fst ‹_›
  · exact hs.leafOf.of_fst ‹_›

theorem KeepsForm.xlateRecord (hs : KeepsForm s0 s) {f : XFault} {acc : Acc} {engine number : Nat} {tag : BitVec 16}
    {fva info : Nat} :
    KeepsForm s0 (s.xlateRecord f acc engine number tag fva info) :=
  hs.ringRecord

theorem KeepsForm.threadXlateFault (hs : KeepsForm s0 s) {t : Nat} {f : XFault} {acc : Acc} {fva : Nat} :
    KeepsForm s0 (s.threadXlateFault t f acc fva) :=
  hs.enterFaulted.xlateRecord

theorem KeepsForm.localAccess (hs : KeepsForm s0 s) {tag : BitVec 16} {fva : Nat} {acc : Acc} :
    KeepsForm s0 (s.localAccess tag fva acc).1 := by
  unfold State.localAccess
  split
  · exact hs.translate.of_fst ‹_›
  · exact hs.translate.of_fst ‹_›
  · split
    · exact hs.translate.of_fst ‹_›
    · split
      · exact (hs.translate.of_fst ‹_›).sieveUse
      · exact (hs.translate.of_fst ‹_›).sieveUse

theorem KeepsForm.fetchLine (hs : KeepsForm s0 s) {t fva : Nat} : KeepsForm s0 (s.fetchLine t fva).1 := by
  unfold State.fetchLine
  dsimp only
  split
  · exact hs.leafOf.of_fst ‹_›
  · split
    · exact hs.leafOf.of_fst ‹_›
    · split
      · split
        · exact (hs.leafOf.of_fst ‹_›).sieveUse
        · split
          · split
            · exact (hs.leafOf.of_fst ‹_›).sieveUse
            · split
              · exact (hs.leafOf.of_fst ‹_›).sieveUse
              · exact (hs.leafOf.of_fst ‹_›).sieveUse
          · split
            · exact (hs.leafOf.of_fst ‹_›).sieveUse
            · split
              · exact (hs.leafOf.of_fst ‹_›).sieveUse
              · exact (hs.leafOf.of_fst ‹_›).sieveUse
      · exact (hs.leafOf.of_fst ‹_›).sieveUse

end Sys2Proof.Machine
end

section
/-! ## Canonical form: the Remote Line Cache -/

namespace Sys2Proof.Machine

open Sys2Proof

variable {s0 s : State}

theorem KeepsForm.setRlc (hs : KeepsForm s0 s) {l : List RlcLine} : KeepsForm s0 (s.setRlc l) := hs.update

theorem KeepsForm.rlcTouch (hs : KeepsForm s0 s) {x : RlcLine} : KeepsForm s0 (s.rlcTouch x) := hs.setRlc

theorem KeepsForm.rlcDrop (hs : KeepsForm s0 s) {p : RlcLine → Bool} : KeepsForm s0 (s.rlcDrop p) := hs.setRlc

theorem KeepsForm.rlcPut (hs : KeepsForm s0 s) {x : RlcLine} : KeepsForm s0 (s.rlcPut x) := hs.setRlc

end Sys2Proof.Machine
end

section
/-! ## Canonical form: requests through Skidder slots -/

namespace Sys2Proof.Machine

open Sys2Proof

variable {s0 s : State}

theorem KeepsForm.setSkid (hs : KeepsForm s0 s) {k : Nat} {x : Skid} : KeepsForm s0 (s.setSkid k x) := hs.update

theorem KeepsForm.refreshSets (hs : KeepsForm s0 s) : KeepsForm s0 s.refreshSets :=
  hs.foldl fun hs => .ite hs.setFld hs.setFld.raise

theorem KeepsForm.issue (hs : KeepsForm s0 s) {r : Req} {x : Xlat} : KeepsForm s0 (s.issue r x) := by
  unfold State.issue
  dsimp only
  split
  · exact hs.fresh
  · refine .sendPacket ?_
    split
    · refine .addFld ?_
      refine .update ?_
      split
      · exact .setSkid (.ite hs.fresh.setSkid hs.fresh)
      · exact .ite hs.fresh.setSkid hs.fresh
    · refine .addFld ?_
      refine .update ?_
      split
      · exact .setSkid (.ite hs.fresh.setSkid hs.fresh)
      · exact .ite hs.fresh.setSkid hs.fresh
    · refine .update ?_
      split
      · exact .setSkid (.ite hs.fresh.setSkid hs.fresh)
      · exact .ite hs.fresh.setSkid hs.fresh

theorem KeepsForm.writeBack (hs : KeepsForm s0 s) {k t : Nat} {l : RlcLine} : KeepsForm s0 (s.writeBack k t l) := hs.issue

theorem KeepsForm.rlcFill (hs : KeepsForm s0 s) {k : Nat} {x : RlcLine} : KeepsForm s0 (s.rlcFill k x) := by
  unfold State.rlcFill
  split
  · exact .ite hs.rlcPut.writeBack hs.rlcPut
  · exact hs.rlcPut

theorem KeepsForm.flushRange (hs : KeepsForm s0 s) {k t home sub base n : Nat} {tag : BitVec 16} :
    KeepsForm s0 (s.flushRange k t home sub base n tag) :=
  hs.foldl fun hs => hs.setRlc.writeBack

theorem KeepsForm.noFills (hs : KeepsForm s0 s) {home sub base n : Nat} {tag : BitVec 16} :
    KeepsForm s0 (s.noFills home sub base n tag) :=
  hs.update

theorem KeepsForm.storeCached (hs : KeepsForm s0 s) {l : RlcLine} {r : Req} {first n : Nat} :
    KeepsForm s0 (s.storeCached l r first n).1 :=
  hs.setRlc

theorem KeepsForm.request (hs : KeepsForm s0 s) {r : Req} {x : Xlat} : KeepsForm s0 (s.request r x).1 := by
  have issues {t u : State} {q : Req} (ht : KeepsForm s0 t) (hu : KeepsForm s0 u) :
      KeepsForm s0 (match t.lacks q x with | some w => (t, Issue.wait w) | none => (u, Issue.sent)).1 := by
    split
    · exact ht
    · exact hu
  unfold State.request
  extract_lets home t send line leaving first n l dirtyVictim m dirty fail old granule base inRange running
  have sent {t : State} {q : Req} (ht : KeepsForm s0 t) : KeepsForm s0 (send t q).1 := issues ht ht.issue
  have drops {f : RlcLine → Bool} {q : Req} : KeepsForm s0 ((s.rlcDrop f).issue q x) := hs.rlcDrop.issue
  clear_value line
  split
  · exact hs
  · refine .ite_fst (sent hs) (.ite_fst hs (.ite_fst ?_ (.ite_fst ?_ (.ite_fst ?_ (.ite_fst ?_ (.ite_fst ?_ (sent hs)))))))
    · split
      · exact hs.rlcTouch
      · exact sent hs
    · refine .ite_fst (.ite_fst hs ?_) (issues hs drops)
      split
      · exact hs.noFills.storeCached
      · exact .ite_fst (.ite_fst hs hs.noFills.rlcFill) (sent hs.noFills)
    · exact .ite_fst hs.setThr (.ite_fst (.ite_fst hs (.ite_fst hs hs.flushRange)) (issues hs drops))
    · exact .ite_fst hs (issues hs hs.noFills.rlcDrop.issue)
    · exact .ite_fst hs (.ite_fst hs (.ite_fst hs.setThr (.ite_fst (.ite_fst hs hs.flushRange) (issues hs drops))))

theorem KeepsForm.recheck (hs : KeepsForm s0 s) : KeepsForm s0 s.recheck := hs.foldl fun hs => .takeHeld (.ite hs.runnable hs)

theorem KeepsForm.countHeld (hs : KeepsForm s0 s) {who fva : Nat} {a : Wait} : KeepsForm s0 (s.countHeld who fva a) := by
  unfold State.countHeld
  split
  · exact .ite hs hs.update.count
  · exact hs

theorem KeepsForm.sendHeld (hs : KeepsForm s0 s) {key : Nat} : KeepsForm s0 (s.sendHeld key) := by
  unfold State.sendHeld
  split
  · exact hs
  · dsimp only
    split
    · exact hs.update.countHeld
    · exact hs.update.poisonSent.rlcDrop.sendPacket

theorem KeepsForm.releaseHeld (hs : KeepsForm s0 s) {g : Nat} : KeepsForm s0 (s.releaseHeld g) := by
  unfold State.releaseHeld
  refine .ite hs ?_
  refine hs.update.setFld.foldl fun hs => ?_
  split
  · exact .ite hs.sendHeld hs
  · exact hs

theorem KeepsForm.drainDone (hs : KeepsForm s0 s) {late : Bool} : KeepsForm s0 (s.drainDone late) :=
  .ite (.ite hs.update.setFld.setFld.raise.raise hs.update.setFld.setFld.raise) hs.update.setFld

theorem KeepsForm.threadDone (hs : KeepsForm s0 s) {t key : Nat} {sl : Slot} {a : Answer} :
    KeepsForm s0 (s.threadDone t key sl a) := by
  unfold State.threadDone
  exact .ite (.ite hs.setFld hs.setFld.setFld) (.ite hs.setFld.setThr.writeStatus.consume hs.setFld.setThr.writeStatus)

theorem KeepsForm.setFence (hs : KeepsForm s0 s) {m : Nat} {f : Fence} : KeepsForm s0 (s.setFence m f) := hs.update

theorem KeepsForm.fenceReport (hs : KeepsForm s0 s) {m : Nat} : KeepsForm s0 (s.fenceReport m) :=
  .ite (hs.setFence.foldl fun hs => .ite hs.setFld.setFld.raise.setFld.setFld hs) hs

theorem KeepsForm.fwWriteDone (hs : KeepsForm s0 s) {h : Nat} {key : Option Nat} {tag fva status : Nat} {muted : Bool} :
    KeepsForm s0 (s.fwWriteDone h key tag fva status muted) := by
  unfold State.fwWriteDone
  refine .ite (.fenceReport (.setFence (.ite hs (.ite hs.faultLog.raise.count hs.faultLog.raise.count.msix)))) ?_
  exact .setFence (.ite hs (.ite hs.faultLog.raise.count hs.faultLog.raise.count.msix))

theorem KeepsForm.fwReadFails (hs : KeepsForm s0 s) {h tag fva line sub home status : Nat} :
    KeepsForm s0 (s.fwReadFails h tag fva line sub home status) :=
  .ite hs (.ite hs.faultLog.consume hs.faultLog)

theorem KeepsForm.fwReadDone (hs : KeepsForm s0 s) {h tag fva line sub home : Nat} {a : Answer} :
    KeepsForm s0 (s.fwReadDone h tag fva line sub home a) :=
  hs.send.fwReadFails

theorem KeepsForm.hostDone (hs : KeepsForm s0 s) {h key : Nat} {sl : Slot} {a : Answer} :
    KeepsForm s0 (s.hostDone h key sl a) := by
  unfold State.hostDone
  exact .ite hs.setFld.fwWriteDone (.ite (.ite hs.setFld.fwReadFails hs.setFld.fwReadDone) hs.setFld.fwWriteDone)

theorem KeepsForm.skdEnd (hs : KeepsForm s0 s) {k : Nat} {r : SkdRun} {status detail : Nat} :
    KeepsForm s0 (s.skdEnd k r status detail) :=
  hs.setSkid.endOp

theorem KeepsForm.accumReads (hs : KeepsForm s0 s) {r : SkdRun} {what line sub home : Nat} :
    KeepsForm s0 (s.accumReads r what line sub home) :=
  .ite hs.consume hs

theorem KeepsForm.buckerDone (hs : KeepsForm s0 s) {k : Nat} {sl : Slot} {op i what : Nat} {a : Answer} :
    KeepsForm s0 (s.buckerDone k sl op i what a) := by
  unfold State.buckerDone
  dsimp only
  split
  · exact hs
  · refine .ite hs ?_
    refine .ite (.ite hs.skdEnd hs.skdEnd) ?_
    exact .ite (.consume (.ite hs.setSkid.accumReads hs.setSkid)) (.ite hs.setSkid.accumReads hs.setSkid)

theorem KeepsForm.wbDone (hs : KeepsForm s0 s) {t : Nat} {sl : Slot} {a : Answer} : KeepsForm s0 (s.wbDone t sl a) :=
  .ite hs.rlcDrop (.ite hs.setRlc.setThr hs.setRlc)

theorem KeepsForm.ownDone (hs : KeepsForm s0 s) {sl : Slot} {a : Answer} : KeepsForm s0 (s.ownDone sl a) :=
  .ite hs (.ite hs.update (.ite hs.update hs))

theorem KeepsForm.fillDone (hs : KeepsForm s0 s) {key : Nat} {sl : Slot} {a : Answer} {cacheable : Bool} :
    KeepsForm s0 (s.fillDone key sl a cacheable) := by
  unfold State.fillDone
  refine .ite hs ?_
  split
  · exact .ite hs hs.rlcFill
  · exact .ite hs hs.rlcFill

theorem KeepsForm.complete (hs : KeepsForm s0 s) {key : Nat} {a : Answer} {cacheable : Bool} :
    KeepsForm s0 (s.complete key a cacheable) := by
  unfold State.complete
  split
  · exact hs
  · refine .recheck ?_
    refine .fillDone ?_
    refine .ownDone ?_
    split
    · refine .threadDone ?_
      refine .ite ?_ ?_
      · refine .drainDone ?_
        refine .ite ?_ hs.update
        split
        · exact hs.update.releaseHeld
        · exact hs.update
      · refine .ite ?_ hs.update
        split
        · exact hs.update.releaseHeld
        · exact hs.update
    · refine .hostDone ?_
      refine .ite ?_ ?_
      · refine .drainDone ?_
        refine .ite ?_ hs.update
        split
        · exact hs.update.releaseHeld
        · exact hs.update
      · refine .ite ?_ hs.update
        split
        · exact hs.update.releaseHeld
        · exact hs.update
    · refine .buckerDone ?_
      refine .ite ?_ ?_
      · refine .drainDone ?_
        refine .ite ?_ hs.update
        split
        · exact hs.update.releaseHeld
        · exact hs.update
      · refine .ite ?_ hs.update
        split
        · exact hs.update.releaseHeld
        · exact hs.update
    · refine .wbDone ?_
      refine .ite ?_ ?_
      · refine .drainDone ?_
        refine .ite ?_ hs.update
        split
        · exact hs.update.releaseHeld
        · exact hs.update
      · refine .ite ?_ hs.update
        split
        · exact hs.update.releaseHeld
        · exact hs.update

theorem KeepsForm.closeOp (hs : KeepsForm s0 s) {t op status detail : Nat} : KeepsForm s0 (s.closeOp t op status detail) :=
  .ite hs.update hs.update.endOp.recheck

end Sys2Proof.Machine
end

section
/-! ## Canonical form: accesses of the module's engines -/

namespace Sys2Proof.Machine

open Sys2Proof

variable {s0 s : State}

theorem KeepsForm.eng (hs : KeepsForm s0 s) {tag : BitVec 16} {z : List HostAnswer} {op : Nat} {ports : List Nat} :
    KeepsForm s0 (s.eng tag z op ports).s :=
  hs.settleWaits.update

theorem KeepsForm.engStop (hs : KeepsForm s0 s) {e : Eng} {f : EngFail} : KeepsForm s0 (e.stop s f).s := hs

theorem KeepsForm.engUnanswered (hs : KeepsForm s0 s) {e : Eng} {n : Nat} : KeepsForm s0 (e.unanswered s n).s := by
  unfold Eng.unanswered
  dsimp only
  split
  · exact hs.fresh
  · exact hs.fresh.raise.hostError

theorem KeepsForm.engLine {e : Eng} (hs : KeepsForm s0 e.s) {fva : Nat} : KeepsForm s0 (e.line fva).1.s := by
  unfold Eng.line
  split
  · exact hs
  · split
    · exact (hs.localAccess.of_fst ‹_›).engStop
    · exact (hs.localAccess.of_fst ‹_›).engStop
    · split
      · exact hs.localAccess.of_fst ‹_›
      · exact ((hs.localAccess.of_fst ‹_›).sealedDeny).engStop
    · split
      · exact ((hs.localAccess.of_fst ‹_›).hostError).engStop
      · split
        · exact ((hs.localAccess.of_fst ‹_›).hostError).engStop
        · dsimp only
          split
          · exact ((hs.localAccess.of_fst ‹_›).send).engUnanswered
          · exact ((hs.localAccess.of_fst ‹_›).send).poisonCame
          · exact (((hs.localAccess.of_fst ‹_›).send).hostError).engStop

theorem KeepsForm.engLines {e : Eng} (hs : KeepsForm s0 e.s) {fva n : Nat} : KeepsForm s0 (e.lines fva n).1.s := by
  induction n generalizing e fva with
  | zero => exact hs
  | succ n ih =>
    simp only [Eng.lines]
    exact ih hs.engLine

theorem KeepsForm.engRead {e : Eng} (hs : KeepsForm s0 e.s) {fva n : Nat} : KeepsForm s0 (e.read fva n).1.s := hs.engLines

theorem KeepsForm.engWrite {e : Eng} (hs : KeepsForm s0 e.s) {fva first count data : Nat} {pz : Bool} :
    KeepsForm s0 (e.write fva first count data pz).s := by
  unfold Eng.write
  split
  · exact hs
  · split
    · exact (hs.localAccess.of_fst ‹_›).engStop
    · exact (hs.localAccess.of_fst ‹_›).engStop
    · split
      · exact (hs.localAccess.of_fst ‹_›).storeEngine
      · exact ((hs.localAccess.of_fst ‹_›).sealedDeny).engStop
    · split
      · exact ((hs.localAccess.of_fst ‹_›).hostError).engStop
      · split
        · exact (hs.localAccess.of_fst ‹_›).send
        · exact ((hs.localAccess.of_fst ‹_›).hostError).engStop

theorem KeepsForm.engSpan {e : Eng} (hs : KeepsForm s0 e.s) {fva n data : Nat} : KeepsForm s0 (e.span fva n data).s := by
  unfold Eng.span
  dsimp only
  split
  · exact hs.engWrite.engWrite
  · exact hs.engWrite

theorem KeepsForm.engFlush {e : Eng} (hs : KeepsForm s0 e.s) : KeepsForm s0 e.flush.s := by
  unfold Eng.flush
  refine hs.foldl_eng fun hs => ?_
  split
  · exact hs
  · split
    · exact hs.hostError.engStop
    · dsimp only
      split
      · exact hs.send.engUnanswered
      · exact hs.send.poisonCame
      · exact hs.send.hostError.engStop

theorem KeepsForm.descriptorBytes (hs : KeepsForm s0 s) {tag : BitVec 16} {fva n : Nat} :
    KeepsForm s0 (s.descriptorBytes tag fva n).1 := by
  induction n generalizing s fva with
  | zero => exact hs
  | succ n ih =>
    unfold State.descriptorBytes
    split
    · exact hs.localAccess.of_fst ‹_›
    · exact hs.localAccess.of_fst ‹_›
    · exact hs.localAccess.of_fst ‹_›
    · split
      · split
        · exact (ih (hs.localAccess.of_fst ‹_›)).of_fst ‹_›
        · exact ih (hs.localAccess.of_fst ‹_›)
      · exact (hs.localAccess.of_fst ‹_›).sealedDeny

theorem KeepsForm.readDescriptor (hs : KeepsForm s0 s) {tag : BitVec 16} {fva n : Nat} :
    KeepsForm s0 (s.readDescriptor tag fva n).1 := by
  unfold State.readDescriptor
  dsimp only
  split
  · exact hs.descriptorBytes.of_fst ‹_›
  · exact hs.descriptorBytes

end Sys2Proof.Machine
end

section
/-! ## Canonical form: the flash and the journal -/

namespace Sys2Proof.Machine

open Sys2Proof

variable {s0 s : State}

theorem KeepsForm.flashWrite (hs : KeepsForm s0 s) {a : Nat} {bs : List Byte} : KeepsForm s0 (s.flashWrite a bs) := hs.update

theorem KeepsForm.flashErase (hs : KeepsForm s0 s) {a n : Nat} : KeepsForm s0 (s.flashErase a n) := hs.update

theorem KeepsForm.journalPut (hs : KeepsForm s0 s) {bank item index value : Nat} :
    KeepsForm s0 (s.journalPut bank item index value) :=
  .ite hs.flashWrite.update.flashErase hs.flashWrite.update

theorem KeepsForm.journalAll (hs : KeepsForm s0 s) {bank : Nat} : KeepsForm s0 (s.journalAll bank) :=
  hs.foldl fun hs => hs.journalPut

theorem KeepsForm.restartDone (hs : KeepsForm s0 s) : KeepsForm s0 s.restartDone := by
  unfold State.restartDone
  split
  · exact hs
  · exact hs.update.faultLog

theorem KeepsForm.restartLimit (hs : KeepsForm s0 s) : KeepsForm s0 s.restartLimit := by
  unfold State.restartLimit
  split
  · exact .ite hs.restartDone hs
  · exact hs

theorem KeepsForm.journal (hs : KeepsForm s0 s) {item index value : Nat} : KeepsForm s0 (s.journal item index value) :=
  .ite hs (.journalPut (.update (.ite hs.journalAll hs)))

end Sys2Proof.Machine
end

section
/-! ## Canonical form: positions and cells of the Ladle -/

namespace Sys2Proof.Machine

open Sys2Proof

variable {s0 s : State}

theorem KeepsForm.setLpos (hs : KeepsForm s0 s) {k : Nat} {x : LdlPos} : KeepsForm s0 (s.setLpos k x) := hs.update.setFld

theorem KeepsForm.ldlEvent (hs : KeepsForm s0 s) {f : Field} : KeepsForm s0 (s.ldlEvent f) := hs.event

theorem KeepsForm.setPosState (hs : KeepsForm s0 s) {k st : Nat} : KeepsForm s0 (s.setPosState k st) := hs.setFld.setFld

theorem KeepsForm.noPosition (hs : KeepsForm s0 s) {l : List Kernel} : KeepsForm s0 (s.noPosition l) := hs.update

theorem KeepsForm.disablePos (hs : KeepsForm s0 s) {k : Nat} : KeepsForm s0 (s.disablePos k) :=
  .ite hs hs.setLpos.noPosition.setPosState.setFld.update.ldlEvent.faultLog

theorem KeepsForm.startReplace (hs : KeepsForm s0 s) {k : Nat} : KeepsForm s0 (s.startReplace k) :=
  .ite hs.ldlEvent hs.update.setPosState

theorem KeepsForm.judgeCells (hs : KeepsForm s0 s) {k : Nat} : KeepsForm s0 (s.judgeCells k) := by
  unfold State.judgeCells
  refine .ite (.disablePos (.ite hs (.ite hs.ldlEvent (.ite hs.startReplace hs)))) ?_
  exact .ite hs (.ite hs.ldlEvent (.ite hs.startReplace hs))

theorem KeepsForm.judgeThresh (hs : KeepsForm s0 s) : KeepsForm s0 s.judgeThresh := by
  unfold State.judgeThresh
  dsimp only
  split
  · exact .ite hs.startReplace hs
  · exact hs

theorem KeepsForm.retireCell (hs : KeepsForm s0 s) {a c : Nat} : KeepsForm s0 (s.retireCell a c) := by
  unfold State.retireCell
  refine .ite hs ?_
  dsimp only
  split
  · exact hs.setFld.ldlEvent.faultLog.journal.setFld.judgeCells
  · exact hs.setFld.ldlEvent.faultLog.journal

theorem KeepsForm.retireCells (hs : KeepsForm s0 s) {a : Nat} {l : List Nat} : KeepsForm s0 (s.retireCells a l) :=
  hs.foldl fun hs => hs.retireCell

theorem KeepsForm.checkFailed (hs : KeepsForm s0 s) {k c key : Nat} : KeepsForm s0 (s.checkFailed k c key) :=
  hs.ldlEvent.faultLog.count

theorem KeepsForm.checkItem (hs : KeepsForm s0 s) {k level : Nat} {run : ItemRun} {key : Nat} :
    KeepsForm s0 (s.checkItem k level run key).1 := by
  unfold State.checkItem
  dsimp only
  split
  · exact hs.tally
  · exact .ite hs.checkFailed.tally hs.checkFailed.tally.count
  · split
    · exact hs.tally
    · exact .ite hs.checkFailed.tally hs.checkFailed.tally.count

theorem KeepsForm.keepAccs (hs : KeepsForm s0 s) {a c : Nat} {l : List LAcc} : KeepsForm s0 (s.keepAccs a c l) := hs.update

theorem KeepsForm.submitKernel (hs : KeepsForm s0 s) {k : Kernel} : KeepsForm s0 (s.submitKernel k) := by
  unfold State.submitKernel
  refine .ite hs.raise.update ?_
  dsimp only
  split
  · exact hs.update
  · exact hs.setLpos

theorem KeepsForm.opXlateRecord (hs : KeepsForm s0 s) {f : EngFail} {t : Nat} {tag : BitVec 16} {pc : Nat} :
    KeepsForm s0 (s.opXlateRecord f t tag pc) := by
  unfold State.opXlateRecord
  split
  · exact hs.xlateRecord
  · exact hs

theorem KeepsForm.engComplete {e : Eng} (hs : KeepsForm s0 e.s) {fva : Nat} {l : Line} {t pc : Nat} :
    KeepsForm s0 (e.complete fva l t pc).1 := by
  unfold Eng.complete
  split
  · exact hs
  · dsimp only
    split
    · exact hs.engWrite.engFlush
    · exact hs.engWrite.engFlush.opXlateRecord

theorem KeepsForm.endKernel (hs : KeepsForm s0 s) {k : Kernel} {z : List HostAnswer} {pos start last : Nat} {flags : RFlags}
    {poison : Option (Nat × Nat)} :
    KeepsForm s0 (s.endKernel k z pos start last flags poison) := by
  unfold State.endKernel
  split
  · dsimp only
    split
    · exact .closeOp (.ite (((hs.eng.engComplete.of_fst ‹_›).count).consume) ((hs.eng.engComplete.of_fst ‹_›).count))
    · exact .closeOp (.ite (((hs.eng.engComplete.of_fst ‹_›).count).consume) ((hs.eng.engComplete.of_fst ‹_›).count))

end Sys2Proof.Machine
end

section
/-! ## Canonical form: the line code -/

namespace Sys2Proof.Machine

open Sys2Proof

variable {s0 s : State}

theorem KeepsForm.setCode (hs : KeepsForm s0 s) {k : Nat} {x : LaneCode} : KeepsForm s0 (s.setCode k x) := hs.update

theorem KeepsForm.setStream (hs : KeepsForm s0 s) {c : Nat} {x : LineStream} : KeepsForm s0 (s.setStream c x) := hs.update

theorem KeepsForm.noteCode (hs : KeepsForm s0 s) {k : Nat} {x : LaneCode} {spent idle : Nat} :
    KeepsForm s0 (s.noteCode k x spent idle) := by
  unfold State.noteCode
  refine .ite hs.setCode.addFld.addFld.addFld.addFld ?_
  refine .ite (.ite hs.setCode.addFld.addFld.addFld.addFld hs.setCode.addFld.addFld.addFld.addFld.linkEvent) ?_
  exact .linkEvent (.ite hs.setCode.addFld.addFld.addFld.addFld hs.setCode.addFld.addFld.addFld.addFld.linkEvent)

theorem KeepsForm.laneSlot (hs : KeepsForm s0 s) {c k turn : Nat} : KeepsForm s0 (s.laneSlot c k turn) := by
  unfold State.laneSlot
  refine .ite hs.noteCode ?_
  split
  · exact .ite (.ite hs.fresh.count.noteCode hs.setStream.noteCode) (.ite hs.noteCode hs.noteCode)
  · exact .ite hs.noteCode hs.noteCode

theorem KeepsForm.lineSlot (hs : KeepsForm s0 s) : KeepsForm s0 s.lineSlot :=
  hs.foldl fun hs => .ite (hs.foldl fun hs => hs.laneSlot) hs

theorem KeepsForm.corrupt (hs : KeepsForm s0 s) {key kind len : Nat} : KeepsForm s0 (s.corrupt key kind len) := hs.setCode.send

theorem KeepsForm.stack (hs : KeepsForm s0 s) {c : Nat} {l : List LineItem} : KeepsForm s0 (s.stack c l) := hs.setStream

theorem KeepsForm.sendWords (hs : KeepsForm s0 s) {c : Nat} {p : Packet} {stomp : Bool} :
    KeepsForm s0 (s.sendWords c p stomp) :=
  hs.stack.send

theorem KeepsForm.lineStart (hs : KeepsForm s0 s) {c : Nat} : KeepsForm s0 (s.lineStart c) :=
  hs.setStream.foldl fun hs => hs.setCode

theorem KeepsForm.lineResume (hs : KeepsForm s0 s) {c : Nat} : KeepsForm s0 (s.lineResume c) := hs.foldl fun hs => hs.setCode

end Sys2Proof.Machine
end

section
/-! ## Canonical form: IDENT blocks and maps -/

namespace Sys2Proof.Machine

open Sys2Proof

variable {s0 s : State}

theorem KeepsForm.sendCtrl (hs : KeepsForm s0 s) {c : Nat} {b : CtrlBlock} : KeepsForm s0 (s.sendCtrl c b) := hs.stack.send

theorem KeepsForm.sendEi (hs : KeepsForm s0 s) {c : Nat} : KeepsForm s0 (s.sendEi c) := hs.stack.send

theorem KeepsForm.sendIdent (hs : KeepsForm s0 s) {c : Nat} : KeepsForm s0 (s.sendIdent c) := hs.sendCtrl

theorem KeepsForm.sendIdents (hs : KeepsForm s0 s) : KeepsForm s0 s.sendIdents := hs.foldl fun hs => .ite hs.sendIdent hs

theorem KeepsForm.judgeReady (hs : KeepsForm s0 s) : KeepsForm s0 s.judgeReady := .ite hs.raise hs

theorem KeepsForm.mapTouched (hs : KeepsForm s0 s) : KeepsForm s0 s.mapTouched :=
  .ite hs.update.setFld.setFld.update.raise.judgeReady hs.update.setFld.setFld

theorem KeepsForm.holdFrag (hs : KeepsForm s0 s) {f k : Nat} {m : MapFrag} : KeepsForm s0 (s.holdFrag f k m) :=
  .ite hs.update hs.update.mapTouched

theorem KeepsForm.flood (hs : KeepsForm s0 s) {p : Packet} {point : Point} {skip : Option Nat} :
    KeepsForm s0 (s.flood p point skip) :=
  .ite hs (hs.foldl fun hs => .ite hs.enqueue hs)

theorem KeepsForm.floodMap (hs : KeepsForm s0 s) : KeepsForm s0 s.floodMap :=
  .ite hs (hs.update.foldl fun hs => hs.holdFrag.flood)

end Sys2Proof.Machine
end

section
/-! ## Canonical form: links and channels -/

namespace Sys2Proof.Machine

open Sys2Proof

variable {s0 s : State}

theorem KeepsForm.holdPath (hs : KeepsForm s0 s) {f : Nat} : KeepsForm s0 (s.holdPath f) := hs.update

theorem KeepsForm.holdForLink (hs : KeepsForm s0 s) {l : Nat} : KeepsForm s0 (s.holdForLink l) :=
  hs.foldl fun hs => .ite hs.holdPath hs

theorem KeepsForm.rechoose (hs : KeepsForm s0 s) {q : QPkt} : KeepsForm s0 (s.rechoose q) := by
  unfold State.rechoose
  dsimp only
  split
  · exact hs.freePool.count.colDropped.refuse
  · exact hs.enqueue

theorem KeepsForm.unqueue (hs : KeepsForm s0 s) {p : QPkt → Bool} : KeepsForm s0 (s.unqueue p).2 := hs.update

theorem KeepsForm.linkGone (hs : KeepsForm s0 s) {l : Nat} : KeepsForm s0 (s.linkGone l) :=
  (hs.unqueue.foldl fun hs => hs.noteDepth).foldl fun hs => hs.rechoose

theorem KeepsForm.settleGains (hs : KeepsForm s0 s) : KeepsForm s0 s.settleGains := hs.update

theorem KeepsForm.refreshLinks (hs : KeepsForm s0 s) : KeepsForm s0 s.refreshLinks := by
  unfold State.refreshLinks
  refine .ite ?_ ?_
  · refine hs.foldl fun hs => ?_
    exact .ite hs.setFld.setFld.setFld.holdForLink (.ite hs.setFld.setFld.setFld.linkGone hs.setFld.setFld.setFld)
  · refine .floodMap ?_
    refine hs.foldl fun hs => ?_
    exact .ite hs.setFld.setFld.setFld.holdForLink (.ite hs.setFld.setFld.setFld.linkGone hs.setFld.setFld.setFld)

theorem KeepsForm.neighbourLost (hs : KeepsForm s0 s) {f cause : Nat} : KeepsForm s0 (s.neighbourLost f cause) :=
  .ite hs hs.update.event.faultLog

theorem KeepsForm.dropPool (hs : KeepsForm s0 s) {c : Nat} : KeepsForm s0 (s.dropPool c) := hs.update

theorem KeepsForm.channelDown (hs : KeepsForm s0 s) {c cause : Nat} : KeepsForm s0 (s.channelDown c cause) := by
  unfold State.channelDown
  refine .ite hs ?_
  refine .neighbourLost ?_
  exact hs.addFld.setChan.dropPool.setStream.setFld.setFld.setFld.linkEvent.faultLog.colReplayLost.refreshLinks.colLost

theorem KeepsForm.setLane (hs : KeepsForm s0 s) {c : Nat} {x : OptLane} : KeepsForm s0 (s.setLane c x) := hs.setOpt

theorem KeepsForm.enterLane (hs : KeepsForm s0 s) {c st : Nat} : KeepsForm s0 (s.enterLane c st) := hs.setFld.setLane

theorem KeepsForm.laneFailed (hs : KeepsForm s0 s) {c cause : Nat} : KeepsForm s0 (s.laneFailed c cause) :=
  .faultLog (.optEvent (.setFld (.enterLane (.setLane (.ite hs hs.channelDown)))))

theorem KeepsForm.channelTrain (hs : KeepsForm s0 s) {c cause : Nat} : KeepsForm s0 (s.channelTrain c cause) :=
  .ite hs.laneFailed hs.channelDown.setFld

theorem KeepsForm.joinLink (hs : KeepsForm s0 s) {c : Nat} : KeepsForm s0 (s.joinLink c) := by
  unfold State.joinLink
  split
  · exact hs.setChan.setFld.refreshLinks
  · exact hs.setChan.setFld.setFld.settleGains.refreshLinks

theorem KeepsForm.channelUp (hs : KeepsForm s0 s) {c : Nat} : KeepsForm s0 (s.channelUp c) := by
  unfold State.channelUp
  dsimp only
  split
  · refine .ite hs.setChan.dropPool.setFld.setFld.setFld.setFld.refreshLinks ?_
    exact hs.setChan.dropPool.setFld.setFld.setFld.setFld.joinLink
  · exact hs.setChan.dropPool.setFld.setFld.setFld.setFld.joinLink

theorem KeepsForm.portOff (hs : KeepsForm s0 s) {m : Nat} : KeepsForm s0 (s.portOff m) := hs.setFld.setFld

theorem KeepsForm.leaveLink (hs : KeepsForm s0 s) {c : Nat} : KeepsForm s0 (s.leaveLink c) := by
  unfold State.leaveLink
  refine .refreshLinks ?_
  refine .ite ?_ ?_
  · refine .portOff ?_
    refine .ite (.channelDown (.ite hs.setChan.setFld.sendCtrl hs.setChan.setFld)) ?_
    refine .ite (.laneFailed (.ite hs.setChan.setFld.sendCtrl hs.setChan.setFld)) ?_
    exact .ite hs.setChan.setFld.sendCtrl hs.setChan.setFld
  · refine .ite ?_ ?_
    · refine .setFld ?_
      refine .ite (.channelDown (.ite hs.setChan.setFld.sendCtrl hs.setChan.setFld)) ?_
      refine .ite (.laneFailed (.ite hs.setChan.setFld.sendCtrl hs.setChan.setFld)) ?_
      exact .ite hs.setChan.setFld.sendCtrl hs.setChan.setFld
    · refine .ite (.channelDown (.ite hs.setChan.setFld.sendCtrl hs.setChan.setFld)) ?_
      refine .ite (.laneFailed (.ite hs.setChan.setFld.sendCtrl hs.setChan.setFld)) ?_
      exact .ite hs.setChan.setFld.sendCtrl hs.setChan.setFld

theorem KeepsForm.beginLeave (hs : KeepsForm s0 s) {c why : Nat} : KeepsForm s0 (s.beginLeave c why) :=
  .ite hs (.ite hs.setChan.leaveLink hs.setChan.refreshLinks)

theorem KeepsForm.settleLeaves (hs : KeepsForm s0 s) {l : Nat} : KeepsForm s0 (s.settleLeaves l) :=
  .ite hs (hs.foldl fun hs => .ite hs hs.leaveLink)

theorem KeepsForm.setElkLane (hs : KeepsForm s0 s) {l : Nat} {x : ElkLane} : KeepsForm s0 (s.setElkLane l x) := hs.update

theorem KeepsForm.setElkPort (hs : KeepsForm s0 s) {m : Nat} {x : ElkPort} : KeepsForm s0 (s.setElkPort m x) := hs.update

theorem KeepsForm.trainLane (hs : KeepsForm s0 s) {l stage : Nat} {out : Bool} : KeepsForm s0 (s.trainLane l stage out) :=
  hs.setElkLane.setFld

theorem KeepsForm.portTrain (hs : KeepsForm s0 s) {m cause : Nat} {fromOne : Bool} :
    KeepsForm s0 (s.portTrain m cause fromOne) := by
  unfold State.portTrain
  refine .setFld ?_
  refine .foldl ?_ (fun hs => .ite hs.trainLane (.ite hs.trainLane hs.trainLane))
  refine .ite ?_ (.ite hs.channelTrain.setFld.addFld.setElkPort hs.channelTrain.setFld.addFld.setElkPort)
  exact .linkEvent (.ite hs.channelTrain.setFld.addFld.setElkPort hs.channelTrain.setFld.addFld.setElkPort)

theorem KeepsForm.retrain (hs : KeepsForm s0 s) {c cause : Nat} : KeepsForm s0 (s.retrain c cause) :=
  .ite hs.channelTrain.sendIdent hs.portTrain

theorem KeepsForm.sendNak (hs : KeepsForm s0 s) {c reason : Nat} : KeepsForm s0 (s.sendNak c reason) :=
    hs.setChan.addFld.sendCtrl

theorem KeepsForm.startReplay (hs : KeepsForm s0 s) {c i : Nat} : KeepsForm s0 (s.startReplay c i) := hs.setChan.sendCtrl

theorem KeepsForm.acknowledge (hs : KeepsForm s0 s) {c ack : Nat} : KeepsForm s0 (s.acknowledge c ack) :=
  .ite hs hs.setChan.setFld

theorem KeepsForm.takeFreed (hs : KeepsForm s0 s) {c : Nat} {freed : BitVec 192} : KeepsForm s0 (s.takeFreed c freed) :=
  hs.foldl fun hs => hs.setChan

theorem KeepsForm.heartbeat (hs : KeepsForm s0 s) {c : Nat} : KeepsForm s0 (s.heartbeat c) := hs.setChan.sendCtrl

theorem KeepsForm.refill (hs : KeepsForm s0 s) {c : Nat} : KeepsForm s0 (s.refill c) := hs.setChan

theorem KeepsForm.fillEgress (hs : KeepsForm s0 s) {c : Nat} : KeepsForm s0 (s.fillEgress c) := by
  unfold State.fillEgress
  split
  · exact hs
  · exact hs.setChan

theorem KeepsForm.linkTick (hs : KeepsForm s0 s) : KeepsForm s0 s.linkTick :=
  hs.foldl fun hs => .ite (.fillEgress (.refill (.ite hs.heartbeat hs))) (.ite hs.heartbeat hs)

theorem KeepsForm.settleCredits (hs : KeepsForm s0 s) : KeepsForm s0 s.settleCredits := .ite hs.update.linkTick hs

theorem KeepsForm.arbitrate (hs : KeepsForm s0 s) {c : Nat} {qs : List QPkt} : KeepsForm s0 (s.arbitrate c qs).2 := by
  unfold State.arbitrate
  dsimp only
  split
  · exact hs
  · split
    · exact hs
    · exact hs.fresh

theorem KeepsForm.stall (hs : KeepsForm s0 s) {c : Nat} {qs : List QPkt} : KeepsForm s0 (s.stall c qs) :=
  .ite hs (.ite hs.fresh.count (hs.fresh.count.foldl fun hs => .ite hs.count hs))

theorem KeepsForm.transmit (hs : KeepsForm s0 s) {c : Nat} {q : QPkt} {x : Chan} : KeepsForm s0 (s.transmit c q x) := by
  unfold State.transmit
  refine .sendWords ?_
  refine .capture ?_
  refine .freePool ?_
  refine .ite ?_ ?_
  · exact .ite hs.setChan.setFld.addFld.addFld.count.update.noteDepth hs.setChan.setFld.addFld.addFld.count.update
  · refine .setElkPort ?_
    exact .ite hs.setChan.setFld.addFld.addFld.count.update.noteDepth hs.setChan.setFld.addFld.addFld.count.update

end Sys2Proof.Machine
end

section
/-! ## Canonical form: time and the election -/

namespace Sys2Proof.Machine

open Sys2Proof

variable {s0 s : State}

theorem KeepsForm.setTim (hs : KeepsForm s0 s) {x : TimeState} : KeepsForm s0 (s.setTim x) := hs.update

theorem KeepsForm.timeNext (hs : KeepsForm s0 s) {st events : Nat} : KeepsForm s0 (s.timeNext st events) := hs.setTim

theorem KeepsForm.noteAlone (hs : KeepsForm s0 s) : KeepsForm s0 s.noteAlone := .ite hs.setTim hs.setTim

theorem KeepsForm.refreshAdv (hs : KeepsForm s0 s) : KeepsForm s0 s.refreshAdv := .ite hs hs.setTim.sendIdents

theorem KeepsForm.chooseParent (hs : KeepsForm s0 s) : KeepsForm s0 s.chooseParent := by
  unfold State.chooseParent
  split
  · exact hs
  · exact .ite hs.setFld.setFld.setFld.setFld.setTim.timeEvents hs.setFld.setFld.setFld.setFld

theorem KeepsForm.acquire (hs : KeepsForm s0 s) : KeepsForm s0 s.acquire := hs.setTim.timeNext

theorem KeepsForm.leaveLost (hs : KeepsForm s0 s) : KeepsForm s0 s.leaveLost :=
  .ite hs (.ite hs.chooseParent.acquire (.ite hs.setTim.acquire hs))

theorem KeepsForm.becomeMaster (hs : KeepsForm s0 s) : KeepsForm s0 s.becomeMaster :=
  hs.setFld.setFld.setFld.setFld.setFld.timeNext

theorem KeepsForm.noMaster (hs : KeepsForm s0 s) : KeepsForm s0 s.noMaster := .ite hs.timeEvents hs.timeNext

theorem EndsInForm.electionSettle (hs : KeepsForm s0 s) : EndsInForm s0 (execElectionSettle s) := by
  unfold execElectionSettle
  refine .next ?_
  refine .ite hs ?_
  refine .ite hs.setTim.noMaster ?_
  refine .ite (.ite hs.setTim.becomeMaster hs.setTim) ?_
  exact .ite hs.setTim.chooseParent.noteAlone hs.setTim.chooseParent.acquire

theorem EndsInForm.refInputLoss (hs : KeepsForm s0 s) {inp : Bool} {e1 e2 : Nat} :
    EndsInForm s0 (execRefInputLoss inp e1 e2 s) := by
  unfold execRefInputLoss
  refine .next ?_
  refine .ite hs ?_
  refine .ite (.timeNext (.ite hs.setFld.timeEvents.setTim hs.setFld.timeEvents)) ?_
  exact .refreshAdv (.ite hs.setFld.timeEvents.setTim hs.setFld.timeEvents)

theorem EndsInForm.refInputValid (hs : KeepsForm s0 s) {inp : Bool} {epochs : Nat} :
    EndsInForm s0 (execRefInputValid inp epochs s) := by
  unfold execRefInputValid
  refine .next ?_
  refine .ite hs ?_
  exact .leaveLost (.refreshAdv (.ite (.timeNext (.ite hs.setFld.setTim hs.setFld)) (.ite hs.setFld.setTim hs.setFld)))

theorem EndsInForm.refRevert (hs : KeepsForm s0 s) : EndsInForm s0 (execRefRevert s) := .next (.ite hs.setFld.timeEvents hs)

theorem KeepsForm.setExch (hs : KeepsForm s0 s) {port : Nat} {x : Exch} : KeepsForm s0 (s.setExch port x) := hs.setTim

theorem EndsInForm.timeExchange (hs : KeepsForm s0 s) {c : Channel} {phase : BitVec 8} :
    EndsInForm s0 (execTimeExchange c phase s) :=
  .next (.ite hs hs.setExch.sendCtrl)

theorem KeepsForm.useOffset (hs : KeepsForm s0 s) {port : Nat} : KeepsForm s0 (s.useOffset port) := by
  unfold State.useOffset
  refine .ite ?_ ?_
  · exact .ite hs.fresh.setFld.fresh.setTim.setExch (.ite hs.fresh.setFld.setTim.timeNext hs.fresh.setFld.setTim)
  · refine .ite (.ite hs.fresh.setFld.acquire hs.fresh.setFld.setTim) ?_
    exact .ite (.ite hs.fresh.setFld.setTim.timeNext hs.fresh.setFld.setTim) hs.fresh.setFld

theorem KeepsForm.endExchange (hs : KeepsForm s0 s) {port e : Nat} {t4 : Stamp} : KeepsForm s0 (s.endExchange port e t4) := by
  unfold State.endExchange
  dsimp only
  split
  · exact hs
  · exact .ite hs.setExch.useOffset hs.setExch

theorem EndsInForm.timeBlock (hs : KeepsForm s0 s) {c : Channel} {b : TimeBlock} {rx : BitVec 8} {wait : BitVec 16} :
    EndsInForm s0 (execTimeBlock c b rx wait s) :=
  .next (.ite hs (.ite hs.setExch (.ite hs.setExch.sendCtrl.endExchange hs.setExch.sendCtrl)))

theorem EndsInForm.holdoverExpire (hs : KeepsForm s0 s) : EndsInForm s0 (execHoldoverExpire s) := by
  unfold execHoldoverExpire
  refine .next ?_
  split
  · exact .ite hs.timeNext hs
  · exact hs

theorem EndsInForm.epochInPulse (hs : KeepsForm s0 s) {phase : BitVec 8} : EndsInForm s0 (execEpochInPulse phase s) :=
  .next (.ite hs (.ite hs.setTim.timeEvents hs.setTim))

theorem KeepsForm.judgeEpoch (hs : KeepsForm s0 s) : KeepsForm s0 s.judgeEpoch :=
  .ite hs (.ite hs.setTim (.ite hs.setTim.timeEvents hs.setTim))

theorem KeepsForm.enterTime (hs : KeepsForm s0 s) {st events : Nat} : KeepsForm s0 (s.enterTime st events) := by
  unfold State.enterTime
  refine .sendIdents ?_
  refine .refreshAdv ?_
  refine .noteAlone ?_
  refine .ite (.setTim (.setFld (.setFld (.ite hs.setFld.setTim hs.setFld.setTim.timeEvents)))) ?_
  exact .ite hs.setFld.setTim hs.setFld.setTim.timeEvents

theorem KeepsForm.countTick (hs : KeepsForm s0 s) : KeepsForm s0 s.countTick := by
  unfold State.countTick
  split
  · exact hs.setFld
  · exact hs.setFld.setTim.timeEvents

theorem KeepsForm.timeTick (hs : KeepsForm s0 s) : KeepsForm s0 s.timeTick := by
  unfold State.timeTick
  refine .ite ?_ ?_
  · refine .refreshAdv ?_
    refine .noteAlone ?_
    refine .chooseParent ?_
    refine .judgeEpoch ?_
    split
    · refine .enterTime ?_
      split
      · exact hs.countTick.setTim.setFld.setTim.timeEvents
      · exact hs.countTick.setTim
    · split
      · exact hs.countTick.setTim.setFld.setTim.timeEvents
      · exact hs.countTick.setTim
  · refine .judgeEpoch ?_
    split
    · refine .enterTime ?_
      split
      · exact hs.countTick.setTim.setFld.setTim.timeEvents
      · exact hs.countTick.setTim
    · split
      · exact hs.countTick.setTim.setFld.setTim.timeEvents
      · exact hs.countTick.setTim

end Sys2Proof.Machine
end

section
/-! ## Canonical form: the optics -/

namespace Sys2Proof.Machine

open Sys2Proof

variable {s0 s : State}

theorem KeepsForm.setRing (hs : KeepsForm s0 s) {n r : Nat} {x : Ring} : KeepsForm s0 (s.setRing n r x) :=
  .ite hs.setOpt (.ite hs.setOpt.setOpt (hs.setOpt.setOpt.foldl fun hs => .ite hs.setLane hs))

theorem KeepsForm.setCal (hs : KeepsForm s0 s) {n r line v : Nat} : KeepsForm s0 (s.setCal n r line v) := hs.setFld

theorem KeepsForm.tune (hs : KeepsForm s0 s) {c : Nat} {drop : Bool} {line : Nat} : KeepsForm s0 (s.tune c drop line) :=
  hs.setFld.setFld

theorem KeepsForm.parkRing (hs : KeepsForm s0 s) {c : Nat} {drop : Bool} : KeepsForm s0 (s.parkRing c drop) :=
  hs.fresh.fresh.setFld

theorem KeepsForm.park2 (hs : KeepsForm s0 s) {c : Nat} : KeepsForm s0 (s.park2 c) := hs.parkRing.parkRing

theorem KeepsForm.fine (hs : KeepsForm s0 s) {c : Nat} {drop : Bool} {k : Fin 9} : KeepsForm s0 (s.fine c drop k) := hs.setFld

theorem KeepsForm.acquireRing (hs : KeepsForm s0 s) {c : Nat} {drop : Bool} : KeepsForm s0 (s.acquireRing c drop) := hs.setRing

theorem KeepsForm.laneFrame (hs : KeepsForm s0 s) {c : Nat} : KeepsForm s0 (s.laneFrame c) := hs.send

theorem KeepsForm.fullTrain (hs : KeepsForm s0 s) {c : Nat} : KeepsForm s0 (s.fullTrain c) := hs.setLane.laneFrame

theorem KeepsForm.fastTrain (hs : KeepsForm s0 s) {c : Nat} : KeepsForm s0 (s.fastTrain c) :=
    hs.setLane.send.lineStart.sendIdent

theorem KeepsForm.adapted (hs : KeepsForm s0 s) {c : Nat} : KeepsForm s0 (s.adapted c) := hs.fresh.setOpt.setLane

theorem KeepsForm.beginSweep (hs : KeepsForm s0 s) {c cause : Nat} {m d : Bool} :
    KeepsForm s0 (s.beginSweep c cause m d) := by
  unfold State.beginSweep
  refine .ite hs.laneFailed ?_
  refine .optEvent ?_
  refine .count ?_
  refine .ite ?_ ?_
  · refine .setRing ?_
    refine .ite (.setRing (.setLane (.setFld (.enterLane (.ite hs hs.channelDown))))) ?_
    exact .setLane (.setFld (.enterLane (.ite hs hs.channelDown)))
  · refine .ite (.setRing (.setLane (.setFld (.enterLane (.ite hs hs.channelDown))))) ?_
    exact .setLane (.setFld (.enterLane (.ite hs hs.channelDown)))

theorem KeepsForm.relock (hs : KeepsForm s0 s) {c cause : Nat} {m d : Bool} : KeepsForm s0 (s.relock c cause m d) :=
  .ite (.ite hs.laneFailed hs.beginSweep.setFld) (.ite (.ite hs.laneFailed hs.beginSweep.setFld) hs)

theorem KeepsForm.relockB (hs : KeepsForm s0 s) {c cause : Nat} : KeepsForm s0 (s.relockB c cause) := hs.relock

theorem KeepsForm.verify (hs : KeepsForm s0 s) {c : Nat} {strict fast : Bool} : KeepsForm s0 (s.verify c strict fast) :=
  .ite hs.enterLane.setLane.setFld.fastTrain hs.enterLane.setLane.setFld.fullTrain

theorem KeepsForm.maybeUp (hs : KeepsForm s0 s) {c : Nat} : KeepsForm s0 (s.maybeUp c) := .ite hs.enterLane.setFld.channelUp hs

theorem KeepsForm.laneOff (hs : KeepsForm s0 s) {c : Nat} : KeepsForm s0 (s.laneOff c) :=
  hs.park2.enterLane.setRing.setRing.setLane.setFld.setFld.refreshLinks

theorem KeepsForm.setSource (hs : KeepsForm s0 s) {c : Nat} {src : Bool} : KeepsForm s0 (s.setSource c src) :=
  .ite hs ((hs.foldl fun hs => hs.setFld).setFld)

theorem KeepsForm.insertSpare (hs : KeepsForm s0 s) {b n : Nat} : KeepsForm s0 (s.insertSpare b n) := by
  unfold State.insertSpare
  refine .foldl ?_ (fun hs => hs.acquireRing.acquireRing)
  refine .journal ?_
  refine .optEvent ?_
  refine .setOpt ?_
  refine .setFld ?_
  refine .setFld ?_
  split
  · exact hs.setFld.setFld.setFld
  · exact hs

theorem KeepsForm.openDark (hs : KeepsForm s0 s) {b n w : Nat} : KeepsForm s0 (s.openDark b n w) :=
  (hs.foldl_snd fun hs => hs.fresh.sendPacket).setOpt

theorem KeepsForm.moveDark (hs : KeepsForm s0 s) {x : DarkWin} : KeepsForm s0 (s.moveDark x) := hs.setOpt.openDark.optEvent

theorem KeepsForm.moveMet (hs : KeepsForm s0 s) {t : Nat} : KeepsForm s0 (s.moveMet t) := hs.foldl fun hs => hs.moveDark

theorem KeepsForm.goDark (hs : KeepsForm s0 s) {c : Nat} : KeepsForm s0 (s.goDark c) := .ite hs.setFld.refreshLinks hs

theorem KeepsForm.endDark (hs : KeepsForm s0 s) {c : Nat} : KeepsForm s0 (s.endDark c) :=
  .ite hs hs.setFld.setChan.startReplay.refreshLinks

theorem KeepsForm.laserDead (hs : KeepsForm s0 s) {n : Nat} : KeepsForm s0 (s.laserDead n) :=
  (hs.foldl fun hs => hs.park2.laneFailed).optEvent

end Sys2Proof.Machine
end

section
/-! ## Canonical form: the work of a collective -/

namespace Sys2Proof.Machine

open Sys2Proof

variable {s0 s : State}

theorem KeepsForm.engLineP {e : Eng} (hs : KeepsForm s0 e.s) {fva : Nat} : KeepsForm s0 (e.lineP fva).1.s :=
  KeepsForm.engLine (e := { e with poison := none }) hs

theorem KeepsForm.engLinesP {e : Eng} (hs : KeepsForm s0 e.s) {fvas : List Nat} : KeepsForm s0 (e.linesP fvas).1.s :=
  hs.foldl_engFst fun hs => hs.engLineP

theorem KeepsForm.runSources {r : ColRun} (hs : KeepsForm s0 r.g.s) {i l : Nat} : KeepsForm s0 (r.sources i l).1.g.s := by
  unfold ColRun.sources
  dsimp only
  split
  · exact hs
  · exact KeepsForm.engLinesP (e := { r.g with level := 0, isSealed := false }) hs

theorem KeepsForm.runFromSources {r : ColRun} (hs : KeepsForm s0 r.g.s) {pre : Bool} {i l half : Nat} :
    KeepsForm s0 (r.fromSources pre i l half).1.g.s := by
  unfold ColRun.fromSources
  dsimp only
  split
  · refine hs.foldl_runFst fun hs => ?_
    split
    · exact hs
    · exact hs.runSources
  · split
    · exact hs.runSources
    · exact hs.runSources

theorem KeepsForm.runLocalPart {r : ColRun} (hs : KeepsForm s0 r.g.s) {ph : Phase} {i l half : Nat} :
    KeepsForm s0 (r.localPart ph i l half).1.g.s := by
  unfold ColRun.localPart
  dsimp only
  split
  · exact hs.runFromSources
  · split
    · exact hs
    · exact hs.engLineP

theorem KeepsForm.runNote {r : ColRun} (hs : KeepsForm s0 r.g.s) {d : Nat} {h : Hop} : KeepsForm s0 (r.note d h).g.s :=
  .ite hs.raise hs

theorem KeepsForm.runPut {r : ColRun} (hs : KeepsForm s0 r.g.s) {fva v : Nat} {pz : Bool} :
    KeepsForm s0 (r.put fva v pz).g.s :=
  hs.engWrite

theorem KeepsForm.runResult {r : ColRun} (hs : KeepsForm s0 r.g.s) {i l v : Nat} {pz : Bool} :
    KeepsForm s0 (r.result i l v pz).g.s := by
  unfold ColRun.result
  dsimp only
  split
  · exact hs
  · exact hs.runPut

theorem KeepsForm.runExponents {r : ColRun} (hs : KeepsForm s0 r.g.s) {i l v : Nat} :
    KeepsForm s0 (r.exponents i l v).g.s := by
  unfold ColRun.exponents
  dsimp only
  split
  · exact .ite hs.raise hs
  · exact .engSpan (.ite hs.raise hs)

theorem KeepsForm.runConvert {r : ColRun} (hs : KeepsForm s0 r.g.s) {i l lo hi : Nat} {pz : Bool} :
    KeepsForm s0 (r.convert i l lo hi pz).g.s :=
  hs.runNote.runResult

theorem KeepsForm.runKeep {r : ColRun} (hs : KeepsForm s0 r.g.s) {ph : Phase} {i l half v : Nat} {pz : Bool} :
    KeepsForm s0 (r.keep ph i l half v pz).g.s := by
  unfold ColRun.keep
  extract_lets d k old new src r'
  have hr : KeepsForm s0 r'.g.s := hs
  split
  · exact hs
  · split
    · exact hr.runExponents
    · split
      · exact hr.runConvert
      · exact hr.runResult

theorem KeepsForm.runStage {r : ColRun} (hs : KeepsForm s0 r.g.s) {ph : Phase} : KeepsForm s0 (r.stage ph).g.s := by
  unfold ColRun.stage
  refine KeepsForm.foldl_run (r := { r with e := { r.e with excess := [] } }) hs fun hr => ?_
  dsimp only
  split
  · exact hr
  · refine hr.foldl_runFst fun ha => ha.foldl_run fun hb => ?_
    split
    · exact hb.engWrite
    · exact hb

theorem KeepsForm.spill (hs : KeepsForm s0 s) {h n a : Nat} {pa : Bool} {b : Nat} {pb : Bool} :
    KeepsForm s0 (s.spill h n a pa b pb) :=
  .ite hs hs.putBytes.setPoison.putBytes.setPoison

theorem KeepsForm.colSend (hs : KeepsForm s0 s) {h : Nat} {p : Packet} : KeepsForm s0 (s.colSend h p) :=
  .ite hs.colAbort hs.sendPacket

theorem KeepsForm.colFailed (hs : KeepsForm s0 s) {h : Nat} {e : ColEntry} {f : EngFail} :
    KeepsForm s0 (s.colFailed h e f) := by
  unfold State.colFailed
  dsimp only
  split
  · exact hs.opXlateRecord.colAbort
  · exact hs.opXlateRecord.colAbort
  · exact hs.opXlateRecord.colAbort

theorem KeepsForm.runDone {r : ColRun} (hs : KeepsForm s0 r.g.s) {h : Nat} : KeepsForm s0 (r.done h) := by
  unfold ColRun.done
  dsimp only
  split
  · exact hs.setCol.colFailed
  · exact hs.setCol

theorem KeepsForm.sendReady (hs : KeepsForm s0 s) {h : Nat} {e : ColEntry} {round t : Nat} {ok : Bool} :
    KeepsForm s0 (s.sendReady h e round t ok) :=
  hs.setCol.foldl fun hs => .ite hs.colAbort hs.colCtl

theorem KeepsForm.unlockCol (hs : KeepsForm s0 s) {e : ColEntry} : KeepsForm s0 (s.unlockCol e) := .ite hs.setLock hs

theorem KeepsForm.agree (hs : KeepsForm s0 s) {h fuel : Nat} : KeepsForm s0 (State.agree h fuel s) := by
  induction fuel generalizing s with
  | zero => exact hs
  | succ fuel ih =>
    change KeepsForm s0 (match s.colAt h with | none => s | some e => if !e.isReady then s else _)
    cases s.colAt h with
    | none => exact hs
    | some e =>
      refine .ite hs ?_
      extract_lets xchg mine plan can vals l m f skipped e' t switches e'' s' raised unlocked
      have hu : KeepsForm s0 unlocked := by
        have hr : KeepsForm s0 raised := .ite hs.setCol.raise hs.setCol
        exact .ite hr.unlockCol hr
      refine .ite ?_ (.ite hs (.ite (ih hs.sendReady) (.ite hu.colAbort (.ite hu.askSwitch.moveMet hu))))
      cases xchg
      · exact ih (.sendReady (.ite hs.setLock hs))
      · exact ih (.sendReady (.ite hs.fresh.setLock hs.fresh))

theorem KeepsForm.colAdvance (hs : KeepsForm s0 s) {h : Nat} : KeepsForm s0 (s.colAdvance h) := hs.agree

theorem KeepsForm.runPhaseEnd {r : ColRun} (hs : KeepsForm s0 r.g.s) {ph : Phase} : KeepsForm s0 (r.phaseEnd ph).g.s := by
  unfold ColRun.phaseEnd
  split
  · exact hs
  · dsimp only
    split
    · split
      · exact hs.runStage
      · exact hs.runStage
    · split
      · exact hs
      · exact hs

theorem KeepsForm.runOwnData {r : ColRun} (hs : KeepsForm s0 r.g.s) {ph : Phase} : KeepsForm s0 (r.ownData ph).g.s :=
  hs.foldl_run fun hs => hs.foldl_run fun hs => hs.engLineP.runResult

theorem KeepsForm.runCombine {r : ColRun} (hs : KeepsForm s0 r.g.s) {x : Seg} {l : Nat} {h : Hop} {run : ItemRun} :
    KeepsForm s0 (r.combine x l h run).1.g.s := by
  unfold ColRun.combine
  split
  · exact hs
  · split
    · dsimp only
      split
      · exact (hs.checkItem.of_fst ‹_›).retireCells
      · exact ((hs.checkItem.of_fst ‹_›).retireCells).engStop

theorem KeepsForm.runInitial {r : ColRun} (hs : KeepsForm s0 r.g.s) {ph : Phase} {runs : List ItemRun} :
    KeepsForm s0 (r.initial ph runs).1.g.s := by
  unfold ColRun.initial
  refine hs.foldl_runFst fun ha => ha.foldl_runFst fun {p _} hp => ?_
  obtain ⟨r, out, runs⟩ := p
  dsimp only
  split
  · refine .runNote ?_
    split
    · exact .runCombine (.runLocalPart (r := { r with g := { r.g with level := 0 } }) hp)
    · exact .runLocalPart (r := { r with g := { r.g with level := 0 } }) hp
  · exact hp

theorem KeepsForm.startPhase (hs : KeepsForm s0 s) {h : Nat} {e : ColEntry} {ph : Phase} {z : List HostAnswer}
    {runs : List ItemRun} :
    KeepsForm s0 (s.startPhase h e ph z runs) := by
  unfold State.startPhase
  refine .ite hs.eng.runOwnData.runInitial.runPhaseEnd.runDone ?_
  exact (hs.eng.runOwnData.runInitial.runPhaseEnd.runDone.foldl fun hs => hs.colSend).colAdvance

theorem KeepsForm.runXLine {r : ColRun} (hs : KeepsForm s0 r.g.s) {from_ off v : Nat} {pz : Bool} :
    KeepsForm s0 (r.xLine from_ off v pz).g.s := by
  unfold ColRun.xLine
  dsimp only
  split
  · exact hs.runPut
  · exact hs

theorem KeepsForm.sendBlocks (hs : KeepsForm s0 s) {h : Nat} {e : ColEntry} {bs : List (Nat × List Packet)} :
    KeepsForm s0 (s.sendBlocks h e bs) := by
  unfold State.sendBlocks
  exact hs.foldl fun hs => .ite (hs.foldl fun hs => .ite hs hs.colSend) ((hs.foldl fun hs => .ite hs hs.colSend).colCtl)

theorem KeepsForm.exchangeGo (hs : KeepsForm s0 s) {h : Nat} : KeepsForm s0 (s.exchangeGo h) := by
  unfold State.exchangeGo
  split
  · exact hs
  · refine .ite hs ?_
    dsimp only
    split
    · exact hs.setCol.sendBlocks.setCol.colAdvance
    · exact hs.setCol.sendBlocks

theorem KeepsForm.startExchange (hs : KeepsForm s0 s) {h : Nat} {e : ColEntry} {z : List HostAnswer} :
    KeepsForm s0 (s.startExchange h e z) := by
  unfold State.startExchange
  dsimp only
  split
  · refine .runDone ?_
    refine hs.eng.foldl_run fun hs => ?_
    split
    · split
      · refine hs.foldl_runFst fun hs => ?_
        split
        · exact hs.engLineP
        · exact hs.engLineP.runXLine
      · refine hs.foldl_runFst fun hs => ?_
        split
        · exact hs.engLineP
        · exact hs.engLineP.runXLine
    · split
      · refine hs.foldl_runFst fun hs => ?_
        split
        · exact hs.engLineP
        · exact hs.engLineP
      · refine hs.foldl_runFst fun hs => ?_
        split
        · exact hs.engLineP
        · exact hs.engLineP
  · refine .exchangeGo ?_
    refine .colAdvance ?_
    refine .runDone ?_
    refine hs.eng.foldl_run fun hs => ?_
    split
    · split
      · refine hs.foldl_runFst fun hs => ?_
        split
        · exact hs.engLineP
        · exact hs.engLineP.runXLine
      · refine hs.foldl_runFst fun hs => ?_
        split
        · exact hs.engLineP
        · exact hs.engLineP.runXLine
    · split
      · refine hs.foldl_runFst fun hs => ?_
        split
        · exact hs.engLineP
        · exact hs.engLineP
      · refine hs.foldl_runFst fun hs => ?_
        split
        · exact hs.engLineP
        · exact hs.engLineP

theorem KeepsForm.reserve (hs : KeepsForm s0 s) {slots : Nat} : KeepsForm s0 (s.reserve slots) := hs.foldl fun hs => hs.addFld

theorem KeepsForm.unreserve (hs : KeepsForm s0 s) {held : List Nat} {slots : Nat} : KeepsForm s0 (s.unreserve held slots) :=
  hs.foldl fun hs => hs.setFld

theorem KeepsForm.sendJoins (hs : KeepsForm s0 s) {e : ColEntry} : KeepsForm s0 (s.sendJoins e) := hs.foldl fun hs => hs.colCtl

theorem KeepsForm.decided (hs : KeepsForm s0 s) {h : Nat} {e : ColEntry} : KeepsForm s0 (s.decided h e) :=
  hs.setCol.sendJoins.colAdvance

theorem KeepsForm.freeCol (hs : KeepsForm s0 s) {h : Nat} {e : ColEntry} : KeepsForm s0 (s.freeCol h e) :=
  hs.unreserve.update.setReg.colNote

end Sys2Proof.Machine
end

section
/-! ## Canonical form: access to control space -/

namespace Sys2Proof.Machine

open Sys2Proof

variable {s0 s : State}

theorem KeepsForm.denied (hs : KeepsForm s0 s) {via : Via} : KeepsForm s0 (s.denied via) := by
  unfold State.denied
  split
  · exact hs.count
  · exact hs

theorem KeepsForm.gate (hs : KeepsForm s0 s) {via : Via} {off : Nat} {f : State → State}
    (hf : ∀ {t}, KeepsForm s0 t → KeepsForm s0 (f t)) :
    KeepsForm s0 (s.gate via off f) :=
  .ite (hf hs) hs.denied

end Sys2Proof.Machine
end

section
/-! ## Canonical form: requests at their home -/

namespace Sys2Proof.Machine

open Sys2Proof

variable {s0 s : State}

theorem KeepsForm.setSharers (hs : KeepsForm s0 s) {m : FMap (BitVec 64)} : KeepsForm s0 (s.setSharers m) := hs.update.setFld

theorem KeepsForm.share (hs : KeepsForm s0 s) {i p feid : Nat} : KeepsForm s0 (s.share i p feid).1 := by
  unfold State.share
  split
  · exact hs
  · dsimp only
    split
    · exact hs.setSharers
    · split
      · exact hs.count
      · exact hs.setSharers

theorem KeepsForm.shareAt (hs : KeepsForm s0 s) {i : Nat} {p : Packet} : KeepsForm s0 (s.shareAt i p).1 := by
  unfold State.shareAt
  split
  · exact hs.share
  · exact hs

theorem KeepsForm.loadAt (hs : KeepsForm s0 s) {p : Packet} {pl : Place} {e : Ecc} : KeepsForm s0 (s.loadAt p pl e) := by
  unfold State.loadAt
  split
  · exact .ite hs.hbmRead.respond hs.hbmRead.shareAt.sendPacket
  · exact hs.shareAt.loadHost

theorem KeepsForm.load (hs : KeepsForm s0 s) {p : Packet} {e : Ecc} : KeepsForm s0 (s.load p e) := by
  unfold State.load
  split
  · exact ((hs.judgeAt.of_fst ‹_›).takeLocal).respond
  · exact .ite hs (((hs.judgeAt.of_fst ‹_›).takeLocal).loadAt)

theorem EndsInForm.readRequest (hs : KeepsForm s0 s) {p : Packet} {e : Ecc} : EndsInForm s0 (execReadRequest p e s) :=
  .next (.ite hs.load hs)

theorem EndsInForm.breadRequest (hs : KeepsForm s0 s) {p : Packet} {e : Ecc} : EndsInForm s0 (execBreadRequest p e s) :=
  .next (.ite hs.load hs)

theorem KeepsForm.store (hs : KeepsForm s0 s) {p : Packet} : KeepsForm s0 (s.store p) := by
  unfold State.store
  split
  · exact ((hs.judgeAt.of_fst ‹_›).takeLocal).respond
  · exact .ite hs (((hs.judgeAt.of_fst ‹_›).takeLocal).storeHbm)
  · exact ((hs.judgeAt.of_fst ‹_›).takeLocal).storeHost

theorem EndsInForm.writeRequest (hs : KeepsForm s0 s) {p : Packet} : EndsInForm s0 (execWriteRequest p s) :=
  .next (.ite hs.store hs)

theorem EndsInForm.bwriteRequest (hs : KeepsForm s0 s) {p : Packet} : EndsInForm s0 (execBwriteRequest p s) :=
  .next (.ite hs.store hs)

theorem EndsInForm.wbRequest (hs : KeepsForm s0 s) {p : Packet} : EndsInForm s0 (execWbRequest p s) := .next (.ite hs.store hs)

theorem KeepsForm.atomic (hs : KeepsForm s0 s) {p : Packet} {fail : Bool} : KeepsForm s0 (s.atomic p fail) := by
  unfold State.atomic
  split
  · exact ((hs.judgeAt.of_fst ‹_›).takeLocal).respond
  · exact .ite hs (((hs.judgeAt.of_fst ‹_›).takeLocal).ledgered fun hs => .ite hs.atomHbm hs.redHbm)
  · exact .ite hs (((hs.judgeAt.of_fst ‹_›).takeLocal).ledgered fun hs => hs.atomHost)

theorem EndsInForm.atomRequest (hs : KeepsForm s0 s) {p : Packet} {fail : Bool} : EndsInForm s0 (execAtomRequest p fail s) :=
  .next (.ite hs.atomic hs)

theorem EndsInForm.redRequest (hs : KeepsForm s0 s) {p : Packet} {fail : Bool} : EndsInForm s0 (execRedRequest p fail s) :=
  .next (.ite hs.atomic hs)

theorem KeepsForm.setOwner (hs : KeepsForm s0 s) {i owner : Nat} : KeepsForm s0 (s.setOwner i owner) := hs.update

theorem KeepsForm.ownAt (hs : KeepsForm s0 s) {p : Packet} {i : Nat} {done : State → Nat → Nat → Nat → State}
    (hdone : ∀ {t x1 x2 x3}, KeepsForm s0 t → KeepsForm s0 (done t x1 x2 x3)) :
    KeepsForm s0 (s.ownAt p i done) :=
  hs.ledgered fun hs => .ite (hdone hs) (hdone (.ite hs hs.setOwner))

theorem KeepsForm.ownership (hs : KeepsForm s0 s) {p : Packet} : KeepsForm s0 (s.ownership p) := by
  unfold State.ownership
  split
  · exact ((hs.judgeAt.of_fst ‹_›).takeLocal).respond
  · exact .ite hs (((hs.judgeAt.of_fst ‹_›).takeLocal).ownAt fun hs => hs.atomDone)
  · exact ((hs.judgeAt.of_fst ‹_›).takeLocal).ownAt fun hs => hs.record.respond

theorem EndsInForm.ownAcqRequest (hs : KeepsForm s0 s) {p : Packet} : EndsInForm s0 (execOwnAcqRequest p s) :=
  .next (.ite hs.ownership hs)

theorem EndsInForm.ownRelRequest (hs : KeepsForm s0 s) {p : Packet} : EndsInForm s0 (execOwnRelRequest p s) :=
  .next (.ite hs.ownership hs)

theorem KeepsForm.invlDone (hs : KeepsForm s0 s) {k : Track} : KeepsForm s0 (s.invlDone k) := .respond (.ite hs.setSharers hs)

theorem KeepsForm.invl (hs : KeepsForm s0 s) {p : Packet} : KeepsForm s0 (s.invl p) := by
  unfold State.invl
  split
  · exact ((hs.judgeAt.of_fst ‹_›).takeLocal).respond
  · extract_lets t i e m
    have ht : KeepsForm s0 t := (hs.judgeAt.of_fst ‹_›).takeLocal
    refine .ite ht.respond (.ite ht.respond (.ite ht.respond ?_))
    split
    rename_i u dest hd
    have hu : KeepsForm s0 u := by
      refine KeepsForm.of_fst ?_ hd
      exact .foldl_fst ht fun hs => hs.ownTag
    exact .ite hu.invlDone (hu.update.foldl fun hs => hs.sendPacket)

theorem EndsInForm.invlRequest (hs : KeepsForm s0 s) {p : Packet} : EndsInForm s0 (execInvlRequest p s) := .next
    (.ite hs.invl hs)

theorem EndsInForm.invRequest (hs : KeepsForm s0 s) {p : Packet} : EndsInForm s0 (execInvRequest p s) := by
  unfold execInvRequest
  exact .next (.ite hs (.ite hs.takeLocal.respond (.ite hs.takeLocal.respond hs.takeLocal.rlcDrop.update.respond)))

theorem KeepsForm.untrack (hs : KeepsForm s0 s) {k : Track} : KeepsForm s0 (s.untrack k) := hs.update

theorem EndsInForm.sharerAck (hs : KeepsForm s0 s) {p : Packet} : EndsInForm s0 (execSharerAck p s) := by
  unfold execSharerAck
  refine .next ?_
  split
  · exact hs
  · refine .ite hs.takeLocal ?_
    exact .ite hs.takeLocal.untrack.raise.respond (.ite hs.takeLocal.untrack.invlDone hs.takeLocal.update)

theorem EndsInForm.mcopyRequest (hs : KeepsForm s0 s) {p : Packet} : EndsInForm s0 (execMcopyRequest p s) := by
  unfold execMcopyRequest
  refine .next ?_
  refine .ite hs ?_
  split
  · exact ((hs.judgeAt.of_fst ‹_›).takeLocal).respond
  · exact .ite ((((hs.judgeAt.of_fst ‹_›).takeLocal).performStore).respond) (((hs.judgeAt.of_fst ‹_›).takeLocal).respond)
  · exact ((hs.judgeAt.of_fst ‹_›).takeLocal).respond

theorem EndsInForm.matomRequest (hs : KeepsForm s0 s) {p : Packet} : EndsInForm s0 (execMatomRequest p s) := by
  unfold execMatomRequest
  refine .next ?_
  refine .ite hs ?_
  split
  · exact ((hs.judgeAt.of_fst ‹_›).takeLocal).respond
  · refine .ite (((hs.judgeAt.of_fst ‹_›).takeLocal).respond) ?_
    split
    · exact ((((hs.judgeAt.of_fst ‹_›).takeLocal).raise).count).respond
    · exact ((((hs.judgeAt.of_fst ‹_›).takeLocal).homeWrite).record).respond
  · exact ((hs.judgeAt.of_fst ‹_›).takeLocal).respond

theorem KeepsForm.mirrorGone (hs : KeepsForm s0 s) {m : MirrorOp} : KeepsForm s0 (s.mirrorGone m) := hs.update

theorem KeepsForm.engineFails (hs : KeepsForm s0 s) {who st : Nat} : KeepsForm s0 (s.engineFails who st) := .ite hs hs.update

theorem KeepsForm.settleClosing (hs : KeepsForm s0 s) : KeepsForm s0 s.settleClosing := by
  unfold State.settleClosing
  refine hs.foldl fun hs => ?_
  split
  · dsimp only
    split
    · exact hs.update.closeOp
    · exact hs.update.closeOp

theorem EndsInForm.mirrorAck (hs : KeepsForm s0 s) {p : Packet} : EndsInForm s0 (execMirrorAck p s) := by
  unfold execMirrorAck
  refine .next ?_
  split
  · exact hs
  · refine .ite hs.takeLocal ?_
    dsimp only
    split
    · exact .settleClosing (.settleWaits (.ite hs.takeLocal.mirrorGone.raise hs.takeLocal.mirrorGone))
    · exact .settleClosing (.settleWaits (.ite hs.takeLocal.mirrorGone.raise hs.takeLocal.mirrorGone))
    · exact .respond (.ite hs.takeLocal.mirrorGone.raise hs.takeLocal.mirrorGone)
    · refine .settleClosing ?_
      refine .ite (.performStore (.ite hs.takeLocal.mirrorGone.raise hs.takeLocal.mirrorGone)) ?_
      exact .engineFails (.ite hs.takeLocal.mirrorGone.raise hs.takeLocal.mirrorGone)
    · refine .ite (.finish (.performStore (.ite hs.takeLocal.mirrorGone.raise hs.takeLocal.mirrorGone))) ?_
      exact .finish (.ite hs.takeLocal.mirrorGone.raise hs.takeLocal.mirrorGone)

theorem EndsInForm.hostFlushRead (hs : KeepsForm s0 s) {h : PortNo} : EndsInForm s0 (execHostFlushRead h s) := by
  unfold execHostFlushRead
  refine .next ?_
  dsimp only
  split
  · exact hs
  · exact .ite hs hs.send.update

theorem KeepsForm.batchDone (hs : KeepsForm s0 s) {f : Flush} {status : Nat} : KeepsForm s0 (s.batchDone f status) :=
  hs.update.foldl fun hs => .respond (.ite hs hs.hostError)

theorem EndsInForm.hostFlushCompletion (hs : KeepsForm s0 s) {h : PortNo} {a : HostAnswer} :
    EndsInForm s0 (execHostFlushCompletion h a s) := by
  unfold execHostFlushCompletion
  refine .next ?_
  split
  · exact hs
  · split
    · exact hs.poisonCame.batchDone
    · exact hs.batchDone
    · exact hs.batchDone

theorem KeepsForm.hostAnswer (hs : KeepsForm s0 s) {r : HostReq} {status : Nat} {data : Line} :
    KeepsForm s0 (s.hostAnswer r status data) := by
  unfold State.hostAnswer
  refine .ite ?_ ?_
  · refine .respond ?_
    split
    · exact .record (.ite hs.update.poisonCame hs.update.hostError)
    · exact .ite hs.update.poisonCame hs.update.hostError
  · refine .ite (.respond (.ite hs.update.poisonCame hs.update.hostError)) ?_
    exact .sendPacket (.ite hs.update.poisonCame hs.update.hostError)

theorem EndsInForm.hostCompletion (hs : KeepsForm s0 s) {h : PortNo} {hpa : Nat} {a : HostAnswer} :
    EndsInForm s0 (execHostCompletion h hpa a s) := by
  unfold execHostCompletion
  refine .next ?_
  split
  · exact hs
  · split
    · exact hs.hostAnswer
    · exact hs.hostAnswer
    · exact hs.hostAnswer

theorem EndsInForm.hostCompletionTimeout (hs : KeepsForm s0 s) {h : PortNo} {flush : Bool} {hpa : Nat} :
    EndsInForm s0 (execHostCompletionTimeout h flush hpa s) := by
  unfold execHostCompletionTimeout
  refine .next ?_
  refine .ite ?_ ?_
  · split
    · exact hs
    · exact .ite hs.raise.batchDone hs
  · split
    · exact hs
    · exact .ite hs.raise.hostAnswer hs

theorem EndsInForm.ledgerRead (hs : KeepsForm s0 s) {via : Via} : EndsInForm s0 (execLedgerRead via s) :=
  .next (hs.gate fun hs => .ite hs (hs.foldl fun hs => hs.setFld))

end Sys2Proof.Machine
end

section
/-! ## Canonical form: watch lines -/

namespace Sys2Proof.Machine

open Sys2Proof

variable {s0 s : State}

theorem KeepsForm.noteWatch (hs : KeepsForm s0 s) {w : Nat} : KeepsForm s0 (s.noteWatch w) := .ite hs hs.setFld

theorem KeepsForm.wakeParked (hs : KeepsForm s0 s) {t status : Nat} : KeepsForm s0 (s.wakeParked t status) :=
  hs.runnable.setPc.writeStatus.takeHeld

theorem KeepsForm.delivered (hs : KeepsForm s0 s) {w : Nat} {snap : Line} : KeepsForm s0 (s.delivered w snap) := hs.setWl

theorem KeepsForm.deliverSnap (hs : KeepsForm s0 s) {w t : Nat} {snap : Line} : KeepsForm s0 (s.deliverSnap w t snap) :=
  hs.setThr.delivered

theorem KeepsForm.watchWork (hs : KeepsForm s0 s) {w : Nat} {snap : Line} : KeepsForm s0 (s.watchWork w snap) :=
  .ite hs.deliverSnap.setWl.wakeParked hs.setWl

theorem KeepsForm.evaluate (hs : KeepsForm s0 s) {w : Nat} {l : Line} : KeepsForm s0 (s.evaluate w l) :=
  .ite hs (.ite hs.watchWork (.ite hs.setWl (.ite hs.setWl (.watchWork (.ite hs hs.setWl)))))

theorem KeepsForm.watchError (hs : KeepsForm s0 s) {w : Nat} : KeepsForm s0 (s.watchError w) :=
  .ite hs.setWl.raise.noteWatch.wakeParked hs.setWl.raise.noteWatch

theorem KeepsForm.watchDisable (hs : KeepsForm s0 s) {w : Nat} : KeepsForm s0 (s.watchDisable w) :=
  .ite hs.setFld.setWl.update.noteWatch.wakeParked hs.setFld.setWl.update.noteWatch

theorem KeepsForm.watchFirst (hs : KeepsForm s0 s) {w : Nat} {l : Line} : KeepsForm s0 (s.watchFirst w l) := hs.setWl

theorem KeepsForm.watchPortDown (hs : KeepsForm s0 s) {h : Nat} : KeepsForm s0 (s.watchPortDown h) :=
  hs.foldl fun hs => .ite hs.watchError hs

theorem EndsInForm.watchEnable (hs : KeepsForm s0 s) {via : Via} {w : Fin 4096} {mode : Bool} {part : PartNo} :
    EndsInForm s0 (execWatchEnable via w mode part s) := by
  unfold execWatchEnable
  refine .next ?_
  refine hs.gate fun hs => ?_
  refine .ite (.ite hs hs.raise) ?_
  refine .ite hs.setFld.setFld.setFld.setWl.raise ?_
  exact .ite hs.setFld.setFld.setFld.setWl hs.setFld.setFld.setFld.setWl.noteWatch.send

theorem EndsInForm.watchDisable (hs : KeepsForm s0 s) {via : Via} {w : Fin 4096} {mode : Bool} {part : PartNo} :
    EndsInForm s0 (execWatchDisable via w mode part s) :=
  .next (hs.gate fun hs => .setFld (.setFld (.ite hs.watchDisable hs)))

theorem EndsInForm.watchArmed (hs : KeepsForm s0 s) {w : Fin 4096} {host : Option Line} :
    EndsInForm s0 (execWatchArmed w host s) := by
  unfold execWatchArmed
  refine .next ?_
  refine .ite hs ?_
  refine .ite hs.watchFirst ?_
  split
  · exact hs.watchFirst
  · exact hs.watchError

theorem EndsInForm.watchEvaluate (hs : KeepsForm s0 s) {w : Fin 4096} : EndsInForm s0 (execWatchEvaluate w s) :=
  .next (.ite hs.update.evaluate hs)

theorem EndsInForm.watchDeadline (hs : KeepsForm s0 s) {w : Fin 4096} : EndsInForm s0 (execWatchDeadline w s) :=
  .next (.ite hs.setWl.wakeParked hs)

theorem EndsInForm.snpInv (hs : KeepsForm s0 s) {h : PortNo} {line : BitVec 46} : EndsInForm s0 (execSnpInv h line s) :=
  .next (hs.send.foldl fun hs => hs.setWl.send)

theorem EndsInForm.snpData (hs : KeepsForm s0 s) {h : PortNo} {line : BitVec 46} : EndsInForm s0 (execSnpData h line s) :=
  .next hs.send

theorem EndsInForm.snpCur (hs : KeepsForm s0 s) {h : PortNo} {line : BitVec 46} : EndsInForm s0 (execSnpCur h line s) :=
  .next hs.send

theorem EndsInForm.watchRereadData (hs : KeepsForm s0 s) {w : Fin 4096} {host : Option Line} :
    EndsInForm s0 (execWatchRereadData w host s) := by
  unfold execWatchRereadData
  refine .next ?_
  refine .ite ?_ hs
  split
  · exact hs.setWl.evaluate
  · exact hs.watchError

end Sys2Proof.Machine
end

section
/-! ## Canonical form: thread commands -/

namespace Sys2Proof.Machine

open Sys2Proof

variable {s0 s : State}

theorem KeepsForm.cmdDeny (hs : KeepsForm s0 s) {page : Option PartNo} : KeepsForm s0 (s.cmdDeny page) := by
  unfold State.cmdDeny
  dsimp only
  split
  · exact hs.raise
  · exact hs.raise.raise

theorem KeepsForm.threadCmd (hs : KeepsForm s0 s) {via : Via} {page : Option PartNo} {t : ThreadNo} {ok : State → Bool}
    {f : State → State} (hf : ∀ {t}, KeepsForm s0 t → KeepsForm s0 (f t)) :
    KeepsForm s0 (s.threadCmd via page t ok f) :=
  hs.gate fun hs => .ite (hf hs) hs.cmdDeny

theorem EndsInForm.threadStart (hs : KeepsForm s0 s) {via : Via} {page : Option PartNo} {t : ThreadNo} :
    EndsInForm s0 (execThreadStart via page t s) :=
  .next (hs.threadCmd fun hs => hs.runnable.takeHeld)

theorem EndsInForm.threadHalt (hs : KeepsForm s0 s) {via : Via} {page : Option PartNo} {t : ThreadNo} :
    EndsInForm s0 (execThreadHalt via page t s) :=
  .next (hs.threadCmd fun hs => hs.haltThread)

theorem EndsInForm.threadResume (hs : KeepsForm s0 s) {via : Via} {page : Option PartNo} {t : ThreadNo} :
    EndsInForm s0 (execThreadResume via page t s) :=
  .next (hs.threadCmd fun hs => hs.runnable.takeHeld)

theorem EndsInForm.threadSkip (hs : KeepsForm s0 s) {via : Via} {page : Option PartNo} {t : ThreadNo} :
    EndsInForm s0 (execThreadSkip via page t s) :=
  .next (hs.threadCmd fun hs => hs.runnable.setPc.takeHeld)

theorem EndsInForm.threadReset (hs : KeepsForm s0 s) {via : Via} {page : Option PartNo} {t : ThreadNo} :
    EndsInForm s0 (execThreadReset via page t s) :=
  .next (hs.threadCmd fun hs => hs.haltThread.clearThread)

theorem KeepsForm.icFill (hs : KeepsForm s0 s) {sq line : Nat} {tag : BitVec 16} {data : Line} :
    KeepsForm s0 (s.icFill sq line tag data) :=
  .ite hs.update hs.fresh.update

theorem KeepsForm.icDrop (hs : KeepsForm s0 s) {p : Nat} : KeepsForm s0 (s.icDrop p) := hs.update

theorem EndsInForm.icacheInvalidate (hs : KeepsForm s0 s) {via : Via} {p : PartNo} :
    EndsInForm s0 (execIcacheInvalidate via p s) :=
  .next (hs.gate fun hs => hs.icDrop)

theorem EndsInForm.icacheFill (hs : KeepsForm s0 s) {t : ThreadNo} : EndsInForm s0 (execIcacheFill t s) := by
  unfold execIcacheFill
  refine .next ?_
  split
  · refine .ite hs ?_
    split
    · exact (((hs.fetchLine.of_fst ‹_›).icFill).runnable).takeHeld
    · exact (hs.fetchLine.of_fst ‹_›).threadFault
  · exact hs

end Sys2Proof.Machine
end

section
/-! ## Canonical form: partitions, measurements and keys -/

namespace Sys2Proof.Machine

open Sys2Proof

variable {s0 s : State}

theorem KeepsForm.secDeny (hs : KeepsForm s0 s) : KeepsForm s0 s.secDeny := hs.raise

theorem KeepsForm.partResult (hs : KeepsForm s0 s) {p status : Nat} : KeepsForm s0 (s.partResult p status) :=
  .ite hs.setFld hs.setFld.secDeny

theorem KeepsForm.noteEarliest (hs : KeepsForm s0 s) {p : Nat} : KeepsForm s0 (s.noteEarliest p) := hs.setReg

theorem KeepsForm.noteScrubs (hs : KeepsForm s0 s) : KeepsForm s0 s.noteScrubs := hs.setFld.setFld

theorem KeepsForm.freeRange (hs : KeepsForm s0 s) {i : Nat} : KeepsForm s0 (s.freeRange i) := hs.setReg

theorem KeepsForm.scrubRange (hs : KeepsForm s0 s) {i : Nat} : KeepsForm s0 (s.scrubRange i) := hs.setFld.noteScrubs

theorem KeepsForm.noteSlots (hs : KeepsForm s0 s) {p : Nat} : KeepsForm s0 (s.noteSlots p) := hs.setFld

theorem KeepsForm.clearSlot (hs : KeepsForm s0 s) {p n : Nat} : KeepsForm s0 (s.clearSlot p n) := hs.update.noteSlots

theorem KeepsForm.clearKeys (hs : KeepsForm s0 s) {p : Nat} : KeepsForm s0 (s.clearKeys p) := hs.update.noteSlots.setFld

theorem KeepsForm.noteLoads (hs : KeepsForm s0 s) : KeepsForm s0 s.noteLoads := hs.setFld

theorem KeepsForm.loadStatus (hs : KeepsForm s0 s) {token status fail loaded : Nat} :
    KeepsForm s0 (s.loadStatus token status fail loaded) :=
  hs.setFld.setFld.setFld.setFld.raise

theorem KeepsForm.loadEnds (hs : KeepsForm s0 s) {token status loaded : Nat} :
    KeepsForm s0 (s.loadEnds token status loaded) :=
  hs.fresh.loadStatus

theorem KeepsForm.startChunks (hs : KeepsForm s0 s) : KeepsForm s0 s.startChunks := by
  unfold State.startChunks
  split
  · exact hs
  · split
    · exact hs
    · exact hs.update

theorem KeepsForm.finishLoad (hs : KeepsForm s0 s) : KeepsForm s0 s.finishLoad := by
  unfold State.finishLoad
  split
  · exact hs
  · refine .ite hs.startChunks ?_
    refine .startChunks ?_
    refine .noteLoads ?_
    split
    · exact hs.update.loadStatus
    · exact .ite hs.update.loadStatus hs.update.loadEnds

theorem KeepsForm.abortLoads (hs : KeepsForm s0 s) {p : Nat} : KeepsForm s0 (s.abortLoads p) :=
  ((hs.update.foldl fun hs => hs.loadEnds).noteLoads).finishLoad

theorem KeepsForm.dropLoads (hs : KeepsForm s0 s) {p n : Nat} : KeepsForm s0 (s.dropLoads p n) := by
  unfold State.dropLoads
  dsimp only
  split
  · exact hs
  · exact ((hs.update.foldl fun hs => hs.loadEnds).noteLoads).finishLoad

theorem KeepsForm.putLines (hs : KeepsForm s0 s) {a : Nat} {bs : List Byte} : KeepsForm s0 (s.putLines a bs) :=
    hs.putBytes.update

theorem KeepsForm.quoteRecord (hs : KeepsForm s0 s) {p : Nat} {nonce : BitVec 256} : KeepsForm s0 (s.quoteRecord p nonce).2 :=
  hs.fresh

theorem KeepsForm.storeBytes (hs : KeepsForm s0 s) {a n : Nat} {bs : List Byte} : KeepsForm s0 (s.storeBytes a n bs) := by
  induction n generalizing s a bs with
  | zero => exact hs
  | succ n ih => exact ih hs.homeWrite

theorem KeepsForm.quoteResult (hs : KeepsForm s0 s) {status : Nat} : KeepsForm s0 (s.quoteResult status) :=
    hs.setFld.setFld.raise

theorem KeepsForm.keepNonce (hs : KeepsForm s0 s) {p : Nat} {nonce : BitVec 256} : KeepsForm s0 (s.keepNonce p nonce) :=
    hs.update

theorem KeepsForm.keyResult (hs : KeepsForm s0 s) {status : Nat} : KeepsForm s0 (s.keyResult status) := hs.setFld.setFld.raise

theorem KeepsForm.rangeResult (hs : KeepsForm s0 s) {status : Nat} : KeepsForm s0 (s.rangeResult status) :=
  .ite hs.setFld.raise hs.setFld.raise.secDeny

theorem KeepsForm.resetThreads (hs : KeepsForm s0 s) {p : Nat} : KeepsForm s0 (s.resetThreads p) := by
  unfold State.resetThreads
  exact ((hs.foldl fun hs => hs.haltThread.clearThread.setThr).foldl fun hs => .ite hs.watchDisable hs).icDrop

theorem KeepsForm.resetSieve (hs : KeepsForm s0 s) {p : Nat} : KeepsForm s0 (s.resetSieve p) :=
  .setSharers (.ite hs.update.noteCached.update.setFld hs.update.noteCached)

theorem KeepsForm.resetKernels (hs : KeepsForm s0 s) {p : Nat} : KeepsForm s0 (s.resetKernels p) :=
  (hs.foldl fun hs => hs.setLpos).update

theorem KeepsForm.resetTransfers (hs : KeepsForm s0 s) {p : Nat} : KeepsForm s0 (s.resetTransfers p) := hs.update

theorem KeepsForm.resetCollectives (hs : KeepsForm s0 s) {p : Nat} : KeepsForm s0 (s.resetCollectives p) :=
  hs.foldl fun hs => .ite hs.colAbort hs

theorem KeepsForm.resetSecurity (hs : KeepsForm s0 s) {p : Nat} : KeepsForm s0 (s.resetSecurity p) := by
  unfold State.resetSecurity
  exact (hs.abortLoads.clearKeys.update.setFld.setFld.foldl fun hs => hs.freeRange).foldl fun hs => hs.scrubRange

theorem KeepsForm.resetPartition (hs : KeepsForm s0 s) {p : Nat} : KeepsForm s0 (s.resetPartition p) := by
  unfold State.resetPartition
  refine .recheck ?_
  refine .noteEarliest ?_
  refine .resetSecurity ?_
  exact hs.update.setFld.setFld.resetCollectives.resetThreads.resetSieve.resetKernels.resetTransfers.rlcDrop.update.setFld

end Sys2Proof.Machine
end

section
/-! ## Canonical form: the management controller -/

namespace Sys2Proof.Machine

open Sys2Proof

variable {s0 s : State}

theorem EndsInForm.i3cEntdaa (hs : KeepsForm s0 s) {a : BitVec 7} : EndsInForm s0 (execI3cEntdaa a s) := .next hs.update.send

theorem EndsInForm.i3cPowerRead (hs : KeepsForm s0 s) : EndsInForm s0 (execI3cPowerRead s) := .next (.ite hs hs.send)

theorem EndsInForm.i3cCapWrite (hs : KeepsForm s0 s) {v : BitVec 16} : EndsInForm s0 (execI3cCapWrite v s) :=
  .next (.ite hs (.ite hs.send (.ite hs.setFld hs)))

theorem KeepsForm.showBank (hs : KeepsForm s0 s) {b : Nat} {valid : Bool} {seq : Nat} :
    KeepsForm s0 (s.showBank b valid seq) :=
  hs.setFld.setFld

theorem KeepsForm.setResult (hs : KeepsForm s0 s) {status : Nat} : KeepsForm s0 (s.setResult status) := hs.setFld.setFld.raise

theorem EndsInForm.settingsProgram (hs : KeepsForm s0 s) {via : Via} {src : BitVec 46} :
    EndsInForm s0 (execSettingsProgram via src s) := by
  unfold execSettingsProgram
  refine .next ?_
  exact hs.gate fun hs => .ite hs.setFld (.ite hs.setResult (.ite hs.setResult hs.flashErase.showBank.update.setFld))

theorem KeepsForm.putItems (hs : KeepsForm s0 s) {a : Nat} {m : FMap Nat} : KeepsForm s0 (s.putItems a m) := by
  induction m generalizing s a with
  | nil => exact hs
  | cons e r ih =>
    unfold State.putItems
    exact ih hs.flashWrite.update

theorem KeepsForm.restartC1 (hs : KeepsForm s0 s) : KeepsForm s0 s.restartC1 := hs.update

theorem EndsInForm.programDone (hs : KeepsForm s0 s) : EndsInForm s0 (execProgramDone s) := by
  unfold execProgramDone
  refine .next ?_
  split
  · exact hs
  · refine .ite hs.update.flashWrite.putItems.flashWrite.setResult ?_
    refine .ite hs.update.flashWrite.putItems.flashWrite.showBank.setResult.restartC1 ?_
    exact hs.update.flashWrite.putItems.flashWrite.showBank.setResult

theorem KeepsForm.fwResult (hs : KeepsForm s0 s) {status : Nat} : KeepsForm s0 (s.fwResult status) := hs.setFld.raise

theorem EndsInForm.fwSwap (hs : KeepsForm s0 s) {via : Via} : EndsInForm s0 (execFwSwap via s) :=
  .next (hs.gate fun hs => .ite hs.fwResult (.ite hs.fwResult hs.update.setFld))

theorem KeepsForm.runFirmware (hs : KeepsForm s0 s) {b : Nat} {rs : List Rec} : KeepsForm s0 (s.runFirmware b rs) :=
  hs.setFld.setFld.update

theorem KeepsForm.swapDone (hs : KeepsForm s0 s) : KeepsForm s0 s.swapDone := by
  unfold State.swapDone
  refine .ite hs ?_
  refine .fwResult ?_
  refine .setFld ?_
  refine .update ?_
  split
  · exact hs.runFirmware
  · exact hs

theorem EndsInForm.fwSwapDone (hs : KeepsForm s0 s) : EndsInForm s0 (execFwSwapDone s) := .next hs.swapDone

theorem KeepsForm.swapLimit (hs : KeepsForm s0 s) : KeepsForm s0 s.swapLimit := by
  unfold State.swapLimit
  split
  · exact .ite hs.swapDone hs
  · exact hs

end Sys2Proof.Machine
end

section
/-! ## Canonical form: wide table entries -/

namespace Sys2Proof.Machine

open Sys2Proof

variable {s0 s : State}

theorem EndsInForm.tableWordStage (hs : KeepsForm s0 s) {via : Via} {x : Wide} {v : Word} :
    EndsInForm s0 (execTableWordStage via x v s) := by
  unfold execTableWordStage
  refine .next ?_
  refine hs.gate fun hs => ?_
  split
  · exact hs.update
  · exact .ite hs hs.update
  · exact hs.update

theorem KeepsForm.putRoute (hs : KeepsForm s0 s) {f : Nat} {v : BitVec 128} : KeepsForm s0 (s.putRoute f v) :=
  .ite hs.update hs.update.holdPath

theorem EndsInForm.routeEntryCommit (hs : KeepsForm s0 s) {via : Via} {f : BitVec 16} {v : Word} :
    EndsInForm s0 (execRouteEntryCommit via f v s) :=
  .next (hs.gate fun hs => hs.putRoute.update)

theorem KeepsForm.holdBuckets (hs : KeepsForm s0 s) {g : Nat} {changed : BitVec 256} :
    KeepsForm s0 (s.holdBuckets g changed) :=
  hs.update.update.setFld

theorem KeepsForm.putGroup (hs : KeepsForm s0 s) {g : Nat} {m : FMap Word} : KeepsForm s0 (s.putGroup g m) := hs.update

theorem EndsInForm.groupEntryCommit (hs : KeepsForm s0 s) {via : Via} {g : BitVec 12} {v : Word} :
    EndsInForm s0 (execGroupEntryCommit via g v s) := by
  unfold execGroupEntryCommit
  refine .next ?_
  refine hs.gate fun hs => ?_
  refine .ite hs.putGroup.update ?_
  exact .ite hs.putGroup.update (.ite hs.putGroup.update.holdBuckets hs.putGroup.update.holdBuckets.update)

end Sys2Proof.Machine
end

section
/-! ## Canonical form: light plans -/

namespace Sys2Proof.Machine

open Sys2Proof

variable {s0 s : State}

theorem KeepsForm.commitPlan (hs : KeepsForm s0 s) {p : Nat} {words : FMap Word} {header : Word} :
    KeepsForm s0 (s.commitPlan p words header) :=
  .ite hs.setOpt.setFld.optEvent hs.setOpt.setOpt

theorem EndsInForm.planCommit (hs : KeepsForm s0 s) {via : Via} {p : BitVec 4} {v : Word} :
    EndsInForm s0 (execPlanCommit via p v s) :=
  .next (hs.gate fun hs => hs.commitPlan)

theorem EndsInForm.planSwitchRequest (hs : KeepsForm s0 s) {via : Via} {plan : BitVec 4} {tick : BitVec 56} :
    EndsInForm s0 (execPlanSwitchRequest via plan tick s) :=
  .next (hs.gate fun hs => .ite hs.setFld (.ite hs.setFld hs.setLock.askSwitch.moveMet))

theorem KeepsForm.setSwitch (hs : KeepsForm s0 s) {x : PlanSwitch} : KeepsForm s0 (s.setSwitch x) := hs.setOpt

theorem KeepsForm.tellLp (hs : KeepsForm s0 s) {t : Nat} {st : BitVec 5} {status : Nat} :
    KeepsForm s0 (s.tellLp t st status) :=
  hs.setLock.setThr.writeStatus.recheck

theorem KeepsForm.refuseSwitch (hs : KeepsForm s0 s) : KeepsForm s0 s.refuseSwitch := by
  unfold State.refuseSwitch
  dsimp only
  split
  · exact hs.setOpt
  · refine .ite hs.setOpt ?_
    refine .ite hs.setOpt.setSwitch ?_
    split
    · exact hs.setOpt.setOpt.setFld.setFld.setLock
    · exact hs.setOpt.setOpt.setFld.tellLp
    · exact hs.setOpt.setOpt.setFld

theorem EndsInForm.planSwitchStart (hs : KeepsForm s0 s) : EndsInForm s0 (execPlanSwitchStart s) := by
  unfold execPlanSwitchStart
  refine .next ?_
  split
  · exact hs
  · refine .ite hs ?_
    refine .ite hs.refuseSwitch.settleCredits ?_
    refine .settleCredits ?_
    refine .refreshLinks ?_
    refine hs.setSwitch.update.foldl fun hs => ?_
    exact .beginLeave (.setLane (.setFld (.ite (.setSource (.ite hs.setFld hs)) (.ite hs.setFld hs))))

theorem KeepsForm.undrained (hs : KeepsForm s0 s) {c : Nat} : KeepsForm s0 (s.undrained c) :=
  .ite hs.channelDown.count.optEvent hs

theorem KeepsForm.retune (hs : KeepsForm s0 s) {c w : Nat} : KeepsForm s0 (s.retune c w) := by
  unfold State.retune
  exact .ite hs.undrained.laneOff hs.undrained.setChan.dropPool.setFld.setFld.enterLane.setLane.tune.tune.setRing.setRing

theorem EndsInForm.switchRetune (hs : KeepsForm s0 s) : EndsInForm s0 (execSwitchRetune s) := by
  unfold execSwitchRetune
  refine .next ?_
  split
  · exact hs
  · exact .ite hs ((hs.setFld.setOpt.foldl fun hs => hs.retune).refreshLinks)

theorem EndsInForm.switchFineSearch (hs : KeepsForm s0 s) {steps : List (Fin 512 × Fin 9)} :
    EndsInForm s0 (execSwitchFineSearch steps s) := by
  unfold execSwitchFineSearch
  refine .next ?_
  split
  · exact hs
  · exact .ite hs (hs.setSwitch.foldl fun hs => .ite hs.fine hs)

theorem EndsInForm.switchAcquire (hs : KeepsForm s0 s) : EndsInForm s0 (execSwitchAcquire s) := by
  unfold execSwitchAcquire
  refine .next ?_
  split
  · exact hs
  · exact .ite hs (hs.setSwitch.foldl fun hs => .ite hs.acquireRing.acquireRing.verify hs)

theorem KeepsForm.tellSwitch (hs : KeepsForm s0 s) {a : SwitchBy} : KeepsForm s0 (s.tellSwitch a) := by
  unfold State.tellSwitch
  split
  · exact hs.setFld.setLock
  · exact hs.tellLp
  · split
    · exact hs.setCol
    · exact hs
  · exact hs.setLock

theorem EndsInForm.switchComplete (hs : KeepsForm s0 s) : EndsInForm s0 (execSwitchComplete s) := by
  unfold execSwitchComplete
  refine .next ?_
  split
  · exact hs
  · refine .ite hs ?_
    dsimp only
    split
    · refine .moveMet ?_
      refine .askSwitch ?_
      exact (((((((hs.foldl fun hs => .ite hs.relockB hs).setOpt).setFld).update).count).refreshLinks).tellSwitch).setOpt
    · exact ((((((hs.foldl fun hs => .ite hs.relockB hs).setOpt).setFld).update).count).refreshLinks).tellSwitch

end Sys2Proof.Machine
end

section
/-! ## Canonical form: lightlanes and lasers -/

namespace Sys2Proof.Machine

open Sys2Proof

variable {s0 s : State}

theorem KeepsForm.judgeB (hs : KeepsForm s0 s) {c : Nat} {b : IdentBlock} : KeepsForm s0 (s.judgeB c b) := by
  unfold State.judgeB
  refine .ite hs.setFld ?_
  refine .ite (.ite hs.setFld.relockB (.ite hs.setFld.channelUp hs.setFld)) ?_
  exact .ite (.ite hs.setFld.relockB (.ite hs.setFld hs.setFld.setLane.maybeUp)) hs.setFld

theorem EndsInForm.identBlock (hs : KeepsForm s0 s) {c : Channel} {b : IdentBlock} :
    EndsInForm s0 (execIdentBlock c b s) := by
  unfold execIdentBlock
  refine .next ?_
  refine .ite (.ite hs.setChan.setFld.judgeB (.ite hs.setChan.setFld.channelUp hs.setChan.setFld)) ?_
  refine .leaveLost ?_
  refine .refreshAdv ?_
  refine .noteAlone ?_
  refine .ite (.setFld (.ite hs.setChan.setFld.judgeB (.ite hs.setChan.setFld.channelUp hs.setChan.setFld))) ?_
  exact .ite hs.setChan.setFld.judgeB (.ite hs.setChan.setFld.channelUp hs.setChan.setFld)

theorem EndsInForm.pilotCheck (hs : KeepsForm s0 s) {c : LaneNo} {txBest : BitVec 5} {txLead : BitVec 16} {rxBest : BitVec 5}
    {rxLead : BitVec 16} :
    EndsInForm s0 (execPilotCheck c txBest txLead rxBest rxLead s) := by
  unfold execPilotCheck
  refine .next ?_
  refine .ite hs ?_
  refine .ite (.ite hs.setFld.setLane.setLane.maybeUp (.ite hs.setFld.setLane hs.setFld.setLane.relock)) ?_
  exact .ite (.ite hs.setFld.setLane.relock hs.setFld.setLane) hs

theorem KeepsForm.sweepOver (hs : KeepsForm s0 s) {c : Nat} : KeepsForm s0 (s.sweepOver c) := .ite hs.verify hs

theorem KeepsForm.recalibrate (hs : KeepsForm s0 s) {n r line code : Nat} : KeepsForm s0 (s.recalibrate n r line code) :=
  hs.foldl fun hs => hs.setCal

theorem EndsInForm.ringLockWindow (hs : KeepsForm s0 s) {c : LaneNo} {drop : Bool} {err power : BitVec 16} :
    EndsInForm s0 (execRingLockWindow c drop err power s) := by
  unfold execRingLockWindow
  refine .next ?_
  refine .ite hs ?_
  refine .ite (.relockB (.ite hs.fresh.setFld.setRing.recalibrate hs.fresh.setFld.setRing)) ?_
  exact .sweepOver (.ite hs.fresh.setFld.setRing.recalibrate hs.fresh.setFld.setRing)

theorem EndsInForm.ringSweepDone (hs : KeepsForm s0 s) {c : LaneNo} {drop : Bool} {codes : BitVec 512} {found : Bool}
    {fine : Fin 9} :
    EndsInForm s0 (execRingSweepDone c drop codes found fine s) := by
  unfold execRingSweepDone
  refine .next ?_
  refine .ite hs ?_
  refine .ite ((hs.foldl fun hs => hs.setCal).setLane) ?_
  refine .ite ((hs.foldl fun hs => hs.setCal).laneFailed) ?_
  exact ((((hs.foldl fun hs => hs.setCal).tune).fine).acquireRing).setLane

theorem EndsInForm.verifyTimeout (hs : KeepsForm s0 s) {c : LaneNo} : EndsInForm s0 (execVerifyTimeout c s) :=
  .next (.ite hs.relockB hs)

theorem EndsInForm.opticalLos (hs : KeepsForm s0 s) {c : LaneNo} {p1 p2 : BitVec 16} :
    EndsInForm s0 (execOpticalLos c p1 p2 s) := by
  unfold execOpticalLos
  refine .next ?_
  exact .ite hs (.ite hs.setLane (.ite hs.setLane.optEvent.laneFailed hs.setLane.channelDown.optEvent.verify.setFld))

theorem EndsInForm.lightReturn (hs : KeepsForm s0 s) {c : LaneNo} {low : BitVec 16} :
    EndsInForm s0 (execLightReturn c low s) :=
  .next (.ite hs (.ite hs.setLane.verify hs.setLane))

theorem KeepsForm.warmSpare (hs : KeepsForm s0 s) {b n : Nat} : KeepsForm s0 (s.warmSpare b n) := by
  unfold State.warmSpare
  split
  · exact .ite hs hs.optEvent
  · exact .ite hs.optEvent hs.setFld.setOpt

theorem KeepsForm.hardFailure (hs : KeepsForm s0 s) {b k n : Nat} : KeepsForm s0 (s.hardFailure b k n) := by
  unfold State.hardFailure
  dsimp only
  split
  · exact .ite hs.faultLog.laserDead (.ite hs.faultLog.setOpt.insertSpare hs.faultLog.setOpt)
  · exact hs.faultLog.laserDead

theorem EndsInForm.laserPowerWindow (hs : KeepsForm s0 s) {b : Fin 4} {k : Fin 5} {power : BitVec 16} :
    EndsInForm s0 (execLaserPowerWindow b k power s) := by
  unfold execLaserPowerWindow
  refine .next ?_
  refine .ite hs ?_
  refine .ite hs.setFld.setFld.setOpt ?_
  refine .ite ?_ ?_
  · refine .hardFailure ?_
    refine .ite (.warmSpare (.ite hs.setFld.setFld.setOpt.setFld.optEvent hs.setFld.setFld.setOpt)) ?_
    exact .ite hs.setFld.setFld.setOpt.setFld.optEvent hs.setFld.setFld.setOpt
  · refine .ite (.warmSpare (.ite hs.setFld.setFld.setOpt.setFld.optEvent hs.setFld.setFld.setOpt)) ?_
    exact .ite hs.setFld.setFld.setOpt.setFld.optEvent hs.setFld.setFld.setOpt

theorem EndsInForm.spareSourceReady (hs : KeepsForm s0 s) {b : Fin 4} : EndsInForm s0 (execSpareSourceReady b s) := by
  unfold execSpareSourceReady
  refine .next ?_
  split
  · exact hs
  · exact .ite hs (.ite hs.setFld.insertSpare hs.setFld.openDark)

theorem EndsInForm.spareWarmTimeout (hs : KeepsForm s0 s) {b : Fin 4} : EndsInForm s0 (execSpareWarmTimeout b s) := by
  unfold execSpareWarmTimeout
  refine .next ?_
  split
  · exact hs
  · exact .ite hs (.ite hs.setFld.optEvent.setOpt.journal.laserDead hs.setFld.optEvent.setOpt.journal)

theorem EndsInForm.darkNotice (hs : KeepsForm s0 s) {p : Packet} : EndsInForm s0 (execDarkNotice p s) :=
  .next (.ite hs (.ite hs.takeLocal hs.takeLocal.setOpt.sendPacket))

theorem EndsInForm.darkAck (hs : KeepsForm s0 s) {p : Packet} : EndsInForm s0 (execDarkAck p s) :=
  .next (.ite hs (.ite hs.takeLocal hs.takeLocal.setOpt))

theorem EndsInForm.darkAckDeadline (hs : KeepsForm s0 s) : EndsInForm s0 (execDarkAckDeadline s) :=
  .next (hs.foldl fun hs => .ite hs.setOpt hs.moveDark)

theorem EndsInForm.darkWindow (hs : KeepsForm s0 s) : EndsInForm s0 (execDarkWindow s) := by
  unfold execDarkWindow
  exact .next ((hs.foldl fun hs => (hs.setOpt.foldl fun hs => hs.goDark).insertSpare).foldl fun hs => hs.goDark)

theorem EndsInForm.darkWindowEnd (hs : KeepsForm s0 s) : EndsInForm s0 (execDarkWindowEnd s) := by
  unfold execDarkWindowEnd
  refine .next ?_
  refine .foldl ?_ (fun hs => hs.endDark)
  exact ((hs.foldl fun hs => (hs.foldl fun hs => .ite hs.endDark.setLane hs.endDark).count).setOpt).setOpt

theorem KeepsForm.endTest (hs : KeepsForm s0 s) {c : Nat} : KeepsForm s0 (s.endTest c) := .ite hs.setLane hs.setLane.verify

theorem EndsInForm.optLaneTestWrite (hs : KeepsForm s0 s) {via : Via} {c : LaneNo} {v : Word} :
    EndsInForm s0 (execOptLaneTestWrite via c v s) := by
  unfold execOptLaneTestWrite
  refine .next ?_
  refine hs.gate fun hs => ?_
  refine .ite ?_ ?_
  · refine .setFld ?_
    refine .ite (.setFld (.setFld (.ite hs (.ite hs.setFld hs.optEvent)))) ?_
    exact .setFld (.setFld (.setFld (.ite hs (.ite hs.setFld hs.optEvent))))
  · refine .ite ?_ ?_
    · refine .beginLeave ?_
      refine .setFld ?_
      refine .ite (.setFld (.setFld (.ite hs (.ite hs.setFld hs.optEvent)))) ?_
      exact .setFld (.setFld (.setFld (.ite hs (.ite hs.setFld hs.optEvent))))
    · refine .ite ?_ ?_
      · refine .endTest ?_
        refine .setFld ?_
        refine .ite (.setFld (.setFld (.ite hs (.ite hs.setFld hs.optEvent)))) ?_
        exact .setFld (.setFld (.setFld (.ite hs (.ite hs.setFld hs.optEvent))))
      · refine .setFld ?_
        refine .ite (.setFld (.setFld (.ite hs (.ite hs.setFld hs.optEvent)))) ?_
        exact .setFld (.setFld (.setFld (.ite hs (.ite hs.setFld hs.optEvent))))

theorem EndsInForm.optCntSrcWrite (hs : KeepsForm s0 s) {via : Via} {k : Fin 4} {v : Word} :
    EndsInForm s0 (execOptCntSrcWrite via k v s) :=
  .next (hs.gate fun hs => hs.foldl fun hs => .ite hs (.ite hs.setSource hs.optEvent))

theorem KeepsForm.startInject (hs : KeepsForm s0 s) {key kind len count interval : Nat} {busy : Field} :
    KeepsForm s0 (s.startInject key kind len count interval busy) :=
  .ite hs.corrupt hs.corrupt.update.setFld

theorem EndsInForm.optInjectGo (hs : KeepsForm s0 s) {via : Via} {c : LaneNo} {kind : BitVec 2} {len : BitVec 8}
    {count interval : BitVec 16} :
    EndsInForm s0 (execOptInjectGo via c kind len count interval s) :=
  .next (hs.gate fun hs => .ite hs.optEvent hs.startInject)

theorem EndsInForm.injectRepeat (hs : KeepsForm s0 s) {key : Fin 304} : EndsInForm s0 (execInjectRepeat key s) := by
  unfold execInjectRepeat
  refine .next ?_
  split
  · exact hs
  · exact .ite hs (.ite hs.corrupt.update.setFld hs.corrupt.update)

theorem EndsInForm.marginTestGo (hs : KeepsForm s0 s) {via : Via} {engines lanes start : BitVec 16} :
    EndsInForm s0 (execMarginTestGo via engines lanes start s) :=
  .next (hs.gate fun hs => .ite hs.optEvent hs.setOpt)

theorem KeepsForm.marginLane (hs : KeepsForm s0 s) {c : Nat} : KeepsForm s0 (s.marginLane c) :=
  hs.setLane.setFld.setSource.beginLeave

theorem EndsInForm.marginTestStart (hs : KeepsForm s0 s) : EndsInForm s0 (execMarginTestStart s) := by
  unfold execMarginTestStart
  refine .next ?_
  split
  · exact hs
  · exact .ite hs (hs.setOpt.foldl fun hs => .ite hs.marginLane hs)

theorem KeepsForm.testOver (hs : KeepsForm s0 s) {c : Nat} : KeepsForm s0 (s.testOver c) := hs.setSource.endTest

theorem KeepsForm.giveVerdict (hs : KeepsForm s0 s) {c v : Nat} : KeepsForm s0 (s.giveVerdict c v) := by
  unfold State.giveVerdict
  refine .ite ?_ ?_
  · refine .ite (.optEvent (.laneFailed (.ite hs.setFld.setLane.adapted hs.setFld.setLane))) ?_
    refine .ite (.optEvent (.ite hs.setFld.setLane.adapted hs.setFld.setLane)) ?_
    exact .ite hs.setFld.setLane.adapted hs.setFld.setLane
  · refine .testOver ?_
    refine .ite (.optEvent (.laneFailed (.ite hs.setFld.setLane.adapted hs.setFld.setLane))) ?_
    refine .ite (.optEvent (.ite hs.setFld.setLane.adapted hs.setFld.setLane)) ?_
    exact .ite hs.setFld.setLane.adapted hs.setFld.setLane

theorem EndsInForm.marginTestDone (hs : KeepsForm s0 s) {c : LaneNo} {m : Option (BitVec 16 × BitVec 8 × BitVec 16)} :
    EndsInForm s0 (execMarginTestDone c m s) := by
  unfold execMarginTestDone
  refine .next ?_
  refine .ite hs ?_
  dsimp only
  split
  · refine .ite ?_ ?_
    · refine .setOpt ?_
      split
      · exact hs.setFld.setFld.setFld.giveVerdict
      · exact hs.giveVerdict
    · split
      · exact hs.setFld.setFld.setFld.giveVerdict
      · exact hs.giveVerdict
  · split
    · exact hs.setFld.setFld.setFld.giveVerdict
    · exact hs.giveVerdict

theorem EndsInForm.marginCommit (hs : KeepsForm s0 s) {via : Via} : EndsInForm s0 (execMarginCommit via s) :=
  .next (hs.gate fun hs => hs.foldl fun hs => .ite hs.setFld.setFld.setFld.setFld.journal hs)

theorem EndsInForm.laneRelock (hs : KeepsForm s0 s) {via : Via} {c : LaneNo} : EndsInForm s0 (execLaneRelock via c s) :=
  .next (hs.gate fun hs => .ite hs.optEvent hs.beginSweep.setFld)

theorem EndsInForm.laneFail (hs : KeepsForm s0 s) {via : Via} {c : LaneNo} : EndsInForm s0 (execLaneFail via c s) :=
  .next (hs.gate fun hs => .ite hs.beginLeave hs.laneFailed)

end Sys2Proof.Machine
end

section
/-! ## Canonical form: electrical ports -/

namespace Sys2Proof.Machine

open Sys2Proof

variable {s0 s : State}

theorem EndsInForm.laneLock (hs : KeepsForm s0 s) {key : LaneKey} : EndsInForm s0 (execLaneLock key s) :=
  .next (.ite (.ite hs (.ite hs.setLane.sendIdent hs.setLane)) (.ite hs hs.setFld.setElkLane))

theorem EndsInForm.laneLockLoss (hs : KeepsForm s0 s) {key : LaneKey} : EndsInForm s0 (execLaneLockLoss key s) := by
  unfold execLaneLockLoss
  refine .next ?_
  refine .ite (.ite hs.addFld.setLane.retrain hs.addFld.setLane) ?_
  exact .ite hs (.ite hs.addFld.linkEvent.setFld.portTrain hs.addFld.linkEvent.setFld)

theorem EndsInForm.electricalLos (hs : KeepsForm s0 s) {l : ElkLaneNo} : EndsInForm s0 (execElectricalLos l s) :=
  .next (.ite hs (.ite hs.setFld.linkEvent.portTrain hs.setFld.linkEvent))

theorem KeepsForm.moveTap (hs : KeepsForm s0 s) {l tap req : Nat} : KeepsForm s0 (s.moveTap l tap req) := by
  unfold State.moveTap
  refine .ite (.ite hs.setElkLane hs.setFld.setElkLane) ?_
  exact .ite (.ite hs.setElkLane hs.setFld.setElkLane) (.ite hs.fresh.setFld.setElkLane hs.setElkLane)

theorem KeepsForm.elkFrame (hs : KeepsForm s0 s) {l : Nat} : KeepsForm s0 (s.elkFrame l) := hs.fresh.send

theorem KeepsForm.laneTrains (hs : KeepsForm s0 s) {c w : Nat} {ready : Bool} : KeepsForm s0 (s.laneTrains c w ready) := by
  unfold State.laneTrains
  refine .ite hs.setLane.laneFrame ?_
  exact .ite (.ite hs.setLane.adapted.laneFrame hs.setLane) (.ite (.ite hs.setLane.lineStart hs.setLane.laneFrame) hs)

theorem EndsInForm.trainingFrame (hs : KeepsForm s0 s) {key : LaneKey} {word : BitVec 32} {inverted ready : Bool} :
    EndsInForm s0 (execTrainingFrame key word inverted ready s) := by
  unfold execTrainingFrame
  refine .next ?_
  refine .ite hs ?_
  refine .ite hs.laneTrains ?_
  refine .ite hs ?_
  refine .elkFrame ?_
  refine .ite hs.setFld.setFld.setFld.setElkPort.moveTap.setElkLane ?_
  refine .ite ?_ ?_
  · exact .ite hs.setFld.setFld.setFld.setElkPort.moveTap.setElkLane hs.setFld.setFld.setFld.setElkPort.moveTap.setElkLane
  · refine .ite hs.setFld.setFld.setFld.setElkPort.moveTap.setElkLane ?_
    refine .ite hs.setFld.setFld.setFld.setElkPort.moveTap.setElkLane.setFld ?_
    exact hs.setFld.setFld.setFld.setElkPort.moveTap.setElkLane

theorem EndsInForm.trainingStageLimit (hs : KeepsForm s0 s) {key : LaneKey} :
    EndsInForm s0 (execTrainingStageLimit key s) := by
  unfold execTrainingStageLimit
  exact .next (.ite (.ite hs.fullTrain hs) (.ite hs (.ite hs.linkEvent.trainLane hs.linkEvent.setElkLane.setFld)))

theorem EndsInForm.portTrainingDone (hs : KeepsForm s0 s) {m : ElkPortNo} : EndsInForm s0 (execPortTrainingDone m s) := by
  unfold execPortTrainingDone
  refine .next ?_
  refine .ite hs ?_
  refine .ite hs.setFld.setFld.linkEvent ?_
  exact ((((hs.setFld.setFld.setFld.setFld.foldl fun hs => hs.setElkLane).setElkPort).setFld).lineStart).sendIdent

theorem EndsInForm.trainingRetry (hs : KeepsForm s0 s) {m : ElkPortNo} : EndsInForm s0 (execTrainingRetry m s) :=
  .next (.ite hs.portTrain hs)

theorem EndsInForm.portRetrain (hs : KeepsForm s0 s) {via : Via} {m : ElkPortNo} : EndsInForm s0 (execPortRetrain via m s) :=
  .next (hs.gate fun hs => .ite hs.portTrain hs)

theorem EndsInForm.laneRejoin (hs : KeepsForm s0 s) {m : ElkPortNo} : EndsInForm s0 (execLaneRejoin m s) :=
  .next (.ite hs.portTrain hs)

theorem KeepsForm.setLanes (hs : KeepsForm s0 s) {m st : Nat} : KeepsForm s0 (s.setLanes m st) :=
  hs.foldl fun hs => .ite hs.setFld hs

theorem KeepsForm.goQuiet (hs : KeepsForm s0 s) {m : Nat} : KeepsForm s0 (s.goQuiet m) := hs.setFld.setFld.setLanes

theorem EndsInForm.idleEnter (hs : KeepsForm s0 s) {m : ElkPortNo} : EndsInForm s0 (execIdleEnter m s) :=
  .next (.ite hs (.ite hs.sendEi.setElkPort.goQuiet hs.sendEi.setElkPort))

theorem EndsInForm.eiBlock (hs : KeepsForm s0 s) {c : Channel} : EndsInForm s0 (execEiBlock c s) := by
  unfold execEiBlock
  refine .next ?_
  exact .ite hs (.ite (.ite hs.setChan.setFld (.ite hs.setChan.setFld hs.setChan)) (.ite hs.setChan.goQuiet hs.setChan))

theorem EndsInForm.idleExit (hs : KeepsForm s0 s) {m : ElkPortNo} : EndsInForm s0 (execIdleExit m s) := by
  unfold execIdleExit
  refine .next ?_
  refine .ite hs ?_
  exact .ite hs.setElkPort.setFld.setLanes.lineResume.setFld hs.setElkPort.setFld.setLanes.lineResume.setChan.setFld

theorem EndsInForm.skoisSleep (hs : KeepsForm s0 s) {m : ElkPortNo} : EndsInForm s0 (execSkoisSleep m s) :=
  .next (.ite hs hs.sendEi.setFld.setFld.setLanes)

theorem EndsInForm.elkLaneTestWrite (hs : KeepsForm s0 s) {via : Via} {l : ElkLaneNo} {v : Word} :
    EndsInForm s0 (execElkLaneTestWrite via l v s) := by
  unfold execElkLaneTestWrite
  refine .next ?_
  refine hs.gate fun hs => ?_
  refine .ite ?_ ?_
  · refine .ite ?_ ?_
    · refine .portTrain ?_
      refine .setFld ?_
      refine .setElkLane ?_
      refine .setFld ?_
      refine .ite (.setFld (.setFld (.ite hs (.ite hs.setFld hs.linkEvent)))) ?_
      exact .setFld (.setFld (.setFld (.ite hs (.ite hs.setFld hs.linkEvent))))
    · refine .setFld ?_
      refine .setElkLane ?_
      refine .setFld ?_
      refine .ite (.setFld (.setFld (.ite hs (.ite hs.setFld hs.linkEvent)))) ?_
      exact .setFld (.setFld (.setFld (.ite hs (.ite hs.setFld hs.linkEvent))))
  · refine .ite ?_ ?_
    · refine .ite ?_ ?_
      · refine .trainLane ?_
        refine .setFld ?_
        refine .ite (.setFld (.setFld (.ite hs (.ite hs.setFld hs.linkEvent)))) ?_
        exact .setFld (.setFld (.setFld (.ite hs (.ite hs.setFld hs.linkEvent))))
      · refine .setFld ?_
        refine .setFld ?_
        refine .ite (.setFld (.setFld (.ite hs (.ite hs.setFld hs.linkEvent)))) ?_
        exact .setFld (.setFld (.setFld (.ite hs (.ite hs.setFld hs.linkEvent))))
    · refine .setFld ?_
      refine .ite (.setFld (.setFld (.ite hs (.ite hs.setFld hs.linkEvent)))) ?_
      exact .setFld (.setFld (.setFld (.ite hs (.ite hs.setFld hs.linkEvent))))

theorem EndsInForm.elkCntSrcWrite (hs : KeepsForm s0 s) {via : Via} {v : Word} :
    EndsInForm s0 (execElkCntSrcWrite via v s) := by
  unfold execElkCntSrcWrite
  exact .next (hs.gate fun hs => hs.foldl fun hs => .ite hs (.ite (hs.setFld.foldl fun hs => hs.setFld) hs.linkEvent))

theorem EndsInForm.elkInjectGo (hs : KeepsForm s0 s) {via : Via} {l : ElkLaneNo} {kind : BitVec 2} {len : BitVec 8}
    {count interval : BitVec 16} :
    EndsInForm s0 (execElkInjectGo via l kind len count interval s) :=
  .next (hs.gate fun hs => .ite hs.linkEvent (.ite hs.update.setFld hs.startInject))

theorem KeepsForm.laneCnt (hs : KeepsForm s0 s) {key k n : Nat} : KeepsForm s0 (s.laneCnt key k n) := .ite hs.addFld hs.addFld

theorem KeepsForm.countLane (hs : KeepsForm s0 s) {x : LaneCount} : KeepsForm s0 (s.countLane x) := by
  unfold State.countLane
  refine .ite (.ite (.laneCnt (.laneCnt (.laneCnt (.ite hs hs.setFld)))) (.ite hs hs.setFld)) ?_
  exact .laneCnt (.laneCnt (.laneCnt (.laneCnt (.ite hs hs.setFld))))

theorem EndsInForm.patternCheckerLock (hs : KeepsForm s0 s) {key : LaneKey} : EndsInForm s0 (execPatternCheckerLock key s) :=
  .next (.ite hs.setFld hs)

theorem EndsInForm.patternCheckerRelock (hs : KeepsForm s0 s) {key : LaneKey} :
    EndsInForm s0 (execPatternCheckerRelock key s) :=
  .next (.ite hs (.ite hs.laneCnt hs))

end Sys2Proof.Machine
end

section
/-! ## Canonical form: shed levels -/

namespace Sys2Proof.Machine

open Sys2Proof

variable {s0 s : State}

theorem KeepsForm.setPwr (hs : KeepsForm s0 s) {x : PwrState} : KeepsForm s0 (s.setPwr x) := hs.update

theorem KeepsForm.powerEvent (hs : KeepsForm s0 s) {f : Field} : KeepsForm s0 (s.powerEvent f) := hs.event

theorem KeepsForm.capControl (hs : KeepsForm s0 s) : KeepsForm s0 s.capControl := by
  unfold State.capControl
  refine .ite hs ?_
  exact .ite hs.setFld (.ite hs.setFld.setPwr (.ite hs.setFld.setPwr.powerEvent (.ite hs.setFld.setPwr hs.setFld)))

theorem KeepsForm.shedStep (hs : KeepsForm s0 s) : KeepsForm s0 s.shedStep := .ite hs hs.setFld.setPwr

theorem KeepsForm.capUnmet (hs : KeepsForm s0 s) : KeepsForm s0 s.capUnmet := by
  unfold State.capUnmet
  split
  · exact .ite hs.powerEvent hs
  · exact hs

end Sys2Proof.Machine
end

section
/-! ## Canonical form: the commands of the Collective Engine -/

namespace Sys2Proof.Machine

open Sys2Proof

variable {s0 s : State}

theorem KeepsForm.setRsv (hs : KeepsForm s0 s) {p cid : Nat} {r : Option ColRsv} : KeepsForm s0 (s.setRsv p cid r) := hs.update

theorem EndsInForm.reservationGrant (hs : KeepsForm s0 s) {p : PartNo} {cid : BitVec 32} :
    EndsInForm s0 (execReservationGrant p cid s) := by
  unfold execReservationGrant
  refine .next ?_
  split
  · exact .ite hs.reserve.decided hs
  · split
    · exact .ite hs.reserve.setRsv hs
    · exact hs

theorem EndsInForm.reservationWithdraw (hs : KeepsForm s0 s) {p : PartNo} {cid : BitVec 32} :
    EndsInForm s0 (execReservationWithdraw p cid s) := by
  unfold execReservationWithdraw
  refine .next ?_
  split
  · exact .ite hs (.ite hs.raise.setCol hs.raise.decided)
  · split
    · exact .ite hs.raise.setRsv hs
    · exact hs

theorem EndsInForm.rsvExpire (hs : KeepsForm s0 s) {p : PartNo} {cid : BitVec 32} :
    EndsInForm s0 (execRsvExpire p cid s) := by
  unfold execRsvExpire
  refine .next ?_
  split
  · exact .ite hs.unreserve.setRsv.count hs
  · exact hs

theorem KeepsForm.colMessage (hs : KeepsForm s0 s) {h : Nat} {e : ColEntry} {p : Packet} :
    KeepsForm s0 (s.colMessage h e p) := by
  unfold State.colMessage
  refine .ite hs ?_
  refine .ite hs.setCol.colAdvance ?_
  refine .ite hs.setCol.colAdvance ?_
  refine .ite ?_ hs
  split
  · exact hs.setCol.colAdvance
  · exact hs

theorem KeepsForm.colControl (hs : KeepsForm s0 s) {type : Nat} {p : Packet} : KeepsForm s0 (s.colControl type p) := by
  unfold State.colControl
  refine .ite hs ?_
  refine .ite hs.takeLocal ?_
  refine .ite hs.takeLocal ?_
  split
  · exact hs.takeLocal.colMessage
  · exact .ite hs.takeLocal hs.takeLocal.update

theorem EndsInForm.joinMessage (hs : KeepsForm s0 s) {p : Packet} : EndsInForm s0 (execJoinMessage p s) := .next hs.colControl

theorem EndsInForm.readyMessage (hs : KeepsForm s0 s) {p : Packet} : EndsInForm s0 (execReadyMessage p s) := .next hs.colControl

theorem EndsInForm.xdoneMessage (hs : KeepsForm s0 s) {p : Packet} : EndsInForm s0 (execXdoneMessage p s) := .next hs.colControl

theorem EndsInForm.joinTimeout (hs : KeepsForm s0 s) {p : PartNo} {cid : BitVec 32} :
    EndsInForm s0 (execJoinTimeout p cid s) := by
  unfold execJoinTimeout
  refine .next ?_
  split
  · exact .ite hs.colAbort hs
  · exact hs

theorem EndsInForm.agreedStepStart (hs : KeepsForm s0 s) {p : PartNo} {cid : BitVec 32} {x : Supply} :
    EndsInForm s0 (execAgreedStepStart p cid x s) := by
  unfold execAgreedStepStart
  refine .next ?_
  split
  · exact hs
  · split
    · exact hs
    · refine .ite hs ?_
      dsimp only
      split
      · exact .settleCredits (.ite hs.startExchange (.ite hs.setCol hs.startPhase))
      · exact hs.setCol.settleCredits

theorem EndsInForm.phaseStart (hs : KeepsForm s0 s) {p : PartNo} {cid : BitVec 32} {x : Supply} :
    EndsInForm s0 (execPhaseStart p cid x s) := by
  unfold execPhaseStart
  refine .next ?_
  split
  · exact hs
  · split
    · exact hs
    · exact .ite hs hs.startPhase

theorem KeepsForm.colLate (hs : KeepsForm s0 s) {p : Packet} : KeepsForm s0 (s.colLate p) := hs.takeLocal.count

theorem KeepsForm.collTake (hs : KeepsForm s0 s) {h : Nat} {e : ColEntry} {ph : Phase} {x : Seg} {k pos : Nat} {p : Packet}
    {run : ItemRun}
    {z : List HostAnswer} : KeepsForm s0 (s.collTake h e ph x k pos p run z) := by
  unfold State.collTake
  extract_lets d a last src e' r data forward
  have hr : KeepsForm s0 r.g.s := hs.eng
  have hf {t : State} {v : Nat} {pz : Bool} (ht : KeepsForm s0 t) : KeepsForm s0 (forward t v pz) := .ite ht ht.colSend
  split
  refine .ite ?_ ?_
  · split
    rename_i hl
    have hu := (hr.runLocalPart (ph := ph)).of_run hl
    refine .ite hu.runDone ?_
    extract_lets accs ok
    split
    rename_i hc
    have hv := hu.checkItem.of_fst hc
    extract_lets retire kept spilt noted taken ended t
    have hw : KeepsForm s0 taken.g.s := by
      have hn : KeepsForm s0 noted.g.s := by
        have hk : KeepsForm s0 kept := hv.keepAccs
        have hp : KeepsForm s0 spilt := .ite hk.spill hk
        refine .runNote (.runNote ?_)
        exact hp
      by_cases hlast : last = true
      · simp only [taken, if_pos hlast]
        exact hn.runKeep
      · simp only [taken, if_neg hlast]
        exact hn
    exact .ite (hv.setCol.colAbort.retireCells)
        (.retireCells (.ite hw.runPhaseEnd.runDone (hf hw.runPhaseEnd.runDone).colAdvance))
  · extract_lets t u v
    have ht : KeepsForm s0 t.g.s := by
      by_cases hp : ph.pre = true
      · simp only [t, if_pos hp]
        exact hr.runExponents
      · simp only [t, if_neg hp]
        exact hr.runResult
    exact .ite ht.runPhaseEnd.runDone (hf ht.runPhaseEnd.runDone).colAdvance

theorem EndsInForm.collPacket (hs : KeepsForm s0 s) {p : Packet} {run : ItemRun} {z : List HostAnswer} :
    EndsInForm s0 (execCollPacket p run z s) := by
  unfold execCollPacket
  refine .next ?_
  refine .ite hs ?_
  refine .ite hs.takeLocal ?_
  split
  · exact hs.colLate
  · refine .ite hs.takeLocal.faultLog.colAbort ?_
    dsimp only
    split
    · exact hs.colLate
    · refine .ite hs.colLate ?_
      refine .ite hs ?_
      split
      · exact hs.colLate
      · refine .ite hs.colLate ?_
        split
        · exact hs
        · exact .ite hs hs.takeLocal.collTake

theorem EndsInForm.xchgPacket (hs : KeepsForm s0 s) {p : Packet} {z : List HostAnswer} :
    EndsInForm s0 (execXchgPacket p z s) := by
  unfold execXchgPacket
  refine .next (.ite hs (.ite hs.takeLocal ?_))
  split
  · exact hs.colLate
  · split
    · exact hs.colLate
    · extract_lets t e r r'
      have hr : KeepsForm s0 r'.g.s := KeepsForm.runXLine (r := r) hs.takeLocal.eng
      refine .exchangeGo (.colAdvance (.runDone ?_))
      exact hr

theorem EndsInForm.collectiveStall (hs : KeepsForm s0 s) {p : PartNo} {cid : BitVec 32} :
    EndsInForm s0 (execCollectiveStall p cid s) := by
  unfold execCollectiveStall
  refine .next ?_
  split
  · exact .ite hs.colAbort hs
  · exact hs

theorem EndsInForm.abortMessage (hs : KeepsForm s0 s) {p : Packet} : EndsInForm s0 (execAbortMessage p s) := by
  unfold execAbortMessage
  refine .next ?_
  refine .ite hs ?_
  refine .ite hs.takeLocal ?_
  refine .ite hs.takeLocal ?_
  dsimp only
  split
  · refine .ite (.ite hs.takeLocal.raise.raise hs.takeLocal.raise) ?_
    refine .sendAborts ?_
    refine .ite (.keepAbort (.askRestore (.setCol (.ite hs.takeLocal.raise.raise hs.takeLocal.raise)))) ?_
    exact .setCol (.ite hs.takeLocal.raise.raise hs.takeLocal.raise)
  · split
    · exact .ite hs.takeLocal.raise.keepAbort hs.takeLocal.raise
    · exact hs.takeLocal.raise.keepAbort

theorem KeepsForm.scramble (hs : KeepsForm s0 s) {e : ColEntry} : KeepsForm s0 (s.scramble e).1 :=
  hs.foldl_fst fun hs => hs.foldl_fst fun hs => hs.fresh.eng.engWrite

theorem EndsInForm.abortComplete (hs : KeepsForm s0 s) {p : PartNo} {cid : BitVec 32} :
    EndsInForm s0 (execAbortComplete p cid s) := by
  unfold execAbortComplete
  refine .next ?_
  split
  · exact hs
  · split
    · exact hs
    · exact .ite hs (.update (.freeCol (.ite hs.scramble.unlockCol hs.scramble)))

theorem EndsInForm.abortRecordExpire (hs : KeepsForm s0 s) {p : PartNo} {cid : BitVec 32} :
    EndsInForm s0 (execAbortRecordExpire p cid s) := by
  unfold execAbortRecordExpire
  refine .next ?_
  split
  · exact .ite hs.update hs
  · exact hs

theorem KeepsForm.endCol (hs : KeepsForm s0 s) {e : ColEntry} {z : List HostAnswer} : KeepsForm s0 (s.endCol e z) := by
  unfold State.endCol
  split
  · split
    · dsimp only
      split
      · refine .closeOp ?_
        split
        · refine .ite ?_ ?_
          · refine .consume ?_
            refine .tally ?_
            refine .ite ?_ ?_
            · exact (((((hs.fresh.of_snd ‹_›).fresh).of_snd ‹_›).eng).foldl_engFst fun hs => hs.engComplete).count
            · exact (((((hs.fresh.of_snd ‹_›).fresh).of_snd ‹_›).eng).foldl_engFst fun hs => hs.engComplete).count
          · refine .tally ?_
            refine .ite ?_ ?_
            · exact (((((hs.fresh.of_snd ‹_›).fresh).of_snd ‹_›).eng).foldl_engFst fun hs => hs.engComplete).count
            · exact (((((hs.fresh.of_snd ‹_›).fresh).of_snd ‹_›).eng).foldl_engFst fun hs => hs.engComplete).count
        · refine .tally ?_
          refine .ite ?_ ?_
          · exact (((((hs.fresh.of_snd ‹_›).fresh).of_snd ‹_›).eng).foldl_engFst fun hs => hs.engComplete).count
          · exact (((((hs.fresh.of_snd ‹_›).fresh).of_snd ‹_›).eng).foldl_engFst fun hs => hs.engComplete).count
      · refine .closeOp ?_
        split
        · refine .ite ?_ ?_
          · refine .consume ?_
            refine .tally ?_
            refine .ite ?_ ?_
            · exact (((((hs.fresh.of_snd ‹_›).fresh).of_snd ‹_›).eng).foldl_engFst fun hs => hs.engComplete).count
            · exact (((((hs.fresh.of_snd ‹_›).fresh).of_snd ‹_›).eng).foldl_engFst fun hs => hs.engComplete).count
          · refine .tally ?_
            refine .ite ?_ ?_
            · exact (((((hs.fresh.of_snd ‹_›).fresh).of_snd ‹_›).eng).foldl_engFst fun hs => hs.engComplete).count
            · exact (((((hs.fresh.of_snd ‹_›).fresh).of_snd ‹_›).eng).foldl_engFst fun hs => hs.engComplete).count
        · refine .tally ?_
          refine .ite ?_ ?_
          · exact (((((hs.fresh.of_snd ‹_›).fresh).of_snd ‹_›).eng).foldl_engFst fun hs => hs.engComplete).count
          · exact (((((hs.fresh.of_snd ‹_›).fresh).of_snd ‹_›).eng).foldl_engFst fun hs => hs.engComplete).count

theorem EndsInForm.collectiveComplete (hs : KeepsForm s0 s) {p : PartNo} {cid : BitVec 32} {z : List HostAnswer} :
    EndsInForm s0 (execCollectiveComplete p cid z s) := by
  unfold execCollectiveComplete
  refine .next ?_
  split
  · exact .ite hs hs.update.eng.engFlush.endCol
  · split
    · exact hs
    · refine .ite hs ?_
      dsimp only
      split
      · exact hs.eng.engFlush.colFailed
      · exact hs.eng.engFlush.freeCol.unlockCol.endCol

theorem EndsInForm.xchgFamilyChange (hs : KeepsForm s0 s) : EndsInForm s0 (execXchgFamilyChange s) := by
  unfold execXchgFamilyChange
  refine .next ?_
  refine .ite hs ?_
  dsimp only
  split
  · exact hs
  · exact hs.setFld.foldl fun hs => hs.setCol.colAdvance

end Sys2Proof.Machine
end

section
/-! ## Canonical form: the issue of an instruction -/

namespace Sys2Proof.Machine

open Sys2Proof

variable {s0 s : State}

theorem KeepsForm.advance (hs : KeepsForm s0 s) {t : Nat} : KeepsForm s0 (s.advance t) := hs.setPc

theorem KeepsForm.countIssued {u : State} (hs : KeepsForm s0 s) {t : Nat} : KeepsForm s0 (u.countIssued s t) := .ite hs hs.tally

theorem KeepsForm.insn (hs : KeepsForm s0 s) {t : ThreadNo} {opc : Nat} {f : Insn} {bad : Bool} {need : BitVec 32}
    {body : State → State} (hbody : ∀ {t}, KeepsForm s0 t → KeepsForm s0 (body t)) :
    KeepsForm s0 (s.insn t opc f bad need body) := by
  unfold State.insn
  refine .ite hs ?_
  refine .ite hs.takeHeld ?_
  split
  · exact hs.waitOn
  · exact .ite (.ite hs hs.trap) (.ite hs.trap (.ite hs.advance.tally (.ite hs.waitOn ((hbody hs).countIssued))))

theorem KeepsForm.setGreg (hs : KeepsForm s0 s) {t : Nat} {r : BitVec 5} {v : Word} : KeepsForm s0 (s.setGreg t r v) :=
    hs.setThr

theorem KeepsForm.setPredOf (hs : KeepsForm s0 s) {t i : Nat} {v : Bool} : KeepsForm s0 (s.setPredOf t i v) := hs.setThr

theorem KeepsForm.alu (hs : KeepsForm s0 s) {t : ThreadNo} {opc : Nat} {f : Insn} {op : Word → Word → Word} :
    KeepsForm s0 (s.alu t opc f op) :=
  hs.insn fun hs => hs.setGreg.advance

theorem KeepsForm.aluImm (hs : KeepsForm s0 s) {t : ThreadNo} {opc : Nat} {f : Insn} {imm : BitVec 32} {op : Word → Word} :
    KeepsForm s0 (s.aluImm t opc f imm op) :=
  hs.insn fun hs => hs.setGreg.advance

end Sys2Proof.Machine
end

section
/-! ## Canonical form: fabric instructions -/

namespace Sys2Proof.Machine

open Sys2Proof

variable {s0 s : State}

theorem KeepsForm.endNow (hs : KeepsForm s0 s) {t : Nat} {dest : Dest} {st : BitVec 5} {a : Answer} :
    KeepsForm s0 (s.endNow t dest st a) :=
  hs.setThr.writeStatus.advance

theorem KeepsForm.fabricOp (hs : KeepsForm s0 s) {t : ThreadNo} {r : Req} {acc : Acc} :
    KeepsForm s0 (s.fabricOp t r acc) := by
  unfold State.fabricOp
  split
  · exact (hs.translate.of_fst ‹_›).threadXlateFault
  · exact (hs.translate.of_fst ‹_›).endNow
  · split
    · exact (((hs.translate.of_fst ‹_›).request).of_fst ‹_›).waitOn
    · refine .ite (((((hs.translate.of_fst ‹_›).request).of_fst ‹_›).endNow).consume) ?_
      exact (((hs.translate.of_fst ‹_›).request).of_fst ‹_›).endNow
    · exact (((hs.translate.of_fst ‹_›).request).of_fst ‹_›).endNow
    · exact ((((hs.translate.of_fst ‹_›).request).of_fst ‹_›).setThr).advance

theorem EndsInForm.ld (hs : KeepsForm s0 s) {t : ThreadNo} {f : Insn} : EndsInForm s0 (execLd t f s) :=
  .next (hs.insn fun hs => .ite hs.trap hs.fabricOp)

theorem EndsInForm.st (hs : KeepsForm s0 s) {t : ThreadNo} {f : Insn} : EndsInForm s0 (execSt t f s) :=
  .next (hs.insn fun hs => .ite hs.trap hs.fabricOp)

theorem EndsInForm.ldL (hs : KeepsForm s0 s) {t : ThreadNo} {f : Insn} : EndsInForm s0 (execLdL t f s) :=
  .next (hs.insn fun hs => .ite hs.trap hs.fabricOp)

theorem EndsInForm.stL (hs : KeepsForm s0 s) {t : ThreadNo} {f : Insn} : EndsInForm s0 (execStL t f s) :=
  .next (hs.insn fun hs => .ite hs.trap hs.fabricOp)

theorem EndsInForm.atom (hs : KeepsForm s0 s) {t : ThreadNo} {f : Insn} : EndsInForm s0 (execAtom t f s) :=
  .next (hs.insn fun hs => .ite hs.trap hs.fabricOp)

theorem EndsInForm.red (hs : KeepsForm s0 s) {t : ThreadNo} {f : Insn} : EndsInForm s0 (execRed t f s) :=
  .next (hs.insn fun hs => .ite hs.trap hs.fabricOp)

theorem EndsInForm.resolve (hs : KeepsForm s0 s) {t : ThreadNo} {f : Insn} : EndsInForm s0 (execResolve t f s) :=
  .next (hs.insn fun hs => .ite hs.trap (.ite hs.endNow hs.fabricOp))

theorem EndsInForm.fence (hs : KeepsForm s0 s) {t : ThreadNo} {f : Insn} : EndsInForm s0 (execFence t f s) :=
  .next (hs.insn fun hs => .ite hs.advance hs.waitOn)

theorem EndsInForm.invl (hs : KeepsForm s0 s) {t : ThreadNo} {f : Insn} : EndsInForm s0 (execInvl t f s) :=
  .next (hs.insn fun hs => hs.fabricOp)

theorem EndsInForm.ownAcq (hs : KeepsForm s0 s) {t : ThreadNo} {f : Insn} : EndsInForm s0 (execOwnAcq t f s) :=
  .next (hs.insn fun hs => hs.fabricOp)

theorem EndsInForm.ownRel (hs : KeepsForm s0 s) {t : ThreadNo} {f : Insn} : EndsInForm s0 (execOwnRel t f s) :=
  .next (hs.insn fun hs => hs.fabricOp)

theorem EndsInForm.pageWalk (hs : KeepsForm s0 s) {t : ThreadNo} {fva : BitVec 64} {acc : Acc} :
    EndsInForm s0 (execPageWalk t fva acc s) := by
  unfold execPageWalk
  refine .next ?_
  refine .ite hs ?_
  split
  · exact (hs.leafOf.of_fst ‹_›).threadXlateFault
  · exact hs.leafOf.of_fst ‹_›

end Sys2Proof.Machine
end

section
/-! ## Canonical form: block transfers -/

namespace Sys2Proof.Machine

open Sys2Proof

variable {s0 s : State}

theorem KeepsForm.setRun (hs : KeepsForm s0 s) {k : Nat} {r : SkdRun} : KeepsForm s0 (s.setRun k r) := hs.setSkid

theorem KeepsForm.skdSend (hs : KeepsForm s0 s) {k : Nat} {q : Req} {acc : Acc} {r r' : SkdRun} {i : Nat} :
    KeepsForm s0 (s.skdSend k q acc r r' i) := by
  unfold State.skdSend
  split
  · exact ((hs.translate.of_fst ‹_›).setRun).xlateRecord
  · exact (hs.translate.of_fst ‹_›).setRun
  · dsimp only
    split
    · exact (((hs.translate.of_fst ‹_›).request).of_fst ‹_›).countHeld
    · refine .ite (((((hs.translate.of_fst ‹_›).request).of_fst ‹_›).setRun).accumReads) ?_
      exact (((hs.translate.of_fst ‹_›).request).of_fst ‹_›).setRun
    · exact (((hs.translate.of_fst ‹_›).request).of_fst ‹_›).setRun
    · exact (((hs.translate.of_fst ‹_›).request).of_fst ‹_›).setRun

theorem KeepsForm.skdWrite (hs : KeepsForm s0 s) {k : Nat} {r : SkdRun} {i : Nat} {ln : SkdLine} :
    KeepsForm s0 (s.skdWrite k r i ln) :=
  hs.skdSend

theorem KeepsForm.skdRead (hs : KeepsForm s0 s) {k : Nat} {r : SkdRun} {i : Nat} {ln : SkdLine} :
    KeepsForm s0 (s.skdRead k r i ln) :=
  hs.skdSend

theorem EndsInForm.skidderDescriptorStart (hs : KeepsForm s0 s) {k : SkidNo} :
    EndsInForm s0 (execSkidderDescriptorStart k s) := by
  unfold execSkidderDescriptorStart
  refine .next ?_
  dsimp only
  split
  · exact hs
  · exact .ite hs hs.setSkid.recheck

theorem KeepsForm.skdNext (hs : KeepsForm s0 s) {k : Nat} {r : SkdRun} {t : State} (h : s.skdNext k r = some t) : KeepsForm s0 t
    := by
  unfold State.skdNext at h
  dsimp only at h
  split at h
  · cases h; exact hs.skdWrite
  · split at h
    · cases h; exact hs.skdRead
    · split at h
      · cases h
      · cases h; exact .ite hs.skdWrite hs.skdRead

theorem EndsInForm.skidderLineIssue (hs : KeepsForm s0 s) {k : SkidNo} : EndsInForm s0 (execSkidderLineIssue k s) := by
  refine .next ?_
  split
  · obtain ⟨r, -, hr⟩ := List.exists_of_findSome?_eq_some ‹_›
    exact hs.skdNext hr
  · exact hs

theorem EndsInForm.blockTransferComplete (hs : KeepsForm s0 s) {k : SkidNo} :
    EndsInForm s0 (execBlockTransferComplete k s) := by
  unfold execBlockTransferComplete
  refine .next ?_
  split
  · exact hs
  · refine .ite hs.skdEnd.recheck ?_
    dsimp only
    split
    · exact (((hs.translate.of_fst ‹_›).skdEnd).xlateRecord).recheck
    · exact ((hs.translate.of_fst ‹_›).skdEnd).recheck
    · split
      · exact ((hs.translate.of_fst ‹_›).request).of_fst ‹_›
      · exact ((((hs.translate.of_fst ‹_›).request).of_fst ‹_›).skdEnd).recheck
      · exact ((((hs.translate.of_fst ‹_›).request).of_fst ‹_›).skdEnd).recheck
      · exact (((hs.translate.of_fst ‹_›).request).of_fst ‹_›).setRun

end Sys2Proof.Machine
end

section
/-! ## Canonical form: engine instructions -/

namespace Sys2Proof.Machine

open Sys2Proof

variable {s0 s : State}

theorem KeepsForm.engineRefused (hs : KeepsForm s0 s) {t : ThreadNo} {f : Insn} {st : Nat} :
    KeepsForm s0 (s.engineRefused t f st) :=
  hs.setGreg.writeStatus.advance

theorem KeepsForm.handOn (hs : KeepsForm s0 s) {t : ThreadNo} {f : Insn} {kind arg : Nat} {slot : Option Nat} :
    KeepsForm s0 (s.handOn t f kind arg slot) := by
  unfold State.handOn
  dsimp only
  unfold State.advance
  unfold State.setPc
  unfold State.setFld
  split
  · exact hs.update.setThr.setReg
  · exact hs.update.setThr.setReg

theorem KeepsForm.engineIssue (hs : KeepsForm s0 s) {t : ThreadNo} {f : Insn} {kind arg : Nat} :
    KeepsForm s0 (s.engineIssue t f kind arg) := by
  unfold State.engineIssue
  refine .ite hs.waitOn ?_
  refine .ite hs.waitOn ?_
  refine .ite hs.handOn ?_
  split
  · exact hs.waitOn
  · exact hs.handOn

theorem EndsInForm.skdQ (hs : KeepsForm s0 s) {t : ThreadNo} {f : Insn} : EndsInForm s0 (execSkdQ t f s) := by
  unfold execSkdQ
  exact .next (hs.insn fun hs => .ite hs.engineRefused (.ite hs.engineRefused (.ite hs.waitOn hs.engineIssue)))

theorem EndsInForm.krn (hs : KeepsForm s0 s) {t : ThreadNo} {f : Insn} : EndsInForm s0 (execKrn t f s) :=
  .next (hs.insn fun hs => hs.engineIssue)

theorem EndsInForm.coll (hs : KeepsForm s0 s) {t : ThreadNo} {f : Insn} : EndsInForm s0 (execColl t f s) :=
  .next (hs.insn fun hs => hs.engineIssue)

theorem EndsInForm.collBatch (hs : KeepsForm s0 s) {t : ThreadNo} {f : Insn} : EndsInForm s0 (execCollBatch t f s) :=
  .next (hs.insn fun hs => .ite hs.engineRefused hs.engineIssue)

theorem EndsInForm.rsv (hs : KeepsForm s0 s) {t : ThreadNo} {f : Insn} : EndsInForm s0 (execRsv t f s) :=
  .next (hs.insn fun hs => hs.engineIssue)

theorem KeepsForm.handleReturn (hs : KeepsForm s0 s) {t : ThreadNo} {f : Insn} {w : Word} {slot : Option Nat} :
    KeepsForm s0 (s.handleReturn t f w slot) :=
  hs.setThr.setGreg.advance

theorem EndsInForm.hpoll (hs : KeepsForm s0 s) {t : ThreadNo} {f : Insn} : EndsInForm s0 (execHpoll t f s) :=
  .next (hs.insn fun hs => hs.handleReturn)

theorem EndsInForm.hwait (hs : KeepsForm s0 s) {t : ThreadNo} {f : Insn} : EndsInForm s0 (execHwait t f s) := by
  unfold execHwait
  refine .next ?_
  refine hs.insn fun hs => ?_
  split
  · exact .ite hs.waitOn hs.handleReturn
  · exact hs.handleReturn

theorem EndsInForm.lpSet (hs : KeepsForm s0 s) {t : ThreadNo} {f : Insn} : EndsInForm s0 (execLpSet t f s) := by
  unfold execLpSet
  refine .next ?_
  refine hs.insn fun hs => ?_
  exact .ite hs.writeStatus.advance (.ite hs.writeStatus.advance hs.setLock.askSwitch.moveMet.setThr.advance)

theorem KeepsForm.readOver (hs : KeepsForm s0 s) {o : EngineOp} {status : Nat} {taken : Bool} :
    KeepsForm s0 (s.readOver o status taken) :=
  .ite hs.update.setThr.recheck hs.update.setThr.writeStatus.recheck

theorem KeepsForm.mustWait (hs : KeepsForm s0 s) {o : EngineOp} {w : Wait} : KeepsForm s0 (s.mustWait o w) :=
  .ite hs.update.waitOn hs.update

theorem KeepsForm.engHalves {e : Eng} (hs : KeepsForm s0 e.s) {fva n : Nat} : KeepsForm s0 (e.halves fva n).1.s := hs.engRead

theorem KeepsForm.endUnissued (hs : KeepsForm s0 s) {o : EngineOp} {e : ColEntry} {status detail : Nat} {tell : Bool} :
    KeepsForm s0 (s.endUnissued o e status detail tell) := by
  unfold State.endUnissued
  exact .readOver (.update (.ite (.ite hs.keepAbort.raise (hs.keepAbort.raise.foldl fun hs => hs.colCtl)) hs))

theorem KeepsForm.enterCol (hs : KeepsForm s0 s) {o : EngineOp} {e : ColEntry} : KeepsForm s0 (s.enterCol o e) := by
  unfold State.enterCol
  refine .readOver ?_
  refine .foldl ?_ fun hs => ?_
  · refine .ite hs.fresh.update.setCol.colAdvance ?_
    split
    · exact hs.fresh.update.setCol
    · exact .ite hs.fresh.update.setRsv.setCol hs.fresh.update.setRsv.decided
  · split
    · exact hs.colMessage
    · exact hs

theorem KeepsForm.engVecTable {e : Eng} (hs : KeepsForm s0 e.s) {d : Nat} : KeepsForm s0 (e.vecTable d).1.s := by
  unfold Eng.vecTable
  split
  · exact hs.engRead
  · split
    · exact hs.engHalves
    · exact hs

theorem KeepsForm.tableFailed (hs : KeepsForm s0 s) {o : EngineOp} {e : ColEntry} {f : EngFail} :
    KeepsForm s0 (s.tableFailed o e f) :=
  hs.opXlateRecord.endUnissued

theorem KeepsForm.acceptCol (hs : KeepsForm s0 s) {o : EngineOp} {ds : List (BitVec 1024)} {z : List HostAnswer} :
    KeepsForm s0 (s.acceptCol o ds z) := by
  unfold State.acceptCol
  extract_lets d p bad e g readable
  split
  rename_i g' ms hg
  have hg' : KeepsForm s0 g'.s := by
    by_cases hr : readable = true
    · rw [if_pos hr] at hg
      exact KeepsForm.of_eng (hs.eng.engHalves) hg
    · rw [if_neg hr] at hg
      exact KeepsForm.of_eng hs.eng hg
  refine .ite hg'.endUnissued ?_
  split
  rename_i v table hv
  have hv' : KeepsForm s0 v.s := KeepsForm.of_eng (KeepsForm.engVecTable (e := { g' with fail := none }) hg') hv
  refine .ite hv'.endUnissued (.ite hv'.endUnissued (.ite hv'.endUnissued ?_))
  split
  · exact hv'.count.endUnissued
  · split
    · exact hv'.tableFailed
    · exact hv'.tableFailed
    · exact .ite hv'.mustWait hv'.enterCol

theorem KeepsForm.acceptRsv (hs : KeepsForm s0 s) {o : EngineOp} {d : Nat} : KeepsForm s0 (s.acceptRsv o d) :=
  .ite hs.readOver (.ite hs.count.readOver (.ite hs.readOver hs.setRsv.readOver))

theorem EndsInForm.engineDescriptorReadDone (hs : KeepsForm s0 s) {op : Nat} {z : List HostAnswer} :
    EndsInForm s0 (execEngineDescriptorReadDone op z s) := by
  unfold execEngineDescriptorReadDone
  refine .next ?_
  split
  · exact hs
  · dsimp only
    split
    · exact ((hs.readDescriptor.of_fst ‹_›).xlateRecord).readOver
    · exact (hs.readDescriptor.of_fst ‹_›).readOver
    · refine .ite (((hs.readDescriptor.of_fst ‹_›).readOver).consume) ?_
      refine .ite ?_ ?_
      · exact .ite ((hs.readDescriptor.of_fst ‹_›).mustWait) (((hs.readDescriptor.of_fst ‹_›).setSkid).readOver)
      · refine .ite ?_ (.ite ((hs.readDescriptor.of_fst ‹_›).acceptRsv) ((hs.readDescriptor.of_fst ‹_›).acceptCol))
        exact .ite ((hs.readDescriptor.of_fst ‹_›).mustWait) (((hs.readDescriptor.of_fst ‹_›).submitKernel).readOver)

end Sys2Proof.Machine
end

section
/-! ## Canonical form: kernels at a position -/

namespace Sys2Proof.Machine

open Sys2Proof

variable {s0 s : State}

theorem KeepsForm.engElemBytes {e : Eng} (hs : KeepsForm s0 e.s) {fmt base sc r len j n : Nat} :
    KeepsForm s0 (e.elemBytes fmt base sc r len j n).1.s := by
  unfold Eng.elemBytes
  dsimp only
  split
  · exact hs.engRead.engRead
  · exact hs.engRead

theorem KeepsForm.engElems {e : Eng} (hs : KeepsForm s0 e.s) {fmt base sc r len j n : Nat} :
    KeepsForm s0 (e.elems fmt base sc r len j n).1.s :=
  hs.engElemBytes

theorem KeepsForm.engRows {e : Eng} (hs : KeepsForm s0 e.s) {fmt base sc len r n : Nat} :
    KeepsForm s0 (e.rows fmt base sc len r n).1.s := by
  induction n generalizing e r with
  | zero => exact hs
  | succ n ih => exact ih hs.engElems

theorem KeepsForm.engLraFirst {e : Eng} (hs : KeepsForm s0 e.s) {d group : Nat} : KeepsForm s0 (e.lraFirst d group).1.s :=
  hs.engRows.engRows

theorem KeepsForm.engBRows {e : Eng} (hs : KeepsForm s0 e.s) {d j cnt : Nat} {known : FMap BRead} :
    KeepsForm s0 (e.bRows d j cnt known).1.s := by
  unfold Eng.bRows
  split
  · exact hs
  · exact hs.foldl_engFst fun hs => hs.engElemBytes

theorem KeepsForm.engLraTile {e : Eng} (hs : KeepsForm s0 e.s) {d group : Nat} {temp : List Nat} {known : FMap BRead}
    {n j : Nat} :
    KeepsForm s0 (e.lraTile d group temp known n j).1.s := by
  unfold Eng.lraTile
  dsimp only
  split
  · exact hs.engBRows.engElems
  · exact hs.engBRows

theorem KeepsForm.engEgrBag {e : Eng} (hs : KeepsForm s0 e.s) {d b : Nat} : KeepsForm s0 (e.egrBag d b).1.s := by
  unfold Eng.egrBag
  split
  · dsimp only
    split
    · exact hs.engRead.of_eng ‹_›
    · split
      · exact (hs.engRead.of_eng ‹_›).engStop
      · refine (hs.engRead.of_eng ‹_›).foldl_engFst fun hs => ?_
        split
        · split
          · exact hs.engRead
          · split
            · exact hs.engRead.engStop
            · exact hs.engRead
        · split
          · exact hs.engRead.engRead
          · split
            · exact hs.engRead.engRead.engStop
            · exact hs.engRead.engRead

theorem KeepsForm.engEgrTile {e : Eng} (hs : KeepsForm s0 e.s) {d b j : Nat} : KeepsForm s0 (e.egrTile d b j).1.s := by
  unfold Eng.egrTile
  exact .foldl_engFst hs.engEgrBag fun hs => hs.engElems

theorem KeepsForm.engTile {e : Eng} (hs : KeepsForm s0 e.s) {r : KernelRun} : KeepsForm s0 (e.tile r).1.s := by
  unfold Eng.tile
  dsimp only
  split
  · split
    · exact hs.engLraFirst
    · exact hs.engLraTile
  · exact hs.engEgrTile

theorem EndsInForm.kernelStart (hs : KeepsForm s0 s) {k : Fin 16} : EndsInForm s0 (execKernelStart k s) := by
  unfold execKernelStart
  refine .next ?_
  dsimp only
  split
  · exact hs
  · exact .ite hs hs.setLpos.recheck

theorem KeepsForm.itemDone (hs : KeepsForm s0 s) {k : Nat} {x : LdlPos} {r : KernelRun} {run : ItemRun} {z : List HostAnswer} :
    KeepsForm s0 (s.itemDone k x r run z) := by
  unfold State.itemDone
  refine .ite hs.eng.engTile.setLpos ?_
  split
  · exact hs.eng.engTile.opXlateRecord.setLpos
  · refine .ite hs.eng.engTile.checkItem.setLpos.retireCells ?_
    refine .retireCells ?_
    split
    · exact ((hs.eng.engTile.checkItem.keepAccs.foldl_eng fun hs => hs.engWrite).opXlateRecord).setLpos
    · exact (hs.eng.engTile.checkItem.keepAccs.foldl_eng fun hs => hs.engWrite).setLpos

theorem EndsInForm.workItemDone (hs : KeepsForm s0 s) {k : Fin 16} {run : ItemRun} {z : List HostAnswer} :
    EndsInForm s0 (execWorkItemDone k run z s) := by
  unfold execWorkItemDone
  refine .next ?_
  dsimp only
  split
  · exact hs
  · exact .ite hs hs.itemDone

theorem KeepsForm.engPoisonRest {e : Eng} (hs : KeepsForm s0 e.s) {r : KernelRun} : KeepsForm s0 (e.poisonRest r).s := by
  unfold Eng.poisonRest
  refine hs.foldl_eng fun {b _} hb => ?_
  exact KeepsForm.engWrite (e := { b with s := _ }) hb.fresh

theorem KeepsForm.kernelEnds (hs : KeepsForm s0 s) {p : Nat} {r : KernelRun} {z : List HostAnswer} :
    KeepsForm s0 (s.kernelEnds p r z) :=
  hs.eng.engFlush.setLpos.fresh.endKernel

theorem EndsInForm.kernelComplete (hs : KeepsForm s0 s) {pos : Option (Fin 16)} {z : List HostAnswer} :
    EndsInForm s0 (execKernelComplete pos z s) := by
  unfold execKernelComplete
  refine .next ?_
  split
  · split
    · exact hs
    · exact hs.fresh.fresh.fresh.update.endKernel
  · split
    · exact hs
    · exact .ite hs (.ite (.ite hs.eng.engPoisonRest.setLpos hs.eng.engPoisonRest.setLpos.kernelEnds) hs.kernelEnds)

theorem EndsInForm.cellRetireWrite (hs : KeepsForm s0 s) {via : Via} {a : Fin 17} {v : Word} :
    EndsInForm s0 (execCellRetireWrite via a v s) :=
  .next (hs.gate fun hs => hs.foldl fun hs => hs.retireCell)

theorem EndsInForm.spareReplaceGo (hs : KeepsForm s0 s) {via : Via} {k : Fin 16} :
    EndsInForm s0 (execSpareReplaceGo via k s) :=
  .next (hs.gate fun hs => hs.startReplace)

theorem EndsInForm.spareReplacementDone (hs : KeepsForm s0 s) : EndsInForm s0 (execSpareReplacementDone s) := by
  unfold execSpareReplacementDone
  refine .next ?_
  split
  · exact hs
  · exact hs.update.setFld.setFld.setFld.setPosState.ldlEvent.faultLog.judgeCells.recheck

theorem EndsInForm.kernelSlotMove (hs : KeepsForm s0 s) {k : Fin 16} : EndsInForm s0 (execKernelSlotMove k s) :=
  .next (.ite hs.setFld.recheck (.ite hs.setFld.recheck hs))

theorem EndsInForm.ladleQuantum (hs : KeepsForm s0 s) {k : Fin 16} : EndsInForm s0 (execLadleQuantum k s) :=
  .next (.ite hs.setLpos (.ite hs.setLpos hs.setLpos))

end Sys2Proof.Machine
end

section
/-! ## Canonical form: reliability -/

namespace Sys2Proof.Machine

open Sys2Proof

variable {s0 s : State}

theorem EndsInForm.patrolScrub (hs : KeepsForm s0 s) {e : Ecc} : EndsInForm s0 (execPatrolScrub e s) :=
  .next (.ite hs (.ite hs hs.hbmRead.update))

theorem KeepsForm.anySkid (hs : KeepsForm s0 s) : KeepsForm s0 s.anySkid.2 := hs.fresh

theorem KeepsForm.writeOut (hs : KeepsForm s0 s) {l : RlcLine} : KeepsForm s0 (s.writeOut l) := by
  unfold State.writeOut
  split
  · exact hs.anySkid.of_snd ‹_›
  · exact ((hs.anySkid.of_snd ‹_›).setRlc).writeBack

theorem KeepsForm.rlcError (hs : KeepsForm s0 s) {i : Nat} : KeepsForm s0 (s.rlcError i) := by
  unfold State.rlcError
  split
  · exact hs
  · exact .ite hs.setRlc hs.setRlc.writeOut.created

theorem KeepsForm.packetError (hs : KeepsForm s0 s) {i : Nat} {header : Bool} : KeepsForm s0 (s.packetError i header) := by
  unfold State.packetError
  dsimp only
  split
  · exact hs
  · refine .ite ?_ ?_
    · refine .faultLog ?_
      exact .ite (.noteDepth (.ite hs.update.freePool.noteHold hs.update)) (.ite hs.update.freePool.noteHold hs.update)
    · refine .created ?_
      exact .ite (.noteDepth (.ite hs.update.freePool.noteHold hs.update)) (.ite hs.update.freePool.noteHold hs.update)

theorem KeepsForm.strike (hs : KeepsForm s0 s) {a : Storage} : KeepsForm s0 (s.strike a) := by
  unfold State.strike
  split
  · exact hs.update.noteCached
  · exact hs.update
  · exact hs.update
  · exact hs.update
  · exact hs.update.colLost
  · exact hs.update
  · exact hs.update
  · exact hs.rlcError
  · split
    · exact hs
    · exact hs.setCol.created
  · dsimp only
    split
    · exact hs
    · exact hs.setLpos.created
  · exact .ite hs.setPoison.created hs
  · exact hs.update
  · exact hs.update
  · exact hs.packetError

theorem EndsInForm.sramUncorrectable (hs : KeepsForm s0 s) {x : Storage} : EndsInForm s0 (execSramUncorrectable x s) :=
  .next (.ite hs.strike hs.strike.event.count.faultLog)

theorem EndsInForm.ledgerSetLostExpire (hs : KeepsForm s0 s) {n : Fin 1048576} :
    EndsInForm s0 (execLedgerSetLostExpire n s) := by
  unfold execLedgerSetLostExpire
  refine .next ?_
  split
  · exact .ite hs.update hs
  · exact hs

theorem KeepsForm.dropProgram (hs : KeepsForm s0 s) : KeepsForm s0 s.dropProgram := by
  unfold State.dropProgram
  split
  · exact hs
  · exact hs.update.setFld.setFld.raise

theorem EndsInForm.iddaumLockstepRestart (hs : KeepsForm s0 s) : EndsInForm s0 (execIddaumLockstepRestart s) := by
  unfold execIddaumLockstepRestart
  refine .next ?_
  refine .ite hs ?_
  refine .event ?_
  refine .update ?_
  split
  · exact hs.dropProgram.failEpoch.update.setFld.send
  · exact hs.dropProgram.failEpoch

theorem EndsInForm.iddaumRestartDone (hs : KeepsForm s0 s) : EndsInForm s0 (execIddaumRestartDone s) := .next hs.restartDone

theorem KeepsForm.flushDirty (hs : KeepsForm s0 s) : KeepsForm s0 s.flushDirty := hs.foldl fun hs => hs.writeOut

theorem KeepsForm.dropQueues (hs : KeepsForm s0 s) : KeepsForm s0 s.dropQueues :=
  (hs.foldl fun hs => hs.setLpos.noPosition).update

theorem EndsInForm.trayPresentDeassert (hs : KeepsForm s0 s) : EndsInForm s0 (execTrayPresentDeassert s) :=
  .next (.ite hs hs.dropQueues.colAbortAll.setFld.update.event.flushDirty)

theorem EndsInForm.trayDrainEnd (hs : KeepsForm s0 s) : EndsInForm s0 (execTrayDrainEnd s) :=
  .next (.ite hs (.ite hs.flushDirty (((hs.foldl fun hs => .ite hs.sendCtrl hs).setFld).faultLog)))

theorem EndsInForm.logRead (hs : KeepsForm s0 s) {via : Via} {poison : Bool} {i : Fin 262144} :
    EndsInForm s0 (execLogRead via poison i s) :=
  .next (hs.gate fun hs => hs.foldl fun hs => hs.setReg)

theorem EndsInForm.schedulerBankFault (hs : KeepsForm s0 s) {k : Fin 16} : EndsInForm s0 (execSchedulerBankFault k s) :=
  .next (.ite hs (.ite hs.startReplace.disablePos hs.startReplace))

end Sys2Proof.Machine
end

section
/-! ## Canonical form: partition commands, keys and quotes -/

namespace Sys2Proof.Machine

open Sys2Proof

variable {s0 s : State}

theorem EndsInForm.partEnable (hs : KeepsForm s0 s) {via : Via} {p : PartNo} : EndsInForm s0 (execPartEnable via p s) :=
  .next (hs.gate fun hs => .ite hs.setFld.setFld.partResult hs.partResult)

theorem EndsInForm.partSeal (hs : KeepsForm s0 s) {via : Via} {p : PartNo} : EndsInForm s0 (execPartSeal via p s) :=
  .next (hs.gate fun hs => .ite hs.update.setFld.noteEarliest.partResult hs.partResult)

theorem EndsInForm.sealComplete (hs : KeepsForm s0 s) {p : PartNo} : EndsInForm s0 (execSealComplete p s) := by
  unfold execSealComplete
  refine .next ?_
  split
  · exact hs
  · exact hs.fresh.update.setFld.setFld.setFld.setFld.noteEarliest

theorem KeepsForm.resetCommand (hs : KeepsForm s0 s) {p : Nat} {low : BitVec 54} {disable : Bool} :
    KeepsForm s0 (s.resetCommand p low disable) :=
  .ite hs.scheduleReset.partResult hs.partResult

theorem EndsInForm.partReset (hs : KeepsForm s0 s) {via : Via} {p : PartNo} {tick : BitVec 54} :
    EndsInForm s0 (execPartReset via p tick s) :=
  .next (hs.gate fun hs => hs.resetCommand)

theorem EndsInForm.partDisable (hs : KeepsForm s0 s) {via : Via} {p : PartNo} {tick : BitVec 54} :
    EndsInForm s0 (execPartDisable via p tick s) :=
  .next (hs.gate fun hs => hs.resetCommand)

theorem EndsInForm.partitionReset (hs : KeepsForm s0 s) {p : PartNo} : EndsInForm s0 (execPartitionReset p s) := by
  unfold execPartitionReset
  refine .next ?_
  split
  · exact .ite hs.resetPartition hs
  · exact hs

theorem EndsInForm.partitionResetDone (hs : KeepsForm s0 s) {p : PartNo} : EndsInForm s0 (execPartitionResetDone p s) :=
  .next (.ite hs hs.update.setFld.setFld)

theorem EndsInForm.rangeAdd (hs : KeepsForm s0 s) {via : Via} {i : Fin 256} {secret : Bool} {p : PartNo} {base : BitVec 28}
    {size : BitVec 16} :
    EndsInForm s0 (execRangeAdd via i secret p base size s) :=
  .next (hs.gate fun hs => .ite hs.setReg.rangeResult hs.rangeResult)

theorem EndsInForm.rangeRemove (hs : KeepsForm s0 s) {via : Via} {i : Fin 256} : EndsInForm s0 (execRangeRemove via i s) :=
  .next (hs.gate fun hs => .rangeResult (.ite hs (.ite hs.scrubRange hs.freeRange)))

theorem EndsInForm.scrubDone (hs : KeepsForm s0 s) {i : Fin 256} : EndsInForm s0 (execScrubDone i s) := by
  unfold execScrubDone
  refine .next ?_
  split
  · exact hs.update.zeroBytes
  · exact .ite hs hs.zeroBytes.freeRange.noteScrubs

theorem EndsInForm.keyUnwrap (hs : KeepsForm s0 s) {via : Via} {p : PartNo} {slot : Fin 16} {src : BitVec 46} :
    EndsInForm s0 (execKeyUnwrap via p slot src s) :=
  .next (hs.gate fun hs => .ite hs.secDeny hs.update.setFld)

theorem EndsInForm.unwrapDone (hs : KeepsForm s0 s) : EndsInForm s0 (execUnwrapDone s) := by
  unfold execUnwrapDone
  refine .next ?_
  split
  · exact hs
  · refine .keyResult ?_
    refine .ite ?_ ?_
    · refine .raise ?_
      split
      · exact hs.update.update.noteSlots
      · exact hs.update.count
    · split
      · exact hs.update.update.noteSlots
      · exact hs.update.count

theorem EndsInForm.keyClear (hs : KeepsForm s0 s) {via : Via} {p : PartNo} {slot : Fin 16} :
    EndsInForm s0 (execKeyClear via p slot s) :=
  .next (hs.gate fun hs => .ite hs.secDeny hs.clearSlot.dropLoads.keyResult)

theorem EndsInForm.quoteGo (hs : KeepsForm s0 s) {via : Via} {p : PartNo} {dst : BitVec 46} :
    EndsInForm s0 (execQuoteGo via p dst s) := by
  unfold execQuoteGo
  exact .next (hs.gate fun hs => .ite hs.secDeny (.ite hs.secDeny.quoteResult (.ite hs.quoteResult hs.update.setFld)))

theorem EndsInForm.quoteDone (hs : KeepsForm s0 s) : EndsInForm s0 (execQuoteDone s) := by
  unfold execQuoteDone
  refine .next ?_
  split
  · exact hs
  · dsimp only
    split
    · exact .ite hs.update.quoteResult hs.update.quoteRecord.storeBytes.keepNonce.quoteResult
    · exact hs.update.quoteRecord.keepNonce.setFld.update.send

theorem EndsInForm.loadGo (hs : KeepsForm s0 s) {via : Via} {range : Fin 256} {slot : Fin 16} {first count token : BitVec 16} :
    EndsInForm s0 (execLoadGo via range slot first count token s) :=
  .next (hs.gate fun hs => .ite hs.secDeny (.ite hs.loadEnds hs.update.noteLoads.startChunks))

theorem EndsInForm.chunkDone (hs : KeepsForm s0 s) {e : Fin 4} : EndsInForm s0 (execChunkDone e s) := by
  unfold execChunkDone
  refine .next ?_
  split
  · dsimp only
    split
    · exact hs.update.putLines.update.finishLoad
    · exact .finishLoad (.update (.ite hs.update.count.raise hs.update.count))
  · exact hs

theorem EndsInForm.debugOpen (hs : KeepsForm s0 s) {via : Via} : EndsInForm s0 (execDebugOpen via s) :=
  .next (hs.gate fun hs => .ite hs hs.raise.setFld)

theorem KeepsForm.sessionClosed (hs : KeepsForm s0 s) : KeepsForm s0 s.sessionClosed := .ite hs hs.setFld

theorem EndsInForm.debugClose (hs : KeepsForm s0 s) {via : Via} : EndsInForm s0 (execDebugClose via s) :=
  .next (hs.gate fun hs => hs.setFld.sessionClosed)

end Sys2Proof.Machine
end

section
/-! ## Canonical form: counters, trace and debug access -/

namespace Sys2Proof.Machine

open Sys2Proof

variable {s0 s : State}

theorem KeepsForm.takeBlock (hs : KeepsForm s0 s) : KeepsForm s0 s.takeBlock := hs.fresh.fresh.setTel.setFld.setFld.setFld

theorem EndsInForm.counterBlock (hs : KeepsForm s0 s) : EndsInForm s0 (execCounterBlock s) := .next (.ite hs.takeBlock hs)

theorem EndsInForm.snapGo (hs : KeepsForm s0 s) {via : Via} : EndsInForm s0 (execSnapGo via s) :=
  .next (hs.gate fun hs => hs.setTel)

theorem KeepsForm.telBusy (hs : KeepsForm s0 s) : KeepsForm s0 s.telBusy := hs.raise

theorem EndsInForm.traceSplitWrite (hs : KeepsForm s0 s) {via : Via} {units : BitVec 7} :
    EndsInForm s0 (execTraceSplitWrite via units s) :=
  .next (hs.gate fun hs => .ite hs.telBusy (.ite hs hs.setTel.setFld))

theorem KeepsForm.applySplit (hs : KeepsForm s0 s) : KeepsForm s0 s.applySplit := by
  unfold State.applySplit
  split
  · exact hs
  · exact hs.setTel

theorem KeepsForm.setTrace (hs : KeepsForm s0 s) {v : Nat} : KeepsForm s0 (s.setTrace v) :=
  .setFld (.ite hs.setFld.setFld hs.setFld)

theorem KeepsForm.writeTraceCtl (hs : KeepsForm s0 s) {v : Nat} : KeepsForm s0 (s.writeTraceCtl v) := by
  unfold State.writeTraceCtl
  exact .ite hs.telBusy (.ite hs.setTrace.setFld.setFld.setFld (.ite hs.setTrace.setFld hs.setTrace.setFld.setFld))

theorem EndsInForm.traceRun (hs : KeepsForm s0 s) {via : Via} {v : Word} : EndsInForm s0 (execTraceRun via v s) :=
  .next (hs.gate fun hs => hs.writeTraceCtl)

theorem EndsInForm.traceArmedStart (hs : KeepsForm s0 s) : EndsInForm s0 (execTraceArmedStart s) := .next (.ite hs.setFld hs)

theorem EndsInForm.debugLineRead (hs : KeepsForm s0 s) {via : Via} : EndsInForm s0 (execDebugLineRead via s) := by
  unfold execDebugLineRead
  refine .next ?_
  refine hs.gate fun hs => ?_
  refine .ite hs.telBusy ?_
  exact .ite hs.dbgResult (.ite hs.dbgLoad (.ite hs.dbgZero.dbgResult (.ite hs.dbgLoad hs.setTel.setFld.raiseEpoch)))

theorem EndsInForm.debugLineWrite (hs : KeepsForm s0 s) {via : Via} : EndsInForm s0 (execDebugLineWrite via s) := by
  unfold execDebugLineWrite
  refine .next ?_
  refine hs.gate fun hs => ?_
  exact .ite hs.telBusy (.ite hs.dbgResult (.ite hs.dbgResult (.ite hs.dbgResult hs.homeWrite.dbgResult)))

theorem EndsInForm.debugEpochWriteDone (hs : KeepsForm s0 s) {ok : Bool} : EndsInForm s0 (execDebugEpochWriteDone ok s) := by
  unfold execDebugEpochWriteDone
  refine .next ?_
  refine .ite hs ?_
  refine .ite hs.failEpoch ?_
  exact .endSealedRead (.ite hs.update.setFld.journal.update.raise.setFld hs.update.setFld.journal.update.raise)

theorem KeepsForm.accumulator (hs : KeepsForm s0 s) {k c a i : Nat} : KeepsForm s0 (s.accumulator k c a i).2 := by
  unfold State.accumulator
  dsimp only
  split
  · exact hs
  · split
    · exact hs.raise
    · split
      · exact hs.fresh
      · exact hs

theorem EndsInForm.accumulatorRead (hs : KeepsForm s0 s) {via : Via} {k : Fin 16} {c : Fin 64} {a : Fin 8} {i : Fin 6} :
    EndsInForm s0 (execAccumulatorRead via k c a i s) :=
  .next (.ite hs.denied.send hs.accumulator.send)

end Sys2Proof.Machine
end

section
/-! ## Canonical form: the tick boundary -/

namespace Sys2Proof.Machine

open Sys2Proof

variable {s0 s : State}

theorem KeepsForm.measured (hs : KeepsForm s0 s) {m : Measured} : KeepsForm s0 (s.measured m) := by
  unfold State.measured
  refine .ite (hs.setFld.setFld.setFld.foldl fun hs => hs.countLane) ?_
  exact ((((hs.setFld.setFld.setFld.foldl fun hs => hs.countLane).setFld).setFld).setFld).setFld

theorem KeepsForm.snapshotPoint (hs : KeepsForm s0 s) : KeepsForm s0 s.snapshotPoint := hs.setTel.applySplit

theorem KeepsForm.keepClear (hs : KeepsForm s0 s) : KeepsForm s0 s.keepClear := by
  unfold State.keepClear
  split
  · exact .ite hs.moveMet hs
  · exact hs

theorem KeepsForm.powerStep (hs : KeepsForm s0 s) : KeepsForm s0 s.powerStep :=
  .ite hs.capControl.keepClear.capUnmet hs.capControl.keepClear.setOpt.shedStep.capUnmet

theorem KeepsForm.wakeLedger (hs : KeepsForm s0 s) : KeepsForm s0 s.wakeLedger := hs.foldl fun hs => .ite hs.runnable.takeHeld
    hs

theorem KeepsForm.exchangeTick (hs : KeepsForm s0 s) : KeepsForm s0 s.exchangeTick := hs.foldl fun hs => hs.exchangeGo

theorem KeepsForm.clockTick (hs : KeepsForm s0 s) : KeepsForm s0 s.clockTick := by
  unfold State.clockTick
  refine .ite ?_ ?_
  · refine .colAbortAll ?_
    refine .refuseSwitch ?_
    refine .ite hs.timeTick.wakeLedger.restartLimit.swapLimit.exchangeTick ?_
    exact hs.timeTick.wakeLedger.restartLimit.swapLimit.exchangeTick.settleGains.refreshLinks
  · refine .ite hs.timeTick.wakeLedger.restartLimit.swapLimit.exchangeTick ?_
    exact hs.timeTick.wakeLedger.restartLimit.swapLimit.exchangeTick.settleGains.refreshLinks

theorem KeepsForm.lateCredits (hs : KeepsForm s0 s) : KeepsForm s0 s.lateCredits := .ite hs.update.linkTick hs

theorem KeepsForm.creditStep (hs : KeepsForm s0 s) : KeepsForm s0 s.creditStep := hs.update.settleCredits

theorem EndsInForm.tickBoundary (hs : KeepsForm s0 s) {m : Measured} : EndsInForm s0 (execTickBoundary m s) :=
  .next (.ite hs hs.lateCredits.clockTick.measured.snapshotPoint.powerStep.creditStep)

end Sys2Proof.Machine
end

section
/-! ## Canonical form: Cruise C1 -/

namespace Sys2Proof.Machine

open Sys2Proof

variable {s0 s : State}

theorem KeepsForm.loadPair (hs : KeepsForm s0 s) {e : Nat × Nat} : KeepsForm s0 (s.loadPair e) :=
  .ite hs.satFld (hs.foldl fun hs => hs.setFld)

theorem KeepsForm.loadGroups (hs : KeepsForm s0 s) {n : Nat} {v : List Byte} : KeepsForm s0 (State.loadGroups n v s) := by
  induction n generalizing s v with
  | zero => exact hs
  | succ n ih => exact .ite hs (ih (.ite hs.putGroup hs))

theorem KeepsForm.loadRoutes (hs : KeepsForm s0 s) {n : Nat} {v : List Byte} : KeepsForm s0 (State.loadRoutes n v s) := by
  induction n generalizing s v with
  | zero => exact hs
  | succ n ih => exact .ite hs (ih hs.putRoute.update)

theorem KeepsForm.loadPlan (hs : KeepsForm s0 s) {v : List Byte} : KeepsForm s0 (s.loadPlan v) :=
  .ite hs.update.commitPlan hs.optEvent

theorem KeepsForm.loadRecord (hs : KeepsForm s0 s) {r : Rec} : KeepsForm s0 (s.loadRecord r) := by
  unfold State.loadRecord
  exact .ite (hs.foldl fun hs => hs.loadPair) (.ite hs.loadPlan (.ite hs.loadGroups (.ite hs.loadRoutes hs)))

theorem KeepsForm.loadDefault (hs : KeepsForm s0 s) {set : Bool} {e : Nat × List FieldSpec} :
    KeepsForm s0 (s.loadDefault set e) :=
  hs.foldl fun hs => .ite hs.setFld (.ite hs hs.setFld.satFld)

theorem KeepsForm.loadDefaults (hs : KeepsForm s0 s) {rs : List Rec} : KeepsForm s0 (s.loadDefaults rs) :=
  hs.foldl fun hs => .ite hs hs.loadDefault

theorem KeepsForm.applyItem (hs : KeepsForm s0 s) {key v : Nat} : KeepsForm s0 (s.applyItem key v) :=
  .ite hs.setFld (.ite hs.setReg (.ite hs.setReg (.ite (hs.foldl fun hs => hs.setFld.setFld) hs)))

theorem KeepsForm.loadJournal (hs : KeepsForm s0 s) {b : Nat} : KeepsForm s0 (s.loadJournal b) := by
  unfold State.loadJournal
  dsimp only
  unfold List.foldl
  split
  · exact hs.update
  · exact hs.update.applyItem.foldl fun hs => hs.applyItem

theorem KeepsForm.identify (hs : KeepsForm s0 s) {rs : List Rec} : KeepsForm s0 (s.identify rs) := .ite hs.setFld
    hs.setFld.raise

theorem KeepsForm.countCells (hs : KeepsForm s0 s) : KeepsForm s0 s.countCells := hs.foldl fun hs => .ite hs
    hs.setFld.judgeCells

theorem KeepsForm.splitStores (hs : KeepsForm s0 s) : KeepsForm s0 s.splitStores := hs.foldl fun hs => hs.setFld

theorem KeepsForm.showBanks (hs : KeepsForm s0 s) : KeepsForm s0 s.showBanks := hs.foldl fun hs => hs.showBank

theorem KeepsForm.loadBank (hs : KeepsForm s0 s) {b : Nat} {rs : List Rec} : KeepsForm s0 (s.loadBank b rs) := by
  unfold State.loadBank
  refine .identify ?_
  refine .update ?_
  refine .setFld ?_
  refine .runFirmware ?_
  refine .refreshSets ?_
  refine .refreshSets ?_
  exact (((((hs.setFld.setFld.foldl fun hs => hs.loadRecord).loadDefaults).setFld).loadJournal).countCells).splitStores

end Sys2Proof.Machine
end

section
/-! ## Canonical form: the host ports -/

namespace Sys2Proof.Machine

open Sys2Proof

variable {s0 s : State}

theorem KeepsForm.outOfWindow (hs : KeepsForm s0 s) {h : Nat} : KeepsForm s0 (s.outOfWindow h) := hs.count.raise

theorem KeepsForm.poisonIn (hs : KeepsForm s0 s) {h : Nat} {pz : Bool} : KeepsForm s0 (s.poisonIn h pz) := .ite hs.count.raise
    hs

theorem KeepsForm.poisonedData (hs : KeepsForm s0 s) {h : Nat} : KeepsForm s0 (s.poisonedData h) := hs.fresh.send

theorem KeepsForm.carried (hs : KeepsForm s0 s) {h : Nat} : KeepsForm s0 (s.carried h) := hs.tally

theorem EndsInForm.mmWindowRead (hs : KeepsForm s0 s) {h : PortNo} {hpa : BitVec 64} {e : Ecc} :
    EndsInForm s0 (execMmWindowRead h hpa e s) := by
  unfold execMmWindowRead
  refine .next ?_
  refine .ite hs ?_
  split
  · exact hs.outOfWindow.poisonedData
  · dsimp only
    split
    · refine .ite hs ?_
      refine .ite ((((hs.carried.judgeAt.of_fst ‹_›).hbmRead).send).consume) ?_
      exact ((hs.carried.judgeAt.of_fst ‹_›).hbmRead).send
    · exact .ite ((hs.carried.judgeAt.of_fst ‹_›).send) ((hs.carried.judgeAt.of_fst ‹_›).poisonedData)
    · exact (hs.carried.judgeAt.of_fst ‹_›).poisonedData

theorem EndsInForm.mmWindowWrite (hs : KeepsForm s0 s) {h : PortNo} {hpa : BitVec 64} {first : Fin 64} {count : Fin 65}
    {data : Line} {pz : Bool} :
    EndsInForm s0 (execMmWindowWrite h hpa first count data pz s) := by
  unfold execMmWindowWrite
  refine .next ?_
  refine .ite hs ?_
  split
  · exact hs.poisonIn.outOfWindow.send
  · dsimp only
    split
    · refine .ite hs ?_
      exact .storeHbm (.ite (((hs.carried.judgeAt.of_fst ‹_›).poisonIn).created) (hs.carried.judgeAt.of_fst ‹_›))
    · exact ((hs.carried.judgeAt.of_fst ‹_›).poisonIn).send

theorem KeepsForm.boundNow (hs : KeepsForm s0 s) {h : Nat} : KeepsForm s0 (s.boundNow h).2 := by
  unfold State.boundNow
  dsimp only
  split
  · exact hs.update
  · exact hs

theorem KeepsForm.hostSkid (hs : KeepsForm s0 s) {h p line : Nat} : KeepsForm s0 (s.hostSkid h p line).2 := by
  unfold State.hostSkid
  split
  · dsimp only
    split
    · exact hs.boundNow.of_snd ‹_›
    · exact hs.boundNow.of_snd ‹_›

theorem EndsInForm.fwWindowRead (hs : KeepsForm s0 s) {h : PortNo} {hpa : BitVec 64} :
    EndsInForm s0 (execFwWindowRead h hpa s) := by
  unfold execFwWindowRead
  refine .next ?_
  refine .ite hs ?_
  split
  · exact hs.outOfWindow.poisonedData
  · refine .ite hs ?_
    split
    · exact (((hs.carried.translate.of_fst ‹_›).xlateRecord).poisonedData).faultLog
    · exact ((hs.carried.translate.of_fst ‹_›).poisonedData).faultLog
    · split
      · exact ((((hs.carried.translate.of_fst ‹_›).hostSkid).of_snd ‹_›).poisonedData).faultLog
      · split
        · exact hs.countHeld
        · exact (((((hs.carried.translate.of_fst ‹_›).hostSkid).of_snd ‹_›).request).of_fst ‹_›).fwReadDone
        · exact ((((((hs.carried.translate.of_fst ‹_›).hostSkid).of_snd ‹_›).request).of_fst ‹_›).poisonedData).faultLog
        · exact ((((hs.carried.translate.of_fst ‹_›).hostSkid).of_snd ‹_›).request).of_fst ‹_›

theorem KeepsForm.holdWrite (hs : KeepsForm s0 s) {h k fva bmc : Nat} {data : Line} {pz : Bool} {t : State}
    (ht : s.holdWrite h k fva bmc data pz = some t) : KeepsForm s0 t := by
  unfold State.holdWrite at ht
  dsimp only at ht
  split at ht
  · cases ht
  · cases ht; exact hs.fresh.update.addFld

theorem EndsInForm.fwWindowWrite (hs : KeepsForm s0 s) {h : PortNo} {hpa : BitVec 64} {first : Fin 64} {count : Fin 65}
    {data : Line}
    {pz : Bool} : EndsInForm s0 (execFwWindowWrite h hpa first count data pz s) := by
  unfold execFwWindowWrite
  refine .next (.ite hs ?_)
  split
  · exact hs.poisonIn.outOfWindow.send
  · extract_lets before t fva tag bmc fails
    have ht : KeepsForm s0 t := hs.carried
    have hf {u : State} {st : Nat} (hu : KeepsForm s0 u) : KeepsForm s0 (fails u st) := hu.poisonIn.send.fwWriteDone
    refine .ite hs ?_
    split
    · have hu := ht.translate.of_fst ‹_›
      refine .ite (hf hu.xlateRecord) ?_
      extract_lets line
      split
      · exact hf (hu.hostSkid.of_snd ‹_›)
      · have hv := hu.hostSkid.of_snd ‹_›
        split
        · exact hs
        · exact (hv.holdWrite ‹_›).poisonIn.send
    · exact hf (ht.translate.of_fst ‹_›)
    · have hu := ht.translate.of_fst ‹_›
      split
      · exact hf (hu.hostSkid.of_snd ‹_›)
      · have hv := hu.hostSkid.of_snd ‹_›
        split
        · exact hs.countHeld
        · exact (hv.request.of_fst ‹_›).poisonIn.poisonSent.send.fwWriteDone
        · exact hf (hv.request.of_fst ‹_›)
        · exact (hv.request.of_fst ‹_›).poisonIn.poisonSent.send

theorem EndsInForm.hostFence (hs : KeepsForm s0 s) {via : Via} {h : PortNo} {token : BitVec 32} {go : Bool} :
    EndsInForm s0 (execHostFence via h token go s) := by
  unfold execHostFence
  exact .next (hs.gate fun hs => .ite hs (.ite hs.raise ((hs.setFence.foldl fun hs => .ite hs.setFld hs).fenceReport)))

theorem KeepsForm.noteMem (hs : KeepsForm s0 s) {h : Nat} : KeepsForm s0 (s.noteMem h) := hs.setFld

theorem KeepsForm.setConf (hs : KeepsForm s0 s) {h : Nat} {c : PortConf} : KeepsForm s0 (s.setConf h c) := hs.update.noteMem

theorem EndsInForm.configRequest (hs : KeepsForm s0 s) {h : PortNo} {c : ConfigOp} :
    EndsInForm s0 (execConfigRequest h c s) := by
  unfold execConfigRequest
  refine .next ?_
  refine .ite hs.send ?_
  dsimp only
  split
  · split
    · exact hs.send
    · exact hs.fresh.send
  · exact hs.setConf.send
  · exact .ite hs.setFld.send hs.setFld.send.watchPortDown
  · exact .send (.ite (hs.setMsix.foldl fun hs => hs.setMsix.send) hs.setMsix)
  · exact hs.setConf.send

theorem EndsInForm.msixVectorUnmask (hs : KeepsForm s0 s) {h : PortNo} {v : Option (Fin 2048)} :
    EndsInForm s0 (execMsixVectorUnmask h v s) :=
  .next (hs.setMsix.foldl fun hs => hs.send)

theorem EndsInForm.hdmDecoderCommit (hs : KeepsForm s0 s) {h : PortNo} {d : Fin 2} {base size : BitVec 64} {iw ig : BitVec 4} :
    EndsInForm s0 (execHdmDecoderCommit h d base size iw ig s) :=
  .next (.ite hs hs.update.noteMem)

theorem EndsInForm.hostLinkTrain (hs : KeepsForm s0 s) {h : PortNo} {rate width : Fin 3} :
    EndsInForm s0 (execHostLinkTrain h rate width s) :=
  .next (.ite hs hs.setFld.setFld.setFld.setFld)

theorem KeepsForm.dropHost (hs : KeepsForm s0 s) {h : Nat} : KeepsForm s0 (s.dropHost h) := by
  unfold State.dropHost
  refine .ite ((hs.foldl fun hs => hs.hostAnswer).foldl fun hs => hs.batchDone) ?_
  exact ((hs.foldl fun hs => hs.hostAnswer).foldl fun hs => hs.batchDone).batchDone

theorem KeepsForm.resetPort (hs : KeepsForm s0 s) {h : Nat} {k : PortResetKind} : KeepsForm s0 (s.resetPort h k) := by
  unfold State.resetPort
  refine .recheck ?_
  refine .dropHost ?_
  refine .watchPortDown ?_
  refine .setFld ?_
  exact .setFld (.update (.ite (.setFld (.ite hs.raise.raise.setFld hs.raise)) (.ite hs.raise.raise.setFld hs.raise)))

theorem EndsInForm.hostPortReset (hs : KeepsForm s0 s) {h : PortNo} {k : PortResetKind} :
    EndsInForm s0 (execHostPortReset h k s) :=
  .next hs.resetPort

end Sys2Proof.Machine
end

section
/-! ## Canonical form: input supply and temperature -/

namespace Sys2Proof.Machine

open Sys2Proof

variable {s0 s : State}

theorem EndsInForm.inputUndervoltage (hs : KeepsForm s0 s) : EndsInForm s0 (execInputUndervoltage s) := .next
    hs.setPwr.powerEvent

theorem EndsInForm.undervoltageEnd (hs : KeepsForm s0 s) : EndsInForm s0 (execUndervoltageEnd s) := .next hs.setPwr

theorem EndsInForm.inputOvervoltage (hs : KeepsForm s0 s) : EndsInForm s0 (execInputOvervoltage s) := .next hs.powerEvent

theorem EndsInForm.emergencyShedStart (hs : KeepsForm s0 s) : EndsInForm s0 (execEmergencyShedStart s) :=
  .next hs.setFld.powerEvent

theorem EndsInForm.emergencyShedEnd (hs : KeepsForm s0 s) : EndsInForm s0 (execEmergencyShedEnd s) :=
  .next (.ite hs.setFld.setPwr hs)

theorem EndsInForm.temperatureHot (hs : KeepsForm s0 s) : EndsInForm s0 (execTemperatureHot s) := .next hs.setFld.powerEvent

theorem EndsInForm.temperatureCool (hs : KeepsForm s0 s) : EndsInForm s0 (execTemperatureCool s) := .next hs.setFld

theorem KeepsForm.coldReset (hs : KeepsForm s0 s) {last : Nat} : KeepsForm s0 (s.coldReset last) := by
  unfold State.coldReset
  exact KeepsForm.setFld (s := { State.reset with pending := s.pending }) ⟨fun _ => rfl, fun _ => rfl, hs.2.2⟩

theorem EndsInForm.inputPowerLoss (hs : KeepsForm s0 s) : EndsInForm s0 (execInputPowerLoss s) := .next hs.coldReset

theorem EndsInForm.thermalShutdown (hs : KeepsForm s0 s) : EndsInForm s0 (execThermalShutdown s) := .next hs.coldReset

end Sys2Proof.Machine
end

section
/-! ## Canonical form: the reset levels -/

namespace Sys2Proof.Machine

open Sys2Proof

variable {s0 s : State}

theorem EndsInForm.powerGood (hs : KeepsForm s0 s) : EndsInForm s0 (execPowerGood s) := .next (.ite hs hs.coldReset.update)

theorem EndsInForm.resetNAssert (hs : KeepsForm s0 s) {cycles : Nat} : EndsInForm s0 (execResetNAssert cycles s) :=
  .next (.ite hs hs.coldReset.update)

theorem KeepsForm.leaveAll (hs : KeepsForm s0 s) {reason : Nat} : KeepsForm s0 (s.leaveAll reason) :=
  hs.foldl fun hs => .ite hs.sendCtrl hs

theorem KeepsForm.warmPartition (hs : KeepsForm s0 s) {p : Nat} : KeepsForm s0 (s.warmPartition p) :=
  .ite hs (.ite hs.resetPartition hs.resetSieve.setFld.update)

theorem KeepsForm.abandonProgram (hs : KeepsForm s0 s) : KeepsForm s0 s.abandonProgram := by
  unfold State.abandonProgram
  split
  · exact hs.flashErase
  · exact hs

theorem KeepsForm.wipeRegs (hs : KeepsForm s0 s) : KeepsForm s0 s.wipeRegs :=
  foldl (f := fun t f => t.setFld f (s.fld f)) ⟨hs.1, fun _ => rfl, hs.2.2⟩ fun ht => ht.setFld

theorem KeepsForm.wipeRest (hs : KeepsForm s0 s) : KeepsForm s0 s.wipeRest := hs.update

theorem KeepsForm.warmResetting (hs : KeepsForm s0 s) {p : Nat} : KeepsForm s0 (s.warmResetting p) :=
  .ite hs.update.setFld.noteEarliest.setFld hs.update.setFld.noteEarliest

theorem KeepsForm.warmReset (hs : KeepsForm s0 s) : KeepsForm s0 s.warmReset := by
  unfold State.warmReset
  refine .setFld ?_
  refine .satFld ?_
  refine .setFld ?_
  refine .foldl ?_ (fun hs => hs.warmResetting)
  refine .foldl ?_ (fun hs => hs.noteEarliest)
  refine .wipeRest ?_
  exact ((((hs.leaveAll.foldl fun hs => hs.warmPartition).foldl fun hs => hs.resetPort).update).abandonProgram).wipeRegs

theorem EndsInForm.warmReset (hs : KeepsForm s0 s) {via : Via} {key : BitVec 16} : EndsInForm s0 (execWarmReset via key s) :=
  .next (hs.gate fun hs => .ite hs.warmReset hs)

theorem KeepsForm.skidderReset (hs : KeepsForm s0 s) {k : Nat} : KeepsForm s0 (s.skidderReset k) := hs.fresh.setSkid.recheck

theorem EndsInForm.skidderReset (hs : KeepsForm s0 s) {via : Via} {key : BitVec 16} {k : SkidNo} :
    EndsInForm s0 (execSkidderReset via key k s) :=
  .next (hs.gate fun hs => .ite hs.skidderReset hs)

end Sys2Proof.Machine
end

section
/-! ## Canonical form: indirect access to the Sieve Table -/

namespace Sys2Proof.Machine

open Sys2Proof

variable {s0 s : State}

theorem KeepsForm.noteUsed (hs : KeepsForm s0 s) {p : Nat} : KeepsForm s0 (s.noteUsed p) := hs.setFld

theorem KeepsForm.noteProbe (hs : KeepsForm s0 s) : KeepsForm s0 s.noteProbe := hs.setFld.setFld.setFld

theorem KeepsForm.redoMirror (hs : KeepsForm s0 s) {m : MirrorOp} : KeepsForm s0 (s.redoMirror m) := by
  unfold State.redoMirror
  split
  · exact hs
  · exact (hs.judgeAt.of_fst ‹_›).storeHbm
  · exact (hs.judgeAt.of_fst ‹_›).storeEngine
  · exact (hs.judgeAt.of_fst ‹_›).storeEngine
  · exact .ite ((hs.judgeAt.of_fst ‹_›).respond) ((hs.judgeAt.of_fst ‹_›).toMirror)
  · exact (hs.judgeAt.of_fst ‹_›).finish
  · exact (hs.judgeAt.of_fst ‹_›).engineFails
  · exact (hs.judgeAt.of_fst ‹_›).engineFails
  · exact (hs.judgeAt.of_fst ‹_›).respond
  · exact hs.judgeAt.of_fst ‹_›

theorem KeepsForm.sieveStore (hs : KeepsForm s0 s) {i : Nat} {e : BitVec 128} : KeepsForm s0 (s.sieveStore i e) :=
  (hs.update.update.setSharers.noteUsed.noteCached.foldl fun hs => hs.redoMirror).settleClosing

theorem KeepsForm.sieveStart (hs : KeepsForm s0 s) {via : Via} {write : Bool} : KeepsForm s0 (s.sieveStart via write) :=
  hs.gate fun hs => .ite hs hs.update.setFld

theorem EndsInForm.sieveRead (hs : KeepsForm s0 s) {via : Via} : EndsInForm s0 (execSieveRead via s) := .next hs.sieveStart

theorem EndsInForm.sieveWrite (hs : KeepsForm s0 s) {via : Via} : EndsInForm s0 (execSieveWrite via s) := .next hs.sieveStart

theorem EndsInForm.sieveAccessDone (hs : KeepsForm s0 s) : EndsInForm s0 (execSieveAccessDone s) := by
  unfold execSieveAccessDone
  refine .next ?_
  split
  · exact hs
  · exact .ite (.ite hs.update.setFld.setFld.sieveStore hs.update.setFld.setFld) hs.update.setFld.setReg.setReg.setFld

theorem EndsInForm.sieveProbe (hs : KeepsForm s0 s) {via : Via} {key : BitVec 47} :
    EndsInForm s0 (execSieveProbe via key s) :=
  .next (hs.gate fun hs => hs.setFld.noteProbe)

theorem EndsInForm.sievePartWrite (hs : KeepsForm s0 s) {via : Via} {p : PartNo} {v : Word} :
    EndsInForm s0 (execSievePartWrite via p v s) :=
  .next (hs.gate fun hs => .ite hs.raise (.ite hs.raise hs.setReg.noteUsed.noteProbe))

theorem EndsInForm.sieveSweepDone (hs : KeepsForm s0 s) {p : PartNo} : EndsInForm s0 (execSieveSweepDone p s) := by
  unfold execSieveSweepDone
  refine .next ?_
  split
  · exact hs
  · exact hs.update.setFld.setFld

end Sys2Proof.Machine
end

section
/-! ## Canonical form: invalidations of translations -/

namespace Sys2Proof.Machine

open Sys2Proof

variable {s0 s : State}

theorem KeepsForm.retryHeld (hs : KeepsForm s0 s) {key : Nat} {late : Bool} : KeepsForm s0 (s.retryHeld key late) := by
  unfold State.retryHeld
  split
  · exact hs
  · dsimp only
    split
    · refine .ite ((hs.translate.of_fst ‹_›).update) ?_
      exact (((((hs.translate.of_fst ‹_›).update).setFld).xlateRecord).fwWriteDone).recheck
    · exact ((((hs.translate.of_fst ‹_›).update).setFld).fwWriteDone).recheck
    · exact ((hs.translate.of_fst ‹_›).update).sendHeld

theorem KeepsForm.retryCovered (hs : KeepsForm s0 s) {p : Nat} {fva : Option Nat} : KeepsForm s0 (s.retryCovered p fva) := by
  unfold State.retryCovered
  refine hs.foldl fun hs => ?_
  split
  · exact .ite hs.retryHeld hs
  · exact hs

theorem KeepsForm.drainMark (hs : KeepsForm s0 s) {p : Nat} : KeepsForm s0 (s.drainMark p) :=
  .ite hs.update hs.update.setFld.setFld

theorem KeepsForm.tlbInvalidate (hs : KeepsForm s0 s) {p : Nat} {fva : Option Nat} {drain : Bool} :
    KeepsForm s0 (s.tlbInvalidate p fva drain) := by
  unfold State.tlbInvalidate
  refine .retryCovered ?_
  refine .ite (.ite hs.update.setFld.setFld.drainMark hs.update.setFld.setFld) ?_
  exact .raise (.ite hs.update.setFld.setFld.drainMark hs.update.setFld.setFld)

theorem EndsInForm.tlbInvalidate (hs : KeepsForm s0 s) {via : Via} {p : PartNo} {scope drain : Bool} :
    EndsInForm s0 (execTlbInvalidate via p scope drain s) :=
  .next (hs.gate fun hs => .ite hs.raise hs.tlbInvalidate)

theorem KeepsForm.updRun (hs : KeepsForm s0 s) {k : Nat} {f : SkdRun → SkdRun} : KeepsForm s0 (s.updRun k f) := by
  unfold State.updRun
  dsimp only
  split
  · exact hs
  · exact hs.setSkid

theorem KeepsForm.faultCmd (hs : KeepsForm s0 s) {via : Via} {k : Nat} {f : SkdRun → SkdRun} :
    KeepsForm s0 (s.faultCmd via k f) :=
  hs.gate fun hs => .ite hs.updRun hs.raise

theorem EndsInForm.xltRetry (hs : KeepsForm s0 s) {via : Via} {k : SkidNo} : EndsInForm s0 (execXltRetry via k s) :=
  .next hs.faultCmd

theorem EndsInForm.xltAbort (hs : KeepsForm s0 s) {via : Via} {k : SkidNo} : EndsInForm s0 (execXltAbort via k s) :=
  .next hs.faultCmd

theorem EndsInForm.migHoldExpire (hs : KeepsForm s0 s) {key : Fin 32768} : EndsInForm s0 (execMigHoldExpire key s) := by
  unfold execMigHoldExpire
  refine .next ?_
  split
  · exact .ite hs.retryHeld hs
  · exact hs

end Sys2Proof.Machine
end

section
/-! ## Canonical form: control-space writes -/

namespace Sys2Proof.Machine

open Sys2Proof

variable {s0 s : State}

theorem KeepsForm.plainWrite (hs : KeepsForm s0 s) {off : Nat} {v : Word} {isLocked : Bool} :
    KeepsForm s0 (s.plainWrite off v isLocked) :=
  hs.setReg

theorem KeepsForm.after (_hs : KeepsForm s0 s) {r : Result} (hr : EndsInForm s0 r) : KeepsForm s0 (s.after r) := by
  obtain ⟨t, rfl, ht⟩ := hr
  exact ht

theorem KeepsForm.writeThreadCfg (hs : KeepsForm s0 s) {t : Nat} {v : Word} : KeepsForm s0 (s.writeThreadCfg t v) :=
  .ite hs.raise (.ite hs.raise hs.plainWrite)

theorem KeepsForm.writeSkidCfg (hs : KeepsForm s0 s) {k : Nat} {v : Word} : KeepsForm s0 (s.writeSkidCfg k v) :=
  .ite hs (.ite hs.raise hs.plainWrite)

theorem KeepsForm.threadCommand (hs : KeepsForm s0 s) {via : Via} {page : Option PartNo} {t : ThreadNo} {cmd : Nat} :
    KeepsForm s0 (s.threadCommand via page t cmd) := by
  unfold State.threadCommand
  refine .ite hs ?_
  refine .ite (hs.after (.threadStart hs)) ?_
  refine .ite (hs.after (.threadHalt hs)) ?_
  refine .ite (hs.after (.threadResume hs)) ?_
  exact .ite (hs.after (.threadSkip hs)) (.ite (hs.after (.threadReset hs)) hs.cmdDeny)

theorem KeepsForm.writeWatchCfg (hs : KeepsForm s0 s) {via : Via} {w : Fin 4096} {v : Word} :
    KeepsForm s0 (s.writeWatchCfg via w v) := by
  unfold State.writeWatchCfg
  refine hs.after ?_
  split
  · exact .watchEnable hs
  · exact .watchDisable hs

theorem KeepsForm.writeSeq (hs : KeepsForm s0 s) {via : Via} {off : Nat} {v : Word} :
    KeepsForm s0 (s.writeSeq via off v) := by
  unfold State.writeSeq
  refine .ite hs.writeThreadCfg ?_
  refine .ite (.ite hs.plainWrite hs) ?_
  refine .ite hs.threadCommand ?_
  refine .ite hs.writeSkidCfg ?_
  refine .ite (.ite hs.raise hs.plainWrite) ?_
  exact .ite hs.writeWatchCfg (.ite (.ite (hs.after (.icacheInvalidate hs)) hs) hs.plainWrite)

theorem KeepsForm.writePrt (hs : KeepsForm s0 s) {via : Via} {off : Nat} {v : Word} :
    KeepsForm s0 (s.writePrt via off v) := by
  unfold State.writePrt
  refine .ite hs.threadCommand ?_
  exact .ite (.ite hs hs.plainWrite) (.ite (.ite hs.plainWrite.setFld hs.plainWrite) hs.plainWrite)

theorem KeepsForm.writeXlt (hs : KeepsForm s0 s) {via : Via} {off : Nat} {v : Word} :
    KeepsForm s0 (s.writeXlt via off v) := by
  unfold State.writeXlt
  refine .ite (.ite (hs.after (.tlbInvalidate hs)) hs) ?_
  exact .ite (.ite hs (.ite (hs.after (.xltRetry hs)) (.ite (hs.after (.xltAbort hs)) hs.raise))) hs.plainWrite

theorem KeepsForm.writeSiv (hs : KeepsForm s0 s) {via : Via} {off : Nat} {v : Word} :
    KeepsForm s0 (s.writeSiv via off v) := by
  unfold State.writeSiv
  refine .ite (hs.after (.sievePartWrite hs)) ?_
  refine .ite (.ite hs (.ite (hs.after (.sieveRead hs)) (.ite (hs.after (.sieveWrite hs)) hs.raise))) ?_
  exact .ite (hs.after (.sieveProbe hs)) hs.plainWrite

theorem KeepsForm.writeHom (hs : KeepsForm s0 s) {via : Via} {off : Nat} {v : Word} : KeepsForm s0 (s.writeHom via off v) :=
  .ite (.ite (hs.after (.ledgerRead hs)) hs) hs.plainWrite

theorem KeepsForm.relink (hs : KeepsForm s0 s) : KeepsForm s0 s.relink := by
  unfold State.relink
  refine ((hs.foldl fun hs => .ite hs.setFld hs).refreshLinks).foldl fun hs => ?_
  refine .ite hs ?_
  split
  · exact hs
  · exact .ite hs.setChan.refreshLinks hs.joinLink

theorem KeepsForm.writeSwc (hs : KeepsForm s0 s) {off : Nat} {v : Word} : KeepsForm s0 (s.writeSwc off v) :=
  .ite hs.plainWrite.relink (.ite hs.plainWrite.refreshAdv hs.plainWrite)

theorem KeepsForm.writePortCtl (hs : KeepsForm s0 s) {via : Via} {m : Nat} {v : Word} :
    KeepsForm s0 (s.writePortCtl via m v) := by
  unfold State.writePortCtl
  refine .ite (.ite hs.plainWrite.beginLeave hs.plainWrite.channelDown.portOff) ?_
  exact .ite (hs.plainWrite.after (.portRetrain hs.plainWrite)) hs.plainWrite

theorem KeepsForm.writeElk (hs : KeepsForm s0 s) {via : Via} {off : Nat} {v : Word} :
    KeepsForm s0 (s.writeElk via off v) := by
  unfold State.writeElk
  refine .ite hs.writePortCtl ?_
  refine .ite (hs.after (.elkCntSrcWrite hs)) ?_
  exact .ite (hs.after (.elkLaneTestWrite hs)) (.ite (.ite (hs.after (.elkInjectGo hs)) hs) hs.plainWrite)

theorem KeepsForm.writeMargin (hs : KeepsForm s0 s) {via : Via} {v : Word} : KeepsForm s0 (s.writeMargin via v) := by
  unfold State.writeMargin
  refine .ite ?_ (.ite (hs.after (.marginCommit hs)) hs)
  exact .after (.ite (hs.after (.marginCommit hs)) hs) (.marginTestGo (.ite (hs.after (.marginCommit hs)) hs))

theorem KeepsForm.writeLaneCmd (hs : KeepsForm s0 s) {via : Via} {n : Nat} : KeepsForm s0 (s.writeLaneCmd via n) :=
  .ite hs (.ite (hs.after (.laneRelock hs)) (.ite (hs.after (.laneFail hs)) hs.optEvent))

theorem KeepsForm.writeOpt (hs : KeepsForm s0 s) {via : Via} {off : Nat} {v : Word} :
    KeepsForm s0 (s.writeOpt via off v) := by
  unfold State.writeOpt
  refine .ite (.ite (hs.after (.planSwitchRequest hs)) hs) ?_
  refine .ite hs.writeMargin ?_
  refine .ite hs.writeLaneCmd ?_
  refine .ite (hs.after (.optLaneTestWrite hs)) ?_
  exact .ite (hs.after (.optCntSrcWrite hs)) (.ite (.ite (hs.after (.optInjectGo hs)) hs) hs.plainWrite)

theorem KeepsForm.writeLdl (hs : KeepsForm s0 s) {via : Via} {off : Nat} {v : Word} :
    KeepsForm s0 (s.writeLdl via off v) := by
  unfold State.writeLdl
  refine .ite (hs.after (.cellRetireWrite hs)) ?_
  refine .ite ?_ (.ite hs.plainWrite.judgeThresh hs.plainWrite)
  refine .after ?_ (.spareReplaceGo (.ite hs.plainWrite.judgeThresh hs.plainWrite))
  exact .ite hs.plainWrite.judgeThresh hs.plainWrite

theorem KeepsForm.writeCol (hs : KeepsForm s0 s) {off : Nat} {v : Word} : KeepsForm s0 (s.writeCol off v) :=
  .ite hs.raise (.ite hs.setFld.setFld hs.plainWrite)

theorem KeepsForm.writePortCfg (hs : KeepsForm s0 s) {h : Nat} {v : Word} : KeepsForm s0 (s.writePortCfg h v) := by
  unfold State.writePortCfg
  refine .ite (.ite hs.plainWrite hs.plainWrite.refreshSets) ?_
  exact .watchPortDown (.ite hs.plainWrite hs.plainWrite.refreshSets)

theorem KeepsForm.writeBinding (hs : KeepsForm s0 s) {h off : Nat} {v : Word} : KeepsForm s0 (s.writeBinding h off v) :=
  .ite hs.raise hs.plainWrite

theorem KeepsForm.writePasid (hs : KeepsForm s0 s) {h i off : Nat} {v : Word} : KeepsForm s0 (s.writePasid h i off v) :=
  .ite hs.raise hs.plainWrite

theorem KeepsForm.writeHst (hs : KeepsForm s0 s) {via : Via} {off : Nat} {v : Word} :
    KeepsForm s0 (s.writeHst via off v) := by
  unfold State.writeHst
  refine .ite hs ?_
  refine .ite hs.writePortCfg ?_
  refine .ite hs.writeBinding ?_
  refine .ite (hs.after (.hostFence hs)) ?_
  exact .ite (hs.foldl fun hs => .ite hs.plainWrite hs) (.ite hs.writePasid hs.plainWrite)

theorem KeepsForm.writePartCmd (hs : KeepsForm s0 s) {via : Via} {v : Word} : KeepsForm s0 (s.writePartCmd via v) := by
  unfold State.writePartCmd
  refine .ite hs ?_
  refine .ite (hs.after (.partEnable hs)) ?_
  refine .ite (hs.after (.partSeal hs)) ?_
  exact .ite (hs.after (.partReset hs)) (.ite (hs.after (.partDisable hs)) hs.secDeny.partResult)

theorem KeepsForm.writeRangeCmd (hs : KeepsForm s0 s) {via : Via} {v : Word} : KeepsForm s0 (s.writeRangeCmd via v) :=
  .ite hs (.ite (hs.after (.rangeAdd hs)) (.ite (hs.after (.rangeRemove hs)) hs.secDeny.rangeResult))

theorem KeepsForm.writeKeyCmd (hs : KeepsForm s0 s) {via : Via} {v : Word} : KeepsForm s0 (s.writeKeyCmd via v) :=
  .ite hs (.ite (hs.after (.keyUnwrap hs)) (.ite (hs.after (.keyClear hs)) hs.secDeny.setFld.raise))

theorem KeepsForm.writeSec (hs : KeepsForm s0 s) {via : Via} {off : Nat} {v : Word} :
    KeepsForm s0 (s.writeSec via off v) := by
  unfold State.writeSec
  refine .ite ?_ ?_
  · refine .ite (.after (.ite (hs.after (.debugOpen hs)) hs) (.debugClose (.ite (hs.after (.debugOpen hs)) hs))) ?_
    exact .ite (hs.after (.debugOpen hs)) hs
  · refine .ite (.ite (hs.after (.quoteGo hs)) hs) ?_
    refine .ite hs.writeKeyCmd ?_
    refine .ite hs.writeRangeCmd ?_
    exact .ite (.ite (hs.after (.loadGo hs)) hs) (.ite hs.writePartCmd (.ite hs.plainWrite.raise hs.plainWrite))

theorem KeepsForm.writeRel (hs : KeepsForm s0 s) {via : Via} {off : Nat} {v : Word} : KeepsForm s0 (s.writeRel via off v) :=
  .ite (.ite (hs.after (.logRead hs)) hs) hs.plainWrite

theorem KeepsForm.writeReset (hs : KeepsForm s0 s) {via : Via} {v : Word} : KeepsForm s0 (s.writeReset via v) :=
  .ite (hs.after (.warmReset hs)) (.ite (hs.after (.skidderReset hs)) hs)

theorem KeepsForm.retellExclusion (hs : KeepsForm s0 s) {was : Nat → Bool} : KeepsForm s0 (s.retellExclusion was) :=
  hs.foldl fun hs => .ite hs.sendIdent hs

theorem KeepsForm.writeGlb (hs : KeepsForm s0 s) {via : Via} {off : Nat} {v : Word} : KeepsForm s0 (s.writeGlb via off v) :=
  .ite hs.writeReset (.ite hs.plainWrite.refreshAdv.retellExclusion.noteAlone.leaveLost hs.plainWrite)

theorem KeepsForm.writeMgt (hs : KeepsForm s0 s) {via : Via} {off : Nat} {v : Word} :
    KeepsForm s0 (s.writeMgt via off v) := by
  unfold State.writeMgt
  refine .ite (.ite hs (.ite (hs.after (.settingsProgram hs)) hs.setFld.raise)) ?_
  exact .ite (.ite (hs.plainWrite.after (.fwSwap hs.plainWrite)) hs.plainWrite) hs.plainWrite

theorem KeepsForm.writeTel (hs : KeepsForm s0 s) {via : Via} {off : Nat} {v : Word} :
    KeepsForm s0 (s.writeTel via off v) := by
  unfold State.writeTel
  refine .ite (.ite (hs.after (.snapGo hs)) hs) ?_
  refine .ite (hs.after (.traceSplitWrite hs)) ?_
  refine .ite hs.writeTraceCtl ?_
  refine .ite ?_ hs.plainWrite
  exact .ite hs (.ite (hs.after (.debugLineRead hs)) (.ite (hs.after (.debugLineWrite hs)) hs.setFld.telBusy))

theorem KeepsForm.writeBuffer (hs : KeepsForm s0 s) {i : Nat} {v : Word} : KeepsForm s0 (s.writeBuffer i v) := hs.setTel

theorem KeepsForm.writeWindow (hs : KeepsForm s0 s) {via : Via} {off : Nat} {v : Word} :
    KeepsForm s0 (s.writeWindow via off v) := by
  unfold State.writeWindow
  refine .ite ?_ ?_
  · refine hs.after ?_
    split
    · exact .tableWordStage hs
    · exact .routeEntryCommit hs
  · refine .ite ?_ ?_
    · refine hs.after ?_
      split
      · exact .groupEntryCommit hs
      · exact .tableWordStage hs
    · exact .ite (.ite (hs.after (.tableWordStage hs)) (.ite (hs.after (.planCommit hs)) hs)) (.ite hs.writeBuffer hs)

theorem KeepsForm.writeWord (hs : KeepsForm s0 s) {via : Via} {off : Nat} {v : Word} :
    KeepsForm s0 (s.writeWord via off v) := by
  unfold State.writeWord
  refine .ite hs.writeWindow ?_
  refine .ite hs ?_
  split
  · exact hs.writeGlb
  · exact hs.writeMgt
  · exact hs.writePrt
  · exact hs.writeSeq
  · exact hs.writeXlt
  · exact hs.writeSiv
  · exact hs.writeSwc
  · exact hs.writeElk
  · exact hs.writeOpt
  · exact hs.writeLdl
  · exact hs.writeCol
  · exact hs.writeHom
  · exact hs.writeRel
  · exact hs.writeSec
  · exact hs.writeTel
  · exact hs.writeHst

theorem EndsInForm.controlSpaceWrite (hs : KeepsForm s0 s) {via : Via} {off : BitVec 26} {size : Nat} {v : Word} :
    EndsInForm s0 (execControlSpaceWrite via off size v s) :=
  .next (hs.gate fun hs => .ite hs.writeWord hs)

theorem KeepsForm.readWord (hs : KeepsForm s0 s) {off : Nat} : KeepsForm s0 (s.readWord off).2 := by
  unfold State.readWord
  dsimp only
  split
  · exact hs
  · split
    · exact hs
    · split
      · exact hs
      · split
        · exact hs
        · split
          · exact hs
          · split
            · exact hs
            · split
              · exact hs
              · split
                · exact hs
                · split
                  · exact hs.accumulator
                  · exact hs

theorem KeepsForm.clearRc (hs : KeepsForm s0 s) {off lo hi : Nat} : KeepsForm s0 (s.clearRc off lo hi) :=
  hs.foldl fun hs => .ite hs.setFld hs

theorem KeepsForm.readSpace (hs : KeepsForm s0 s) {off size : Nat} : KeepsForm s0 (s.readSpace off size).2 := by
  unfold State.readSpace
  split
  · exact hs.readWord.clearRc
  · split
    · exact hs.readWord.clearRc
    · exact hs

theorem EndsInForm.clearingRead (hs : KeepsForm s0 s) {via : Via} {off : BitVec 26} {size : Nat} :
    EndsInForm s0 (execClearingRead via off size s) :=
  .next (.ite hs.denied.send hs.readSpace.send)

end Sys2Proof.Machine
end

section
/-! ## Canonical form: JTAG -/

namespace Sys2Proof.Machine

open Sys2Proof

variable {s0 s : State}

theorem KeepsForm.loadIr (hs : KeepsForm s0 s) {ir : BitVec 8} {drive : Drive} {dr : Nat} :
    KeepsForm s0 (s.loadIr ir drive dr) :=
  hs.update

theorem KeepsForm.bypass (hs : KeepsForm s0 s) : KeepsForm s0 s.bypass := hs.loadIr

theorem KeepsForm.pinTest (hs : KeepsForm s0 s) {ir : BitVec 8} {drive : Drive} {dr : Nat} :
    KeepsForm s0 (s.pinTest ir drive dr) :=
  .ite hs.loadIr hs.bypass

theorem EndsInForm.extest (hs : KeepsForm s0 s) : EndsInForm s0 (execExtest s) := .next hs.pinTest

theorem EndsInForm.idcode (hs : KeepsForm s0 s) : EndsInForm s0 (execIdcode s) := .next hs.loadIr

theorem EndsInForm.sample (hs : KeepsForm s0 s) {pins : Nat} : EndsInForm s0 (execSample pins s) := .next hs.loadIr.update

theorem EndsInForm.preload (hs : KeepsForm s0 s) {cells : Nat} : EndsInForm s0 (execPreload cells s) := .next hs.loadIr.update

theorem EndsInForm.clamp (hs : KeepsForm s0 s) : EndsInForm s0 (execClamp s) := .next hs.pinTest

theorem EndsInForm.highz (hs : KeepsForm s0 s) : EndsInForm s0 (execHighz s) := .next hs.pinTest

theorem EndsInForm.extestPulse (hs : KeepsForm s0 s) : EndsInForm s0 (execExtestPulse s) := .next hs.pinTest

theorem EndsInForm.extestTrain (hs : KeepsForm s0 s) : EndsInForm s0 (execExtestTrain s) := .next hs.pinTest

theorem EndsInForm.secDebug (hs : KeepsForm s0 s) : EndsInForm s0 (execSecDebug s) :=
  .next (.ite hs.loadIr hs.loadIr.setFld.setFld)

theorem EndsInForm.bypass (hs : KeepsForm s0 s) : EndsInForm s0 (execBypass s) := .next hs.bypass

theorem EndsInForm.jtagTapReset (hs : KeepsForm s0 s) : EndsInForm s0 (execJtagTapReset s) :=
  .next hs.update.update.setFld.sessionClosed

end Sys2Proof.Machine
end

section
/-! ## Canonical form: management datagrams and CSR access -/

namespace Sys2Proof.Machine

open Sys2Proof

variable {s0 s : State}

theorem KeepsForm.keep (hs : KeepsForm s0 s) {k : Kept} : KeepsForm s0 (s.keep k) := hs.update

theorem KeepsForm.sendKept (hs : KeepsForm s0 s) {k : Kept} : KeepsForm s0 (s.sendKept k) := hs.send

theorem KeepsForm.datagram (hs : KeepsForm s0 s) {op : Nat} {src seq : BitVec 32} {off : BitVec 64}
    {bad act : State → Word × State}
    (hbad : KeepsForm s0 (bad s).2) (hact : KeepsForm s0 (act s).2) : KeepsForm s0 (s.datagram op src seq off bad act) := by
  unfold State.datagram
  split
  · exact hs.sendKept
  · by_cases h : off.toNat % 8 ≠ 0 ∨ 0x4000000 ≤ off.toNat
    · simp only [if_pos h]
      exact hbad.keep.sendKept
    · simp only [if_neg h]
      exact hact.keep.sendKept

theorem EndsInForm.mgmtDatagramRead (hs : KeepsForm s0 s) {src seq : BitVec 32} {off : BitVec 64} :
    EndsInForm s0 (execMgmtDatagramRead src seq off s) :=
  .next (hs.datagram hs.fresh hs.readSpace)

theorem EndsInForm.mgmtDatagramWrite (hs : KeepsForm s0 s) {src seq : BitVec 32} {off : BitVec 64} {v : Word} :
    EndsInForm s0 (execMgmtDatagramWrite src seq off v s) :=
  .next (hs.datagram hs (hs.gate fun ht => ht.writeWord))

theorem EndsInForm.csrAccess (hs : KeepsForm s0 s) {off : BitVec 23} {write : Bool} {data : Word} :
    EndsInForm s0 (execCsrAccess off write data s) := by
  cases write with
  | true => exact .next hs.writeWord.loadIr.update
  | false => exact .next hs.readSpace.loadIr.update

end Sys2Proof.Machine
end

section
/-! ## Canonical form: control instructions -/

namespace Sys2Proof.Machine

open Sys2Proof

variable {s0 s : State}

theorem EndsInForm.nop (hs : KeepsForm s0 s) {t : ThreadNo} {f : Insn} : EndsInForm s0 (execNop t f s) :=
  .next (hs.insn fun hs => hs.advance)

theorem EndsInForm.br (hs : KeepsForm s0 s) {t : ThreadNo} {f : Insn} : EndsInForm s0 (execBr t f s) :=
  .next (hs.insn fun hs => hs.setPc)

theorem EndsInForm.jal (hs : KeepsForm s0 s) {t : ThreadNo} {f : Insn} : EndsInForm s0 (execJal t f s) :=
  .next (hs.insn fun hs => hs.setGreg.setPc)

theorem EndsInForm.jr (hs : KeepsForm s0 s) {t : ThreadNo} {f : Insn} : EndsInForm s0 (execJr t f s) :=
  .next (hs.insn fun hs => .ite hs.threadXlateFault hs.setPc)

theorem EndsInForm.halt (hs : KeepsForm s0 s) {t : ThreadNo} {f : Insn} : EndsInForm s0 (execHalt t f s) :=
  .next (hs.insn fun hs => hs.advance.haltThread)

theorem EndsInForm.trap (hs : KeepsForm s0 s) {t : ThreadNo} {f : Insn} : EndsInForm s0 (execTrap t f s) :=
  .next (hs.insn fun hs => hs.trap)

theorem EndsInForm.tret (hs : KeepsForm s0 s) {t : ThreadNo} {f : Insn} : EndsInForm s0 (execTret t f s) :=
  .next (hs.insn fun hs => hs.setFld.setPc.takeHeld)

theorem EndsInForm.waitT (hs : KeepsForm s0 s) {t : ThreadNo} {f : Insn} : EndsInForm s0 (execWaitT t f s) :=
  .next (hs.insn fun hs => .ite hs.advance hs.waitOn)

theorem KeepsForm.tickWake (hs : KeepsForm s0 s) {t : Nat} : KeepsForm s0 (s.tickWake t) := by
  unfold State.tickWake
  split
  · exact .ite hs.runnable.advance.takeHeld hs
  · exact hs

theorem EndsInForm.waitTWake (hs : KeepsForm s0 s) {t : ThreadNo} : EndsInForm s0 (execWaitTWake t s) := .next hs.tickWake

theorem KeepsForm.park (hs : KeepsForm s0 s) {t w : Nat} {st : BitVec 5} {deadline : Nat} :
    KeepsForm s0 (s.park t w st deadline) :=
  hs.setThr.setWl.setTState.setFld

theorem EndsInForm.waitW (hs : KeepsForm s0 s) {t : ThreadNo} {f : Insn} : EndsInForm s0 (execWaitW t f s) := by
  unfold execWaitW
  refine .next ?_
  refine hs.insn fun hs => ?_
  exact .ite hs.trap (.ite hs.deliverSnap.setWl.writeStatus.advance (.ite hs.writeStatus.advance hs.park))

theorem EndsInForm.csrr (hs : KeepsForm s0 s) {t : ThreadNo} {f : Insn} : EndsInForm s0 (execCsrr t f s) := by
  unfold execCsrr
  refine .next ?_
  refine hs.insn fun hs => ?_
  split
  · exact hs.setGreg.advance
  · exact hs

theorem EndsInForm.chk (hs : KeepsForm s0 s) {t : ThreadNo} {f : Insn} : EndsInForm s0 (execChk t f s) :=
  .next (hs.insn fun hs => hs.setThr.advance)

end Sys2Proof.Machine
end

section
/-! ## Canonical form: Cruise -/

namespace Sys2Proof.Machine

open Sys2Proof

variable {s0 s : State}

theorem KeepsForm.setCru (hs : KeepsForm s0 s) {x : CruState} : KeepsForm s0 (s.setCru x) := hs.update

theorem KeepsForm.nextPhase (hs : KeepsForm s0 s) : KeepsForm s0 s.nextPhase := hs.addFld.setCru

theorem KeepsForm.began (hs : KeepsForm s0 s) : KeepsForm s0 s.began := hs.setCru

theorem KeepsForm.phase (hs : KeepsForm s0 s) {n : Nat} {start : State → State} {ended : State → Bool} {finish : State → State}
    (hstart : ∀ {t}, KeepsForm s0 t → KeepsForm s0 (start t)) (hfinish : ∀ {t}, KeepsForm s0 t → KeepsForm s0 (finish t)) :
    KeepsForm s0 (s.phase n start ended finish) :=
  .ite hs (.ite ((hstart hs).began) (.ite ((hfinish hs).nextPhase) hs))

theorem EndsInForm.cruiseC0Regulators (hs : KeepsForm s0 s) : EndsInForm s0 (execCruiseC0Regulators s) :=
  .next (.ite hs.nextPhase hs)

theorem EndsInForm.cruiseC1SettingsLoad (hs : KeepsForm s0 s) : EndsInForm s0 (execCruiseC1SettingsLoad s) := by
  unfold execCruiseC1SettingsLoad
  refine .next ?_
  refine .ite hs ?_
  dsimp only
  split
  · exact hs.showBanks.setFld.began
  · exact hs.showBanks.loadBank.nextPhase

theorem KeepsForm.firstTrain (hs : KeepsForm s0 s) {m : Nat} : KeepsForm s0 (s.firstTrain m) := hs.portTrain.setFld

theorem EndsInForm.cruiseC2Training (hs : KeepsForm s0 s) : EndsInForm s0 (execCruiseC2Training s) :=
  .next (hs.phase (fun ht => ht.foldl fun hu => hu.firstTrain) fun ht => ht)

theorem KeepsForm.lasersOn (hs : KeepsForm s0 s) : KeepsForm s0 s.lasersOn :=
  hs.foldl fun hs => hs.foldl fun hs => .ite hs (.ite hs.setFld.setFld (.ite hs.setFld hs))

theorem KeepsForm.startSource (hs : KeepsForm s0 s) {b k : Nat} {power : BitVec 16} :
    KeepsForm s0 (s.startSource b k power) :=
  .ite hs (.ite hs.setFld.setFld (.ite hs.setFld.setFld.insertSpare hs.setFld.setFld.optEvent))

theorem KeepsForm.startLane (hs : KeepsForm s0 s) {c : Nat} : KeepsForm s0 (s.startLane c) :=
  .setLane (.ite hs.enterLane.setFld hs.laneOff)

theorem KeepsForm.startOptics (hs : KeepsForm s0 s) {powers : List (BitVec 16)} : KeepsForm s0 (s.startOptics powers) := by
  unfold State.startOptics
  refine .foldl ?_ (fun hs => hs.startLane)
  refine .ite (((hs.lasersOn.foldl fun hs => hs.startSource).setOpt).setFld) ?_
  exact ((hs.lasersOn.foldl fun hs => hs.startSource).setOpt).optEvent

theorem KeepsForm.startMargins (hs : KeepsForm s0 s) : KeepsForm s0 s.startMargins := hs.foldl fun hs => .ite hs.marginLane hs

theorem KeepsForm.endMargins (hs : KeepsForm s0 s) : KeepsForm s0 s.endMargins :=
  hs.foldl fun hs => .ite (.ite hs.setFld hs) (.testOver (.ite hs.setFld hs))

theorem EndsInForm.cruiseC3Optics (hs : KeepsForm s0 s) {powers : List (BitVec 16)} :
    EndsInForm s0 (execCruiseC3Optics powers s) :=
  .next (.ite hs (.ite hs.startOptics.began (.ite hs.endMargins.nextPhase hs.startMargins)))

theorem KeepsForm.assignLinks (hs : KeepsForm s0 s) : KeepsForm s0 s.assignLinks := by
  unfold State.assignLinks
  refine .foldl ?_ (fun hs => .ite hs.joinLink hs)
  exact .refreshLinks (.ite ((hs.foldl fun hs => hs.setFld.setFld).raise) (hs.foldl fun hs => hs.setFld.setFld))

theorem EndsInForm.cruiseC4Links (hs : KeepsForm s0 s) : EndsInForm s0 (execCruiseC4Links s) :=
  .next (hs.phase (fun hs => hs.sendIdents) fun hs => hs.assignLinks)

theorem KeepsForm.startElection (hs : KeepsForm s0 s) : KeepsForm s0 s.startElection :=
  .sendIdents (.refreshAdv (.setTim (.ite hs.acquire hs)))

theorem EndsInForm.cruiseC5Election (hs : KeepsForm s0 s) : EndsInForm s0 (execCruiseC5Election s) :=
  .next (hs.phase (fun ht => ht.startElection) fun ht => ht)

theorem EndsInForm.cruiseC6MapFlood (hs : KeepsForm s0 s) : EndsInForm s0 (execCruiseC6MapFlood s) :=
  .next (.ite hs hs.setCru.floodMap.began)

theorem EndsInForm.mapMessage (hs : KeepsForm s0 s) {p : Packet} : EndsInForm s0 (execMapMessage p s) :=
  .next (.ite hs (.ite hs.takeLocal (.ite hs.takeLocal.holdFrag.flood hs.takeLocal)))

theorem EndsInForm.mapQuiet (hs : KeepsForm s0 s) : EndsInForm s0 (execMapQuiet s) := .next (.ite hs.nextPhase hs)

theorem KeepsForm.fillRoutes (hs : KeepsForm s0 s) : KeepsForm s0 s.fillRoutes := hs.setCru.foldl fun hs => .ite hs hs.putRoute

theorem EndsInForm.cruiseC7Routes (hs : KeepsForm s0 s) : EndsInForm s0 (execCruiseC7Routes s) :=
  .next (.ite hs.fillRoutes.nextPhase hs)

theorem EndsInForm.cruiseC8Ready (hs : KeepsForm s0 s) : EndsInForm s0 (execCruiseC8Ready s) :=
  .next (.ite hs hs.flood.setCru.judgeReady)

theorem EndsInForm.mgmtReady (hs : KeepsForm s0 s) {p : Packet} : EndsInForm s0 (execMgmtReady p s) :=
  .next (.ite hs (.ite hs.takeLocal (.ite hs.takeLocal.setCru.flood.judgeReady hs.takeLocal)))

theorem KeepsForm.cutShort (hs : KeepsForm s0 s) : KeepsForm s0 s.cutShort := by
  unfold State.cutShort
  split
  · exact hs.endMargins
  · exact hs.assignLinks
  · exact hs

theorem EndsInForm.cruisePhaseLimit (hs : KeepsForm s0 s) : EndsInForm s0 (execCruisePhaseLimit s) :=
  .next (.ite hs hs.cutShort.nextPhase.setFld)

theorem EndsInForm.autoroute (hs : KeepsForm s0 s) : EndsInForm s0 (execAutoroute s) := .next (.ite hs.fillRoutes hs)

end Sys2Proof.Machine
end

section
/-! ## Canonical form: packets and control blocks -/

namespace Sys2Proof.Machine

open Sys2Proof

variable {s0 s : State}

theorem KeepsForm.acceptPacket (hs : KeepsForm s0 s) {c : Channel} {p : Packet} : KeepsForm s0 (s.acceptPacket c p) := by
  unfold State.acceptPacket
  refine .ite ?_ hs.setChan.addFld.addFld.count.capture.freePool.count
  exact .ite hs.setChan.addFld.addFld.count.capture.inject.colDropped hs.setChan.addFld.addFld.count.capture.inject

theorem KeepsForm.forwardStomped (hs : KeepsForm s0 s) {c : Channel} {p : Packet} : KeepsForm s0 (s.forwardStomped c p) := by
  unfold State.forwardStomped
  refine .ite ?_ hs
  split
  · exact hs.inject
  · exact hs

theorem KeepsForm.trailerFailed (hs : KeepsForm s0 s) {c : Channel} {p : Packet} : KeepsForm s0 (s.trailerFailed c p) :=
  .ite hs.count.forwardStomped.setChan.addFld.linkEvent.refuse hs.count.forwardStomped.setChan.sendNak

theorem KeepsForm.stomped (hs : KeepsForm s0 s) {c : Channel} {p : Packet} : KeepsForm s0 (s.stomped c p) :=
  hs.forwardStomped.addFld.setChan.addFld

theorem EndsInForm.packetReceive (hs : KeepsForm s0 s) {c : Channel} {p : Packet} {hcrc : BitVec 16} {trailer : BitVec 32}
    {flagged : Bool} :
    EndsInForm s0 (execPacketReceive c p hcrc trailer flagged s) := by
  unfold execPacketReceive
  refine .next ?_
  refine .ite hs ?_
  refine .ite hs ?_
  refine .ite hs.setChan ?_
  refine .ite hs.count.sendNak ?_
  exact .ite hs.sendNak.linkEvent.retrain (.ite hs.acceptPacket (.ite hs.stomped hs.trailerFailed))

theorem EndsInForm.packetSend (hs : KeepsForm s0 s) {c : Channel} : EndsInForm s0 (execPacketSend c s) := by
  unfold execPacketSend
  refine .next ?_
  refine .ite hs ?_
  split
  · exact hs.setChan.count.sendWords
  · refine .ite hs ?_
    split
    · exact (hs.arbitrate.of_snd ‹_›).transmit
    · exact (hs.arbitrate.of_snd ‹_›).stall

theorem KeepsForm.unstall (hs : KeepsForm s0 s) : KeepsForm s0 s.unstall := hs.update.foldl fun hs => .ite hs.inject hs.rechoose

theorem EndsInForm.packetAgeExpire (hs : KeepsForm s0 s) : EndsInForm s0 (execPacketAgeExpire s) := by
  unfold execPacketAgeExpire
  exact .next ((((hs.update.foldl fun hs => hs.freePool.count).noteHold).foldl fun hs => .ite hs.noteDepth hs).unstall)

theorem EndsInForm.pathHoldExpire (hs : KeepsForm s0 s) : EndsInForm s0 (execPathHoldExpire s) :=
  .next ((hs.update.noteHold.foldl fun hs => hs.rechoose).unstall)

theorem EndsInForm.groupHoldExpire (hs : KeepsForm s0 s) : EndsInForm s0 (execGroupHoldExpire s) :=
  .next (hs.update.update.foldl fun hs => hs.inject)

theorem EndsInForm.channelJoin (hs : KeepsForm s0 s) {c : Channel} : EndsInForm s0 (execChannelJoin c s) := by
  unfold execChannelJoin
  refine .next ?_
  refine .ite hs ?_
  split
  · exact .ite hs.joinLink hs
  · exact hs.joinLink

theorem EndsInForm.creditBlock (hs : KeepsForm s0 s) {c : Channel} {ack next : BitVec 12} {freed : BitVec 192} :
    EndsInForm s0 (execCreditBlock c ack next freed s) := by
  unfold execCreditBlock
  refine .next ?_
  refine .ite hs ?_
  refine .ite (.settleLeaves (.ite hs.setChan.acknowledge.takeFreed.sendNak hs.setChan.acknowledge.takeFreed)) ?_
  exact .ite hs.setChan.acknowledge.takeFreed.sendNak hs.setChan.acknowledge.takeFreed

theorem EndsInForm.nakBlock (hs : KeepsForm s0 s) {c : Channel} {expect : BitVec 12} {reason : BitVec 4} :
    EndsInForm s0 (execNakBlock c expect reason s) :=
  .next (.ite hs (.ite hs.addFld.startReplay hs.addFld.linkEvent.retrain))

theorem EndsInForm.replayBlock (hs : KeepsForm s0 s) {c : Channel} {seq : BitVec 12} :
    EndsInForm s0 (execReplayBlock c seq s) :=
  .next (.ite hs (.ite hs.setChan hs.sendNak))

theorem EndsInForm.leaveBlock (hs : KeepsForm s0 s) {c : Channel} {feid : BitVec 16} {reason : BitVec 4} {tick : BitVec 64} :
    EndsInForm s0 (execLeaveBlock c feid reason tick s) := by
  unfold execLeaveBlock
  refine .next ?_
  exact .ite (hs.linkEvent.colLost.foldl fun hs => .ite hs.channelDown hs) (.ite hs.linkEvent.channelDown hs.linkEvent)

theorem EndsInForm.idleBlock (hs : KeepsForm s0 s) {x : RxSymbols} : EndsInForm s0 (execIdleBlock x s) :=
  .next (.ite hs hs.noteCode)

theorem EndsInForm.nakRepeat (hs : KeepsForm s0 s) {c : Channel} : EndsInForm s0 (execNakRepeat c s) := by
  unfold execNakRepeat
  refine .next ?_
  split
  · exact .ite hs.sendNak hs
  · exact hs

theorem EndsInForm.silentPeerTimeout (hs : KeepsForm s0 s) {c : Channel} : EndsInForm s0 (execSilentPeerTimeout c s) := by
  unfold execSilentPeerTimeout
  refine .next ?_
  split
  · exact .ite hs.linkEvent.channelDown hs
  · exact hs

theorem EndsInForm.badControlBlock (hs : KeepsForm s0 s) {x : RxBlock} : EndsInForm s0 (execBadControlBlock x s) :=
  .next (.ite hs.addFld hs)

end Sys2Proof.Machine
end

section
/-! ## Canonical form: responses and timeouts -/

namespace Sys2Proof.Machine

open Sys2Proof

variable {s0 s : State}

theorem KeepsForm.response (hs : KeepsForm s0 s) {p : Packet} {a : Answer} {cacheable : Bool} :
    KeepsForm s0 (s.response p a cacheable) := by
  unfold State.response
  refine .ite hs.takeLocal ?_
  dsimp only
  split
  · exact hs.takeLocal.count
  · exact .ite hs.takeLocal hs.takeLocal.complete

theorem EndsInForm.rsp (hs : KeepsForm s0 s) {p : Packet} : EndsInForm s0 (execRsp p s) := .next (.ite hs.response hs)

theorem EndsInForm.rspData (hs : KeepsForm s0 s) {p : Packet} {cacheable : Bool} :
    EndsInForm s0 (execRspData p cacheable s) :=
  .next (.ite hs.response hs)

theorem EndsInForm.rspAtom (hs : KeepsForm s0 s) {p : Packet} : EndsInForm s0 (execRspAtom p s) := .next (.ite hs.response hs)

theorem KeepsForm.mirrorTimeout (hs : KeepsForm s0 s) {m : MirrorOp} : KeepsForm s0 (s.mirrorTimeout m) := by
  unfold State.mirrorTimeout
  split
  · exact hs
  · exact hs
  · exact hs.mirrorGone
  · exact hs.mirrorGone.engineFails.settleClosing
  · exact hs.mirrorGone.finish

theorem EndsInForm.requestTimeout (hs : KeepsForm s0 s) {x : Expiry} : EndsInForm s0 (execRequestTimeout x s) := by
  unfold execRequestTimeout
  refine .next ?_
  split
  · split
    · exact hs
    · exact .ite hs.complete hs
  · split
    · exact hs
    · exact .ite hs.update.raise.respond hs
  · split
    · exact hs
    · exact .ite hs.mirrorTimeout hs

theorem KeepsForm.resend (hs : KeepsForm s0 s) {key : Nat} {sl : Slot} {x : Xlat} : KeepsForm s0 (s.resend key sl x) :=
  hs.setSkid.update.sendPacket

theorem EndsInForm.atomicRetransmit (hs : KeepsForm s0 s) {key : Fin 32768} : EndsInForm s0 (execAtomicRetransmit key s) := by
  unfold execAtomicRetransmit
  refine .next ?_
  split
  · exact hs
  · refine .ite ?_ hs
    split
    · exact (hs.translate.of_fst ‹_›).resend
    · exact (hs.translate.of_fst ‹_›).update

end Sys2Proof.Machine
end

section
/-! ## Canonical form: scalar instructions -/

namespace Sys2Proof.Machine

open Sys2Proof

variable {s0 s : State}

theorem EndsInForm.add (hs : KeepsForm s0 s) {t : ThreadNo} {f : Insn} : EndsInForm s0 (execAdd t f s) := .next hs.alu

theorem EndsInForm.sub (hs : KeepsForm s0 s) {t : ThreadNo} {f : Insn} : EndsInForm s0 (execSub t f s) := .next hs.alu

theorem EndsInForm.and (hs : KeepsForm s0 s) {t : ThreadNo} {f : Insn} : EndsInForm s0 (execAnd t f s) := .next hs.alu

theorem EndsInForm.or (hs : KeepsForm s0 s) {t : ThreadNo} {f : Insn} : EndsInForm s0 (execOr t f s) := .next hs.alu

theorem EndsInForm.xor (hs : KeepsForm s0 s) {t : ThreadNo} {f : Insn} : EndsInForm s0 (execXor t f s) := .next hs.alu

theorem EndsInForm.shl (hs : KeepsForm s0 s) {t : ThreadNo} {f : Insn} : EndsInForm s0 (execShl t f s) := .next hs.alu

theorem EndsInForm.shr (hs : KeepsForm s0 s) {t : ThreadNo} {f : Insn} : EndsInForm s0 (execShr t f s) := .next hs.alu

theorem EndsInForm.sar (hs : KeepsForm s0 s) {t : ThreadNo} {f : Insn} : EndsInForm s0 (execSar t f s) := .next hs.alu

theorem EndsInForm.mul (hs : KeepsForm s0 s) {t : ThreadNo} {f : Insn} : EndsInForm s0 (execMul t f s) := .next hs.alu

theorem EndsInForm.mulhu (hs : KeepsForm s0 s) {t : ThreadNo} {f : Insn} : EndsInForm s0 (execMulhu t f s) := .next hs.alu

theorem EndsInForm.mins (hs : KeepsForm s0 s) {t : ThreadNo} {f : Insn} : EndsInForm s0 (execMins t f s) := .next hs.alu

theorem EndsInForm.maxs (hs : KeepsForm s0 s) {t : ThreadNo} {f : Insn} : EndsInForm s0 (execMaxs t f s) := .next hs.alu

theorem EndsInForm.minu (hs : KeepsForm s0 s) {t : ThreadNo} {f : Insn} : EndsInForm s0 (execMinu t f s) := .next hs.alu

theorem EndsInForm.maxu (hs : KeepsForm s0 s) {t : ThreadNo} {f : Insn} : EndsInForm s0 (execMaxu t f s) := .next hs.alu

theorem EndsInForm.sel (hs : KeepsForm s0 s) {t : ThreadNo} {f : Insn} : EndsInForm s0 (execSel t f s) :=
  .next (hs.insn fun hs => hs.setGreg.advance)

theorem EndsInForm.cmp (hs : KeepsForm s0 s) {t : ThreadNo} {f : Insn} : EndsInForm s0 (execCmp t f s) := by
  unfold execCmp
  refine .next ?_
  refine hs.insn fun hs => ?_
  split
  · exact hs.setPredOf.advance
  · exact hs

theorem EndsInForm.cmpi (hs : KeepsForm s0 s) {t : ThreadNo} {f : Insn} : EndsInForm s0 (execCmpi t f s) := by
  unfold execCmpi
  refine .next ?_
  refine hs.insn fun hs => ?_
  split
  · exact hs.setPredOf.advance
  · exact hs

theorem EndsInForm.addi (hs : KeepsForm s0 s) {t : ThreadNo} {f : Insn} : EndsInForm s0 (execAddi t f s) := .next hs.aluImm

theorem EndsInForm.andi (hs : KeepsForm s0 s) {t : ThreadNo} {f : Insn} : EndsInForm s0 (execAndi t f s) := .next hs.aluImm

theorem EndsInForm.ori (hs : KeepsForm s0 s) {t : ThreadNo} {f : Insn} : EndsInForm s0 (execOri t f s) := .next hs.aluImm

theorem EndsInForm.xori (hs : KeepsForm s0 s) {t : ThreadNo} {f : Insn} : EndsInForm s0 (execXori t f s) := .next hs.aluImm

theorem EndsInForm.shli (hs : KeepsForm s0 s) {t : ThreadNo} {f : Insn} : EndsInForm s0 (execShli t f s) := .next hs.aluImm

theorem EndsInForm.shri (hs : KeepsForm s0 s) {t : ThreadNo} {f : Insn} : EndsInForm s0 (execShri t f s) := .next hs.aluImm

theorem EndsInForm.sari (hs : KeepsForm s0 s) {t : ThreadNo} {f : Insn} : EndsInForm s0 (execSari t f s) := .next hs.aluImm

theorem EndsInForm.movi (hs : KeepsForm s0 s) {t : ThreadNo} {f : Insn} : EndsInForm s0 (execMovi t f s) :=
  .next (hs.insn fun hs => hs.setGreg.advance)

theorem EndsInForm.movhi (hs : KeepsForm s0 s) {t : ThreadNo} {f : Insn} : EndsInForm s0 (execMovhi t f s) :=
  .next (hs.insn fun hs => hs.setGreg.advance)

theorem EndsInForm.plog (hs : KeepsForm s0 s) {t : ThreadNo} {f : Insn} : EndsInForm s0 (execPlog t f s) :=
  .next (hs.insn fun hs => hs.setPredOf.advance)

theorem EndsInForm.crc32c (hs : KeepsForm s0 s) {t : ThreadNo} {f : Insn} : EndsInForm s0 (execCrc32c t f s) :=
  .next (hs.insn fun hs => hs.setGreg.advance)

theorem EndsInForm.wbuf (hs : KeepsForm s0 s) {t : ThreadNo} {f : Insn} : EndsInForm s0 (execWbuf t f s) :=
  .next (hs.insn fun hs => hs.setGreg.advance)

theorem EndsInForm.wbufL (hs : KeepsForm s0 s) {t : ThreadNo} {f : Insn} : EndsInForm s0 (execWbufL t f s) :=
  .next (hs.insn fun hs => hs.setThr.advance)

end Sys2Proof.Machine
end

section
/-! ## Canonical form: the SPDM responder -/

namespace Sys2Proof.Machine

open Sys2Proof

variable {s0 s : State}

theorem KeepsForm.setSpdm (hs : KeepsForm s0 s) {x : Spdm} : KeepsForm s0 (s.setSpdm x) := hs.update

theorem KeepsForm.spdmSign (hs : KeepsForm s0 s) : KeepsForm s0 s.spdmSign.2 := hs.fresh

theorem KeepsForm.spdmNext (hs : KeepsForm s0 s) {h seq : Nat} : KeepsForm s0 (s.spdmNext h seq).2 := by
  unfold State.spdmNext
  split
  · exact hs
  · exact .ite hs.setSpdm hs

theorem KeepsForm.spdmReply (hs : KeepsForm s0 s) {h : Nat} {r : SpdmReq} : KeepsForm s0 (s.spdmReply h r).2 := by
  unfold State.spdmReply
  dsimp only
  split
  · exact hs.setSpdm
  · exact hs
  · split
    · exact hs.setSpdm
    · exact hs
  · exact hs
  · split
    · exact hs
    · exact hs
  · split
    · exact hs
    · split
      · exact hs
      · exact hs.spdmSign
  · split
    · exact hs
    · split
      · split
        · exact hs
        · split
          · exact hs.spdmSign
          · exact hs
      · split
        · split
          · exact hs
          · split
            · exact hs.spdmSign
            · exact hs
        · split
          · exact hs
          · split
            · exact hs.spdmSign
            · exact hs
  · split
    · exact hs
    · split
      · exact hs
      · exact hs.spdmSign.setSpdm
  · split
    · exact hs.setSpdm
    · exact hs
  · split
    · exact hs
    · exact hs
  · split
    · exact hs.setSpdm
    · exact hs
  · exact hs.spdmNext
  · split
    · exact hs
    · split
      · exact hs
      · split
        · exact hs
        · exact hs.update.setFld

theorem KeepsForm.spdm (hs : KeepsForm s0 s) {h : Nat} {r : SpdmReq} : KeepsForm s0 (s.spdm h r) := by
  unfold State.spdm
  refine .ite hs ?_
  refine .ite hs.send ?_
  split
  · exact (hs.spdmReply.of_snd ‹_›).send
  · exact hs.spdmReply.of_snd ‹_›

theorem EndsInForm.getVersion (hs : KeepsForm s0 s) {h : PortNo} : EndsInForm s0 (execGetVersion h s) := .next hs.spdm

theorem EndsInForm.getCapabilities (hs : KeepsForm s0 s) {h : PortNo} : EndsInForm s0 (execGetCapabilities h s) := .next hs.spdm

theorem EndsInForm.negotiateAlgorithms (hs : KeepsForm s0 s) {h : PortNo} {sign kem hash aead : Bool} :
    EndsInForm s0 (execNegotiateAlgorithms h sign kem hash aead s) :=
  .next hs.spdm

theorem EndsInForm.getDigests (hs : KeepsForm s0 s) {h : PortNo} : EndsInForm s0 (execGetDigests h s) := .next hs.spdm

theorem EndsInForm.getCertificate (hs : KeepsForm s0 s) {h : PortNo} {slot : Fin 16} {off len : BitVec 16} :
    EndsInForm s0 (execGetCertificate h slot off len s) :=
  .next hs.spdm

theorem EndsInForm.challenge (hs : KeepsForm s0 s) {h : PortNo} {slot : Fin 16} : EndsInForm s0 (execChallenge h slot s) :=
  .next hs.spdm

theorem EndsInForm.getMeasurements (hs : KeepsForm s0 s) {h : PortNo} {index : BitVec 8} {sign : Bool} :
    EndsInForm s0 (execGetMeasurements h index sign s) :=
  .next hs.spdm

theorem EndsInForm.keyExchange (hs : KeepsForm s0 s) {h : PortNo} {mauth psk : Bool} :
    EndsInForm s0 (execKeyExchange h mauth psk s) :=
  .next hs.spdm

theorem EndsInForm.finish (hs : KeepsForm s0 s) {h : PortNo} : EndsInForm s0 (execFinish h s) := .next hs.spdm

theorem EndsInForm.heartbeat (hs : KeepsForm s0 s) {h : PortNo} : EndsInForm s0 (execHeartbeat h s) := .next hs.spdm

theorem EndsInForm.endSession (hs : KeepsForm s0 s) {h : PortNo} : EndsInForm s0 (execEndSession h s) := .next hs.spdm

theorem EndsInForm.chunkSend (hs : KeepsForm s0 s) {h : PortNo} {seq : BitVec 16} {whole : Option SpdmReq} :
    EndsInForm s0 (execChunkSend h seq whole s) := by
  unfold execChunkSend
  refine .next ?_
  refine .ite hs ?_
  refine .ite hs.send ?_
  refine .ite hs.send ?_
  dsimp only
  split
  · exact hs.send.setSpdm
  · exact hs.send.setSpdm.spdm

theorem EndsInForm.chunkGet (hs : KeepsForm s0 s) {h : PortNo} {seq : BitVec 16} : EndsInForm s0 (execChunkGet h seq s) :=
  .next hs.spdm

theorem EndsInForm.vendorDefinedRequest (hs : KeepsForm s0 s) {h : PortNo} {standard vendor : BitVec 16} {code part : BitVec 8}
    {nonce : BitVec 256} :
    EndsInForm s0 (execVendorDefinedRequest h standard vendor code part nonce s) :=
  .next hs.spdm

end Sys2Proof.Machine
end

section
/-! ## Steps and commands as a whole -/

namespace Sys2Proof.Machine

open Sys2Proof

variable {s : State}

/-- Every command answers a next state and keeps the form of the state it acts on. -/
theorem exec_endsInForm (c : Instr) (s : State) : EndsInForm s (exec c s) := by
  have hs := KeepsForm.refl s
  cases c with
  | controlSpaceWrite => exact .controlSpaceWrite hs
  | clearingRead => exact .clearingRead hs
  | tableWordStage => exact .tableWordStage hs
  | routeEntryCommit => exact .routeEntryCommit hs
  | groupEntryCommit => exact .groupEntryCommit hs
  | planCommit => exact .planCommit hs
  | tickBoundary => exact .tickBoundary hs
  | refInputLoss => exact .refInputLoss hs
  | refInputValid => exact .refInputValid hs
  | refRevert => exact .refRevert hs
  | timeExchange => exact .timeExchange hs
  | timeBlock => exact .timeBlock hs
  | holdoverExpire => exact .holdoverExpire hs
  | epochInPulse => exact .epochInPulse hs
  | electionSettle => exact .electionSettle hs
  | threadStart => exact .threadStart hs
  | threadHalt => exact .threadHalt hs
  | threadResume => exact .threadResume hs
  | threadSkip => exact .threadSkip hs
  | threadReset => exact .threadReset hs
  | icacheInvalidate => exact .icacheInvalidate hs
  | icacheFill => exact .icacheFill hs
  | watchEnable => exact .watchEnable hs
  | watchDisable => exact .watchDisable hs
  | watchArmed => exact .watchArmed hs
  | watchEvaluate => exact .watchEvaluate hs
  | watchDeadline => exact .watchDeadline hs
  | snpInv => exact .snpInv hs
  | snpData => exact .snpData hs
  | snpCur => exact .snpCur hs
  | watchRereadData => exact .watchRereadData hs
  | nop => exact .nop hs
  | br => exact .br hs
  | jal => exact .jal hs
  | jr => exact .jr hs
  | halt => exact .halt hs
  | trap => exact .trap hs
  | tret => exact .tret hs
  | waitT => exact .waitT hs
  | waitTWake => exact .waitTWake hs
  | waitW => exact .waitW hs
  | csrr => exact .csrr hs
  | chk => exact .chk hs
  | add => exact .add hs
  | sub => exact .sub hs
  | and => exact .and hs
  | or => exact .or hs
  | xor => exact .xor hs
  | shl => exact .shl hs
  | shr => exact .shr hs
  | sar => exact .sar hs
  | mul => exact .mul hs
  | mulhu => exact .mulhu hs
  | mins => exact .mins hs
  | maxs => exact .maxs hs
  | minu => exact .minu hs
  | maxu => exact .maxu hs
  | sel => exact .sel hs
  | cmp => exact .cmp hs
  | addi => exact .addi hs
  | andi => exact .andi hs
  | ori => exact .ori hs
  | xori => exact .xori hs
  | shli => exact .shli hs
  | shri => exact .shri hs
  | sari => exact .sari hs
  | movi => exact .movi hs
  | movhi => exact .movhi hs
  | cmpi => exact .cmpi hs
  | plog => exact .plog hs
  | crc32c => exact .crc32c hs
  | wbuf => exact .wbuf hs
  | wbufL => exact .wbufL hs
  | ld => exact .ld hs
  | st => exact .st hs
  | ldL => exact .ldL hs
  | stL => exact .stL hs
  | atom => exact .atom hs
  | red => exact .red hs
  | resolve => exact .resolve hs
  | fence => exact .fence hs
  | invl => exact .invl hs
  | ownAcq => exact .ownAcq hs
  | ownRel => exact .ownRel hs
  | skdQ => exact .skdQ hs
  | krn => exact .krn hs
  | coll => exact .coll hs
  | collBatch => exact .collBatch hs
  | rsv => exact .rsv hs
  | hpoll => exact .hpoll hs
  | hwait => exact .hwait hs
  | lpSet => exact .lpSet hs
  | engineDescriptorReadDone => exact .engineDescriptorReadDone hs
  | pageWalk => exact .pageWalk hs
  | tlbInvalidate => exact .tlbInvalidate hs
  | xltRetry => exact .xltRetry hs
  | xltAbort => exact .xltAbort hs
  | migHoldExpire => exact .migHoldExpire hs
  | sieveRead => exact .sieveRead hs
  | sieveWrite => exact .sieveWrite hs
  | sieveAccessDone => exact .sieveAccessDone hs
  | sieveProbe => exact .sieveProbe hs
  | sievePartWrite => exact .sievePartWrite hs
  | sieveSweepDone => exact .sieveSweepDone hs
  | ledgerRead => exact .ledgerRead hs
  | packetReceive => exact .packetReceive hs
  | packetSend => exact .packetSend hs
  | packetAgeExpire => exact .packetAgeExpire hs
  | pathHoldExpire => exact .pathHoldExpire hs
  | groupHoldExpire => exact .groupHoldExpire hs
  | channelJoin => exact .channelJoin hs
  | creditBlock => exact .creditBlock hs
  | nakBlock c expect reason => exact .nakBlock hs (reason := reason)
  | replayBlock => exact .replayBlock hs
  | identBlock => exact .identBlock hs
  | leaveBlock c feid reason tick => exact .leaveBlock hs (tick := tick)
  | idleBlock => exact .idleBlock hs
  | eiBlock => exact .eiBlock hs
  | nakRepeat => exact .nakRepeat hs
  | silentPeerTimeout => exact .silentPeerTimeout hs
  | readRequest => exact .readRequest hs
  | writeRequest => exact .writeRequest hs
  | atomRequest => exact .atomRequest hs
  | redRequest => exact .redRequest hs
  | breadRequest => exact .breadRequest hs
  | bwriteRequest => exact .bwriteRequest hs
  | invlRequest => exact .invlRequest hs
  | invRequest => exact .invRequest hs
  | sharerAck => exact .sharerAck hs
  | ownAcqRequest => exact .ownAcqRequest hs
  | ownRelRequest => exact .ownRelRequest hs
  | wbRequest => exact .wbRequest hs
  | mcopyRequest => exact .mcopyRequest hs
  | matomRequest => exact .matomRequest hs
  | mirrorAck => exact .mirrorAck hs
  | rsp => exact .rsp hs
  | rspData => exact .rspData hs
  | rspAtom => exact .rspAtom hs
  | requestTimeout => exact .requestTimeout hs
  | atomicRetransmit => exact .atomicRetransmit hs
  | hostFlushRead => exact .hostFlushRead hs
  | hostFlushCompletion => exact .hostFlushCompletion hs
  | hostCompletion => exact .hostCompletion hs
  | hostCompletionTimeout => exact .hostCompletionTimeout hs
  | skidderDescriptorStart => exact .skidderDescriptorStart hs
  | skidderLineIssue => exact .skidderLineIssue hs
  | blockTransferComplete => exact .blockTransferComplete hs
  | kernelStart => exact .kernelStart hs
  | workItemDone => exact .workItemDone hs
  | kernelComplete => exact .kernelComplete hs
  | cellRetireWrite => exact .cellRetireWrite hs
  | spareReplaceGo => exact .spareReplaceGo hs
  | spareReplacementDone => exact .spareReplacementDone hs
  | kernelSlotMove => exact .kernelSlotMove hs
  | ladleQuantum => exact .ladleQuantum hs
  | reservationGrant => exact .reservationGrant hs
  | reservationWithdraw => exact .reservationWithdraw hs
  | rsvExpire => exact .rsvExpire hs
  | joinMessage => exact .joinMessage hs
  | joinTimeout => exact .joinTimeout hs
  | readyMessage => exact .readyMessage hs
  | agreedStepStart => exact .agreedStepStart hs
  | phaseStart => exact .phaseStart hs
  | collPacket => exact .collPacket hs
  | xchgPacket => exact .xchgPacket hs
  | xdoneMessage => exact .xdoneMessage hs
  | abortMessage => exact .abortMessage hs
  | collectiveStall => exact .collectiveStall hs
  | abortComplete => exact .abortComplete hs
  | collectiveComplete => exact .collectiveComplete hs
  | abortRecordExpire => exact .abortRecordExpire hs
  | xchgFamilyChange => exact .xchgFamilyChange hs
  | planSwitchRequest => exact .planSwitchRequest hs
  | planSwitchStart => exact .planSwitchStart hs
  | switchRetune => exact .switchRetune hs
  | switchFineSearch => exact .switchFineSearch hs
  | switchAcquire => exact .switchAcquire hs
  | switchComplete => exact .switchComplete hs
  | ringLockWindow => exact .ringLockWindow hs
  | pilotCheck => exact .pilotCheck hs
  | ringSweepDone => exact .ringSweepDone hs
  | verifyTimeout => exact .verifyTimeout hs
  | opticalLos => exact .opticalLos hs
  | lightReturn => exact .lightReturn hs
  | laserPowerWindow => exact .laserPowerWindow hs
  | spareSourceReady => exact .spareSourceReady hs
  | spareWarmTimeout => exact .spareWarmTimeout hs
  | darkNotice => exact .darkNotice hs
  | darkAck => exact .darkAck hs
  | darkAckDeadline => exact .darkAckDeadline hs
  | darkWindow => exact .darkWindow hs
  | darkWindowEnd => exact .darkWindowEnd hs
  | marginTestGo => exact .marginTestGo hs
  | marginTestStart => exact .marginTestStart hs
  | marginTestDone => exact .marginTestDone hs
  | marginCommit => exact .marginCommit hs
  | laneRelock => exact .laneRelock hs
  | laneFail => exact .laneFail hs
  | optLaneTestWrite => exact .optLaneTestWrite hs
  | optCntSrcWrite => exact .optCntSrcWrite hs
  | optInjectGo => exact .optInjectGo hs
  | injectRepeat => exact .injectRepeat hs
  | laneLock => exact .laneLock hs
  | laneLockLoss => exact .laneLockLoss hs
  | electricalLos => exact .electricalLos hs
  | trainingFrame => exact .trainingFrame hs
  | trainingStageLimit => exact .trainingStageLimit hs
  | portTrainingDone => exact .portTrainingDone hs
  | trainingRetry => exact .trainingRetry hs
  | idleEnter => exact .idleEnter hs
  | idleExit => exact .idleExit hs
  | skoisSleep => exact .skoisSleep hs
  | portRetrain => exact .portRetrain hs
  | laneRejoin => exact .laneRejoin hs
  | elkLaneTestWrite => exact .elkLaneTestWrite hs
  | elkCntSrcWrite => exact .elkCntSrcWrite hs
  | elkInjectGo => exact .elkInjectGo hs
  | mmWindowRead => exact .mmWindowRead hs
  | mmWindowWrite => exact .mmWindowWrite hs
  | fwWindowRead => exact .fwWindowRead hs
  | fwWindowWrite => exact .fwWindowWrite hs
  | hostFence => exact .hostFence hs
  | hostPortReset => exact .hostPortReset hs
  | hostLinkTrain => exact .hostLinkTrain hs
  | configRequest => exact .configRequest hs
  | getVersion => exact .getVersion hs
  | getCapabilities => exact .getCapabilities hs
  | negotiateAlgorithms => exact .negotiateAlgorithms hs
  | getDigests => exact .getDigests hs
  | getCertificate => exact .getCertificate hs
  | challenge => exact .challenge hs
  | getMeasurements => exact .getMeasurements hs
  | keyExchange => exact .keyExchange hs
  | finish => exact .finish hs
  | heartbeat => exact .heartbeat hs
  | endSession => exact .endSession hs
  | chunkSend => exact .chunkSend hs
  | chunkGet => exact .chunkGet hs
  | vendorDefinedRequest => exact .vendorDefinedRequest hs
  | partEnable => exact .partEnable hs
  | partSeal => exact .partSeal hs
  | sealComplete => exact .sealComplete hs
  | partReset => exact .partReset hs
  | partDisable => exact .partDisable hs
  | partitionReset => exact .partitionReset hs
  | partitionResetDone => exact .partitionResetDone hs
  | rangeAdd => exact .rangeAdd hs
  | rangeRemove => exact .rangeRemove hs
  | scrubDone => exact .scrubDone hs
  | keyUnwrap => exact .keyUnwrap hs
  | unwrapDone => exact .unwrapDone hs
  | keyClear => exact .keyClear hs
  | quoteGo => exact .quoteGo hs
  | quoteDone => exact .quoteDone hs
  | loadGo => exact .loadGo hs
  | chunkDone => exact .chunkDone hs
  | debugOpen => exact .debugOpen hs
  | debugClose => exact .debugClose hs
  | debugEpochWriteDone => exact .debugEpochWriteDone hs
  | patrolScrub => exact .patrolScrub hs
  | sramUncorrectable => exact .sramUncorrectable hs
  | ledgerSetLostExpire => exact .ledgerSetLostExpire hs
  | iddaumLockstepRestart => exact .iddaumLockstepRestart hs
  | trayPresentDeassert => exact .trayPresentDeassert hs
  | trayDrainEnd => exact .trayDrainEnd hs
  | logRead => exact .logRead hs
  | inputUndervoltage => exact .inputUndervoltage hs
  | inputPowerLoss => exact .inputPowerLoss hs
  | inputOvervoltage => exact .inputOvervoltage hs
  | emergencyShedStart => exact .emergencyShedStart hs
  | emergencyShedEnd => exact .emergencyShedEnd hs
  | temperatureHot => exact .temperatureHot hs
  | temperatureCool => exact .temperatureCool hs
  | thermalShutdown => exact .thermalShutdown hs
  | i3cEntdaa => exact .i3cEntdaa hs
  | i3cPowerRead => exact .i3cPowerRead hs
  | i3cCapWrite => exact .i3cCapWrite hs
  | mgmtDatagramRead => exact .mgmtDatagramRead hs
  | mgmtDatagramWrite => exact .mgmtDatagramWrite hs
  | powerGood => exact .powerGood hs
  | resetNAssert => exact .resetNAssert hs
  | warmReset => exact .warmReset hs
  | skidderReset => exact .skidderReset hs
  | settingsProgram => exact .settingsProgram hs
  | programDone => exact .programDone hs
  | fwSwap => exact .fwSwap hs
  | fwSwapDone => exact .fwSwapDone hs
  | cruiseC0Regulators => exact .cruiseC0Regulators hs
  | cruiseC1SettingsLoad => exact .cruiseC1SettingsLoad hs
  | cruiseC2Training => exact .cruiseC2Training hs
  | cruiseC3Optics => exact .cruiseC3Optics hs
  | cruiseC4Links => exact .cruiseC4Links hs
  | cruiseC5Election => exact .cruiseC5Election hs
  | cruiseC6MapFlood => exact .cruiseC6MapFlood hs
  | mapMessage => exact .mapMessage hs
  | mapQuiet => exact .mapQuiet hs
  | cruiseC7Routes => exact .cruiseC7Routes hs
  | cruiseC8Ready => exact .cruiseC8Ready hs
  | mgmtReady => exact .mgmtReady hs
  | cruisePhaseLimit => exact .cruisePhaseLimit hs
  | autoroute => exact .autoroute hs
  | counterBlock => exact .counterBlock hs
  | snapGo => exact .snapGo hs
  | traceSplitWrite => exact .traceSplitWrite hs
  | traceRun => exact .traceRun hs
  | traceArmedStart => exact .traceArmedStart hs
  | debugLineRead => exact .debugLineRead hs
  | debugLineWrite => exact .debugLineWrite hs
  | accumulatorRead => exact .accumulatorRead hs
  | extest => exact .extest hs
  | idcode => exact .idcode hs
  | sample => exact .sample hs
  | preload => exact .preload hs
  | clamp => exact .clamp hs
  | highz => exact .highz hs
  | extestPulse => exact .extestPulse hs
  | extestTrain => exact .extestTrain hs
  | csrAccess => exact .csrAccess hs
  | secDebug => exact .secDebug hs
  | bypass => exact .bypass hs
  | jtagTapReset => exact .jtagTapReset hs
  | patternCheckerLock => exact .patternCheckerLock hs
  | patternCheckerRelock => exact .patternCheckerRelock hs
  | badControlBlock => exact .badControlBlock hs
  | hdmDecoderCommit => exact .hdmDecoderCommit hs
  | msixVectorUnmask => exact .msixVectorUnmask hs
  | iddaumRestartDone => exact .iddaumRestartDone hs
  | undervoltageEnd => exact .undervoltageEnd hs
  | schedulerBankFault => exact .schedulerBankFault hs

/-- With no channel on, a block slot passes on no lane. -/
theorem State.lineSlot_of_off (hoff : ∀ c < 262, s.lineOn c = false) : s.lineSlot = s := by
  refine List.foldlRecOn (motive := fun t => t = s) _ _ rfl fun t ht c hc => ?_
  subst ht
  have hlt := (mem_upFrom 0 262 c hc).2
  simp [hoff c (by omega)]

/-- Settles O1: `step` looks at the queue and nothing else. -/
theorem stepRunsFront : Obligations.StepRunsFront := by
  have hempty (s : State) (h : s.pending = []) : step s = .next s.lineSlot := by rw [step, h]
  exact ⟨fun _ _ _ => rfl, hempty, fun s h hoff => (hempty s h).trans (by rw [State.lineSlot_of_off hoff])⟩

/-- Settles O2. -/
theorem everyCommandCompletes : Obligations.EveryCommandCompletes := fun c s =>
  let ⟨t, ht, _⟩ := exec_endsInForm c s
  ⟨t, ht⟩

/-- Settles O59: at reset HBM and the register file list nothing, and nothing waits. -/
theorem resetIsCanonical : Obligations.ResetIsCanonical := ⟨rfl, rfl, rfl⟩

/-- Settles O60: by what the front command keeps of the state with the rest of the queue, or the block slot of the whole state. -/
theorem stepsKeepCanonicalForm : Obligations.StepsKeepCanonicalForm := by
  intro s t hstep
  cases hq : s.pending with
  | nil =>
    rw [step, hq] at hstep
    obtain rfl : s.lineSlot = t := Host.Outcome.next.inj hstep
    obtain ⟨hmem, hregs, hpend⟩ := (KeepsForm.refl s).lineSlot
    exact ⟨hmem, hregs, hpend.trans hq⟩
  | cons c rest =>
    obtain ⟨u, hu, hkeeps⟩ := exec_endsInForm c { s with pending := rest }
    rw [step, hq] at hstep
    obtain rfl : u = t := Host.Outcome.next.inj (hu.symm.trans hstep)
    exact hkeeps

end Sys2Proof.Machine
end

section
/-! ## The JTAG instructions (R340, R401, R402), management datagrams and CSR_ACCESS (R403, R412) -/

namespace Sys2Proof.Machine

open Sys2Proof

variable {s : State}

theorem State.pinTest_inReset (h : s.cru.resetN = true) (ir : BitVec 8) (drive : Drive) (dr : Nat) :
    s.pinTest ir drive dr = s.loadIr ir drive dr := if_pos h

theorem State.pinTest_running (h : s.cru.resetN = false) (ir : BitVec 8) (drive : Drive) (dr : Nat) :
    s.pinTest ir drive dr = s.bypass := if_neg (by simp [h])

/-- The two fields of SEC_DEBUG_CTL that a JTAG session changes. -/
def jtagSessionFields : List Field := [R.SEC_DEBUG_CTL.JTAG, R.SEC_DEBUG_CTL.COUNTED]

theorem OnlyFields.setJtagSession {t : State} {f : Field} (h : OnlyFields jtagSessionFields s t) (hf : f ∈ jtagSessionFields) (v : Nat) :
    OnlyFields jtagSessionFields s (t.setFld f v) :=
  h.setFld hf (by revert f; decide) v

theorem State.fld_setCounted (t : State) {g : Field} (v : Nat) (h : g.lo + g.w ≤ 4) :
    (t.setFld R.SEC_DEBUG_CTL.COUNTED v).fld g = t.fld g :=
  t.fld_setFld_apart _ g v (by decide) (.inr (.inl h))

theorem State.fld_counted_setJtag (t : State) (v : Nat) :
    (t.setFld R.SEC_DEBUG_CTL.JTAG v).fld R.SEC_DEBUG_CTL.COUNTED = t.fld R.SEC_DEBUG_CTL.COUNTED :=
  t.fld_setFld_apart _ _ v (by decide) (.inr (.inr (by decide)))

theorem State.flag_session_setJtag (t : State) (v : Nat) :
    (t.setFld R.SEC_DEBUG_CTL.JTAG v).flag R.SEC_DEBUG_CTL.SESSION = t.flag R.SEC_DEBUG_CTL.SESSION := by
  rw [State.flag, t.fld_setFld_apart _ _ v (by decide) (.inr (.inl (by decide))), State.flag]

theorem State.flag_jtag_setJtag (t : State) (b : Bool) :
    (t.setFld R.SEC_DEBUG_CTL.JTAG (b2n b)).flag R.SEC_DEBUG_CTL.JTAG = b := by
  rw [State.flag, t.fld_setFld_same _ _ (by decide)]
  cases b <;> rfl

theorem State.flag_counted_cleared (t : State) :
    (t.setFld R.SEC_DEBUG_CTL.COUNTED 0).flag R.SEC_DEBUG_CTL.COUNTED = false := by
  rw [State.flag, t.fld_setFld_same _ _ (by decide)]
  rfl

/-- While the other kind of session is open the count is kept. -/
theorem State.sessionClosed_open (h : s.session = true) : s.sessionClosed = s := if_pos h

theorem State.sessionClosed_last (h : s.session = false) : s.sessionClosed = s.setFld R.SEC_DEBUG_CTL.COUNTED 0 :=
  if_neg (by simp [h])

theorem completes_secDebug (s : State) : Completes .secDebug s fun u => u.flag R.SEC_DEBUG_CTL.JTAG = true ∧ u.jtag.ir = 0x21 ∧
    u.jtag.dr = 1
    ∧ (s.flag R.SEC_DEBUG_CTL.JTAG = false → u.flag R.SEC_DEBUG_CTL.COUNTED = false)
    ∧ (s.flag R.SEC_DEBUG_CTL.JTAG = true → u.fld R.SEC_DEBUG_CTL.COUNTED = s.fld R.SEC_DEBUG_CTL.COUNTED)
    ∧ OnlyFields jtagSessionFields s u ∧ SameMemory s u := by
  cases hopen : s.flag R.SEC_DEBUG_CTL.JTAG with
  | true => exact ⟨s.loadIr 0x21 .none 1, congrArg Host.Outcome.next (if_pos hopen), hopen, rfl, rfl, nofun, fun _ => rfl,
    fun _ _ => rfl, fun _ => rfl⟩
  | false =>
    let t := s.loadIr 0x21 .none 1
    have honly : OnlyFields jtagSessionFields s t := fun _ _ => rfl
    refine ⟨(t.setFld R.SEC_DEBUG_CTL.JTAG 1).setFld R.SEC_DEBUG_CTL.COUNTED 0,
      congrArg Host.Outcome.next (if_neg (ne_true_of_eq_false hopen)),
      ?_, rfl, rfl, fun _ => State.flag_counted_cleared _, nofun, ?_, fun _ => rfl⟩
    · rw [State.flag, State.fld_setCounted _ _ (by decide)]
      exact t.flag_jtag_setJtag true
    · exact (honly.setJtagSession (by simp [jtagSessionFields]) 1).setJtagSession (by simp [jtagSessionFields]) 0

theorem completes_jtagTapReset (s : State) : Completes .jtagTapReset s fun u => u.flag R.SEC_DEBUG_CTL.JTAG = false
    ∧ (s.flag R.SEC_DEBUG_CTL.SESSION = false → u.flag R.SEC_DEBUG_CTL.COUNTED = false)
    ∧ (s.flag R.SEC_DEBUG_CTL.SESSION = true → u.fld R.SEC_DEBUG_CTL.COUNTED = s.fld R.SEC_DEBUG_CTL.COUNTED)
    ∧ u.jtag = { dr := s.idcode } ∧ OnlyFields jtagSessionFields s u ∧ SameMemory s u := by
  let t : State := { s with jtag := { dr := s.idcode } }
  let u := t.setFld R.SEC_DEBUG_CTL.JTAG 0
  have honly : OnlyFields jtagSessionFields s u :=
    OnlyFields.setJtagSession (t := t) (fun _ _ => rfl) (by simp [jtagSessionFields]) 0
  have hclosed : u.flag R.SEC_DEBUG_CTL.JTAG = false := t.flag_jtag_setJtag false
  have hsession : u.flag R.SEC_DEBUG_CTL.SESSION = s.flag R.SEC_DEBUG_CTL.SESSION := t.flag_session_setJtag 0
  cases hother : s.flag R.SEC_DEBUG_CTL.SESSION with
  | true =>
    have hopen : u.session = true := by rw [State.session, hsession, hother, Bool.true_or]
    exact ⟨u, congrArg Host.Outcome.next (State.sessionClosed_open hopen), hclosed, nofun, fun _ => t.fld_counted_setJtag 0, rfl,
      honly, fun _ => rfl⟩
  | false =>
    have hlast : u.session = false := by rw [State.session, hsession, hother, hclosed, Bool.false_or]
    refine ⟨u.setFld R.SEC_DEBUG_CTL.COUNTED 0, congrArg Host.Outcome.next (State.sessionClosed_last hlast), ?_,
      fun _ => u.flag_counted_cleared,
      nofun, rfl, honly.setJtagSession (by simp [jtagSessionFields]) 0, fun _ => rfl⟩
    rw [State.flag, State.fld_setCounted _ _ (by decide)]
    exact hclosed

/-- Settles O58: by whether RESET_N is asserted, and by which sessions are open. -/
theorem jtagInstructions : Obligations.JtagInstructions := by
  intro s load
  refine ⟨fun h => ?_, fun h => ?_, rfl, rfl, fun _ => ⟨_, rfl, rfl, rfl, rfl⟩, fun _ => ⟨_, rfl, rfl, rfl, rfl⟩, completes_secDebug s,
    completes_jtagTapReset s⟩
  · have hnext (ir : BitVec 8) (drive : Drive) (dr : Nat) :
        (Host.Outcome.next (s.pinTest ir drive dr) : Result) = .next (load ir drive dr) :=
      congrArg Host.Outcome.next (State.pinTest_inReset h ir drive dr)
    exact ⟨hnext .., hnext .., hnext .., hnext .., hnext ..⟩
  · have hnext (ir : BitVec 8) (drive : Drive) (dr : Nat) : (Host.Outcome.next (s.pinTest ir drive dr) : Result) = exec .bypass s :=
      congrArg Host.Outcome.next (State.pinTest_running h ir drive dr)
    simp only [List.forall_mem_cons, List.not_mem_nil, false_implies, implies_true, and_true]
    exact ⟨hnext .., hnext .., hnext .., hnext .., hnext ..⟩

section
variable {src seq : BitVec 32} {off : BitVec 64} {op : Nat} {bad act : State → Word × State}

/-- A SEQ that is kept is answered from what is kept. -/
theorem State.datagram_repeated {k : Kept} (h : (s.keptFor src).find? (fun k => k.seq == seq) = some k) :
    s.datagram op src seq off bad act = s.sendKept k := by
  rw [State.datagram, h]

/-- A new SEQ at a good offset acts, and its response is kept and sent. -/
theorem State.datagram_new (hseq : (s.keptFor src).find? (fun k => k.seq == seq) = none) (halign : off.toNat % 8 = 0)
    (hlt : off.toNat < 0x4000000) : s.datagram op src seq off bad act =
      let k : Kept := { src := src, seq := seq, tick := s.tick, op := op, status := sOK, off := off, value := (act s).1 }
      ((act s).2.keep k).sendKept k := by
  have hgood : ¬ (off.toNat % 8 ≠ 0 ∨ 0x4000000 ≤ off.toNat) := by omega
  rw [State.datagram, hseq]
  simp only [if_neg hgood]

end

/-- Settles O18: by whether the SEQ is kept. -/
theorem otherAccess : Obligations.OtherAccess := by
  refine ⟨fun src seq off v s hseq halign hlt => ⟨fun hsees => ?_, congrArg Host.Outcome.next (State.datagram_new hseq halign hlt)⟩,
    fun src seq off v s k hseq =>
      ⟨congrArg Host.Outcome.next (State.datagram_repeated hseq), congrArg Host.Outcome.next (State.datagram_repeated hseq)⟩,
    fun off v s => ⟨⟨_, rfl, rfl, rfl⟩, ⟨_, rfl, rfl⟩⟩⟩
  refine (congrArg Host.Outcome.next (State.datagram_new hseq halign hlt)).trans ?_
  rw [State.gate_seen hsees]

end Sys2Proof.Machine
end

section
/-! ## Input power, temperature and the I3C interface (R365, R369, R371, R413) -/

namespace Sys2Proof.Machine

open Sys2Proof

variable {s : State}

/-- Setting a field changes registers only, and of them that field. -/
theorem State.onlyRegisters_setFld (s : State) (f : Field) (v : Nat) (h : f.lo + f.w ≤ 64) : OnlyRegisters [f] s (s.setFld f v) :=
  ⟨rfl, OnlyFields.setFld (fun _ _ => rfl) (List.mem_singleton_self f) h v⟩

/-- A bit that has been cleared reads 0. -/
theorem State.flag_setFld_zero (s : State) (f : Field) (h : f.lo + f.w ≤ 64) : (s.setFld f 0).flag f = false := by
  rw [State.flag, s.fld_setFld_same f 0 h, Nat.zero_mod]
  rfl

theorem completes_emergencyShedEnd (h : s.flag R.GLB_POWER_STATUS.EMERG = true) : Completes .emergencyShedEnd s fun u =>
    u.flag R.GLB_POWER_STATUS.EMERG = false ∧ u.pwr = { s.pwr with demand := 7, changedAt := s.tick }
      ∧ OnlyFields [R.GLB_POWER_STATUS.EMERG] s u ∧ SameMemory s u :=
  ⟨_, congrArg Host.Outcome.next (if_pos h), s.flag_setFld_zero _ (by decide), rfl, (s.onlyRegisters_setFld _ 0 (by decide)).2,
    fun _ => rfl⟩

theorem execEmergencyShedEnd_none (h : s.flag R.GLB_POWER_STATUS.EMERG = false) : execEmergencyShedEnd s = .next s :=
  congrArg Host.Outcome.next (if_neg (ne_true_of_eq_false h))

/-- Table 16.5: what a cold reset leaves, and the code that it shows. -/
theorem State.coldReset_spec (s : State) (last : Nat) :
    (s.coldReset last).fld R.GLB_RESET_STATUS.LAST = last % 2 ^ R.GLB_RESET_STATUS.LAST.w ∧
      OnlyFields [R.GLB_RESET_STATUS.LAST] State.reset (s.coldReset last) ∧ (s.coldReset last).hbm = [] ∧
      (s.coldReset last).mgt.flash = s.mgt.flash ∧ (s.coldReset last).cru.on = false ∧ (s.coldReset last).pending = s.pending :=
  ⟨State.fld_setFld_same _ _ _ (by decide), OnlyFields.setFld (fun _ _ => rfl) (List.mem_singleton_self _) (by decide) last, rfl,
    rfl, rfl, rfl⟩

/-- The 16 bytes of an I3C read are the two registers, the second one above the first. -/
theorem State.i3cPower_eq (s : State) :
    BitVec.ofNat 128 ((s.reg R.GLB_POWER_STATUS.adr).toNat + (s.reg R.MGT_SENSE.adr).toNat * 2 ^ 64) =
      s.reg R.MGT_SENSE.adr ++ s.reg R.GLB_POWER_STATUS.adr := by
  rw [← toNat_append_words, BitVec.ofNat_toNat, BitVec.setWidth_eq]

theorem State.i3c_addressed (h : s.mgt.i3c.isSome = true) : ¬ s.mgt.i3c.isNone = true := by
  simpa [Option.isSome_iff_ne_none] using h

theorem completes_i3cCapWrite {v : BitVec 16} (hi3c : s.mgt.i3c.isSome = true) (hsettled : s.settled = true) (hlow : 300 ≤ v.toNat)
    (hhigh : v.toNat < 2048) : Completes (.i3cCapWrite v) s fun u =>
      u.fld R.GLB_POWER_CAP.CAP = v.toNat ∧ OnlyRegisters [R.GLB_POWER_CAP.CAP] s u := by
  refine ⟨s.setFld R.GLB_POWER_CAP.CAP v.toNat, ?_, ?_, s.onlyRegisters_setFld _ _ (by decide)⟩
  · rw [exec_i3cCapWrite, execI3cCapWrite, if_neg (State.i3c_addressed hi3c), if_neg (by simp [hsettled]), if_pos ⟨hlow, hhigh⟩]
  · rw [s.fld_setFld_same _ _ (by decide)]
    exact Nat.mod_eq_of_lt hhigh

/-- Settles O54: events and demands are read off the commands; loss of power is a cold reset. -/
theorem powerAndSense : Obligations.PowerAndSense := by
  refine ⟨fun s => ⟨rfl, rfl, rfl, rfl, completes_emergencyShedEnd, execEmergencyShedEnd_none, rfl,
    ⟨_, rfl, s.flag_setFld_zero _ (by decide), s.onlyRegisters_setFld _ 0 (by decide)⟩, ?_⟩, fun _ _ => rfl, fun s hi3c => ⟨?_,
      fun v => ⟨?_, ?_, ?_⟩⟩⟩
  · simp only [List.forall_mem_cons, List.not_mem_nil, false_implies, implies_true, and_true]
    exact ⟨⟨_, rfl, s.coldReset_spec 3⟩, ⟨_, rfl, s.coldReset_spec 3⟩⟩
  · rw [exec_i3cPowerRead, execI3cPowerRead, if_neg (State.i3c_addressed hi3c), State.i3cPower_eq]
  · intro hsettled
    rw [exec_i3cCapWrite, execI3cCapWrite, if_neg (State.i3c_addressed hi3c), if_pos (by simp [hsettled])]
  · exact completes_i3cCapWrite hi3c
  · intro hsettled hlow
    rw [exec_i3cCapWrite, execI3cCapWrite, if_neg (State.i3c_addressed hi3c), if_neg (by simp [hsettled]), if_neg (by omega)]

end Sys2Proof.Machine
end

section
/-! ## Resets, updates of the settings store and firmware swaps (R372, R373, R375, R383, R385, R386) -/

namespace Sys2Proof.Machine

open Sys2Proof

variable {s : State}

theorem OnlyRegisters.refl (fs : List Field) (s : State) : OnlyRegisters fs s s := ⟨rfl, fun _ _ => rfl⟩

theorem OnlyRegisters.setFld {fs : List Field} {t : State} (h : OnlyRegisters fs s t) {f : Field} (hmem : f ∈ fs) (hfits : f.lo +
    f.w ≤ 64)
    (v : Nat) : OnlyRegisters fs s (t.setFld f v) := by
  obtain ⟨hregs, hfld⟩ := h
  refine ⟨?_, hfld.setFld hmem hfits v⟩
  rw [hregs]
  rfl

/-! Power good and RESET_N (R372, R386). -/

/-- After a cold reset the module is in the first phase of Cruise. -/
theorem State.phase_coldReset (s : State) (last : Nat) : (s.coldReset last).fld R.GLB_CRUISE_STATUS.PHASE = 0 :=
  (State.fld_setFld_ne _ _ (by decide)).trans (show State.reset.fld _ = 0 by decide)

theorem completes_powerGood (hoff : s.cru.on = false) : Completes .powerGood s fun u =>
    u.cru.on = true ∧ u.fld R.GLB_CRUISE_STATUS.PHASE = 0 ∧ u.hbm = [] ∧ u.mgt.flash = s.mgt.flash
      ∧ u.fld R.GLB_RESET_STATUS.LAST = s.fld R.GLB_RESET_STATUS.LAST ∧ OnlyFields [R.GLB_RESET_STATUS.LAST] State.reset u := by
  obtain ⟨hlast, honly, hhbm, hflash, -, -⟩ := s.coldReset_spec (s.fld R.GLB_RESET_STATUS.LAST)
  exact ⟨_, congrArg Host.Outcome.next (if_neg (by simp [hoff])), rfl, s.phase_coldReset _, hhbm, hflash,
    hlast.trans (Nat.mod_eq_of_lt (s.fld_lt _)), honly⟩

theorem completes_resetNAssert {cycles : Nat} (h : 16 ≤ cycles) : Completes (.resetNAssert cycles) s fun u =>
    u.fld R.GLB_RESET_STATUS.LAST = 1 ∧ OnlyFields [R.GLB_RESET_STATUS.LAST] State.reset u ∧ u.hbm = [] ∧ u.cru.on = false
      ∧ u.cru.resetN = true ∧ u.mgt.flash = s.mgt.flash := by
  obtain ⟨hlast, honly, hhbm, hflash, hon, -⟩ := s.coldReset_spec 1
  exact ⟨_, congrArg Host.Outcome.next (if_neg (by omega)), hlast, honly, hhbm, hon, rfl, hflash⟩

/-! The reset of a Skidder (R375). -/

theorem execSkidderReset_keyed {via : Via} (hsees : s.sees via R.GLB_RESET_CMD.adr true = true) (k : SkidNo) :
    execSkidderReset via 0x5752 k s = .next (s.skidderReset k) :=
  congrArg Host.Outcome.next (State.gate_seen hsees _)

theorem State.skidderReset_eq (s : State) (k : Nat) : s.skidderReset k =
    (State.setSkid { s with free := s.free + 1 } k { s.skid k with
      queue := []
      run := ((s.skid k).run.map fun r => if r.finished then r else r.aborted (Config.freeNat s.free % 256) s.tick) ++
        (s.skid k).queue.map fun q =>
          SkdRun.aborted { desc := q, startTick := s.tick, endTick := s.tick } (Config.freeNat s.free % 256) s.tick }).recheck := rfl

/-- Where no block is queued only those that run are left. -/
theorem Skid.queue_nil {x : Skid} (h : x.queue = []) (l : List SkdRun) :
    ({ x with queue := [], run := l } : Skid) = { x with run := l } := by
  rw [← h]

theorem State.skidderReset_idle {k : Nat} (hrun : (s.skid k).run = []) (hqueue : (s.skid k).queue = []) :
    s.skidderReset k = (State.setSkid { s with free := s.free + 1 } k (s.skid k)).recheck := by
  have hskid : ({ s.skid k with queue := [], run := [] } : Skid) = s.skid k :=
    (Skid.queue_nil hqueue []).trans (by rw [← hrun])
  rw [State.skidderReset_eq, hqueue, hrun]
  exact congrArg (fun x => (State.setSkid _ k x).recheck) hskid

theorem State.skidderReset_running {k : Nat} {r : SkdRun} (hrun : (s.skid k).run = [r]) (hqueue : (s.skid k).queue = [])
    (hlive : r.finished = false) : s.skidderReset k =
      (State.setSkid { s with free := s.free + 1 } k
        { s.skid k with run := [r.aborted (Config.freeNat s.free % 256) s.tick] }).recheck := by
  rw [State.skidderReset_eq, hqueue, hrun, List.map_cons, if_neg (ne_true_of_eq_false hlive)]
  exact congrArg (fun x => (State.setSkid _ k x).recheck) (Skid.queue_nil hqueue _)

/-! Updates of the settings store (R383). -/

/-- The fields of MGT_SET_STATUS that the end of a command shows. -/
def setResultFields : List Field := [R.MGT_SET_STATUS.RESULT, R.MGT_SET_STATUS.DONE, R.MGT_SET_STATUS.BUSY]

theorem State.setResult_spec (s : State) {status : Nat} (h : status < 16) :
    (s.setResult status).fld R.MGT_SET_STATUS.RESULT = status ∧ (s.setResult status).flag R.MGT_SET_STATUS.DONE = true ∧
      (s.setResult status).flag R.MGT_SET_STATUS.BUSY = false ∧ OnlyRegisters setResultFields s (s.setResult status) := by
  refine ⟨?_, ?_, ?_, ?_⟩
  · rw [State.setResult, State.raise, State.fld_setFld_apart _ _ _ _ (by decide) (by decide), State.fld_setFld_same _ _ _ (by decide)]
    exact Nat.mod_eq_of_lt h
  · rw [State.flag, State.setResult, State.raise, State.fld_setFld_same _ _ _ (by decide)]
    rfl
  · rw [State.flag, State.setResult, State.raise, State.fld_setFld_apart _ _ _ _ (by decide) (by decide),
      State.fld_setFld_apart _ _ _ _ (by decide) (by decide)]
    exact s.flag_setFld_zero _ (by decide)
  · exact (((OnlyRegisters.refl _ s).setFld (by decide) (by decide) 0).setFld (by decide) (by decide) status).setFld (by decide)
      (by decide) 1

/-- What the end of a PROGRAM shows leaves whether any bank is valid at load. -/
theorem State.flag_none_shown (s : State) (b : Nat) (valid : Bool) (seq status : Nat) :
    ((s.showBank b valid seq).setResult status).flag R.MGT_SET_STATUS.NONE = s.flag R.MGT_SET_STATUS.NONE := by
  have hvalid (t : State) {f : Field} (hf : f.off ≠ R.MGT_SET_STATUS.NONE.off ∨ R.MGT_SET_STATUS.NONE.lo + R.MGT_SET_STATUS.NONE.w
    ≤ f.lo ∨
      f.lo + f.w ≤ R.MGT_SET_STATUS.NONE.lo) (hfits : f.lo + f.w ≤ 64) (v : Nat) :
      (t.setFld f v).fld R.MGT_SET_STATUS.NONE = t.fld R.MGT_SET_STATUS.NONE :=
    t.fld_setFld_apart f _ v hfits (hf.imp Ne.symm id)
  unfold State.flag State.setResult State.raise State.showBank
  rw [hvalid _ (by decide) (by decide), hvalid _ (by decide) (by decide), hvalid _ (by decide) (by decide)]
  split <;> rw [hvalid _ (by decide) (by decide), hvalid _ (by decide) (by decide)]

theorem execSettingsProgram_seen {via : Via} (hsees : s.sees via R.MGT_SET_CMD.adr true = true) (src : BitVec 46) :
    execSettingsProgram via src s = .next (
      if s.mgt.prog.isSome ∨ s.mgt.swap.isSome then s.setFld R.MGT_SET_STATUS.RESULT sNORES
      else if s.mgt.restart.isSome then s.setResult sNORES
      else if ¬ s.imageTaken (64 * src.toNat) then s.setResult sCHECK
      else
        let b := s.olderBank
        let s := (s.flashErase (bankBase b) (2 ^ 25)).showBank b false 0
        ({ s with mgt := { s.mgt with prog := some { src := 64 * src.toNat, bank := b, start := s.tick } } }).setFld
          R.MGT_SET_STATUS.BUSY 1) :=
  congrArg Host.Outcome.next (State.gate_seen hsees _)

theorem completes_settingsProgram_busy {via : Via} (hsees : s.sees via R.MGT_SET_CMD.adr true = true) (src : BitVec 46)
    (hbusy : s.mgt.prog.isSome = true ∨ s.mgt.swap.isSome = true) : Completes (.settingsProgram via src) s fun u =>
      u.fld R.MGT_SET_STATUS.RESULT = sNORES ∧ OnlyRegisters [R.MGT_SET_STATUS.RESULT] s u := by
  refine ⟨_, (execSettingsProgram_seen hsees src).trans (congrArg Host.Outcome.next (if_pos hbusy)), ?_,
    s.onlyRegisters_setFld _ _ (by decide)⟩
  rw [s.fld_setFld_same _ _ (by decide)]
  rfl

theorem execSettingsProgram_free {via : Via} (hsees : s.sees via R.MGT_SET_CMD.adr true = true) (src : BitVec 46)
    (hprog : s.mgt.prog = none) (hswap : s.mgt.swap = none) (hrestart : s.mgt.restart = none) :
    execSettingsProgram via src s = .next (
      if ¬ s.imageTaken (64 * src.toNat) then s.setResult sCHECK
      else
        let b := s.olderBank
        let s := (s.flashErase (bankBase b) (2 ^ 25)).showBank b false 0
        ({ s with mgt := { s.mgt with prog := some { src := 64 * src.toNat, bank := b, start := s.tick } } }).setFld
          R.MGT_SET_STATUS.BUSY 1) := by
  rw [execSettingsProgram_seen hsees, if_neg (by simp [hprog, hswap]), if_neg (by simp [hrestart])]

/-! Firmware swaps (R385). -/

/-- The fields of MGT_FW_CMD that the end of a command shows. -/
def fwResultFields : List Field := [R.MGT_FW_CMD.RESULT, R.MGT_FW_CMD.DONE]

theorem State.fwResult_spec (s : State) {status : Nat} (h : status < 16) :
    (s.fwResult status).fld R.MGT_FW_CMD.RESULT = status ∧ (s.fwResult status).flag R.MGT_FW_CMD.DONE = true ∧
      OnlyRegisters fwResultFields s (s.fwResult status) := by
  refine ⟨?_, ?_, ((OnlyRegisters.refl _ s).setFld (by decide) (by decide) status).setFld (by decide) (by decide) 1⟩
  · rw [State.fwResult, State.raise, State.fld_setFld_apart _ _ _ _ (by decide) (by decide), State.fld_setFld_same _ _ _ (by decide)]
    exact Nat.mod_eq_of_lt h
  · rw [State.flag, State.fwResult, State.raise, State.fld_setFld_same _ _ _ (by decide)]
    rfl

/-- The end of a command leaves the fields that it does not show. -/
theorem State.fld_fwResult (s : State) (status : Nat) {g : Field} (h : ∀ f ∈ fwResultFields, Field.Apart g f) :
    (s.fwResult status).fld g = s.fld g :=
  ((((OnlyRegisters.refl fwResultFields s).setFld (f := R.MGT_FW_CMD.RESULT) (by decide) (by decide) status).setFld
    (f := R.MGT_FW_CMD.DONE) (by decide) (by decide) 1).2) g h

theorem execFwSwap_seen {via : Via} (hsees : s.sees via R.MGT_FW_CMD.adr true = true) : execFwSwap via s = .next (
    if s.mgtAway then s.fwResult sNORES
    else if s.flag R.MGT_SET_STATUS.NONE ∨ (s.bank s.olderBank).isNone then s.fwResult sCHECK
    else ({ s with mgt := { s.mgt with swap := some s.tick } }).setFld R.MGT_FW_CMD.BUSY 1) :=
  congrArg Host.Outcome.next (State.gate_seen hsees _)

theorem completes_fwSwap_begins {via : Via} (hsees : s.sees via R.MGT_FW_CMD.adr true = true) (haway : s.mgtAway = false)
    (hnone : s.flag R.MGT_SET_STATUS.NONE = false) (hbank : (s.bank s.olderBank).isSome = true) :
    Completes (.fwSwap via) s fun u => u.mgt = { s.mgt with swap := some s.tick } ∧ u.flag R.MGT_FW_CMD.BUSY = true
      ∧ OnlyFields [R.MGT_FW_CMD.BUSY] s u ∧ SameMemory s u := by
  let t : State := { s with mgt := { s.mgt with swap := some s.tick } }
  have hexec : execFwSwap via s = .next (t.setFld R.MGT_FW_CMD.BUSY 1) := by
    rw [execFwSwap_seen hsees, if_neg (by simp [haway]), if_neg (by simp [hnone, Option.isSome_iff_ne_none.mp hbank])]
  refine ⟨_, hexec, rfl, ?_, OnlyFields.setFld (fun _ _ => rfl) (by decide) (by decide) 1, fun _ => rfl⟩
  rw [State.flag, State.fld_setFld_same _ _ _ (by decide)]
  rfl

theorem State.olderBank_lt (s : State) : s.olderBank < 2 := by
  unfold State.olderBank
  split <;> omega

/-- The state in which a swap ends, before the end is shown: the older bank's image runs where it is valid. -/
def State.swapped (s : State) : State :=
  match s.bank s.olderBank with
  | some rs => s.runFirmware s.olderBank rs
  | none => s

theorem State.swapDone_eq {t : Nat} (h : s.mgt.swap = some t) :
    s.swapDone = (State.setFld { s.swapped with mgt := { s.swapped.mgt with swap := none } } R.MGT_FW_CMD.BUSY 0).fwResult sOK := by
  rw [State.swapDone, if_neg (by simp [h])]
  rfl

theorem State.swapped_frame (s : State) : s.swapped.mgt = s.mgt ∧ s.swapped.hbm = s.hbm := by
  unfold State.swapped
  split <;> exact ⟨rfl, rfl⟩

theorem State.fld_fwSlot_runFirmware (s : State) (b : Nat) (rs : List Rec) :
    (s.runFirmware b rs).fld R.SEC_STATUS.FW_SLOT = b % 2 := by
  have hslot : ((s.setFld R.SEC_STATUS.FW_SLOT b).setFld R.SEC_STATUS.FW_SVN (Config.imageSvn (recOf rs 3))).fld
    R.SEC_STATUS.FW_SLOT = b % 2 :=
    (State.fld_setFld_apart _ _ _ _ (by decide) (by decide)).trans (s.fld_setFld_same _ b (by decide))
  unfold State.runFirmware
  unfold State.fld State.reg at hslot ⊢
  dsimp only
  exact hslot

theorem State.swapped_valid {rs : List Rec} (h : s.bank s.olderBank = some rs) :
    s.swapped.fld R.SEC_STATUS.FW_SLOT = s.olderBank ∧ s.swapped.sec = { s.sec with mFw := measure (recOf rs 3) } := by
  have hrun : s.swapped = s.runFirmware s.olderBank rs := by rw [State.swapped, h]
  rw [hrun]
  exact ⟨(s.fld_fwSlot_runFirmware _ rs).trans (Nat.mod_eq_of_lt s.olderBank_lt), rfl⟩

/-- The end of a swap is shown: what MGT_FW_CMD reads, and what stays. -/
def State.swapShown (s : State) : State :=
  (State.setFld { s with mgt := { s.mgt with swap := none } } R.MGT_FW_CMD.BUSY 0).fwResult sOK

theorem State.swapShown_spec (s : State) : s.swapShown.flag R.MGT_FW_CMD.BUSY = false ∧ s.swapShown.fld R.MGT_FW_CMD.RESULT = sOK ∧
    s.swapShown.flag R.MGT_FW_CMD.DONE = true ∧ s.swapShown.fld R.SEC_STATUS.FW_SLOT = s.fld R.SEC_STATUS.FW_SLOT := by
  let v : State := { s with mgt := { s.mgt with swap := none } }
  have hbusy : ∀ f ∈ fwResultFields, Field.Apart R.MGT_FW_CMD.BUSY f := by unfold Field.Apart; decide
  have hslot : ∀ f ∈ fwResultFields, Field.Apart R.SEC_STATUS.FW_SLOT f := by unfold Field.Apart; decide
  obtain ⟨hresult, hdone, -⟩ := (v.setFld R.MGT_FW_CMD.BUSY 0).fwResult_spec (status := sOK) (by decide)
  refine ⟨?_, hresult, hdone, (State.fld_fwResult _ _ hslot).trans (State.fld_setFld_ne v 0 (by decide))⟩
  rw [State.flag, State.swapShown, State.fld_fwResult _ _ hbusy]
  exact v.flag_setFld_zero _ (by decide)

theorem completes_fwSwapDone {t : Nat} (h : s.mgt.swap = some t) : Completes .fwSwapDone s fun u =>
    u.mgt = { s.mgt with swap := none } ∧ u.flag R.MGT_FW_CMD.BUSY = false ∧ u.fld R.MGT_FW_CMD.RESULT = sOK
      ∧ u.flag R.MGT_FW_CMD.DONE = true ∧ SameMemory s u
      ∧ ∀ rs, s.bank s.olderBank = some rs → u.fld R.SEC_STATUS.FW_SLOT = s.olderBank
          ∧ u.sec = { s.sec with mFw := measure (recOf rs 3) } := by
  have hexec : execFwSwapDone s = .next s.swapped.swapShown := by rw [execFwSwapDone, State.swapDone_eq h]; rfl
  obtain ⟨hmgt, hhbm⟩ := s.swapped_frame
  have hvalid (rs : List Rec) (hrs : s.bank s.olderBank = some rs) := State.swapped_valid hrs
  generalize s.swapped = w at hexec hmgt hhbm hvalid
  obtain ⟨hbusy, hresult, hdone, hslot⟩ := w.swapShown_spec
  refine ⟨_, hexec, ?_, hbusy, hresult, hdone, fun a => ?_, fun rs hrs => ⟨hslot.trans (hvalid rs hrs).1, (hvalid rs hrs).2⟩⟩
  · rw [← hmgt]
    rfl
  · exact congrArg (fun m => FMap.get byteDefault m a) hhbm

/-- Settles O55: cold resets, the two commands behind the key, a PROGRAM from its checks to its end, and a swap. -/
theorem resetsAndUpdates : Obligations.ResetsAndUpdates := by
  refine ⟨fun s => ⟨completes_powerGood, fun hon => congrArg Host.Outcome.next (if_pos hon), fun _ => completes_resetNAssert,
      fun _ h => congrArg Host.Outcome.next (if_pos h)⟩, fun via s hsees => ⟨?_, ?_, ?_, ?_⟩,
    fun via src s hsees => ⟨completes_settingsProgram_busy hsees src, fun hprog hswap hrestart => ⟨fun himage => ?_, fun himage => ?_⟩⟩,
    fun s x hprog => ⟨fun hbank => ?_, fun hbank hnone => ?_⟩, fun via s hsees => ⟨fun haway => ?_, completes_fwSwap_begins hsees,
      fun haway hbank => ?_⟩,
    fun s t => completes_fwSwapDone⟩
  · exact congrArg Host.Outcome.next (State.gate_seen hsees _)
  · exact fun key hkey => ⟨congrArg Host.Outcome.next ((State.gate_seen hsees _).trans (if_neg hkey)),
      fun k => congrArg Host.Outcome.next ((State.gate_seen hsees _).trans (if_neg hkey))⟩
  · exact fun k hrun hqueue => (execSkidderReset_keyed hsees k).trans (congrArg Host.Outcome.next (State.skidderReset_idle hrun hqueue))
  · exact fun k r hrun hqueue hlive =>
      (execSkidderReset_keyed hsees k).trans (congrArg Host.Outcome.next (State.skidderReset_running hrun hqueue hlive))
  · obtain ⟨hresult, hdone, hbusy, honly⟩ := s.setResult_spec (status := sCHECK) (by decide)
    refine ⟨_, (execSettingsProgram_free hsees src hprog hswap hrestart).trans ?_, hresult, hdone, hbusy, honly⟩
    exact congrArg Host.Outcome.next (if_pos (by simp [himage]))
  · exact (execSettingsProgram_free hsees src hprog hswap hrestart).trans (congrArg Host.Outcome.next (if_neg (by simp [himage])))
  · rw [exec_programDone, execProgramDone, hprog]
    exact congrArg Host.Outcome.next (if_pos hbank)
  · rw [exec_programDone, execProgramDone, hprog]
    refine congrArg Host.Outcome.next ((if_neg (by simp [hbank])).trans (if_neg ?_))
    rw [State.flag_none_shown]
    exact ne_true_of_eq_false hnone
  · obtain ⟨hresult, hdone, honly⟩ := s.fwResult_spec (status := sNORES) (by decide)
    exact ⟨_, (execFwSwap_seen hsees).trans (congrArg Host.Outcome.next (if_pos haway)), hresult, hdone, honly⟩
  · exact (execFwSwap_seen hsees).trans (congrArg Host.Outcome.next ((if_neg (by simp [haway])).trans (if_pos (.inr hbank))))

end Sys2Proof.Machine
end

section
/-! ## The life of a partition and of its ranges (R324 to R327) -/

namespace Sys2Proof.Machine

open Sys2Proof

variable {s : State}

/-- A bit reads back what was set. -/
theorem State.flag_setFld_same_one (s : State) (f : Field) (hfits : f.lo + f.w ≤ 64) (hbit : f.w = 1) (b : Bool) :
    (s.setFld f (b2n b)).flag f = b := by
  rw [State.flag, s.fld_setFld_same f _ hfits, hbit]
  cases b <;> rfl

theorem partStatus_ne_prtStatus (p q : Nat) (hp : p < 64) : R.SEC_PART_STATUS.adr p ≠ R.PRT_STATUS.adr q := by
  unfold R.SEC_PART_STATUS.adr R.PRT_STATUS.adr
  omega

theorem partStatus_ne_resetAt (p q : Nat) (hp : p < 64) : R.SEC_PART_STATUS.adr p ≠ R.SEC_PART_RESET_AT.adr q := by
  unfold R.SEC_PART_STATUS.adr R.SEC_PART_RESET_AT.adr
  omega

theorem prtStatus_ne_resetAt (p q : Nat) (hq : q < 64) : R.PRT_STATUS.adr p ≠ R.SEC_PART_RESET_AT.adr q := by
  unfold R.PRT_STATUS.adr R.SEC_PART_RESET_AT.adr
  omega

/-! How commands end. -/

theorem State.partResult_ok (s : State) (p : Nat) : s.partResult p sOK = s.setFld (R.SEC_PART_STATUS.RESULT p) sOK := by
  rw [State.partResult, if_pos rfl]

/-- A refusal is shown in the partition's status and as an event, and changes nothing else. -/
theorem State.partResult_refused (s : State) (p : PartNo) {status : Nat} (hne : status ≠ sOK) (hlt : status < 16) :
    (s.partResult p status).fld (R.SEC_PART_STATUS.RESULT p) = status ∧ (s.partResult p status).flag R.SEC_EVENTS.CMD_DENY = true ∧
      OnlyRegisters [R.SEC_PART_STATUS.RESULT p, R.SEC_EVENTS.CMD_DENY] s (s.partResult p status) := by
  have hdeny : s.partResult p status = (s.setFld (R.SEC_PART_STATUS.RESULT p) status).setFld R.SEC_EVENTS.CMD_DENY 1 := if_neg hne
  have hoff : (R.SEC_PART_STATUS.RESULT p).off ≠ R.SEC_EVENTS.CMD_DENY.off := by
    simp only [R.SEC_PART_STATUS.RESULT, R.SEC_PART_STATUS.adr, R.SEC_EVENTS.CMD_DENY, R.SEC_EVENTS.adr]
    omega
  have hfits : (R.SEC_PART_STATUS.RESULT p).lo + (R.SEC_PART_STATUS.RESULT p).w ≤ 64 := by simp [R.SEC_PART_STATUS.RESULT]
  rw [hdeny]
  refine ⟨?_, State.flag_setFld_same_one _ _ (by decide) rfl true,
    ((OnlyRegisters.refl _ s).setFld (by simp) hfits status).setFld (by simp) (by decide) 1⟩
  rw [State.fld_setFld_ne _ _ hoff, s.fld_setFld_same _ _ hfits]
  exact Nat.mod_eq_of_lt hlt

theorem completes_partEnable {via : Via} {p : PartNo} (hsees : s.sees via R.SEC_PART_CMD.adr true = true) (hstate : s.pstate p =
    psDisabled) :
    Completes (.partEnable via p) s fun u => u.pstate p = psOpen ∧ u.flag (R.PRT_STATUS.ENABLED p) = true
      ∧ u.fld (R.SEC_PART_STATUS.RESULT p) = sOK
      ∧ OnlyRegisters [R.SEC_PART_STATUS.STATE p, R.SEC_PART_STATUS.RESULT p, R.PRT_STATUS.ENABLED p] s u := by
  have hexec : execPartEnable via p s =
      .next (((s.setFld (R.SEC_PART_STATUS.STATE p) psOpen).setFld (R.PRT_STATUS.ENABLED p) 1).setFld (R.SEC_PART_STATUS.RESULT p)
        sOK) := by
    rw [execPartEnable, State.gate_seen hsees, if_pos hstate, State.partResult_ok]
  have hne := partStatus_ne_prtStatus p p p.isLt
  refine ⟨_, hexec, ?_, ?_, State.fld_setFld_same _ _ _ (by simp [R.SEC_PART_STATUS.RESULT]),
    (((OnlyRegisters.refl _ s).setFld (by simp) ?_ _).setFld (by simp) ?_ _).setFld (by simp) ?_ _⟩
  · exact (State.fld_setFld_apart _ _ _ _ (by simp [R.SEC_PART_STATUS.RESULT]) (.inr (by simp [R.SEC_PART_STATUS.STATE,
      R.SEC_PART_STATUS.RESULT]))).trans ((State.fld_setFld_ne _ _ hne).trans
      (s.fld_setFld_same _ _ (by simp [R.SEC_PART_STATUS.STATE])))
  · rw [State.flag, State.fld_setFld_ne _ _ hne.symm]
    exact State.flag_setFld_same_one _ _ (by simp [R.PRT_STATUS.ENABLED]) rfl true
  · simp [R.SEC_PART_STATUS.STATE]
  · simp [R.PRT_STATUS.ENABLED]
  · simp [R.SEC_PART_STATUS.RESULT]

theorem State.sealStatus_lt (s : State) (p : Nat) : s.sealStatus p < 16 := by
  unfold State.sealStatus
  split
  · decide
  split
  · decide
  split <;> decide

theorem execPartSeal_seen {via : Via} (p : PartNo) (hsees : s.sees via R.SEC_PART_CMD.adr true = true) : execPartSeal via p s = .next (
    if s.sealStatus p = sOK then
      let s := { s with sec := { s.sec with sealing := FMap.put s.sec.sealing p s.tick } }
      ((s.setFld (R.SEC_PART_STATUS.SEALING p) 1).noteEarliest p).partResult p sOK
    else s.partResult p (s.sealStatus p)) :=
  congrArg Host.Outcome.next (State.gate_seen hsees _)

/-! The end of a SEAL (R324). -/

/-- SEC_PART_RESET_AT is brought up to date and nothing else changes. -/
theorem State.fld_noteEarliest (s : State) (p : Nat) {g : Field} (h : g.off ≠ R.SEC_PART_RESET_AT.adr p) :
    (s.noteEarliest p).fld g = s.fld g := s.fld_setReg_ne _ h

/-- The registers of a partition that has been sealed. -/
def State.showSealed (s : State) (p : Nat) : State :=
  ((((s.setFld (R.SEC_PART_STATUS.SEALING p) 0).setFld (R.SEC_PART_STATUS.EK p) 1).setFld (R.SEC_PART_STATUS.STATE p) psSealed).setFld
    (R.PRT_STATUS.SEALED p) 1).noteEarliest p

theorem State.showSealed_spec (s : State) (p : PartNo) : (s.showSealed p).pstate p = psSealed ∧
    (s.showSealed p).flag (R.PRT_STATUS.SEALED p) = true ∧ (s.showSealed p).flag (R.SEC_PART_STATUS.SEALING p) = false ∧
    (s.showSealed p).flag (R.SEC_PART_STATUS.EK p) = true := by
  have hpart {g : Field} (hg : g.off = R.SEC_PART_STATUS.adr p) : (s.showSealed p).fld g =
      (((s.setFld (R.SEC_PART_STATUS.SEALING p) 0).setFld (R.SEC_PART_STATUS.EK p) 1).setFld (R.SEC_PART_STATUS.STATE p)
        psSealed).fld g :=
    (State.fld_noteEarliest _ _ (hg ▸ partStatus_ne_resetAt p p p.isLt)).trans
      (State.fld_setFld_ne _ _ (hg ▸ partStatus_ne_prtStatus p p p.isLt))
  have hstate (t : State) {g : Field} (hg : 2 ≤ g.lo) : (t.setFld (R.SEC_PART_STATUS.STATE p) psSealed).fld g = t.fld g :=
    State.fld_setFld_apart _ _ _ _ (by simp [R.SEC_PART_STATUS.STATE]) (.inr (.inr hg))
  refine ⟨?_, ?_, ?_, ?_⟩
  · exact (hpart rfl).trans (State.fld_setFld_same _ _ _ (by simp [R.SEC_PART_STATUS.STATE]))
  · rw [State.flag, State.showSealed, State.fld_noteEarliest _ _ (prtStatus_ne_resetAt p p p.isLt)]
    exact State.flag_setFld_same_one _ _ (by simp [R.PRT_STATUS.SEALED]) rfl true
  · rw [State.flag, hpart rfl, hstate _ (by simp [R.SEC_PART_STATUS.SEALING]),
      State.fld_setFld_apart _ _ _ _ (by simp [R.SEC_PART_STATUS.EK])
      (.inr (by simp [R.SEC_PART_STATUS.SEALING, R.SEC_PART_STATUS.EK]))]
    exact s.flag_setFld_zero _ (by simp [R.SEC_PART_STATUS.SEALING])
  · rw [State.flag, hpart rfl, hstate _ (by simp [R.SEC_PART_STATUS.EK])]
    exact State.flag_setFld_same_one _ _ (by simp [R.SEC_PART_STATUS.EK]) rfl true

/-- A partition has been measured and has its key pair; `r` is the random value that it is made from. -/
def State.sealed (s : State) (p r : Nat) : State :=
  let pair : KeyPair := { ek := Config.kemPublic r, dk := Config.kemSecret r }
  let mc := FMap.set (fun _ => 0) s.sec.mCode p (measure (s.codeBytes p))
  let me := FMap.set (fun _ => 0) s.sec.mEk p (measure (leBytes 1184 pair.ek.toNat))
  { s with sec := { s.sec with sealing := FMap.del s.sec.sealing p, pairs := FMap.put s.sec.pairs p pair, mCode := mc, mEk := me } }

theorem completes_sealComplete {p : PartNo} {t : Nat} (h : FMap.find s.sec.sealing p = some t) : Completes (.sealComplete p) s fun u =>
    u.pstate p = psSealed ∧ u.flag (R.PRT_STATUS.SEALED p) = true ∧ u.flag (R.SEC_PART_STATUS.SEALING p) = false
      ∧ u.flag (R.SEC_PART_STATUS.EK p) = true ∧ FMap.get (fun _ => 0) u.sec.mCode p = measure (s.codeBytes p)
      ∧ (FMap.find u.sec.pairs p).isSome = true ∧ SameMemory s u := by
  have hexec : execSealComplete p s = .next ((State.sealed s.fresh.2 p s.fresh.1).showSealed p) := by
    rw [execSealComplete, h]
    rfl
  obtain ⟨hstate, hsealed, hsealing, hek⟩ := (State.sealed s.fresh.2 p s.fresh.1).showSealed_spec p
  have hcode : s.fresh.2.codeBytes p = s.codeBytes p := rfl
  refine ⟨_, hexec, hstate, hsealed, hsealing, hek, (FMap.get_set_same ..).trans (congrArg measure hcode), ?_, fun _ => rfl⟩
  exact (congrArg Option.isSome (FMap.find_put_same _ _ s.sec.pairs)).trans rfl

/-! The end of a reset (R326). -/

theorem completes_partitionResetDone {p : PartNo} (h : s.resetOver p = true) : Completes (.partitionResetDone p) s fun u =>
    u.pstate p = (if FMap.get (fun _ => false) s.sec.toDisable p then psDisabled else psOpen)
      ∧ u.flag (R.PRT_STATUS.ENABLED p) = !(FMap.get (fun _ => false) s.sec.toDisable p)
      ∧ OnlyFields [R.SEC_PART_STATUS.STATE p, R.PRT_STATUS.ENABLED p] s u ∧ SameMemory s u := by
  let off := FMap.get (fun _ => false) s.sec.toDisable p
  let t : State := { s with sec := { s.sec with toDisable := FMap.set (fun _ => false) s.sec.toDisable p false } }
  have honly : OnlyFields [R.SEC_PART_STATUS.STATE p, R.PRT_STATUS.ENABLED p] s t := fun _ _ => rfl
  have hfits : (R.SEC_PART_STATUS.STATE p).lo + (R.SEC_PART_STATUS.STATE p).w ≤ 64 := by simp [R.SEC_PART_STATUS.STATE]
  refine ⟨(t.setFld (R.SEC_PART_STATUS.STATE p) (if off then psDisabled else psOpen)).setFld (R.PRT_STATUS.ENABLED p) (b2n !off),
    congrArg Host.Outcome.next (if_neg (not_not_intro h)), ?_, State.flag_setFld_same_one _ _ (by simp [R.PRT_STATUS.ENABLED]) rfl _,
    (honly.setFld (by simp) hfits _).setFld (by simp) (by simp [R.PRT_STATUS.ENABLED]) _, fun _ => rfl⟩
  refine (State.fld_setFld_ne _ _ (partStatus_ne_prtStatus p p p.isLt)).trans ((t.fld_setFld_same _ _ hfits).trans ?_)
  change (if off then psDisabled else psOpen) % 2 ^ 2 = if off then psDisabled else psOpen
  cases off <;> rfl

/-! Ranges (R326, R327). -/

theorem State.rangeResult_spec (s : State) {status : Nat} (h : status < 16) :
    (s.rangeResult status).fld R.SEC_RANGE_STATUS.RESULT = status ∧ (s.rangeResult status).flag R.SEC_RANGE_STATUS.DONE = true ∧
      (status ≠ sOK → (s.rangeResult status).flag R.SEC_EVENTS.CMD_DENY = true) ∧
      OnlyRegisters [R.SEC_RANGE_STATUS.RESULT, R.SEC_RANGE_STATUS.DONE, R.SEC_EVENTS.CMD_DENY] s (s.rangeResult status) := by
  let t := (s.setFld R.SEC_RANGE_STATUS.RESULT status).setFld R.SEC_RANGE_STATUS.DONE 1
  have hresult : t.fld R.SEC_RANGE_STATUS.RESULT = status :=
    (State.fld_setFld_apart _ _ _ _ (by decide) (by decide)).trans ((s.fld_setFld_same _ _ (by decide)).trans (Nat.mod_eq_of_lt h))
  have hdone : t.flag R.SEC_RANGE_STATUS.DONE = true := State.flag_setFld_same_one _ _ (by decide) rfl true
  have honly : OnlyRegisters [R.SEC_RANGE_STATUS.RESULT, R.SEC_RANGE_STATUS.DONE, R.SEC_EVENTS.CMD_DENY] s t :=
    ((OnlyRegisters.refl _ s).setFld (by simp) (by decide) status).setFld (by simp) (by decide) 1
  by_cases hok : status = sOK
  · have heq : s.rangeResult status = t := if_pos hok
    rw [heq]
    exact ⟨hresult, hdone, fun hne => absurd hok hne, honly⟩
  · have heq : s.rangeResult status = t.setFld R.SEC_EVENTS.CMD_DENY 1 := if_neg hok
    rw [heq, State.flag, State.fld_setFld_ne t 1 (f := R.SEC_EVENTS.CMD_DENY) (g := R.SEC_RANGE_STATUS.RESULT) (by decide),
      State.fld_setFld_ne t 1 (f := R.SEC_EVENTS.CMD_DENY) (g := R.SEC_RANGE_STATUS.DONE) (by decide)]
    exact ⟨hresult, hdone, fun _ => State.flag_setFld_same_one _ _ (by decide) rfl true, honly.setFld (by simp) (by decide) 1⟩

/-- The fields of a range as RANGE_ADD writes them, lowest first. -/
def rangeFields (base size p kind : Nat) : List (Nat × Nat × Nat) := [(0, 28, base), (28, 16, size), (44, 6, p), (50, 1, kind),
    (51, 2, 1)]

/-- A range register that RANGE_ADD has written reads back field by field. -/
theorem State.fld_rangeAdded (s : State) (i : Nat) {base size p kind : Nat} (hbase : base < 2 ^ 28) (hsize : size < 2 ^ 16) (hp : p
    < 2 ^ 6)
    (hkind : kind < 2 ^ 1) {f : Nat × Nat × Nat} (hf : f ∈ rangeFields base size p kind) :
    (s.setReg (R.SEC_RANGE.adr i) (BitVec.ofNat 64 (packBits ((rangeFields base size p kind).map fun f => (f.1, f.2.2))))).fld
      ⟨R.SEC_RANGE.adr i, f.1, f.2.1⟩ = f.2.2 := by
  have hstack : Stacked 0 (rangeFields base size p kind) 64 := by
    simp only [rangeFields, Stacked]
    omega
  obtain ⟨hlt, -, hfields⟩ := packFields_stacked hstack (n := 0) (by decide)
  rw [State.fld, State.reg_setReg_same, packBits_map, BitVec.toNat_ofNat, Nat.mod_eq_of_lt hlt]
  exact hfields f hf

theorem rangeAdr_ne_status (i : Fin 256) : R.SEC_RANGE.adr i ≠ R.SEC_RANGE_STATUS.adr := by
  unfold R.SEC_RANGE.adr R.SEC_RANGE_STATUS.adr
  omega

theorem rangeAdr_ne_events (i : Fin 256) : R.SEC_RANGE.adr i ≠ R.SEC_EVENTS.adr := by
  unfold R.SEC_RANGE.adr R.SEC_EVENTS.adr
  omega

/-- How a command on ranges ends does not change the ranges. -/
theorem State.fld_range_rangeResult (s : State) (i : Fin 256) {status : Nat} (h : status < 16) {g : Field} (hg : g.off =
    R.SEC_RANGE.adr i) :
    (s.rangeResult status).fld g = s.fld g := by
  obtain ⟨-, -, -, -, honly⟩ := s.rangeResult_spec h
  refine honly g ?_
  simp only [List.forall_mem_cons, List.not_mem_nil, false_implies, implies_true, and_true]
  exact ⟨.inl (hg ▸ rangeAdr_ne_status i), .inl (hg ▸ rangeAdr_ne_status i), .inl (hg ▸ rangeAdr_ne_events i)⟩

theorem execRangeAdd_seen {via : Via} (hsees : s.sees via R.SEC_RANGE_CMD.adr true = true) (i : Fin 256) (secret : Bool) (p : PartNo)
    (base : BitVec 28) (size : BitVec 16) : execRangeAdd via i secret p base size s = .next (
      if s.mayAdd i (b2n secret) p base.toNat size.toNat then
        (s.setReg (R.SEC_RANGE.adr i) (BitVec.ofNat 64
          (packBits ((rangeFields base.toNat size.toNat p.val (b2n secret)).map fun f => (f.1, f.2.2))))).rangeResult sOK
      else s.rangeResult sCHECK) :=
  congrArg Host.Outcome.next (State.gate_seen hsees _)

theorem completes_rangeAdd {via : Via} {i : Fin 256} {secret : Bool} {p : PartNo} {base : BitVec 28} {size : BitVec 16}
    (hsees : s.sees via R.SEC_RANGE_CMD.adr true = true) (hmay : s.mayAdd i (b2n secret) p base.toNat size.toNat = true) :
    Completes (.rangeAdd via i secret p base size) s fun u =>
      u.fld (R.SEC_RANGE.BASE i) = base.toNat ∧ u.fld (R.SEC_RANGE.SIZE i) = size.toNat ∧ u.fld (R.SEC_RANGE.PART i) = p.val
        ∧ u.flag (R.SEC_RANGE.KIND i) = secret ∧ u.fld (R.SEC_RANGE.STATE i) = 1
        ∧ u.fld R.SEC_RANGE_STATUS.RESULT = sOK ∧ u.flag R.SEC_RANGE_STATUS.DONE = true ∧ u = { s with regs := u.regs } := by
  have hexec := (execRangeAdd_seen hsees i secret p base size).trans (congrArg Host.Outcome.next (if_pos hmay))
  have hkind : b2n secret < 2 ^ 1 := by cases secret <;> decide
  have hread {f : Nat × Nat × Nat} (hf : f ∈ rangeFields base.toNat size.toNat p.val (b2n secret)) :=
    (State.fld_range_rangeResult _ i (status := sOK) (by decide) (g := ⟨R.SEC_RANGE.adr i, f.1, f.2.1⟩) rfl).trans
      (s.fld_rangeAdded i base.isLt size.isLt p.isLt hkind hf)
  obtain ⟨hresult, hdone, -, hregs, -⟩ := State.rangeResult_spec (s.setReg (R.SEC_RANGE.adr i) (BitVec.ofNat 64
    (packBits ((rangeFields base.toNat size.toNat p.val (b2n secret)).map fun f => (f.1, f.2.2))))) (status := sOK) (by decide)
  refine ⟨_, hexec, hread (f := (0, 28, _)) (by simp [rangeFields]), hread (f := (28, 16, _)) (by simp [rangeFields]),
    hread (f := (44, 6, _)) (by simp [rangeFields]), ?_, hread (f := (51, 2, 1)) (by simp [rangeFields]), hresult, hdone, hregs⟩
  rw [State.flag, show R.SEC_RANGE.KIND i = ⟨R.SEC_RANGE.adr i, 50, 1⟩ from rfl, hread (f := (50, 1, b2n secret)) (by simp [rangeFields])]
  cases secret <;> rfl

theorem execRangeRemove_seen {via : Via} (hsees : s.sees via R.SEC_RANGE_CMD.adr true = true) (i : Fin 256) :
    execRangeRemove via i s = .next ((if s.removeStatus i ≠ sOK then s
      else if s.flag (R.SEC_RANGE.KIND i) then s.scrubRange i else s.freeRange i).rangeResult (s.removeStatus i)) :=
  congrArg Host.Outcome.next (State.gate_seen hsees _)

theorem completes_scrubDone {i : Fin 256} (hold : FMap.find s.sec.oldScrubs i = none) (hwf : Memory.wf s.hbm = true)
    (hstate : s.fld (R.SEC_RANGE.STATE i) = 2) : Completes (.scrubDone i) s fun u =>
      u.fld (R.SEC_RANGE.STATE i) = 0 ∧
        (∀ a, 65536 * s.fld (R.SEC_RANGE.BASE i) ≤ a →
          a < 65536 * s.fld (R.SEC_RANGE.BASE i) + 65536 * s.fld (R.SEC_RANGE.SIZE i) → u.byte a = 0) ∧
        (∀ a, a < 65536 * s.fld (R.SEC_RANGE.BASE i) ∨
          65536 * s.fld (R.SEC_RANGE.BASE i) + 65536 * s.fld (R.SEC_RANGE.SIZE i) ≤ a → u.byte a = s.byte a) := by
  let z := s.zeroBytes (65536 * s.fld (R.SEC_RANGE.BASE i)) (65536 * s.fld (R.SEC_RANGE.SIZE i))
  have hexec : execScrubDone i s = .next (z.freeRange i).noteScrubs := by
    rw [execScrubDone, hold]
    exact congrArg Host.Outcome.next (if_neg (not_not_intro hstate))
  have hbyte (a : Nat) : (z.freeRange i).noteScrubs.byte a = z.byte a := rfl
  refine ⟨_, hexec, ?_, fun a hlo hhi => ?_, fun a hout => ?_⟩
  · refine (State.fld_setFld_ne _ _ (rangeAdr_ne_status i)).trans ((State.fld_setFld_ne _ _ (rangeAdr_ne_status i)).trans ?_)
    exact State.fld_of_reg_eq_zero (State.reg_setReg_same ..)
  · rw [hbyte, s.byte_zeroBytes _ _ _ hwf, if_pos ⟨hlo, hhi⟩]
  · rw [hbyte, s.byte_zeroBytes _ _ _ hwf, if_neg (by omega)]

/-- Settles O51: per command, by whether it is accepted. -/
theorem partitions : Obligations.Partitions := by
  refine ⟨fun via p s hsees => ⟨completes_partEnable hsees, fun hstate => ?_, fun hseal => ?_, fun hseal => ?_, fun low => ⟨?_, ?_⟩⟩,
    fun p s t => completes_sealComplete, fun p s T hT => ⟨fun hT' hearliest => ?_, fun hearly => ?_⟩,
    fun p s => ⟨completes_partitionResetDone, fun hover => congrArg Host.Outcome.next (if_pos (by simp [hover]))⟩,
    fun via i secret p base size s hsees => ⟨completes_rangeAdd hsees, fun hmay => ?_, fun hok hkind => ?_, fun hok hkind => ?_,
      fun hbad => ?_⟩,
    fun i s hold hwf => ⟨completes_scrubDone hold hwf, fun hstate => ?_⟩⟩
  · obtain ⟨hresult, hdeny, honly⟩ := s.partResult_refused p (status := sCHECK) (by decide) (by decide)
    refine ⟨_, congrArg Host.Outcome.next ((State.gate_seen hsees _).trans (if_neg hstate)), hresult, hdeny, honly⟩
  · exact (execPartSeal_seen p hsees).trans (congrArg Host.Outcome.next (if_pos hseal))
  · exact ⟨_, (execPartSeal_seen p hsees).trans (congrArg Host.Outcome.next (if_neg hseal)),
      s.partResult_refused p hseal (s.sealStatus_lt p)⟩
  · exact fun hmay => ⟨congrArg Host.Outcome.next ((State.gate_seen hsees _).trans (if_pos hmay)),
      congrArg Host.Outcome.next ((State.gate_seen hsees _).trans (if_pos hmay))⟩
  · exact fun hmay => ⟨congrArg Host.Outcome.next ((State.gate_seen hsees _).trans (if_neg (ne_true_of_eq_false hmay))),
      congrArg Host.Outcome.next ((State.gate_seen hsees _).trans (if_neg (ne_true_of_eq_false hmay)))⟩
  · rw [exec_partitionReset, execPartitionReset, hT]
    exact congrArg Host.Outcome.next (if_pos ⟨hT', hearliest⟩)
  · rw [exec_partitionReset, execPartitionReset, hT]
    exact congrArg Host.Outcome.next (if_neg (by omega))
  · obtain ⟨hresult, -, hdeny, honly⟩ := s.rangeResult_spec (status := sCHECK) (by decide)
    exact ⟨_, (execRangeAdd_seen hsees i secret p base size).trans (congrArg Host.Outcome.next (if_neg (ne_true_of_eq_false
      hmay))), hresult,
      hdeny (by decide), honly⟩
  · rw [exec_rangeRemove, execRangeRemove_seen hsees, hok, if_neg (not_not_intro rfl), if_neg (ne_true_of_eq_false hkind)]
  · rw [exec_rangeRemove, execRangeRemove_seen hsees, hok, if_neg (not_not_intro rfl), if_pos hkind]
  · rw [exec_rangeRemove, execRangeRemove_seen hsees, if_pos hbad]
  · rw [exec_scrubDone, execScrubDone, hold]
    exact congrArg Host.Outcome.next (if_pos hstate)

end Sys2Proof.Machine
end

section
/-! ## Keys, quotes, loads and debug sessions (R333 to R340) -/

namespace Sys2Proof.Machine

open Sys2Proof

variable {s : State}

/-! The end of an unwrap (R336). -/

/-- The end of a SEC_KEY_CMD leaves every other register. -/
theorem State.fld_keyResult_ne (s : State) (status : Nat) {g : Field} (h : g.off ≠ R.SEC_KEY_STATUS.adr) :
    (s.keyResult status).fld g = s.fld g :=
  (State.fld_setFld_ne _ _ h).trans ((State.fld_setFld_ne _ _ h).trans (State.fld_setFld_ne _ _ h))

theorem State.keyResult_spec (s : State) (status : Nat) : (s.keyResult status).flag R.SEC_KEY_STATUS.BUSY = false ∧
    (s.keyResult status).fld R.SEC_KEY_STATUS.RESULT = status % 2 ^ R.SEC_KEY_STATUS.RESULT.w ∧
    (s.keyResult status).flag R.SEC_KEY_STATUS.DONE = true := by
  refine ⟨?_, ?_, State.flag_setFld_same_one _ _ (by decide) rfl true⟩
  · rw [State.flag, State.keyResult, State.raise, State.fld_setFld_apart _ _ _ _ (by decide) (by decide),
      State.fld_setFld_apart _ _ _ _ (by decide) (by decide)]
    exact s.flag_setFld_zero _ (by decide)
  · exact (State.fld_setFld_apart _ _ _ _ (by decide) (by decide)).trans (State.fld_setFld_same _ _ _ (by decide))

/-- The state in which an unwrap without a key ends, before its status is shown. -/
def State.unwrapFailed (s : State) (tag : Bool) : State :=
  let t : State := State.count { s with sec := { s.sec with unwrap := none } } R.SEC_COUNTS.UNWRAPS_FAILED
  if tag then t.raise R.SEC_EVENTS.UNWRAP_FAIL else t

theorem State.unwrapFailed_spec (s : State) (tag : Bool) : (tag = true → (s.unwrapFailed tag).flag R.SEC_EVENTS.UNWRAP_FAIL = true) ∧
    (s.unwrapFailed tag).sec.keys = s.sec.keys ∧ (s.unwrapFailed tag).fld R.SEC_COUNTS.UNWRAPS_FAILED =
      (s.fld R.SEC_COUNTS.UNWRAPS_FAILED + 1) % 2 ^ R.SEC_COUNTS.UNWRAPS_FAILED.w ∧ SameMemory s (s.unwrapFailed tag) := by
  let t : State := { s with sec := { s.sec with unwrap := none } }
  have hcount : (t.count R.SEC_COUNTS.UNWRAPS_FAILED).fld R.SEC_COUNTS.UNWRAPS_FAILED =
      (s.fld R.SEC_COUNTS.UNWRAPS_FAILED + 1) % 2 ^ R.SEC_COUNTS.UNWRAPS_FAILED.w := t.fld_addFld_same _ 1 (by decide)
  cases tag with
  | true => exact ⟨fun _ => State.flag_setFld_same_one _ _ (by decide) rfl true, rfl,
    (State.fld_setFld_ne _ _ (by decide)).trans hcount, fun _ => rfl⟩
  | false => exact ⟨nofun, rfl, hcount, fun _ => rfl⟩

theorem completes_unwrapDone_failed {u : Unwrap} {st : Nat} {tag : Bool} (hu : s.sec.unwrap = some u)
    (hend : s.unwrapEnd u = (st, tag, none)) : Completes .unwrapDone s fun t =>
      t.flag R.SEC_KEY_STATUS.BUSY = false ∧ t.fld R.SEC_KEY_STATUS.RESULT = st % 2 ^ R.SEC_KEY_STATUS.RESULT.w
        ∧ t.flag R.SEC_KEY_STATUS.DONE = true ∧ (tag = true → t.flag R.SEC_EVENTS.UNWRAP_FAIL = true)
        ∧ t.sec.keys = s.sec.keys ∧ t.fld R.SEC_COUNTS.UNWRAPS_FAILED =
          (s.fld R.SEC_COUNTS.UNWRAPS_FAILED + 1) % 2 ^ R.SEC_COUNTS.UNWRAPS_FAILED.w ∧ SameMemory s t := by
  have hexec : execUnwrapDone s = .next ((s.unwrapFailed tag).keyResult st) := by
    rw [execUnwrapDone, hu]
    dsimp only
    rw [hend]
    rfl
  obtain ⟨hfail, hkeys, hcount, hmem⟩ := s.unwrapFailed_spec tag
  obtain ⟨hbusy, hresult, hdone⟩ := (s.unwrapFailed tag).keyResult_spec st
  refine ⟨_, hexec, hbusy, hresult, hdone, fun htag => ?_, hkeys, (State.fld_keyResult_ne _ _ (by decide)).trans hcount, hmem⟩
  rw [State.flag, State.fld_keyResult_ne _ _ (by decide)]
  exact hfail htag

theorem execUnwrapDone_released {u : Unwrap} {st : Nat} {tag : Bool} {k : KeySlot} (hu : s.sec.unwrap = some u)
    (hend : s.unwrapEnd u = (st, tag, some k)) : execUnwrapDone s =
      let t : State := { s with sec := { s.sec with unwrap := none, keys := FMap.put s.sec.keys (16 * u.part + u.slot) k } }
      .next ((if tag then (t.noteSlots u.part).raise R.SEC_EVENTS.UNWRAP_FAIL else t.noteSlots u.part).keyResult st) := by
  rw [execUnwrapDone, hu]
  dsimp only
  rw [hend]

/-! Debug sessions at the management port (R340). -/

/-- The two fields of SEC_DEBUG_CTL that a session at the management port changes. -/
def portSessionFields : List Field := [R.SEC_DEBUG_CTL.SESSION, R.SEC_DEBUG_CTL.COUNTED]

theorem State.flag_jtag_setSession (t : State) (v : Nat) :
    (t.setFld R.SEC_DEBUG_CTL.SESSION v).flag R.SEC_DEBUG_CTL.JTAG = t.flag R.SEC_DEBUG_CTL.JTAG := by
  rw [State.flag, t.fld_setFld_apart _ _ v (by decide) (.inr (.inr (by decide))), State.flag]

theorem State.fld_counted_setSession (t : State) (v : Nat) :
    (t.setFld R.SEC_DEBUG_CTL.SESSION v).fld R.SEC_DEBUG_CTL.COUNTED = t.fld R.SEC_DEBUG_CTL.COUNTED :=
  t.fld_setFld_apart _ _ v (by decide) (.inr (.inr (by decide)))

theorem completes_debugOpen {via : Via} (hsees : s.sees via R.SEC_DEBUG_CTL.adr true = true)
    (hclosed : s.flag R.SEC_DEBUG_CTL.SESSION = false) : Completes (.debugOpen via) s fun u =>
      u.flag R.SEC_DEBUG_CTL.SESSION = true ∧ u.flag R.SEC_DEBUG_CTL.COUNTED = false ∧ OnlyRegisters portSessionFields s u := by
  refine ⟨(s.setFld R.SEC_DEBUG_CTL.SESSION 1).setFld R.SEC_DEBUG_CTL.COUNTED 0,
    congrArg Host.Outcome.next ((State.gate_seen hsees _).trans (if_neg (ne_true_of_eq_false hclosed))), ?_, State.flag_counted_cleared _,
    ((OnlyRegisters.refl _ s).setFld (by decide) (by decide) 1).setFld (by decide) (by decide) 0⟩
  rw [State.flag, State.fld_setCounted _ _ (by decide)]
  exact s.flag_setFld_same_one _ (by decide) rfl true

theorem completes_debugClose {via : Via} (hsees : s.sees via R.SEC_DEBUG_CTL.adr true = true) : Completes (.debugClose via) s fun u =>
    u.flag R.SEC_DEBUG_CTL.SESSION = false
      ∧ (s.flag R.SEC_DEBUG_CTL.JTAG = false → u.flag R.SEC_DEBUG_CTL.COUNTED = false)
      ∧ (s.flag R.SEC_DEBUG_CTL.JTAG = true → u.fld R.SEC_DEBUG_CTL.COUNTED = s.fld R.SEC_DEBUG_CTL.COUNTED)
      ∧ OnlyRegisters portSessionFields s u := by
  let u := s.setFld R.SEC_DEBUG_CTL.SESSION 0
  have hexec : execDebugClose via s = .next u.sessionClosed := congrArg Host.Outcome.next (State.gate_seen hsees _)
  have honly : OnlyRegisters portSessionFields s u := (OnlyRegisters.refl _ s).setFld (by decide) (by decide) 0
  have hclosed : u.flag R.SEC_DEBUG_CTL.SESSION = false := s.flag_setFld_zero _ (by decide)
  have hjtag : u.flag R.SEC_DEBUG_CTL.JTAG = s.flag R.SEC_DEBUG_CTL.JTAG := s.flag_jtag_setSession 0
  cases hother : s.flag R.SEC_DEBUG_CTL.JTAG with
  | true =>
    have hopen : u.session = true := by rw [State.session, hjtag, hother, Bool.or_true]
    exact ⟨u, hexec.trans (congrArg Host.Outcome.next (State.sessionClosed_open hopen)), hclosed, nofun,
      fun _ => s.fld_counted_setSession 0, honly⟩
  | false =>
    have hlast : u.session = false := by rw [State.session, hjtag, hother, hclosed, Bool.false_or]
    refine ⟨u.setFld R.SEC_DEBUG_CTL.COUNTED 0, hexec.trans (congrArg Host.Outcome.next (State.sessionClosed_last hlast)), ?_,
      fun _ => u.flag_counted_cleared, nofun, honly.setFld (by decide) (by decide) 0⟩
    rw [State.flag, State.fld_setCounted _ _ (by decide)]
    exact hclosed

/-- Settles O52: each command by the checks that it makes in turn; the ends of an unwrap, a quote and a chunk by what they find. -/
theorem keysQuotesLoads : Obligations.KeysQuotesLoads := by
  refine ⟨fun via p slot src s hsees => ⟨fun hidle => ⟨?_, ?_⟩, fun hbusy => ⟨?_, ?_⟩⟩,
    fun s u st tag hu => ⟨fun k hend => execUnwrapDone_released hu hend, fun hend => completes_unwrapDone_failed hu hend⟩,
    fun via p dst s hsees => ⟨fun hbusy => ?_, fun hidle hid => ⟨fun hdst => ?_, fun hdst => ?_⟩⟩,
    fun s q hq => ⟨fun a r s2 hdst hok hrec => ?_, fun r s2 hdst hrec => ?_⟩,
    fun via range slot first count token s hsees => ⟨fun hfull => ?_, fun hroom hbad => ?_, fun hroom hok => ?_⟩,
    fun e s c l rest hc hl => ⟨fun plain hgood => ?_, fun st tag hbad hfirst => ?_⟩,
    fun via s hsees => ⟨completes_debugOpen hsees, fun hopen => ?_, completes_debugClose hsees⟩⟩
  · exact congrArg Host.Outcome.next ((State.gate_seen hsees _).trans (if_neg (ne_true_of_eq_false hidle)))
  · exact congrArg Host.Outcome.next ((State.gate_seen hsees _).trans (if_neg (ne_true_of_eq_false hidle)))
  · exact congrArg Host.Outcome.next ((State.gate_seen hsees _).trans (if_pos hbusy))
  · exact congrArg Host.Outcome.next ((State.gate_seen hsees _).trans (if_pos hbusy))
  · exact congrArg Host.Outcome.next ((State.gate_seen hsees _).trans (if_pos hbusy))
  · rw [exec_quoteGo, execQuoteGo, State.gate_seen hsees, if_neg (ne_true_of_eq_false hidle), if_neg (not_not_intro hid),
      if_neg (not_not_intro hdst)]
  · rw [exec_quoteGo, execQuoteGo, State.gate_seen hsees, if_neg (ne_true_of_eq_false hidle), if_neg (not_not_intro hid),
      if_pos (ne_true_of_eq_false hdst)]
  · rw [exec_quoteDone, execQuoteDone, hq]
    dsimp only
    rw [hdst]
    dsimp only
    rw [if_neg (not_not_intro hok), hrec]
  · rw [exec_quoteDone, execQuoteDone, hq]
    dsimp only
    rw [hdst]
    dsimp only
    rw [hrec]
  · exact congrArg Host.Outcome.next ((State.gate_seen hsees _).trans (if_pos hfull))
  · rw [exec_loadGo, execLoadGo, State.gate_seen hsees, if_neg (by omega)]
    exact congrArg Host.Outcome.next (if_pos hbad)
  · rw [exec_loadGo, execLoadGo, State.gate_seen hsees, if_neg (by omega)]
    exact congrArg Host.Outcome.next (if_neg (not_not_intro hok))
  · rw [exec_chunkDone, execChunkDone, hc, hl]
    dsimp only
    rw [hgood]
  · rw [exec_chunkDone, execChunkDone, hc, hl]
    dsimp only
    rw [hbad]
    dsimp only
    rw [hfirst]
  · exact congrArg Host.Outcome.next ((State.gate_seen hsees _).trans (if_pos hopen))

end Sys2Proof.Machine
end

section
/-! ## Counter blocks, the trace, debug access and accumulators (R340, R341, R393 to R400) -/

namespace Sys2Proof.Machine

open Sys2Proof

variable {s : State}

/-! The trace (R398). -/

theorem execTraceArmedStart_due (hrun : s.flag R.TEL_TRACE_CTL.RUN = true) (harm : s.flag R.TEL_TRACE_CTL.ARM = true)
    (hidle : s.flag R.TEL_TRACE_STATUS.RUNNING = false) (hstart : s.tick % 2 ^ 16 = s.fld R.TEL_TRACE_CTL.START) :
    execTraceArmedStart s = .next (s.setFld R.TEL_TRACE_STATUS.RUNNING 1) :=
  congrArg Host.Outcome.next (if_pos ⟨hrun, harm, ne_true_of_eq_false hidle, hstart⟩)

theorem execTraceArmedStart_early (hstart : s.tick % 2 ^ 16 ≠ s.fld R.TEL_TRACE_CTL.START) : execTraceArmedStart s = .next s :=
  congrArg Host.Outcome.next (if_neg fun h => hstart h.2.2.2)

/-- A field above bit 0 does not see that bit 0 is set. -/
theorem getBits_or_one (v : Word) {lo : Nat} (w : Nat) (h : 1 ≤ lo) : getBits (v ||| 1).toNat lo w = getBits v.toNat lo w := by
  have hone : (1 : Nat) / 2 ^ lo = 0 := Nat.div_eq_of_lt (Nat.one_lt_two_pow (by omega))
  rw [getBits, getBits, BitVec.toNat_or, ← Nat.shiftRight_eq_div_pow, Nat.shiftRight_or_distrib, Nat.shiftRight_eq_div_pow,
    Nat.shiftRight_eq_div_pow]
  rw [show (1 : Word).toNat = 1 from rfl, hone, Nat.or_zero]

theorem or_one_mod_two (v : Word) : (v ||| 1).toNat % 2 = 1 := by
  rw [BitVec.toNat_or]
  exact Nat.or_mod_two_eq_one.mpr (.inr rfl)

/-- Started with RUN clear, the trace shows what was written and counts from 0. -/
theorem State.writeTraceCtl_started {v : Nat} (hrun : s.flag R.TEL_TRACE_CTL.RUN = false) (hodd : v % 2 = 1)
    (hpoint : goodPoint (getBits v 6 10) = true) : s.writeTraceCtl v =
      let u := (((s.setFld ⟨R.TEL_TRACE_CTL.adr, 1, 5⟩ (getBits v 1 5)).setFld R.TEL_TRACE_CTL.POINT (getBits v 6 10)).setFld
        R.TEL_TRACE_CTL.START (getBits v 32 16)).setFld R.TEL_TRACE_CTL.RUN 1
      (u.setFld R.TEL_TRACE_STATUS.WRITTEN 0).setFld R.TEL_TRACE_STATUS.RUNNING (b2n (!u.flag R.TEL_TRACE_CTL.ARM)) := by
  have hbit : bitOf v 0 = true := by simp [bitOf, hodd]
  rw [State.writeTraceCtl, hrun, if_neg (by simp), if_pos (by simp [hbit]), State.setTrace, hodd]
  dsimp only
  rw [if_pos hpoint]

theorem completes_traceRun {via : Via} {v : Word} (hsees : s.sees via R.TEL_TRACE_CTL.adr true = true)
    (hrun : s.flag R.TEL_TRACE_CTL.RUN = false) (hpoint : goodPoint (getBits v.toNat 6 10) = true) :
    Completes (.traceRun via v) s fun u =>
      u.flag R.TEL_TRACE_CTL.RUN = true ∧ u.fld R.TEL_TRACE_CTL.POINT = getBits v.toNat 6 10
        ∧ u.fld R.TEL_TRACE_CTL.START = getBits v.toNat 32 16 ∧ u.fld R.TEL_TRACE_STATUS.WRITTEN = 0
        ∧ u.flag R.TEL_TRACE_STATUS.RUNNING = !(u.flag R.TEL_TRACE_CTL.ARM) ∧ u = { s with regs := u.regs } := by
  have hexec : execTraceRun via v s = .next (s.writeTraceCtl (v ||| 1).toNat) := congrArg Host.Outcome.next (State.gate_seen hsees _)
  have hstarted := State.writeTraceCtl_started hrun (or_one_mod_two v) (by rwa [getBits_or_one v 10 (by decide)])
  rw [getBits_or_one v 5 (by decide), getBits_or_one v 10 (by decide), getBits_or_one v 16 (by decide)] at hstarted
  refine ⟨_, hexec.trans (congrArg Host.Outcome.next hstarted), ?_⟩
  dsimp only
  generalize htrace : s.setFld ⟨R.TEL_TRACE_CTL.adr, 1, 5⟩ (getBits v.toNat 1 5) = s1
  generalize hu : ((s1.setFld R.TEL_TRACE_CTL.POINT (getBits v.toNat 6 10)).setFld R.TEL_TRACE_CTL.START
    (getBits v.toNat 32 16)).setFld R.TEL_TRACE_CTL.RUN 1 = u
  have hctl (g : Field) (hg : g.off = R.TEL_TRACE_CTL.adr) (n : Nat) :
      ((u.setFld R.TEL_TRACE_STATUS.WRITTEN 0).setFld R.TEL_TRACE_STATUS.RUNNING n).fld g = u.fld g := by
    rw [State.fld_setFld_ne _ _ (by rw [hg]; decide), State.fld_setFld_ne _ _ (by rw [hg]; decide)]
  refine ⟨?_, ?_, ?_, ?_, ?_, ?_⟩
  · rw [State.flag, hctl _ rfl, ← hu, State.fld_setFld_same _ _ _ (by decide)]
    rfl
  · rw [hctl _ rfl, ← hu, State.fld_setFld_apart _ _ _ _ (by decide) (by decide),
      State.fld_setFld_apart _ _ _ _ (by decide) (by decide),
      State.fld_setFld_same _ _ _ (by decide)]
    exact Nat.mod_eq_of_lt (getBits_lt _ _ _)
  · rw [hctl _ rfl, ← hu, State.fld_setFld_apart _ _ _ _ (by decide) (by decide), State.fld_setFld_same _ _ _ (by decide)]
    exact Nat.mod_eq_of_lt (getBits_lt _ _ _)
  · rw [State.fld_setFld_apart _ _ _ _ (by decide) (by decide), State.fld_setFld_same _ _ _ (by decide)]
    rfl
  · rw [State.flag_setFld_same_one _ _ (by decide) rfl, State.flag, State.flag, hctl _ rfl]
  · rw [← hu, ← htrace]
    rfl

/-! The Debug Epoch (R341). -/

theorem State.failEpoch_idle (h : s.sec.raising = none) : s.failEpoch = s := by
  rw [State.failEpoch, h]
  rfl

theorem State.endSealedRead_none (h : s.tel.dbg = none) (ok : Bool) : s.endSealedRead ok = s := by
  rw [State.endSealedRead, h]

theorem State.failEpoch_alone {t : Nat} (h : s.sec.raising = some t) (hdbg : s.tel.dbg = none) :
    s.failEpoch = { s with sec := { s.sec with raising := none } } := by
  rw [State.failEpoch, h]
  exact State.endSealedRead_none (s := { s with sec := { s.sec with raising := none } }) hdbg false

/-- What a raise of the Debug Epoch shows, where no read waited for it and no session is open. -/
def State.epochRaised (s : State) : State :=
  let e := (s.fld R.SEC_DEBUG_EPOCH.EPOCH + 1) % 2 ^ 64
  let t := ((({ s with sec := { s.sec with raising := none } } : State).setFld R.SEC_DEBUG_EPOCH.EPOCH e).journal itDEBUG 0 e)
  ({ t with sec := { t.sec with dbgBoot := true } } : State).raise R.SEC_EVENTS.DEBUG_READ

theorem State.epochRaised_frame (s : State) : ∃ regs mgt, s.epochRaised =
    { s with regs := regs, mgt := mgt, sec := { s.sec with raising := none, dbgBoot := true } } := by
  rw [State.epochRaised]
  dsimp only
  generalize (s.fld R.SEC_DEBUG_EPOCH.EPOCH + 1) % 2 ^ 64 = e
  obtain ⟨mgt, h⟩ := (({ s with sec := { s.sec with raising := none } } : State).setFld R.SEC_DEBUG_EPOCH.EPOCH e).journal_frame
    itDEBUG 0 e
  rw [h]
  exact ⟨_, mgt, rfl⟩

theorem State.epochRaised_spec (s : State) : s.epochRaised.fld R.SEC_DEBUG_EPOCH.EPOCH = (s.fld R.SEC_DEBUG_EPOCH.EPOCH + 1) % 2 ^ 64 ∧
    s.epochRaised.flag R.SEC_EVENTS.DEBUG_READ = true ∧ s.epochRaised.session = s.session := by
  have hshown (g : Field) (hg : g.off ≠ R.SEC_EVENTS.adr) : s.epochRaised.fld g =
      (({ s with sec := { s.sec with raising := none } } : State).setFld R.SEC_DEBUG_EPOCH.EPOCH
        ((s.fld R.SEC_DEBUG_EPOCH.EPOCH + 1) % 2 ^ 64)).fld g :=
    (State.fld_setFld_ne _ _ hg).trans (State.fld_journal _ _ _ _ g)
  have hsession (g : Field) (hg : g.off = R.SEC_DEBUG_CTL.adr) : s.epochRaised.flag g = s.flag g := by
    rw [State.flag, hshown g (by rw [hg]; decide), State.fld_setFld_ne _ _ (by rw [hg]; decide)]
    rfl
  refine ⟨?_, State.flag_setFld_same_one _ _ (by decide) rfl true, ?_⟩
  · rw [hshown _ (by decide), State.fld_setFld_same _ _ _ (by decide)]
    exact Nat.mod_mod _ _
  · rw [State.session, State.session, hsession _ rfl, hsession _ rfl]

theorem execDebugEpochWriteDone_raised {t : Nat} (hraising : s.sec.raising = some t) (haway : s.mgtAway = false)
    (hdbg : s.tel.dbg = none) (hclosed : s.session = false) : execDebugEpochWriteDone true s = .next s.epochRaised := by
  obtain ⟨hswap, hrestart⟩ := Bool.or_eq_false_iff.mp haway
  have hstill : s.epochRaised.session = false := s.epochRaised_spec.2.2.trans hclosed
  have hwaits : s.epochRaised.tel.dbg = none := by
    obtain ⟨regs, mgt, h⟩ := s.epochRaised_frame
    rw [h]
    exact hdbg
  rw [execDebugEpochWriteDone, hraising, hswap, hrestart, if_neg (by simp), if_neg (by simp)]
  change Host.Outcome.next ((if s.epochRaised.session then s.epochRaised.setFld R.SEC_DEBUG_CTL.COUNTED 1
    else s.epochRaised).endSealedRead true) = _
  rw [if_neg (ne_true_of_eq_false hstill), State.endSealedRead_none hwaits]

theorem completes_debugEpochWriteDone {t : Nat} (hraising : s.sec.raising = some t) (haway : s.mgtAway = false)
    (hdbg : s.tel.dbg = none) (hclosed : s.session = false) : Completes (.debugEpochWriteDone true) s fun u =>
      u.fld R.SEC_DEBUG_EPOCH.EPOCH = (s.fld R.SEC_DEBUG_EPOCH.EPOCH + 1) % 2 ^ 64 ∧ u.flag R.SEC_EVENTS.DEBUG_READ = true
        ∧ u.sec = { s.sec with raising := none, dbgBoot := true } ∧ SameMemory s u := by
  obtain ⟨hepoch, hevent, -⟩ := s.epochRaised_spec
  refine ⟨_, execDebugEpochWriteDone_raised hraising haway hdbg hclosed, hepoch, hevent, ?_⟩
  obtain ⟨regs, mgt, h⟩ := s.epochRaised_frame
  rw [h]
  exact ⟨rfl, fun _ => rfl⟩

theorem execDebugEpochWriteDone_waits {ok : Bool} (h : s.sec.raising = none ∨ s.mgt.swap.isSome = true) :
    execDebugEpochWriteDone ok s = .next s :=
  congrArg Host.Outcome.next (if_pos (h.imp_left Option.isNone_iff_eq_none.mpr))

theorem execDebugEpochWriteDone_restarting {ok : Bool} (hswap : s.mgt.swap = none) (hrestart : s.mgt.restart.isSome = true) :
    execDebugEpochWriteDone ok s = .next s.failEpoch := by
  cases hraising : s.sec.raising with
  | none => rw [State.failEpoch_idle hraising, execDebugEpochWriteDone_waits (.inl hraising)]
  | some t =>
    rw [execDebugEpochWriteDone, hraising, hswap, if_neg (by simp)]
    exact congrArg Host.Outcome.next (if_pos (.inr hrestart))

/-! The debug line buffer (R400). -/

theorem execDebugLineRead_seen {via : Via} (hsees : s.sees via R.TEL_DBG_CMD.adr true = true) (hidle : s.flag R.TEL_DBG_CMD.BUSY =
    false) :
    execDebugLineRead via s = .next (
      if hbmLines ≤ s.dbgAddr then s.dbgResult sCHECK
      else if ¬ s.isSealedLine s.dbgAddr then s.dbgLoad s.dbgAddr
      else if ¬ s.session then s.dbgZero.dbgResult sSEALED
      else if s.flag R.SEC_DEBUG_CTL.COUNTED then s.dbgLoad s.dbgAddr
      else ((s.setTel { s.tel with dbg := some s.dbgAddr }).setFld R.TEL_DBG_CMD.BUSY 1).raiseEpoch) :=
  congrArg Host.Outcome.next ((State.gate_seen hsees _).trans (if_neg (ne_true_of_eq_false hidle)))

theorem execDebugLineWrite_seen {via : Via} (hsees : s.sees via R.TEL_DBG_CMD.adr true = true) (hidle : s.flag R.TEL_DBG_CMD.BUSY =
    false) :
    execDebugLineWrite via s = .next (
      if hbmLines ≤ s.dbgAddr then s.dbgResult sCHECK
      else if s.isSealedLine s.dbgAddr ∨ s.isSealedCode s.dbgAddr then s.dbgResult sSEALED
      else if ¬ s.visible (64 * s.dbgAddr) 64 then s.dbgResult sCHECK
      else (s.homeWrite s.dbgAddr 0 64 s.tel.line false).dbgResult sOK) :=
  congrArg Host.Outcome.next ((State.gate_seen hsees _).trans (if_neg (ne_true_of_eq_false hidle)))

/-- The fields that the end of a debug line command shows. -/
def dbgResultFields : List Field := [R.TEL_DBG_CMD.RESULT, R.TEL_DBG_CMD.BUSY]

theorem State.fld_result_dbgResult (s : State) {status : Nat} (h : status < 16) : (s.dbgResult status).fld R.TEL_DBG_CMD.RESULT =
    status :=
  (State.fld_setFld_same _ _ _ (by decide)).trans (Nat.mod_eq_of_lt h)

theorem State.flag_busy_dbgResult (s : State) (status : Nat) : (s.dbgResult status).flag R.TEL_DBG_CMD.BUSY = false := by
  rw [State.flag, State.dbgResult, State.fld_setFld_apart _ _ _ _ (by decide) (by decide)]
  exact s.flag_setFld_zero _ (by decide)

theorem State.byte_dbgResult (s : State) (status a : Nat) : (s.dbgResult status).byte a = s.byte a := rfl

theorem State.readLine_dbgResult (s : State) (status h : Nat) : (s.dbgResult status).readLine h = s.readLine h := rfl

theorem State.isPoison_dbgResult (s : State) (status h : Nat) : (s.dbgResult status).isPoison h = s.isPoison h := rfl

theorem OnlyFields.dbgResult {t : State} (h : OnlyFields dbgResultFields s t) (status : Nat) :
    OnlyFields dbgResultFields s (t.dbgResult status) :=
  (h.setFld (by decide) (by decide) 0).setFld (by decide) (by decide) status

theorem ofLeBytes_leBytes : ∀ k n : Nat, ofLeBytes (leBytes k n) = n % 256 ^ k
  | 0, n => by rw [leBytes, ofLeBytes, Nat.pow_zero, Nat.mod_one]
  | k + 1, n => by
    rw [leBytes, ofLeBytes, ofLeBytes_leBytes k, BitVec.toNat_ofNat, Nat.pow_succ' (n := k)]
    exact Nat.mod_mul.symm

/-- A line is spelt by its own bytes. -/
theorem lineOf_lineBytes (l : Line) : lineOf (lineBytes l) = l := by
  rw [lineOf, lineBytes, ofLeBytes_leBytes, show (256 : Nat) = 2 ^ 8 from rfl, ← Nat.pow_mul, show 8 * 64 = 512 from rfl,
    Nat.mod_eq_of_lt l.isLt, BitVec.ofNat_toNat, BitVec.setWidth_eq]

theorem State.readLine_homeWrite (s : State) {h : Nat} (data : Line) (poison : Bool) (hdevice : h < 4500000000) :
    (s.homeWrite h 0 64 data poison).readLine h = data := by
  have hbytes : (s.homeWrite h 0 64 data poison).bytes (64 * h) 64 = lineBytes data := by
    refine List.ext_getElem? fun i => ?_
    rw [State.bytes, List.getElem?_map]
    by_cases hi : i < 64
    · rw [getElem?_upFrom _ _ _ hi, getElem?_lineBytes data hi, Option.map_some, s.byte_homeWrite data poison (by decide) hdevice,
        if_pos (by omega), Nat.add_sub_cancel_left]
    · rw [List.getElem?_eq_none (by rw [length_upFrom]; omega), List.getElem?_eq_none (by rw [lineBytes, length_leBytes]; omega)]
      rfl
  rw [State.readLine, hbytes, lineOf_lineBytes]

theorem completes_debugLineRead_open {via : Via} (hsees : s.sees via R.TEL_DBG_CMD.adr true = true)
    (hidle : s.flag R.TEL_DBG_CMD.BUSY = false) (hdevice : s.dbgAddr < hbmLines) (hopen : s.isSealedLine s.dbgAddr = false) :
    Completes (.debugLineRead via) s fun u => u.tel = { s.tel with line := s.readLine s.dbgAddr }
      ∧ u.fld R.TEL_DBG_CMD.RESULT = (if s.isPoison s.dbgAddr then sPOISON else sOK) ∧ u.flag R.TEL_DBG_CMD.BUSY = false
      ∧ OnlyFields [R.TEL_DBG_CMD.RESULT, R.TEL_DBG_CMD.BUSY] s u ∧ SameMemory s u := by
  have hexec : execDebugLineRead via s = .next ((s.setTel { s.tel with line := s.readLine s.dbgAddr }).dbgResult
      (if s.isPoison s.dbgAddr then sPOISON else sOK)) := by
    rw [execDebugLineRead_seen hsees hidle, if_neg (Nat.not_le.mpr hdevice), if_pos (ne_true_of_eq_false hopen), State.dbgLoad]
  have htel : OnlyFields dbgResultFields s (s.setTel { s.tel with line := s.readLine s.dbgAddr }) :=
    fun g _ => State.fld_setTel _ _ g
  refine ⟨_, hexec, rfl, State.fld_result_dbgResult _ ?_, State.flag_busy_dbgResult _ _, htel.dbgResult _,
    fun a => (State.byte_dbgResult _ _ a).trans (State.byte_setTel _ _ a)⟩
  split <;> decide

theorem completes_debugLineWrite_open {via : Via} (hsees : s.sees via R.TEL_DBG_CMD.adr true = true)
    (hidle : s.flag R.TEL_DBG_CMD.BUSY = false) (hdevice : s.dbgAddr < hbmLines) (hopen : s.isSealedLine s.dbgAddr = false)
    (hcode : s.isSealedCode s.dbgAddr = false) (hvisible : s.visible (64 * s.dbgAddr) 64 = true) :
    Completes (.debugLineWrite via) s fun u => u.readLine s.dbgAddr = s.tel.line ∧ u.isPoison s.dbgAddr = false
      ∧ u.fld R.TEL_DBG_CMD.RESULT = sOK ∧ OnlyFields [R.TEL_DBG_CMD.RESULT, R.TEL_DBG_CMD.BUSY] s u
      ∧ ∀ a, (a < 64 * s.dbgAddr ∨ 64 * s.dbgAddr + 64 ≤ a) → u.byte a = s.byte a := by
  have hexec : execDebugLineWrite via s = .next ((s.homeWrite s.dbgAddr 0 64 s.tel.line false).dbgResult sOK) := by
    rw [execDebugLineWrite_seen hsees hidle, if_neg (Nat.not_le.mpr hdevice), if_neg (by simp [hopen, hcode]),
      if_neg (not_not_intro hvisible)]
  have hwrite : OnlyFields dbgResultFields s (s.homeWrite s.dbgAddr 0 64 s.tel.line false) := fun g _ => s.fld_homeWrite _ _ _ _ _ g
  refine ⟨_, hexec, ?_, ?_, State.fld_result_dbgResult _ (by decide),
    hwrite.dbgResult _, fun a ha => ?_⟩
  · rw [State.readLine_dbgResult, s.readLine_homeWrite _ _ hdevice]
  · rw [State.isPoison_dbgResult, s.isPoison_homeWrite_same]
  · rw [State.byte_dbgResult, s.byte_homeWrite s.tel.line false (by decide) hdevice, if_neg (by omega)]

theorem completes_debugLineRead_sealed {via : Via} (hsees : s.sees via R.TEL_DBG_CMD.adr true = true)
    (hidle : s.flag R.TEL_DBG_CMD.BUSY = false) (hdevice : s.dbgAddr < hbmLines) (hsealed : s.isSealedLine s.dbgAddr = true)
    (hclosed : s.session = false) :
    Completes (.debugLineRead via) s fun u => u.tel.line = 0 ∧ u.fld R.TEL_DBG_CMD.RESULT = sSEALED ∧ SameMemory s u := by
  have hexec : execDebugLineRead via s = .next (s.dbgZero.dbgResult sSEALED) := by
    rw [execDebugLineRead_seen hsees hidle, if_neg (Nat.not_le.mpr hdevice), if_neg (not_not_intro hsealed),
      if_pos (ne_true_of_eq_false hclosed)]
  exact ⟨_, hexec, rfl, State.fld_result_dbgResult _ (by decide), fun _ => rfl⟩

theorem completes_debugLineWrite_sealed {via : Via} (hsees : s.sees via R.TEL_DBG_CMD.adr true = true)
    (hidle : s.flag R.TEL_DBG_CMD.BUSY = false) (hdevice : s.dbgAddr < hbmLines) (hsealed : s.isSealedLine s.dbgAddr = true) :
    Completes (.debugLineWrite via) s fun u => u.fld R.TEL_DBG_CMD.RESULT = sSEALED ∧ SameMemory s u := by
  have hexec : execDebugLineWrite via s = .next (s.dbgResult sSEALED) := by
    rw [execDebugLineWrite_seen hsees hidle, if_neg (Nat.not_le.mpr hdevice), if_pos (.inl hsealed)]
  exact ⟨_, hexec, State.fld_result_dbgResult _ (by decide), fun _ => rfl⟩

/-! Accumulators (R399). -/

theorem State.accumulator_retired {k c : Nat} (h : s.isRetired (s.fld (R.LDL_POS_STATUS.PHYS k)) c = true) (a i : Nat) :
    s.accumulator k c a i = (0, s) := if_pos h

theorem State.accumulator_sealed {k c : Nat} (hlive : s.isRetired (s.fld (R.LDL_POS_STATUS.PHYS k)) c = false)
    (hruns : (s.lpos k).running.isSome = true) (hsealed : (s.lpos k).isSealed = true)
    (hcounted : s.flag R.SEC_DEBUG_CTL.COUNTED = false) (a i : Nat) :
    s.accumulator k c a i = (0, s.raise R.TEL_EVENTS.SEALED_ZERO) :=
  (if_neg (ne_true_of_eq_false hlive)).trans (if_pos ⟨hruns, hsealed, ne_true_of_eq_false hcounted⟩)

theorem State.accumulator_held {k c : Nat} (hlive : s.isRetired (s.fld (R.LDL_POS_STATUS.PHYS k)) c = false)
    (hidle : (s.lpos k).running = none) (a i : Nat) : s.accumulator k c a i =
      (getBits (FMap.get (fun _ => {}) s.ldl.acc (512 * s.fld (R.LDL_POS_STATUS.PHYS k) + 8 * c + a) : LAcc).word (64 * i) 64, s) := by
  have hruns : s.kernelRuns k = false := by rw [State.kernelRuns, hidle]
  rw [State.accumulator, hidle, if_neg (ne_true_of_eq_false hlive), if_neg (by simp), if_neg (ne_true_of_eq_false hruns)]

theorem State.accumulator_free {k c : Nat} (hlive : s.isRetired (s.fld (R.LDL_POS_STATUS.PHYS k)) c = false)
    (hruns : s.kernelRuns k = true) (hopen : (s.lpos k).isSealed = false) (a i : Nat) : s.accumulator k c a i = s.fresh :=
  ((if_neg (ne_true_of_eq_false hlive)).trans (if_neg fun h => ne_true_of_eq_false hopen h.2.1)).trans (if_pos hruns)

theorem execAccumulatorRead_seen {via : Via} {k : Fin 16} {c : Fin 64} {a : Fin 8} {i : Fin 6}
    (hsees : s.sees via (accOffset k c a i) false = true) : execAccumulatorRead via k c a i s =
      .next ((s.accumulator k c a i).2.send (.readData via (accOffset k c a i) (BitVec.ofNat 64 (s.accumulator k c a i).1))) :=
  congrArg Host.Outcome.next (if_neg (not_not_intro hsees))

/-- Settles O57: each command by the checks that it makes in turn. -/
theorem telemetry : Obligations.Telemetry := by
  refine ⟨fun s => ⟨fun hdue => congrArg Host.Outcome.next (if_pos hdue),
      fun hdue => congrArg Host.Outcome.next (if_neg (ne_true_of_eq_false hdue)), fun hrun harm hidle => ⟨fun hstart => ?_,
        fun hstart => ?_⟩,
      fun t hraising haway hdbg hclosed => ⟨?_, completes_debugEpochWriteDone hraising haway hdbg hclosed⟩,
      fun ok => execDebugEpochWriteDone_waits, fun ok => execDebugEpochWriteDone_restarting⟩,
    fun via s => ⟨fun hsees => congrArg Host.Outcome.next (State.gate_seen hsees _),
      fun units hsees => ⟨fun hrun => ?_, fun hrun hfits => ?_, fun hrun hlarge => ?_⟩, fun v => completes_traceRun,
      fun hsees hidle => ⟨fun hout => ⟨?_, ?_⟩, fun hdevice hopen => ⟨?_, ?_⟩, fun hdevice hsealed => ⟨?_,
        fun hsession hcounted => ?_, ?_⟩⟩,
      fun k c a i => ⟨fun hsees => ⟨fun hret => ?_, fun hlive hruns hsealed hcounted => ?_, fun hlive hidle => ?_,
        fun hlive hruns hopen => ?_⟩, fun hsees => congrArg Host.Outcome.next (if_pos (ne_true_of_eq_false hsees))⟩⟩⟩
  · exact ⟨_, execTraceArmedStart_due hrun harm hidle hstart, s.flag_setFld_same_one _ (by decide) rfl true,
      s.onlyRegisters_setFld _ _ (by decide)⟩
  · exact execTraceArmedStart_early hstart
  · obtain ⟨hswap, -⟩ := Bool.or_eq_false_iff.mp haway
    rw [exec_debugEpochWriteDone, execDebugEpochWriteDone, hraising, hswap, if_neg (by simp), if_pos (.inl (by simp)),
      State.failEpoch_alone hraising hdbg]
  · exact congrArg Host.Outcome.next ((State.gate_seen hsees _).trans (if_pos hrun))
  · exact congrArg Host.Outcome.next ((State.gate_seen hsees _).trans
      ((if_neg (ne_true_of_eq_false hrun)).trans (if_neg (Nat.not_lt.mpr hfits))))
  · exact congrArg Host.Outcome.next ((State.gate_seen hsees _).trans ((if_neg (ne_true_of_eq_false hrun)).trans (if_pos hlarge)))
  · exact (execDebugLineRead_seen hsees hidle).trans (congrArg Host.Outcome.next (if_pos hout))
  · exact (execDebugLineWrite_seen hsees hidle).trans (congrArg Host.Outcome.next (if_pos hout))
  · exact completes_debugLineRead_open hsees hidle hdevice hopen
  · exact completes_debugLineWrite_open hsees hidle hdevice hopen
  · exact completes_debugLineRead_sealed hsees hidle hdevice hsealed
  · rw [exec_debugLineRead, execDebugLineRead_seen hsees hidle, if_neg (show ¬ hbmLines ≤ _ from Nat.not_le.mpr hdevice),
      if_neg (not_not_intro hsealed),
      if_neg (not_not_intro hsession), if_pos hcounted]
  · exact completes_debugLineWrite_sealed hsees hidle hdevice hsealed
  · rw [exec_accumulatorRead, execAccumulatorRead_seen hsees, State.accumulator_retired hret]
    rfl
  · rw [exec_accumulatorRead, execAccumulatorRead_seen hsees, State.accumulator_sealed hlive hruns hsealed hcounted]
    rfl
  · rw [exec_accumulatorRead, execAccumulatorRead_seen hsees, State.accumulator_held hlive hidle]
  · rw [exec_accumulatorRead, execAccumulatorRead_seen hsees, State.accumulator_free hlive hruns hopen]
    rfl

end Sys2Proof.Machine
end

section
/-! ## What the SPDM responder answers (R322, R335) -/

namespace Sys2Proof.Machine

open Sys2Proof

variable {s : State} {h : Nat}

theorem State.spdm_unready (hready : s.spdmReady h = false) (r : SpdmReq) : s.spdm h r = s :=
  if_pos (ne_true_of_eq_false hready)

/-- A request that is answered at once. -/
theorem State.spdm_answered (hready : s.spdmReady h = true) (haway : s.mgtAway = false) {r : SpdmReq} {a : SpdmRsp} {t : State}
    (hreply : s.spdmReply h r = (some a, t)) : s.spdm h r = t.send (.spdm h a) := by
  rw [State.spdm, if_neg (not_not_intro hready), if_neg (ne_true_of_eq_false haway), hreply]

/-- A request that the responder takes in hand. -/
theorem State.spdm_taken (hready : s.spdmReady h = true) (haway : s.mgtAway = false) {r : SpdmReq} {t : State}
    (hreply : s.spdmReply h r = (none, t)) : s.spdm h r = t := by
  rw [State.spdm, if_neg (not_not_intro hready), if_neg (ne_true_of_eq_false haway), hreply]

/-! The replies, request by request. -/

theorem State.spdmReply_negotiate_refused {a b c d : Bool} (hoffer : (a && b && c && d) = false) :
    s.spdmReply h (.negotiateAlgorithms a b c d) = (some (.error .other), s) :=
  if_neg (ne_true_of_eq_false hoffer)

theorem State.spdmReply_getCertificate (s : State) (h : Nat) (off len : BitVec 16) : s.spdmReply h (.getCertificate 0 off len) =
    (some (.certificate ((s.certChain.drop off.toNat).take len.toNat)
      (s.certChain.length - off.toNat - ((s.certChain.drop off.toNat).take len.toNat).length)), s) := by
  rw [State.spdmReply, if_neg (not_not_intro rfl)]

theorem State.spdmReply_challenge (hid : s.flag R.SEC_STATUS.ID_OK = true) : s.spdmReply h (.challenge 0) =
    (some (.challengeAuth (Config.sign (Config.freeNat s.free) [] [])), { s with free := s.free + 1 }) := by
  rw [State.spdmReply, hid]
  rfl

theorem State.spdmReply_challenge_noId (hid : s.flag R.SEC_STATUS.ID_OK = false) :
    s.spdmReply h (.challenge 0) = (some (.error .other), s) := by
  rw [State.spdmReply, hid]
  rfl

theorem State.spdmReply_keyExchange (hid : s.flag R.SEC_STATUS.ID_OK = true) : s.spdmReply h (.keyExchange false false) =
    (some (.keyExchange (Config.sign (Config.freeNat s.free) [] [])),
      State.setSpdm { s with free := s.free + 1 } { s.sec.spdm with session := FMap.put s.sec.spdm.session h 1 }) := by
  rw [State.spdmReply, hid]
  rfl

theorem State.spdmReply_keyExchange_noId (hid : s.flag R.SEC_STATUS.ID_OK = false) :
    s.spdmReply h (.keyExchange false false) = (some (.error .other), s) := by
  rw [State.spdmReply, hid]
  rfl

theorem State.spdmReply_signed_noId (hid : s.flag R.SEC_STATUS.ID_OK = false) (i : BitVec 8) :
    s.spdmReply h (.getMeasurements i true) = (some (.error .other), s) := by
  rw [State.spdmReply, hid]
  rfl

theorem State.spdmReply_measurement {i : BitVec 8} (hlow : 1 ≤ i.toNat) (hhigh : i.toNat ≤ 4) :
    s.spdmReply h (.getMeasurements i false) = (some (.measurements [(i.toNat, s.spdmBlock i.toNat)] none), s) := by
  have hnot : i ≠ 255 := fun h => by subst h; exact absurd hhigh (by decide)
  have hidx : (if i = 255 then [1, 2, 3, 4] else if 1 ≤ i.toNat ∧ i.toNat ≤ 4 then [i.toNat] else []) = [i.toNat] :=
    (if_neg hnot).trans (if_pos ⟨hlow, hhigh⟩)
  rw [State.spdmReply]
  dsimp only
  rw [hidx]
  rfl

theorem State.spdmReply_finish (hsession : FMap.get (fun _ => 0) s.sec.spdm.session h = 1) : s.spdmReply h .finish =
    (some .finish, s.setSpdm { s.sec.spdm with session := FMap.put s.sec.spdm.session h 2 }) :=
  if_pos hsession

theorem State.spdmReply_heartbeat (hsession : FMap.get (fun _ => 0) s.sec.spdm.session h = 2) :
    s.spdmReply h .heartbeat = (some .heartbeat, s) :=
  if_pos hsession

theorem State.spdmReply_endSession (hsession : FMap.get (fun _ => 0) s.sec.spdm.session h = 2) : s.spdmReply h .endSession =
    (some .endSession, s.setSpdm { s.sec.spdm with session := FMap.del s.sec.spdm.session h }) :=
  if_pos hsession

theorem State.spdmReply_chunkGet {seq : BitVec 16} {r : List Byte} (hlarge : FMap.find s.sec.spdm.large h = some r)
    (hmore : (seq.toNat + 1) * spdmPiece < r.length) : s.spdmReply h (.chunkGet seq) =
      (some (.chunk seq.toNat false ((r.drop (seq.toNat * spdmPiece)).take spdmPiece)), s) := by
  have hlast : decide (r.length ≤ (seq.toNat + 1) * spdmPiece) = false := decide_eq_false (Nat.not_le.mpr hmore)
  rw [State.spdmReply, State.spdmNext, hlarge]
  dsimp only
  rw [hlast]
  rfl

theorem State.spdmReply_unsupported {std vendor : BitVec 16} {code part : BitVec 8} {nonce : BitVec 256}
    (hbad : std ≠ 3 ∨ vendor ≠ 0x1F6B ∨ code ≠ 1) :
    s.spdmReply h (.vendorDefined std vendor code part nonce) = (some (.error .unsupportedRequest), s) :=
  if_pos hbad

theorem State.spdmReply_quote {part : BitVec 8} {nonce : BitVec 256} (hpart : part.toNat < 64) (hmapped : s.mapped h part.toNat = true)
    (hport : bitOf (s.fld (R.SEC_PART_CFG.SPDM_PORTS part.toNat)) h = true) (hid : s.flag R.SEC_STATUS.ID_OK = true) :
    s.spdmReply h (.vendorDefined 3 0x1F6B 1 part nonce) = (none, ({ s with sec := { s.sec with
      quote := some { part := part.toNat, nonce := nonce, dst := none, port := h, start := s.tick } } } : State).setFld
        R.SEC_QUOTE_STATUS.BUSY 1) := by
  have hserved : ¬(64 ≤ part.toNat ∨ ¬ s.mapped h part.toNat = true ∨
      ¬ bitOf (s.fld (R.SEC_PART_CFG.SPDM_PORTS part.toNat)) h = true) := by
    rintro (hlarge | hother | hclosed)
    · exact absurd hpart (Nat.not_lt.mpr hlarge)
    · exact hother hmapped
    · exact hclosed hport
  rw [State.spdmReply, hid]
  dsimp only
  rw [if_neg (by simp), if_neg hserved]
  rfl

/-! Pieces of large requests (R322). -/

theorem execChunkSend_unready {h : PortNo} (hready : s.spdmReady h = false) (seq : BitVec 16) (whole : Option SpdmReq) :
    execChunkSend h seq whole s = .next s :=
  congrArg Host.Outcome.next (if_pos (ne_true_of_eq_false hready))

theorem execChunkSend_piece {h : PortNo} (hready : s.spdmReady h = true) (haway : s.mgtAway = false) {seq : BitVec 16}
    (hseq : seq.toNat = FMap.get (fun _ => 0) s.sec.spdm.taken h) : execChunkSend h seq none s =
      .next ((s.send (.spdm h (.chunkAck seq.toNat))).setSpdm
        { s.sec.spdm with taken := FMap.set (fun _ => 0) s.sec.spdm.taken h (seq.toNat + 1) }) := by
  rw [execChunkSend, if_neg (not_not_intro hready), if_neg (ne_true_of_eq_false haway)]
  dsimp only
  rw [← hseq, if_neg (not_not_intro rfl)]
  rfl

/-- Settles O50: a request that the responder cannot take leaves the state; each other one by its reply. -/
theorem spdmResponses : Obligations.SpdmResponses := by
  refine ⟨fun h s hready c hc => ?_, fun h s hready haway => ?_⟩
  · simp only [List.mem_cons, List.not_mem_nil, or_false] at hc
    rcases hc with rfl | rfl | rfl | rfl | rfl | rfl | rfl | rfl | rfl | rfl | rfl
    case inr.inr.inr.inr.inr.inr.inr.inr.inl => exact execChunkSend_unready hready 0 none
    all_goals exact congrArg Host.Outcome.next (State.spdm_unready hready _)
  · have answered {r : SpdmReq} {a : SpdmRsp} {t : State} (hreply : s.spdmReply h r = (some a, t)) :
        (Host.Outcome.next (s.spdm h r) : Result) = .next (t.send (.spdm h a)) :=
      congrArg Host.Outcome.next (State.spdm_answered hready haway hreply)
    exact ⟨answered rfl, answered rfl, answered rfl, answered rfl, fun a b c d hoffer => answered
      (State.spdmReply_negotiate_refused hoffer),
      fun off len => answered (s.spdmReply_getCertificate h off len), fun slot off len hslot => ⟨answered (if_pos hslot),
        answered (if_pos hslot)⟩,
      fun hid => ⟨answered (State.spdmReply_challenge hid), answered (State.spdmReply_keyExchange hid)⟩,
      fun hid => ⟨answered (State.spdmReply_challenge_noId hid), answered (State.spdmReply_keyExchange_noId hid),
        fun i => answered (State.spdmReply_signed_noId hid i)⟩,
      fun i hlow hhigh => answered (State.spdmReply_measurement hlow hhigh), answered rfl, answered rfl,
      fun hsession => answered (State.spdmReply_finish hsession),
      fun hsession => ⟨answered (State.spdmReply_heartbeat hsession), answered (State.spdmReply_endSession hsession)⟩,
      fun seq hseq => execChunkSend_piece hready haway hseq, fun seq r hlarge hmore => answered (State.spdmReply_chunkGet hlarge hmore),
      fun std vendor code part nonce hbad => answered (State.spdmReply_unsupported hbad),
      fun part nonce hpart hmapped hport hid => congrArg Host.Outcome.next
        (State.spdm_taken hready haway (State.spdmReply_quote hpart hmapped hport hid))⟩

end Sys2Proof.Machine
end

section
/-! ## Host ports: windows, the fence, configuration, MSI-X, decoders, training and reset (R301 to R308, R313, R319, R321) -/

namespace Sys2Proof.Machine

open Sys2Proof

variable {s : State} {h : PortNo} {hpa : BitVec 64}

/-! The Module Memory window (R306, R308). -/

theorem execMmWindowRead_outside (hup : s.memUp h = true) (hwin : s.window h 0 hpa.toNat = none) (e : Ecc) :
    execMmWindowRead h hpa e s = .next ((s.outOfWindow h).poisonedData h) := by
  rw [execMmWindowRead, hup, if_neg (by decide), hwin]

theorem execMmWindowRead_waits (hup : s.memUp h = true) {o a i : Nat} {s1 : State} (hwin : s.window h 0 hpa.toNat = some o)
    (hjudge : (s.carried h).judgeAt ((s.carried h).mmPacket h o opREAD 0 0 false) = (s1, .inr (.hbm a i)))
    (hbehind : s1.behindStore a (some h.val) ((s.carried h).mmPacket h o opREAD 0 0 false) = true) (e : Ecc) :
    execMmWindowRead h hpa e s = .next s := by
  rw [execMmWindowRead, hup, if_neg (by decide), hwin]
  dsimp only
  rw [hjudge]
  dsimp only
  rw [if_pos hbehind]

theorem execMmWindowRead_clean (hup : s.memUp h = true) {o a i : Nat} {s1 : State} {e : Ecc} (hwin : s.window h 0 hpa.toNat = some o)
    (hjudge : (s.carried h).judgeAt ((s.carried h).mmPacket h o opREAD 0 0 false) = (s1, .inr (.hbm a i)))
    (hbehind : s1.behindStore a (some h.val) ((s.carried h).mmPacket h o opREAD 0 0 false) = false)
    (hclean : (s1.hbmRead a e (some (o / 64, 0))).isPoison a = false) : execMmWindowRead h hpa e s =
      .next ((s1.hbmRead a e (some (o / 64, 0))).send (.cxlData h ((s1.hbmRead a e (some (o / 64, 0))).readLine a) false)) := by
  rw [execMmWindowRead, hup, if_neg (by decide), hwin]
  dsimp only
  rw [hjudge]
  dsimp only
  rw [if_neg (ne_true_of_eq_false hbehind), hclean, if_neg (by decide)]

section
variable {first : Fin 64} {count : Fin 65} {data : Line} {pz : Bool}

/-- A write of a line's bytes to a port that takes requests passes the first check of either window. -/
theorem State.write_taken (hup : s.memUp h = true) (hcount : 0 < count.val) (hline : first.val + count.val ≤ 64) :
    ¬((!s.memUp h) = true ∨ count = 0 ∨ 64 < first.val + count.val) := by
  rintro (hdown | rfl | hlong)
  · rw [hup] at hdown
    exact absurd hdown (by decide)
  · exact absurd hcount (by decide)
  · omega

theorem execMmWindowWrite_outside (hup : s.memUp h = true) (hcount : 0 < count.val) (hline : first.val + count.val ≤ 64)
    (hwin : s.window h 0 hpa.toNat = none) :
    execMmWindowWrite h hpa first count data pz s = .next (((s.poisonIn h pz).outOfWindow h).send (.cxlCmp h)) := by
  rw [execMmWindowWrite, if_neg (State.write_taken hup hcount hline), hwin]

theorem execMmWindowWrite_stored (hup : s.memUp h = true) (hcount : 0 < count.val) (hline : first.val + count.val ≤ 64)
    {o a i : Nat} {s1 : State} (hwin : s.window h 0 hpa.toNat = some o)
    (hjudge : (s.carried h).judgeAt ((s.carried h).mmPacket h o opWRITE (first.val + 64 * count.val) data false) = (s1, .inr (.hbm a i)))
    (hfree : (s.carried h).storeWaits i = false) : execMmWindowWrite h hpa first count data false s =
      .next (s1.storeHbm (some h.val) ((s.carried h).mmPacket h o opWRITE (first.val + 64 * count.val) data false) a i) := by
  rw [execMmWindowWrite, if_neg (State.write_taken hup hcount hline), hwin]
  dsimp only
  rw [hjudge]
  dsimp only
  rw [if_neg (ne_true_of_eq_false hfree), if_neg (by decide)]

theorem execMmWindowWrite_refused (hup : s.memUp h = true) (hcount : 0 < count.val) (hline : first.val + count.val ≤ 64)
    {o st : Nat} {s1 : State} (hwin : s.window h 0 hpa.toNat = some o)
    (hjudge : (s.carried h).judgeAt ((s.carried h).mmPacket h o opWRITE (first.val + 64 * count.val) data pz) = (s1, .inl st)) :
    execMmWindowWrite h hpa first count data pz s = .next ((s1.poisonIn h pz).send (.cxlCmp h)) := by
  rw [execMmWindowWrite, if_neg (State.write_taken hup hcount hline), hwin]
  dsimp only
  rw [hjudge]

end

/-! The Fabric Window (R307). -/

/-- What a read in the window leaves, by what its request met: it waits for its bucket as if it had not come, or it is answered, fails
or is on its way. -/
def State.fwReadEnd (s : State) (h : Nat) (tag : BitVec 16) (fva : Nat) (x : Xlat) (s3 : State) : Issue → State
  | .wait w => s.countHeld h fva w
  | .hit st d => s3.fwReadDone h tag.toNat fva x.line x.sub x.dest { status := st, data := d }
  | .ends st => (s3.poisonedData h).faultLog 0x0802 tag.toNat 3 h fva st
  | .sent => s3

section
variable {o k fva : Nat} {tag : BitVec 16} {x : Xlat} {s1 s2 s3 : State} {r : Issue}

/-- A read in the window whose leaf and Skidder are found ends as its request does. -/
theorem execFwWindowRead_asked (hup : s.memUp h = true) (hwin : s.window h 1 hpa.toNat = some o)
    (hfva : (s.carried h).fwFva h (o / 64 * 64) = fva) (htag : (s.carried h).defTag h = tag)
    (hfree : (s.carried h).behindHeld h fva = false) (hxlat : (s.carried h).translate tag fva .load = (s1, .ok x))
    (hskid : s1.hostSkid h (partOf tag) x.line = (some k, s2))
    (hreq : s2.request (s2.fwReq h k opREAD fva 0 0 false) x = (s3, r)) :
    execFwWindowRead h hpa s = .next (s.fwReadEnd h tag fva x s3 r) := by
  rw [execFwWindowRead, hup, if_neg (by decide)]
  refine congrArg Host.Outcome.next ?_
  split
  next hnone => exact absurd (hwin.symm.trans hnone) (by simp)
  next o' hsome =>
  obtain rfl : o = o' := Option.some.inj (hwin.symm.trans hsome)
  extract_lets s0 s' fva' tag'
  rw [show fva' = fva from hfva, show tag' = tag from htag, if_neg (ne_true_of_eq_false (show s'.behindHeld h fva = false from hfree)),
    show s'.translate tag fva .load = (s1, .ok x) from hxlat]
  dsimp only
  rw [hskid]
  dsimp only
  rw [hreq]
  cases r <;> rfl

/-- A read that meets the line with no fault is answered with its data alone. -/
theorem State.fwReadDone_ok (s : State) (h tag fva line sub home : Nat) (d : Line) :
    s.fwReadDone h tag fva line sub home { status := sOK, data := d } = s.send (.cxlData h d false) := rfl

/-- A write that is sent is completed at once. -/
theorem execFwWindowWrite_sent {first : Fin 64} {count : Fin 65} {data : Line} (hup : s.memUp h = true) (hcount : 0 < count.val)
    (hline : first.val + count.val ≤ 64) (hwin : s.window h 1 hpa.toNat = some o)
    (hfva : (s.carried h).fwFva h (o / 64 * 64) = fva) (htag : (s.carried h).defTag h = tag)
    (hfree : (s.carried h).behindHeld h fva = false) (hxlat : (s.carried h).translate tag fva .store = (s1, .ok x))
    (hskid : s1.hostSkid h (partOf tag) x.line = (some k, s2))
    (hreq : s2.request (s2.fwReq h k opWRITE fva (first.val + 64 * count.val) data false) x = (s3, .sent)) :
    execFwWindowWrite h hpa first count data false s = .next (s3.send (.cxlCmp h)) := by
  rw [execFwWindowWrite, if_neg (State.write_taken hup hcount hline)]
  refine congrArg Host.Outcome.next ?_
  split
  next hnone => exact absurd (hwin.symm.trans hnone) (by simp)
  next o' hsome =>
  obtain rfl : o = o' := Option.some.inj (hwin.symm.trans hsome)
  extract_lets s0 s' fva' tag' bmc fails
  rw [show fva' = fva from hfva, show tag' = tag from htag, if_neg (ne_true_of_eq_false (show s'.behindHeld h fva = false from hfree)),
    show s'.translate tag fva .store = (s1, .ok x) from hxlat]
  dsimp only
  rw [hskid]
  dsimp only
  rw [hreq]
  rfl

end

/-! The fence (R313). -/

theorem completes_hostFence_busy {via : Via} {token : BitVec 32} (hsees : s.sees via (R.HST_FENCE.adr h) true = true)
    (hbusy : (s.fence (s.portSet h)).busy = true) : Completes (.hostFence via h token true) s fun u =>
      u.flag (R.HST_EVENTS.FENCE_BUSY h) = true ∧ OnlyRegisters [R.HST_EVENTS.FENCE_BUSY h] s u :=
  ⟨_, congrArg Host.Outcome.next ((State.gate_seen hsees _).trans ((if_neg (by decide)).trans (if_pos hbusy))),
    s.flag_setFld_same_one _ (by simp [R.HST_EVENTS.FENCE_BUSY]) rfl true, s.onlyRegisters_setFld _ _ (by simp [R.HST_EVENTS.FENCE_BUSY])⟩

/-! Configuration and MSI-X (R303, R319). -/

theorem execConfigRequest_unset (hset : s.settled = false) (c : ConfigOp) :
    execConfigRequest h c s = .next (s.send (.config h true 0)) := by
  rw [execConfigRequest, hset, if_pos (by decide)]

theorem execConfigRequest_read (hset : s.settled = true) {off : BitVec 12} {v : Nat} (hword : s.configWord off.toNat = some v) :
    execConfigRequest h (.read off) s = .next (s.send (.config h false (BitVec.ofNat 32 v))) := by
  rw [execConfigRequest, hset, if_neg (by decide)]
  dsimp only
  rw [hword]

theorem execConfigRequest_enables (hset : s.settled = true) (io mem : Bool) : execConfigRequest h (.enables io mem) s =
    .next ((s.setConf h { s.conf h with io := io, mem := mem }).send (.config h false 0)) := by
  rw [execConfigRequest, hset, if_neg (by decide)]

theorem State.msixOf_setMsix (s : State) (n : Nat) (m : Msix) : (s.setMsix n m).msixOf n = m := FMap.get_set_same ..

theorem State.msixOf_send (s : State) (o : Output) (n : Nat) : (s.send o).msixOf n = s.msixOf n := rfl

/-- With nothing pending an unmasked vector sends nothing. -/
theorem execMsixVectorUnmask_quiet (v : Fin 2048) (hpending : (s.msixOf h).pending = []) : execMsixVectorUnmask h (some v) s =
    .next (s.setMsix h { s.msixOf h with vmask := FMap.set (fun _ => true) (s.msixOf h).vmask v.val false, pending := [] }) := by
  rw [execMsixVectorUnmask]
  dsimp only
  rw [hpending, List.filter_nil, ite_self]
  rfl

/-- The message that waited for the vector is sent, and waits no more. -/
theorem execMsixVectorUnmask_sent (v : Fin 2048) (hmask : (s.msixOf h).fmask = false) (hon : (s.msixOf h).enabled = true)
    (hpending : (s.msixOf h).pending = [(v.val, true)]) : execMsixVectorUnmask h (some v) s =
      .next ((s.setMsix h { s.msixOf h with vmask := FMap.set (fun _ => true) (s.msixOf h).vmask v.val false, pending := [] }).send
        (.msix h v)) := by
  have hdue : ([(v.val, true)] : FMap Bool).filter
      (fun e => e.2 && !FMap.get (fun _ => true) (FMap.set (fun _ => true) (s.msixOf h).vmask v.val false) e.1) = [(v.val, true)] := by
    rw [List.filter_cons, FMap.get_set_same]
    rfl
  have hleft : FMap.set (fun _ => false) [(v.val, true)] v.val false = [] := by simp [FMap.set]
  rw [execMsixVectorUnmask]
  dsimp only
  rw [hpending, if_pos ⟨hon, ne_true_of_eq_false hmask⟩, hdue]
  simp only [List.foldl_cons, List.foldl_nil, hleft]

/-! Decoders and training (R301, R304). -/

theorem completes_hdmDecoderCommit {d : Fin 2} {base size : BitVec 64} {iw ig : BitVec 4} (hways : iw.toNat ≤ 2) (hgran : ig.toNat ≤ 6)
    (hsize : size ≠ 0) (hbase : base.toNat % 2 ^ 28 = 0) (hunits : size.toNat % (2 ^ 28 * 2 ^ iw.toNat) = 0)
    (hend : base.toNat + size.toNat ≤ 2 ^ 64) : Completes (.hdmDecoderCommit h d base size iw ig) s fun u =>
      u.decoder h d = some { base := base.toNat, size := size.toNat, iw := iw.toNat, ig := ig.toNat } ∧ u.hbm = s.hbm
        ∧ OnlyFields [R.HST_PORT_STATUS.MEM_ON h] s u := by
  have htaken : ¬(2 < iw.toNat ∨ 6 < ig.toNat ∨ size = 0 ∨ base.toNat % hdmUnit ≠ 0 ∨ size.toNat % (hdmUnit * 2 ^ iw.toNat) ≠ 0 ∨
      2 ^ 64 < base.toNat + size.toNat) := by
    rintro (hw | hg | hz | hb | hu | he)
    · omega
    · omega
    · exact hsize hz
    · exact hb hbase
    · exact hu hunits
    · omega
  refine ⟨_, congrArg Host.Outcome.next (if_neg htaken), FMap.find_put_same _ _ _, rfl, ?_⟩
  exact OnlyFields.setFld (fun _ _ => rfl) (List.mem_singleton_self _) (by simp [R.HST_PORT_STATUS.MEM_ON]) _

/-- The status of a port that training has brought up. -/
def State.trained (s : State) (h rate width : Nat) : State :=
  (((s.setFld (R.HST_PORT_STATUS.PERST h) 0).setFld (R.HST_PORT_STATUS.LINK h) 2).setFld (R.HST_PORT_STATUS.RATE h) rate).setFld
    (R.HST_PORT_STATUS.WIDTH h) width

theorem execHostLinkTrain_enabled {rate width : Fin 3} (hon : s.flag (R.HST_PORT_CFG.EN h) = true) : execHostLinkTrain h rate width s =
    .next (s.trained h (max rate.val (s.fld (R.HST_PORT_CFG.MAXRATE h))) (max width.val (s.fld (R.HST_PORT_CFG.MAXWIDTH h)))) := by
  have hcfg : R.HST_PORT_CFG.adr h ≠ R.HST_PORT_STATUS.adr h := by unfold R.HST_PORT_CFG.adr R.HST_PORT_STATUS.adr; omega
  rw [execHostLinkTrain, hon, if_neg (by decide)]
  dsimp only
  rw [State.fld_setFld_ne _ _ hcfg, State.fld_setFld_ne _ _ hcfg, State.fld_setFld_ne _ _ hcfg, State.fld_setFld_ne _ _ hcfg,
    State.fld_setFld_ne _ _ hcfg]
  rfl

theorem completes_hostLinkTrain {rate width : Fin 3} (hon : s.flag (R.HST_PORT_CFG.EN h) = true) :
    Completes (.hostLinkTrain h rate width) s fun u =>
      u.fld (R.HST_PORT_STATUS.LINK h) = 2 ∧ u.fld (R.HST_PORT_STATUS.PERST h) = 0
        ∧ u.fld (R.HST_PORT_STATUS.RATE h) =
          max rate.val (s.fld (R.HST_PORT_CFG.MAXRATE h)) % 2 ^ (R.HST_PORT_STATUS.RATE h).w
        ∧ u.fld (R.HST_PORT_STATUS.WIDTH h) =
          max width.val (s.fld (R.HST_PORT_CFG.MAXWIDTH h)) % 2 ^ (R.HST_PORT_STATUS.WIDTH h).w
        ∧ OnlyRegisters [R.HST_PORT_STATUS.LINK h, R.HST_PORT_STATUS.PERST h, R.HST_PORT_STATUS.RATE h,
            R.HST_PORT_STATUS.WIDTH h] s u := by
  refine ⟨_, execHostLinkTrain_enabled hon, ?_, ?_, ?_, State.fld_setFld_same _ _ _ (by simp [R.HST_PORT_STATUS.WIDTH]), ?_⟩
  · rw [State.trained, State.fld_setFld_apart _ _ _ _ (by simp [R.HST_PORT_STATUS.WIDTH])
      (by simp [R.HST_PORT_STATUS.WIDTH, R.HST_PORT_STATUS.LINK]), State.fld_setFld_apart _ _ _ _ (by simp [R.HST_PORT_STATUS.RATE])
      (by simp [R.HST_PORT_STATUS.RATE, R.HST_PORT_STATUS.LINK]), State.fld_setFld_same _ _ _ (by simp [R.HST_PORT_STATUS.LINK])]
    rfl
  · rw [State.trained, State.fld_setFld_apart _ _ _ _ (by simp [R.HST_PORT_STATUS.WIDTH])
      (by simp [R.HST_PORT_STATUS.WIDTH, R.HST_PORT_STATUS.PERST]), State.fld_setFld_apart _ _ _ _ (by simp [R.HST_PORT_STATUS.RATE])
      (by simp [R.HST_PORT_STATUS.RATE, R.HST_PORT_STATUS.PERST]), State.fld_setFld_apart _ _ _ _ (by simp [R.HST_PORT_STATUS.LINK])
      (by simp [R.HST_PORT_STATUS.LINK, R.HST_PORT_STATUS.PERST]), State.fld_setFld_same _ _ _ (by simp [R.HST_PORT_STATUS.PERST])]
    exact Nat.zero_mod _
  · rw [State.trained, State.fld_setFld_apart _ _ _ _ (by simp [R.HST_PORT_STATUS.WIDTH])
      (by simp [R.HST_PORT_STATUS.WIDTH, R.HST_PORT_STATUS.RATE]), State.fld_setFld_same _ _ _ (by simp [R.HST_PORT_STATUS.RATE])]
  · exact ((((OnlyRegisters.refl _ s).setFld (by simp) (by simp [R.HST_PORT_STATUS.PERST]) _).setFld (by simp)
      (by simp [R.HST_PORT_STATUS.LINK]) _).setFld (by simp) (by simp [R.HST_PORT_STATUS.RATE]) _).setFld (by simp)
      (by simp [R.HST_PORT_STATUS.WIDTH]) _

/-! Reset (R321). -/

/-- What every reset of a port ends with: its requests are muted, what the host has configured is forgotten, and what the module
asks of it fails. -/
def State.portCut (s : State) (h : Nat) : State :=
  let slots := s.slots.map fun (e : Nat × Slot) => if e.2.owner = .host h then (e.1, { e.2 with muted := true }) else e
  let hst : HstState := { s.hst with msix := FMap.set (fun _ => {}) s.hst.msix h {}, conf := FMap.set (fun _ => {}) s.hst.conf h {},
                                     decoders := FMap.drop (fun i => i / 2 == h) s.hst.decoders }
  let t : State := { s with slots := slots, hst := hst }
  ((((t.setFld (R.HST_PORT_STATUS.MEM_ON h) 0).setFld (R.HST_PORT_STATUS.CACHE_ON h) 0).watchPortDown h).dropHost h).recheck

theorem State.resetPort_flr (s : State) (h : Nat) : s.resetPort h .flr = (s.raise (R.HST_EVENTS.PERST h)).portCut h := rfl

theorem State.resetPort_hot (s : State) (h : Nat) : s.resetPort h .hot =
    (((s.raise (R.HST_EVENTS.PERST h)).raise (R.HST_EVENTS.LINK_DOWN h)).setFld (R.HST_PORT_STATUS.LINK h) 1).portCut h := rfl

theorem State.resetPort_linkDown (s : State) (h : Nat) : s.resetPort h .linkDown =
    (((s.raise (R.HST_EVENTS.PERST h)).raise (R.HST_EVENTS.LINK_DOWN h)).setFld (R.HST_PORT_STATUS.LINK h) 0).portCut h := rfl

theorem State.resetPort_perst (s : State) (h : Nat) : s.resetPort h .perst =
    ((((s.raise (R.HST_EVENTS.PERST h)).raise (R.HST_EVENTS.LINK_DOWN h)).setFld (R.HST_PORT_STATUS.LINK h) 0).setFld
      (R.HST_PORT_STATUS.PERST h) 1).portCut h := rfl

/-- Settles O49: each command by the checks that it makes in turn; a port reset by its kind. -/
theorem hostPorts : Obligations.HostPorts := by
  refine ⟨fun h hpa e s hup => ⟨fun hwin => execMmWindowRead_outside hup hwin e, fun o a i s1 hwin hjudge =>
      ⟨fun hbehind => execMmWindowRead_waits hup hwin hjudge hbehind e, execMmWindowRead_clean hup hwin hjudge⟩⟩,
    fun h hpa first count data pz s hup hcount hline => ⟨execMmWindowWrite_outside hup hcount hline,
      fun o a i s1 hwin hjudge hfree hpz => ?_,
      fun o s1 st hwin hjudge => execMmWindowWrite_refused hup hcount hline hwin hjudge⟩,
    fun h hpa s o k x s1 s2 s3 hup hwin hfree hxlat hskid => ⟨execFwWindowRead_asked hup hwin rfl rfl hfree hxlat hskid,
      fun d hreq => (execFwWindowRead_asked hup hwin rfl rfl hfree hxlat hskid hreq).trans
        (congrArg Host.Outcome.next (State.fwReadDone_ok ..)),
      fun st d => execFwWindowRead_asked hup hwin rfl rfl hfree hxlat hskid,
      fun w => execFwWindowRead_asked hup hwin rfl rfl hfree hxlat hskid⟩,
    fun h hpa first count data s o k x s1 s2 s3 hup hcount hline hwin hfree hxlat hskid hreq =>
      execFwWindowWrite_sent hup hcount hline hwin rfl rfl hfree hxlat hskid hreq,
    fun via h token s hsees => ⟨?_, completes_hostFence_busy hsees, fun hfree => ?_⟩,
    fun h s => ⟨fun c hset => execConfigRequest_unset hset c, fun off v hset => execConfigRequest_read hset,
      fun io mem hset => execConfigRequest_enables hset io mem⟩,
    fun h v s hmask => ⟨fun hon hpending => ?_, fun hpending => ?_⟩,
    fun h d base size iw ig s => ⟨fun hbad => congrArg Host.Outcome.next (if_pos ?_), completes_hdmDecoderCommit⟩,
    fun h rate width s => completes_hostLinkTrain,
    fun h s => ⟨congrArg Host.Outcome.next (s.resetPort_flr h), congrArg Host.Outcome.next (s.resetPort_hot h),
      congrArg Host.Outcome.next (s.resetPort_linkDown h), congrArg Host.Outcome.next (s.resetPort_perst h)⟩⟩
  · subst hpz
    exact execMmWindowWrite_stored hup hcount hline hwin hjudge hfree
  · exact congrArg Host.Outcome.next ((State.gate_seen hsees _).trans (if_pos (by decide)))
  · exact congrArg Host.Outcome.next ((State.gate_seen hsees _).trans
      ((if_neg (by decide)).trans (if_neg (ne_true_of_eq_false hfree))))
  · refine ⟨_, execMsixVectorUnmask_sent v hmask hon hpending, rfl, ?_, ?_, rfl, rfl⟩
    · rw [State.msixOf_send, State.msixOf_setMsix, FMap.get_set_same]
    · rw [State.msixOf_send, State.msixOf_setMsix]
  · refine ⟨_, execMsixVectorUnmask_quiet v hpending, rfl, ?_, rfl, rfl⟩
    rw [State.msixOf_setMsix, FMap.get_set_same]
  · obtain hways | hgran | hsize := hbad
    · exact .inl hways
    · exact .inr (.inl hgran)
    · exact .inr (.inr (.inl hsize))

end Sys2Proof.Machine
end
